-- ==== Sys2Proof/Word.lean ====
section
/-! DEFINITION. The word types of the module and the shape of a register-map row. Register words are 32 bits (R7),
memory is bytes; everything the spec counts or schedules is a `Nat` or an `Int`. -/

namespace Sys2Proof

/-- A register word (R7). -/
abbrev Word := BitVec 32

/-- One byte of memory. -/
abbrev Byte := BitVec 8

/-- A bit field of a register: the register's offset in the setup window, its lowest bit and its width (R3). -/
structure Field where
  addr  : Nat
  lo    : Nat
  width : Nat
  deriving DecidableEq, Repr

/-- One row of the register map: where the register lies, how it repeats, the offset of its `_SDC` companion (R12),
which bits are rw, wc, ws and wo (R10), the value of the Reset column, and which fields' Reset entry is cfg (R385). -/
structure RegDesc where
  addr    : Nat
  strides : List (Nat × Nat)
  sdc     : Option Nat
  rw      : Nat
  wc      : Nat
  ws      : Nat
  wo      : Nat
  reset   : Nat
  cfg     : Nat
  deriving DecidableEq, Repr

end Sys2Proof
end

