-- ==== Sys2Proof/Syntax.lean ====
section
/-! DEFINITION. The commands of the module: one constructor per row of spec/opcode_table.json, with the operands that
the rules of spec/ give the event (an initiator, an address, a value, the bytes of a message, what a pin or the far end
did). A command is whole and indivisible (spec/95_what_each_step_holds.md). -/

namespace Sys2Proof

/-- A PTP message as the Timekeeper takes it (R44, R45): its domain, sequence number, logMessageInterval, twoStepFlag, correction
field in 2^−16 ns, and the time it carries in 2^−16 ns (originTimestamp, preciseOriginTimestamp or receiveTimestamp). -/
structure PtpMsg where
  domain  : Nat
  seq     : Nat
  log     : Int
  twoStep : Bool
  corr    : Int
  time    : Nat
  deriving DecidableEq, Repr

/-- What an Announce message carries (R47, R65): its domain, logMessageInterval, stepsRemoved, and the dataset of the
grandmaster. -/
structure Announce where
  domain   : Nat
  log      : Int
  steps    : Nat
  prio1    : Nat
  cls      : Nat
  accuracy : Nat
  variance : Nat
  prio2    : Nat
  identity : Nat
  deriving DecidableEq, Repr

/-- A DATA frame of a node (R456, R473), whose payload layout is not in the spec: the short address, frame counter, sequence number,
the key generation under whose link key its MIC verifies (none: under no key), the leave and urgent flags, the readings as kind and
value, RSSI and LQI. -/
structure RadData where
  addr     : Nat
  counter  : Nat
  seq      : Nat
  gen      : Option Nat
  leave    : Bool
  urgent   : Bool
  readings : List (Nat × Nat)
  rssi     : Nat
  lqi      : Nat
  deriving DecidableEq, Repr

/-- A JOIN_REQ (R460, R463): the node's EUI-64, the period exponent it asks for, its drift in ppm, its kind mask, whether its MIC
verifies, RSSI and LQI, and its frame counter. -/
structure RadJoin where
  eui   : Nat
  e     : Nat
  drift : Nat
  kinds : Nat
  good  : Bool
  rssi  : Nat
  lqi   : Nat
  counter : Nat := 0
  deriving DecidableEq, Repr

/-- A frame that a listener hears (R479). -/
inductive RadHeard where
  /-- A POLL to a short address, with its frame counter and whether it verifies. -/
  | poll (addr counter : Nat) (good : Bool)
  | data (d : RadData)
  /-- A JOIN_RESP that accepts: EUI-64, index, exponent, slot, phase, drift and kind mask, its frame counter, and whether it
  verifies. -/
  | join (eui i e slot phase drift kinds counter : Nat) (good : Bool)
  deriving DecidableEq, Repr

/-- A CAN frame: identifier, extended and remote flags, FD, bit-rate switch, DLC, and data (R484). -/
structure CanFrame where
  id     : Nat
  ext    : Bool
  remote : Bool := false
  fd     : Bool := false
  brs    : Bool := false
  dlc    : Nat
  data   : List Byte
  deriving DecidableEq, Repr

/-- The commands of the block, in the order of spec/opcode_table.json. -/
inductive Instr where
  /-- UNALIGNED_ACCESS (R7): A setup-window access of the wrong size or alignment has no effect and is answered with a bus error. -/
  | unalignedAccess (ini addr size : Nat) (write : Bool)
  /-- REGISTER_WRITE (R10): A write to a register without a row of its own applies its access codes, range checks and wc clears. -/
  | registerWrite (ini addr : Nat) (w : Word) (meet : Nat)
  /-- LIVE_VALUE_READ (R13): A read of the low word of a live value returns it and snapshots the higher words for that initiator. -/
  | liveValueRead (ini addr : Nat)
  /-- TMK_CFG_WRITE (R59): A write to TMK_CFG starts or stops PTP, the servo and reference selection, or changes oscillator source or wrap mode. -/
  | tmkCfgWrite (ini : Nat) (w : Word)
  /-- SYNC (R55): A Sync message is taken on a port, stamped and used for the offset of its exchange. -/
  | sync (p : Nat) (m : PtpMsg) (stamp : Nat)
  /-- FOLLOW_UP (R45): A Follow_Up message is taken and supplies the precise origin time of a two-step Sync. -/
  | followUp (p : Nat) (m : PtpMsg)
  /-- DELAY_REQ (R45): A Delay_Req is taken on a master port and answered with Delay_Resp. -/
  | delayReq (p : Nat) (m : PtpMsg) (stamp : Nat)
  /-- DELAY_RESP (R55): A Delay_Resp is taken on the slave port and completes the delay measurement. -/
  | delayResp (p : Nat) (m : PtpMsg)
  /-- ANNOUNCE (R47): An Announce message is taken and feeds best master selection, hop count and candidate qualification. -/
  | announce (p : Nat) (a : Announce)
  /-- PTP_SYNC_SEND (R44): A master port sends Sync, with Follow_Up when two-step, at its sync interval. -/
  | ptpSyncSend (p stamp : Nat)
  /-- PTP_ANNOUNCE_SEND (R44): A master port sends Announce at its announce interval. -/
  | ptpAnnounceSend (p : Nat)
  /-- PTP_DELAY_REQ_SEND (R55): The slave port sends Delay_Req and stamps its egress. -/
  | ptpDelayReqSend (p stamp : Nat)
  /-- ANNOUNCE_TIMEOUT (R64): No Announce within the receipt timeout disqualifies the candidate. -/
  | announceTimeout (p : Nat)
  /-- SYNC_TIMEOUT (R64): Three Sync intervals without a Sync disqualify the candidate and may start a bridge or holdover. -/
  | syncTimeout (p : Nat)
  /-- CANDIDATE_QUALIFIED (R64): A candidate that has held its conditions for 2 s becomes QUALIFIED and may be selected. -/
  | candidateQualified (p : Nat)
  /-- BRIDGE_COMMIT (R67): The settle window ends and the target reference is selected, the servo entering PULL. -/
  | bridgeCommit
  /-- EXT_INPUT_QUALIFIED (R70): The external 10 MHz input has run in tolerance for 2 s and becomes qualified. -/
  | extInputQualified
  /-- LANE_SKEW_MEASURED (R50): Lane skew of U0 or U1 is measured after link-up and stamping begins on the port. -/
  | laneSkewMeasured (p : Nat) (skew : Int)
  /-- TSQ_POP (R76): A write of 1 to TMK_TSQ_POP discards the head entry of the transmit time-stamp queue. -/
  | tsqPop (ini : Nat) (w : Word)
  /-- LAUNCH_TIME_REACHED (R77): A held frame reaches its launch time and starts on the wire. -/
  | launchTimeReached (p q : Nat)
  /-- PPS_EDGE (R57): TIME_PPS_OUT rises at each whole second of wall time when enabled. -/
  | ppsEdge (sec : Nat)
  /-- LINK_UP (R84): A port's PCS aligns (and RS-FEC locks) and the port reports link up. -/
  | linkUp (p : Nat)
  /-- LINK_DOWN (R84): A port loses link; the loss is flagged and counted and queued frames stay queued. -/
  | linkDown (p : Nat)
  /-- FRAME_RECEIVED (R87): A frame is taken whole into the port receive buffer, checked, counted, parsed and steered. -/
  | frameReceived (p : Nat) (f : List Byte) (fcsOk : Bool) (pcs pcsIdle fec fecBad stamp : Nat)
  /-- FRAME_COPY_DELIVER (R98): A copy of a steered frame is delivered to or refused by a host queue or Anvil slice once it wins arbitration. -/
  | frameCopyDeliver (dest : Nat)
  /-- TX_FRAME_SEND (R110): The highest eligible transmit queue of a port sends its head frame whole and writes its completion. -/
  | txFrameSend (p t : Nat)
  /-- RULE_WRITE (R124): The NET command writes a steering rule atomically. -/
  | ruleWrite
  /-- GROUP_ADD (R96): The NET command adds or updates a multicast group and reports its number. -/
  | groupAdd
  /-- GROUP_DELETE (R96): The NET command deletes a multicast group by key. -/
  | groupDelete
  /-- SA_INSTALL (R120): The NET command installs a MACsec SA with a key copied from a Keystore slot. -/
  | saInstall
  /-- SA_ACTIVATE_TX (R121): The NET command makes an installed AN the active transmit SA at a frame boundary. -/
  | saActivateTx
  /-- SA_DELETE (R123): The NET command removes an installed MACsec SA. -/
  | saDelete
  /-- CAGE_MGMT_TRANSFER (R591): A write of go to NET_CAGE_MGMT starts a one-byte management transfer to the transceiver. -/
  | cageMgmtTransfer (ini c : Nat) (w : Word)
  /-- CAGE_MGMT_COMPLETE (R591): A cage management transfer ends, storing the byte read or the nack flag and clearing go. -/
  | cageMgmtComplete (c : Nat) (ack : Bool) (data : Nat)
  /-- CAGE_OVERCURRENT (R590): Cage current above 1.5 A for 1 ms switches that cage's supply off. -/
  | cageOvercurrent (c : Nat)
  /-- CANVAS_SET (R144): The Anvil command sets rate, mode, slots, latency and t_adm of the canvas after its checks. -/
  | canvasSet
  /-- STREAM_SET (R154): The Anvil command sets the parameters of one ingest stream. -/
  | streamSet
  /-- STREAM_START (R126): The Anvil command starts a stream after the overlap, pool, Temper and load checks. -/
  | streamStart
  /-- STREAM_STOP (R127): The Anvil command stops a stream, refusing its filling frames with STOPPED. -/
  | streamStop
  /-- ADMISSION_DEADLINE (R142): D(k) passes and an undecided frame is refused LATE, INCOMPLETE or ABSENT, with deferred reports written. -/
  | admissionDeadline (k : Nat)
  /-- PRESENTATION_TIME (R147): At P(k) the ports begin the admitted frame, a repeat or dark, slots are released and flags set. -/
  | presentationTime (k : Nat)
  /-- SLACK_RESET (R155): A write of 1 to ANV_SLACK_RESET sets ANV_SLACK_MIN to its start value. -/
  | slackReset (ini : Nat) (w : Word)
  /-- BAND_GRADED (R160): A band whose pixels have all arrived is graded through the pipeline and released. -/
  | bandGraded (k port band : Nat)
  /-- TEMPER_COMMIT (R185): The Anvil command reads and checks a Temper set and makes it active for later frames. -/
  | temperCommit
  /-- TEMPER_COMMIT_DRAINED (R185): The last frame graded under the old set finishes and the commit completes. -/
  | temperCommitDrained
  /-- RECODE_PASS_DONE (R175): The background recode of every age word under new ageing curves ends. -/
  | recodePassDone
  /-- BRIGHTNESS (R177): The Anvil command sets a brightness target, ramp length and start index. -/
  | brightness
  /-- DEAD_SET (R181): The Anvil command sets named dead-map bits to 1. -/
  | deadSet
  /-- DEAD_CLEAR (R181): The Anvil command sets named dead-map bits to 0. -/
  | deadClear
  /-- AGE_CKPT_LOAD (R176): The Anvil command rebuilds every integrator and age word from the MRAM checkpoint. -/
  | ageCkptLoad
  /-- AGE_CKPT_SAVE (R176): The Anvil command writes the age checkpoint to MRAM. -/
  | ageCkptSave
  /-- AGE_CHECKPOINT_TIMER (R176): Every 10 min of operation with ckpt_en the checkpoint is written. -/
  | ageCheckpointTimer
  /-- GREY_SET (R212): The Anvil command loads the greyscale configuration after its ordered checks. -/
  | greySet
  /-- LOAD_CELL_SEND (R221): A data-lane cell of grey words is sent when the port's output queue holds words. -/
  | loadCellSend (p : Nat)
  /-- LINE_SET (R227): A port sends the LINE set of a line slot timed to its edge, applying one fine-delay step. -/
  | lineSet (p k j i l : Nat)
  /-- SUBF_SET (R227): A port sends the SUBF set of a subframe, carrying the frame command at j = 0. -/
  | subfSet (p k j : Nat)
  /-- GRID_CHANGE_APPLY (R238): Ports in RUN switch to the new grid at the first P(k) at least 1 ms after a configuration change. -/
  | gridChangeApply (k : Nat)
  /-- CHAIN_SET (R251): The scan command sets a port's chain, lane rate, flywheel, anticipation, images and rail runs. -/
  | chainSet
  /-- PORT_START (R237): The scan command starts the train, enumerate, identify, measure, geometry and image steps of a port. -/
  | portStart
  /-- PORT_START_STEP_DONE (R237): A start step of a port completes and the next begins, or the port enters FAULT or RUN. -/
  | portStartStepDone (p : Nat)
  /-- TRAIN_TIMEOUT (R237): The return lane has not locked within 10 ms and the port enters FAULT with TRAIN_TIMEOUT. -/
  | trainTimeout (p : Nat)
  /-- PORT_STOP (R239): The scan command sends BLANK and puts the port in OFF. -/
  | portStop
  /-- QUENCH_SET (R245): The scan command asserts qs_host for a port or all ports. -/
  | quenchSet
  /-- QUENCH_RESUME (R247): The scan command releases qs_host so the port leaves QUENCHED at the next admitted frame. -/
  | quenchResume
  /-- DK_ACCESS (R250): The scan command reads or writes a DK-16 register and completes on its reply. -/
  | dkAccess
  /-- DK_RELOAD (R244): The scan command rewrites the register images of a port's DK-16. -/
  | dkReload
  /-- REMEASURE (R234): The scan command measures RT_0 and every a_d of a port again. -/
  | remeasure
  /-- IMAGE_CHUNK_READ (R244): A budgeted read of DK-16 images completes and the images are written to their drivers with APPLY. -/
  | imageChunkRead (n : Nat)
  /-- REP_RECEIVED (R224): A REP set arrives on the return lane and answers a poll, measurement or access. -/
  | repReceived (p d status : Nat) (held : Bool) (opcode reg data rt : Nat) (bad : Bool)
  /-- OPEN (R241): An OPEN alert arrives, marking the dead-map bit and writing a report entry. -/
  | open (p d ch line : Nat) (bad : Bool)
  /-- SHORT (R241): A SHORT alert arrives, marking the dead-map bit and writing a report entry. -/
  | short (p d ch line : Nat) (bad : Bool)
  /-- SHUTDOWN (R245): A SHUTDOWN alert arrives and asserts qs_shutdown for the port. -/
  | shutdown (p d temp : Nat) (bad : Bool)
  /-- DAMAGED (R248): A DAMAGED alert arrives and is reported and counted in damaged_shows. -/
  | damaged (p d : Nat) (bad : Bool)
  /-- LOST_INPUT (R249): A LOST_INPUT alert arrives and is reported. -/
  | lostInput (p d : Nat) (bad : Bool)
  /-- REG_LOST (R243): A REG_LOST alert arrives and reaches Bellows, raising the rail target of its group. -/
  | regLost (p d ch line : Nat) (bad : Bool)
  /-- POLL_REQUEST (R242): The poll sends a read of STATUS, TEMP or HEADROOM to the next DK-16. -/
  | pollRequest (p : Nat)
  /-- REQUEST_TIMEOUT (R242): A DK-16 request goes unanswered, is resent, and on the third timeout raises qs_chain. -/
  | requestTimeout (p d : Nat)
  /-- CABLE_REMEASURE (R234): The periodic RT_0 round trip is measured on a port in RUN. -/
  | cableRemeasure (p : Nat)
  /-- CHAIN_OFFSET_MEASURE (R234): The periodic measurement of every a_d is made and FIRE_TRIM written. -/
  | chainOffsetMeasure (p : Nat)
  /-- RETURN_LANE_LOST (R245): The return lane loses lock and qs_lock blanks the port. -/
  | returnLaneLost (p : Nat)
  /-- RETURN_LANE_RELOCKED (R245): The return lane has been locked for 10 ms and qs_lock goes. -/
  | returnLaneRelocked (p : Nat)
  /-- MODULE_QUENCH (R245): The module Quench signal is asserted or released and every port follows qs_module. -/
  | moduleQuench (on : Bool)
  /-- STANDBY_CELL_OBSERVED (R267): A standby sees one of the twin's cells complete on its monitor receivers and drains its queue to match. -/
  | standbyCellObserved (p : Nat)
  /-- HELLO (R256): A HELLO is taken after training and the session key is derived. -/
  | hello (f : List Byte)
  /-- HEARTBEAT (R258): A HEARTBEAT from the twin is taken, updating its role, health and state. -/
  | heartbeat (f : List Byte) (lines : Nat)
  /-- HEARTBEAT_SEND (R259): Every 10 µs the module sends HEARTBEAT on the twin link. -/
  | heartbeatSend
  /-- TIMECMP (R260): A TIMECMP request or response is taken and stamped, updating δ. -/
  | timecmp (f : List Byte) (stamp far : Nat)
  /-- TIMECMP_SEND (R260): Every 1 ms the standby sends a TIMECMP request. -/
  | timecmpSend
  /-- DECISION (R271): A DECISION from the active is taken and the standby decides the frame under it. -/
  | decision (f : List Byte)
  /-- STANDBY_DECISION_TIMEOUT (R271): D(k) + 10 µs passes on a standby and it decides the frame alone or as diverged. -/
  | standbyDecisionTimeout (k : Nat)
  /-- MIRROR (R272): A MIRROR frame is taken and its class data written on the standby. -/
  | mirror (f : List Byte)
  /-- DIGEST (R272): A DIGEST of an ageing update set is taken and compared, requesting a recopy on mismatch. -/
  | digest (f : List Byte)
  /-- HANDOFF (R282): A HANDOFF is taken by the standby and answered with ACK. -/
  | handoff (f : List Byte)
  /-- ACK (R282): An ACK to a HANDOFF is taken by the active. -/
  | ack (f : List Byte)
  /-- TWIN_LINK_TIMEOUT (R259): No twin frame is accepted for 50 µs; the link goes down, synchronisation clears and retraining starts. -/
  | twinLinkTimeout
  /-- CLASS_COPY (R274): A registered class is copied whole to the standby at its interval and its generation written. -/
  | classCopy (cls : Nat)
  /-- CLASS_STALE (R272): A class exceeds its staleness bound and the standby ceases to be synchronised. -/
  | classStale (cls : Nat)
  /-- DEAD_MAP_CRC_SEND (R272): Every 10 s the active sends the CRC-64 of the whole dead map. -/
  | deadMapCrcSend
  /-- PEER_CLAIM_RELEASED (R264): The peer claim is seen released without a HANDOFF and a healthy standby chooses its takeover boundary. -/
  | peerClaimReleased
  /-- CLAIM_FAULT (R261): The two peer claim lines disagree for 1 µs and the claim is treated as asserted. -/
  | claimFault
  /-- CLAIM_KEEPER_EXPIRY (R262): 4 µs without a refresh sets the scan lanes to high impedance and releases the claim. -/
  | claimKeeperExpiry
  /-- HEALTH_LOST (R263): A health condition fails and an active module drops its drivers and releases its claim. -/
  | healthLost
  /-- HOST_WATCHDOG_EXPIRY (R263): The host watchdog period passes without a kick and the module becomes unhealthy. -/
  | hostWatchdogExpiry
  /-- WATCHDOG_KICK (R263): A write of 1 to TWN_WDOG restarts the host watchdog. -/
  | watchdogKick (ini : Nat) (w : Word)
  /-- ELECTION_WAIT_EXPIRY (R265): The slot wait of election ends and the module asserts its claim if the peer is released. -/
  | electionWaitExpiry (peer : Nat)
  /-- ELECTION_SETTLE (R265): The 10 µs settle time ends and the module becomes ACTIVE or STANDBY. -/
  | electionSettle (peer : Nat)
  /-- TIMED_CLAIM (R266): No claim has been asserted for 100 or 200 µs and a healthy module claims. -/
  | timedClaim (peer : Nat)
  /-- TAKEOVER_DRIVE (R278): 2 µs before the takeover boundary the standby asserts its claim and drives IDLE, then continues its schedule. -/
  | takeoverDrive (peer : Nat)
  /-- SWITCH (R281): The Tongs command moves ownership to a synchronised standby by a hand-off. -/
  | switch
  /-- HANDOFF_BOUNDARY (R282): At the agreed S_p both modules drive SCK, the lanes pass to the standby and the active releases. -/
  | handoffBoundary (peer : Nat)
  /-- HANDOFF_ACK_TIMEOUT (R282): No ACK arrives within 20 µs and the hand-off is abandoned. -/
  | handoffAckTimeout
  /-- HANDOFF_ABORT (R284): The new owner has not claimed 2 µs after S_p and the former active takes over. -/
  | handoffAbort
  /-- CLASS_REGISTER (R273): The Tongs command assigns a free class to a host memory region with a tag. -/
  | classRegister
  /-- CLASS_RELEASE (R287): The Tongs command frees a registered class. -/
  | classRelease
  /-- RESYNC (R276): The Tongs command makes the active send join copies to the standby. -/
  | resync
  /-- DOORBELL (R296): A write to DBL_RING sets a ring's producer index after its checks. -/
  | doorbell (ini : Nat) (w : Word)
  /-- RING_CFG_WRITE (R294): A write to HRT_RING_CFG enables a ring, resetting its indices, or disables it. -/
  | ringCfgWrite (ini n : Nat) (w : Word)
  /-- RING_DRAIN_DONE (R301): After a disable the engine writes its last completion and busy returns to 0. -/
  | ringDrainDone (n : Nat)
  /-- CPL_TAIL_WRITE (R299): A write to HRT_RING_CPL_TAIL releases completions and re-evaluates coalescing. -/
  | cplTailWrite (ini n : Nat) (w : Word)
  /-- COALESCE_TIMER (R309): The oldest unreleased completion reaches time_us and the completion vector is asserted. -/
  | coalesceTimer (n : Nat)
  /-- IRQ_CLAIM (R307): A read of HRT_IRQ_CLAIM returns the highest pending vector and places it in service. -/
  | irqClaim (ini c : Nat)
  /-- IRQ_EOI (R307): A write to HRT_IRQ_EOI ends service of a vector. -/
  | irqEoi (ini c : Nat) (w : Word)
  /-- SWI_SET (R311): A write to HRT_SWI_SET raises software interrupts. -/
  | swiSet (ini : Nat) (w : Word)
  /-- MBX_WDATA_LO_WRITE (R313): A write to HRT_MBX_WDATA_LO stages the low payload word for that initiator. -/
  | mbxWdataLoWrite (ini q : Nat) (w : Word)
  /-- MBX_WDATA_HI_WRITE (R313): A write to HRT_MBX_WDATA_HI queues the word, or holds the writer while the queue is full. -/
  | mbxWdataHiWrite (ini q : Nat) (w : Word)
  /-- MBX_HELD_WRITE_QUEUED (R316): A held mailbox write is queued when room appears or after a flush. -/
  | mbxHeldWriteQueued (q : Nat)
  /-- MBX_RDATA_LO_READ (R314): A read of HRT_MBX_RDATA_LO removes the head word and fills the reader's holder. -/
  | mbxRdataLoRead (ini q : Nat) (upset : Nat)
  /-- MBX_FLUSH (R316): A write of flush empties a mailbox queue and ends a drop. -/
  | mbxFlush (ini q : Nat) (w : Word)
  /-- MBX_DROP_PKT (R317): A write of drop_pkt discards words up to the end of the current packet. -/
  | mbxDropPkt (ini q : Nat) (w : Word)
  /-- LOCKSTEP_MISMATCH (R291): The comparator finds the real-time pair mismatching, blocks its writes and holds it in reset. -/
  | lockstepMismatch
  /-- LOCKSTEP_RESTART (R291): After 10 µs in reset the real-time pair restarts from its reset vector. -/
  | lockstepRestart
  /-- MEMORY_READ (R326): A read is judged by the firewall and ECC-checked, correcting single-bit errors and reporting uncorrectable ones. -/
  | memoryRead (ini : Nat) (tcm : Bool) (addr len : Nat) (l2 : Bool) (upset latency : Nat)
  /-- MEMORY_WRITE (R329): A write is judged by the firewall and stored, narrow writes by read-modify-write, flipped if armed. -/
  | memoryWrite (ini : Nat) (tcm : Bool) (addr : Nat) (data : List Byte) (poisoned : Bool)
  /-- SCRUB_READ (R331): The scrub engine reads the next word of a memory at its pass rate. -/
  | scrubRead (x upset : Nat)
  /-- FWL_COMMIT (R343): A write of go to FWL_COMMIT checks the shadow table and makes it active. -/
  | fwlCommit (ini : Nat) (w : Word)
  /-- FWL_FENCE_DRAINED (R344): No access judged under an earlier firewall table is outstanding and drained becomes 1. -/
  | fwlFenceDrained
  /-- FWL_LOCK (R345): A write setting FWL_CFG.lock restricts table writes to initiator 4. -/
  | fwlLock (ini : Nat) (w : Word)
  /-- DISP_LAT_READ (R337): A read of MEM_DISP_LAT_MAX returns the longest display latency and resets it. -/
  | dispLatRead (ini : Nat)
  /-- STATE_REQUEST (R352): A write to BLW_STATE_REQ starts a power state transition or is refused. -/
  | stateRequest (ini : Nat) (w : Word)
  /-- DOMAIN_POWER_STEP (R353): One domain of a transition is powered up or down, and state_done is set after the last. -/
  | domainPowerStep
  /-- DOMAIN_FAULT (R349): A domain's power-good falls for 1 µs and Bellows isolates and powers it off. -/
  | domainFault (d : Nat)
  /-- DOMAIN_RESTART (R372): The Bellows command powers up a faulted domain. -/
  | domainRestart
  /-- POWER_FAIL_WARNING (R360): VIN below warn_mv for 2 µs opens the input switch and starts flush, hand-off and RTC lock-out. -/
  | powerFailWarning
  /-- PF_COMMIT (R361): commit_us after the warning, the warning commits and a non-owner powers off its domains. -/
  | pfCommit
  /-- HOLDUP_END (R362): The store reaches its end threshold; the owner quenches and every domain but PD00 goes off. -/
  | holdupEnd
  /-- VIN_RESTORED (R363): VIN returns for 1 ms and the warning is withdrawn, or the module restarts after commit. -/
  | vinRestored
  /-- VIN_OVERVOLTAGE (R347): VIN rises above 5,500 mV and vin_ov is set. -/
  | vinOvervoltage (mv : Nat)
  /-- VBAT_LOW (R348): VBAT falls below 2,200 mV and vbat_low is set. -/
  | vbatLow
  /-- SEATED_LOST (R585): MOD_SEATED_N high for 2 µs raises the power-fail warning. -/
  | seatedLost
  /-- WAKE_REQUEST (R356): An enabled wake source fires, is latched and in DARK takes the module to IDLE. -/
  | wakeRequest (n : Nat)
  /-- THERMAL_SHUTDOWN (R370): A sensor reads 115 °C on 3 samples and Bellows asserts qs_module. -/
  | thermalShutdown
  /-- THERMAL_POWER_OFF (R370): 100 µs after a thermal shutdown every domain but PD00 to PD02 is powered off. -/
  | thermalPowerOff
  /-- THERMAL_RESTART (R371): Sensor 0 below restart_c for 10 s restarts the module when auto_restart is 1. -/
  | thermalRestart
  /-- RAIL_CFG (R373): The Bellows command configures a rail group's mode, limits and tracking. -/
  | railCfg
  /-- RAIL_SET (R372): The Bellows command sets a group's fixed target or h_target. -/
  | railSet
  /-- TRACKING_ROUND (R369): Every track_ms a TRACK group's target is raised or lowered from its headroom. -/
  | trackingRound (g : Nat)
  /-- HOLDOFF_EXPIRY (R369): holdoff_ms after a REG_LOST the group may be lowered again. -/
  | holdoffExpiry (g : Nat)
  /-- SETPOINT_SLEW (R367): Every 10 µs v_now moves towards the target at the slew rate. -/
  | setpointSlew
  /-- RAIL_SETPOINT_MESSAGE (R368): The owner sends v_now to a rail group every 1 ms while slewing or every 100 ms otherwise. -/
  | railSetpointMessage (g : Nat)
  /-- POWER_ON_RESET (R375): A power-on reset runs the start phases of fuse, clocks, identity, image and records. -/
  | powerOnReset (causes dom : Nat)
  /-- IDENTITY_RETRY (R381): 5 ms after an unacknowledged identity read the module tries again. -/
  | identityRetry
  /-- RELEASE (R390): The start ends at release and the processors begin to run in READY. -/
  | release
  /-- START_WATCHDOG_EXPIRY (R388): A start not released within 2.0 s raises a power-on reset with cause 7. -/
  | startWatchdogExpiry
  /-- BP_RESET (R393): BP_RESET_N held low for 10 µs raises a power-on reset that begins on its rise. -/
  | bpReset (low : Bool)
  /-- BACKUP_POWER_UP (R392): PD00 regains power after falling below 2,000 mV and every domain is reset. -/
  | backupPowerUp
  /-- ALWAYS_ON_POWER_UP (R392): PD01 regains power after VIN and the store were lost. -/
  | alwaysOnPowerUp
  /-- HOST_RESTART (R394): BOOT_RESET kind 1 with its key raises a power-on reset with cause 8. -/
  | hostRestart (ini : Nat) (w : Word)
  /-- CORE_RESET (R394): BOOT_RESET kind 2 with its key resets one application core. -/
  | coreReset (ini : Nat) (w : Word)
  /-- REF_INPUT_LOST (R398): A reference PLL input is lost and the PLL changes input or enters hold. -/
  | refInputLost (tcxo ext : Bool)
  /-- TCXO_REQUALIFIED (R399): A lost TCXO runs in tolerance for 2 s and qualifies again. -/
  | tcxoRequalified
  /-- OSC_SWITCH_DONE (R397): A phase build-out change of reference input completes. -/
  | oscSwitchDone
  /-- PLL_UNLOCK (R401): A PLL unlocks and the module acts as the table for that PLL states. -/
  | pllUnlock (pll : Nat)
  /-- ANVIL_PLL_RELOCKED (R401): The Anvil PLL has been locked for 1 ms and qs_module is released. -/
  | anvilPllRelocked
  /-- SYNCE_LOST (R402): The selected port's recovered clock is lost and the time PLL changes to the reference PLL. -/
  | synceLost
  /-- CRYSTAL_LOST (R403): Eight RC periods without a crystal edge switch PD01 to the RC oscillator. -/
  | crystalLost
  /-- CRYSTAL_RESTORED (R403): The crystal has run 1 s without a break and PD01 changes back at a tick boundary. -/
  | crystalRestored
  /-- RTC_TICK (R412): Each 32.768 kHz tick advances the RTC count with adjustment, trim, leap and alarm comparison. -/
  | rtcTick
  /-- RTC_ADJUST (R418): A write of go to RTC_ADJ_CTRL requests a signed adjustment at the next tick. -/
  | rtcAdjust (ini : Nat) (w : Word)
  /-- ALARM_ARM (R420): A write to an alarm's W2 arms or disarms it. -/
  | alarmArm (ini a : Nat) (w : Word)
  /-- LEAP_SCHEDULE (R417): A write to RTC_LEAP schedules a leap second or is refused. -/
  | leapSchedule (ini : Nat) (hi : Bool) (w : Word)
  /-- DISCIPLINE_SECOND (R423): At each second the RTC error is stamped, and at window ends the trim and count are corrected. -/
  | disciplineSecond (edge : Nat)
  /-- RTC_OSC_STOPPED (R414): The crystal stops while PD01 is off and the count stops and becomes invalid. -/
  | rtcOscStopped
  /-- METER_CHANNEL_FAULT (R429): A meter channel loses transitions or shows code violations and its samples go to 0. -/
  | meterChannelFault (c : Nat)
  /-- METER_CHANNEL_RECOVERED (R429): A faulted channel runs 10 ms without a fault and its samples return. -/
  | meterChannelRecovered (c : Nat)
  /-- METER_BLOCK (R434): A block ends; powers, accumulators, detections, harmonics and result entries are computed. -/
  | meterBlock (x : List (List Int)) (cycles dur : Nat)
  /-- CAL_APPLY (R433): A write of go to MTR_CAL_APPLY makes the shadow calibration set active at the next block. -/
  | calApply (ini : Nat) (w : Word)
  /-- FMOD_MEASURE (R428): Each second the modulator rate is measured against the reference PLL. -/
  | fmodMeasure (f : Nat)
  /-- METER_SAVE (R438): Every 10 min and before PD03 powers down the accumulators are handed to the Recorder. -/
  | meterSave
  /-- BATTERY_BURST (R446): At each interval while PD03 is off the current-only path measures a burst and judges theft. -/
  | batteryBurst (rms : List Nat) (moved : Bool)
  /-- BEACON_SLOT (R454): Slot 0 of a cycle begins; the coordinator sends BEACON and any JOIN_RESP. -/
  | beaconSlot
  /-- POLL_SLOT (R458): A poll slot begins and the coordinator sends POLL to the node of its phase. -/
  | pollSlot
  /-- JOIN_REQ (R464): A JOIN_REQ is taken in a beacon slot and judged for the next JOIN_RESP. -/
  | joinReq (j : RadJoin)
  /-- DATA (R458): A node's DATA is verified and its readings written to the sensor ring. -/
  | data (d : RadData)
  /-- DATA_TIMEOUT (R461): No DATA begins in time after POLL and the poll counts as missed. -/
  | dataTimeout
  /-- HEARD_FRAME (R479): A listener hears and verifies a coordinator or node frame and updates its table. -/
  | heardFrame (h : RadHeard)
  /-- RADIO_ENABLE (R457): A write of RAD_CTRL.enable checks the schedule and reads the master key. -/
  | radioEnable (ini : Nat) (w : Word)
  /-- RADIO_ROLE_CHANGE (R453): The acting radio role changes, a new coordinator merging the mirror first. -/
  | radioRoleChange
  /-- RADIO_MIRROR_WRITE (R480): At each mirror interval the coordinator writes its node table into the mirror region. -/
  | radioMirrorWrite
  /-- NODE_EVICT (R466): The radio command frees a node entry at the next slot boundary. -/
  | nodeEvict
  /-- NODE_READ (R478): The radio command copies one node table entry to host memory. -/
  | nodeRead
  /-- DOWNLINK (R482): The radio command carries data to a node in its next POLL. -/
  | downlink
  /-- REKEY (R472): The radio command moves a node to its next key generation. -/
  | rekey
  /-- CAN_FRAME_RECEIVED (R490): A received CAN frame is matched against receive objects and buffered or reported. -/
  | canFrameReceived (n : Nat) (f : CanFrame)
  /-- CAN_FRAME_SENT (R495): A transmit object's frame leaves, loses arbitration or meets an error and completes. -/
  | canFrameSent (n outcome : Nat)
  /-- CAN_BUS_ERROR (R487): A bus error changes the error counters and may enter error passive or bus-off. -/
  | canBusError (n lec : Nat) (sender exempt heavy : Bool)
  /-- RECOVER (R488): A write of recover starts bus-off recovery of a channel. -/
  | recover (ini n : Nat)
  /-- BUS_OFF_RECOVERED (R488): 128 recessive sequences are seen and the channel becomes error active. -/
  | busOffRecovered (n : Nat)
  /-- CAN_SLEEP (R501): A write of sleep puts a channel's transceiver to sleep with its wake configuration. -/
  | canSleep (ini n : Nat)
  /-- CAN_WAKE_WRITE (R503): A write of wake makes a sleeping channel integrate to the bus again. -/
  | canWakeWrite (ini n : Nat)
  /-- CAN_WAKE (R502): A sleeping transceiver sees its wake pattern or frame and raises wake. -/
  | canWake (n : Nat) (f : Option CanFrame)
  /-- OBJ_SET (R504): The cabinet bus command sets up a message object. -/
  | objSet
  /-- TX_LOAD (R493): The cabinet bus command loads a transmit object's data and may send it. -/
  | txLoad
  /-- TX_ABORT (R497): The cabinet bus command ends a pending send of an object. -/
  | txAbort
  /-- PERIODIC_SEND (R495): A periodic transmit object's period expires and its frame is queued. -/
  | periodicSend (n o : Nat)
  /-- OBJECT_READ (R492): A read of an object's word 0 snapshots the object and clears new and overrun. -/
  | objectRead (ini n o : Nat)
  /-- KEY_WRITE (R513): The Keystore command writes a key, plain or wrapped, into a slot. -/
  | keyWrite (readback : Bool)
  /-- KEY_GENERATE (R513): The Keystore command fills a slot with a random key. -/
  | keyGenerate (readback : Bool)
  /-- KEY_DERIVE_HKDF (R519): The Keystore command derives a key by HKDF into a slot. -/
  | keyDeriveHkdf (readback : Bool)
  /-- KEY_DERIVE_108 (R520): The Keystore command derives a key by the SP 800-108 counter KDF into a slot. -/
  | keyDerive108 (readback : Bool)
  /-- KEY_ATTR (R534): The Keystore command changes a slot's binding, seal, clear or permanent bits. -/
  | keyAttr
  /-- KEY_ERASE (R517): The Keystore command commits an EMPTY copy and zeroes the slot. -/
  | keyErase
  /-- KEY_INFO (R536): The Keystore command reports a slot's generation, KCV and attributes. -/
  | keyInfo (bad : Bool)
  /-- HMAC_GEN (R529): The service operation computes HMAC-SHA-256 over data. -/
  | hmacGen (bad : Bool)
  /-- HMAC_VERIFY (R531): The service operation verifies an HMAC in constant time. -/
  | hmacVerify (bad : Bool)
  /-- GCM_SEAL (R530): The service operation encrypts and tags data with a counter nonce. -/
  | gcmSeal (bad : Bool)
  /-- GCM_OPEN (R531): The service operation verifies and decrypts GCM data. -/
  | gcmOpen (bad : Bool)
  /-- ECDSA_VERIFY (R529): The service operation verifies an ECDSA P-384 signature. -/
  | ecdsaVerify (bad : Bool)
  /-- RANDOM (R529): The service operation writes random bytes. -/
  | random
  /-- KEY_REQUEST (R522): An engine names a slot on the key path and receives the key or a refusal. -/
  | keyRequest (requester slot : Nat) (clear bad : Bool)
  /-- REMASK (R511): A slot in use is re-masked with fresh shares at the re-mask rate. -/
  | remask (bad : Bool)
  /-- KEY_FENCE_DRAINED (R527): No operation checked under an older attribute set remains and drained becomes 1. -/
  | keyFenceDrained
  /-- KEY_LOCK (R533): A write setting KEY_CFG.lock restricts ring 0x08 doorbells to initiator 4. -/
  | keyLock (ini : Nat) (w : Word)
  /-- RNG_HEALTH_FAIL (R532): A random source health test fails and rng_ok becomes 0. -/
  | rngHealthFail
  /-- RNG_RECOVERED (R532): 1,024 samples in a row pass and rng_ok returns to 1. -/
  | rngRecovered
  /-- UPD_WRITE (R544): The update command programs data into a slot or the staging area. -/
  | updWrite
  /-- UPD_CHECK (R545): The update command checks an image or package and makes it VALID on a pass. -/
  | updCheck
  /-- UPD_ACTIVATE (R546): The update command makes a valid slot TRIAL or the staging area PENDING. -/
  | updActivate
  /-- UPD_CANCEL (R546): The update command returns an unstarted activation to VALID. -/
  | updCancel
  /-- UPD_CONFIRM (R549): The update command confirms the trial image and raises the rollback floor. -/
  | updConfirm
  /-- UPD_PROC_SWAP (R552): The update command loads an engine microcontroller's section from a slot. -/
  | updProcSwap
  /-- WINDOW_WARN (R548): One minute before the confirmation window ends window_warn is set. -/
  | windowWarn
  /-- CONFIRMATION_WINDOW_END (R549): The window ends without confirmation; the trial slot fails and the module restarts with cause 5. -/
  | confirmationWindowEnd
  /-- REC_FLUSH (R581): The Recorder command requests a flush and completes when it is written. -/
  | recFlush
  /-- REC_CLEAR (R576): The Recorder command verifies an authorised clear and resets the scoped parts. -/
  | recClear
  /-- FLUSH_TIMER (R569): flush_min minutes since the last flush, or a merged trigger second, start a flush. -/
  | flushTimer
  /-- FLUSH_DONE (R570): A flush finishes writing logs, image, CRC and seal, and any pending flush begins. -/
  | flushDone
  /-- HISTOGRAM_SAMPLE (R558): Each second of operation the Recorder samples its time histograms, extremes and hours. -/
  | histogramSample (temps : List Int) (vin vbat store : Nat)
  /-- PMC_RUN (R578): A write of PMC_CTRL.run starts or stops every performance counter. -/
  | pmcRun (ini : Nat) (w : Word)
  /-- PMC_ZERO (R578): A write of PMC_CTRL.zero sets every performance counter to 0. -/
  | pmcZero (ini : Nat) (w : Word)
  /-- TWIN_LINK_TRAINED (R256): Training of the twin link lanes ends; on success the module sends HELLO, on failure the link stays down. -/
  | twinLinkTrained (ok : Bool)
  /-- START_PHASE_DONE (R375): A phase of the start sequence (fuse check, DRAM training, identity read, image read and check, records) completes and the next phase begins, or the start ends in FAILED. -/
  | startPhaseDone (ok : Bool) (ident : Option (List Byte))
  /-- CHECKPOINT_COMPLETE (R176): A checkpoint write or load of the age planes finishes, clearing ckpt_busy, setting ckpt_done and completing AGE_CKPT_SAVE or AGE_CKPT_LOAD. -/
  | checkpointComplete
  /-- THERMAL_WARNING (R370): The highest die reading first reaches warn_c, setting therm_warn and therm_hot and triggering a Recorder flush. -/
  | thermalWarning
  /-- TIME_PLL_RELOCKED (R401): The time PLL locks again by itself after an unlock, restoring time_locked and health condition 0 of R263. -/
  | timePllRelocked
  deriving DecidableEq, Repr

end Sys2Proof
end

