-- ==== Sys2Proof/Machine/Bits.lean ====
section
/-! DEFINITION. Bit fields, byte order and rounding: the helpers every chapter uses. Multi-byte values are
little-endian (R4); addresses of Ethernet and IP are byte strings in wire order (R4); rounding is to nearest with
ties to even and saturates (R6). -/

namespace Sys2Proof.Machine

/-- Bits `[lo + n - 1 : lo]` of `v` (R3). -/
def bits (v lo n : Nat) : Nat := (v >>> lo) % 2 ^ n

/-- Bit `n` of `v`. -/
def bit (v n : Nat) : Bool := v.testBit n

/-- `v` with bits `[lo + n - 1 : lo]` replaced by `x` (low n bits of it). -/
def setBits (v lo n x : Nat) : Nat :=
  v - (bits v lo n) * 2 ^ lo + (x % 2 ^ n) * 2 ^ lo

/-- A Bool as a one-bit field. -/
def b2n (b : Bool) : Nat := if b then 1 else 0

/-- The little-endian number a byte string spells (R4). -/
def leNat : List Byte → Nat
  | [] => 0
  | b :: bs => b.toNat + 256 * leNat bs

/-- The `n` little-endian bytes of a number (R4). -/
def natLE : Nat → Nat → List Byte
  | 0, _ => []
  | n + 1, v => BitVec.ofNat 8 v :: natLE n (v / 256)

/-- The number a byte string spells with its first byte most significant (network order). -/
def beNat (bs : List Byte) : Nat := bs.foldl (fun a b => a * 256 + b.toNat) 0

/-- The `n` bytes of a number, most significant first. -/
def natBE (n v : Nat) : List Byte := (natLE n v).reverse

/-- `n` bytes of `bs` from offset `o`. -/
def sliceB (bs : List Byte) (o n : Nat) : List Byte := (bs.drop o).take n

/-- The little-endian field of `n` bytes at offset `o`; bytes past the end read 0. -/
def le (bs : List Byte) (o n : Nat) : Nat := leNat (sliceB bs o n)

/-- The big-endian field of `n` bytes at offset `o`. -/
def be (bs : List Byte) (o n : Nat) : Nat := beNat (sliceB bs o n)

/-- Byte `o` of a byte string, as a number. -/
def byteAt (bs : List Byte) (o : Nat) : Nat := ((bs.drop o).headD 0).toNat

/-- `bs` with `n` bytes at offset `o` replaced by `v`, little-endian; the string keeps its length. -/
def putLE (bs : List Byte) (o n v : Nat) : List Byte :=
  (bs.take o ++ natLE n v ++ bs.drop (o + n)).take (max bs.length (o + n))

/-- `n` bytes of zero. -/
def zeros (n : Nat) : List Byte := List.replicate n 0

/-- The two's complement value of an `n`-bit field. -/
def signed (n v : Nat) : Int := if v % 2 ^ n < 2 ^ (n - 1) then (v % 2 ^ n : Nat) else (v % 2 ^ n : Nat) - (2 ^ n : Nat)

/-- The `n`-bit two's complement field of an integer (wraps). -/
def unsigned (n : Nat) (v : Int) : Nat := (v % (2 ^ n : Nat)).toNat

/-- Saturation to the range of an unsigned field of `n` bits (R6). -/
def satU (n v : Nat) : Nat := min v (2 ^ n - 1)

/-- Saturation to the range of a signed field of `n` bits (R6). -/
def satS (n : Nat) (v : Int) : Int := max (-(2 ^ (n - 1) : Nat) : Int) (min v ((2 ^ (n - 1) : Nat) - 1))

/-- Rounding of `a / b` to nearest, ties to even (R6). -/
def rne (a b : Nat) : Nat :=
  let q := a / b
  let r := a % b
  if 2 * r < b then q else if b < 2 * r then q + 1 else q + q % 2

/-- Rounding of an integer quotient to nearest, ties to even (R6). -/
def rneI (a : Int) (b : Nat) : Int :=
  if 0 ≤ a then rne a.toNat b else -(rne (-a).toNat b : Nat)

/-- Element `i` of a list, or `d` past its end. -/
def nth {α : Type} (l : List α) (i : Nat) (d : α) : α := (l[i]?).getD d

/-- Number of set bits of the low `n` bits. -/
def popCount (n v : Nat) : Nat := (List.range n).foldl (fun a i => a + b2n (v.testBit i)) 0

/-- Lowest set bit of the low `n` bits. -/
def lowestBit (n v : Nat) : Option Nat := (List.range n).find? (fun i => v.testBit i)

/-- The bytes of an ASCII text. -/
def ascii (t : String) : List Byte := t.toList.map fun c => BitVec.ofNat 8 c.toNat

/-! Sparse tables: a key's value in a list sorted by key in which no entry equals what an unlisted key reads as. -/

/-- The value of key `k`. -/
def Sparse.get {β : Type} (d : Nat → β) (l : List (Nat × β)) (k : Nat) : β :=
  match l.find? (fun p => p.1 == k) with
  | some p => p.2
  | none => d k

/-- Insertion in key order, replacing an entry of the same key. -/
def Sparse.put {β : Type} : List (Nat × β) → Nat → β → List (Nat × β)
  | [], k, v => [(k, v)]
  | (a, x) :: l, k, v =>
    if k < a then (k, v) :: (a, x) :: l
    else if k = a then (k, v) :: l
    else (a, x) :: Sparse.put l k v

/-- Removal of a key. -/
def Sparse.del {β : Type} (l : List (Nat × β)) (k : Nat) : List (Nat × β) := l.filter (fun p => p.1 != k)

/-- Writing keeps the canonical form: the default value is not listed. -/
def Sparse.set {β : Type} [DecidableEq β] (d : Nat → β) (l : List (Nat × β)) (k : Nat) (v : β) : List (Nat × β) :=
  if v = d k then Sparse.del l k else Sparse.put l k v

/-- Keys strictly rising and no entry equal to what an unlisted key reads as. -/
def Sparse.wf {β : Type} [DecidableEq β] (d : Nat → β) : List (Nat × β) → Bool
  | [] => true
  | [(k, v)] => decide (v ≠ d k)
  | (k, v) :: (k2, v2) :: l => decide (v ≠ d k) && decide (k < k2) && Sparse.wf d ((k2, v2) :: l)

end Sys2Proof.Machine
end

