-- ==== Sys2Proof/Machine/Crypto.lean ====
section
/-! DEFINITION. The cryptographic functions that the spec names by their standards: SHA-256 and SHA-384 (FIPS 180-4), HMAC
(RFC 2104), HKDF (RFC 5869), the counter-mode KDF of SP 800-108 (R520), AES (FIPS 197) and AES-GCM (SP 800-38D),
ECDSA P-384 (FIPS 186-4), and the CRCs of R377 and of the links. Tables are one literal each, entry i in bits
[w·i + w − 1 : w·i]. -/

namespace Sys2Proof.Machine.Crypto
open Sys2Proof.Machine

/-- Entry `i` of a packed table of `w`-bit entries. -/
def entry (w t i : Nat) : Nat := (t >>> (w * i)) % 2 ^ w

/-! SHA-2. One definition serves both word sizes. -/

/-- The parameters of a SHA-2 function: word width, rounds, the six shift triples, round constants, initial state. -/
structure Sha where
  w      : Nat
  rounds : Nat
  s0     : Nat × Nat × Nat
  s1     : Nat × Nat × Nat
  b0     : Nat × Nat × Nat
  b1     : Nat × Nat × Nat
  k      : Nat
  init   : List Nat

def sha256P : Sha :=
  { w := 32, rounds := 64, s0 := (7, 18, 3), s1 := (17, 19, 10), b0 := (2, 13, 22), b1 := (6, 11, 25)
    k := 0xC67178F2BEF9A3F7A4506CEB90BEFFFA8CC7020884C8781478A5636F748F82EE682E6FF35B9CCA4F4ED8AA4A391C0CB334B0BCB52748774C1E376C0819A4C116106AA070F40E3585D6990624D192E819C76C51A3C24B8B70A81A664BA2BFE8A192722C8581C2C92E766A0ABB650A735453380D134D2C6DFC2E1B213827B70A851429296706CA6351D5A79147C6E00BF3BF597FC7B00327C8A831C66D983E515276F988DA5CB0A9DC4A7484AA2DE92C6F240CA1CC0FC19DC6EFBE4786E49B69C1C19BF1749BDC06A780DEB1FE72BE5D74550C7DC3243185BE12835B01D807AA98AB1C5ED5923F82A459F111F13956C25BE9B5DBA5B5C0FBCF71374491428A2F98
    init := [0x6A09E667, 0xBB67AE85, 0x3C6EF372, 0xA54FF53A, 0x510E527F, 0x9B05688C, 0x1F83D9AB, 0x5BE0CD19] }

def sha384P : Sha :=
  { w := 64, rounds := 80, s0 := (1, 8, 7), s1 := (19, 61, 6), b0 := (28, 34, 39), b1 := (14, 18, 41)
    k := 0x6C44198C4A4758175FCB6FAB3AD6FAEC597F299CFC657E2A4CC5D4BECB3E42B6431D67C49C100D4C3C9EBE0A15C9BEBC32CAAB7B40C7249328DB77F523047D841B710B35131C471B113F9804BEF90DAE0A637DC5A2C898A606F067AA72176FBAF57D4F7FEE6ED178EADA7DD6CDE0EB1ED186B8C721C0C207CA273ECEEA26619CC67178F2E372532BBEF9A3F7B2C67915A4506CEBDE82BDE990BEFFFA23631E288CC702081A6439EC84C87814A1F0AB7278A5636F43172F60748F82EE5DEFB2FC682E6FF3D6B2B8A35B9CCA4F7763E3734ED8AA4AE3418ACB391C0CB3C5C95A6334B0BCB5E19B48A82748774CDF8EEB991E376C085141AB5319A4C116B8D2D0C8106AA07032BBD1B8F40E35855771202AD69906245565A910D192E819D6EF5218C76C51A30654BE30C24B8B70D0F89791A81A664BBC423001A2BFE8A14CF1036492722C851482353B81C2C92E47EDAEE6766A0ABB3C77B2A8650A73548BAF63DE53380D139D95B3DF4D2C6DFC5AC42AED2E1B21385C26C92627B70A8546D22FFC142929670A0E6E7006CA6351E003826FD5A79147930AA725C6E00BF33DA88FC2BF597FC7BEEF0EE4B00327C898FB213FA831C66D2DB43210983E5152EE66DFAB76F988DA831153B55CB0A9DCBD41FBD44A7484AA6EA6E4832DE92C6F592B0275240CA1CC77AC9C650FC19DC68B8CD5B5EFBE4786384F25E3E49B69C19EF14AD2C19BF174CF6926949BDC06A725C7123580DEB1FE3B1696B172BE5D74F27B896F550C7DC3D5FFB4E2243185BE4EE4B28C12835B0145706FBED807AA98A3030242AB1C5ED5DA6D8118923F82A4AF194F9B59F111F1B605D0193956C25BF348B538E9B5DBA58189DBBCB5C0FBCFEC4D3B2F7137449123EF65CD428A2F98D728AE22
    init := [0xCBBB9D5DC1059ED8, 0x629A292A367CD507, 0x9159015A3070DD17, 0x152FECD8F70E5939, 0x67332667FFC00B31, 0x8EB44A8768581511, 0xDB0C2E0D64F98FA7, 0x47B5481DBEFA4FA4] }

/-- Rotation right by `n` of a `w`-bit word. -/
def rotr (w n x : Nat) : Nat := ((x >>> n) ||| (x <<< (w - n))) % 2 ^ w

/-- The small sigma: two rotations and a shift. -/
def smallSigma (w : Nat) (t : Nat × Nat × Nat) (x : Nat) : Nat := rotr w t.1 x ^^^ rotr w t.2.1 x ^^^ (x >>> t.2.2)

/-- The capital sigma: three rotations. -/
def bigSigma (w : Nat) (t : Nat × Nat × Nat) (x : Nat) : Nat := rotr w t.1 x ^^^ rotr w t.2.1 x ^^^ rotr w t.2.2 x

/-- The message schedule, newest word first, extended by `n` words. -/
def shaSchedule (p : Sha) : Nat → List Nat → List Nat
  | 0, ws => ws
  | n + 1, ws =>
    let x := (smallSigma p.w p.s1 (nth ws 1 0) + nth ws 6 0 + smallSigma p.w p.s0 (nth ws 14 0) + nth ws 15 0) % 2 ^ p.w
    shaSchedule p n (x :: ws)

/-- One round on the state a..h. -/
def shaRound (p : Sha) (st : List Nat) (kw : Nat) : List Nat :=
  match st with
  | [a, b, c, d, e, f, g, h] =>
    let ch := (e &&& f) ^^^ ((2 ^ p.w - 1 - e) &&& g)
    let maj := (a &&& b) ^^^ (a &&& c) ^^^ (b &&& c)
    let t1 := (h + bigSigma p.w p.b1 e + ch + kw) % 2 ^ p.w
    let t2 := (bigSigma p.w p.b0 a + maj) % 2 ^ p.w
    [(t1 + t2) % 2 ^ p.w, a, b, c, (d + t1) % 2 ^ p.w, e, f, g]
  | _ => st

/-- The compression of one block. -/
def shaBlock (p : Sha) (h : List Nat) (block : List Byte) : List Nat :=
  let ws := (List.range 16).map fun i => be block (i * (p.w / 8)) (p.w / 8)
  let sched := (shaSchedule p (p.rounds - 16) ws.reverse).reverse
  let out := ((List.range p.rounds).zip sched).foldl (fun st iw => shaRound p st (entry p.w p.k iw.1 + iw.2)) h
  (h.zip out).map fun x => (x.1 + x.2) % 2 ^ p.w

/-- Blocks of `n` bytes, with fuel. -/
def chunks (n : Nat) : Nat → List Byte → List (List Byte)
  | 0, _ => []
  | f + 1, bs => if bs.isEmpty then [] else bs.take n :: chunks n f (bs.drop n)

/-- Padding, compression of every block and the digest's words in order. -/
def sha (p : Sha) (m : List Byte) : List Byte :=
  let bl := p.w * 2
  let lenB := p.w / 4
  let z := (bl - (m.length + 1 + lenB) % bl) % bl
  let padded := m ++ [0x80] ++ zeros z ++ natBE lenB (8 * m.length)
  let h := (chunks bl (padded.length / bl + 1) padded).foldl (shaBlock p) p.init
  h.flatMap (natBE (p.w / 8))

def sha256 (m : List Byte) : List Byte := sha sha256P m
def sha384 (m : List Byte) : List Byte := (sha sha384P m).take 48

/-- Bytewise exclusive or, to the shorter length. -/
def xorB (a b : List Byte) : List Byte := (a.zip b).map fun x => x.1 ^^^ x.2

/-- HMAC-SHA-256. -/
def hmac (key m : List Byte) : List Byte :=
  let k0 := if key.length > 64 then sha256 key else key
  let k := k0 ++ zeros (64 - k0.length)
  sha256 (k.map (· ^^^ 0x5C) ++ sha256 (k.map (· ^^^ 0x36) ++ m))

/-- The expansion of HKDF: blocks T(i), i counting from `i`. -/
def hkdfExpand (prk info : List Byte) : Nat → Nat → List Byte → List Byte
  | 0, _, _ => []
  | n + 1, i, t =>
    let t' := hmac prk (t ++ info ++ [BitVec.ofNat 8 i])
    t' ++ hkdfExpand prk info n (i + 1) t'

/-- HKDF-SHA-256 to RFC 5869 (R519). -/
def hkdf (ikm salt info : List Byte) (len : Nat) : List Byte :=
  let prk := hmac (if salt.isEmpty then zeros 32 else salt) ikm
  (hkdfExpand prk info ((len + 31) / 32) 1 []).take len

/-- The counter-mode KDF of SP 800-108 as R520 gives it. -/
def kdf108 (key label ctx : List Byte) (len : Nat) : List Byte :=
  (((List.range ((len + 31) / 32)).flatMap fun i =>
    hmac key (natBE 4 (i + 1) ++ label ++ [0] ++ ctx ++ natBE 4 (8 * len)))).take len

/-! AES. A state is 16 bytes in the order of FIPS 197. -/

def sboxTable : Nat := 0x16BB54B00F2D99416842E6BF0D89A18CDF2855CEE9871E9B948ED9691198F8E19E1DC186B95735610EF6034866B53E708A8BBD4B1F74DDE8C6B4A61C2E2578BA08AE7A65EAF4566CA94ED58D6D37C8E779E4959162ACD3C25C2406490A3A32E0DB0B5EDE14B8EE4688902A22DC4F816073195D643D7EA7C41744975FEC130CCDD2F3FF1021DAB6BCF5389D928F40A351A89F3C507F02F94585334D43FBAAEFD0CF584C4A39BECB6A5BB1FC20ED00D153842FE329B3D63B52A05A6E1B1A2C830975B227EBE28012079A059618C323C7041531D871F1E5A534CCF73F362693FDB7C072A49CAFA2D4ADF04759FA7DC982CA76ABD7FE2B670130C56F6BF27B777C63

def subByte (b : Byte) : Byte := BitVec.ofNat 8 (entry 8 sboxTable b.toNat)

/-- Multiplication by x in GF(2^8). -/
def xtime (b : Byte) : Byte := (b <<< 1) ^^^ (if b.toNat < 128 then 0 else 0x1B)

/-- The key schedule, newest word first: `n` more words of a key of `nk` words. -/
def aesExpand (nk : Nat) : Nat → Nat → Byte → List (List Byte) → List (List Byte)
  | 0, _, _, ws => ws
  | n + 1, i, rcon, ws =>
    let t := ws.headD []
    let t' :=
      if i % nk = 0 then
        match (t.drop 1 ++ t.take 1).map subByte with
        | b :: r => (b ^^^ rcon) :: r
        | [] => []
      else if nk > 6 ∧ i % nk = 4 then t.map subByte else t
    aesExpand nk n (i + 1) (if i % nk = 0 then xtime rcon else rcon) (xorB (nth ws (nk - 1) []) t' :: ws)

/-- The round keys, 16 bytes each. -/
def aesKeys (key : List Byte) : List (List Byte) :=
  let nk := key.length / 4
  let w0 := (List.range nk).map fun i => sliceB key (4 * i) 4
  let all := (aesExpand nk (4 * (nk + 7) - nk) nk 1 w0.reverse).reverse
  chunks 16 64 all.flatten

def shiftRows (s : List Byte) : List Byte :=
  (List.range 16).map fun i => nth s ((4 * (i / 4 + i % 4) + i % 4) % 16) 0

def mixColumn (c : List Byte) : List Byte :=
  match c with
  | [a, b, d, e] =>
    [xtime a ^^^ xtime b ^^^ b ^^^ d ^^^ e, a ^^^ xtime b ^^^ xtime d ^^^ d ^^^ e,
     a ^^^ b ^^^ xtime d ^^^ xtime e ^^^ e, xtime a ^^^ a ^^^ b ^^^ d ^^^ xtime e]
  | _ => c

def mixColumns (s : List Byte) : List Byte := (chunks 4 4 s).flatMap mixColumn

/-- The rounds after the first key addition. -/
def aesRounds : List (List Byte) → List Byte → List Byte
  | [], s => s
  | [k], s => xorB (shiftRows (s.map subByte)) k
  | k :: ks, s => aesRounds ks (xorB (mixColumns (shiftRows (s.map subByte))) k)

/-- One block under an expanded key. -/
def aesBlock (keys : List (List Byte)) (b : List Byte) : List Byte :=
  match keys with
  | [] => b
  | k :: ks => aesRounds ks (xorB b k)

/-! GCM. -/

/-- Multiplication in GF(2^128), the bits in GCM's order: bit 127 of the number is the first bit. -/
def gfMul (x y : Nat) : Nat :=
  ((List.range 128).foldl (fun (zv : Nat × Nat) i =>
    let z := if x.testBit (127 - i) then zv.1 ^^^ zv.2 else zv.1
    let v := if zv.2 % 2 = 1 then (zv.2 >>> 1) ^^^ (0xE1 <<< 120) else zv.2 >>> 1
    (z, v)) (0, y)).1

/-- GHASH over whole or zero-padded blocks. -/
def ghash (h : Nat) (y : Nat) (bs : List Byte) : Nat :=
  (chunks 16 (bs.length / 16 + 1) bs).foldl (fun y b => gfMul (y ^^^ beNat (b ++ zeros (16 - b.length))) h) y

/-- Counter mode from counter block `ctr`. -/
def gctr (keys : List (List Byte)) (iv : List Byte) (ctr : Nat) (bs : List Byte) : List Byte :=
  let cs := chunks 16 (bs.length / 16 + 1) bs
  ((List.range cs.length).zip cs).flatMap fun ic =>
    xorB (aesBlock keys (iv ++ natBE 4 ((ctr + ic.1) % 2 ^ 32))) ic.2

/-- The tag of a ciphertext. -/
def gcmTag (keys : List (List Byte)) (iv aad ct : List Byte) : List Byte :=
  let h := beNat (aesBlock keys (zeros 16))
  let y := ghash h (ghash h 0 aad) ct
  let y := gfMul (y ^^^ (2 ^ 64 * (8 * aad.length) + 8 * ct.length)) h
  xorB (aesBlock keys (iv ++ natBE 4 1)) (natBE 16 y)

/-- AES-GCM with a 12-byte nonce: ciphertext and 16-byte tag. -/
def gcmSeal (key iv aad pt : List Byte) : List Byte × List Byte :=
  let keys := aesKeys key
  let ct := gctr keys iv 2 pt
  (ct, gcmTag keys iv aad ct)

/-- AES-GCM decryption: the plaintext if the tag verifies. -/
def gcmOpen (key iv aad ct tag : List Byte) : Option (List Byte) :=
  let keys := aesKeys key
  if gcmTag keys iv aad ct = tag then some (gctr keys iv 2 ct) else none

/-! ECDSA on P-384, in affine coordinates; `none` is the point at infinity. -/

def p384P : Nat := 2 ^ 384 - 2 ^ 128 - 2 ^ 96 + 2 ^ 32 - 1
def p384N : Nat := 0xFFFFFFFFFFFFFFFFFFFFFFFFFFFFFFFFFFFFFFFFFFFFFFFFC7634D81F4372DDF581A0DB248B0A77AECEC196ACCC52973
def p384B : Nat := 0xB3312FA7E23EE7E4988E056BE3F82D19181D9C6EFE8141120314088F5013875AC656398D8A2ED19D2A85C8EDD3EC2AEF
def p384G : Nat × Nat :=
  (0xAA87CA22BE8B05378EB1C71EF320AD746E1D3B628BA79B9859F741E082542A385502F25DBF55296C3A545E3872760AB7,
   0x3617DE4A96262C6F5D9E98BF9292DC29F8F41DBD289A147CE9DA3113B5F0B8C00A60B1CE1D7E819D7A431D7C90EA0E5F)

/-- `b ^ e mod m` over the low `n` bits of the exponent. -/
def powMod (b e m n : Nat) : Nat :=
  (List.range n).foldl (fun acc i =>
    let a := acc * acc % m
    if e.testBit (n - 1 - i) then a * b % m else a) 1

/-- The inverse modulo a prime of 384 bits. -/
def invMod (a m : Nat) : Nat := powMod (a % m) (m - 2) m 384

/-- Addition of two points of the curve. -/
def ecAdd (a b : Option (Nat × Nat)) : Option (Nat × Nat) :=
  match a, b with
  | none, q => q
  | q, none => q
  | some (x1, y1), some (x2, y2) =>
    let p := p384P
    if x1 = x2 ∧ (y1 + y2) % p = 0 then none else
    let l := if x1 = x2 then (3 * x1 * x1 + (p - 3)) * invMod (2 * y1) p % p
             else (y2 + p - y1) * invMod (x2 + p - x1) p % p
    let x3 := (l * l + 2 * p - x1 - x2) % p
    some (x3, (l * (x1 + p - x3) + p - y1) % p)

/-- Scalar multiple of a point. -/
def ecMul (k : Nat) (g : Option (Nat × Nat)) : Option (Nat × Nat) :=
  (List.range 384).foldl (fun acc i =>
    let d := ecAdd acc acc
    if k.testBit (383 - i) then ecAdd d g else d) none

/-- ECDSA P-384 with SHA-384: `key` is x then y, `sig` r then s, 48 bytes each, big-endian (R508, R529). -/
def ecdsaVerify (key m sig : List Byte) : Bool :=
  let x := be key 0 48; let y := be key 48 48
  let r := be sig 0 48; let s := be sig 48 48
  let p := p384P; let n := p384N
  if x < p ∧ y < p ∧ y * y % p = (x * x * x + (p - 3) * x + p384B) % p ∧ 0 < r ∧ r < n ∧ 0 < s ∧ s < n then
    let w := invMod s n
    let e := beNat (sha384 m)
    match ecAdd (ecMul (e * w % n) (some p384G)) (ecMul (r * w % n) (some (x, y))) with
    | none => false
    | some (x1, _) => x1 % n == r
  else false

/-! Cyclic redundancy checks. -/

/-- A reflected CRC of width `w`: polynomial (reflected), initial value and final exclusive or. -/
def crcReflected (poly init xorOut : Nat) (bs : List Byte) : Nat :=
  (bs.foldl (fun c b => (List.range 8).foldl
    (fun c _ => if c % 2 = 1 then (c >>> 1) ^^^ poly else c >>> 1) (c ^^^ b.toNat)) init) ^^^ xorOut

/-- A CRC of width `w` that takes the most significant bit first. -/
def crcForward (w poly init xorOut : Nat) (bs : List Byte) : Nat :=
  (bs.foldl (fun c b => (List.range 8).foldl
    (fun c _ => (if c.testBit (w - 1) then (c <<< 1) ^^^ poly else c <<< 1) % 2 ^ w) (c ^^^ (b.toNat <<< (w - 8)))) init)
    ^^^ xorOut

end Sys2Proof.Machine.Crypto
end

