-- ==== Sys2Proof/Config.lean ====
section
/-! DEFINITION. The free values: what the spec leaves open. Each is a constant with no body, applied to the operands it
depends on or to the counter `State.draws`, so that a claim holds for every value of it (assumption 2). -/

namespace Sys2Proof.Config

/-- The ECC syndrome of a codeword whose 72-bit error mask is given: the code's matrix is not in the spec. -/
opaque eccSyndrome : Nat → BitVec 8
/-- Whether a codeword with three or more bits in error is found uncorrectable: the spec tells of one and two bits. -/
opaque eccHeavyFound : Nat → Bool
/-- The data a codeword with three or more bits in error returns when it is not found uncorrectable. -/
opaque eccHeavyData : Nat → BitVec 64
/-- A byte of the random source of R532: of draw number `n`, the byte at an index. -/
opaque randomByte : Nat → Nat → BitVec 8
/-- The KCV that KEY_INFO reports of a damaged slot, whose key cannot be read: the spec states none. -/
opaque damagedKcv : Nat → BitVec 32

/-- Where a fault lies that a STATUS bit tells of without an alert: channel in bits [3:0], line in [9:4], and in [17:10] the
temperature that the alert would have carried. -/
opaque statusPlace : Nat → BitVec 18

/-- The running disparity that training leaves on a port's lanes: where the PRBS-7 of R237 stops is not in the spec. -/
opaque trainedDisparity : Nat → Bool

/-- How many bytes of a stream's frames still lie in a slice's staging space when the next copy begins: the spec gives only the speed
of the path (R150). -/
opaque stagedLeft : Nat → BitVec 32

/-- The value that a drive integrator which cannot be read has for the age code of its colour. -/
opaque lostIntegrator : Nat → BitVec 32

/-- TWN_DELTA of the last exchanges, newest first, each doubled and in 2^−6 ns: the filter is not in the spec. -/
opaque twinDelta : List Int → BitVec 32

/-- The servo's filtered offset in 2^−16 ns, of the last offsets, newest first: the filter is not in the spec (R59). -/
opaque filteredOffset : List Int → Int
/-- The magnitude of the frequency error that the last 16 servo updates measured, in 10^−12: how it is measured is not in the spec. -/
opaque freqError : List Int → Nat
/-- The oscillator word that a servo update sets, in 2^−48 of the nominal frequency, of the last offsets and the word before: the
servo's control law is not in the spec (R58). -/
opaque oscillatorWord : List Int → Int → Int
/-- The rate in parts per 10^9 at which the servo removes an offset: the spec gives only its limit in PULL (R61). -/
opaque slewRate : List Int → Nat
/-- The origin byte of a log entry of the Timekeeper, which has no initiator ID (R325, R563). -/
opaque timekeeperOrigin : BitVec 8
/-- The clockClass that a master port announces while gm_capable is 1: the spec gives only the value for 0. -/
opaque masterClockClass : BitVec 8
/-- clockAccuracy, offsetScaledLogVariance, priority2 and grandmasterIdentity of the module's own dataset: not in the spec. -/
opaque masterClockAccuracy : BitVec 8
opaque masterClockVariance : BitVec 16
opaque masterPriority2 : BitVec 8
opaque masterIdentity : BitVec 64

/-- Sample `i` of meter channel `c` after the high-pass filter of draw `n`, of the block's decimated samples: the spec gives the filter's
order and corner, and what it carries over from the block before is not among the operands (R430). -/
opaque highPassed : Nat → Nat → List Int → Nat → Int
/-- The samples of a meter channel delayed by a number of 2^−15 samples: the interpolator is not in the spec, only its accuracy
(R431). -/
opaque interpolated : List Int → Nat → List Int
/-- The samples of a voltage channel delayed by 90°: the filter is not in the spec, only its flatness (R435). -/
opaque quadrature : List Int → List Int
/-- Amplitude in Q0.16 and angle in 2π/65,536 of an order of a channel's block, by the samples, the cycles and the duration in
2^−16 sample: the transform works on samples made by the interpolator of R431 (R439). -/
opaque harmonic : List Int → Nat → Nat → Nat → Nat × Nat
/-- The displacement of R442 in mV, of the fundamental phasors of three channels. -/
opaque displacement : List (List Int) → Nat → Nat → Nat

/-- The blocks for which a swap takes the meter DSP out of service: the spec gives at most two (R552). -/
opaque dspBlocks : Nat → BitVec 2

/-- The bytes of a bank of the life record whose flush a loss of power has broken off: the spec says only that the bank is invalid
(R570). -/
opaque tornByte : Nat → Nat → BitVec 8

/-- The value word of a radio report entry of a kind for which the spec states none (R474), and the short address in one about a node
that has none. -/
opaque radioReportValue : Nat → BitVec 32
opaque noShortAddress : BitVec 16
/-- The frame counter of a JOIN_RESP to a node that has no entry, where the coordinator's counters are kept (R464, R478). -/
opaque refusalCounter : Nat → BitVec 32

end Sys2Proof.Config
end

