-- ==== Sys2Proof/Machine/LineCode.lean ====
section
/-! DEFINITION. The 8b/10b code of the scan lanes (R214, R217): the characters, and the coding of IEEE 802.3 Clause 36 with running
disparity. The code's tables are the standard's, which R214 names (assumption 97). -/

namespace Sys2Proof.Machine

/-- A lane character: a special one (K) or a data one (D), by the byte of its value. -/
structure LaneChar where
  k : Bool
  v : Nat
  deriving DecidableEq, Repr

/-- Kx.y: the value x + 32 · y. -/
def kChar (x y : Nat) : LaneChar := ⟨true, x + 32 * y⟩

/-- The special characters of R217. -/
def LaneChar.idle : LaneChar := kChar 28 5
def LaneChar.line : LaneChar := kChar 28 0
def LaneChar.subf : LaneChar := kChar 28 4
def LaneChar.req : LaneChar := kChar 28 2
def LaneChar.blank : LaneChar := kChar 28 6
def LaneChar.first : LaneChar := kChar 27 7
def LaneChar.next : LaneChar := kChar 30 7

/-- The data characters of a byte string. -/
def dataChars (bs : List Byte) : List LaneChar := bs.map fun b => ⟨false, b.toNat⟩

/-- D21.5, which follows BLANK (R217, R219). -/
def d21_5 : LaneChar := ⟨false, 21 + 32 * 5⟩

/-- abcdei for x at negative running disparity, a in bit 5: the data column. -/
def sixBits : List Nat :=
  [0b100111, 0b011101, 0b101101, 0b110001, 0b110101, 0b101001, 0b011001, 0b111000, 0b111001, 0b100101, 0b010101, 0b110100,
   0b001101, 0b101100, 0b011100, 0b010111] ++
  [0b011011, 0b100011, 0b010011, 0b110010, 0b001011, 0b101010, 0b011010, 0b111010, 0b110011, 0b100110, 0b010110, 0b110110,
   0b001110, 0b101110, 0b011110, 0b101011]

/-- fghj for y at negative running disparity, f in bit 3: the data column and the special one. -/
def fourBits : List Nat := [0b1011, 0b1001, 0b0101, 0b1100, 0b1101, 0b1010, 0b0110, 0b1110]
def fourBitsK : List Nat := [0b1011, 0b0110, 0b1010, 0b1100, 0b1101, 0b0101, 0b1001, 0b0111]

/-- The first sub-block at disparity `rd` (true: positive), and the disparity after it. At positive disparity an unbalanced block, and
the block of D.7, is inverted. -/
def sixOf (rd : Bool) (c : LaneChar) : Nat × Bool :=
  let x := c.v % 32
  let v := if c.k && x == 28 then 0b001111 else nth sixBits x 0
  let odd := popCount 6 v != 3
  (if rd && (odd || v == 0b111000) then 63 - v else v, rd != odd)

/-- The second sub-block at disparity `rd`, that after the first. The alternate form of D.x.7 avoids five equal bits in a row. -/
def fourOf (rd : Bool) (c : LaneChar) : Nat × Bool :=
  let x := c.v % 32
  let y := c.v / 32
  let alt := y == 7 && (if rd then [11, 13, 14].contains x else [17, 18, 20].contains x)
  let v := if c.k then nth fourBitsK y 0 else if alt then 0b0111 else nth fourBits y 0
  let odd := popCount 4 v != 2
  (if rd && (c.k || odd || v == 0b1100) then 15 - v else v, rd != odd)

/-- The ten bits of a character, a in bit 9 and j in bit 0, sent from bit 9 down (R214), and the disparity after it. -/
def codeGroup (rd : Bool) (c : LaneChar) : Nat × Bool :=
  let (a, rd) := sixOf rd c
  let (b, rd) := fourOf rd c
  (16 * a + b, rd)

/-- The code groups of a run of characters, and the disparity after it. -/
def encodeChars : Bool → List LaneChar → List Nat × Bool
  | rd, [] => ([], rd)
  | rd, c :: cs =>
    let (g, rd) := codeGroup rd c
    let (gs, rd) := encodeChars rd cs
    (g :: gs, rd)

/-- The disparity after `n` IDLE characters: each one turns it. -/
def afterIdle (rd : Bool) (n : Nat) : Bool := rd != (n % 2 == 1)

end Sys2Proof.Machine
end

