-- ==== Sys2Proof/Machine/State.lean ====
section
/-! DEFINITION. The state of the module: every register, queue, buffer, counter, table, mode and pin that spec/ gives it,
as plain data, and the queue of commands that wait. A register's word is its one home: a status field that a rule
changes is a bit field of the word in `regs`. What no register shows (a servo's exchange in progress, a frame being
assembled, a slot's key) stands in the substructure of its block. -/

namespace Sys2Proof.Machine

/-- What the last bus access of an initiator was answered with. -/
inductive Answer where
  /-- No access has been answered since reset. -/
  | none
  /-- A write completed, or a command needed no answer. -/
  | ok
  /-- The access was answered with a bus error (R7, R292, R327, R342). -/
  | busError
  /-- A register read returned this word (R10). -/
  | word (w : Word)
  /-- A memory read returned these bytes (R326). -/
  | bytes (bs : List Byte)
  /-- The write is held and the initiator waits (R316). -/
  | held
  deriving DecidableEq, Repr

/-- A snapshot holder: the initiator, the block at its megabyte and half of the setup window, and the higher words
that the last low-word read copied (R13 to R15). -/
structure Snap where
  ini   : Nat
  block : Nat
  words : List Word
  deriving DecidableEq, Repr

/-- What a completion entry says beside the slot and the phase bit (R304): the status, the engine's bits of word 0
(already in place), and words 1 to 3. -/
structure Cpl where
  status : Nat
  w0     : Nat := 0
  w1     : Nat := 0
  w2     : Nat := 0
  w3     : Nat := 0
  deriving DecidableEq, Repr

/-- A descriptor that an engine has taken and whose completion is not yet written; `cpl` once the command has ended and
only earlier completions of the ring are awaited (R298, R299). -/
structure Inflight where
  ring : Nat
  slot : Nat
  desc : List Byte
  cpl  : Option Cpl := none
  deriving DecidableEq, Repr

/-- What the Timekeeper holds of a port (R44 to R69). -/
structure TmkPort where
  /-- The last Announce; whether one came within the receipt timeout, and a Sync within three intervals (R64). -/
  ann      : Option Announce := none
  annOk    : Bool := false
  syncOk   : Bool := false
  /-- The last Sync or Announce had an interval out of range (R46). -/
  badSync  : Bool := false
  badAnn   : Bool := false
  /-- A two-step Sync that awaits its Follow_Up: its sequence number, the raw stamp of t2 and the correction field. -/
  wait     : Option (Nat × Nat × Int) := none
  /-- The Delay_Req that is out: its sequence number and the raw stamp of t3. -/
  req      : Option (Nat × Nat) := none
  /-- The last complete Delay_Req exchange: the raw stamp of t3, t4, and the correction field. Stamps are held raw, so that an
  offset uses one set of latencies (R56). -/
  t34      : Option (Nat × Nat × Int) := none
  /-- The correction for the lane skew measured at the last link-up, in 2^−16 ns (R50). -/
  skew     : Int := 0
  /-- The last 16 offsets, newest first, in 2^−16 ns. -/
  offsets  : List Int := []
  /-- Sequence numbers of the next Sync, Announce and Delay_Req sent. -/
  syncSeq  : Nat := 0
  annSeq   : Nat := 0
  reqSeq   : Nat := 0
  deriving DecidableEq, Repr

/-- An entry of the transmit time-stamp queue (R73). -/
structure TsEntry where
  ident : Nat
  port  : Nat
  stamp : Nat
  deriving DecidableEq, Repr

/-- State of the Timekeeper that no TMK register shows (R44 to R81, R395 to R403). -/
structure Tmk where
  ports   : List TmkPort := [{}, {}, {}]
  /-- The selected reference and the target of a bridge (R67). -/
  sel     : Option Nat := none
  target  : Option Nat := none
  /-- The lost reference of a bridge, its last offset before the loss, and its good updates in a row (R67). -/
  lost    : Option Nat := none
  lostOff : Int := 0
  lostGood : Nat := 0
  /-- Servo updates since entry to ACQUIRE; updates in a row above 5.0 ns; `clock` since which the filtered offset has been within
  0.5 ns (R59). -/
  updates : Nat := 0
  exceeds : Nat := 0
  pullSince : Option Nat := none
  /-- `clock` at entry to HOLDOVER (R70). -/
  holdAt  : Option Nat := none
  /-- The transmit time-stamp queue, head first (R73). -/
  tsq     : List TsEntry := []
  /-- The port that last won a cycle in which several ports had a stamp, M0 after reset; and that cycle in ns with the winner
  before it (R73). -/
  tsqWon  : Nat := 2
  tsqCycle : Option (Nat × Nat) := none
  /-- The last rising edge of TIME_PPS_OUT (R57). -/
  pps     : Option Nat := none
  /-- The recovered clock of the selected port has been lost (R402). -/
  synceLost : Bool := false
  deriving DecidableEq, Repr


/-- The steering of the time PLL (R58 to R62). -/
structure TimePll where
  /-- The digital oscillator word, in 2^−48 of the nominal frequency, and what it has gathered of the next fraction step, in 2^−32
  of one. -/
  word  : Int := 0
  part  : Int := 0
  /-- The phase still to be removed by slewing, in 2^−16 ns (positive: wall time is ahead), the rate at which the servo removes it in
  parts per 10^9, and what has gathered of the next fraction step, in 10^−9 of one. -/
  slew  : Int := 0
  rate  : Nat := 0
  gone  : Nat := 0
  /-- The offset comes from a reference switch or from a write to a latency or asymmetry, and is removed by slewing only (R56, R81). -/
  noStep : Bool := false
  deriving DecidableEq, Repr

/-- An installed MACsec SA (R120): its key, salt and SSCI, the next packet number, and for reception the lowest acceptable one. -/
structure NetSa where
  key    : List Byte
  salt   : List Byte
  ssci   : Nat
  next   : Nat
  lowest : Nat
  deriving DecidableEq, Repr

/-- A receive channel: its SCI and its SAs by AN (R117, R124). -/
structure NetChan where
  sci : List Byte := []
  sas : List (Nat × NetSa) := []
  deriving DecidableEq, Repr

/-- A frame in a port's receive buffer (R98, R101): its number in the order of arrival, its length with FCS, its bytes without, parse class, ingress stamp in short form,
ingest stream, match kind and number, UDP payload (offset and length), and the destinations still to be served: queues 0 to 15,
slices 16 to 19. -/
structure RxFrame where
  seq    : Nat := 0
  port   : Nat
  len    : Nat
  bytes  : List Byte
  cls    : Nat
  stamp  : Option Nat
  stream : Nat
  mtch   : Nat
  num    : Nat
  pay    : Nat × Nat
  dests  : List Nat
  deriving DecidableEq, Repr

/-- The head frame of a transmit queue, whose descriptors the engine has taken: its first slot, descriptors used, bytes, the launch
time it is held for, whether it is late, and the stamp identifier asked for (R77 to R79, R106). -/
structure TxHead where
  slot   : Nat
  n      : Nat
  bytes  : List Byte
  launch : Option Nat := none
  late   : Bool := false
  ident  : Option Nat := none
  deriving DecidableEq, Repr

/-- A transmit queue: its credit in 2^−8 bit and the wall time of that value, and its head frame (R110 to R114). -/
structure TxQ where
  credit : Int := 0
  at_    : Nat := 0
  head   : Option TxHead := none
  deriving DecidableEq, Repr

/-- State of the Network that no NET register shows (R82 to R124). -/
structure Net where
  /-- Rule and group blocks by number (R124). -/
  rules   : List (Nat × List Byte) := []
  groups  : List (Nat × List Byte) := []
  /-- Transmit SAs by 4 · port + AN, the active AN of each port, and receive channels by 8 · port + channel (R117). -/
  txSa    : List (Nat × NetSa) := []
  active  : List (Nat × Nat) := []
  rxCh    : List (Nat × NetChan) := []
  /-- Frames in the receive buffers, oldest first (R101), and the number of the next one. -/
  rx      : List RxFrame := []
  rxSeq   : Nat := 0
  /-- Changes of rules and groups whose completion waits for the frames steered before them: the ring slot, the completion, and the
  number of the first frame after the change (R97). -/
  settling : List (Nat × Cpl × Nat) := []
  /-- Changes of max_frame in the last millisecond, newest first: the port, the wall time, and the maximum before (R86). -/
  maxWas  : List (Nat × Nat × Nat) := []
  /-- The port that last won at a destination (R100). -/
  lastWin : List (Nat × Nat) := []
  /-- Transmit queues by 8 · port + queue. -/
  txq     : List (Nat × TxQ) := []
  /-- The wall time at which each port's medium is free. -/
  busy    : List Nat := [0, 0, 0]
  deriving DecidableEq, Repr


/-- The time grid that a canvas and a greyscale configuration fix (R138, R140, R191, R192): the rate p / q × 1,000 frames a
second, L and t_adm in ns, and the divisions of a frame. -/
structure Grid where
  p      : Nat
  q      : Nat
  lat    : Nat
  tAdm   : Nat
  nSf    : Nat
  nB     : Nat
  sigma  : Nat
  nLine  : Nat
  tLsb   : Nat
  tBlank : Nat
  deriving DecidableEq, Repr

/-- An ingest stream that has been set (R154): its STREAM_SET parameter block and, while it is started, the wall time of its
start (R127). -/
structure Stream where
  block   : List Byte
  started : Option Nat := none
  deriving DecidableEq, Repr

/-- A packet that has been taken for a frame (R134 to R136): its sequence number, whether it is the last, the slices that took
it, the pixels it wrote (their keys), and the chroma it brought for the pixel beyond the window (the row). -/
structure Taken where
  seq    : Nat
  last   : Bool
  slices : Nat
  keys   : List Nat
  edge   : List Nat := []
  deriving DecidableEq, Repr

/-- The frame of one stream with a grid index (R134 to R139): its RTP timestamp or media time, the slices that take part
(R617), the first sequence number seen, and the packets taken. -/
structure StreamFrame where
  stream : Nat
  ident  : Nat
  slices : Nat
  first  : Nat
  taken  : List Taken := []
  deriving DecidableEq, Repr

/-- A committed Temper set: the set descriptor, the global table block and the placements (R183 to R185). -/
structure TemperSet where
  desc   : List Byte
  global : List Byte
  places : List (List Byte)
  /-- How many sets had been committed before it. -/
  gen    : Nat := 0
  deriving DecidableEq, Repr

/-- A frame of the canvas that has not yet left the pipeline (R136, R142, R160). -/
structure FrameRec where
  k       : Nat
  streams : List StreamFrame := []
  /-- Samples by pixel key: canvas y × width + x, or n of R159 in raw mode. -/
  pixels  : List (Nat × (Nat × Nat × Nat)) := []
  /-- It holds a frame-store slot (R144). -/
  slot    : Bool := true
  /-- The streams that take part, fixed once it is admitted: a later STREAM_STOP takes nothing from it (R127). -/
  parties : Option (List (Nat × Stream)) := none
  /-- Fixed when its first band begins grading (R177, R180, R185): the set, B(k), the dead sub-pixels' words and force_dead. -/
  temper  : Option TemperSet := none
  bright  : Nat := 0x8000
  dead    : List (Nat × Nat) := []
  force   : List (Nat × Nat) := []
  /-- The parts graded, as (port, band), the graded values before and after compensation by sub-pixel index, and the pixels
  graded 0 under R170. -/
  parts   : List (Nat × Nat) := []
  graded  : List (Nat × Nat) := []
  shown   : List (Nat × Nat) := []
  poison  : List Nat := []
  /-- Pixels whose record inhibits compensation (R169), and the parts whose output has been released (R160). -/
  inhibit : List Nat := []
  released : List (Nat × Nat) := []
  /-- Grey words by sub-pixel index (R197). -/
  words   : List (Nat × Nat) := []
  deriving DecidableEq, Repr

/-- A brightness setting (R177): B1, r, k0 and Bs, and whether ramp_done has been set for it. -/
structure Bright where
  b1    : Nat := 0x8000
  r     : Nat := 0
  k0    : Nat := 0
  bs    : Nat := 0x8000
  told  : Bool := false
  deriving DecidableEq, Repr

/-- State of the Anvil that no ANV register shows (R125 to R213). -/
structure Anv where
  /-- The CANVAS_SET and GREY_SET parameter blocks in force. -/
  canvas    : Option (List Byte) := none
  /-- t_adm in ns (R34). -/
  tAdm      : Nat := 600000
  /-- The GREY_SET parameter block in force (R212). -/
  grey      : Option (List Byte) := none
  /-- The streams that STREAM_SET has set, by number (R125). -/
  streams   : List (Nat × Stream) := []
  /-- The frames that have not yet left the pipeline (R144). -/
  frames    : List FrameRec := []
  /-- Decisions, newest first: the grid index and the code of R142. -/
  decisions : List (Nat × Nat) := []
  /-- Refusals decided before D(k), whose report is written at D(k) (R142), and admissions withdrawn (R143). -/
  deferred  : List Nat := []
  /-- The frames of each stream seen for a grid index, oldest first: index, stream, RTP timestamp or media time (R142). -/
  seen      : List (Nat × Nat × Nat) := []
  /-- Admissions that no longer light a frame: withdrawn (R143), or lit before a step of wall time brought the index back. -/
  withdrawn : List Nat := []
  /-- Wall time right after its last step (R143). -/
  steppedTo : Option Nat := none
  /-- Bytes in the staging space, by 16 · slice + stream (R150). -/
  staged    : List (Nat × Nat) := []
  /-- The period being shown, the frame being lit, the run of repeats, and whether a frame has been lit since a stream was started on
  an idle canvas (R39, R148). -/
  shownK    : Option Nat := none
  litK      : Option Nat := none
  repeats   : Nat := 0
  litOnce   : Bool := false
  /-- A period has begun under the canvas in force (R149). -/
  ran       : Bool := false
  /-- The values of the frame last lit (R172). -/
  lit       : List (Nat × Nat) := []
  /-- The active Temper set (R185). -/
  temper    : Option TemperSet := none
  /-- A set waiting for old frames to drain, and its ring slot (R185). -/
  commitSlot : Option Nat := none
  /-- The two banks of ageing curves: 384 bytes each (R175). -/
  banks     : List (List Byte) := [[], []]
  /-- The brightness settings, newest first. -/
  brights   : List Bright := []
  /-- The grid indices whose frames have begun grading, and the next one after the highest of them (R177). -/
  begun     : List Nat := []
  nextGrade : Nat := 0
  /-- A checkpoint operation under way: 0 none, 1 the timer's write, 2 AGE_CKPT_SAVE, 3 AGE_CKPT_LOAD, and its slot. -/
  ckptOp    : Nat := 0
  ckptSlot  : Option Nat := none
  deriving DecidableEq, Repr

/-- What the identity step reads of a DK-16 (R237, R240): ID, REV, T_IN and T_TURN (Q10.6 ns), H_DIFF (sQ10.6 ns) and
T_BLANK_MIN (ns). -/
structure DkId where
  id        : Nat
  rev       : Nat
  tIn       : Nat
  tTurn     : Nat
  hDiff     : Int
  tBlankMin : Nat
  deriving DecidableEq, Repr

/-- A request set that is offered or awaits its reply (R219, R220, R242): its engine (0 poll, 1 measurement, 2 images, 3 host), the
address, broadcast, opcode, register and data, whether an ECHO is the RT_0 of R234 rather than one of a sweep over the chain, how
often it has timed out, and the ring slot it answers. -/
structure ScnReq where
  engine : Nat
  addr   : Nat
  opcode : Nat
  reg    : Nat
  data   : Nat
  bcast  : Bool := false
  cable  : Bool := false
  tries  : Nat := 0
  slot   : Option Nat := none
  deriving DecidableEq, Repr

/-- A lane of a port at DK-16 0 (R219, R221): where its last character ended in 2^−6 ns of wall time, the running disparity there
(true: positive), and the IDLE characters that wraps have added since (R235). -/
structure Lane where
  ends : Nat := 0
  rd   : Bool := false
  adj  : Int := 0
  deriving DecidableEq, Repr

/-- State of a scan port that no SCN register shows (R214 to R254). -/
structure ScnPort where
  /-- The CHAIN_SET parameter block (R250). -/
  chain    : Option (List Byte) := none
  /-- The step of R237 under way, 0 if none, and the slot of the PORT_START that waits for it. -/
  step     : Nat := 0
  startSlot : Option Nat := none
  /-- What the identity step read of each DK-16. -/
  dks      : List DkId := []
  /-- The cable delay c and every a_d, in 2^−6 ns (R233). -/
  delay    : Int := 0
  offsets  : List Int := []
  /-- An RT_0 that was discarded at the last measurement (R81). -/
  rtCand   : Option Nat := none
  /-- Requests that the four engines offer, oldest first, the engine that won last (R220), and the requests outstanding. -/
  offers   : List ScnReq := []
  lastEng  : Nat := 3
  requests : List ScnReq := []
  /-- Round trips of the sweep under way, by DK-16 (R233). -/
  rts      : List (Nat × Nat) := []
  /-- Wall time before which the port starts no REQ (R280, R282). -/
  reqFrom  : Nat := 0
  /-- The clock lane, the data lane, and how many BLANKs are still to go out (R246). -/
  sck      : Lane := {}
  sdt      : Lane := {}
  blanks   : Nat := 0
  /-- The schedule's offset from its own wall time in 2^−6 ns: δ on a standby, then removed step by step (R269, R280). -/
  shift    : Int := 0
  /-- After a step of wall time: the boundary (k, j) of the new schedule up to which the old grid is kept, and how far the step has
  moved the old grid, in 2^−6 ns (R210); and the subframe last begun. -/
  resize   : Option (Nat × Nat × Int) := none
  subf     : Nat × Nat := (0, 0)
  /-- Timeouts in a row, by DK-16 (R242). -/
  missed   : List (Nat × Nat) := []
  /-- The poll round: the next request, as 3 · d + 0, 1 or 2 for STATUS, TEMP and HEADROOM; whether one timed out, whether
  one found shutdown, the hottest so far, and the least headroom by group. -/
  pollPos  : Nat := 0
  pollBad  : Bool := false
  pollShut : Bool := false
  pollTemp : Option (Int × Nat) := none
  pollHead : List (Nat × Int) := []
  /-- The least headroom by group of the last complete round (R243). -/
  heads    : List (Nat × Int) := []
  /-- STATUS bits of each DK-16 whose alert has been handled (R242). -/
  seen     : List (Nat × Nat) := []
  /-- QUENCH_RESUME has been accepted (R247). -/
  resume   : Bool := false
  /-- Images: the next DK-16 whose image is to be read, and the slots of the DK_RELOADs that wait (R244). -/
  imagePos : Option Nat := none
  imageSlots : List Nat := []
  /-- The REMEASUREs that wait, and whether RT_0 and the offsets are measured for them (R250). -/
  remSlots : List Nat := []
  remRt    : Bool := false
  remOff   : Bool := false
  /-- The grid the port keeps, the grid it changes to with the index of the P(k) for it, and whether GEOMETRY and APPLY have been
  offered for that P(k) (R238). -/
  grid     : Option Grid := none
  newGrid  : Option (Grid × Nat) := none
  armed    : Bool := false
  /-- The load under way: its grid index, and the cells sent (R204, R221). -/
  loadK    : Option Nat := none
  cell     : Nat := 0
  deriving DecidableEq, Repr

/-- The scan array. -/
structure Scn where
  /-- Ports that are not as after reset, by number. -/
  ports : List (Nat × ScnPort) := []
  /-- Module Quench signals (R245): bit 0 heat, 1 the Anvil PLL, 2 QUENCH_SET for all ports, 3 the end of hold-up, 4 another
  subsystem. -/
  modQ  : Nat := 0
  /-- The next port that an image read serves, and the images read in the frame period, or the 4.0 ms, with this number (R244). -/
  imageNext : Nat := 0
  imagePeriod : Nat := 0
  imageUsed : Nat := 0
  deriving DecidableEq, Repr

/-- What the twin's HEARTBEAT last said (R258). -/
structure TwinPeer where
  role    : Nat := 0
  health  : Nat := 0
  servo   : Nat := 0
  domain  : Nat := 0
  syncWhy : Nat := 0
  claim   : Nat := 0
  shown   : Nat := 0
  deriving DecidableEq, Repr

/-- A hand-off under way (R281 to R286): its boundary, whether ACK 0 has come, the slot of the SWITCH that asked for it, and
whether the power-fail warning or a SWITCH on the twin started it. -/
structure Handoff where
  k       : Nat
  j       : Nat
  acked   : Bool := false
  slot    : Option Nat := none
  byPower : Bool := false
  byTwin  : Bool := false
  deriving DecidableEq, Repr

/-- What a place in the link's queue sends (R255 to R276). -/
inductive LinkWork where
  /-- A frame of a type, with its payload. -/
  | frame (type : Nat) (payload : List Byte)
  /-- A TIMECMP request, stamped as it leaves (R260). -/
  | timecmp
  /-- What is left of a copy of the region of registered class `cls`, from offset `off` on (R274). -/
  | region (cls off : Nat)
  /-- What is left of a copy of the dead map (R272, R276). -/
  | deadMap (off : Nat)
  /-- What is left of a class 3 copy, from its pixel number `i` on: the update set of a period, or every pixel (R272, R276). -/
  | age (k : Option Nat) (i : Nat)
  deriving DecidableEq, Repr

/-- A place in the link's queue: its level in R275, its class, and what it sends. -/
structure LinkJob where
  level : Nat
  cls   : Nat := 0
  work  : LinkWork
  deriving DecidableEq, Repr

/-- A registered class (R273): its number and the CLASS_REGISTER parameter block, and the copies completed. -/
structure TwinClass where
  cls   : Nat
  tag   : Nat
  ms    : Nat
  base  : Nat
  size  : Nat
  gen   : Nat := 0
  deriving DecidableEq, Repr

/-- What class 2 holds of a port on the active (R272). -/
structure TwinPort where
  state   : Nat
  found   : Nat
  dks     : List DkId
  rt0     : Nat
  offsets : List Int
  qsHost  : Bool
  deriving DecidableEq, Repr

/-- State of the twin pairing that no TWN register shows (R255 to R288). -/
structure Twn where
  /-- The session key, and the last sequence number of each direction (R256, R257). -/
  key       : Option (List Byte) := none
  nonce     : List Byte := []
  txSeq     : Nat := 0
  rxSeq     : Nat := 0
  /-- What the twin's HEARTBEAT has told (R258). -/
  peer      : Option TwinPeer := none
  /-- The outbound scan drivers are enabled (R262). -/
  drive     : Bool := false
  /-- The claim keeper has not been refreshed for 4 µs (R262). -/
  keeperOut : Bool := false
  /-- Conditions 2, 3 and 4 of R263 fail. -/
  wdogOut   : Bool := false
  scanLost  : Bool := false
  pfFail    : Bool := false
  /-- The peer claim lines: 0 released, 1 asserted, 2 a fault (R261). -/
  peerLines : Nat := 0
  /-- A takeover has been chosen: its boundary (R278). -/
  takeover  : Option (Nat × Nat) := none
  /-- The first frame after a takeover, on whose loads R279 rules. -/
  firstShow : Option Nat := none
  /-- A hand-off that this module sends, and one that it has accepted (R281, R282). -/
  handOut   : Option Handoff := none
  handIn    : Option Handoff := none
  /-- The standby was synchronised when the peer claim released (R266, R278). -/
  lostSynced : Bool := false
  /-- δ over the last 16 exchanges in 2^−6 ns, doubled (R260), and t1 of the request that is out. -/
  deltas    : List Int := []
  sentAt    : Option Nat := none
  /-- Decisions received from the active, by grid index (R271). -/
  decisions : List (Nat × Nat) := []
  /-- What a standby would have decided alone at D(k), by grid index (R271). -/
  atDeadline : List (Nat × Nat) := []
  /-- The classes registered here (R273). -/
  classes   : List TwinClass := []
  /-- Periods whose update set differs from the active's, and whether the dead map does (R272). -/
  recopy    : List Nat := []
  recopyDead : Bool := false
  /-- Class 1 is stale until this grid index (R272). -/
  staleTill : Option Nat := none
  /-- Join copies and recopies that are incomplete, by class (R276, R277). -/
  joining   : List Nat := []
  /-- Ports in RUN on the active, by class 2: the port, its state, found count, RT_0, offsets and identities (R272). -/
  ports     : List (Nat × TwinPort) := []
  /-- Grid index of a period, and the CRC-64 of its ageing update set here (R272). -/
  ageCrc    : List (Nat × Nat) := []
  /-- What the link has still to send, oldest first, and the class that last sent in each level (R275). -/
  queue     : List LinkJob := []
  lastCls   : List (Nat × Nat) := []
  /-- The lane that the next link frame takes (R255), and when each lane, and level 5 and level 6 under its rate limit, may send
  again: in fifths of a nanosecond since the power-on reset (R275). -/
  lane      : Nat := 0
  laneFree  : List Nat := [0, 0]
  free5     : Nat := 0
  free6     : Nat := 0
  /-- The classes that the twin has registered, with their tags (R273). -/
  peerTags  : List (Nat × Nat) := []
  /-- Pixels that a class 3 copy has brought, with the last period that it includes (R276). -/
  copied    : List (Nat × Nat) := []
  /-- Slot of a SWITCH that has been passed to the active (R281), and whether the active has taken it. -/
  passSlot  : Option Nat := none
  passTaken : Bool := false
  /-- A hand-off has just moved ownership away, and its new owner has yet to claim (R284). -/
  watching  : Bool := false
  deriving DecidableEq, Repr

/-- A word of a mailbox queue: 64 bits and one even-parity bit a byte (R313). -/
structure MbxWord where
  data   : BitVec 64
  parity : BitVec 8
  deriving DecidableEq, Repr

/-- A mailbox queue: its words, head first, its 10-bit pointers, a drop under way (R317) and a held write (R316). -/
structure Mailbox where
  words    : List MbxWord := []
  rdPtr    : Nat := 0
  wrPtr    : Nat := 0
  dropping : Bool := false
  held     : Option (Nat × BitVec 64) := none
  deriving DecidableEq, Repr

/-- State of the Hearth and of the rings that no HRT register shows. -/
structure Hrt where
  /-- Vectors in service, with the agent that claimed each (R307). -/
  inService : List (Nat × Nat) := []
  /-- Per (agent, priority), as 16 · agent + priority: one more than the last vector claimed there (R308). -/
  lastClaim : List (Nat × Nat) := []
  /-- The 16 mailbox queues (R312). -/
  mbx       : List Mailbox := List.replicate 16 {}
  /-- Staged low payload words, by initiator (R313). -/
  staging   : List (Nat × Word) := []
  /-- Rings whose coalescing age limit has been reached (R309). -/
  aged      : List Nat := []
  /-- Rings whose engine waits on a full completion ring (R300). -/
  stalled   : List Nat := []
  /-- Descriptors taken and not yet completed, in the order taken (R298). -/
  inflight  : List Inflight := []
  deriving DecidableEq, Repr

/-- The five memories of the error-correction index x (R326). -/
inductive MemSpace where
  | dram | billet | mram | l2 | tcm
  deriving DecidableEq, Repr

/-- State of the memory system that no MEM or FWL register shows. -/
structure Mem where
  /-- Stored bytes that differ from 0, by address, rising (R16); the tightly coupled SRAM stands apart. -/
  cells    : List Host.Cell := []
  /-- Codeword bits in error: the 64-bit word's address and the 72-bit mask its stored codeword differs by (R333). -/
  flips    : List (Nat × Nat) := []
  /-- Addresses of words that hold the poison pattern (R328), rising. -/
  poison   : List (Nat × Bool) := []
  /-- The 128 KiB tightly coupled SRAM of the real-time pair (R289). -/
  tcm      : List Host.Cell := []
  /-- The next word each scrubbed memory reads: DRAM, Billet, MRAM (R331). -/
  scrubPos : List Nat := [0, 0, 0]
  deriving DecidableEq, Repr

/-- A rail group that is not in OFF (R366, R367): its RAIL_CFG parameter block, and v_now in hundredths of a millivolt. -/
structure Rail where
  block : List Byte
  fine  : Nat
  deriving DecidableEq, Repr

/-- State of Bellows that no BLW register shows (R347 to R373). -/
structure Blw where
  rails     : List (Nat × Rail) := []
  /-- The domain changes of the transition under way: the domain, and whether it is powered up (R352, R353). -/
  todo      : List (Nat × Bool) := []
  /-- BLW_OPT as the last accepted request took it (R351). -/
  opt       : Nat := 0
  /-- The transition under way was asked for by the host (R358). -/
  byHost    : Bool := false
  /-- A wake fired during a descent to DARK (R357). -/
  wakeHeld  : Bool := false
  /-- The input switch is open (R360). -/
  openSwitch : Bool := false
  /-- A warning that arose in DARK is being carried by the store (R365). -/
  darkWarn  : Bool := false
  /-- VIN has returned after the commit: a restart follows (R363). -/
  vinBack   : Bool := false
  /-- A thermal shutdown is being served, or has powered the module off (R370, R371). -/
  thermal   : Bool := false
  hotOff    : Bool := false
  /-- MOD_SEATED_N is high (R585). -/
  unseated  : Bool := false
  deriving DecidableEq, Repr

/-- The fuse block of the modelled unit, as offset and byte: hardware type 0x4810 revision C, everything else 0, each region
with its right CRC-32 (R377, R378; assumption 4). -/
def fuseBlock : List Host.Cell :=
  [(0x0, 0x10), (0x1, 0x48), (0x2, 0x03), (0x1C, 0x5E), (0x1D, 0x36), (0x1E, 0x59), (0x1F, 0x09), (0x3C, 0xE9),
   (0x3D, 0x77), (0x3E, 0x70), (0x3F, 0x80), (0x7C, 0x08), (0x7D, 0x89), (0x7E, 0x12), (0x7F, 0x04), (0x2FC, 0x86),
   (0x2FD, 0x74), (0x2FE, 0xFF), (0x2FF, 0x5C), (0x33C, 0x08), (0x33D, 0x89), (0x33E, 0x12), (0x33F, 0x04), (0xA00, 0x7E),
   (0xA01, 0xE1), (0xA02, 0x1C), (0xA03, 0x6C)]

/-- The control area of boot flash (R538, R539): it survives every reset. -/
structure UpdCtl where
  /-- The states of the two slots, and of the staging area. -/
  slots  : List Nat := [5, 0]
  stage  : Nat := 0
  /-- Starts of the trial slot (R547). -/
  count  : Nat := 0
  /-- The rollback floor (R549). -/
  floor  : Nat := 0
  /-- The settings half that each slot's image owns (R550). -/
  halves : List (Option Nat) := [some 0, none]
  deriving DecidableEq, Repr

/-- State of the start sequence and of the update engine that no BOOT or UPD register shows. -/
structure Boot where
  /-- The fuse block, by offset; an unlisted byte is 0. -/
  fuse     : List Host.Cell := fuseBlock
  /-- The update control area (R539). -/
  ctl      : UpdCtl := {}
  /-- The section entries that the processors 0 to 4 run (R541, R552). -/
  loaded   : List (List Byte) := []
  /-- A swap that waits for a boundary of its engine: the processor and its new section (R552). -/
  swap     : Option (Nat × List Byte) := none
  /-- `clock` at which the confirmation window ends (R548). -/
  window   : Option Nat := none
  /-- The initiator that last rang the doorbell of ring 0x50. -/
  updBy    : Nat := 0
  /-- The retained set of R387: registers that a record touched, with the resolved value of their cfg fields. -/
  retained : List (Nat × Nat) := []
  /-- Tries of the identity read that were not acknowledged (R381). -/
  tries    : Nat := 0
  /-- The RECORDS phase is complete, and the module awaits release. -/
  ready    : Bool := false
  /-- BP_RESET_N is low (R393). -/
  held     : Bool := false
  /-- Audit entries of a start, by type and content, that the Recorder takes once it has loaded (R564, R573). -/
  owed     : List (Nat × List Byte) := []
  deriving DecidableEq, Repr

/-- State of the real-time clock that no RTC register shows (R412 to R426). -/
structure Rtc where
  /-- The count in ticks: seconds × 32,768 + tick field (R412). -/
  count    : Nat := 0
  /-- The 24-bit phase accumulator of the trim (R413). -/
  trimAcc  : Nat := 0
  /-- Ticks that the discipline adds at the next tick boundary (R423). -/
  discAdj  : Int := 0
  /-- Discipline was active at the last second (R423). -/
  discWas  : Bool := false
  /-- Seconds since the first second of the discipline window, or none before it (R423). -/
  discSec  : Option Nat := none
  /-- e at the first second of the window, in 2^−16 ns. -/
  discE0   : Int := 0
  deriving DecidableEq, Repr

/-- What a measurement interval has gathered (R443): blocks, samples, duration in 2^−16 sample, per channel the sum of squares in
2^−46 mV² or mA², per phase the sums for P, Q (2^−46 µW · sample) and S, the sum of the frequencies in mHz, and the flags. -/
structure MtrSum where
  blocks  : Nat := 0
  samples : Nat := 0
  dur     : Nat := 0
  sq      : List Nat := List.replicate 7 0
  p       : List Int := [0, 0, 0]
  q       : List Int := [0, 0, 0]
  s       : List Nat := [0, 0, 0]
  freq    : Nat := 0
  valid   : Bool := true
  fault   : Bool := false
  exceeds : Bool := false
  deriving DecidableEq, Repr

/-- State of the Meter that no MTR register shows (R427 to R450). -/
structure Mtr where
  /-- The active calibration set, where it differs from the reset values, by register offset (R433); and who asked for the pending
  one to be applied. -/
  active   : List (Nat × Word) := []
  calBy    : Nat := 0
  /-- The 28 accumulators in 2^−32 of their unit, and whether they have been restored (R436 to R438). -/
  acc      : List Nat := List.replicate 28 0
  restored : Bool := false
  /-- The measured modulator rate in mHz, 0 before the first measurement (R428). -/
  fmod     : Nat := 0
  /-- Channels that have been in fault since the block began, and whether any was during it (R429). -/
  dead     : Nat := 0
  faulted  : Bool := false
  /-- Blocks for which a swap still keeps the DSP out of service (R552). -/
  dspOut   : Nat := 0
  /-- The new phase sequence and how many blocks in a row have agreed on it (R440). -/
  seqNew   : Nat := 0
  seqRun   : Nat := 0
  /-- Blocks in a row above the limit of R442, and below half of it. -/
  ndOver   : Nat := 0
  ndUnder  : Nat := 0
  /-- Blocks since the last harmonic block, its THDs, and the fundamental angles θ2 and θ3 of the last block (R439, R443). -/
  harmIn   : Nat := 0
  thd      : List Nat := List.replicate 7 0
  theta    : Nat × Nat := (0, 0)
  /-- Sequence numbers of the next entries of the two rings (R443, R444). -/
  resSeq   : Nat := 0
  harmSeq  : Nat := 0
  sum      : MtrSum := {}
  deriving DecidableEq, Repr

/-- State of the current-only path in PD00 (R446, R447): bursts in a row on which each channel was over, and whether a theft event
holds further ones back. -/
structure Battery where
  run  : List Nat := [0, 0, 0, 0]
  held : Bool := false
  deriving DecidableEq, Repr


/-- An entry of the radio's node table (R478), and what the radio keeps of the node beside it: the sequence number of its last DATA
accepted, its latest illuminance with its RTC count, a DOWNLINK (its slot, its data, and whether a POLL has carried it), and a
REKEY (its slot, if the host asked). -/
structure RadNode where
  eui      : Nat
  st       : Nat := 1
  e        : Nat
  slot     : Nat
  phase    : Nat
  drift    : Nat
  lastCtr  : Nat := 0
  nextCtr  : Nat := 0
  gen      : Nat := 0
  miss     : Nat := 0
  rssi     : Nat := 0
  lqi      : Nat := 0
  contact  : Nat := 0
  kinds    : Nat
  batt     : Nat := 0
  accepted : Nat := 0
  missed   : Nat := 0
  lastSeq  : Nat := 0
  lux      : Option (Nat × Nat) := none
  down     : Option (Nat × List Byte × Bool) := none
  rekey    : Option Nat := none
  rekeying : Bool := false
  deriving DecidableEq, Repr

/-- A sensor ring entry that waits in the reading buffer (R475): kind, short address, value, RTC count, heard, urgent, RSSI. -/
structure RadEntry where
  kind   : Nat
  addr   : Nat
  value  : Nat
  ticks  : Nat
  heard  : Bool
  urgent : Bool
  rssi   : Nat
  deriving DecidableEq, Repr

/-- State of the radio that no RAD register shows (R451 to R483). -/
structure Rad where
  /-- Node table entries by index (R478). -/
  nodes   : List (Nat × RadNode) := []
  /-- The master key, while enabled (R470). -/
  master  : List Byte := []
  /-- Readings that wait for the sensor ring, oldest first (R475). -/
  buffer  : List RadEntry := []
  /-- The index of the node polled, whose DATA is awaited (R458). -/
  polled  : Option Nat := none
  /-- A JOIN_REQ has been judged in this beacon slot, and the JOIN_RESP to send: EUI-64, status and index (R463). -/
  judged  : Bool := false
  resp    : Option (Nat × Nat × Option Nat) := none
  /-- That JOIN_REQ, until the beacon slot ends (R467). -/
  asked   : Option RadJoin := none
  /-- NODE_EVICT commands that wait for the slot boundary: ring slot and index (R467). -/
  evict   : List (Nat × Nat) := []
  /-- The counter of the next beacon (R468). -/
  beaconCtr : Nat := 0
  /-- Frames sent in the last hour: the RTC count and the air time in thirds of a microsecond (R452). -/
  sent    : List (Nat × Nat) := []
  /-- The Tongs class of the mirror, and its generation count (R480). -/
  mirror  : Option Nat := none
  mirrorGen : Nat := 0
  /-- The TWN role in force when PD25 went off (R453). -/
  keptRole : Nat := 0
  deriving DecidableEq, Repr


/-- A message object (R490 to R493, R504): its setting, the content of a transmit object, and the live buffer of a receive
object. -/
structure CabObj where
  rx        : Bool
  id        : Nat
  ext       : Bool
  mask      : Nat
  fd        : Bool
  brs       : Bool
  oneShot   : Bool
  ownerOnly : Bool
  toRing    : Bool
  dlc       : Nat
  period    : Nat
  data      : List Byte := []
  new       : Bool := false
  overrun   : Bool := false
  live      : Option (CanFrame × Nat) := none
  deriving DecidableEq, Repr

/-- A pending send (R494): the channel, the object (32 + g for the rail object of group g), its frame, the ring slot of the
TX_LOAD that awaits it, whether it is one-shot, owner-only, and in arbitration or on the bus. -/
structure CanSend where
  chan      : Nat
  obj       : Nat
  frame     : CanFrame
  slot      : Option Nat := none
  oneShot   : Bool := false
  ownerOnly : Bool := false
  onBus     : Bool := false
  deriving DecidableEq, Repr

/-- The wake configuration written into a sleeping transceiver (R501, R502): the words of CAB_WAKE, CAB_WAKE_ID, CAB_WAKE_IDM and
CAB_WAKE_DATA. A transceiver whose `en` is 0 is switched off. -/
structure CanXcvr where
  wake : Nat
  id   : Nat
  idm  : Nat
  data : Nat
  deriving DecidableEq, Repr

/-- State of the cabinet bus that no CAB register shows (R484 to R506). -/
structure Cab where
  /-- Valid objects, by 32 × channel + object. -/
  objs     : List (Nat × CabObj) := []
  /-- Pending sends, oldest first. -/
  sends    : List CanSend := []
  /-- The object that last won on each channel (R494). -/
  lastWon  : List Nat := [47, 47]
  /-- Sequence numbers of the rail setpoint messages. -/
  railSeq  : List Nat := List.replicate 16 0
  /-- Sleeping transceivers, by channel. -/
  asleep   : List (Nat × CanXcvr) := []
  /-- Channels that go to sleep when the frame on the bus has ended (R501). -/
  sleepReq : List Nat := []
  deriving DecidableEq, Repr

/-- A key slot: attribute word (R509), key, generation (R513), service counter (R530), and whether it is damaged (R518). -/
structure KeySlot where
  attr    : Nat := 0
  key     : List Byte := []
  gen     : Nat := 0
  counter : Nat := 0
  damaged : Bool := false
  deriving DecidableEq, Repr

/-- State of the Keystore that no KEY register shows. -/
structure Keystore where
  /-- Slots that are not fresh EMPTY slots, by number (R507). Slots 1 to 255 survive loss of power. -/
  slots      : List (Nat × KeySlot) := []
  /-- The KEY_LAST_REFUSED word of the last request made while PD10 was off, and how many there were, recorded when it next powers
  (R524). -/
  offRefusal : Option Nat := none
  offCount   : Nat := 0
  /-- The initiator that last rang the doorbell of ring 0x08 (R528). -/
  doorbellBy : Nat := 0
  /-- The next slot the periodic re-mask takes (R511). -/
  remaskNext : Nat := 1
  deriving DecidableEq, Repr

/-- An extreme of R559: its value (two's complement 32-bit, as an integer), its qualifier and its time tags. -/
structure Extreme where
  value  : Int := 0
  qual   : Nat := 0
  hours  : Nat := 0
  cycles : Nat := 0
  wall   : Nat := 0
  deriving DecidableEq, Repr

/-- The start value of extreme `e`: a minimum for entries 1, 3, 4, 7, 10, 13 and 14, a maximum otherwise (R559). -/
def Extreme.start (e : Nat) : Extreme :=
  { value := if [1, 3, 4, 7, 10, 13, 14].contains e then 0x7FFFFFFF else -0x80000000 }

/-- The live image that the Recorder works on (R556). -/
structure RecImage where
  /-- Lifetime counters that are not 0, by index (R557). -/
  life        : List (Nat × Nat) := []
  /-- Histogram bins that are not 0, by offset in the image (R558). -/
  hist        : List (Nat × Nat) := []
  /-- The 16 extremes (R559). -/
  extremes    : List Extreme := (List.range 16).map Extreme.start
  /-- The Meter copy: 28 accumulators (R574). -/
  meterCopy   : List Int := List.replicate 28 0
  /-- Its validity, whether a bad seal has been seen, and the sequence number of the last flush (R556, R570). -/
  meterValid  : Bool := false
  sealBadSeen : Bool := false
  flushSeq    : Nat := 0
  /-- Operating hours in tenths, the seconds of the one under way, and power cycles (R560). -/
  hours       : Nat := 0
  hourSec     : Nat := 0
  cycles      : Nat := 0
  /-- The last accepted clear, and the last folded values of the Bellows counters 0 to 4 (R562, R576). -/
  clearSeq    : Nat := 0
  folded      : List Nat := [0, 0, 0, 0, 0]
  /-- The next places and sequence numbers of the fault and audit logs (R563). -/
  nextFault   : Nat := 0
  nextAudit   : Nat := 0
  faultSeq    : Nat := 0
  auditSeq    : Nat := 0
  deriving DecidableEq, Repr

/-- A flush under way (R570, R572): the copies taken at its start and the bank it writes. -/
structure Flush where
  /-- 0: an ordinary flush; 1 and 2: the passes of a power-fail flush; 3: its read-back. -/
  pass    : Nat := 0
  /-- The bank being written: 0 A, 1 B. -/
  bank    : Nat := 0
  /-- The image that it writes (R570). -/
  image   : RecImage := {}
  /-- Fault and audit entries copied from the buffers, with their places in the logs. -/
  faults  : List (Nat × List Byte) := []
  audits  : List (Nat × List Byte) := []
  /-- The seal key, if the slot delivered it (R522). -/
  sealKey : Option (List Byte) := none
  deriving DecidableEq, Repr

/-- The Recorder's live image, buffers and flush (R555 to R577). -/
structure Recorder where
  img       : RecImage := {}
  /-- Entries in the two buffers, oldest first: the place in the log and the 64 bytes (R566). -/
  faultBuf  : List (Nat × List Byte) := []
  auditBuf  : List (Nat × List Byte) := []
  /-- The flush under way (R569). -/
  flush     : Option Flush := none
  /-- A trigger came while a flush ran (R569). -/
  again     : Bool := false
  /-- A trigger waits for the end of the merge second (R569). -/
  merged    : Bool := false
  /-- `clock` at which the last flush began (R569). -/
  lastBegun : Option Nat := none
  /-- The power-fail warning has committed (R361), so pass 2 may begin (R572). -/
  pfCommit  : Bool := false
  /-- Slots of the REC_FLUSH and REC_CLEAR descriptors that the running flush, and the next flush, complete. -/
  waitNow   : List Nat := []
  waitNext  : List Nat := []
  /-- Seconds of operation since the last flush began (R569). -/
  sinceFlush : Nat := 0
  /-- The initiator that last rang the doorbell of ring 0x58 (R564). -/
  doorbellBy : Nat := 0
  deriving DecidableEq, Repr

/-- How a PTP message of the Timekeeper goes out: the transport (0 UDP/IPv4, 1 UDP/IPv6, 2 IEEE 802.3), the profile, and the AN and
packet number that protect it under MACsec (R45, R118). -/
structure PtpVia where
  transport : Nat
  profile   : Nat
  secured   : Option (Nat × Nat) := none
  deriving DecidableEq, Repr

/-- What the module sends out or drives, in the spec's own terms. -/
inductive Out where
  /-- An output pin of R583 takes a level. -/
  | pin (name : String) (level : Bool)
  /-- A request on the key path is answered: the requester's place in R525's order, the slot, whether the key was delivered. -/
  | keyPath (requester slot : Nat) (delivered : Bool)
  /-- Characters on the clock lane: the port, the wall time in 2^−6 ns at which the last of them ends at DK-16 0, the IDLE characters
  before them, the characters, and their code groups (R214, R219, R227). -/
  | sck (port ends idle : Nat) (chars : List LaneChar) (code : List Nat)
  /-- A cell on the data lane, given in the same way (R221). -/
  | sdt (port ends idle : Nat) (chars : List LaneChar) (code : List Nat)
  /-- Training on both outbound lanes: K28.5 and a repeating PRBS-7 of data characters (R237). -/
  | training (port : Nat)
  /-- A twin link frame: the lane, and the frame with its tag (R255, R258). -/
  | twin (lane : Nat) (bytes : List Byte)
  /-- A frame on a network port: its bytes without FCS, as they go onto the wire (R110). -/
  | frame (port : Nat) (bytes : List Byte)
  /-- A PTP message, sent to the multicast addresses of its transport: the port, how it goes (R45, R118), its type, sequence number,
  and its content in numbers (R44). -/
  | ptp (port : Nat) (via : PtpVia) (type seq : Nat) (content : List Int)
  /-- A pulse on an output pin: the wall times of its rising and its falling edge (R57). -/
  | pulse (name : String) (rise fall : Nat)
  /-- A frame on a cabinet bus channel: identifier, extended format, FD, bit-rate switch, data (R484). -/
  | can (chan id : Nat) (ext fd brs : Bool) (data : List Byte)
  /-- A radio frame of the coordinator, whose payload layout is not in the spec: 0 BEACON, 1 JOIN_RESP, 2 POLL; its destination
  (EUI-64 or short address), its frame counter, the security level and the key of its protection by AES-CCM*, whose nonce is the EUI-64
  of RAD_EUI, the counter and the level, and its content in numbers (R456, R468). -/
  | radio (frame dst counter level : Nat) (key : List Byte) (content : List Nat)
  /-- A management transfer of a cage: the cage, write, address, and data (R591). -/
  | cage (n : Nat) (write : Bool) (addr data : Nat)
  deriving DecidableEq, Repr

/-- What the machine stops with. -/
inductive Fault where
  /-- An input outside the operating range of R593: the spec gives no behaviour there. Raised by the supply commands
  (a VIN beyond its absolute maximum). Safe: the model stops where the hardware may do anything. -/
  | outsideOperatingRange (what : String)
  deriving DecidableEq, Repr

/-- Why a command has no meaning. -/
inductive Refusal where
  /-- The command has no meaning in this model yet. Raised by the dispatch only. Safe. -/
  | notModelled (mnemonic : String)
  deriving DecidableEq, Repr

/-- The whole module. -/
structure State where
  /-- The commands that wait, first in, first out (the model's own field). -/
  pending : List Instr := []
  /-- Register words that differ from their reset value, by setup-window offset, rising (R7). -/
  regs    : List (Nat × Word) := []
  /-- Counters that differ from 0, by the offset of their low word, rising. -/
  counts  : List (Nat × Nat) := []
  /-- Snapshot holders (R13 to R15). -/
  snaps   : List Snap := []
  /-- The answer to the last bus access. -/
  answer  : Answer := .none
  /-- What the module has sent out, oldest first (the model's own field: frames, cells, pin changes, messages). -/
  out     : List Out := []
  /-- Wall time in 2^−16 ns since the PTP epoch (R18). -/
  wall    : Nat := 0
  /-- Nanoseconds since the power-on reset (the model's own field). -/
  clock   : Nat := 0
  /-- The steering of the time PLL (R58 to R62). -/
  pll     : TimePll := {}
  /-- How many free values have been drawn (the model's own field). -/
  draws   : Nat := 0
  mem     : Mem := {}
  hrt     : Hrt := {}
  tmk     : Tmk := {}
  net     : Net := {}
  mtr     : Mtr := {}
  bat     : Battery := {}
  rad     : Rad := {}
  blw     : Blw := {}
  rtc     : Rtc := {}
  anv     : Anv := {}
  scn     : Scn := {}
  twn     : Twn := {}
  recd    : Recorder := {}
  key     : Keystore := {}
  cab     : Cab := {}
  boot    : Boot := {}
  deriving DecidableEq, Repr

/-- The machine at the instant of the power-on reset that power-up raises (R375, R393): every register at its Reset
column, nothing in memory, no command waiting. -/
def State.reset : State := {}


end Sys2Proof.Machine
end

