-- ==== Sys2Proof/Machine/RegMap.lean ====
section
/-! DEFINITION. The register map of the setup window: every register table of spec/ as addresses (`Reg`), named bit
fields (`F`) and rows of access masks and reset values (`RegDesc`). Addresses are offsets in the setup window: the
block offset of R17 plus the register offset of the table. A `cfg` field resets to the default that R386 gives; a
`fuse` field is 0 until the FUSE phase of the start loads it (assumption 6). -/

namespace Sys2Proof.Machine

/-! Registers of spec/02_wall_time.md. -/

def Reg.TMK_CFG : Nat := 0x400000
def F.TMK_CFG_pps_en : Field := ⟨Reg.TMK_CFG, 4, 1⟩
def F.TMK_CFG_osc_src : Field := ⟨Reg.TMK_CFG, 2, 2⟩
def F.TMK_CFG_wrap_mode : Field := ⟨Reg.TMK_CFG, 1, 1⟩
def F.TMK_CFG_enable : Field := ⟨Reg.TMK_CFG, 0, 1⟩
def Reg.TMK_STATUS : Nat := 0x400004
def F.TMK_STATUS_hops : Field := ⟨Reg.TMK_STATUS, 16, 8⟩
def F.TMK_STATUS_step_pending : Field := ⟨Reg.TMK_STATUS, 11, 1⟩
def F.TMK_STATUS_freq_src : Field := ⟨Reg.TMK_STATUS, 9, 2⟩
def F.TMK_STATUS_window_ok : Field := ⟨Reg.TMK_STATUS, 8, 1⟩
def F.TMK_STATUS_beyond_hops : Field := ⟨Reg.TMK_STATUS, 7, 1⟩
def F.TMK_STATUS_sel_ref : Field := ⟨Reg.TMK_STATUS, 5, 2⟩
def F.TMK_STATUS_servo_state : Field := ⟨Reg.TMK_STATUS, 0, 3⟩
def Reg.TMK_INT_STAT : Nat := 0x400008
def F.TMK_INT_STAT_launch_late : Field := ⟨Reg.TMK_INT_STAT, 8, 1⟩
def F.TMK_INT_STAT_tsq_overflow : Field := ⟨Reg.TMK_INT_STAT, 7, 1⟩
def F.TMK_INT_STAT_cfg_refused : Field := ⟨Reg.TMK_INT_STAT, 6, 1⟩
def F.TMK_INT_STAT_beyond_hops : Field := ⟨Reg.TMK_INT_STAT, 5, 1⟩
def F.TMK_INT_STAT_step_needed : Field := ⟨Reg.TMK_INT_STAT, 4, 1⟩
def F.TMK_INT_STAT_holdover : Field := ⟨Reg.TMK_INT_STAT, 3, 1⟩
def F.TMK_INT_STAT_ref_switch : Field := ⟨Reg.TMK_INT_STAT, 2, 1⟩
def F.TMK_INT_STAT_lock_lost : Field := ⟨Reg.TMK_INT_STAT, 1, 1⟩
def F.TMK_INT_STAT_lock_gained : Field := ⟨Reg.TMK_INT_STAT, 0, 1⟩
def Reg.TMK_INT_EN : Nat := 0x400010
def F.TMK_INT_EN_en : Field := ⟨Reg.TMK_INT_EN, 0, 9⟩
def Reg.TMK_OFFSET : Nat := 0x400030
def F.TMK_OFFSET_offset : Field := ⟨Reg.TMK_OFFSET, 0, 32⟩
def Reg.TMK_PTP_CFG : Nat := 0x400040
def F.TMK_PTP_CFG_priority1 : Field := ⟨Reg.TMK_PTP_CFG, 24, 8⟩
def F.TMK_PTP_CFG_ann_timeout : Field := ⟨Reg.TMK_PTP_CFG, 16, 4⟩
def F.TMK_PTP_CFG_gm_capable : Field := ⟨Reg.TMK_PTP_CFG, 12, 1⟩
def F.TMK_PTP_CFG_transport : Field := ⟨Reg.TMK_PTP_CFG, 10, 2⟩
def F.TMK_PTP_CFG_profile : Field := ⟨Reg.TMK_PTP_CFG, 8, 2⟩
def F.TMK_PTP_CFG_domain : Field := ⟨Reg.TMK_PTP_CFG, 0, 8⟩
def Reg.TMK_PORT_CFG (p : Nat) : Nat := 0x400080 + 0x4 * p
def F.TMK_PORT_CFG_priority (p : Nat) : Field := ⟨Reg.TMK_PORT_CFG p, 25, 3⟩
def F.TMK_PORT_CFG_late_drop (p : Nat) : Field := ⟨Reg.TMK_PORT_CFG p, 24, 1⟩
def F.TMK_PORT_CFG_m_log_announce (p : Nat) : Field := ⟨Reg.TMK_PORT_CFG p, 20, 4⟩
def F.TMK_PORT_CFG_m_log_sync (p : Nat) : Field := ⟨Reg.TMK_PORT_CFG p, 16, 4⟩
def F.TMK_PORT_CFG_m_domain (p : Nat) : Field := ⟨Reg.TMK_PORT_CFG p, 8, 8⟩
def F.TMK_PORT_CFG_m_profile (p : Nat) : Field := ⟨Reg.TMK_PORT_CFG p, 4, 2⟩
def F.TMK_PORT_CFG_one_step (p : Nat) : Field := ⟨Reg.TMK_PORT_CFG p, 3, 1⟩
def F.TMK_PORT_CFG_synce (p : Nat) : Field := ⟨Reg.TMK_PORT_CFG p, 2, 1⟩
def F.TMK_PORT_CFG_role (p : Nat) : Field := ⟨Reg.TMK_PORT_CFG p, 0, 2⟩
def Reg.TMK_CAL_ING (p : Nat) : Nat := 0x400100 + 0x10 * p
def F.TMK_CAL_ING_value (p : Nat) : Field := ⟨Reg.TMK_CAL_ING p, 0, 32⟩
def Reg.TMK_CAL_EGR (p : Nat) : Nat := 0x400104 + 0x10 * p
def F.TMK_CAL_EGR_value (p : Nat) : Field := ⟨Reg.TMK_CAL_EGR p, 0, 32⟩
def Reg.TMK_CAL_ASYM (p : Nat) : Nat := 0x400108 + 0x10 * p
def F.TMK_CAL_ASYM_value (p : Nat) : Field := ⟨Reg.TMK_CAL_ASYM p, 0, 32⟩
def Reg.TMK_SERVO_CFG : Nat := 0x400140
def F.TMK_SERVO_CFG_step_log2 : Field := ⟨Reg.TMK_SERVO_CFG, 17, 5⟩
def F.TMK_SERVO_CFG_step_allowed : Field := ⟨Reg.TMK_SERVO_CFG, 16, 1⟩
def F.TMK_SERVO_CFG_max_slew : Field := ⟨Reg.TMK_SERVO_CFG, 0, 16⟩
def Reg.TMK_REFSEL_CFG : Nat := 0x400150
def F.TMK_REFSEL_CFG_settle_ms : Field := ⟨Reg.TMK_REFSEL_CFG, 4, 12⟩
def F.TMK_REFSEL_CFG_force : Field := ⟨Reg.TMK_REFSEL_CFG, 1, 3⟩
def F.TMK_REFSEL_CFG_revertive : Field := ⟨Reg.TMK_REFSEL_CFG, 0, 1⟩
def Reg.TMK_REFSEL_STATUS : Nat := 0x400154
def F.TMK_REFSEL_STATUS_ext_state : Field := ⟨Reg.TMK_REFSEL_STATUS, 8, 2⟩
def F.TMK_REFSEL_STATUS_m0_state : Field := ⟨Reg.TMK_REFSEL_STATUS, 6, 2⟩
def F.TMK_REFSEL_STATUS_u1_state : Field := ⟨Reg.TMK_REFSEL_STATUS, 4, 2⟩
def F.TMK_REFSEL_STATUS_u0_state : Field := ⟨Reg.TMK_REFSEL_STATUS, 2, 2⟩
def F.TMK_REFSEL_STATUS_sel_state : Field := ⟨Reg.TMK_REFSEL_STATUS, 0, 2⟩
def Reg.TMK_REFSEL_CNT : Nat := 0x400158
def F.TMK_REFSEL_CNT_abandons : Field := ⟨Reg.TMK_REFSEL_CNT, 16, 16⟩
def F.TMK_REFSEL_CNT_switches : Field := ⟨Reg.TMK_REFSEL_CNT, 0, 16⟩
def Reg.TMK_TSQ_POP : Nat := 0x400190
def F.TMK_TSQ_POP_pop : Field := ⟨Reg.TMK_TSQ_POP, 0, 1⟩
def Reg.TMK_TSQ_STATUS : Nat := 0x400194
def F.TMK_TSQ_STATUS_overflow : Field := ⟨Reg.TMK_TSQ_STATUS, 7, 1⟩
def F.TMK_TSQ_STATUS_count : Field := ⟨Reg.TMK_TSQ_STATUS, 0, 7⟩
def Reg.TMK_TSQ_OVF : Nat := 0x40019C
def F.TMK_TSQ_OVF_ovf_count : Field := ⟨Reg.TMK_TSQ_OVF, 0, 32⟩
def Reg.TMK_HOLD_TIME : Nat := 0x4001A0
def F.TMK_HOLD_TIME_seconds : Field := ⟨Reg.TMK_HOLD_TIME, 0, 32⟩

/-! Registers of spec/03_network.md. -/

def Reg.NET_PORT_CFG (p : Nat) : Nat := 0x500000 + 0x4 * p
def F.NET_PORT_CFG_loopback (p : Nat) : Field := ⟨Reg.NET_PORT_CFG p, 7, 1⟩
def F.NET_PORT_CFG_fec_en (p : Nat) : Field := ⟨Reg.NET_PORT_CFG p, 6, 1⟩
def F.NET_PORT_CFG_ptp_bypass (p : Nat) : Field := ⟨Reg.NET_PORT_CFG p, 5, 1⟩
def F.NET_PORT_CFG_macsec_en (p : Nat) : Field := ⟨Reg.NET_PORT_CFG p, 4, 1⟩
def F.NET_PORT_CFG_bcast_en (p : Nat) : Field := ⟨Reg.NET_PORT_CFG p, 3, 1⟩
def F.NET_PORT_CFG_promisc (p : Nat) : Field := ⟨Reg.NET_PORT_CFG p, 2, 1⟩
def F.NET_PORT_CFG_max_frame (p : Nat) : Field := ⟨Reg.NET_PORT_CFG p, 1, 1⟩
def F.NET_PORT_CFG_enable (p : Nat) : Field := ⟨Reg.NET_PORT_CFG p, 0, 1⟩
def Reg.NET_PORT_MAC_LO (p : Nat) : Nat := 0x500010 + 0x8 * p
def F.NET_PORT_MAC_LO_mac_lo (p : Nat) : Field := ⟨Reg.NET_PORT_MAC_LO p, 0, 32⟩
def Reg.NET_PORT_MAC_HI (p : Nat) : Nat := 0x500014 + 0x8 * p
def F.NET_PORT_MAC_HI_mac_hi (p : Nat) : Field := ⟨Reg.NET_PORT_MAC_HI p, 0, 16⟩
def Reg.NET_PORT_STATUS : Nat := 0x500030
def F.NET_PORT_STATUS_m0_link : Field := ⟨Reg.NET_PORT_STATUS, 8, 1⟩
def F.NET_PORT_STATUS_u1_skew_done : Field := ⟨Reg.NET_PORT_STATUS, 6, 1⟩
def F.NET_PORT_STATUS_u1_fec_lock : Field := ⟨Reg.NET_PORT_STATUS, 5, 1⟩
def F.NET_PORT_STATUS_u1_link : Field := ⟨Reg.NET_PORT_STATUS, 4, 1⟩
def F.NET_PORT_STATUS_u0_skew_done : Field := ⟨Reg.NET_PORT_STATUS, 2, 1⟩
def F.NET_PORT_STATUS_u0_fec_lock : Field := ⟨Reg.NET_PORT_STATUS, 1, 1⟩
def F.NET_PORT_STATUS_u0_link : Field := ⟨Reg.NET_PORT_STATUS, 0, 1⟩
def Reg.NET_INT_STAT : Nat := 0x500040
def F.NET_INT_STAT_pn_exhausted : Field := ⟨Reg.NET_INT_STAT, 8, 1⟩
def F.NET_INT_STAT_pn_threshold_u1 : Field := ⟨Reg.NET_INT_STAT, 7, 1⟩
def F.NET_INT_STAT_pn_threshold_u0 : Field := ⟨Reg.NET_INT_STAT, 6, 1⟩
def F.NET_INT_STAT_anvil_drop : Field := ⟨Reg.NET_INT_STAT, 5, 1⟩
def F.NET_INT_STAT_no_buffer : Field := ⟨Reg.NET_INT_STAT, 4, 1⟩
def F.NET_INT_STAT_cnt_half : Field := ⟨Reg.NET_INT_STAT, 3, 1⟩
def F.NET_INT_STAT_link_m0 : Field := ⟨Reg.NET_INT_STAT, 2, 1⟩
def F.NET_INT_STAT_link_u1 : Field := ⟨Reg.NET_INT_STAT, 1, 1⟩
def F.NET_INT_STAT_link_u0 : Field := ⟨Reg.NET_INT_STAT, 0, 1⟩
def Reg.NET_INT_EN : Nat := 0x500048
def F.NET_INT_EN_en : Field := ⟨Reg.NET_INT_EN, 0, 9⟩
def Reg.NET_CNT_HALF (p : Nat) : Nat := 0x500060 + 0x8 * p
def F.NET_CNT_HALF_half (p : Nat) : Field := ⟨Reg.NET_CNT_HALF p, 0, 32⟩
def Reg.NET_STEER_CFG : Nat := 0x500080
def F.NET_STEER_CFG_default_drop : Field := ⟨Reg.NET_STEER_CFG, 4, 1⟩
def F.NET_STEER_CFG_default_q : Field := ⟨Reg.NET_STEER_CFG, 0, 4⟩
def Reg.NET_MACSEC_REPLAY (p : Nat) : Nat := 0x500100 + 0x4 * p
def F.NET_MACSEC_REPLAY_window (p : Nat) : Field := ⟨Reg.NET_MACSEC_REPLAY p, 0, 32⟩
def Reg.NET_MACSEC_PN_THRESH (p : Nat) : Nat := 0x500108 + 0x4 * p
def F.NET_MACSEC_PN_THRESH_thresh (p : Nat) : Field := ⟨Reg.NET_MACSEC_PN_THRESH p, 0, 32⟩
def Reg.NET_TXQ_CFG (p q : Nat) : Nat := 0x500400 + 0x20 * p + 0x4 * q
def F.NET_TXQ_CFG_idle_slope (p q : Nat) : Field := ⟨Reg.NET_TXQ_CFG p q, 1, 17⟩
def F.NET_TXQ_CFG_cbs_en (p q : Nat) : Field := ⟨Reg.NET_TXQ_CFG p q, 0, 1⟩
def Reg.NET_TXQ_HI (p q : Nat) : Nat := 0x500480 + 0x20 * p + 0x4 * q
def F.NET_TXQ_HI_hi_credit (p q : Nat) : Field := ⟨Reg.NET_TXQ_HI p q, 0, 24⟩

/-! Registers of spec/04_ingest.md. -/

def Reg.ANV_INGEST_STATUS : Nat := 0x600000
def F.ANV_INGEST_STATUS_slots_used : Field := ⟨Reg.ANV_INGEST_STATUS, 19, 4⟩
def F.ANV_INGEST_STATUS_time_wait : Field := ⟨Reg.ANV_INGEST_STATUS, 18, 1⟩
def F.ANV_INGEST_STATUS_show : Field := ⟨Reg.ANV_INGEST_STATUS, 16, 2⟩
def F.ANV_INGEST_STATUS_started : Field := ⟨Reg.ANV_INGEST_STATUS, 0, 16⟩
def Reg.ANV_INGEST_INT_STAT : Nat := 0x600008
def F.ANV_INGEST_INT_STAT_step : Field := ⟨Reg.ANV_INGEST_INT_STAT, 6, 1⟩
def F.ANV_INGEST_INT_STAT_rpt_lost : Field := ⟨Reg.ANV_INGEST_INT_STAT, 5, 1⟩
def F.ANV_INGEST_INT_STAT_resumed : Field := ⟨Reg.ANV_INGEST_INT_STAT, 4, 1⟩
def F.ANV_INGEST_INT_STAT_dark_begun : Field := ⟨Reg.ANV_INGEST_INT_STAT, 3, 1⟩
def F.ANV_INGEST_INT_STAT_repeat_begun : Field := ⟨Reg.ANV_INGEST_INT_STAT, 2, 1⟩
def F.ANV_INGEST_INT_STAT_absent : Field := ⟨Reg.ANV_INGEST_INT_STAT, 1, 1⟩
def F.ANV_INGEST_INT_STAT_refused : Field := ⟨Reg.ANV_INGEST_INT_STAT, 0, 1⟩
def Reg.ANV_INGEST_INT_EN : Nat := 0x600010
def F.ANV_INGEST_INT_EN_en : Field := ⟨Reg.ANV_INGEST_INT_EN, 0, 7⟩
def Reg.ANV_RPT_BASE_LO : Nat := 0x600020
def F.ANV_RPT_BASE_LO_base_lo : Field := ⟨Reg.ANV_RPT_BASE_LO, 0, 32⟩
def Reg.ANV_RPT_BASE_HI : Nat := 0x600024
def F.ANV_RPT_BASE_HI_base_hi : Field := ⟨Reg.ANV_RPT_BASE_HI, 0, 8⟩
def Reg.ANV_RPT_CFG : Nat := 0x600028
def F.ANV_RPT_CFG_enable : Field := ⟨Reg.ANV_RPT_CFG, 31, 1⟩
def F.ANV_RPT_CFG_size_log2 : Field := ⟨Reg.ANV_RPT_CFG, 0, 5⟩
def Reg.ANV_RPT_HEAD : Nat := 0x60002C
def F.ANV_RPT_HEAD_head : Field := ⟨Reg.ANV_RPT_HEAD, 0, 17⟩
def Reg.ANV_RPT_TAIL : Nat := 0x600030
def F.ANV_RPT_TAIL_tail : Field := ⟨Reg.ANV_RPT_TAIL, 0, 17⟩
def Reg.ANV_SLACK_MIN : Nat := 0x600040
def F.ANV_SLACK_MIN_slack_min : Field := ⟨Reg.ANV_SLACK_MIN, 0, 32⟩
def Reg.ANV_SLACK_RESET : Nat := 0x600044
def F.ANV_SLACK_RESET_reset : Field := ⟨Reg.ANV_SLACK_RESET, 0, 1⟩
def Reg.ANV_GRID_INDEX_LO : Nat := 0x600048
def F.ANV_GRID_INDEX_LO_index : Field := ⟨Reg.ANV_GRID_INDEX_LO, 0, 32⟩
def Reg.ANV_GRID_INDEX_HI : Nat := 0x60004C
def F.ANV_GRID_INDEX_HI_index : Field := ⟨Reg.ANV_GRID_INDEX_HI, 0, 32⟩

/-! Registers of spec/05_pixel_pipeline.md. -/

def Reg.ANV_PIPE_STATUS : Nat := 0x600100
def F.ANV_PIPE_STATUS_set_gen : Field := ⟨Reg.ANV_PIPE_STATUS, 16, 16⟩
def F.ANV_PIPE_STATUS_ckpt_busy : Field := ⟨Reg.ANV_PIPE_STATUS, 4, 1⟩
def F.ANV_PIPE_STATUS_curve_bank : Field := ⟨Reg.ANV_PIPE_STATUS, 3, 1⟩
def F.ANV_PIPE_STATUS_recode_busy : Field := ⟨Reg.ANV_PIPE_STATUS, 2, 1⟩
def F.ANV_PIPE_STATUS_commit_busy : Field := ⟨Reg.ANV_PIPE_STATUS, 1, 1⟩
def F.ANV_PIPE_STATUS_set_active : Field := ⟨Reg.ANV_PIPE_STATUS, 0, 1⟩
def Reg.ANV_PIPE_INT_STAT : Nat := 0x600108
def F.ANV_PIPE_INT_STAT_poison : Field := ⟨Reg.ANV_PIPE_INT_STAT, 5, 1⟩
def F.ANV_PIPE_INT_STAT_ramp_done : Field := ⟨Reg.ANV_PIPE_INT_STAT, 4, 1⟩
def F.ANV_PIPE_INT_STAT_dead_marked : Field := ⟨Reg.ANV_PIPE_INT_STAT, 3, 1⟩
def F.ANV_PIPE_INT_STAT_ckpt_done : Field := ⟨Reg.ANV_PIPE_INT_STAT, 2, 1⟩
def F.ANV_PIPE_INT_STAT_recode_done : Field := ⟨Reg.ANV_PIPE_INT_STAT, 1, 1⟩
def F.ANV_PIPE_INT_STAT_commit_done : Field := ⟨Reg.ANV_PIPE_INT_STAT, 0, 1⟩
def Reg.ANV_PIPE_INT_EN : Nat := 0x600110
def F.ANV_PIPE_INT_EN_en : Field := ⟨Reg.ANV_PIPE_INT_EN, 0, 6⟩
def Reg.ANV_BRIGHT_NOW : Nat := 0x600118
def F.ANV_BRIGHT_NOW_bright : Field := ⟨Reg.ANV_BRIGHT_NOW, 0, 16⟩
def Reg.ANV_AGE_CFG : Nat := 0x600120
def F.ANV_AGE_CFG_ckpt_en : Field := ⟨Reg.ANV_AGE_CFG, 5, 1⟩
def F.ANV_AGE_CFG_epoch_log2 : Field := ⟨Reg.ANV_AGE_CFG, 1, 4⟩
def F.ANV_AGE_CFG_integrate_en : Field := ⟨Reg.ANV_AGE_CFG, 0, 1⟩
def Reg.ANV_AGE_CKPT_BASE : Nat := 0x600124
def F.ANV_AGE_CKPT_BASE_mib : Field := ⟨Reg.ANV_AGE_CKPT_BASE, 0, 4⟩
def Reg.ANV_COMP_EN_LO : Nat := 0x600128
def F.ANV_COMP_EN_LO_ports : Field := ⟨Reg.ANV_COMP_EN_LO, 0, 32⟩
def Reg.ANV_COMP_EN_HI : Nat := 0x60012C
def F.ANV_COMP_EN_HI_ports : Field := ⟨Reg.ANV_COMP_EN_HI, 0, 32⟩

/-! Registers of spec/06_greyscale.md. -/

def Reg.ANV_GRY_STATUS : Nat := 0x600200
def F.ANV_GRY_STATUS_eff_bits : Field := ⟨Reg.ANV_GRY_STATUS, 24, 8⟩
def F.ANV_GRY_STATUS_w : Field := ⟨Reg.ANV_GRY_STATUS, 19, 5⟩
def F.ANV_GRY_STATUS_load_ok : Field := ⟨Reg.ANV_GRY_STATUS, 2, 1⟩
def F.ANV_GRY_STATUS_shutter_ok : Field := ⟨Reg.ANV_GRY_STATUS, 1, 1⟩
def F.ANV_GRY_STATUS_loaded : Field := ⟨Reg.ANV_GRY_STATUS, 0, 1⟩
def Reg.ANV_GRY_TPASS : Nat := 0x600204
def F.ANV_GRY_TPASS_t_pass : Field := ⟨Reg.ANV_GRY_TPASS, 0, 32⟩
def Reg.ANV_GRY_FLOOR : Nat := 0x600208
def F.ANV_GRY_FLOOR_g_floor : Field := ⟨Reg.ANV_GRY_FLOOR, 0, 22⟩
def Reg.ANV_GRY_LOAD : Nat := 0x60020C
def F.ANV_GRY_LOAD_t_load : Field := ⟨Reg.ANV_GRY_LOAD, 0, 32⟩
def Reg.ANV_GRY_LOAD_PORT : Nat := 0x600210
def F.ANV_GRY_LOAD_PORT_port : Field := ⟨Reg.ANV_GRY_LOAD_PORT, 0, 6⟩
def Reg.ANV_GRY_INT_STAT : Nat := 0x600218
def F.ANV_GRY_INT_STAT_sf_resized : Field := ⟨Reg.ANV_GRY_INT_STAT, 1, 1⟩
def F.ANV_GRY_INT_STAT_clipped : Field := ⟨Reg.ANV_GRY_INT_STAT, 0, 1⟩
def Reg.ANV_GRY_INT_EN : Nat := 0x600220
def F.ANV_GRY_INT_EN_en : Field := ⟨Reg.ANV_GRY_INT_EN, 0, 2⟩

/-! Registers of spec/07_scan_ports.md. -/

def Reg.SCN_CFG : Nat := 0x700000
def F.SCN_CFG_poll_en : Field := ⟨Reg.SCN_CFG, 0, 1⟩
def Reg.SCN_INT_STAT : Nat := 0x700008
def F.SCN_INT_STAT_rt_discarded : Field := ⟨Reg.SCN_INT_STAT, 4, 1⟩
def F.SCN_INT_STAT_rpt_lost : Field := ⟨Reg.SCN_INT_STAT, 3, 1⟩
def F.SCN_INT_STAT_fault : Field := ⟨Reg.SCN_INT_STAT, 2, 1⟩
def F.SCN_INT_STAT_quench : Field := ⟨Reg.SCN_INT_STAT, 1, 1⟩
def F.SCN_INT_STAT_alert : Field := ⟨Reg.SCN_INT_STAT, 0, 1⟩
def Reg.SCN_INT_EN : Nat := 0x700010
def F.SCN_INT_EN_en : Field := ⟨Reg.SCN_INT_EN, 0, 5⟩
def Reg.SCN_QUENCHED_LO : Nat := 0x700020
def F.SCN_QUENCHED_LO_ports : Field := ⟨Reg.SCN_QUENCHED_LO, 0, 32⟩
def Reg.SCN_QUENCHED_HI : Nat := 0x700024
def F.SCN_QUENCHED_HI_ports : Field := ⟨Reg.SCN_QUENCHED_HI, 0, 32⟩
def Reg.SCN_EVT_LO : Nat := 0x700030
def F.SCN_EVT_LO_ports : Field := ⟨Reg.SCN_EVT_LO, 0, 32⟩
def Reg.SCN_EVT_HI : Nat := 0x700038
def F.SCN_EVT_HI_ports : Field := ⟨Reg.SCN_EVT_HI, 0, 32⟩
def Reg.SCN_RPT_BASE_LO : Nat := 0x700040
def F.SCN_RPT_BASE_LO_base_lo : Field := ⟨Reg.SCN_RPT_BASE_LO, 0, 32⟩
def Reg.SCN_RPT_BASE_HI : Nat := 0x700044
def F.SCN_RPT_BASE_HI_base_hi : Field := ⟨Reg.SCN_RPT_BASE_HI, 0, 8⟩
def Reg.SCN_RPT_CFG : Nat := 0x700048
def F.SCN_RPT_CFG_enable : Field := ⟨Reg.SCN_RPT_CFG, 31, 1⟩
def F.SCN_RPT_CFG_size_log2 : Field := ⟨Reg.SCN_RPT_CFG, 0, 5⟩
def Reg.SCN_RPT_HEAD : Nat := 0x70004C
def F.SCN_RPT_HEAD_head : Field := ⟨Reg.SCN_RPT_HEAD, 0, 17⟩
def Reg.SCN_RPT_TAIL : Nat := 0x700050
def F.SCN_RPT_TAIL_tail : Field := ⟨Reg.SCN_RPT_TAIL, 0, 17⟩
def Reg.SCN_PORT_STATUS (p : Nat) : Nat := 0x700400 + 0x20 * p
def F.SCN_PORT_STATUS_found (p : Nat) : Field := ⟨Reg.SCN_PORT_STATUS p, 12, 10⟩
def F.SCN_PORT_STATUS_fault (p : Nat) : Field := ⟨Reg.SCN_PORT_STATUS p, 9, 3⟩
def F.SCN_PORT_STATUS_chain_set (p : Nat) : Field := ⟨Reg.SCN_PORT_STATUS p, 8, 1⟩
def F.SCN_PORT_STATUS_state (p : Nat) : Field := ⟨Reg.SCN_PORT_STATUS p, 0, 3⟩
def Reg.SCN_PORT_QSRC (p : Nat) : Nat := 0x700404 + 0x20 * p
def F.SCN_PORT_QSRC_src (p : Nat) : Field := ⟨Reg.SCN_PORT_QSRC p, 0, 6⟩
def Reg.SCN_PORT_RTT (p : Nat) : Nat := 0x700408 + 0x20 * p
def F.SCN_PORT_RTT_rt0 (p : Nat) : Field := ⟨Reg.SCN_PORT_RTT p, 0, 32⟩
def Reg.SCN_PORT_TRIM (p : Nat) : Nat := 0x70040C + 0x20 * p
def F.SCN_PORT_TRIM_w_chars (p : Nat) : Field := ⟨Reg.SCN_PORT_TRIM p, 16, 8⟩
def F.SCN_PORT_TRIM_fine (p : Nat) : Field := ⟨Reg.SCN_PORT_TRIM p, 0, 11⟩
def Reg.SCN_PORT_SPAN (p : Nat) : Nat := 0x700410 + 0x20 * p
def F.SCN_PORT_SPAN_span (p : Nat) : Field := ⟨Reg.SCN_PORT_SPAN p, 0, 16⟩
def Reg.SCN_PORT_TEMP (p : Nat) : Nat := 0x700414 + 0x20 * p
def F.SCN_PORT_TEMP_hottest (p : Nat) : Field := ⟨Reg.SCN_PORT_TEMP p, 16, 9⟩
def F.SCN_PORT_TEMP_temp (p : Nat) : Field := ⟨Reg.SCN_PORT_TEMP p, 0, 16⟩
def Reg.SCN_HEADROOM (g : Nat) : Nat := 0x700C00 + 0x4 * g
def F.SCN_HEADROOM_valid (g : Nat) : Field := ⟨Reg.SCN_HEADROOM g, 16, 1⟩
def F.SCN_HEADROOM_headroom (g : Nat) : Field := ⟨Reg.SCN_HEADROOM g, 0, 16⟩

/-! Registers of spec/08_twin.md. -/

def Reg.TWN_CFG : Nat := 0x800000
def F.TWN_CFG_key_slot : Field := ⟨Reg.TWN_CFG, 24, 8⟩
def F.TWN_CFG_wdog_ms : Field := ⟨Reg.TWN_CFG, 16, 8⟩
def F.TWN_CFG_takeover_unsync : Field := ⟨Reg.TWN_CFG, 2, 1⟩
def F.TWN_CFG_slot_b : Field := ⟨Reg.TWN_CFG, 1, 1⟩
def F.TWN_CFG_enable : Field := ⟨Reg.TWN_CFG, 0, 1⟩
def Reg.TWN_STATUS : Nat := 0x800004
def F.TWN_STATUS_claim_fault : Field := ⟨Reg.TWN_STATUS, 11, 1⟩
def F.TWN_STATUS_peer_claim : Field := ⟨Reg.TWN_STATUS, 10, 1⟩
def F.TWN_STATUS_own_claim : Field := ⟨Reg.TWN_STATUS, 9, 1⟩
def F.TWN_STATUS_healthy : Field := ⟨Reg.TWN_STATUS, 8, 1⟩
def F.TWN_STATUS_auth_ok : Field := ⟨Reg.TWN_STATUS, 7, 1⟩
def F.TWN_STATUS_link_up : Field := ⟨Reg.TWN_STATUS, 6, 1⟩
def F.TWN_STATUS_synced : Field := ⟨Reg.TWN_STATUS, 3, 1⟩
def F.TWN_STATUS_role : Field := ⟨Reg.TWN_STATUS, 0, 3⟩
def Reg.TWN_SYNC_WHY : Nat := 0x800008
def F.TWN_SYNC_WHY_why : Field := ⟨Reg.TWN_SYNC_WHY, 0, 8⟩
def Reg.TWN_HEALTH_WHY : Nat := 0x80000C
def F.TWN_HEALTH_WHY_why : Field := ⟨Reg.TWN_HEALTH_WHY, 0, 5⟩
def Reg.TWN_INT_STAT : Nat := 0x800010
def F.TWN_INT_STAT_load_repeat : Field := ⟨Reg.TWN_INT_STAT, 10, 1⟩
def F.TWN_INT_STAT_handoff_aborted : Field := ⟨Reg.TWN_INT_STAT, 9, 1⟩
def F.TWN_INT_STAT_class_stale : Field := ⟨Reg.TWN_INT_STAT, 8, 1⟩
def F.TWN_INT_STAT_diverged : Field := ⟨Reg.TWN_INT_STAT, 7, 1⟩
def F.TWN_INT_STAT_claim_fault : Field := ⟨Reg.TWN_INT_STAT, 6, 1⟩
def F.TWN_INT_STAT_auth_fail : Field := ⟨Reg.TWN_INT_STAT, 5, 1⟩
def F.TWN_INT_STAT_link_down : Field := ⟨Reg.TWN_INT_STAT, 4, 1⟩
def F.TWN_INT_STAT_sync_lost : Field := ⟨Reg.TWN_INT_STAT, 3, 1⟩
def F.TWN_INT_STAT_sync_gained : Field := ⟨Reg.TWN_INT_STAT, 2, 1⟩
def F.TWN_INT_STAT_became_standby : Field := ⟨Reg.TWN_INT_STAT, 1, 1⟩
def F.TWN_INT_STAT_became_active : Field := ⟨Reg.TWN_INT_STAT, 0, 1⟩
def Reg.TWN_INT_EN : Nat := 0x800018
def F.TWN_INT_EN_en : Field := ⟨Reg.TWN_INT_EN, 0, 11⟩
def Reg.TWN_WDOG : Nat := 0x80001C
def F.TWN_WDOG_kick : Field := ⟨Reg.TWN_WDOG, 0, 1⟩
def Reg.TWN_DELTA : Nat := 0x800020
def F.TWN_DELTA_delta : Field := ⟨Reg.TWN_DELTA, 0, 32⟩
def Reg.TWN_CLASS_REG : Nat := 0x800024
def F.TWN_CLASS_REG_classes : Field := ⟨Reg.TWN_CLASS_REG, 0, 16⟩
def Reg.TWN_CLASS_STALE : Nat := 0x800028
def F.TWN_CLASS_STALE_classes : Field := ⟨Reg.TWN_CLASS_STALE, 0, 16⟩
def Reg.TWN_DIGEST_LO : Nat := 0x800030
def F.TWN_DIGEST_LO_digest : Field := ⟨Reg.TWN_DIGEST_LO, 0, 32⟩
def Reg.TWN_DIGEST_HI : Nat := 0x800034
def F.TWN_DIGEST_HI_digest : Field := ⟨Reg.TWN_DIGEST_HI, 0, 32⟩
def Reg.TWN_PEER_DIGEST_LO : Nat := 0x800038
def F.TWN_PEER_DIGEST_LO_digest : Field := ⟨Reg.TWN_PEER_DIGEST_LO, 0, 32⟩
def Reg.TWN_PEER_DIGEST_HI : Nat := 0x80003C
def F.TWN_PEER_DIGEST_HI_digest : Field := ⟨Reg.TWN_PEER_DIGEST_HI, 0, 32⟩

/-! Registers of spec/09_host_interface.md. -/

def Reg.DBL_RING : Nat := 0xF00000
def F.DBL_RING_ring : Field := ⟨Reg.DBL_RING, 24, 8⟩
def F.DBL_RING_producer : Field := ⟨Reg.DBL_RING, 0, 17⟩
def Reg.HRT_STATUS : Nat := 0x0
def F.HRT_STATUS_rt_reset : Field := ⟨Reg.HRT_STATUS, 5, 1⟩
def F.HRT_STATUS_powered : Field := ⟨Reg.HRT_STATUS, 0, 5⟩
def Reg.HRT_INT_STAT : Nat := 0x8
def F.HRT_INT_STAT_desc_error : Field := ⟨Reg.HRT_INT_STAT, 7, 1⟩
def F.HRT_INT_STAT_cpl_stall : Field := ⟨Reg.HRT_INT_STAT, 6, 1⟩
def F.HRT_INT_STAT_mbx_foreign : Field := ⟨Reg.HRT_INT_STAT, 5, 1⟩
def F.HRT_INT_STAT_mbx_poison : Field := ⟨Reg.HRT_INT_STAT, 4, 1⟩
def F.HRT_INT_STAT_lockstep : Field := ⟨Reg.HRT_INT_STAT, 3, 1⟩
def F.HRT_INT_STAT_cfg_refused : Field := ⟨Reg.HRT_INT_STAT, 2, 1⟩
def F.HRT_INT_STAT_db_unknown : Field := ⟨Reg.HRT_INT_STAT, 1, 1⟩
def F.HRT_INT_STAT_db_bad : Field := ⟨Reg.HRT_INT_STAT, 0, 1⟩
def Reg.HRT_INT_EN : Nat := 0x10
def F.HRT_INT_EN_en : Field := ⟨Reg.HRT_INT_EN, 0, 8⟩
def Reg.HRT_DB_LAST_BAD : Nat := 0x14
def F.HRT_DB_LAST_BAD_word : Field := ⟨Reg.HRT_DB_LAST_BAD, 0, 32⟩
def Reg.HRT_SWI_SET : Nat := 0x20
def F.HRT_SWI_SET_swi : Field := ⟨Reg.HRT_SWI_SET, 0, 32⟩
def Reg.HRT_SWI_STAT : Nat := 0x24
def F.HRT_SWI_STAT_swi : Field := ⟨Reg.HRT_SWI_STAT, 0, 32⟩
def Reg.HRT_IRQ_CLAIM (c : Nat) : Nat := 0x100 + 0x10 * c
def F.HRT_IRQ_CLAIM_empty (c : Nat) : Field := ⟨Reg.HRT_IRQ_CLAIM c, 8, 1⟩
def F.HRT_IRQ_CLAIM_vector (c : Nat) : Field := ⟨Reg.HRT_IRQ_CLAIM c, 0, 8⟩
def Reg.HRT_IRQ_EOI (c : Nat) : Nat := 0x104 + 0x10 * c
def F.HRT_IRQ_EOI_vector (c : Nat) : Field := ⟨Reg.HRT_IRQ_EOI c, 0, 8⟩
def Reg.HRT_IRQ_PMASK (c : Nat) : Nat := 0x108 + 0x10 * c
def F.HRT_IRQ_PMASK_threshold (c : Nat) : Field := ⟨Reg.HRT_IRQ_PMASK c, 0, 4⟩
def Reg.HRT_VEC_ROUTE (v : Nat) : Nat := 0x400 + 0x4 * v
def F.HRT_VEC_ROUTE_en (v : Nat) : Field := ⟨Reg.HRT_VEC_ROUTE v, 31, 1⟩
def F.HRT_VEC_ROUTE_wake (v : Nat) : Field := ⟨Reg.HRT_VEC_ROUTE v, 30, 1⟩
def F.HRT_VEC_ROUTE_priority (v : Nat) : Field := ⟨Reg.HRT_VEC_ROUTE v, 4, 4⟩
def F.HRT_VEC_ROUTE_target (v : Nat) : Field := ⟨Reg.HRT_VEC_ROUTE v, 0, 3⟩
def Reg.HRT_VEC_PEND (i : Nat) : Nat := 0x800 + 0x4 * i
def F.HRT_VEC_PEND_bits (i : Nat) : Field := ⟨Reg.HRT_VEC_PEND i, 0, 32⟩
def Reg.HRT_CQ_PEND (i : Nat) : Nat := 0x820 + 0x4 * i
def F.HRT_CQ_PEND_bits (i : Nat) : Field := ⟨Reg.HRT_CQ_PEND i, 0, 32⟩
def Reg.HRT_RING_DESC_BASE_LO (n : Nat) : Nat := 0x1000 + 0x40 * n
def F.HRT_RING_DESC_BASE_LO_base_lo (n : Nat) : Field := ⟨Reg.HRT_RING_DESC_BASE_LO n, 0, 32⟩
def Reg.HRT_RING_DESC_BASE_HI (n : Nat) : Nat := 0x1004 + 0x40 * n
def F.HRT_RING_DESC_BASE_HI_base_hi (n : Nat) : Field := ⟨Reg.HRT_RING_DESC_BASE_HI n, 0, 8⟩
def Reg.HRT_RING_CPL_BASE_LO (n : Nat) : Nat := 0x1008 + 0x40 * n
def F.HRT_RING_CPL_BASE_LO_base_lo (n : Nat) : Field := ⟨Reg.HRT_RING_CPL_BASE_LO n, 0, 32⟩
def Reg.HRT_RING_CPL_BASE_HI (n : Nat) : Nat := 0x100C + 0x40 * n
def F.HRT_RING_CPL_BASE_HI_base_hi (n : Nat) : Field := ⟨Reg.HRT_RING_CPL_BASE_HI n, 0, 8⟩
def Reg.HRT_RING_CFG (n : Nat) : Nat := 0x1010 + 0x40 * n
def F.HRT_RING_CFG_enable (n : Nat) : Field := ⟨Reg.HRT_RING_CFG n, 31, 1⟩
def F.HRT_RING_CFG_busy (n : Nat) : Field := ⟨Reg.HRT_RING_CFG n, 30, 1⟩
def F.HRT_RING_CFG_vector (n : Nat) : Field := ⟨Reg.HRT_RING_CFG n, 16, 7⟩
def F.HRT_RING_CFG_size_log2 (n : Nat) : Field := ⟨Reg.HRT_RING_CFG n, 0, 5⟩
def Reg.HRT_RING_PROD (n : Nat) : Nat := 0x1014 + 0x40 * n
def F.HRT_RING_PROD_index (n : Nat) : Field := ⟨Reg.HRT_RING_PROD n, 0, 17⟩
def Reg.HRT_RING_CONS (n : Nat) : Nat := 0x1018 + 0x40 * n
def F.HRT_RING_CONS_index (n : Nat) : Field := ⟨Reg.HRT_RING_CONS n, 0, 17⟩
def Reg.HRT_RING_CPL_HEAD (n : Nat) : Nat := 0x101C + 0x40 * n
def F.HRT_RING_CPL_HEAD_index (n : Nat) : Field := ⟨Reg.HRT_RING_CPL_HEAD n, 0, 17⟩
def Reg.HRT_RING_CPL_TAIL (n : Nat) : Nat := 0x1020 + 0x40 * n
def F.HRT_RING_CPL_TAIL_index (n : Nat) : Field := ⟨Reg.HRT_RING_CPL_TAIL n, 0, 17⟩
def Reg.HRT_RING_COAL (n : Nat) : Nat := 0x1024 + 0x40 * n
def F.HRT_RING_COAL_time_us (n : Nat) : Field := ⟨Reg.HRT_RING_COAL n, 8, 10⟩
def F.HRT_RING_COAL_count (n : Nat) : Field := ⟨Reg.HRT_RING_COAL n, 0, 8⟩
def Reg.HRT_MBX_CFG (q : Nat) : Nat := 0x6000 + 0x40 * q
def F.HRT_MBX_CFG_enable (q : Nat) : Field := ⟨Reg.HRT_MBX_CFG q, 31, 1⟩
def F.HRT_MBX_CFG_receiver (q : Nat) : Field := ⟨Reg.HRT_MBX_CFG q, 4, 3⟩
def F.HRT_MBX_CFG_sender (q : Nat) : Field := ⟨Reg.HRT_MBX_CFG q, 0, 3⟩
def Reg.HRT_MBX_STATUS (q : Nat) : Nat := 0x6004 + 0x40 * q
def F.HRT_MBX_STATUS_stalled (q : Nat) : Field := ⟨Reg.HRT_MBX_STATUS q, 31, 1⟩
def F.HRT_MBX_STATUS_dropping (q : Nat) : Field := ⟨Reg.HRT_MBX_STATUS q, 30, 1⟩
def F.HRT_MBX_STATUS_count (q : Nat) : Field := ⟨Reg.HRT_MBX_STATUS q, 20, 10⟩
def F.HRT_MBX_STATUS_wr_ptr (q : Nat) : Field := ⟨Reg.HRT_MBX_STATUS q, 10, 10⟩
def F.HRT_MBX_STATUS_rd_ptr (q : Nat) : Field := ⟨Reg.HRT_MBX_STATUS q, 0, 10⟩
def Reg.HRT_MBX_WDATA_LO (q : Nat) : Nat := 0x6008 + 0x40 * q
def F.HRT_MBX_WDATA_LO_data (q : Nat) : Field := ⟨Reg.HRT_MBX_WDATA_LO q, 0, 32⟩
def Reg.HRT_MBX_WDATA_HI (q : Nat) : Nat := 0x600C + 0x40 * q
def F.HRT_MBX_WDATA_HI_data (q : Nat) : Field := ⟨Reg.HRT_MBX_WDATA_HI q, 0, 32⟩
def Reg.HRT_MBX_RDATA_LO (q : Nat) : Nat := 0x6010 + 0x40 * q
def F.HRT_MBX_RDATA_LO_data (q : Nat) : Field := ⟨Reg.HRT_MBX_RDATA_LO q, 0, 32⟩
def Reg.HRT_MBX_RDATA_HI (q : Nat) : Nat := 0x6014 + 0x40 * q
def F.HRT_MBX_RDATA_HI_data (q : Nat) : Field := ⟨Reg.HRT_MBX_RDATA_HI q, 0, 32⟩
def Reg.HRT_MBX_CTRL (q : Nat) : Nat := 0x6018 + 0x40 * q
def F.HRT_MBX_CTRL_flush (q : Nat) : Field := ⟨Reg.HRT_MBX_CTRL q, 1, 1⟩
def F.HRT_MBX_CTRL_drop_pkt (q : Nat) : Field := ⟨Reg.HRT_MBX_CTRL q, 0, 1⟩
def Reg.HRT_MBX_THRESH (q : Nat) : Nat := 0x601C + 0x40 * q
def F.HRT_MBX_THRESH_room_thresh (q : Nat) : Field := ⟨Reg.HRT_MBX_THRESH q, 16, 10⟩
def F.HRT_MBX_THRESH_data_thresh (q : Nat) : Field := ⟨Reg.HRT_MBX_THRESH q, 0, 10⟩

/-! Registers of spec/10_memory.md. -/

def Reg.MEM_INT_STAT : Nat := 0x100000
def F.MEM_INT_STAT_flip_done : Field := ⟨Reg.MEM_INT_STAT, 2, 1⟩
def F.MEM_INT_STAT_ue : Field := ⟨Reg.MEM_INT_STAT, 1, 1⟩
def F.MEM_INT_STAT_ce : Field := ⟨Reg.MEM_INT_STAT, 0, 1⟩
def Reg.MEM_INT_EN : Nat := 0x100008
def F.MEM_INT_EN_en : Field := ⟨Reg.MEM_INT_EN, 0, 3⟩
def Reg.MEM_ECC_LAST_ADDR_LO : Nat := 0x100010
def F.MEM_ECC_LAST_ADDR_LO_addr_lo : Field := ⟨Reg.MEM_ECC_LAST_ADDR_LO, 0, 32⟩
def Reg.MEM_ECC_LAST_ADDR_HI : Nat := 0x100014
def F.MEM_ECC_LAST_ADDR_HI_addr_hi : Field := ⟨Reg.MEM_ECC_LAST_ADDR_HI, 0, 8⟩
def Reg.MEM_ECC_LAST_INFO : Nat := 0x100018
def F.MEM_ECC_LAST_INFO_valid : Field := ⟨Reg.MEM_ECC_LAST_INFO, 31, 1⟩
def F.MEM_ECC_LAST_INFO_uncorrectable : Field := ⟨Reg.MEM_ECC_LAST_INFO, 30, 1⟩
def F.MEM_ECC_LAST_INFO_by_scrub : Field := ⟨Reg.MEM_ECC_LAST_INFO, 29, 1⟩
def F.MEM_ECC_LAST_INFO_initiator : Field := ⟨Reg.MEM_ECC_LAST_INFO, 24, 5⟩
def F.MEM_ECC_LAST_INFO_memory : Field := ⟨Reg.MEM_ECC_LAST_INFO, 16, 3⟩
def F.MEM_ECC_LAST_INFO_syndrome : Field := ⟨Reg.MEM_ECC_LAST_INFO, 0, 8⟩
def Reg.MEM_SCRUB_CFG (x : Nat) : Nat := 0x100020 + 0x4 * x
def F.MEM_SCRUB_CFG_enable (x : Nat) : Field := ⟨Reg.MEM_SCRUB_CFG x, 31, 1⟩
def F.MEM_SCRUB_CFG_period_s (x : Nat) : Field := ⟨Reg.MEM_SCRUB_CFG x, 0, 20⟩
def Reg.MEM_FLIP_ADDR_LO : Nat := 0x100040
def F.MEM_FLIP_ADDR_LO_addr_lo : Field := ⟨Reg.MEM_FLIP_ADDR_LO, 0, 32⟩
def Reg.MEM_FLIP_ADDR_HI : Nat := 0x100044
def F.MEM_FLIP_ADDR_HI_addr_hi : Field := ⟨Reg.MEM_FLIP_ADDR_HI, 0, 8⟩
def Reg.MEM_FLIP_MASK_LO : Nat := 0x100048
def F.MEM_FLIP_MASK_LO_mask : Field := ⟨Reg.MEM_FLIP_MASK_LO, 0, 32⟩
def Reg.MEM_FLIP_MASK_HI : Nat := 0x10004C
def F.MEM_FLIP_MASK_HI_mask : Field := ⟨Reg.MEM_FLIP_MASK_HI, 0, 32⟩
def Reg.MEM_FLIP_CTRL : Nat := 0x100050
def F.MEM_FLIP_CTRL_arm : Field := ⟨Reg.MEM_FLIP_CTRL, 8, 1⟩
def F.MEM_FLIP_CTRL_check_mask : Field := ⟨Reg.MEM_FLIP_CTRL, 0, 8⟩
def Reg.MEM_SPARE_STATUS : Nat := 0x100058
def F.MEM_SPARE_STATUS_mram : Field := ⟨Reg.MEM_SPARE_STATUS, 14, 9⟩
def F.MEM_SPARE_STATUS_billet_b : Field := ⟨Reg.MEM_SPARE_STATUS, 7, 7⟩
def F.MEM_SPARE_STATUS_billet_a : Field := ⟨Reg.MEM_SPARE_STATUS, 0, 7⟩
def Reg.MEM_DISP_LAT_MAX : Nat := 0x100060
def F.MEM_DISP_LAT_MAX_ns : Field := ⟨Reg.MEM_DISP_LAT_MAX, 0, 32⟩
def Reg.FWL_CFG : Nat := 0x108000
def F.FWL_CFG_lock : Field := ⟨Reg.FWL_CFG, 0, 1⟩
def Reg.FWL_COMMIT : Nat := 0x108004
def F.FWL_COMMIT_bad_entry : Field := ⟨Reg.FWL_COMMIT, 1, 6⟩
def F.FWL_COMMIT_go : Field := ⟨Reg.FWL_COMMIT, 0, 1⟩
def Reg.FWL_FENCE : Nat := 0x108008
def F.FWL_FENCE_drained : Field := ⟨Reg.FWL_FENCE, 31, 1⟩
def F.FWL_FENCE_gen : Field := ⟨Reg.FWL_FENCE, 0, 16⟩
def Reg.FWL_INT_STAT : Nat := 0x108010
def F.FWL_INT_STAT_commit_refused : Field := ⟨Reg.FWL_INT_STAT, 1, 1⟩
def F.FWL_INT_STAT_denied : Field := ⟨Reg.FWL_INT_STAT, 0, 1⟩
def Reg.FWL_INT_EN : Nat := 0x108018
def F.FWL_INT_EN_en : Field := ⟨Reg.FWL_INT_EN, 0, 2⟩
def Reg.FWL_DENY_ADDR_LO : Nat := 0x108020
def F.FWL_DENY_ADDR_LO_addr_lo : Field := ⟨Reg.FWL_DENY_ADDR_LO, 0, 32⟩
def Reg.FWL_DENY_ADDR_HI : Nat := 0x108024
def F.FWL_DENY_ADDR_HI_addr_hi : Field := ⟨Reg.FWL_DENY_ADDR_HI, 0, 8⟩
def Reg.FWL_DENY_INFO : Nat := 0x108028
def F.FWL_DENY_INFO_gen : Field := ⟨Reg.FWL_DENY_INFO, 16, 16⟩
def F.FWL_DENY_INFO_rule : Field := ⟨Reg.FWL_DENY_INFO, 9, 7⟩
def F.FWL_DENY_INFO_write : Field := ⟨Reg.FWL_DENY_INFO, 8, 1⟩
def F.FWL_DENY_INFO_initiator : Field := ⟨Reg.FWL_DENY_INFO, 0, 5⟩
def Reg.FWL_DEFAULT_R : Nat := 0x108030
def F.FWL_DEFAULT_R_mask : Field := ⟨Reg.FWL_DEFAULT_R, 0, 32⟩
def Reg.FWL_DEFAULT_W : Nat := 0x108034
def F.FWL_DEFAULT_W_mask : Field := ⟨Reg.FWL_DEFAULT_W, 0, 32⟩
def Reg.FWL_ACT_DEFAULT_R : Nat := 0x108038
def F.FWL_ACT_DEFAULT_R_mask : Field := ⟨Reg.FWL_ACT_DEFAULT_R, 0, 32⟩
def Reg.FWL_ACT_DEFAULT_W : Nat := 0x10803C
def F.FWL_ACT_DEFAULT_W_mask : Field := ⟨Reg.FWL_ACT_DEFAULT_W, 0, 32⟩
def Reg.FWL_ENT (e w : Nat) : Nat := 0x108400 + 0x10 * e + 0x4 * w
def F.FWL_ENT_entry (e w : Nat) : Field := ⟨Reg.FWL_ENT e w, 0, 32⟩
def Reg.FWL_ACT_ENT (e w : Nat) : Nat := 0x108800 + 0x10 * e + 0x4 * w
def F.FWL_ACT_ENT_entry (e w : Nat) : Field := ⟨Reg.FWL_ACT_ENT e w, 0, 32⟩

/-! Registers of spec/11_power.md. -/

def Reg.BLW_STATUS : Nat := 0x200000
def F.BLW_STATUS_therm_hot : Field := ⟨Reg.BLW_STATUS, 12, 1⟩
def F.BLW_STATUS_vbat_low : Field := ⟨Reg.BLW_STATUS, 11, 1⟩
def F.BLW_STATUS_committed : Field := ⟨Reg.BLW_STATUS, 10, 1⟩
def F.BLW_STATUS_pf_warn : Field := ⟨Reg.BLW_STATUS, 9, 1⟩
def F.BLW_STATUS_vin_ok : Field := ⟨Reg.BLW_STATUS, 8, 1⟩
def F.BLW_STATUS_req_refused : Field := ⟨Reg.BLW_STATUS, 7, 1⟩
def F.BLW_STATUS_busy : Field := ⟨Reg.BLW_STATUS, 6, 1⟩
def F.BLW_STATUS_target : Field := ⟨Reg.BLW_STATUS, 4, 2⟩
def F.BLW_STATUS_state : Field := ⟨Reg.BLW_STATUS, 0, 2⟩
def Reg.BLW_STATE_REQ : Nat := 0x200004
def F.BLW_STATE_REQ_state : Field := ⟨Reg.BLW_STATE_REQ, 0, 2⟩
def Reg.BLW_DOM_ON : Nat := 0x200008
def F.BLW_DOM_ON_on : Field := ⟨Reg.BLW_DOM_ON, 0, 30⟩
def Reg.BLW_OPT : Nat := 0x20000C
def F.BLW_OPT_skip_group : Field := ⟨Reg.BLW_OPT, 4, 4⟩
def F.BLW_OPT_flash_idle : Field := ⟨Reg.BLW_OPT, 2, 1⟩
def F.BLW_OPT_key_idle : Field := ⟨Reg.BLW_OPT, 1, 1⟩
def F.BLW_OPT_meter_idle : Field := ⟨Reg.BLW_OPT, 0, 1⟩
def Reg.BLW_INT_STAT : Nat := 0x200010
def F.BLW_INT_STAT_core_wake : Field := ⟨Reg.BLW_INT_STAT, 9, 1⟩
def F.BLW_INT_STAT_reg_lost : Field := ⟨Reg.BLW_INT_STAT, 8, 1⟩
def F.BLW_INT_STAT_rail_limit : Field := ⟨Reg.BLW_INT_STAT, 7, 1⟩
def F.BLW_INT_STAT_vin_ov : Field := ⟨Reg.BLW_INT_STAT, 6, 1⟩
def F.BLW_INT_STAT_vbat_low : Field := ⟨Reg.BLW_INT_STAT, 5, 1⟩
def F.BLW_INT_STAT_therm_warn : Field := ⟨Reg.BLW_INT_STAT, 4, 1⟩
def F.BLW_INT_STAT_dom_fault : Field := ⟨Reg.BLW_INT_STAT, 3, 1⟩
def F.BLW_INT_STAT_pf_recovered : Field := ⟨Reg.BLW_INT_STAT, 2, 1⟩
def F.BLW_INT_STAT_pf_warn : Field := ⟨Reg.BLW_INT_STAT, 1, 1⟩
def F.BLW_INT_STAT_state_done : Field := ⟨Reg.BLW_INT_STAT, 0, 1⟩
def Reg.BLW_INT_EN : Nat := 0x200018
def F.BLW_INT_EN_en : Field := ⟨Reg.BLW_INT_EN, 0, 10⟩
def Reg.BLW_DOM_FAULT : Nat := 0x200020
def F.BLW_DOM_FAULT_fault : Field := ⟨Reg.BLW_DOM_FAULT, 0, 30⟩
def Reg.BLW_WAKE_EN : Nat := 0x200030
def F.BLW_WAKE_EN_en : Field := ⟨Reg.BLW_WAKE_EN, 0, 10⟩
def Reg.BLW_WAKE_CAUSE : Nat := 0x200034
def F.BLW_WAKE_CAUSE_prev_dark : Field := ⟨Reg.BLW_WAKE_CAUSE, 31, 1⟩
def F.BLW_WAKE_CAUSE_cause : Field := ⟨Reg.BLW_WAKE_CAUSE, 0, 10⟩
def Reg.BLW_MON : Nat := 0x200040
def F.BLW_MON_vbat : Field := ⟨Reg.BLW_MON, 16, 16⟩
def F.BLW_MON_vin : Field := ⟨Reg.BLW_MON, 0, 16⟩
def Reg.BLW_STORE : Nat := 0x200044
def F.BLW_STORE_mv : Field := ⟨Reg.BLW_STORE, 0, 16⟩
def Reg.BLW_PF_CFG : Nat := 0x200048
def F.BLW_PF_CFG_commit_us : Field := ⟨Reg.BLW_PF_CFG, 16, 12⟩
def F.BLW_PF_CFG_warn_mv : Field := ⟨Reg.BLW_PF_CFG, 0, 12⟩
def Reg.BLW_THERM : Nat := 0x200050
def F.BLW_THERM_sensor : Field := ⟨Reg.BLW_THERM, 16, 3⟩
def F.BLW_THERM_temp : Field := ⟨Reg.BLW_THERM, 0, 16⟩
def Reg.BLW_THERM_CFG : Nat := 0x200054
def F.BLW_THERM_CFG_auto_restart : Field := ⟨Reg.BLW_THERM_CFG, 16, 1⟩
def F.BLW_THERM_CFG_restart_c : Field := ⟨Reg.BLW_THERM_CFG, 8, 8⟩
def F.BLW_THERM_CFG_warn_c : Field := ⟨Reg.BLW_THERM_CFG, 0, 8⟩
def Reg.BLW_RAIL_STATUS (g : Nat) : Nat := 0x200100 + 0x8 * g
def F.BLW_RAIL_STATUS_target (g : Nat) : Field := ⟨Reg.BLW_RAIL_STATUS g, 16, 16⟩
def F.BLW_RAIL_STATUS_v_now (g : Nat) : Field := ⟨Reg.BLW_RAIL_STATUS g, 0, 16⟩
def Reg.BLW_RAIL_MODE (g : Nat) : Nat := 0x200104 + 0x8 * g
def F.BLW_RAIL_MODE_at_limit (g : Nat) : Field := ⟨Reg.BLW_RAIL_MODE g, 4, 1⟩
def F.BLW_RAIL_MODE_holdoff (g : Nat) : Field := ⟨Reg.BLW_RAIL_MODE g, 3, 1⟩
def F.BLW_RAIL_MODE_slewing (g : Nat) : Field := ⟨Reg.BLW_RAIL_MODE g, 2, 1⟩
def F.BLW_RAIL_MODE_mode (g : Nat) : Field := ⟨Reg.BLW_RAIL_MODE g, 0, 2⟩

/-! Registers of spec/12_start.md. -/

def Reg.BOOT_STATUS : Nat := 0x300000
def F.BOOT_STATUS_wd_count : Field := ⟨Reg.BOOT_STATUS, 16, 8⟩
def F.BOOT_STATUS_slot_fallback : Field := ⟨Reg.BOOT_STATUS, 11, 1⟩
def F.BOOT_STATUS_booted_slot : Field := ⟨Reg.BOOT_STATUS, 10, 1⟩
def F.BOOT_STATUS_ident_bad : Field := ⟨Reg.BOOT_STATUS, 9, 1⟩
def F.BOOT_STATUS_staging_copied : Field := ⟨Reg.BOOT_STATUS, 8, 1⟩
def F.BOOT_STATUS_fault : Field := ⟨Reg.BOOT_STATUS, 4, 4⟩
def F.BOOT_STATUS_phase : Field := ⟨Reg.BOOT_STATUS, 0, 4⟩
def Reg.BOOT_CAUSE : Nat := 0x300004
def F.BOOT_CAUSE_pending : Field := ⟨Reg.BOOT_CAUSE, 21, 9⟩
def F.BOOT_CAUSE_prev_fault : Field := ⟨Reg.BOOT_CAUSE, 16, 4⟩
def F.BOOT_CAUSE_domain : Field := ⟨Reg.BOOT_CAUSE, 8, 5⟩
def F.BOOT_CAUSE_prev_cause : Field := ⟨Reg.BOOT_CAUSE, 4, 4⟩
def F.BOOT_CAUSE_cause : Field := ⟨Reg.BOOT_CAUSE, 0, 4⟩
def Reg.BOOT_HWID : Nat := 0x300008
def F.BOOT_HWID_revision : Field := ⟨Reg.BOOT_HWID, 16, 4⟩
def F.BOOT_HWID_type : Field := ⟨Reg.BOOT_HWID, 0, 16⟩
def Reg.BOOT_IDENT : Nat := 0x30000C
def F.BOOT_IDENT_segment : Field := ⟨Reg.BOOT_IDENT, 0, 32⟩
def Reg.BOOT_IDENT_SLOT : Nat := 0x300010
def F.BOOT_IDENT_SLOT_slot : Field := ⟨Reg.BOOT_IDENT_SLOT, 0, 8⟩
def Reg.BOOT_CFG_CNT : Nat := 0x300014
def F.BOOT_CFG_CNT_unknown : Field := ⟨Reg.BOOT_CFG_CNT, 24, 8⟩
def F.BOOT_CFG_CNT_refused : Field := ⟨Reg.BOOT_CFG_CNT, 12, 12⟩
def F.BOOT_CFG_CNT_applied : Field := ⟨Reg.BOOT_CFG_CNT, 0, 12⟩
def Reg.BOOT_INT_STAT : Nat := 0x300018
def F.BOOT_INT_STAT_reset_refused : Field := ⟨Reg.BOOT_INT_STAT, 3, 1⟩
def F.BOOT_INT_STAT_records_refused : Field := ⟨Reg.BOOT_INT_STAT, 2, 1⟩
def F.BOOT_INT_STAT_ident_bad : Field := ⟨Reg.BOOT_INT_STAT, 1, 1⟩
def F.BOOT_INT_STAT_slot_fallback : Field := ⟨Reg.BOOT_INT_STAT, 0, 1⟩
def Reg.BOOT_INT_EN : Nat := 0x300020
def F.BOOT_INT_EN_en : Field := ⟨Reg.BOOT_INT_EN, 0, 4⟩
def Reg.BOOT_RESET : Nat := 0x300024
def F.BOOT_RESET_key : Field := ⟨Reg.BOOT_RESET, 16, 16⟩
def F.BOOT_RESET_core : Field := ⟨Reg.BOOT_RESET, 8, 2⟩
def F.BOOT_RESET_kind : Field := ⟨Reg.BOOT_RESET, 0, 2⟩
def Reg.BOOT_START_TIME : Nat := 0x300028
def F.BOOT_START_TIME_us : Field := ⟨Reg.BOOT_START_TIME, 0, 32⟩
def Reg.BOOT_FUSE (w : Nat) : Nat := 0x301000 + 0x4 * w
def F.BOOT_FUSE_bytes (w : Nat) : Field := ⟨Reg.BOOT_FUSE w, 0, 32⟩

/-! Registers of spec/13_clocks.md. -/

def Reg.TMK_CLK_STATUS : Nat := 0x400200
def F.TMK_CLK_STATUS_ext_present : Field := ⟨Reg.TMK_CLK_STATUS, 9, 1⟩
def F.TMK_CLK_STATUS_tcxo_ok : Field := ⟨Reg.TMK_CLK_STATUS, 8, 1⟩
def F.TMK_CLK_STATUS_dram_locked : Field := ⟨Reg.TMK_CLK_STATUS, 7, 1⟩
def F.TMK_CLK_STATUS_time_locked : Field := ⟨Reg.TMK_CLK_STATUS, 6, 1⟩
def F.TMK_CLK_STATUS_anvil_locked : Field := ⟨Reg.TMK_CLK_STATUS, 5, 1⟩
def F.TMK_CLK_STATUS_core_locked : Field := ⟨Reg.TMK_CLK_STATUS, 4, 1⟩
def F.TMK_CLK_STATUS_ref_input : Field := ⟨Reg.TMK_CLK_STATUS, 2, 2⟩
def F.TMK_CLK_STATUS_ref_hold : Field := ⟨Reg.TMK_CLK_STATUS, 1, 1⟩
def F.TMK_CLK_STATUS_ref_locked : Field := ⟨Reg.TMK_CLK_STATUS, 0, 1⟩
def Reg.TMK_CLK_INT_STAT : Nat := 0x400208
def F.TMK_CLK_INT_STAT_synce_lost : Field := ⟨Reg.TMK_CLK_INT_STAT, 7, 1⟩
def F.TMK_CLK_INT_STAT_tcxo_back : Field := ⟨Reg.TMK_CLK_INT_STAT, 6, 1⟩
def F.TMK_CLK_INT_STAT_anvil_unlock : Field := ⟨Reg.TMK_CLK_INT_STAT, 5, 1⟩
def F.TMK_CLK_INT_STAT_time_unlock : Field := ⟨Reg.TMK_CLK_INT_STAT, 4, 1⟩
def F.TMK_CLK_INT_STAT_ref_switch : Field := ⟨Reg.TMK_CLK_INT_STAT, 3, 1⟩
def F.TMK_CLK_INT_STAT_ref_hold : Field := ⟨Reg.TMK_CLK_INT_STAT, 2, 1⟩
def F.TMK_CLK_INT_STAT_ext_lost : Field := ⟨Reg.TMK_CLK_INT_STAT, 1, 1⟩
def F.TMK_CLK_INT_STAT_tcxo_lost : Field := ⟨Reg.TMK_CLK_INT_STAT, 0, 1⟩
def Reg.TMK_CLK_INT_EN : Nat := 0x400210
def F.TMK_CLK_INT_EN_en : Field := ⟨Reg.TMK_CLK_INT_EN, 0, 8⟩
def Reg.TMK_CLK_CNT : Nat := 0x400214
def F.TMK_CLK_CNT_hold_entries : Field := ⟨Reg.TMK_CLK_CNT, 16, 16⟩
def F.TMK_CLK_CNT_ref_switches : Field := ⟨Reg.TMK_CLK_CNT, 0, 16⟩
def Reg.BLW_LF_CLK : Nat := 0x200058
def F.BLW_LF_CLK_lost : Field := ⟨Reg.BLW_LF_CLK, 2, 1⟩
def F.BLW_LF_CLK_int_en : Field := ⟨Reg.BLW_LF_CLK, 1, 1⟩
def F.BLW_LF_CLK_on_rc : Field := ⟨Reg.BLW_LF_CLK, 0, 1⟩

/-! Registers of spec/14_rtc.md. -/

def Reg.RTC_UTC_OFF : Nat := 0x480014
def F.RTC_UTC_OFF_offset : Field := ⟨Reg.RTC_UTC_OFF, 0, 16⟩
def Reg.RTC_LEAP_LO : Nat := 0x480018
def F.RTC_LEAP_LO_sec_lo : Field := ⟨Reg.RTC_LEAP_LO, 0, 32⟩
def Reg.RTC_LEAP_HI : Nat := 0x48001C
def F.RTC_LEAP_HI_arm : Field := ⟨Reg.RTC_LEAP_HI, 17, 1⟩
def F.RTC_LEAP_HI_delete : Field := ⟨Reg.RTC_LEAP_HI, 16, 1⟩
def F.RTC_LEAP_HI_sec_hi : Field := ⟨Reg.RTC_LEAP_HI, 0, 16⟩
def Reg.RTC_ADJ_SEC : Nat := 0x480020
def F.RTC_ADJ_SEC_seconds : Field := ⟨Reg.RTC_ADJ_SEC, 0, 32⟩
def Reg.RTC_ADJ_CTRL : Nat := 0x480024
def F.RTC_ADJ_CTRL_go : Field := ⟨Reg.RTC_ADJ_CTRL, 31, 1⟩
def F.RTC_ADJ_CTRL_ticks : Field := ⟨Reg.RTC_ADJ_CTRL, 0, 16⟩
def Reg.RTC_TRIM : Nat := 0x480028
def F.RTC_TRIM_trim : Field := ⟨Reg.RTC_TRIM, 0, 16⟩
def Reg.RTC_ALARM_W0 (a : Nat) : Nat := 0x480030 + 0x10 * a
def F.RTC_ALARM_W0_ticks (a : Nat) : Field := ⟨Reg.RTC_ALARM_W0 a, 0, 15⟩
def Reg.RTC_ALARM_W1 (a : Nat) : Nat := 0x480034 + 0x10 * a
def F.RTC_ALARM_W1_sec_lo (a : Nat) : Field := ⟨Reg.RTC_ALARM_W1 a, 0, 32⟩
def Reg.RTC_ALARM_W2 (a : Nat) : Nat := 0x480038 + 0x10 * a
def F.RTC_ALARM_W2_wake (a : Nat) : Field := ⟨Reg.RTC_ALARM_W2 a, 17, 1⟩
def F.RTC_ALARM_W2_arm (a : Nat) : Field := ⟨Reg.RTC_ALARM_W2 a, 16, 1⟩
def F.RTC_ALARM_W2_sec_hi (a : Nat) : Field := ⟨Reg.RTC_ALARM_W2 a, 0, 16⟩
def Reg.RTC_CFG : Nat := 0x480050
def F.RTC_CFG_disc_en : Field := ⟨Reg.RTC_CFG, 0, 1⟩
def Reg.RTC_STATUS : Nat := 0x480054
def F.RTC_STATUS_cal_range : Field := ⟨Reg.RTC_STATUS, 4, 1⟩
def F.RTC_STATUS_osc_stopped : Field := ⟨Reg.RTC_STATUS, 3, 1⟩
def F.RTC_STATUS_locked : Field := ⟨Reg.RTC_STATUS, 2, 1⟩
def F.RTC_STATUS_disc_active : Field := ⟨Reg.RTC_STATUS, 1, 1⟩
def F.RTC_STATUS_valid : Field := ⟨Reg.RTC_STATUS, 0, 1⟩
def Reg.RTC_INT_STAT : Nat := 0x480058
def F.RTC_INT_STAT_cfg_refused : Field := ⟨Reg.RTC_INT_STAT, 7, 1⟩
def F.RTC_INT_STAT_osc_stop : Field := ⟨Reg.RTC_INT_STAT, 6, 1⟩
def F.RTC_INT_STAT_adj_refused : Field := ⟨Reg.RTC_INT_STAT, 5, 1⟩
def F.RTC_INT_STAT_wr_locked : Field := ⟨Reg.RTC_INT_STAT, 4, 1⟩
def F.RTC_INT_STAT_disc_jump : Field := ⟨Reg.RTC_INT_STAT, 3, 1⟩
def F.RTC_INT_STAT_leap_done : Field := ⟨Reg.RTC_INT_STAT, 2, 1⟩
def F.RTC_INT_STAT_alarm1 : Field := ⟨Reg.RTC_INT_STAT, 1, 1⟩
def F.RTC_INT_STAT_alarm0 : Field := ⟨Reg.RTC_INT_STAT, 0, 1⟩
def Reg.RTC_INT_EN : Nat := 0x480060
def F.RTC_INT_EN_en : Field := ⟨Reg.RTC_INT_EN, 0, 8⟩
def Reg.RTC_DISC_ERR : Nat := 0x480064
def F.RTC_DISC_ERR_e : Field := ⟨Reg.RTC_DISC_ERR, 0, 32⟩

/-! Registers of spec/15_metering.md. -/

def Reg.MTR_CFG : Nat := 0x900000
def F.MTR_CFG_harm_every : Field := ⟨Reg.MTR_CFG, 8, 8⟩
def F.MTR_CFG_nd_en : Field := ⟨Reg.MTR_CFG, 6, 1⟩
def F.MTR_CFG_hpf_en : Field := ⟨Reg.MTR_CFG, 5, 1⟩
def F.MTR_CFG_nominal_60 : Field := ⟨Reg.MTR_CFG, 4, 1⟩
def F.MTR_CFG_mod_rate : Field := ⟨Reg.MTR_CFG, 2, 2⟩
def F.MTR_CFG_clk_mode : Field := ⟨Reg.MTR_CFG, 1, 1⟩
def F.MTR_CFG_enable : Field := ⟨Reg.MTR_CFG, 0, 1⟩
def Reg.MTR_STATUS : Nat := 0x900004
def F.MTR_STATUS_ch_fault : Field := ⟨Reg.MTR_STATUS, 10, 7⟩
def F.MTR_STATUS_present : Field := ⟨Reg.MTR_STATUS, 7, 3⟩
def F.MTR_STATUS_neutral_missing : Field := ⟨Reg.MTR_STATUS, 6, 1⟩
def F.MTR_STATUS_seq : Field := ⟨Reg.MTR_STATUS, 4, 2⟩
def F.MTR_STATUS_cal_pending : Field := ⟨Reg.MTR_STATUS, 3, 1⟩
def F.MTR_STATUS_freq_valid : Field := ⟨Reg.MTR_STATUS, 2, 1⟩
def F.MTR_STATUS_ref : Field := ⟨Reg.MTR_STATUS, 0, 2⟩
def Reg.MTR_INT_STAT : Nat := 0x900008
def F.MTR_INT_STAT_acc_restart : Field := ⟨Reg.MTR_INT_STAT, 11, 1⟩
def F.MTR_INT_STAT_cal_applied : Field := ⟨Reg.MTR_INT_STAT, 10, 1⟩
def F.MTR_INT_STAT_delay_clamp : Field := ⟨Reg.MTR_INT_STAT, 9, 1⟩
def F.MTR_INT_STAT_freq_invalid : Field := ⟨Reg.MTR_INT_STAT, 8, 1⟩
def F.MTR_INT_STAT_overrange : Field := ⟨Reg.MTR_INT_STAT, 7, 1⟩
def F.MTR_INT_STAT_ch_fault : Field := ⟨Reg.MTR_INT_STAT, 6, 1⟩
def F.MTR_INT_STAT_phase_loss : Field := ⟨Reg.MTR_INT_STAT, 5, 1⟩
def F.MTR_INT_STAT_neutral : Field := ⟨Reg.MTR_INT_STAT, 4, 1⟩
def F.MTR_INT_STAT_seq_change : Field := ⟨Reg.MTR_INT_STAT, 3, 1⟩
def F.MTR_INT_STAT_harm_lost : Field := ⟨Reg.MTR_INT_STAT, 2, 1⟩
def F.MTR_INT_STAT_res_lost : Field := ⟨Reg.MTR_INT_STAT, 1, 1⟩
def F.MTR_INT_STAT_result : Field := ⟨Reg.MTR_INT_STAT, 0, 1⟩
def Reg.MTR_INT_EN : Nat := 0x900010
def F.MTR_INT_EN_en : Field := ⟨Reg.MTR_INT_EN, 0, 12⟩
def Reg.MTR_FREQ : Nat := 0x900014
def F.MTR_FREQ_value : Field := ⟨Reg.MTR_FREQ, 0, 32⟩
def Reg.MTR_FMOD : Nat := 0x900018
def F.MTR_FMOD_value : Field := ⟨Reg.MTR_FMOD, 0, 32⟩
def Reg.MTR_RES_INTERVAL : Nat := 0x90001C
def F.MTR_RES_INTERVAL_blocks : Field := ⟨Reg.MTR_RES_INTERVAL, 0, 16⟩
def Reg.MTR_CH_GAIN (c : Nat) : Nat := 0x900100 + 0x10 * c
def F.MTR_CH_GAIN_gain (c : Nat) : Field := ⟨Reg.MTR_CH_GAIN c, 0, 24⟩
def Reg.MTR_CH_SKEW (c : Nat) : Nat := 0x900104 + 0x10 * c
def F.MTR_CH_SKEW_skew (c : Nat) : Field := ⟨Reg.MTR_CH_SKEW c, 0, 16⟩
def Reg.MTR_CH_SCALE (c : Nat) : Nat := 0x900108 + 0x10 * c
def F.MTR_CH_SCALE_scale (c : Nat) : Field := ⟨Reg.MTR_CH_SCALE c, 0, 32⟩
def Reg.MTR_PHCAL (p : Nat) : Nat := 0x900180 + 0x4 * p
def F.MTR_PHCAL_phcal (p : Nat) : Field := ⟨Reg.MTR_PHCAL p, 0, 16⟩
def Reg.MTR_VNOM : Nat := 0x900190
def F.MTR_VNOM_vnom : Field := ⟨Reg.MTR_VNOM, 0, 32⟩
def Reg.MTR_DET_CFG : Nat := 0x900194
def F.MTR_DET_CFG_nd_pct : Field := ⟨Reg.MTR_DET_CFG, 8, 8⟩
def F.MTR_DET_CFG_v_loss : Field := ⟨Reg.MTR_DET_CFG, 0, 8⟩
def Reg.MTR_CAL_APPLY : Nat := 0x9001A0
def F.MTR_CAL_APPLY_go : Field := ⟨Reg.MTR_CAL_APPLY, 0, 1⟩
def Reg.MTR_RES_BASE_LO : Nat := 0x900300
def F.MTR_RES_BASE_LO_base_lo : Field := ⟨Reg.MTR_RES_BASE_LO, 0, 32⟩
def Reg.MTR_RES_BASE_HI : Nat := 0x900304
def F.MTR_RES_BASE_HI_base_hi : Field := ⟨Reg.MTR_RES_BASE_HI, 0, 8⟩
def Reg.MTR_RES_CFG : Nat := 0x900308
def F.MTR_RES_CFG_enable : Field := ⟨Reg.MTR_RES_CFG, 31, 1⟩
def F.MTR_RES_CFG_size_log2 : Field := ⟨Reg.MTR_RES_CFG, 0, 5⟩
def Reg.MTR_RES_HEAD : Nat := 0x90030C
def F.MTR_RES_HEAD_head : Field := ⟨Reg.MTR_RES_HEAD, 0, 17⟩
def Reg.MTR_RES_TAIL : Nat := 0x900310
def F.MTR_RES_TAIL_tail : Field := ⟨Reg.MTR_RES_TAIL, 0, 17⟩
def Reg.MTR_HRM_BASE_LO : Nat := 0x900320
def F.MTR_HRM_BASE_LO_base_lo : Field := ⟨Reg.MTR_HRM_BASE_LO, 0, 32⟩
def Reg.MTR_HRM_BASE_HI : Nat := 0x900324
def F.MTR_HRM_BASE_HI_base_hi : Field := ⟨Reg.MTR_HRM_BASE_HI, 0, 8⟩
def Reg.MTR_HRM_CFG : Nat := 0x900328
def F.MTR_HRM_CFG_enable : Field := ⟨Reg.MTR_HRM_CFG, 31, 1⟩
def F.MTR_HRM_CFG_size_log2 : Field := ⟨Reg.MTR_HRM_CFG, 0, 5⟩
def Reg.MTR_HRM_HEAD : Nat := 0x90032C
def F.MTR_HRM_HEAD_head : Field := ⟨Reg.MTR_HRM_HEAD, 0, 17⟩
def Reg.MTR_HRM_TAIL : Nat := 0x900330
def F.MTR_HRM_TAIL_tail : Field := ⟨Reg.MTR_HRM_TAIL, 0, 17⟩
def Reg.MTR_BAT_CFG : Nat := 0x900800
def F.MTR_BAT_CFG_int_en : Field := ⟨Reg.MTR_BAT_CFG, 24, 1⟩
def F.MTR_BAT_CFG_ch_mask : Field := ⟨Reg.MTR_BAT_CFG, 20, 4⟩
def F.MTR_BAT_CFG_n_consec : Field := ⟨Reg.MTR_BAT_CFG, 16, 4⟩
def F.MTR_BAT_CFG_interval_s : Field := ⟨Reg.MTR_BAT_CFG, 4, 12⟩
def F.MTR_BAT_CFG_en : Field := ⟨Reg.MTR_BAT_CFG, 0, 1⟩
def Reg.MTR_BAT_STATUS : Nat := 0x900804
def F.MTR_BAT_STATUS_over : Field := ⟨Reg.MTR_BAT_STATUS, 4, 4⟩
def F.MTR_BAT_STATUS_fe_fault : Field := ⟨Reg.MTR_BAT_STATUS, 2, 1⟩
def F.MTR_BAT_STATUS_low_batt : Field := ⟨Reg.MTR_BAT_STATUS, 1, 1⟩
def F.MTR_BAT_STATUS_theft : Field := ⟨Reg.MTR_BAT_STATUS, 0, 1⟩
def Reg.MTR_BAT_THRESH (c : Nat) : Nat := 0x900810 + 0x4 * c
def F.MTR_BAT_THRESH_value (c : Nat) : Field := ⟨Reg.MTR_BAT_THRESH c, 0, 32⟩
def Reg.MTR_BAT_LAST (c : Nat) : Nat := 0x900820 + 0x4 * c
def F.MTR_BAT_LAST_value (c : Nat) : Field := ⟨Reg.MTR_BAT_LAST c, 0, 32⟩
def Reg.MTR_BAT_MAX (c : Nat) : Nat := 0x900830 + 0x4 * c
def F.MTR_BAT_MAX_value (c : Nat) : Field := ⟨Reg.MTR_BAT_MAX c, 0, 32⟩
def Reg.MTR_BAT_CHARGE (c : Nat) : Nat := 0x900840 + 0x4 * c
def F.MTR_BAT_CHARGE_value (c : Nat) : Field := ⟨Reg.MTR_BAT_CHARGE c, 0, 32⟩
def Reg.MTR_BAT_CNT : Nat := 0x900850
def F.MTR_BAT_CNT_skips : Field := ⟨Reg.MTR_BAT_CNT, 16, 16⟩
def F.MTR_BAT_CNT_theft_events : Field := ⟨Reg.MTR_BAT_CNT, 0, 16⟩
def Reg.MTR_BAT_BURSTS : Nat := 0x900854
def F.MTR_BAT_BURSTS_bursts : Field := ⟨Reg.MTR_BAT_BURSTS, 0, 32⟩

/-! Registers of spec/16_radio.md. -/

def Reg.RAD_CFG : Nat := 0xA00000
def F.RAD_CFG_key_slot : Field := ⟨Reg.RAD_CFG, 24, 8⟩
def F.RAD_CFG_pan_id : Field := ⟨Reg.RAD_CFG, 0, 16⟩
def Reg.RAD_CTRL : Nat := 0xA00004
def F.RAD_CTRL_mirror_en : Field := ⟨Reg.RAD_CTRL, 3, 1⟩
def F.RAD_CTRL_role : Field := ⟨Reg.RAD_CTRL, 1, 2⟩
def F.RAD_CTRL_enable : Field := ⟨Reg.RAD_CTRL, 0, 1⟩
def Reg.RAD_PHY_CFG : Nat := 0xA00008
def F.RAD_PHY_CFG_duty_pm : Field := ⟨Reg.RAD_PHY_CFG, 22, 10⟩
def F.RAD_PHY_CFG_tx_dbm : Field := ⟨Reg.RAD_PHY_CFG, 16, 6⟩
def F.RAD_PHY_CFG_channel : Field := ⟨Reg.RAD_PHY_CFG, 8, 8⟩
def F.RAD_PHY_CFG_rate : Field := ⟨Reg.RAD_PHY_CFG, 2, 2⟩
def F.RAD_PHY_CFG_band : Field := ⟨Reg.RAD_PHY_CFG, 0, 2⟩
def Reg.RAD_SCHED_CFG : Nat := 0xA0000C
def F.RAD_SCHED_CFG_coord_ppm : Field := ⟨Reg.RAD_SCHED_CFG, 24, 8⟩
def F.RAD_SCHED_CFG_lead_ticks : Field := ⟨Reg.RAD_SCHED_CFG, 12, 11⟩
def F.RAD_SCHED_CFG_slot_ticks : Field := ⟨Reg.RAD_SCHED_CFG, 0, 11⟩
def Reg.RAD_SCHED_CFG2 : Nat := 0xA00010
def F.RAD_SCHED_CFG2_m_lost : Field := ⟨Reg.RAD_SCHED_CFG2, 16, 8⟩
def F.RAD_SCHED_CFG2_n_slot : Field := ⟨Reg.RAD_SCHED_CFG2, 0, 13⟩
def Reg.RAD_GUARD : Nat := 0xA00014
def F.RAD_GUARD_g_min_us : Field := ⟨Reg.RAD_GUARD, 0, 16⟩
def Reg.RAD_EUI_LO : Nat := 0xA00018
def F.RAD_EUI_LO_eui : Field := ⟨Reg.RAD_EUI_LO, 0, 32⟩
def Reg.RAD_EUI_HI : Nat := 0xA0001C
def F.RAD_EUI_HI_eui : Field := ⟨Reg.RAD_EUI_HI, 0, 32⟩
def Reg.RAD_STATUS : Nat := 0xA00020
def F.RAD_STATUS_nodes : Field := ⟨Reg.RAD_STATUS, 16, 11⟩
def F.RAD_STATUS_tcxo_wait : Field := ⟨Reg.RAD_STATUS, 3, 1⟩
def F.RAD_STATUS_join_open : Field := ⟨Reg.RAD_STATUS, 2, 1⟩
def F.RAD_STATUS_acting : Field := ⟨Reg.RAD_STATUS, 0, 2⟩
def Reg.RAD_INT_STAT : Nat := 0xA00028
def F.RAD_INT_STAT_cfg_refused : Field := ⟨Reg.RAD_INT_STAT, 13, 1⟩
def F.RAD_INT_STAT_duty_skip : Field := ⟨Reg.RAD_INT_STAT, 12, 1⟩
def F.RAD_INT_STAT_role_change : Field := ⟨Reg.RAD_INT_STAT, 11, 1⟩
def F.RAD_INT_STAT_mirror_refused : Field := ⟨Reg.RAD_INT_STAT, 10, 1⟩
def F.RAD_INT_STAT_rekey : Field := ⟨Reg.RAD_INT_STAT, 9, 1⟩
def F.RAD_INT_STAT_dark_lost : Field := ⟨Reg.RAD_INT_STAT, 8, 1⟩
def F.RAD_INT_STAT_rpt_lost : Field := ⟨Reg.RAD_INT_STAT, 7, 1⟩
def F.RAD_INT_STAT_auth_fail : Field := ⟨Reg.RAD_INT_STAT, 6, 1⟩
def F.RAD_INT_STAT_replay : Field := ⟨Reg.RAD_INT_STAT, 5, 1⟩
def F.RAD_INT_STAT_node_lost : Field := ⟨Reg.RAD_INT_STAT, 4, 1⟩
def F.RAD_INT_STAT_node_missing : Field := ⟨Reg.RAD_INT_STAT, 3, 1⟩
def F.RAD_INT_STAT_join_refused : Field := ⟨Reg.RAD_INT_STAT, 2, 1⟩
def F.RAD_INT_STAT_joined : Field := ⟨Reg.RAD_INT_STAT, 1, 1⟩
def F.RAD_INT_STAT_reading : Field := ⟨Reg.RAD_INT_STAT, 0, 1⟩
def Reg.RAD_INT_EN : Nat := 0xA00030
def F.RAD_INT_EN_en : Field := ⟨Reg.RAD_INT_EN, 0, 14⟩
def Reg.RAD_JOIN : Nat := 0xA00034
def F.RAD_JOIN_open_cycles : Field := ⟨Reg.RAD_JOIN, 0, 16⟩
def Reg.RAD_WAKE_KINDS : Nat := 0xA00038
def F.RAD_WAKE_KINDS_kinds : Field := ⟨Reg.RAD_WAKE_KINDS, 0, 16⟩
def Reg.RAD_RPT_BASE_LO : Nat := 0xA00040
def F.RAD_RPT_BASE_LO_base_lo : Field := ⟨Reg.RAD_RPT_BASE_LO, 0, 32⟩
def Reg.RAD_RPT_BASE_HI : Nat := 0xA00044
def F.RAD_RPT_BASE_HI_base_hi : Field := ⟨Reg.RAD_RPT_BASE_HI, 0, 8⟩
def Reg.RAD_RPT_CFG : Nat := 0xA00048
def F.RAD_RPT_CFG_enable : Field := ⟨Reg.RAD_RPT_CFG, 31, 1⟩
def F.RAD_RPT_CFG_size_log2 : Field := ⟨Reg.RAD_RPT_CFG, 0, 5⟩
def Reg.RAD_RPT_HEAD : Nat := 0xA0004C
def F.RAD_RPT_HEAD_head : Field := ⟨Reg.RAD_RPT_HEAD, 0, 17⟩
def Reg.RAD_RPT_TAIL : Nat := 0xA00050
def F.RAD_RPT_TAIL_tail : Field := ⟨Reg.RAD_RPT_TAIL, 0, 17⟩
def Reg.RAD_MIRROR_BASE_LO : Nat := 0xA00060
def F.RAD_MIRROR_BASE_LO_base_lo : Field := ⟨Reg.RAD_MIRROR_BASE_LO, 0, 32⟩
def Reg.RAD_MIRROR_BASE_HI : Nat := 0xA00064
def F.RAD_MIRROR_BASE_HI_base_hi : Field := ⟨Reg.RAD_MIRROR_BASE_HI, 0, 8⟩
def Reg.RAD_MIRROR_INT : Nat := 0xA00068
def F.RAD_MIRROR_INT_ms : Field := ⟨Reg.RAD_MIRROR_INT, 0, 16⟩
def Reg.RAD_LUX : Nat := 0xA00070
def F.RAD_LUX_lux : Field := ⟨Reg.RAD_LUX, 0, 32⟩
def Reg.RAD_LUX_N : Nat := 0xA00074
def F.RAD_LUX_N_count : Field := ⟨Reg.RAD_LUX_N, 0, 11⟩
def Reg.RAD_AGG_CFG : Nat := 0xA00078
def F.RAD_AGG_CFG_max_age_s : Field := ⟨Reg.RAD_AGG_CFG, 0, 16⟩

/-! Registers of spec/17_cabinet_bus.md. -/

def Reg.CAB_CFG (n : Nat) : Nat := 0xB00000 + 0x80 * n
def F.CAB_CFG_rx_unmatched (n : Nat) : Field := ⟨Reg.CAB_CFG n, 4, 1⟩
def F.CAB_CFG_fd_en (n : Nat) : Field := ⟨Reg.CAB_CFG n, 3, 1⟩
def F.CAB_CFG_mode (n : Nat) : Field := ⟨Reg.CAB_CFG n, 1, 2⟩
def F.CAB_CFG_enable (n : Nat) : Field := ⟨Reg.CAB_CFG n, 0, 1⟩
def Reg.CAB_NBT (n : Nat) : Nat := 0xB00004 + 0x80 * n
def F.CAB_NBT_sjw (n : Nat) : Field := ⟨Reg.CAB_NBT n, 20, 7⟩
def F.CAB_NBT_tseg2 (n : Nat) : Field := ⟨Reg.CAB_NBT n, 13, 7⟩
def F.CAB_NBT_tseg1 (n : Nat) : Field := ⟨Reg.CAB_NBT n, 5, 8⟩
def F.CAB_NBT_brp (n : Nat) : Field := ⟨Reg.CAB_NBT n, 0, 5⟩
def Reg.CAB_DBT (n : Nat) : Nat := 0xB00008 + 0x80 * n
def F.CAB_DBT_tdc_offset (n : Nat) : Field := ⟨Reg.CAB_DBT n, 19, 7⟩
def F.CAB_DBT_tdc_en (n : Nat) : Field := ⟨Reg.CAB_DBT n, 18, 1⟩
def F.CAB_DBT_sjw (n : Nat) : Field := ⟨Reg.CAB_DBT n, 14, 4⟩
def F.CAB_DBT_tseg2 (n : Nat) : Field := ⟨Reg.CAB_DBT n, 10, 4⟩
def F.CAB_DBT_tseg1 (n : Nat) : Field := ⟨Reg.CAB_DBT n, 5, 5⟩
def F.CAB_DBT_brp (n : Nat) : Field := ⟨Reg.CAB_DBT n, 0, 5⟩
def Reg.CAB_STATUS (n : Nat) : Nat := 0xB0000C + 0x80 * n
def F.CAB_STATUS_rec (n : Nat) : Field := ⟨Reg.CAB_STATUS n, 16, 8⟩
def F.CAB_STATUS_tec (n : Nat) : Field := ⟨Reg.CAB_STATUS n, 8, 8⟩
def F.CAB_STATUS_lec (n : Nat) : Field := ⟨Reg.CAB_STATUS n, 4, 3⟩
def F.CAB_STATUS_warning (n : Nat) : Field := ⟨Reg.CAB_STATUS n, 3, 1⟩
def F.CAB_STATUS_state (n : Nat) : Field := ⟨Reg.CAB_STATUS n, 0, 3⟩
def Reg.CAB_CTRL (n : Nat) : Nat := 0xB00010 + 0x80 * n
def F.CAB_CTRL_wake (n : Nat) : Field := ⟨Reg.CAB_CTRL n, 2, 1⟩
def F.CAB_CTRL_sleep (n : Nat) : Field := ⟨Reg.CAB_CTRL n, 1, 1⟩
def F.CAB_CTRL_recover (n : Nat) : Field := ⟨Reg.CAB_CTRL n, 0, 1⟩
def Reg.CAB_WAKE (n : Nat) : Nat := 0xB00014 + 0x80 * n
def F.CAB_WAKE_en (n : Nat) : Field := ⟨Reg.CAB_WAKE n, 0, 1⟩
def F.CAB_WAKE_mode (n : Nat) : Field := ⟨Reg.CAB_WAKE n, 1, 1⟩
def F.CAB_WAKE_ext (n : Nat) : Field := ⟨Reg.CAB_WAKE n, 2, 1⟩
def F.CAB_WAKE_wuf_rate (n : Nat) : Field := ⟨Reg.CAB_WAKE n, 3, 2⟩
def F.CAB_WAKE_data_mask (n : Nat) : Field := ⟨Reg.CAB_WAKE n, 5, 8⟩
def F.CAB_WAKE_dlc (n : Nat) : Field := ⟨Reg.CAB_WAKE n, 13, 4⟩
def Reg.CAB_WAKE_ID (n : Nat) : Nat := 0xB00018 + 0x80 * n
def F.CAB_WAKE_ID_id (n : Nat) : Field := ⟨Reg.CAB_WAKE_ID n, 0, 29⟩
def Reg.CAB_WAKE_IDM (n : Nat) : Nat := 0xB0001C + 0x80 * n
def F.CAB_WAKE_IDM_id (n : Nat) : Field := ⟨Reg.CAB_WAKE_IDM n, 0, 29⟩
def Reg.CAB_WAKE_DATA_LO (n : Nat) : Nat := 0xB00020 + 0x80 * n
def F.CAB_WAKE_DATA_LO_data (n : Nat) : Field := ⟨Reg.CAB_WAKE_DATA_LO n, 0, 32⟩
def Reg.CAB_WAKE_DATA_HI (n : Nat) : Nat := 0xB00024 + 0x80 * n
def F.CAB_WAKE_DATA_HI_data (n : Nat) : Field := ⟨Reg.CAB_WAKE_DATA_HI n, 0, 32⟩
def Reg.CAB_INT_STAT : Nat := 0xB00200
def F.CAB_INT_STAT_ch1 : Field := ⟨Reg.CAB_INT_STAT, 8, 8⟩
def F.CAB_INT_STAT_ch0 : Field := ⟨Reg.CAB_INT_STAT, 0, 8⟩
def Reg.CAB_INT_EN : Nat := 0xB00208
def F.CAB_INT_EN_en : Field := ⟨Reg.CAB_INT_EN, 0, 16⟩
def Reg.CAB_RPT_BASE_LO : Nat := 0xB00210
def F.CAB_RPT_BASE_LO_base_lo : Field := ⟨Reg.CAB_RPT_BASE_LO, 0, 32⟩
def Reg.CAB_RPT_BASE_HI : Nat := 0xB00214
def F.CAB_RPT_BASE_HI_base_hi : Field := ⟨Reg.CAB_RPT_BASE_HI, 0, 8⟩
def Reg.CAB_RPT_CFG : Nat := 0xB00218
def F.CAB_RPT_CFG_enable : Field := ⟨Reg.CAB_RPT_CFG, 31, 1⟩
def F.CAB_RPT_CFG_size_log2 : Field := ⟨Reg.CAB_RPT_CFG, 0, 5⟩
def Reg.CAB_RPT_HEAD : Nat := 0xB0021C
def F.CAB_RPT_HEAD_head : Field := ⟨Reg.CAB_RPT_HEAD, 0, 17⟩
def Reg.CAB_RPT_TAIL : Nat := 0xB00220
def F.CAB_RPT_TAIL_tail : Field := ⟨Reg.CAB_RPT_TAIL, 0, 17⟩

/-! Registers of spec/18_keystore.md. -/

def Reg.KEY_STATUS : Nat := 0xC00000
def F.KEY_STATUS_slots_used : Field := ⟨Reg.KEY_STATUS, 4, 9⟩
def F.KEY_STATUS_root_loaded : Field := ⟨Reg.KEY_STATUS, 3, 1⟩
def F.KEY_STATUS_busy : Field := ⟨Reg.KEY_STATUS, 2, 1⟩
def F.KEY_STATUS_rng_ok : Field := ⟨Reg.KEY_STATUS, 1, 1⟩
def Reg.KEY_CFG : Nat := 0xC00004
def F.KEY_CFG_lock : Field := ⟨Reg.KEY_CFG, 31, 1⟩
def F.KEY_CFG_remask_s : Field := ⟨Reg.KEY_CFG, 0, 16⟩
def Reg.KEY_INT_STAT : Nat := 0xC00008
def F.KEY_INT_STAT_db_locked : Field := ⟨Reg.KEY_INT_STAT, 4, 1⟩
def F.KEY_INT_STAT_storage_error : Field := ⟨Reg.KEY_INT_STAT, 3, 1⟩
def F.KEY_INT_STAT_rng_fail : Field := ⟨Reg.KEY_INT_STAT, 2, 1⟩
def F.KEY_INT_STAT_commit : Field := ⟨Reg.KEY_INT_STAT, 1, 1⟩
def F.KEY_INT_STAT_refused : Field := ⟨Reg.KEY_INT_STAT, 0, 1⟩
def Reg.KEY_INT_EN : Nat := 0xC00010
def F.KEY_INT_EN_en : Field := ⟨Reg.KEY_INT_EN, 0, 5⟩
def Reg.KEY_FENCE : Nat := 0xC00014
def F.KEY_FENCE_drained : Field := ⟨Reg.KEY_FENCE, 31, 1⟩
def F.KEY_FENCE_gen : Field := ⟨Reg.KEY_FENCE, 0, 16⟩
def Reg.KEY_LAST_REFUSED : Nat := 0xC00018
def F.KEY_LAST_REFUSED_reason : Field := ⟨Reg.KEY_LAST_REFUSED, 16, 4⟩
def F.KEY_LAST_REFUSED_slot : Field := ⟨Reg.KEY_LAST_REFUSED, 8, 8⟩
def F.KEY_LAST_REFUSED_requester : Field := ⟨Reg.KEY_LAST_REFUSED, 0, 4⟩

/-! Registers of spec/19_update.md. -/

def Reg.UPD_STATUS : Nat := 0xD00000
def F.UPD_STATUS_busy : Field := ⟨Reg.UPD_STATUS, 18, 1⟩
def F.UPD_STATUS_trial_count : Field := ⟨Reg.UPD_STATUS, 16, 2⟩
def F.UPD_STATUS_pending : Field := ⟨Reg.UPD_STATUS, 15, 1⟩
def F.UPD_STATUS_trial : Field := ⟨Reg.UPD_STATUS, 14, 1⟩
def F.UPD_STATUS_running : Field := ⟨Reg.UPD_STATUS, 13, 1⟩
def F.UPD_STATUS_stage_state : Field := ⟨Reg.UPD_STATUS, 8, 3⟩
def F.UPD_STATUS_slot1_state : Field := ⟨Reg.UPD_STATUS, 4, 3⟩
def F.UPD_STATUS_slot0_state : Field := ⟨Reg.UPD_STATUS, 0, 3⟩
def Reg.UPD_CFG : Nat := 0xD00004
def F.UPD_CFG_owner_slot : Field := ⟨Reg.UPD_CFG, 0, 8⟩
def Reg.UPD_INT_STAT : Nat := 0xD00008
def F.UPD_INT_STAT_copy_failed : Field := ⟨Reg.UPD_INT_STAT, 4, 1⟩
def F.UPD_INT_STAT_window_warn : Field := ⟨Reg.UPD_INT_STAT, 3, 1⟩
def F.UPD_INT_STAT_check_failed : Field := ⟨Reg.UPD_INT_STAT, 2, 1⟩
def F.UPD_INT_STAT_fell_back : Field := ⟨Reg.UPD_INT_STAT, 1, 1⟩
def F.UPD_INT_STAT_trial_started : Field := ⟨Reg.UPD_INT_STAT, 0, 1⟩
def Reg.UPD_INT_EN : Nat := 0xD00010
def F.UPD_INT_EN_en : Field := ⟨Reg.UPD_INT_EN, 0, 5⟩
def Reg.UPD_WINDOW_LEFT : Nat := 0xD00014
def F.UPD_WINDOW_LEFT_seconds : Field := ⟨Reg.UPD_WINDOW_LEFT, 0, 17⟩
def Reg.UPD_FLOOR : Nat := 0xD00018
def F.UPD_FLOOR_floor : Field := ⟨Reg.UPD_FLOOR, 0, 32⟩
def Reg.UPD_SETTINGS : Nat := 0xD0001C
def F.UPD_SETTINGS_other_fmt : Field := ⟨Reg.UPD_SETTINGS, 17, 15⟩
def F.UPD_SETTINGS_own_half : Field := ⟨Reg.UPD_SETTINGS, 16, 1⟩
def F.UPD_SETTINGS_own_fmt : Field := ⟨Reg.UPD_SETTINGS, 1, 15⟩
def F.UPD_SETTINGS_other_valid : Field := ⟨Reg.UPD_SETTINGS, 0, 1⟩
def Reg.UPD_SLOT_VER (s : Nat) : Nat := 0xD00020 + 0x8 * s
def F.UPD_SLOT_VER_value (s : Nat) : Field := ⟨Reg.UPD_SLOT_VER s, 0, 32⟩
def Reg.UPD_SLOT_SEC (s : Nat) : Nat := 0xD00024 + 0x8 * s
def F.UPD_SLOT_SEC_value (s : Nat) : Field := ⟨Reg.UPD_SLOT_SEC s, 0, 32⟩
def Reg.UPD_RUN_IFV (p : Nat) : Nat := 0xD00040 + 0x4 * p
def F.UPD_RUN_IFV_swapped (p : Nat) : Field := ⟨Reg.UPD_RUN_IFV p, 16, 1⟩
def F.UPD_RUN_IFV_ifv (p : Nat) : Field := ⟨Reg.UPD_RUN_IFV p, 0, 16⟩

/-! Registers of spec/20_recorder.md. -/

def Reg.REC_CFG : Nat := 0xE00000
def F.REC_CFG_clear_slot : Field := ⟨Reg.REC_CFG, 24, 8⟩
def F.REC_CFG_seal_slot : Field := ⟨Reg.REC_CFG, 16, 8⟩
def F.REC_CFG_flush_min : Field := ⟨Reg.REC_CFG, 0, 6⟩
def Reg.REC_STATUS : Nat := 0xE00004
def F.REC_STATUS_audit_count : Field := ⟨Reg.REC_STATUS, 16, 6⟩
def F.REC_STATUS_detail_count : Field := ⟨Reg.REC_STATUS, 8, 6⟩
def F.REC_STATUS_audit_wait : Field := ⟨Reg.REC_STATUS, 6, 1⟩
def F.REC_STATUS_image_lost : Field := ⟨Reg.REC_STATUS, 5, 1⟩
def F.REC_STATUS_seal_bad : Field := ⟨Reg.REC_STATUS, 4, 1⟩
def F.REC_STATUS_bank : Field := ⟨Reg.REC_STATUS, 3, 1⟩
def F.REC_STATUS_pf_flush : Field := ⟨Reg.REC_STATUS, 2, 1⟩
def F.REC_STATUS_flushing : Field := ⟨Reg.REC_STATUS, 1, 1⟩
def F.REC_STATUS_loaded : Field := ⟨Reg.REC_STATUS, 0, 1⟩
def Reg.REC_INT_STAT : Nat := 0xE00008
def F.REC_INT_STAT_clear_refused : Field := ⟨Reg.REC_INT_STAT, 7, 1⟩
def F.REC_INT_STAT_clear_done : Field := ⟨Reg.REC_INT_STAT, 6, 1⟩
def F.REC_INT_STAT_image_lost : Field := ⟨Reg.REC_INT_STAT, 5, 1⟩
def F.REC_INT_STAT_seal_bad : Field := ⟨Reg.REC_INT_STAT, 4, 1⟩
def F.REC_INT_STAT_seal_refused : Field := ⟨Reg.REC_INT_STAT, 3, 1⟩
def F.REC_INT_STAT_audit_wait : Field := ⟨Reg.REC_INT_STAT, 2, 1⟩
def F.REC_INT_STAT_detail_lost : Field := ⟨Reg.REC_INT_STAT, 1, 1⟩
def F.REC_INT_STAT_flush_done : Field := ⟨Reg.REC_INT_STAT, 0, 1⟩
def Reg.REC_INT_EN : Nat := 0xE00010
def F.REC_INT_EN_en : Field := ⟨Reg.REC_INT_EN, 0, 8⟩
def Reg.REC_SEQ_LO : Nat := 0xE00018
def F.REC_SEQ_LO_seq : Field := ⟨Reg.REC_SEQ_LO, 0, 32⟩
def Reg.REC_SEQ_HI : Nat := 0xE0001C
def F.REC_SEQ_HI_seq : Field := ⟨Reg.REC_SEQ_HI, 0, 32⟩
def Reg.REC_CLEAR_SEQ : Nat := 0xE00020
def F.REC_CLEAR_SEQ_seq : Field := ⟨Reg.REC_CLEAR_SEQ, 0, 32⟩
def Reg.PMC_CTRL : Nat := 0xE08000
def F.PMC_CTRL_zero : Field := ⟨Reg.PMC_CTRL, 1, 1⟩
def F.PMC_CTRL_run : Field := ⟨Reg.PMC_CTRL, 0, 1⟩
def Reg.PMC_OVF_LO : Nat := 0xE08008
def F.PMC_OVF_LO_ovf : Field := ⟨Reg.PMC_OVF_LO, 0, 32⟩
def Reg.PMC_OVF_HI : Nat := 0xE08010
def F.PMC_OVF_HI_ovf : Field := ⟨Reg.PMC_OVF_HI, 0, 32⟩
def Reg.PMC_INT_EN : Nat := 0xE08018
def F.PMC_INT_EN_ovf : Field := ⟨Reg.PMC_INT_EN, 0, 1⟩
def Reg.PMC_SEL (i : Nat) : Nat := 0xE08100 + 0x4 * i
def F.PMC_SEL_en (i : Nat) : Field := ⟨Reg.PMC_SEL i, 31, 1⟩
def F.PMC_SEL_source (i : Nat) : Field := ⟨Reg.PMC_SEL i, 24, 5⟩
def F.PMC_SEL_event (i : Nat) : Field := ⟨Reg.PMC_SEL i, 16, 7⟩
def F.PMC_SEL_qualifier (i : Nat) : Field := ⟨Reg.PMC_SEL i, 0, 16⟩

/-! Registers of spec/21_connectors_electrical.md. -/

def Reg.NET_CAGE (p : Nat) : Nat := 0x500200 + 0x4 * p
def F.NET_CAGE_int (p : Nat) : Field := ⟨Reg.NET_CAGE p, 7, 1⟩
def F.NET_CAGE_present (p : Nat) : Field := ⟨Reg.NET_CAGE p, 6, 1⟩
def F.NET_CAGE_power_fault (p : Nat) : Field := ⟨Reg.NET_CAGE p, 5, 1⟩
def F.NET_CAGE_lpmode (p : Nat) : Field := ⟨Reg.NET_CAGE p, 2, 1⟩
def F.NET_CAGE_reset (p : Nat) : Field := ⟨Reg.NET_CAGE p, 1, 1⟩
def F.NET_CAGE_power (p : Nat) : Field := ⟨Reg.NET_CAGE p, 0, 1⟩
def Reg.NET_CAGE_MGMT (p : Nat) : Nat := 0x500210 + 0x4 * p
def F.NET_CAGE_MGMT_go (p : Nat) : Field := ⟨Reg.NET_CAGE_MGMT p, 31, 1⟩
def F.NET_CAGE_MGMT_write (p : Nat) : Field := ⟨Reg.NET_CAGE_MGMT p, 30, 1⟩
def F.NET_CAGE_MGMT_nack (p : Nat) : Field := ⟨Reg.NET_CAGE_MGMT p, 29, 1⟩
def F.NET_CAGE_MGMT_address (p : Nat) : Field := ⟨Reg.NET_CAGE_MGMT p, 16, 8⟩
def F.NET_CAGE_MGMT_data (p : Nat) : Field := ⟨Reg.NET_CAGE_MGMT p, 8, 8⟩

/-! The register tables as rows: address, strides, companion, and the rw, wc, ws and wo masks, the reset value, and the mask of the fields whose Reset entry is cfg. -/

def Reg.rows_hrt_0 : List RegDesc := [
  ⟨0x0, [], none, 0x0, 0x0, 0x0, 0x0, 0x0, 0x0⟩,
  ⟨0x8, [], some 0xC, 0x0, 0xFF, 0x0, 0x0, 0x0, 0x0⟩,
  ⟨0x10, [], none, 0xFF, 0x0, 0x0, 0x0, 0x0, 0x0⟩,
  ⟨0x14, [], none, 0x0, 0x0, 0x0, 0x0, 0x0, 0x0⟩,
  ⟨0x20, [], none, 0x0, 0x0, 0xFFFFFFFF, 0x0, 0x0, 0x0⟩,
  ⟨0x24, [], some 0x28, 0x0, 0xFFFFFFFF, 0x0, 0x0, 0x0, 0x0⟩,
  ⟨0x100, [(16, 5)], none, 0x0, 0x0, 0x0, 0x0, 0x100, 0x0⟩,
  ⟨0x104, [(16, 5)], none, 0x0, 0x0, 0x0, 0xFFFFFFFF, 0x0, 0x0⟩,
  ⟨0x108, [(16, 5)], none, 0xF, 0x0, 0x0, 0x0, 0x0, 0x0⟩,
  ⟨0x400, [(4, 256)], none, 0xC00000F7, 0x0, 0x0, 0x0, 0x0, 0x0⟩,
  ⟨0x800, [(4, 8)], none, 0x0, 0x0, 0x0, 0x0, 0x0, 0x0⟩,
  ⟨0x820, [(4, 8)], none, 0x0, 0x0, 0x0, 0x0, 0x0, 0x0⟩,
  ⟨0x1000, [(64, 256)], none, 0xFFFFFFFF, 0x0, 0x0, 0x0, 0x0, 0x0⟩,
  ⟨0x1004, [(64, 256)], none, 0xFF, 0x0, 0x0, 0x0, 0x0, 0x0⟩,
  ⟨0x1008, [(64, 256)], none, 0xFFFFFFFF, 0x0, 0x0, 0x0, 0x0, 0x0⟩,
  ⟨0x100C, [(64, 256)], none, 0xFF, 0x0, 0x0, 0x0, 0x0, 0x0⟩,
  ⟨0x1010, [(64, 256)], none, 0x807F001F, 0x0, 0x0, 0x0, 0x4, 0x0⟩,
  ⟨0x1014, [(64, 256)], none, 0x0, 0x0, 0x0, 0x0, 0x0, 0x0⟩,
  ⟨0x1018, [(64, 256)], none, 0x0, 0x0, 0x0, 0x0, 0x0, 0x0⟩,
  ⟨0x101C, [(64, 256)], none, 0x0, 0x0, 0x0, 0x0, 0x0, 0x0⟩,
  ⟨0x1020, [(64, 256)], none, 0x1FFFF, 0x0, 0x0, 0x0, 0x0, 0x0⟩,
  ⟨0x1024, [(64, 256)], none, 0x3FFFF, 0x0, 0x0, 0x0, 0x1, 0x0⟩,
  ⟨0x6000, [(64, 16)], none, 0x80000077, 0x0, 0x0, 0x0, 0x0, 0x0⟩,
  ⟨0x6004, [(64, 16)], none, 0x0, 0x0, 0x0, 0x0, 0x0, 0x0⟩]

def Reg.rows_hrt_1 : List RegDesc := [
  ⟨0x6008, [(64, 16)], none, 0x0, 0x0, 0x0, 0xFFFFFFFF, 0x0, 0x0⟩,
  ⟨0x600C, [(64, 16)], none, 0x0, 0x0, 0x0, 0xFFFFFFFF, 0x0, 0x0⟩,
  ⟨0x6010, [(64, 16)], none, 0x0, 0x0, 0x0, 0x0, 0x0, 0x0⟩,
  ⟨0x6014, [(64, 16)], none, 0x0, 0x0, 0x0, 0x0, 0x0, 0x0⟩,
  ⟨0x6018, [(64, 16)], none, 0x0, 0x0, 0x0, 0xFFFFFFFF, 0x0, 0x0⟩,
  ⟨0x601C, [(64, 16)], none, 0x3FF03FF, 0x0, 0x0, 0x0, 0x10001, 0x0⟩]

def Reg.rows_hrt : List RegDesc := Reg.rows_hrt_0 ++ Reg.rows_hrt_1

def Reg.rows_mem_0 : List RegDesc := [
  ⟨0x100000, [], some 0x100004, 0x0, 0x7, 0x0, 0x0, 0x0, 0x0⟩,
  ⟨0x100008, [], none, 0x7, 0x0, 0x0, 0x0, 0x0, 0x0⟩,
  ⟨0x100010, [], none, 0x0, 0x0, 0x0, 0x0, 0x0, 0x0⟩,
  ⟨0x100014, [], none, 0x0, 0x0, 0x0, 0x0, 0x0, 0x0⟩,
  ⟨0x100018, [], some 0x10001C, 0x0, 0x80000000, 0x0, 0x0, 0x0, 0x0⟩,
  ⟨0x100020, [], none, 0x800FFFFF, 0x0, 0x0, 0x0, 0x80000E10, 0x0⟩,
  ⟨0x100024, [], none, 0x800FFFFF, 0x0, 0x0, 0x0, 0x8000000A, 0x0⟩,
  ⟨0x100028, [], none, 0x800FFFFF, 0x0, 0x0, 0x0, 0x80015180, 0x0⟩,
  ⟨0x100040, [], none, 0xFFFFFFFF, 0x0, 0x0, 0x0, 0x0, 0x0⟩,
  ⟨0x100044, [], none, 0xFF, 0x0, 0x0, 0x0, 0x0, 0x0⟩,
  ⟨0x100048, [], none, 0xFFFFFFFF, 0x0, 0x0, 0x0, 0x0, 0x0⟩,
  ⟨0x10004C, [], none, 0xFFFFFFFF, 0x0, 0x0, 0x0, 0x0, 0x0⟩,
  ⟨0x100050, [], none, 0x1FF, 0x0, 0x0, 0x0, 0x0, 0x0⟩,
  ⟨0x100058, [], none, 0x0, 0x0, 0x0, 0x0, 0x0, 0x0⟩,
  ⟨0x100060, [], none, 0x0, 0x0, 0x0, 0x0, 0x0, 0x0⟩,
  ⟨0x108000, [], none, 0x0, 0x0, 0x1, 0x0, 0x0, 0x0⟩,
  ⟨0x108004, [], none, 0x0, 0x0, 0x1, 0x0, 0x0, 0x0⟩,
  ⟨0x108008, [], none, 0x0, 0x0, 0x0, 0x0, 0x80000000, 0x0⟩,
  ⟨0x108010, [], some 0x108014, 0x0, 0x3, 0x0, 0x0, 0x0, 0x0⟩,
  ⟨0x108018, [], none, 0x3, 0x0, 0x0, 0x0, 0x0, 0x0⟩,
  ⟨0x108020, [], none, 0x0, 0x0, 0x0, 0x0, 0x0, 0x0⟩,
  ⟨0x108024, [], none, 0x0, 0x0, 0x0, 0x0, 0x0, 0x0⟩,
  ⟨0x108028, [], none, 0x0, 0x0, 0x0, 0x0, 0x0, 0x0⟩,
  ⟨0x108030, [], none, 0xFFFFFFFF, 0x0, 0x0, 0x0, 0xFFFFFF, 0xFFFFFFFF⟩]

def Reg.rows_mem_1 : List RegDesc := [
  ⟨0x108034, [], none, 0xFFFFFFFF, 0x0, 0x0, 0x0, 0xFFFFFF, 0xFFFFFFFF⟩,
  ⟨0x108038, [], none, 0x0, 0x0, 0x0, 0x0, 0xFFFFFF, 0xFFFFFFFF⟩,
  ⟨0x10803C, [], none, 0x0, 0x0, 0x0, 0x0, 0xFFFFFF, 0xFFFFFFFF⟩,
  ⟨0x108400, [(16, 64), (4, 4)], none, 0xFFFFFFFF, 0x0, 0x0, 0x0, 0x0, 0xFFFFFFFF⟩,
  ⟨0x108800, [(16, 64), (4, 4)], none, 0x0, 0x0, 0x0, 0x0, 0x0, 0xFFFFFFFF⟩]

def Reg.rows_mem : List RegDesc := Reg.rows_mem_0 ++ Reg.rows_mem_1

def Reg.rows_blw : List RegDesc := [
  ⟨0x200000, [], none, 0x0, 0x0, 0x0, 0x0, 0x11, 0x0⟩,
  ⟨0x200004, [], none, 0x0, 0x0, 0x0, 0xFFFFFFFF, 0x0, 0x0⟩,
  ⟨0x200008, [], none, 0x0, 0x0, 0x0, 0x0, 0x3, 0x0⟩,
  ⟨0x20000C, [], none, 0xF7, 0x0, 0x0, 0x0, 0x0, 0xF7⟩,
  ⟨0x200010, [], some 0x200014, 0x0, 0x3FF, 0x0, 0x0, 0x0, 0x0⟩,
  ⟨0x200018, [], none, 0x3FF, 0x0, 0x0, 0x0, 0x0, 0x0⟩,
  ⟨0x200020, [], some 0x200024, 0x0, 0x3FFFFFFF, 0x0, 0x0, 0x0, 0x0⟩,
  ⟨0x200030, [], none, 0x3FF, 0x0, 0x0, 0x0, 0xE1, 0x3FF⟩,
  ⟨0x200034, [], some 0x200038, 0x0, 0x800003FF, 0x0, 0x0, 0x0, 0x0⟩,
  ⟨0x200040, [], none, 0x0, 0x0, 0x0, 0x0, 0x0, 0x0⟩,
  ⟨0x200044, [], none, 0x0, 0x0, 0x0, 0x0, 0x0, 0x0⟩,
  ⟨0x200048, [], none, 0xFFF0FFF, 0x0, 0x0, 0x0, 0x3E80A28, 0x0⟩,
  ⟨0x200050, [], none, 0x0, 0x0, 0x0, 0x0, 0x8000, 0x0⟩,
  ⟨0x200054, [], none, 0x1FFFF, 0x0, 0x0, 0x0, 0x15A69, 0x10000⟩,
  ⟨0x200100, [(8, 16)], none, 0x0, 0x0, 0x0, 0x0, 0x0, 0x0⟩,
  ⟨0x200104, [(8, 16)], none, 0x0, 0x0, 0x0, 0x0, 0x0, 0x0⟩,
  ⟨0x200058, [], some 0x20005C, 0x2, 0x4, 0x0, 0x0, 0x0, 0x0⟩]

def Reg.rows_boot : List RegDesc := [
  ⟨0x300000, [], none, 0x0, 0x0, 0x0, 0x0, 0x0, 0x0⟩,
  ⟨0x300004, [], none, 0x0, 0x0, 0x0, 0x0, 0x1, 0x0⟩,
  ⟨0x300008, [], none, 0x0, 0x0, 0x0, 0x0, 0x0, 0x0⟩,
  ⟨0x30000C, [], none, 0x0, 0x0, 0x0, 0x0, 0x0, 0xFFFFFFFF⟩,
  ⟨0x300010, [], none, 0x0, 0x0, 0x0, 0x0, 0x0, 0xFF⟩,
  ⟨0x300014, [], none, 0x0, 0x0, 0x0, 0x0, 0x0, 0x0⟩,
  ⟨0x300018, [], some 0x30001C, 0x0, 0xF, 0x0, 0x0, 0x0, 0x0⟩,
  ⟨0x300020, [], none, 0xF, 0x0, 0x0, 0x0, 0x0, 0x0⟩,
  ⟨0x300024, [], none, 0x0, 0x0, 0x0, 0xFFFFFFFF, 0x0, 0x0⟩,
  ⟨0x300028, [], none, 0x0, 0x0, 0x0, 0x0, 0x0, 0x0⟩,
  ⟨0x301000, [(4, 1024)], none, 0x0, 0x0, 0x0, 0x0, 0x0, 0x0⟩]

def Reg.rows_tmk_0 : List RegDesc := [
  ⟨0x400000, [], none, 0x1F, 0x0, 0x0, 0x0, 0x0, 0xC⟩,
  ⟨0x400004, [], none, 0x0, 0x0, 0x0, 0x0, 0x0, 0x0⟩,
  ⟨0x400008, [], some 0x40000C, 0x0, 0x1FF, 0x0, 0x0, 0x0, 0x0⟩,
  ⟨0x400010, [], none, 0x1FF, 0x0, 0x0, 0x0, 0x0, 0x0⟩,
  ⟨0x400030, [], none, 0x0, 0x0, 0x0, 0x0, 0x0, 0x0⟩,
  ⟨0x400040, [], none, 0xFF0F1FFF, 0x0, 0x0, 0x0, 0x80030000, 0xFF000FFF⟩,
  ⟨0x400080, [], none, 0xFFFFF3F, 0x0, 0x0, 0x0, 0x10D0001, 0xE00FF33⟩,
  ⟨0x400084, [], none, 0xFFFFF3F, 0x0, 0x0, 0x0, 0x10D0001, 0xE00FF33⟩,
  ⟨0x400088, [], none, 0xFFFFF3B, 0x0, 0x0, 0x0, 0x10D0001, 0xE00FF33⟩,
  ⟨0x400100, [], none, 0xFFFFFFFF, 0x0, 0x0, 0x0, 0x0, 0x0⟩,
  ⟨0x400110, [], none, 0xFFFFFFFF, 0x0, 0x0, 0x0, 0x0, 0x0⟩,
  ⟨0x400120, [], none, 0xFFFFFFFF, 0x0, 0x0, 0x0, 0x0, 0x0⟩,
  ⟨0x400104, [], none, 0xFFFFFFFF, 0x0, 0x0, 0x0, 0x0, 0x0⟩,
  ⟨0x400114, [], none, 0xFFFFFFFF, 0x0, 0x0, 0x0, 0x0, 0x0⟩,
  ⟨0x400124, [], none, 0xFFFFFFFF, 0x0, 0x0, 0x0, 0x0, 0x0⟩,
  ⟨0x400108, [], none, 0xFFFFFFFF, 0x0, 0x0, 0x0, 0x0, 0x0⟩,
  ⟨0x400118, [], none, 0xFFFFFFFF, 0x0, 0x0, 0x0, 0x0, 0x0⟩,
  ⟨0x400128, [], none, 0xFFFFFFFF, 0x0, 0x0, 0x0, 0x0, 0x0⟩,
  ⟨0x400140, [], none, 0x3FFFFF, 0x0, 0x0, 0x0, 0x282710, 0x0⟩,
  ⟨0x400150, [], none, 0xFFFF, 0x0, 0x0, 0x0, 0xFA1, 0x0⟩,
  ⟨0x400154, [], none, 0x0, 0x0, 0x0, 0x0, 0x0, 0x0⟩,
  ⟨0x400158, [], none, 0x0, 0x0, 0x0, 0x0, 0x0, 0x0⟩,
  ⟨0x400190, [], none, 0x0, 0x0, 0x0, 0xFFFFFFFF, 0x0, 0x0⟩,
  ⟨0x400194, [], some 0x400198, 0x0, 0x80, 0x0, 0x0, 0x0, 0x0⟩]

def Reg.rows_tmk_1 : List RegDesc := [
  ⟨0x40019C, [], none, 0x0, 0x0, 0x0, 0x0, 0x0, 0x0⟩,
  ⟨0x4001A0, [], none, 0x0, 0x0, 0x0, 0x0, 0x0, 0x0⟩,
  ⟨0x400200, [], none, 0x0, 0x0, 0x0, 0x0, 0x0, 0x0⟩,
  ⟨0x400208, [], some 0x40020C, 0x0, 0xFF, 0x0, 0x0, 0x0, 0x0⟩,
  ⟨0x400210, [], none, 0xFF, 0x0, 0x0, 0x0, 0x0, 0x0⟩,
  ⟨0x400214, [], none, 0x0, 0x0, 0x0, 0x0, 0x0, 0x0⟩,
  ⟨0x480014, [], none, 0xFFFF, 0x0, 0x0, 0x0, 0x0, 0x0⟩,
  ⟨0x480018, [], none, 0xFFFFFFFF, 0x0, 0x0, 0x0, 0x0, 0x0⟩,
  ⟨0x48001C, [], none, 0x3FFFF, 0x0, 0x0, 0x0, 0x0, 0x0⟩,
  ⟨0x480020, [], none, 0xFFFFFFFF, 0x0, 0x0, 0x0, 0x0, 0x0⟩,
  ⟨0x480024, [], none, 0xFFFF, 0x0, 0x80000000, 0x0, 0x0, 0x0⟩,
  ⟨0x480028, [], none, 0xFFFF, 0x0, 0x0, 0x0, 0x0, 0x0⟩,
  ⟨0x480030, [(16, 2)], none, 0x7FFF, 0x0, 0x0, 0x0, 0x0, 0x0⟩,
  ⟨0x480034, [(16, 2)], none, 0xFFFFFFFF, 0x0, 0x0, 0x0, 0x0, 0x0⟩,
  ⟨0x480038, [(16, 2)], none, 0x3FFFF, 0x0, 0x0, 0x0, 0x0, 0x0⟩,
  ⟨0x480050, [], none, 0x1, 0x0, 0x0, 0x0, 0x1, 0x0⟩,
  ⟨0x480054, [], none, 0x0, 0x0, 0x0, 0x0, 0x0, 0x0⟩,
  ⟨0x480058, [], some 0x48005C, 0x0, 0xFF, 0x0, 0x0, 0x0, 0x0⟩,
  ⟨0x480060, [], none, 0xFF, 0x0, 0x0, 0x0, 0x0, 0x0⟩,
  ⟨0x480064, [], none, 0x0, 0x0, 0x0, 0x0, 0x0, 0x0⟩]

def Reg.rows_tmk : List RegDesc := Reg.rows_tmk_0 ++ Reg.rows_tmk_1

def Reg.rows_net_0 : List RegDesc := [
  ⟨0x500000, [], none, 0xFF, 0x0, 0x0, 0x0, 0x8, 0x42⟩,
  ⟨0x500004, [], none, 0xFF, 0x0, 0x0, 0x0, 0x8, 0x42⟩,
  ⟨0x500008, [], none, 0xFF, 0x0, 0x0, 0x0, 0x8, 0x42⟩,
  ⟨0x500010, [], none, 0xFFFFFFFF, 0x0, 0x0, 0x0, 0x0, 0x0⟩,
  ⟨0x500018, [], none, 0xFFFFFFFF, 0x0, 0x0, 0x0, 0x0, 0x0⟩,
  ⟨0x500020, [], none, 0xFFFFFFFF, 0x0, 0x0, 0x0, 0x0, 0x0⟩,
  ⟨0x500014, [], none, 0xFFFF, 0x0, 0x0, 0x0, 0x0, 0x0⟩,
  ⟨0x50001C, [], none, 0xFFFF, 0x0, 0x0, 0x0, 0x0, 0x0⟩,
  ⟨0x500024, [], none, 0xFFFF, 0x0, 0x0, 0x0, 0x0, 0x0⟩,
  ⟨0x500030, [], none, 0x0, 0x0, 0x0, 0x0, 0x0, 0x0⟩,
  ⟨0x500040, [], some 0x500044, 0x0, 0x1F7, 0x0, 0x0, 0x0, 0x0⟩,
  ⟨0x500048, [], none, 0x1FF, 0x0, 0x0, 0x0, 0x0, 0x0⟩,
  ⟨0x500060, [], some 0x500064, 0x0, 0xFFFFFFFF, 0x0, 0x0, 0x0, 0x0⟩,
  ⟨0x500068, [], some 0x50006C, 0x0, 0xFFFFFFFF, 0x0, 0x0, 0x0, 0x0⟩,
  ⟨0x500070, [], some 0x500074, 0x0, 0xFFFFFFFF, 0x0, 0x0, 0x0, 0x0⟩,
  ⟨0x500078, [], some 0x50007C, 0x0, 0xFFFFFFFF, 0x0, 0x0, 0x0, 0x0⟩,
  ⟨0x500080, [], none, 0x1F, 0x0, 0x0, 0x0, 0x2, 0x0⟩,
  ⟨0x500100, [], none, 0xFFFFFFFF, 0x0, 0x0, 0x0, 0x0, 0x0⟩,
  ⟨0x500104, [], none, 0xFFFFFFFF, 0x0, 0x0, 0x0, 0x0, 0x0⟩,
  ⟨0x500108, [], none, 0xFFFFFFFF, 0x0, 0x0, 0x0, 0xC0000000, 0x0⟩,
  ⟨0x50010C, [], none, 0xFFFFFFFF, 0x0, 0x0, 0x0, 0xC0000000, 0x0⟩,
  ⟨0x500400, [(32, 3), (4, 8)], none, 0x3FFFF, 0x0, 0x0, 0x0, 0x0, 0x0⟩,
  ⟨0x500480, [(32, 3), (4, 8)], none, 0xFFFFFF, 0x0, 0x0, 0x0, 0x2414, 0x0⟩,
  ⟨0x500200, [], none, 0x7, 0x0, 0x0, 0x0, 0x5, 0x0⟩]

def Reg.rows_net_1 : List RegDesc := [
  ⟨0x500204, [], none, 0x7, 0x0, 0x0, 0x0, 0x5, 0x0⟩,
  ⟨0x500210, [], none, 0x40FFFF00, 0x0, 0x80000000, 0x0, 0x0, 0x0⟩,
  ⟨0x500214, [], none, 0x40FFFF00, 0x0, 0x80000000, 0x0, 0x0, 0x0⟩]

def Reg.rows_net : List RegDesc := Reg.rows_net_0 ++ Reg.rows_net_1

def Reg.rows_anv_0 : List RegDesc := [
  ⟨0x600000, [], none, 0x0, 0x0, 0x0, 0x0, 0x0, 0x0⟩,
  ⟨0x600008, [], some 0x60000C, 0x0, 0x7F, 0x0, 0x0, 0x0, 0x0⟩,
  ⟨0x600010, [], none, 0x7F, 0x0, 0x0, 0x0, 0x0, 0x0⟩,
  ⟨0x600020, [], none, 0xFFFFFFFF, 0x0, 0x0, 0x0, 0x0, 0x0⟩,
  ⟨0x600024, [], none, 0xFF, 0x0, 0x0, 0x0, 0x0, 0x0⟩,
  ⟨0x600028, [], none, 0x8000001F, 0x0, 0x0, 0x0, 0x4, 0x0⟩,
  ⟨0x60002C, [], none, 0x0, 0x0, 0x0, 0x0, 0x0, 0x0⟩,
  ⟨0x600030, [], none, 0x1FFFF, 0x0, 0x0, 0x0, 0x0, 0x0⟩,
  ⟨0x600040, [], none, 0x0, 0x0, 0x0, 0x0, 0x7FFFFFFF, 0x0⟩,
  ⟨0x600044, [], none, 0x0, 0x0, 0x0, 0xFFFFFFFF, 0x0, 0x0⟩,
  ⟨0x600048, [], none, 0x0, 0x0, 0x0, 0x0, 0x0, 0x0⟩,
  ⟨0x60004C, [], none, 0x0, 0x0, 0x0, 0x0, 0x0, 0x0⟩,
  ⟨0x600100, [], none, 0x0, 0x0, 0x0, 0x0, 0x0, 0x0⟩,
  ⟨0x600108, [], some 0x60010C, 0x0, 0x3F, 0x0, 0x0, 0x0, 0x0⟩,
  ⟨0x600110, [], none, 0x3F, 0x0, 0x0, 0x0, 0x0, 0x0⟩,
  ⟨0x600118, [], none, 0x0, 0x0, 0x0, 0x0, 0x8000, 0x0⟩,
  ⟨0x600120, [], none, 0x3F, 0x0, 0x0, 0x0, 0x10, 0x0⟩,
  ⟨0x600124, [], none, 0xF, 0x0, 0x0, 0x0, 0x1, 0xF⟩,
  ⟨0x600128, [], none, 0xFFFFFFFF, 0x0, 0x0, 0x0, 0x0, 0x0⟩,
  ⟨0x60012C, [], none, 0xFFFFFFFF, 0x0, 0x0, 0x0, 0x0, 0x0⟩,
  ⟨0x600200, [], none, 0x0, 0x0, 0x0, 0x0, 0x0, 0x0⟩,
  ⟨0x600204, [], none, 0x0, 0x0, 0x0, 0x0, 0x0, 0x0⟩,
  ⟨0x600208, [], none, 0x0, 0x0, 0x0, 0x0, 0x3FFFFF, 0x0⟩,
  ⟨0x60020C, [], none, 0x0, 0x0, 0x0, 0x0, 0x0, 0x0⟩]

def Reg.rows_anv_1 : List RegDesc := [
  ⟨0x600210, [], none, 0x0, 0x0, 0x0, 0x0, 0x0, 0x0⟩,
  ⟨0x600218, [], some 0x60021C, 0x0, 0x3, 0x0, 0x0, 0x0, 0x0⟩,
  ⟨0x600220, [], none, 0x3, 0x0, 0x0, 0x0, 0x0, 0x0⟩]

def Reg.rows_anv : List RegDesc := Reg.rows_anv_0 ++ Reg.rows_anv_1

def Reg.rows_scn : List RegDesc := [
  ⟨0x700000, [], none, 0x1, 0x0, 0x0, 0x0, 0x1, 0x0⟩,
  ⟨0x700008, [], some 0x70000C, 0x0, 0x1F, 0x0, 0x0, 0x0, 0x0⟩,
  ⟨0x700010, [], none, 0x1F, 0x0, 0x0, 0x0, 0x0, 0x0⟩,
  ⟨0x700020, [], none, 0x0, 0x0, 0x0, 0x0, 0x0, 0x0⟩,
  ⟨0x700024, [], none, 0x0, 0x0, 0x0, 0x0, 0x0, 0x0⟩,
  ⟨0x700030, [], some 0x700034, 0x0, 0xFFFFFFFF, 0x0, 0x0, 0x0, 0x0⟩,
  ⟨0x700038, [], some 0x70003C, 0x0, 0xFFFFFFFF, 0x0, 0x0, 0x0, 0x0⟩,
  ⟨0x700040, [], none, 0xFFFFFFFF, 0x0, 0x0, 0x0, 0x0, 0x0⟩,
  ⟨0x700044, [], none, 0xFF, 0x0, 0x0, 0x0, 0x0, 0x0⟩,
  ⟨0x700048, [], none, 0x8000001F, 0x0, 0x0, 0x0, 0x4, 0x0⟩,
  ⟨0x70004C, [], none, 0x0, 0x0, 0x0, 0x0, 0x0, 0x0⟩,
  ⟨0x700050, [], none, 0x1FFFF, 0x0, 0x0, 0x0, 0x0, 0x0⟩,
  ⟨0x700400, [(32, 64)], none, 0x0, 0x0, 0x0, 0x0, 0x0, 0x0⟩,
  ⟨0x700404, [(32, 64)], none, 0x0, 0x0, 0x0, 0x0, 0x0, 0x0⟩,
  ⟨0x700408, [(32, 64)], none, 0x0, 0x0, 0x0, 0x0, 0x0, 0x0⟩,
  ⟨0x70040C, [(32, 64)], none, 0x0, 0x0, 0x0, 0x0, 0x0, 0x0⟩,
  ⟨0x700410, [(32, 64)], none, 0x0, 0x0, 0x0, 0x0, 0x0, 0x0⟩,
  ⟨0x700414, [(32, 64)], none, 0x0, 0x0, 0x0, 0x0, 0x8000, 0x0⟩,
  ⟨0x700C00, [(4, 16)], none, 0x0, 0x0, 0x0, 0x0, 0x7FFF, 0x0⟩]

def Reg.rows_twn : List RegDesc := [
  ⟨0x800000, [], none, 0xFFFF0005, 0x0, 0x0, 0x0, 0x4, 0xFF000003⟩,
  ⟨0x800004, [], none, 0x0, 0x0, 0x0, 0x0, 0x0, 0x0⟩,
  ⟨0x800008, [], none, 0x0, 0x0, 0x0, 0x0, 0xFF, 0x0⟩,
  ⟨0x80000C, [], none, 0x0, 0x0, 0x0, 0x0, 0x0, 0x0⟩,
  ⟨0x800010, [], some 0x800014, 0x0, 0x7FF, 0x0, 0x0, 0x0, 0x0⟩,
  ⟨0x800018, [], none, 0x7FF, 0x0, 0x0, 0x0, 0x0, 0x0⟩,
  ⟨0x80001C, [], none, 0x0, 0x0, 0x0, 0xFFFFFFFF, 0x0, 0x0⟩,
  ⟨0x800020, [], none, 0x0, 0x0, 0x0, 0x0, 0x0, 0x0⟩,
  ⟨0x800024, [], none, 0x0, 0x0, 0x0, 0x0, 0x1F, 0x0⟩,
  ⟨0x800028, [], none, 0x0, 0x0, 0x0, 0x0, 0x0, 0x0⟩,
  ⟨0x800030, [], none, 0x0, 0x0, 0x0, 0x0, 0x0, 0x0⟩,
  ⟨0x800034, [], none, 0x0, 0x0, 0x0, 0x0, 0x0, 0x0⟩,
  ⟨0x800038, [], none, 0x0, 0x0, 0x0, 0x0, 0x0, 0x0⟩,
  ⟨0x80003C, [], none, 0x0, 0x0, 0x0, 0x0, 0x0, 0x0⟩]

def Reg.rows_mtr_0 : List RegDesc := [
  ⟨0x900000, [], none, 0xFF7F, 0x0, 0x0, 0x0, 0x20, 0xFF5F⟩,
  ⟨0x900004, [], none, 0x0, 0x0, 0x0, 0x0, 0x0, 0x0⟩,
  ⟨0x900008, [], some 0x90000C, 0x0, 0xFFF, 0x0, 0x0, 0x0, 0x0⟩,
  ⟨0x900010, [], none, 0xFFF, 0x0, 0x0, 0x0, 0x0, 0x0⟩,
  ⟨0x900014, [], none, 0x0, 0x0, 0x0, 0x0, 0x0, 0x0⟩,
  ⟨0x900018, [], none, 0x0, 0x0, 0x0, 0x0, 0x0, 0x0⟩,
  ⟨0x90001C, [], none, 0xFFFF, 0x0, 0x0, 0x0, 0x0, 0xFFFF⟩,
  ⟨0x900100, [(16, 7)], none, 0xFFFFFF, 0x0, 0x0, 0x0, 0x800000, 0x0⟩,
  ⟨0x900104, [(16, 7)], none, 0xFFFF, 0x0, 0x0, 0x0, 0x0, 0x0⟩,
  ⟨0x900108, [(16, 7)], none, 0xFFFFFFFF, 0x0, 0x0, 0x0, 0x0, 0xFFFFFFFF⟩,
  ⟨0x900180, [(4, 3)], none, 0xFFFF, 0x0, 0x0, 0x0, 0x0, 0x0⟩,
  ⟨0x900190, [], none, 0xFFFFFFFF, 0x0, 0x0, 0x0, 0x0, 0xFFFFFFFF⟩,
  ⟨0x900194, [], none, 0xFFFF, 0x0, 0x0, 0x0, 0xA14, 0x0⟩,
  ⟨0x9001A0, [], none, 0x0, 0x0, 0x1, 0x0, 0x0, 0x0⟩,
  ⟨0x900300, [], none, 0xFFFFFFFF, 0x0, 0x0, 0x0, 0x0, 0x0⟩,
  ⟨0x900304, [], none, 0xFF, 0x0, 0x0, 0x0, 0x0, 0x0⟩,
  ⟨0x900308, [], none, 0x8000001F, 0x0, 0x0, 0x0, 0x4, 0x0⟩,
  ⟨0x90030C, [], none, 0x0, 0x0, 0x0, 0x0, 0x0, 0x0⟩,
  ⟨0x900310, [], none, 0x1FFFF, 0x0, 0x0, 0x0, 0x0, 0x0⟩,
  ⟨0x900320, [], none, 0xFFFFFFFF, 0x0, 0x0, 0x0, 0x0, 0x0⟩,
  ⟨0x900324, [], none, 0xFF, 0x0, 0x0, 0x0, 0x0, 0x0⟩,
  ⟨0x900328, [], none, 0x8000001F, 0x0, 0x0, 0x0, 0x4, 0x0⟩,
  ⟨0x90032C, [], none, 0x0, 0x0, 0x0, 0x0, 0x0, 0x0⟩,
  ⟨0x900330, [], none, 0x1FFFF, 0x0, 0x0, 0x0, 0x0, 0x0⟩]

def Reg.rows_mtr_1 : List RegDesc := [
  ⟨0x900800, [], none, 0x1FFFFF1, 0x0, 0x0, 0x0, 0xF303C0, 0x0⟩,
  ⟨0x900804, [], some 0x900808, 0x0, 0x7, 0x0, 0x0, 0x0, 0x0⟩,
  ⟨0x900810, [(4, 4)], none, 0xFFFFFFFF, 0x0, 0x0, 0x0, 0xFFFFFFFF, 0x0⟩,
  ⟨0x900820, [(4, 4)], none, 0x0, 0x0, 0x0, 0x0, 0x0, 0x0⟩,
  ⟨0x900830, [(4, 4)], none, 0x0, 0x0, 0x0, 0x0, 0x0, 0x0⟩,
  ⟨0x900840, [(4, 4)], none, 0x0, 0x0, 0x0, 0x0, 0x0, 0x0⟩,
  ⟨0x900850, [], none, 0x0, 0x0, 0x0, 0x0, 0x0, 0x0⟩,
  ⟨0x900854, [], none, 0x0, 0x0, 0x0, 0x0, 0x0, 0x0⟩]

def Reg.rows_mtr : List RegDesc := Reg.rows_mtr_0 ++ Reg.rows_mtr_1

def Reg.rows_rad : List RegDesc := [
  ⟨0xA00000, [], none, 0xFF00FFFF, 0x0, 0x0, 0x0, 0x0, 0xFF00FFFF⟩,
  ⟨0xA00004, [], none, 0xF, 0x0, 0x0, 0x0, 0x0, 0xF⟩,
  ⟨0xA00008, [], none, 0xFFFFFF0F, 0x0, 0x0, 0x0, 0x0, 0xFFFFFF0F⟩,
  ⟨0xA0000C, [], none, 0xFF7FF7FF, 0x0, 0x0, 0x0, 0xA0280A0, 0x0⟩,
  ⟨0xA00010, [], none, 0xFF1FFF, 0x0, 0x0, 0x0, 0x80100, 0x0⟩,
  ⟨0xA00014, [], none, 0xFFFF, 0x0, 0x0, 0x0, 0x64, 0x0⟩,
  ⟨0xA00018, [], none, 0xFFFFFFFF, 0x0, 0x0, 0x0, 0x0, 0xFFFFFFFF⟩,
  ⟨0xA0001C, [], none, 0xFFFFFFFF, 0x0, 0x0, 0x0, 0x0, 0xFFFFFFFF⟩,
  ⟨0xA00020, [], none, 0x0, 0x0, 0x0, 0x0, 0x0, 0x0⟩,
  ⟨0xA00028, [], some 0xA0002C, 0x0, 0x3FFF, 0x0, 0x0, 0x0, 0x0⟩,
  ⟨0xA00030, [], none, 0x3FFF, 0x0, 0x0, 0x0, 0x0, 0x0⟩,
  ⟨0xA00034, [], none, 0xFFFF, 0x0, 0x0, 0x0, 0x0, 0x0⟩,
  ⟨0xA00038, [], none, 0xFFFF, 0x0, 0x0, 0x0, 0x0, 0xFFFF⟩,
  ⟨0xA00040, [], none, 0xFFFFFFFF, 0x0, 0x0, 0x0, 0x0, 0x0⟩,
  ⟨0xA00044, [], none, 0xFF, 0x0, 0x0, 0x0, 0x0, 0x0⟩,
  ⟨0xA00048, [], none, 0x8000001F, 0x0, 0x0, 0x0, 0x4, 0x0⟩,
  ⟨0xA0004C, [], none, 0x0, 0x0, 0x0, 0x0, 0x0, 0x0⟩,
  ⟨0xA00050, [], none, 0x1FFFF, 0x0, 0x0, 0x0, 0x0, 0x0⟩,
  ⟨0xA00060, [], none, 0xFFFFFFFF, 0x0, 0x0, 0x0, 0x0, 0xFFFFFFFF⟩,
  ⟨0xA00064, [], none, 0xFF, 0x0, 0x0, 0x0, 0x0, 0xFF⟩,
  ⟨0xA00068, [], none, 0xFFFF, 0x0, 0x0, 0x0, 0x3E8, 0x0⟩,
  ⟨0xA00070, [], none, 0x0, 0x0, 0x0, 0x0, 0xFFFFFFFF, 0x0⟩,
  ⟨0xA00074, [], none, 0x0, 0x0, 0x0, 0x0, 0x0, 0x0⟩,
  ⟨0xA00078, [], none, 0xFFFF, 0x0, 0x0, 0x0, 0x12C, 0x0⟩]

def Reg.rows_cab : List RegDesc := [
  ⟨0xB00000, [(128, 2)], none, 0x1F, 0x0, 0x0, 0x0, 0x0, 0x1E⟩,
  ⟨0xB00004, [(128, 2)], none, 0x7FFFFFF, 0x0, 0x0, 0x0, 0x0, 0x7FFFFFF⟩,
  ⟨0xB00008, [(128, 2)], none, 0x3FFFFFF, 0x0, 0x0, 0x0, 0x0, 0x3FFFFFF⟩,
  ⟨0xB0000C, [(128, 2)], none, 0x0, 0x0, 0x0, 0x0, 0x0, 0x0⟩,
  ⟨0xB00010, [(128, 2)], none, 0x0, 0x0, 0x0, 0xFFFFFFFF, 0x0, 0x0⟩,
  ⟨0xB00014, [(128, 2)], none, 0x1FFFF, 0x0, 0x0, 0x0, 0x0, 0x1FFFF⟩,
  ⟨0xB00018, [(128, 2)], none, 0x1FFFFFFF, 0x0, 0x0, 0x0, 0x0, 0x1FFFFFFF⟩,
  ⟨0xB0001C, [(128, 2)], none, 0x1FFFFFFF, 0x0, 0x0, 0x0, 0x0, 0x1FFFFFFF⟩,
  ⟨0xB00020, [(128, 2)], none, 0xFFFFFFFF, 0x0, 0x0, 0x0, 0x0, 0xFFFFFFFF⟩,
  ⟨0xB00024, [(128, 2)], none, 0xFFFFFFFF, 0x0, 0x0, 0x0, 0x0, 0xFFFFFFFF⟩,
  ⟨0xB00200, [], some 0xB00204, 0x0, 0xFFFF, 0x0, 0x0, 0x0, 0x0⟩,
  ⟨0xB00208, [], none, 0xFFFF, 0x0, 0x0, 0x0, 0x0, 0x0⟩,
  ⟨0xB00210, [], none, 0xFFFFFFFF, 0x0, 0x0, 0x0, 0x0, 0x0⟩,
  ⟨0xB00214, [], none, 0xFF, 0x0, 0x0, 0x0, 0x0, 0x0⟩,
  ⟨0xB00218, [], none, 0x8000001F, 0x0, 0x0, 0x0, 0x4, 0x0⟩,
  ⟨0xB0021C, [], none, 0x0, 0x0, 0x0, 0x0, 0x0, 0x0⟩,
  ⟨0xB00220, [], none, 0x1FFFF, 0x0, 0x0, 0x0, 0x0, 0x0⟩]

def Reg.rows_key : List RegDesc := [
  ⟨0xC00000, [], none, 0x0, 0x0, 0x0, 0x0, 0x0, 0x0⟩,
  ⟨0xC00004, [], none, 0xFFFF, 0x0, 0x80000000, 0x0, 0x0, 0xFFFF⟩,
  ⟨0xC00008, [], some 0xC0000C, 0x0, 0x1F, 0x0, 0x0, 0x0, 0x0⟩,
  ⟨0xC00010, [], none, 0x1F, 0x0, 0x0, 0x0, 0x0, 0x0⟩,
  ⟨0xC00014, [], none, 0x0, 0x0, 0x0, 0x0, 0x80000000, 0x0⟩,
  ⟨0xC00018, [], none, 0x0, 0x0, 0x0, 0x0, 0x0, 0x0⟩]

def Reg.rows_upd : List RegDesc := [
  ⟨0xD00000, [], none, 0x0, 0x0, 0x0, 0x0, 0x0, 0x0⟩,
  ⟨0xD00004, [], none, 0xFF, 0x0, 0x0, 0x0, 0x0, 0xFF⟩,
  ⟨0xD00008, [], some 0xD0000C, 0x0, 0x1F, 0x0, 0x0, 0x0, 0x0⟩,
  ⟨0xD00010, [], none, 0x1F, 0x0, 0x0, 0x0, 0x0, 0x0⟩,
  ⟨0xD00014, [], none, 0x0, 0x0, 0x0, 0x0, 0x0, 0x0⟩,
  ⟨0xD00018, [], none, 0x0, 0x0, 0x0, 0x0, 0x0, 0x0⟩,
  ⟨0xD0001C, [], none, 0x0, 0x0, 0x0, 0x0, 0x0, 0x0⟩,
  ⟨0xD00020, [(8, 2)], none, 0x0, 0x0, 0x0, 0x0, 0x0, 0x0⟩,
  ⟨0xD00024, [(8, 2)], none, 0x0, 0x0, 0x0, 0x0, 0x0, 0x0⟩,
  ⟨0xD00040, [(4, 5)], none, 0x0, 0x0, 0x0, 0x0, 0x0, 0x0⟩]

def Reg.rows_rec : List RegDesc := [
  ⟨0xE00000, [], none, 0xFFFF003F, 0x0, 0x0, 0x0, 0xA, 0xFFFF0000⟩,
  ⟨0xE00004, [], none, 0x0, 0x0, 0x0, 0x0, 0x0, 0x0⟩,
  ⟨0xE00008, [], some 0xE0000C, 0x0, 0xFF, 0x0, 0x0, 0x0, 0x0⟩,
  ⟨0xE00010, [], none, 0xFF, 0x0, 0x0, 0x0, 0x0, 0x0⟩,
  ⟨0xE00018, [], none, 0x0, 0x0, 0x0, 0x0, 0x0, 0x0⟩,
  ⟨0xE0001C, [], none, 0x0, 0x0, 0x0, 0x0, 0x0, 0x0⟩,
  ⟨0xE00020, [], none, 0x0, 0x0, 0x0, 0x0, 0x0, 0x0⟩,
  ⟨0xE08000, [], none, 0x1, 0x0, 0x2, 0x0, 0x0, 0x0⟩,
  ⟨0xE08008, [], some 0xE0800C, 0x0, 0xFFFFFFFF, 0x0, 0x0, 0x0, 0x0⟩,
  ⟨0xE08010, [], some 0xE08014, 0x0, 0xFFFFFFFF, 0x0, 0x0, 0x0, 0x0⟩,
  ⟨0xE08018, [], none, 0x1, 0x0, 0x0, 0x0, 0x0, 0x0⟩,
  ⟨0xE08100, [(4, 64)], none, 0x9F7FFFFF, 0x0, 0x0, 0x0, 0x0, 0x0⟩]

def Reg.rows_dbl : List RegDesc := [
  ⟨0xF00000, [], none, 0x0, 0x0, 0x0, 0xFFFFFFFF, 0x0, 0x0⟩]

/-- The rows of the block at megabyte `b` of the setup window (R17). -/
def Reg.rows (b : Nat) : List RegDesc :=
  match b with
  | 0 => Reg.rows_hrt
  | 1 => Reg.rows_mem
  | 2 => Reg.rows_blw
  | 3 => Reg.rows_boot
  | 4 => Reg.rows_tmk
  | 5 => Reg.rows_net
  | 6 => Reg.rows_anv
  | 7 => Reg.rows_scn
  | 8 => Reg.rows_twn
  | 9 => Reg.rows_mtr
  | 10 => Reg.rows_rad
  | 11 => Reg.rows_cab
  | 12 => Reg.rows_key
  | 13 => Reg.rows_upd
  | 14 => Reg.rows_rec
  | 15 => Reg.rows_dbl
  | _ => []

/-- Address `a` lies on row `d`: the strides say how often, and how far apart, the register repeats. -/
def Reg.holds (d : RegDesc) (a : Nat) : Bool :=
  if a < d.addr then false else
  match d.strides with
  | [] => a == d.addr
  | [(s, c)] => (a - d.addr) % s == 0 && (a - d.addr) / s < c
  | (s, c) :: (s2, c2) :: _ =>
    (a - d.addr) / s < c && ((a - d.addr) % s) % s2 == 0 && ((a - d.addr) % s) / s2 < c2

/-- The row of a register, if the address has one (R8: an offset with none reads 0 and ignores writes). -/
def Reg.find (a : Nat) : Option RegDesc := (Reg.rows (a / 0x100000)).find? (Reg.holds · a)

/-- The address is that of a companion register, which counts the writes of one that met a set (R12). -/
def Reg.isSdc (a : Nat) : Bool :=
  (Reg.rows (a / 0x100000)).any fun d => match d.sdc with
    | some c => Reg.holds { d with addr := c } a
    | none => false

/-- The value a register takes at the reset that reaches its block (the Reset column). -/
def Reg.resetVal (a : Nat) : Word :=
  match Reg.find a with
  | some d => BitVec.ofNat 32 d.reset
  | none => 0

end Sys2Proof.Machine
end

