-- ==== Sys2Proof/Machine/Ops.lean ====
section
/-! DEFINITION. The named operations over registers, counters, holders, power and time that every chapter uses: reading
and writing a register word and its fields, the growth of a counter with the performance-monitor event that goes with
it (R578, R579), and the powered domains. -/

namespace Sys2Proof.Machine

/-- A meaning that answers a next state. -/
abbrev Result := Host.Outcome State Fault Refusal

/-- The command completes in state `s`. -/
def done (s : State) : Result := .next s

/-! ## Registers -/

/-- The word of the register at setup-window offset `a`. -/
def State.reg (s : State) (a : Nat) : Word := Sparse.get Reg.resetVal s.regs a

/-- The register at `a` takes the word `w`. -/
def State.setReg (s : State) (a : Nat) (w : Word) : State := { s with regs := Sparse.set Reg.resetVal s.regs a w }

/-- The register word as a number. -/
def State.regN (s : State) (a : Nat) : Nat := (s.reg a).toNat

/-- The value of a field. -/
def State.fld (s : State) (f : Field) : Nat := bits (s.regN f.addr) f.lo f.width

/-- A one-bit field reads 1. -/
def State.flag (s : State) (f : Field) : Bool := s.fld f != 0

/-- The field takes the value `v` (its low bits). -/
def State.setFld (s : State) (f : Field) (v : Nat) : State :=
  s.setReg f.addr (BitVec.ofNat 32 (setBits (s.regN f.addr) f.lo f.width v))

/-- A one-bit field takes 1: how hardware sets a wc flag (R11) or a status bit. -/
def State.raise (s : State) (f : Field) : State := s.setFld f 1

/-- A one-bit field takes 0. -/
def State.lower (s : State) (f : Field) : State := s.setFld f 0

/-- The value a field would have in word `w`. -/
def fieldOf (f : Field) (w : Word) : Nat := bits w.toNat f.lo f.width

/-- The signed value of a two's complement field. -/
def State.sfld (s : State) (f : Field) : Int := signed f.width (s.fld f)

/-- A field that counts and saturates. -/
def State.incFld (s : State) (f : Field) : State := s.setFld f (satU f.width (s.fld f + 1))

/-- A field that counts and wraps. -/
def State.wrapFld (s : State) (f : Field) : State := s.setFld f (s.fld f + 1)

/-- The registers whose offset satisfies `p` return to their Reset column. -/
def State.resetRegs (s : State) (p : Nat → Bool) : State := { s with regs := s.regs.filter fun r => !p r.1 }

/-! ## Power and release -/

/-- PDd is powered: BLW_DOM_ON shows it (R349). -/
def State.powered (s : State) (d : Nat) : Bool := (s.regN Reg.BLW_DOM_ON).testBit d

/-- The domains any one of which powers the block that holds setup-window offset `a` (R27 and the chapters' openings;
assumption 8). -/
def blockDomains (a : Nat) : List Nat :=
  match a / 0x100000 with
  | 0 => if 0x6000 ≤ a ∧ a < 0x6400 then [13] else [4]
  | 1 => [13] | 2 => [1] | 3 => [1]
  | 4 => if a < 0x480000 then [26] else [0]
  | 5 => [22, 23, 24] | 6 => [14, 15, 16, 17] | 7 => [18, 19, 20, 21] | 8 => [25]
  | 9 => if 0x900800 ≤ a ∧ a < 0x901000 then [0] else [3]
  | 10 => [2] | 11 => [24] | 12 => [10] | 13 => [27] | 14 => [11] | 15 => [4]
  | _ => []

/-- The block at offset `a` answers: one of its domains is powered (R292). -/
def State.blockOn (s : State) (a : Nat) : Bool := (blockDomains a).any s.powered

/-- The start has been released: BOOT_STATUS.phase is RELEASED or the module is running (R389). -/
def State.released (s : State) : Bool := s.fld F.BOOT_STATUS_phase == 5

/-- Agent `a` of R289 is powered. Agents 5, 6 and 7 are the engine microcontrollers, in PD13, PD02 and PD03. -/
def State.agentOn (s : State) (a : Nat) : Bool :=
  match a with
  | 0 => s.powered 5 | 1 => s.powered 6 | 2 => s.powered 7 | 3 => s.powered 8 | 4 => s.powered 4
  | 5 => s.powered 14 | 6 => s.powered 2 | 7 => s.powered 3
  | _ => false

/-! ## Counters and performance monitors -/

/-- The offset and the width of counter `i` of source `src` (R579), instance `inst`. -/
structure CounterRow where
  addr  : Nat
  width : Nat
  deriving DecidableEq, Repr

/-- Counters of a table in which all rows lie 8 bytes apart from `base`; `narrow` lists the 32-bit ones. -/
def tableCounter (base : Nat) (narrow : List Nat) (i : Nat) : CounterRow :=
  ⟨base + 8 * i, if narrow.contains i then 32 else 48⟩

/-- The counter tables of R579: R320, R346, R115, R157, R190, R213, R254, R288, R374, R450, R483, R506, R537, R554, R582. -/
def counterRow (src i inst : Nat) : CounterRow :=
  match src with
  | 1 => tableCounter 0x007000 [1, 2, 3, 4, 5, 6, 7] i
  | 2 => tableCounter 0x109000 [5, 6, 7, 8, 9, 10, 11, 12, 14, 15, 16] i
  | 3 => ⟨0x501000 + 0x100 * inst + 8 * i, if i = 0 ∨ i = 19 then 64
          else if [1, 2, 3, 4, 15, 17, 20, 21, 26, 28, 30].contains i then 48 else 32⟩
  | 4 => ⟨0x501300 + 8 * i, 32⟩
  | 5 => tableCounter (0x601000 + 0x40 * inst) [3, 4, 5, 6, 7] i
  | 6 => tableCounter 0x601400 [1, 2, 3, 4, 5, 6, 7, 8, 9, 10, 13] i
  | 7 => tableCounter 0x601800 [1, 2, 3, 4] i
  | 8 => ⟨0x601C00 + 8 * i, if i = 0 then 64 else if i = 4 then 32 else 48⟩
  | 9 => tableCounter (0x702000 + 0x100 * inst) [3, 4, 5, 6, 7, 8, 9, 10, 11, 12, 13, 14] i
  | 10 => tableCounter 0x801000 [0, 1, 2, 3, 4, 5, 6, 7, 8, 9, 10, 12] i
  | 11 => ⟨0x201000 + 8 * i, if i = 5 ∨ 22 ≤ i then 48 else 32⟩
  | 12 => ⟨0x902000 + 8 * i, if i < 2 then 48 else 32⟩
  | 13 => tableCounter 0xA01000 [4, 5, 6, 7, 8, 9, 10, 11, 12, 13, 14] i
  | 14 => tableCounter (0xB02000 + 0x100 * inst) [2, 3, 4, 6, 7, 8, 9, 10, 11, 12] i
  | 15 => tableCounter 0xC01000 [0, 2, 4, 5, 6, 8] i
  | 16 => tableCounter 0xD01000 [1, 2, 3, 4, 5, 6] i
  | _ => tableCounter 0xE01000 [1, 3, 4, 5, 6, 7, 8] i

/-- The value of the counter whose low word lies at `a`. -/
def State.count (s : State) (a : Nat) : Nat := Sparse.get (fun _ => 0) s.counts a

/-- The counter at `a` takes the value `v`. -/
def State.setCount (s : State) (a v : Nat) : State := { s with counts := Sparse.set (fun _ => 0) s.counts a v }

/-- The counters whose offset satisfies `p` return to 0. -/
def State.resetCounts (s : State) (p : Nat → Bool) : State := { s with counts := s.counts.filter fun c => !p c.1 }

/-- The qualifier of PMC_SEL admits instance `inst` of source `src` (R579; assumption 12). -/
def pmcQualifies (src q inst : Nat) : Bool :=
  match src with
  | 3 => q == 0 || q.testBit inst
  | 5 => q == 0 || q.testBit inst
  | 9 => q.testBit 15 || bits q 0 6 == inst
  | 14 => bits q 0 2 == 0 || q.testBit inst
  | _ => true

/-- Performance counter `i` grows by `n`, wrapping at 2^48 with its PMC_OVF bit (R578). -/
def State.pmcAdd (s : State) (i n : Nat) : State :=
  let a := 0xE08200 + 8 * i
  let v := s.count a + n
  let s := s.setCount a (v % 2 ^ 48)
  if v < 2 ^ 48 then s
  else
    let f : Field := if i < 32 then ⟨Reg.PMC_OVF_LO, i, 1⟩ else ⟨Reg.PMC_OVF_HI, i - 32, 1⟩
    s.raise f

/-- An occurrence of event `ev` of source `src` reaches every performance counter that selects it (R578). -/
def State.pmc (s : State) (src ev inst : Nat) (n : Nat := 1) : State :=
  if s.flag F.PMC_CTRL_run && s.powered 11 then
    (List.range 64).foldl (fun s i =>
      if s.flag (F.PMC_SEL_en i) && s.fld (F.PMC_SEL_source i) == src && s.fld (F.PMC_SEL_event i) == ev
          && pmcQualifies src (s.fld (F.PMC_SEL_qualifier i)) inst
      then s.pmcAdd i n else s) s
  else s

/-- Counter `i` of source `src`, instance `inst`, grows by `n`. It saturates at its largest value, but for the Network's
counters, which wrap and set their NET_CNT_HALF bit when their top bit changes (R116); the event goes to the performance
monitors in every case (R579). -/
def State.bump (s : State) (src i : Nat) (inst : Nat := 0) (n : Nat := 1) : State :=
  let r := counterRow src i inst
  let v := s.count r.addr
  if src = 3 ∨ src = 4 then
    let w := (v + n) % 2 ^ r.width
    let s := s.setCount r.addr w
    let s := if v.testBit (r.width - 1) != w.testBit (r.width - 1) then
      s.raise ⟨Reg.NET_CNT_HALF (if src = 3 then inst else 3), i, 1⟩ else s
    s.pmc src i inst n
  else (s.setCount r.addr (satU r.width (v + n))).pmc src i inst n

/-! ## Snapshot holders -/

/-- The holder of initiator `ini` in block `b` (R14): no words before its first low-word read. -/
def State.holder (s : State) (ini b : Nat) : List Word :=
  match s.snaps.find? (fun h => h.ini == ini && h.block == b) with
  | some h => h.words
  | none => []

/-- The holder takes the words `ws`. -/
def State.setHolder (s : State) (ini b : Nat) (ws : List Word) : State :=
  { s with snaps := ⟨ini, b, ws⟩ :: s.snaps.filter (fun h => !(h.ini == ini && h.block == b)) }

/-- The block of an offset, for the holders: RTC stands apart from TMK (R17). -/
def blockOf (a : Nat) : Nat := if a / 0x80000 = 9 then 0x48 else a / 0x100000

/-- The answer to the access that is being made. -/
def State.answerWith (s : State) (a : Answer) : State := { s with answer := a }

/-- A 64-bit (or wider) live value is read at its lowest word: it answers that word and holds the higher ones (R13,
R15). -/
def State.snapshot (s : State) (ini a : Nat) (v words : Nat) : State :=
  (s.setHolder ini (blockOf a) ((List.range (words - 1)).map fun i => BitVec.ofNat 32 (v >>> (32 * (i + 1))))).answerWith
    (.word (BitVec.ofNat 32 v))

/-- Only the holders that satisfy `p` stay. -/
def State.keepSnaps (s : State) (p : Snap → Bool) : State := { s with snaps := s.snaps.filter p }

/-- Wall time, and the clock of the model, take a value. -/
def State.setWall (s : State) (t : Nat) : State := { s with wall := t }
def State.setClock (s : State) (t : Nat) : State := { s with clock := t }

/-! ## Updates of one substructure -/

def State.modMem (s : State) (f : Mem → Mem) : State := { s with mem := f s.mem }
def State.modHrt (s : State) (f : Hrt → Hrt) : State := { s with hrt := f s.hrt }
def State.modTmk (s : State) (f : Tmk → Tmk) : State := { s with tmk := f s.tmk }
def State.modNet (s : State) (f : Net → Net) : State := { s with net := f s.net }
def State.modMtr (s : State) (f : Mtr → Mtr) : State := { s with mtr := f s.mtr }
def State.modRad (s : State) (f : Rad → Rad) : State := { s with rad := f s.rad }
def State.modCab (s : State) (f : Cab → Cab) : State := { s with cab := f s.cab }
def State.modBoot (s : State) (f : Boot → Boot) : State := { s with boot := f s.boot }
def State.modRec (s : State) (f : Recorder → Recorder) : State := { s with recd := f s.recd }
def State.modImg (s : State) (f : RecImage → RecImage) : State := s.modRec fun r => { r with img := f r.img }
def State.modBlw (s : State) (f : Blw → Blw) : State := { s with blw := f s.blw }
def State.modAnv (s : State) (f : Anv → Anv) : State := { s with anv := f s.anv }
def State.modScn (s : State) (f : Scn → Scn) : State := { s with scn := f s.scn }
def State.modTwn (s : State) (f : Twn → Twn) : State := { s with twn := f s.twn }
def State.modBat (s : State) (f : Battery → Battery) : State := { s with bat := f s.bat }
def State.modRtc (s : State) (f : Rtc → Rtc) : State := { s with rtc := f s.rtc }
def State.modKey (s : State) (f : Keystore → Keystore) : State := { s with key := f s.key }

/-! ## Sections of the engines (R541, R552) -/

/-- Processor `p` runs the section with entry `e`. -/
def State.runSection (s : State) (p : Nat) (e : List Byte) (swapped : Bool) : State :=
  ((s.modBoot fun b => { b with loaded := (b.loaded ++ List.replicate 5 []).take 5 |>.set p e }).setFld
    (F.UPD_RUN_IFV_ifv p) (le e 2 2)).setFld (F.UPD_RUN_IFV_swapped p) (b2n swapped)

/-- A swap that waits for a boundary of processor `p` is taken. -/
def State.takeSwap (s : State) (p : Nat) : State :=
  match s.boot.swap with
  | some (q, e) => if q = p then (s.modBoot fun b => { b with swap := none }).runSection p e true else s
  | none => s

/-! ## Output, answers, free values -/

def State.emit (s : State) (o : Out) : State := { s with out := s.out ++ [o] }
/-- One free value is drawn: the next takes another argument. -/
def State.drawn (s : State) : State := { s with draws := s.draws + 1 }

/-! ## Wall time -/

/-- One nanosecond of wall time, in its fraction steps (R18). -/
def ns : Nat := 65536
def second : Nat := 1000000000 * ns

/-- A wall time from its seconds, nanoseconds and fraction (R18). -/
def mkWall (sec nanos frac : Nat) : Nat := second * sec + ns * nanos + frac

/-- The 96-bit value of R18. -/
def wallBits (t : Nat) : Nat := 2 ^ 48 * (t / second % 2 ^ 48) + 2 ^ 16 * ((t % second / ns)) + t % ns

/-- The four words of R19; in wrap mode word 3 reads 0 (R21). -/
def wallWords (wrap : Bool) (t : Nat) : List Nat :=
  [t % ns, t % second / ns, t / second % 2 ^ 32, if wrap then 0 else t / second / 2 ^ 32 % 2 ^ 16]

/-- The 16-byte container of R19. -/
def wallBytes (wrap : Bool) (t : Nat) : List Byte := (wallWords wrap t).flatMap (natLE 4)

/-- The wall time a container holds, unless it is malformed (R20); wrap mode ignores word 3 (R21). -/
def wallOfBytes (wrap : Bool) (bs : List Byte) : Option Nat :=
  let nanos := le bs 4 4
  if nanos < 1000000000 then
    some (mkWall (le bs 8 4 + if wrap then 0 else 2 ^ 32 * (le bs 12 2)) nanos (le bs 0 2))
  else none

/-- The 64-bit short form of a wall time (R52). -/
def shortForm (t : Nat) : Nat := 2 ^ 48 * (t / second % 65536) + 65536 * (t % second / ns) + t % ns

def State.wrap (s : State) : Bool := s.flag F.TMK_CFG_wrap_mode

/-- A wall time whose seconds have run over or under: they are 32 bits wide in wrap mode, 48 otherwise (R21, R22). -/
def State.foldTime (s : State) (t : Int) : Nat := (t % ((if s.wrap then 2 ^ 32 else 2 ^ 48) * second : Nat)).toNat

/-- The time that a short form names, nearest to wall time, the earlier one of two as near (R53); none if its nanoseconds are
malformed (R20). Outside wrap mode a time before the epoch names nothing, so that the one after it is taken (assumption 75). -/
def State.fromShort (s : State) (v : Nat) : Option Nat :=
  let nanos := bits v 16 32
  if 1000000000 ≤ nanos then none
  else
    let w := s.wall
    let t := mkWall (bits v 48 16) nanos (bits v 0 16)
    let d := (t + 65536 * second - w % (65536 * second)) % (65536 * second)
    if d < 32768 * second then some (s.foldTime (w + d : Nat))
    else if s.wrap then some (s.foldTime ((w + d : Nat) - (65536 * second : Nat)))
    else if w + d < 65536 * second then some (w + d)
    else some (w + d - 65536 * second)

/-- The signed difference a − b of two wall times, in fraction steps: modulo 2^32 s in wrap mode (R21), of magnitude
otherwise (R22). -/
def State.wallDiff (s : State) (a b : Nat) : Int :=
  if s.wrap then
    (second : Nat) * (signed 32 (unsigned 32 ((a / second : Nat) - (b / second : Nat) : Int)))
      + ((a % second : Nat) - (b % second : Nat) : Int)
  else (a : Int) - b

/-- `a` is later than `b` (R21, R22). -/
def State.later (s : State) (a b : Nat) : Bool := 0 < s.wallDiff a b

def State.modPll (s : State) (f : TimePll → TimePll) : State := { s with pll := f s.pll }

/-- The oscillator word in force: in HOLDOVER on the external input its own frequency is taken as it is (R70). -/
def State.oscWord (s : State) : Int :=
  if s.fld F.TMK_STATUS_servo_state = 4 ∧ s.fld F.TMK_STATUS_freq_src = 2 then 0 else s.pll.word

/-- The rate of the slew in parts per 10^9: in PULL and in ACQUIRE at most TMK_SERVO_CFG.max_slew (R61). -/
def State.slewRate (s : State) : Nat :=
  if s.fld F.TMK_STATUS_servo_state = 3 then s.pll.rate else min s.pll.rate (s.fld F.TMK_SERVO_CFG_max_slew)

/-- How much of the slew `n` ns remove, in fraction steps (R61). -/
def State.slewStep (s : State) (n : Nat) : Nat := min ((s.pll.gone + n * ns * s.slewRate) / 1000000000) s.pll.slew.natAbs

/-- The slew has run for `n` ns. -/
def State.slewOn (s : State) (n : Nat) : State :=
  let m : Int := s.slewStep n
  let left := if 0 ≤ s.pll.slew then s.pll.slew - m else s.pll.slew + m
  s.modPll fun l => { l with slew := left, gone := if left = 0 then 0 else (l.gone + n * ns * s.slewRate) % 1000000000 }

/-- Wall time after `n` ns: it runs at the oscillator word's frequency, and a slew holds it back or brings it on (R58, R61). -/
def State.wallAfter (s : State) (n : Nat) : Nat :=
  let m : Int := s.slewStep n
  s.foldTime (s.wall + (n * ns : Nat) + (s.pll.part + n * s.oscWord) / 2 ^ 32 + (if 0 ≤ s.pll.slew then -m else m))

/-- The time PLL has run for `n` ns. -/
def State.pllRun (s : State) (n : Nat) : State :=
  let part := (s.pll.part + n * s.oscWord) % 2 ^ 32
  ((s.setWall (s.wallAfter n)).slewOn n).modPll fun l => { l with part := part }

/-- Time runs on to `t`: the arrival of a scheduled time brings wall time forward to it (assumption 5). -/
def State.reach (s : State) (t : Nat) : State :=
  if s.later t s.wall then
    let n := (s.wallDiff t s.wall).toNat / ns
    ((s.slewOn n).setWall (s.foldTime t)).setClock (s.clock + n)
  else s

/-- The time tags that a record carries: wall time only in LOCKED or HOLDOVER (R23, R560). -/
def State.timeValid (s : State) : Bool :=
  s.fld F.TMK_STATUS_servo_state == 3 || s.fld F.TMK_STATUS_servo_state == 4

/-- Discipline of the RTC is active (R423). -/
def State.discActive (s : State) : Bool :=
  s.flag F.RTC_CFG_disc_en && s.timeValid && !s.flag F.RTC_STATUS_locked

/-- Discipline that is not active has no window, and begins anew when it is (R423). -/
def State.judgeDisc (s : State) : State :=
  if s.discActive then s else s.modRtc fun r => { r with discWas := false, discSec := none }

end Sys2Proof.Machine
end

