-- ==== Sys2Proof/Machine/Flags.lean ====
section
/-! DEFINITION. Flags and interrupts: which interrupt vector is asserted by which flag (R306), which is pending and
which a claim takes (R307, R308), and the coalescing conditions of completion vectors (R309). -/

namespace Sys2Proof.Machine

/-- The numbers of R293 that are in use: every other ring number is unassigned. -/
def ringAssigned (n : Nat) : Bool :=
  n == 0x08 || n == 0x09 || n == 0x18 || (0x20 ≤ n && n ≤ 0x38) || (0x40 ≤ n && n ≤ 0x4F) ||
  n == 0x50 || n == 0x58 || n == 0x60 || n == 0x70 || n == 0x80 || n == 0xA0 || n == 0xB0

/-- Number of entries and wrap modulus of ring `n`: 2^size_log2 and 2^(size_log2 + 1) (R295). -/
def State.ringSize (s : State) (n : Nat) : Nat := 2 ^ s.fld (F.HRT_RING_CFG_size_log2 n)
def State.ringMod (s : State) (n : Nat) : Nat := 2 * s.ringSize n

/-- The difference a − b of two indices of ring `n`, modulo 2^(size_log2 + 1) (R295). -/
def State.ringDiff (s : State) (n a b : Nat) : Nat := (a + s.ringMod n - b % s.ringMod n) % s.ringMod n

/-- Unreleased completions of ring `n`: CPL_HEAD − CPL_TAIL. -/
def State.unreleased (s : State) (n : Nat) : Nat :=
  s.ringDiff n (s.regN (Reg.HRT_RING_CPL_HEAD n)) (s.regN (Reg.HRT_RING_CPL_TAIL n))

def State.ringEnabled (s : State) (n : Nat) : Bool := s.flag (F.HRT_RING_CFG_enable n)

/-- Ring `n` meets a condition of R309: enough unreleased completions, or the oldest old enough. -/
def State.coalesced (s : State) (n : Nat) : Bool :=
  s.ringEnabled n &&
    ((max 1 (s.fld (F.HRT_RING_COAL_count n)) ≤ s.unreleased n) ||
      (s.fld (F.HRT_RING_COAL_time_us n) != 0 && 0 < s.unreleased n && s.hrt.aged.contains n))

/-- The rings a host can enable. -/
def ringNumbers : List Nat := (List.range 256).filter ringAssigned

/-- The status vectors of R306: the vector, the flags and the enables that feed it. -/
def statusSources : List (Nat × Nat × Nat) :=
  [(96, Reg.TMK_INT_STAT, Reg.TMK_INT_EN), (96, Reg.TMK_CLK_INT_STAT, Reg.TMK_CLK_INT_EN),
   (98, Reg.RTC_INT_STAT, Reg.RTC_INT_EN), (99, Reg.NET_INT_STAT, Reg.NET_INT_EN),
   (100, Reg.ANV_INGEST_INT_STAT, Reg.ANV_INGEST_INT_EN), (101, Reg.ANV_PIPE_INT_STAT, Reg.ANV_PIPE_INT_EN),
   (101, Reg.ANV_GRY_INT_STAT, Reg.ANV_GRY_INT_EN), (102, Reg.SCN_INT_STAT, Reg.SCN_INT_EN),
   (103, Reg.TWN_INT_STAT, Reg.TWN_INT_EN), (104, Reg.BLW_INT_STAT, Reg.BLW_INT_EN),
   (105, Reg.MTR_INT_STAT, Reg.MTR_INT_EN), (106, Reg.RAD_INT_STAT, Reg.RAD_INT_EN),
   (107, Reg.CAB_INT_STAT, Reg.CAB_INT_EN), (108, Reg.KEY_INT_STAT, Reg.KEY_INT_EN),
   (109, Reg.UPD_INT_STAT, Reg.UPD_INT_EN), (110, Reg.REC_INT_STAT, Reg.REC_INT_EN),
   (112, Reg.MEM_INT_STAT, Reg.MEM_INT_EN), (113, Reg.FWL_INT_STAT, Reg.FWL_INT_EN),
   (114, Reg.BOOT_INT_STAT, Reg.BOOT_INT_EN), (115, Reg.HRT_INT_STAT, Reg.HRT_INT_EN)]

/-- NET_INT_STAT.cnt_half: a NET_CNT_HALF bit is set (R116). -/
def State.netHalf (s : State) : Bool := (List.range 4).any fun p => s.regN (Reg.NET_CNT_HALF p) != 0

/-- Vector `v` is asserted at its source (R306, R309, R311, R318). -/
def State.vectorAsserted (s : State) (v : Nat) : Bool :=
  if v < 96 then ringNumbers.any fun n => s.fld (F.HRT_RING_CFG_vector n) == v && s.coalesced n
  else if v = 97 then s.fld F.TMK_TSQ_STATUS_count != 0
  else if v = 111 then s.flag F.PMC_INT_EN_ovf && (s.regN Reg.PMC_OVF_LO != 0 || s.regN Reg.PMC_OVF_HI != 0)
  else if v < 116 then
    statusSources.any (fun x => x.1 == v && (s.reg x.2.1 &&& s.reg x.2.2) != 0)
      || (v == 99 && s.netHalf && (s.regN Reg.NET_INT_EN).testBit 3)
      || (v == 104 && s.flag F.BLW_LF_CLK_lost && s.flag F.BLW_LF_CLK_int_en)
      || (v == 105 && s.flag F.MTR_BAT_CFG_int_en && s.powered 3 && s.fld F.MTR_BAT_STATUS_theft != 0)
  else if 128 ≤ v ∧ v < 144 then
    max 1 (s.fld (F.HRT_MBX_THRESH_data_thresh (v - 128))) ≤ (nth s.hrt.mbx (v - 128) {}).words.length
  else if 144 ≤ v ∧ v < 160 then
    max 1 (s.fld (F.HRT_MBX_THRESH_room_thresh (v - 144))) ≤ 512 - (nth s.hrt.mbx (v - 144) {}).words.length
  else if 160 ≤ v ∧ v < 192 then (s.regN Reg.HRT_SWI_STAT).testBit (v - 160)
  else false

def State.inService (s : State) (v : Nat) : Bool := s.hrt.inService.any (·.1 == v)

/-- Vector `v` is pending: asserted, its route enabled, and not in service (R307). -/
def State.vectorPending (s : State) (v : Nat) : Bool :=
  s.flag (F.HRT_VEC_ROUTE_en v) && !s.inService v && s.vectorAsserted v

/-- The highest priority in service at agent `c`, plus one; 0 if none. -/
def State.serviceLevel (s : State) (c : Nat) : Nat :=
  (s.hrt.inService.filter (·.2 == c)).foldl (fun m v => max m (s.fld (F.HRT_VEC_ROUTE_priority v.1) + 1)) 0

/-- The pending vectors that qualify at agent `c`: above its mask and above what it serves (R308). -/
def State.qualifying (s : State) (c : Nat) : List Nat :=
  (List.range 256).filter fun v =>
    s.fld (F.HRT_VEC_ROUTE_target v) == c && s.vectorPending v &&
    s.fld (F.HRT_IRQ_PMASK_threshold c) < s.fld (F.HRT_VEC_ROUTE_priority v) &&
    s.serviceLevel c ≤ s.fld (F.HRT_VEC_ROUTE_priority v)

/-- Agent `c`'s interrupt line is asserted (R308). -/
def State.irqLine (s : State) (c : Nat) : Bool := !(s.qualifying c).isEmpty

/-- The vector a claim at agent `c` takes: of the highest priority, the lowest number above the last claimed at that
priority, wrapping (R308). -/
def State.nextVector (s : State) (c : Nat) : Option Nat :=
  let q := s.qualifying c
  let top := q.foldl (fun m v => max m (s.fld (F.HRT_VEC_ROUTE_priority v))) 0
  let q := q.filter fun v => s.fld (F.HRT_VEC_ROUTE_priority v) == top
  let from_ := Sparse.get (fun _ => 0) s.hrt.lastClaim (16 * c + top)
  match q.find? (fun v => from_ ≤ v) with
  | some v => some v
  | none => q.head?

/-- A word of 32 flags. -/
def flagWord (f : Nat → Bool) : Nat := (List.range 32).foldl (fun w b => w + (b2n (f b)) * 2 ^ b) 0

/-- The pending vectors whose wake bit is set and whose target agent has no power: each raises a wake request (R310). -/
def State.wakeAgents (s : State) : List Nat :=
  (List.range 256).filterMap fun v =>
    let c := s.fld (F.HRT_VEC_ROUTE_target v)
    if s.flag (F.HRT_VEC_ROUTE_wake v) && !s.agentOn c && s.vectorPending v then some c else none

end Sys2Proof.Machine
end

