-- ==== Sys2Proof/Machine/KeyPath.lean ====
section
/-! DEFINITION. Key slots and the key path: what a slot holds, and how an engine obtains a key (R507 to R510, R522 to
R525). -/

namespace Sys2Proof.Machine

/-- Slot `n`; one never written is EMPTY. -/
def State.keySlot (s : State) (n : Nat) : KeySlot := Sparse.get (fun _ => {}) s.key.slots n

/-- Slot `n` takes the content `k`. -/
def State.setKeySlot (s : State) (n : Nat) (k : KeySlot) : State :=
  s.modKey fun x => { x with slots := Sparse.set (fun _ => {}) x.slots n k }

/-- The type code of an attribute word (R509). -/
def keyType (attr : Nat) : Nat := bits attr 0 4

/-- The key length of a type, in bytes (R508). -/
def keyLength (t : Nat) : Nat :=
  match t with
  | 1 => 32 | 2 => 16 | 3 => 32 | 4 => 32 | 5 => 96 | 6 => 32 | _ => 0

/-- What the key path answers a request with (R523). -/
inductive KeyAnswer where
  | key (bs : List Byte)
  | refused
  | memoryError
  deriving DecidableEq, Repr

/-- The first reason of R523 and R524 for which slot `k` is refused: 0 EMPTY, 3 damaged, 1 type, 2 binding. -/
def keyRefusal (k : KeySlot) (types : List Nat) (needs : List Nat) : Option Nat :=
  if k.damaged then some 3
  else if keyType k.attr = 0 then some 0
  else if !types.contains (keyType k.attr) then some 1
  else if !needs.all (fun b => k.attr.testBit b) then some 2
  else none

/-- A refusal is counted, flagged and recorded in KEY_LAST_REFUSED (R523). -/
def State.keyRefused (s : State) (requester slot reason : Nat) : State :=
  ((s.bump 15 2).raise F.KEY_INT_STAT_refused).setReg Reg.KEY_LAST_REFUSED
    (BitVec.ofNat 32 (requester + slot * 2 ^ 8 + 2 ^ 16 * reason))

/-- Lifetime counter `i` of the Recorder grows, saturating at 64 bits (R557). -/
def State.life (s : State) (i : Nat) (n : Nat := 1) : State :=
  if s.powered 11 then
    s.modImg fun m => { m with life := Sparse.set (fun _ => 0) m.life i (satU 64 (Sparse.get (fun _ => 0) m.life i + n)) }
  else s

/-- An engine, at position `requester` of the order of R525, names slot `slot` on the key path (R522): the key is
delivered if the slot's type is one of `types` and it has every binding bit of `needs`. With PD10 off the request is
refused with reason 4, recorded when PD10 next powers (R524). -/
def State.keyRequest (s : State) (requester slot : Nat) (types needs : List Nat) : KeyAnswer × State :=
  if !s.powered 10 then
    (.refused, (s.life 41).modKey fun x => { x with
      offRefusal := some (requester + slot * 2 ^ 8 + 4 * 2 ^ 16), offCount := x.offCount + 1 })
  else
    let k := s.keySlot slot
    match keyRefusal k types needs with
    | none => (.key k.key, s.bump 15 1)
    | some r =>
      (if r = 3 then .memoryError else .refused, (s.life 41).keyRefused requester slot r)

end Sys2Proof.Machine
end

