-- ==== Sys2Proof/Machine/Reports.lean ====
section
/-! DEFINITION. What the Recorder is told: lifetime counters, histograms, extremes, fault-log and audit entries, and the
triggers of a flush (R557 to R572). -/

namespace Sys2Proof.Machine

/-- A histogram bin, at its offset in the image, grows by one and saturates at 32 bits (R558). -/
def State.hist (s : State) (off : Nat) : State :=
  if s.powered 11 then
    s.modImg fun m => { m with hist := Sparse.set (fun _ => 0) m.hist off (satU 32 (Sparse.get (fun _ => 0) m.hist off + 1)) }
  else s

/-- The wall time a record carries, or zero (R23). -/
def State.tagWall (s : State) : Nat := if s.timeValid then s.wall else 0

/-- Extreme `e` takes `v` if it lies strictly beyond the value held: above it for a maximum, below for a minimum. -/
def State.extreme (s : State) (e : Nat) (v : Int) (qual : Nat) : State :=
  let old := nth s.recd.img.extremes e {}
  let isMin := [1, 3, 4, 7, 10, 13, 14].contains e
  if s.powered 11 && (if isMin then v < old.value else old.value < v) then
    s.modImg fun m => { m with
      extremes := m.extremes.set e { value := v, qual := qual, hours := m.hours, cycles := m.cycles, wall := s.tagWall } }
  else s

/-- A log entry (R563): 64 bytes, `content` at byte 32. -/
def State.logEntry (s : State) (type origin seq : Nat) (content : List Byte) : List Byte :=
  natLE 2 type ++ natLE 1 origin ++ natLE 1 (b2n s.timeValid) ++ natLE 4 s.recd.img.hours ++
    natLE 4 s.recd.img.cycles ++ natLE 4 seq ++
    (if s.timeValid then wallBytes s.wrap s.wall else zeros 16) ++ (content ++ zeros 32).take 32

/-- The bank with the older flush sequence: the one that is not the bank of the last complete flush (R570). -/
def State.olderBank (s : State) : Nat := 1 - s.fld F.REC_STATUS_bank

/-- A flush begins: it copies the live image and the buffers, which are emptied, and requests the seal key (R570). -/
def State.flushBegin (s : State) (pass : Nat) : State :=
  let slot := s.fld F.REC_CFG_seal_slot
  let (ans, s) := if slot = 0 then (KeyAnswer.refused, s) else s.keyRequest 5 slot [4] [13, 17]
  let key := match ans with | .key k => some k | _ => none
  let s := if slot ≠ 0 ∧ key.isNone then (s.bump 17 6).raise F.REC_INT_STAT_seal_refused else s
  let s := s.modRec fun r => { r with
    flush := some { pass := pass, bank := s.olderBank, image := r.img, faults := r.faultBuf, audits := r.auditBuf, sealKey := key }
    faultBuf := [], auditBuf := [], again := false, merged := false
    lastBegun := some s.clock, sinceFlush := 0, waitNow := r.waitNow ++ r.waitNext, waitNext := [] }
  (((s.setFld F.REC_STATUS_audit_count 0).setFld F.REC_STATUS_detail_count 0).lower F.REC_STATUS_audit_wait).raise
    F.REC_STATUS_flushing

/-- A trigger that is not merged: a flush begins, or one more follows the running one (R569). -/
def State.flushTrigger (s : State) : State :=
  if !(s.powered 11 && s.flag F.REC_STATUS_loaded) then s
  else if s.recd.flush.isSome then s.modRec fun r => { r with again := true }
  else s.flushBegin 0

/-- A trigger that acts at most once per second: within 1 s of the last flush's start it is merged (R569). -/
def State.flushSoon (s : State) : State :=
  match s.recd.lastBegun with
  | some t => if s.clock < t + 1000000000 then s.modRec fun r => { r with merged := true } else s.flushTrigger
  | none => s.flushTrigger

/-- A detail entry for the fault log; with 32 entries waiting it is lost (R565 to R567). -/
def State.faultEntry (s : State) (type origin : Nat) (content : List Byte) : State :=
  if !s.powered 11 then s
  else if 32 ≤ s.recd.faultBuf.length then
    ((s.life 44).bump 17 3).raise F.REC_INT_STAT_detail_lost
  else
    let i := s.recd.img
    let e := s.logEntry type origin i.faultSeq content
    let s := s.modRec fun r => { r with
      faultBuf := r.faultBuf ++ [(i.nextFault, e)]
      img := { r.img with nextFault := (i.nextFault + 1) % 1024, faultSeq := (i.faultSeq + 1) % 2 ^ 32 } }
    let s := (s.bump 17 2).setFld F.REC_STATUS_detail_count s.recd.faultBuf.length
    if s.recd.faultBuf.length = 16 then s.flushTrigger else s

/-- There is room for the audit entry of a protected change (R568). -/
def State.auditRoom (s : State) : Bool := s.recd.auditBuf.length < 32

/-- The audit entry of a protected change that finds room (R564). -/
def State.audit (s : State) (type origin : Nat) (content : List Byte) : State :=
  if !s.powered 11 then s
  else
    let i := s.recd.img
    let e := s.logEntry type origin i.auditSeq content
    let s := s.modRec fun r => { r with
      auditBuf := r.auditBuf ++ [(i.nextAudit, e)]
      img := { r.img with nextAudit := (i.nextAudit + 1) % 7168, auditSeq := (i.auditSeq + 1) % 2 ^ 32 } }
    let s := (s.bump 17 4).setFld F.REC_STATUS_audit_count s.recd.auditBuf.length
    if s.recd.auditBuf.length = 16 then s.flushTrigger else s

/-- A protected change waits for room in the audit buffer (R568). -/
def State.auditWait (s : State) : State :=
  if s.flag F.REC_STATUS_audit_wait then s
  else ((s.bump 17 5).raise F.REC_STATUS_audit_wait).raise F.REC_INT_STAT_audit_wait

end Sys2Proof.Machine
end

