-- ==== Sys2Proof/Machine/Memory.lean ====
section
/-! DEFINITION. The memories, their error correction and the firewall (R321 to R345), and the commands that act on
them: MEMORY_READ, MEMORY_WRITE, SCRUB_READ, FWL_COMMIT, FWL_FENCE_DRAINED, FWL_LOCK and DISP_LAT_READ. -/

namespace Sys2Proof.Machine

/-! ## Bytes -/

/-- What a byte of memory that nothing has written reads as (assumption 3). -/
def emptyByte (_ : Nat) : Byte := 0

/-- The stored byte at `a`. -/
def Mem.byte (m : Mem) (a : Nat) : Byte := Sparse.get emptyByte m.cells a

/-- `n` stored bytes from `a`. -/
def Mem.bytes (m : Mem) (a n : Nat) : List Byte := (List.range n).map fun i => m.byte (a + i)

/-- The byte at `a` takes the value `b`; the list keeps its canonical form. -/
def Mem.put (m : Mem) (a : Nat) (b : Byte) : Mem := { m with cells := Sparse.set emptyByte m.cells a b }

/-- Bytes from `a` on. -/
def Mem.putBytes (m : Mem) : Nat → List Byte → Mem
  | _, [] => m
  | a, b :: bs => (m.put a b).putBytes (a + 1) bs

/-- The canonical form of the memory and of its error marks. -/
def Mem.wf (m : Mem) : Bool :=
  Sparse.wf emptyByte m.cells && Sparse.wf emptyByte m.tcm && Sparse.wf (fun _ => 0) m.flips &&
    Sparse.wf (fun _ => false) m.poison

/-! ## Regions -/

/-- The regions of R16; everything else is a hole (R321). -/
inductive Region where
  | dram | billet | mram | flash | setup
  deriving DecidableEq, Repr

/-- The region that holds an address. -/
def region (a : Nat) : Option Region :=
  if a < 0x100000000 then some .dram
  else if a < 0x103000000 then some .billet
  else if 0x180000000 ≤ a ∧ a < 0x182000000 then some .mram
  else if 0x200000000 ≤ a ∧ a < 0x210000000 then some .flash
  else if 0x300000000 ≤ a ∧ a < 0x301000000 then some .setup
  else none

/-- The domain that must be powered for the memory at `a` to answer. -/
def memDomain (a : Nat) : Nat :=
  match region a with
  | some .dram => 12
  | some .billet => if a < 0x101800000 then 28 else 29
  | some .mram => 11
  | some .flash => 27
  | _ => 13

/-- The index x of the memory at `a` in the counters of R346. -/
def memIndex (a : Nat) : Nat :=
  match region a with
  | some .billet => 1
  | some .mram => 2
  | _ => 0

/-- The index of a memory of the error counters (R346). -/
def MemSpace.index : MemSpace → Nat
  | .dram => 0 | .billet => 1 | .mram => 2 | .l2 => 3 | .tcm => 4

/-! ## The firewall -/

/-- A range with its rule number and masks. -/
structure FwlRule where
  number : Nat
  base   : Nat
  last   : Nat
  rmask  : Nat
  wmask  : Nat
  deriving DecidableEq, Repr

/-- The fixed rules of R340, numbered as FWL_DENY_INFO numbers them. -/
def fixedRules : List FwlRule :=
  [⟨65, 0x181F00000, 0x181FFFFFF, 0x8000, 0x8000⟩, ⟨66, 0x181E00000, 0x181EFFFFF, 0x1001F, 0x10000⟩,
   ⟨67, 0x102E80000, 0x102FFFFFF, 0x5F1F, 0x1000⟩,
   ⟨68, 0x100000000, 0x1009FFFFF, 0x011F, 0x0100⟩, ⟨69, 0x100A00000, 0x1013FFFFF, 0x021F, 0x0200⟩,
   ⟨70, 0x101800000, 0x1021FFFFF, 0x041F, 0x0400⟩, ⟨71, 0x102200000, 0x102BFFFFF, 0x081F, 0x0800⟩,
   ⟨72, 0x200000000, 0x20FFFFFFF, 0xFFFFFFFF, 0⟩]

/-- The active table's valid entry `e` as a rule (R341, R343). -/
def State.fwlEntry (s : State) (e : Nat) : Option FwlRule :=
  let w0 := s.regN (Reg.FWL_ACT_ENT e 0)
  if w0.testBit 31 then
    some ⟨e, bits w0 0 28 * 4096, bits (s.regN (Reg.FWL_ACT_ENT e 1)) 0 28 * 4096 + 4095,
      s.regN (Reg.FWL_ACT_ENT e 2), s.regN (Reg.FWL_ACT_ENT e 3)⟩
  else none

/-- The fixed rule or the lowest entry that holds an address, by R339's steps 2 and 3. -/
def State.fwlHolder (s : State) (a : Nat) : Option FwlRule :=
  match fixedRules.find? (fun r => r.base ≤ a && a ≤ r.last) with
  | some r => some r
  | none => ((List.range 64).filterMap s.fwlEntry).find? (fun r => r.base ≤ a && a ≤ r.last)

/-- Initiators that may address the setup window (R325). -/
def State.mayUseSetup (s : State) (ini : Nat) : Bool := ini < 8 || (ini == 21 && !s.released)

/-- The number of the rule that refuses an access, or `none` if it is granted (R339, R340). -/
def State.judge (s : State) (ini a len : Nat) (write : Bool) : Option Nat :=
  match region a with
  | none => some 73
  | some .setup => if s.mayUseSetup ini then none else some 73
  | some _ =>
    let last := a + (max len 1 - 1)
    match s.fwlHolder a with
    | some r => if last ≤ r.last && (if write then r.wmask else r.rmask).testBit ini then none else some r.number
    | none =>
      let mask := s.regN (if write then Reg.FWL_ACT_DEFAULT_W else Reg.FWL_ACT_DEFAULT_R)
      if mask.testBit ini && (s.fwlHolder last).isNone && region last == region a then none else some 64

/-- A refusal is counted, flagged, told to the Recorder, and recorded if it is the first since the flag was last
cleared (R342). -/
def State.deny (s : State) (ini a rule : Nat) (write : Bool) : State :=
  let info := ini + (b2n write) * 2 ^ 8 + rule * 2 ^ 9 + 2 ^ 16 * s.fld F.FWL_FENCE_gen
  let first := !s.flag F.FWL_INT_STAT_denied
  let s := ((s.bump 2 14).raise F.FWL_INT_STAT_denied).life 26
  let s := s.faultEntry 0x0207 ini (natLE 8 a ++ natLE 4 info)
  if first then
    ((s.setReg Reg.FWL_DENY_ADDR_LO (BitVec.ofNat 32 a)).setReg Reg.FWL_DENY_ADDR_HI
      (BitVec.ofNat 32 (bits a 32 8))).setReg Reg.FWL_DENY_INFO (BitVec.ofNat 32 info)
  else s

/-! ## Error correction -/

/-- What a read of a codeword finds. -/
inductive EccVerdict where
  | good | corrected | uncorrectable
  /-- Three or more bits in error that the code takes for a good or a correctable word. -/
  | missed
  deriving DecidableEq, Repr

/-- Words of the tightly coupled SRAM, and of the L2's copies, are keyed above every bus address. -/
def tcmKey : Nat := 2 ^ 40
def l2Key : Nat := 2 ^ 41

/-- The error mask of the codeword at word address `w`. -/
def Mem.flipMask (m : Mem) (w : Nat) : Nat := Sparse.get (fun _ => 0) m.flips w

/-- The verdict on the codeword at `w` (R326, R327). -/
def Mem.verdict (m : Mem) (w : Nat) : EccVerdict :=
  let f := m.flipMask w
  if Sparse.get (fun _ => false) m.poison w then .uncorrectable
  else match popCount 72 f with
    | 0 => .good
    | 1 => .corrected
    | 2 => .uncorrectable
    | _ => if Config.eccHeavyFound f then .uncorrectable else .missed

/-- MEM_ECC_LAST takes the record of an error (R326, R327). -/
def State.eccLast (s : State) (w x ini mask : Nat) (ue scrub : Bool) : State :=
  if !ue && s.flag F.MEM_ECC_LAST_INFO_valid && s.flag F.MEM_ECC_LAST_INFO_uncorrectable then s
  else
    let info := 2 ^ 31 + 2 ^ 30 * (b2n ue) + 2 ^ 29 * (b2n scrub) + 2 ^ 24 * (ini % 32) + 2 ^ 16 * x + (Config.eccSyndrome mask).toNat
    ((s.setReg Reg.MEM_ECC_LAST_ADDR_LO (BitVec.ofNat 32 w)).setReg Reg.MEM_ECC_LAST_ADDR_HI
      (BitVec.ofNat 32 (bits w 32 8))).setReg Reg.MEM_ECC_LAST_INFO (BitVec.ofNat 32 info)

/-- A corrected error in memory `x` is counted, recorded and flagged (R326). -/
def State.eccCorrected (s : State) (w x ini mask : Nat) (scrub : Bool) : State :=
  let s := ((s.bump 2 x).life (21 + x)).eccLast w x ini mask false scrub
  let s := if scrub then s.pmc 2 (70 + x) 0 else s
  s.raise F.MEM_INT_STAT_ce

/-- An uncorrectable error in memory `x` is counted, recorded, flagged and told to the Recorder, which flushes (R327,
R565, R569). -/
def State.eccUncorrectable (s : State) (w x ini mask : Nat) (scrub : Bool) : State :=
  let s := ((s.bump 2 (5 + x)).life (16 + x)).eccLast w x ini mask true scrub
  let s := s.raise F.MEM_INT_STAT_ue
  let s := s.faultEntry 0x0205 ini (natLE 8 (w % tcmKey) ++ natLE 4 (s.regN Reg.MEM_ECC_LAST_INFO))
  s.flushSoon

/-- One codeword is read: a single-bit error is corrected and written back, an uncorrectable one is reported (R326,
R327). The answer says whether the word could be read. The boot flash has a code of its own: what it cannot correct is a memory error,
and no counter of R346 is its. -/
def State.readWord (s : State) (w x ini : Nat) (scrub : Bool) : Bool × State :=
  match s.mem.verdict w with
  | .good => (true, s)
  | .missed => (true, s)
  | .corrected =>
    let f := s.mem.flipMask w
    let s := s.modMem fun m => { m with flips := Sparse.del m.flips w }
    (true, if region w = some .flash then s else s.eccCorrected w x ini f scrub)
  | .uncorrectable => (false, if region w = some .flash then s else s.eccUncorrectable w x ini (s.mem.flipMask w) scrub)

/-- The codewords are read one after another; the answer is true if every one could be read. -/
def State.readWords (s : State) (l : List Nat) (x ini : Nat) : Bool × State :=
  l.foldl (fun (acc : Bool × State) w =>
    let (ok, s) := acc.2.readWord w x ini false
    (acc.1 && ok, s)) (true, s)

/-- The word addresses that `len` bytes from `a` touch. -/
def wordsOf (a len : Nat) : List Nat :=
  (List.range ((a % 8 + len + 7) / 8)).map fun i => a / 8 * 8 + 8 * i

/-- What a codeword with key `w` returns that stores `bs`: a free value where a heavy error went unseen. -/
def Mem.seen (m : Mem) (w : Nat) (bs : List Byte) : List Byte :=
  match m.verdict w with
  | .missed => natLE 8 (Config.eccHeavyData (m.flipMask w)).toNat
  | _ => bs

/-- The data a word returns. -/
def Mem.wordBytes (m : Mem) (w : Nat) : List Byte := m.seen w (m.bytes w 8)

/-- The bytes from `a` of the words that `len` bytes touch, each word read by `f`. -/
def bytesOfWords (a len : Nat) (f : Nat → List Byte) : List Byte := (((wordsOf a len).flatMap f).drop (a % 8)).take len

/-- What an access to memory is answered with. -/
inductive MemAnswer where
  | data (bs : List Byte)
  /-- An uncorrectable error (R327), or a memory whose domain has no power. -/
  | error
  /-- The firewall refused it (R342). -/
  | denied
  deriving DecidableEq, Repr

/-- The status that an operation of several accesses ends with, after one more: that of the first that failed, 0 if none has (R302,
R327; assumption 95). -/
def MemAnswer.status (a : MemAnswer) (before : Nat) : Nat :=
  if before ≠ 0 then before
  else match a with | .data _ => 0 | .error => 0x09 | .denied => 0x0B

/-- The memories that the bytes from `a` to its last byte lie in have power. The setup window is no memory: a core reaches its registers by
accesses of their own (R7). -/
def State.memOn (s : State) (a len : Nat) : Bool :=
  region a != some .setup && s.powered (memDomain a) && s.powered (memDomain (a + (len - 1))) && s.powered 13

/-- A read by initiator `ini`, judged by the firewall and checked word by word (R326, R327, R339). -/
def State.readMem (s : State) (ini a len : Nat) : MemAnswer × State :=
  match s.judge ini a len false with
  | some rule => (.denied, s.deny ini a rule false)
  | none =>
    if !s.memOn a len then (.error, s)
    else
      let r := s.readWords (wordsOf a len) (memIndex a) ini
      (if r.1 then .data (bytesOfWords a len s.mem.wordBytes) else .error, r.2)

/-- The word of the flip test: MEM_FLIP_ADDR (R333). -/
def State.flipWord (s : State) : Nat := s.regN Reg.MEM_FLIP_ADDR_LO + 2 ^ 32 * bits (s.regN Reg.MEM_FLIP_ADDR_HI) 0 8

/-- The 72 mask bits of the flip test: data bits below, check bits from bit 64 (R333). -/
def State.flipMask (s : State) : Nat :=
  s.regN Reg.MEM_FLIP_MASK_LO + 2 ^ 32 * s.regN Reg.MEM_FLIP_MASK_HI + 2 ^ 64 * s.fld F.MEM_FLIP_CTRL_check_mask

/-- A full-word write stores a good codeword, flipped if the test is armed for that word, and ends any poison; what the L2 held of the
word is replaced (R290, R328, R333). -/
def State.storeWord (s : State) (w : Nat) : State :=
  let armed := s.flag F.MEM_FLIP_CTRL_arm && s.flipWord == w
  let mask := if armed then s.flipMask else 0
  let s := s.modMem fun m => { m with
    flips := Sparse.set (fun _ => 0) (Sparse.del m.flips (l2Key + w)) w mask
    poison := Sparse.del m.poison w }
  if armed then (s.lower F.MEM_FLIP_CTRL_arm).raise F.MEM_INT_STAT_flip_done else s

/-- The bytes of a write that fall in word `w`: the offset in the write and their number. -/
def wordPart (a len w : Nat) : Nat × Nat :=
  let lo := max a w
  let hi := min (a + len) (w + 8)
  (lo - a, hi - lo)

/-- One word of a write: whole words are stored, others read, merged and stored; a word whose read is uncorrectable
stays as it was (R329). -/
def State.writeWord (s : State) (ini a : Nat) (bs : List Byte) (w : Nat) : Bool × State :=
  let p := wordPart a bs.length w
  let (ok, s) := if p.2 = 8 then (true, s) else
    let (ok, s) := s.readWord w (memIndex w) ini false
    (ok, if ok && memIndex w == 0 then s.bump 2 13 else s)
  if ok then (true, (s.modMem fun m => m.putBytes (a + p.1) (sliceB bs p.1 p.2)).storeWord w) else (false, s)

/-- The bytes are written word by word after the firewall has granted the write. -/
def State.storeBytes (s : State) (ini a : Nat) (bs : List Byte) : Bool × State :=
  (wordsOf a bs.length).foldl (fun (acc : Bool × State) w =>
    let (ok, s) := acc.2.writeWord ini a bs w
    (acc.1 && ok, s)) (true, s)

/-- A write by initiator `ini`, judged by the firewall and carried out word by word (R329, R339). -/
def State.writeMem (s : State) (ini a : Nat) (bs : List Byte) : MemAnswer × State :=
  match s.judge ini a bs.length true with
  | some rule => (.denied, s.deny ini a rule true)
  | none =>
    if !s.memOn a bs.length then (.error, s)
    else
      let (ok, s) := s.storeBytes ini a bs
      (if ok then .data [] else .error, s)

/-- The words that a copy of an uncorrectable source writes hold the poison pattern (R328). -/
def State.poisonWords (s : State) (a len : Nat) : State :=
  s.modMem fun m => { m with
    poison := (wordsOf a len).foldl (fun p w => Sparse.set (fun _ => false) p w true) m.poison
    flips := (wordsOf a len).foldl Sparse.del m.flips }

/-- How a core sees the answer to its access. -/
def MemAnswer.toAnswer : MemAnswer → Answer
  | .data bs => if bs.isEmpty then .ok else .bytes bs
  | .error => .busError
  | .denied => .busError

/-- A physical upset flips stored bits of the codeword at `w` before it is read. -/
def State.upset (s : State) (w mask : Nat) : State :=
  s.modMem fun m => { m with flips := Sparse.set (fun _ => 0) m.flips w (m.flipMask w ^^^ (mask % 2 ^ 72)) }

/-- A display-class read took `ns` ns: the longest is held (R337), told to the Recorder as extreme 8 and to the
monitors (R580). -/
def State.displayLatency (s : State) (ns : Nat) : State :=
  let s := s.setReg Reg.MEM_DISP_LAT_MAX (BitVec.ofNat 32 (max ns (s.regN Reg.MEM_DISP_LAT_MAX)))
  let s := s.extreme 8 ns 0
  if 1000 < ns then s.pmc 2 69 0 else s

/-- The real-time pair is held in reset: no access of initiator 4 leaves it (R291). -/
def State.pairHeld (s : State) (ini : Nat) : Bool := ini == 4 && s.flag F.HRT_STATUS_rt_reset

/-- The data of a word of the tightly coupled SRAM, and of the L2's copy of a word. -/
def Mem.tcmWord (m : Mem) (w : Nat) : List Byte :=
  m.seen (tcmKey + w) ((List.range 8).map fun i => Sparse.get emptyByte m.tcm (w + i))
def Mem.l2Word (m : Mem) (w : Nat) : List Byte := m.seen (l2Key + w) (m.bytes w 8)

/-- A mismatch of the real-time pair or an uncorrectable error in its SRAM: writes stop, the pair is held in reset, and
its vectors in service are released (R291). -/
def State.lockstepError (s : State) : State :=
  let s := ((s.raise F.HRT_INT_STAT_lockstep).bump 1 5).life 15
  let s := (s.raise F.HRT_STATUS_rt_reset).modHrt fun h => { h with inService := h.inService.filter (·.2 != 4) }
  (s.faultEntry 0x0206 4 []).flushSoon

/-! ## Commands -/

/-- MEMORY_READ (R326, R327, R339): a read by `ini` of the tightly coupled SRAM or of the bus. `upset` names codeword
bits of the first word that a physical event has flipped; with `l2` they lie in the L2's copy of the line. `latency`, not
0, is the answer time of a display-class read in ns. A pair held in reset reads nothing (R291). -/
def execMemoryRead (ini : Nat) (tcm : Bool) (addr len : Nat) (l2 : Bool) (upset latency : Nat) (s : State) : Result :=
  if s.pairHeld ini then done (s.answerWith .busError)
  else if tcm then
    if ini ≠ 4 ∨ !s.powered 4 then done (s.answerWith .busError)
    else
      let s := if upset = 0 then s else s.upset (tcmKey + addr / 8 * 8) upset
      let r := s.readWords ((wordsOf addr len).map (tcmKey + ·)) 4 ini
      if r.1 then done (r.2.answerWith (.bytes (bytesOfWords addr len s.mem.tcmWord)))
      else done (r.2.lockstepError.answerWith .busError)
  else if l2 then
    match s.judge ini addr len false with
    | some rule => done ((s.deny ini addr rule false).answerWith .busError)
    | none =>
      if !(s.powered 9 && s.memOn addr len) then done (s.answerWith .busError)
      else
        let s := if upset = 0 then s else s.upset (l2Key + addr / 8 * 8) upset
        let r := s.readWords ((wordsOf addr len).map (l2Key + ·)) 3 ini
        done (r.2.answerWith (if r.1 then .bytes (bytesOfWords addr len s.mem.l2Word) else .busError))
  else
    let s := if upset = 0 then s else s.upset (addr / 8 * 8) upset
    let (a, s) := s.readMem ini addr len
    let s := if latency ≠ 0 ∧ 8 ≤ ini ∧ ini < 12 ∧ a matches .data _ then s.displayLatency latency else s
    done (s.answerWith a.toAnswer)

/-- One word of a write to the tightly coupled SRAM, as R329 has it. -/
def State.writeTcmWord (s : State) (a : Nat) (bs : List Byte) (w : Nat) : Bool × State :=
  let p := wordPart a bs.length w
  let (ok, s) := if p.2 = 8 then (true, s) else s.readWord (tcmKey + w) 4 4 false
  if ok then (true, s.modMem fun m => { m with
    tcm := (List.range p.2).foldl (fun c i => Sparse.set emptyByte c (a + p.1 + i) (nth bs (p.1 + i) 0)) m.tcm
    flips := Sparse.del m.flips (tcmKey + w) })
  else (false, s)

/-- A write to the tightly coupled SRAM, word by word; an uncorrectable error resets the pair (R291, R329). -/
def State.writeTcm (s : State) (a : Nat) (bs : List Byte) : State :=
  let r := (wordsOf a bs.length).foldl (fun (acc : Bool × State) w =>
    let (ok, s) := acc.2.writeTcmWord a bs w
    (acc.1 && ok, s)) (true, s)
  if r.1 then r.2.answerWith .ok else r.2.lockstepError.answerWith .busError

/-- MEMORY_WRITE (R328, R329, R333, R339): a write by `ini`; `poisoned` when an engine copies a word that it read as
uncorrectable, or when the L2 evicts one. A pair held in reset writes nothing (R291). -/
def execMemoryWrite (ini : Nat) (tcm : Bool) (addr : Nat) (data : List Byte) (poisoned : Bool) (s : State) : Result :=
  if s.pairHeld ini then done (s.answerWith .busError)
  else if tcm then
    if ini ≠ 4 ∨ !s.powered 4 then done (s.answerWith .busError)
    else done (s.writeTcm addr data)
  else
    let (a, s) := s.writeMem ini addr data
    let s := if poisoned && a matches .data _ then s.poisonWords addr data.length else s
    done (s.answerWith a.toAnswer)

/-- The base and the size in words of a scrubbed memory (R331). -/
def scrubRange (x : Nat) : Nat × Nat :=
  match x with
  | 0 => (0, 0x20000000)
  | 1 => (0x100000000, 0x600000)
  | _ => (0x180000000, 0x400000)

/-- SCRUB_READ (R331): the scrub and repair engine, initiator 22, reads the next word of memory `x`. The staging pools
are passed over while a stream is started. -/
def execScrubRead (x upset : Nat) (s : State) : Result :=
  let (base, n) := scrubRange x
  let pos := nth s.mem.scrubPos x 0
  let w := base + 8 * pos
  let staging := x == 1 && s.fld F.ANV_INGEST_STATUS_started != 0 && fixedRules.any fun r => 68 ≤ r.number && r.number ≤ 71 && r.base ≤ w && w ≤ r.last
  if x < 3 ∧ s.flag (F.MEM_SCRUB_CFG_enable x) ∧ s.powered 13 ∧ s.powered (memDomain w) then
    let s := if upset = 0 then s else s.upset w upset
    let s := if staging then s else (s.readWord w x 22 true).2
    let s := s.modMem fun m => { m with scrubPos := m.scrubPos.set x ((pos + 1) % n) }
    done (if pos + 1 = n then s.bump 2 (10 + x) else s)
  else done s

/-- The lowest valid shadow entry whose limit lies below its base (R343). -/
def State.fwlBadEntry (s : State) : Option Nat :=
  (List.range 64).find? fun e =>
    (s.regN (Reg.FWL_ENT e 0)).testBit 31 &&
      bits (s.regN (Reg.FWL_ENT e 1)) 0 28 < bits (s.regN (Reg.FWL_ENT e 0)) 0 28

/-- The shadow table becomes the active table whole (R343). -/
def State.fwlActivate (s : State) : State :=
  let s := (List.range 256).foldl (fun s i =>
    s.setReg (Reg.FWL_ACT_ENT (i / 4) (i % 4)) (s.reg (Reg.FWL_ENT (i / 4) (i % 4)))) s
  (s.setReg Reg.FWL_ACT_DEFAULT_R (s.reg Reg.FWL_DEFAULT_R)).setReg Reg.FWL_ACT_DEFAULT_W (s.reg Reg.FWL_DEFAULT_W)

/-- A commit is refused for entry `e` (R343). -/
def State.commitRefused (s : State) (e : Nat) : State :=
  (((s.setFld F.FWL_COMMIT_bad_entry e).lower F.FWL_COMMIT_go).raise F.FWL_INT_STAT_commit_refused).bump 2 16

/-- The effect of FWL_COMMIT.go by initiator `ini`: the shadow is checked; a good one waits for room in the audit buffer
and becomes active (R343 to R345, R568). -/
def State.fwlCommit (s : State) (ini : Nat) : State :=
  match s.fwlBadEntry with
  | some e => s.commitRefused e
  | none =>
    if !s.auditRoom then (s.raise F.FWL_COMMIT_go).auditWait
    else
      let s := (s.fwlActivate.wrapFld F.FWL_FENCE_gen).bump 2 15
      let s := (s.lower F.FWL_FENCE_drained).lower F.FWL_COMMIT_go
      s.audit 0x0101 ini (natLE 2 (s.fld F.FWL_FENCE_gen))

/-- Writes to the shadow table, its defaults and FWL_COMMIT are refused to all but initiator 4 while locked; the refusal
is counted in denied and recorded with rule 74 (R345). -/
def State.fwlLocked (s : State) (ini : Nat) : Bool := s.flag F.FWL_CFG_lock && ini != 4

/-- FWL_CFG.lock is set: a protected change (R345, R564). -/
def State.fwlLock (s : State) (ini : Nat) (w : Word) : State :=
  if fieldOf F.FWL_CFG_lock w = 1 ∧ !s.flag F.FWL_CFG_lock then
    if s.auditRoom then (s.raise F.FWL_CFG_lock).audit 0x0102 ini [0] else s.auditWait
  else s

/-- A setup-window access by `ini` at offset `a`: refused as at a hole where R325 does not allow it, answered with a bus
error where the block has no power (R292), otherwise carried out. The real-time pair makes none while it is held in reset (R291). -/
def State.setupAccess (s : State) (ini a : Nat) (write : Bool) (k : State → State) : State :=
  if !s.mayUseSetup ini then (s.deny ini (0x300000000 + a) 73 write).answerWith .busError
  else if !s.blockOn a || s.pairHeld ini then s.answerWith .busError
  else k (s.answerWith .ok)

/-- The write of FWL_COMMIT. -/
def State.fwlCommitWrite (s : State) (ini : Nat) (w : Word) : State :=
  if s.fwlLocked ini then s.deny ini (0x300000000 + Reg.FWL_COMMIT) 74 true
  else if fieldOf F.FWL_COMMIT_go w = 1 then s.fwlCommit ini else s

def execFwlCommit (ini : Nat) (w : Word) (s : State) : Result :=
  done (s.setupAccess ini Reg.FWL_COMMIT true fun s => s.fwlCommitWrite ini w)

/-- FWL_FENCE_DRAINED (R344): no access judged under an earlier table is outstanding. -/
def execFwlFenceDrained (s : State) : Result := done (s.raise F.FWL_FENCE_drained)

def execFwlLock (ini : Nat) (w : Word) (s : State) : Result :=
  done (s.setupAccess ini Reg.FWL_CFG true fun s => s.fwlLock ini w)

/-- A read of MEM_DISP_LAT_MAX returns the longest latency and sets it to 0 (R337). -/
def State.dispLatRead (s : State) : State :=
  (s.answerWith (.word (s.reg Reg.MEM_DISP_LAT_MAX))).setReg Reg.MEM_DISP_LAT_MAX 0

def execDispLatRead (ini : Nat) (s : State) : Result :=
  done (s.setupAccess ini Reg.MEM_DISP_LAT_MAX false State.dispLatRead)

end Sys2Proof.Machine
end

