-- ==== Sys2Proof/Machine/Rings.lean ====
section
/-! DEFINITION. Descriptor rings and report rings: taking a descriptor, writing a completion, and the report rings
that the module alone produces (R293 to R305). -/

namespace Sys2Proof.Machine

/-! ## Status codes (R305) -/

def Status.ok : Nat := 0x00
def Status.discarded : Nat := 0x01
def Status.late : Nat := 0x02
def Status.formatError : Nat := 0x03
def Status.refused : Nat := 0x04
def Status.busy : Nat := 0x05
def Status.tableFull : Nat := 0x06
def Status.notFound : Nat := 0x07
def Status.keyRefused : Nat := 0x08
def Status.memoryError : Nat := 0x09
def Status.timeout : Nat := 0x0A
def Status.accessDenied : Nat := 0x0B
def Status.authFailed : Nat := 0x0C

/-- A command done as asked. -/
def okCpl : Cpl := { status := Status.ok }

/-- FORMAT_ERROR naming the offset of the bad field (R305, R153). -/
def badField (off : Nat) : Cpl := { status := Status.formatError, w1 := off }

/-- FORMAT_ERROR as ring `n` reports it: the Network's chapter names no offset, and word 1 of its commands is 0 (R123, R305). -/
def formatErrorAt (n off : Nat) : Cpl := if n = 0x38 then { status := Status.formatError } else badField off

/-- A refusal on state: REFUSED with 0xFF in word 1 (R305, R153). -/
def refusedState : Cpl := { status := Status.refused, w1 := 0xFF }

/-! ## Which engine serves a ring (R293, R325) -/

/-- The initiator ID and the domains of the engine of a ring. -/
def ringEngine (n : Nat) : Nat × List Nat :=
  if n ≤ 0x09 then (15, [10])
  else if n = 0x18 then (23, [1])
  else if n ≤ 0x4F then (13, [22, 23, 24])
  else if n = 0x50 then (20, [27])
  else if n = 0x58 then (16, [11])
  else if n = 0x60 then (5, [14, 15, 16, 17])
  else if n = 0x70 then (12, [18, 19, 20, 21])
  else if n = 0x80 then (14, [25])
  else if n = 0xA0 then (18, [2])
  else (19, [24])

/-- The engine of ring `n` has power. -/
def State.engineOn (s : State) (n : Nat) : Bool := (ringEngine n).2.any s.powered

/-- The opcodes of a command ring; the transmit and receive rings of the Network have none. -/
def ringOpcodes (n : Nat) : Option (List Nat) :=
  match n with
  | 0x08 => some [1, 2, 3, 4, 5, 6, 7]
  | 0x09 => some [0x11, 0x12, 0x13, 0x14, 0x15, 0x16]
  | 0x18 => some [1, 2, 3]
  | 0x38 => some [1, 2, 3, 4, 5, 6]
  | 0x50 => some [1, 2, 3, 4, 5, 6]
  | 0x58 => some [1, 2]
  | 0x60 => some [1, 2, 3, 4, 5, 6, 7, 8, 9, 10, 11]
  | 0x70 => some [1, 2, 3, 4, 5, 6, 7, 8]
  | 0x80 => some [1, 2, 3, 4]
  | 0xA0 => some [1, 2, 3, 4]
  | 0xB0 => some [1, 2, 3]
  | _ => none

/-! ## Completions -/

def State.descBase (s : State) (n : Nat) : Nat :=
  s.regN (Reg.HRT_RING_DESC_BASE_LO n) + 2 ^ 32 * s.fld (F.HRT_RING_DESC_BASE_HI_base_hi n)

def State.cplBase (s : State) (n : Nat) : Nat :=
  s.regN (Reg.HRT_RING_CPL_BASE_LO n) + 2 ^ 32 * s.fld (F.HRT_RING_CPL_BASE_HI_base_hi n)

/-- An index of ring `n` that has grown by one (R295). -/
def State.ringNext (s : State) (n i : Nat) : Nat := (i + 1) % s.ringMod n

/-- The 16 bytes of a completion entry: status, engine bits, phase and slot in word 0 (R299, R304). -/
def cplBytes (c : Cpl) (phase : Bool) (slot : Nat) : List Byte :=
  natLE 4 (c.status + c.w0 + (b2n phase) * 2 ^ 15 + 2 ^ 16 * slot) ++ natLE 4 c.w1 ++ natLE 4 c.w2 ++ natLE 4 c.w3

/-- A completion entry is written with one 16-byte write, its phase bit 1 while the wrap bit of the completion producer
index is 0 (R299). -/
def State.writeCpl (s : State) (n slot : Nat) (c : Cpl) : State :=
  let head := s.regN (Reg.HRT_RING_CPL_HEAD n)
  let size := s.ringSize n
  let s := (s.writeMem (ringEngine n).1 (s.cplBase n + 16 * (head % size)) (cplBytes c (head < size) slot)).2
  s.setReg (Reg.HRT_RING_CPL_HEAD n) (BitVec.ofNat 32 (s.ringNext n head))

/-- A descriptor read that failed, or a firewall refusal, is flagged and counted (R302). -/
def State.descError (s : State) : State := (s.raise F.HRT_INT_STAT_desc_error).bump 1 3

/-- The completions of a ring are written in the order of its descriptors, as far as they have ended. -/
def State.drainCpl (n : Nat) : List Inflight → State → List Inflight × State
  | [], s => ([], s)
  | i :: l, s =>
    if i.ring = n then
      match i.cpl with
      | some c => State.drainCpl n l (s.writeCpl n i.slot c)
      | none => (i :: l, s)
    else
      let (l', s') := State.drainCpl n l s
      (i :: l', s')

/-- The command in slot `slot` of ring `n` has ended with `c`. -/
def State.finish (s : State) (n slot : Nat) (c : Cpl) : State :=
  let s := if c.status = Status.accessDenied then s.descError else s
  let l := s.hrt.inflight.map fun i => if i.ring = n ∧ i.slot = slot ∧ i.cpl.isNone then { i with cpl := some c } else i
  let (l, s) := State.drainCpl n l s
  s.modHrt fun h => { h with inflight := l }

/-! ## Taking descriptors -/

/-- Descriptors that wait in ring `n`. -/
def State.waiting (s : State) (n : Nat) : Nat :=
  s.ringDiff n (s.regN (Reg.HRT_RING_PROD n)) (s.regN (Reg.HRT_RING_CONS n))

/-- The slot and the address of the next descriptor. -/
def State.headSlot (s : State) (n : Nat) : Nat := s.regN (Reg.HRT_RING_CONS n) % s.ringSize n
def State.headAddr (s : State) (n : Nat) : Nat := s.descBase n + 32 * s.headSlot n

/-- The completion ring of ring `n` is full (R300). -/
def State.cplFull (s : State) (n : Nat) : Bool := s.unreleased n == s.ringSize n

/-- The engine waits for room in the completion ring: counted once per wait (R300). -/
def State.cplStall (s : State) (n : Nat) : State :=
  if s.hrt.stalled.contains n then s
  else ((s.raise F.HRT_INT_STAT_cpl_stall).bump 1 4).modHrt fun h => { h with stalled := n :: h.stalled }

/-- The consumer index moves past the head descriptor, which the engine now holds (R298). -/
def State.takeHead (s : State) (n : Nat) (desc : List Byte) : State :=
  let slot := s.headSlot n
  (s.setReg (Reg.HRT_RING_CONS n) (BitVec.ofNat 32 (s.ringNext n (s.regN (Reg.HRT_RING_CONS n))))).modHrt
    fun h => { h with inflight := h.inflight ++ [{ ring := n, slot := slot, desc := desc }], stalled := h.stalled.filter (· != n) }

/-- The head descriptor, when the engine may take it: the ring is enabled, its engine powered, a descriptor waits and the
completion ring has room. -/
def State.canTake (s : State) (n : Nat) : Bool :=
  s.ringEnabled n && s.engineOn n && s.powered 4 && 0 < s.waiting n && !s.cplFull n

/-- The head descriptor is read. A read that fails completes with MEMORY_ERROR, one that is refused with ACCESS_DENIED
(R302). -/
def State.readHead (s : State) (n : Nat) : Option (List Byte) × State :=
  let (a, s) := s.readMem (ringEngine n).1 (s.headAddr n) 32
  match a with
  | .data bs => (some bs, s)
  | .error =>
    let slot := s.headSlot n
    (none, ((s.takeHead n []).descError).finish n slot { status := Status.memoryError })
  | .denied =>
    let slot := s.headSlot n
    (none, (s.takeHead n []).finish n slot { status := Status.accessDenied })

/-- Head descriptors that cannot be read, or whose opcode the ring does not know, complete at once (R302, R305). -/
def State.settleHead (n : Nat) : Nat → State → State
  | 0, s => s
  | fuel + 1, s =>
    match ringOpcodes n with
    | none => s
    | some ops =>
      if s.ringEnabled n && s.engineOn n && 0 < s.waiting n && s.cplFull n then s.cplStall n
      else if !s.canTake n then s
      else
        let slot := s.headSlot n
        match s.readHead n with
        | (some desc, s') =>
          if ops.contains (byteAt desc 0) then s
          else State.settleHead n fuel ((s'.takeHead n desc).finish n slot (formatErrorAt n 0x80))
        | (none, s') => State.settleHead n fuel s'

/-- The engine looks at its ring again. -/
def State.settle (s : State) (n : Nat) : State := State.settleHead n (s.waiting n + 1) s

/-- The engine of command ring `n` takes the head descriptor if its opcode is `op`, and runs it: `k` is given the slot
and the descriptor and answers the completion, or none for a command that ends later. A ring whose head is another
command, or that the engine may not take from, is left as it is (assumption 10). -/
def State.takeCommand (s : State) (n op : Nat) (k : Nat → List Byte → State → Option Cpl × State) : State :=
  let s := s.settle n
  if !s.canTake n then s
  else
    let slot := s.headSlot n
    match s.readHead n with
    | (none, s') => s'
    | (some desc, s') =>
      if byteAt desc 0 ≠ op then s
      else
        let (c, s'') := k slot desc (s'.takeHead n desc)
        match c with
        | some c => (s''.finish n slot c).settle n
        | none => s''

/-- The parameter block that bytes 8 to 15 of a descriptor name, of which the command reads `len` bytes: the block, or the completion
that its address or its read gives (R153, R302). -/
def State.readBlock (s : State) (n : Nat) (desc : List Byte) (len : Nat := 64) : Except Cpl (List Byte) × State :=
  let a := le desc 8 8
  if a % 64 ≠ 0 ∨ 2 ^ 40 ≤ a then (.error (formatErrorAt n 0x88), s)
  else
    let (r, s) := s.readMem (ringEngine n).1 a len
    match r with
    | .data bs => (.ok bs, s)
    | .error => (.error { status := Status.memoryError }, s)
    | .denied => (.error { status := Status.accessDenied }, s)

/-- A command with a parameter block: `k` runs on the block that was read. -/
def State.withBlock (s : State) (n : Nat) (desc : List Byte) (k : List Byte → State → Option Cpl × State) (len : Nat := 64) :
    Option Cpl × State :=
  match s.readBlock n desc len with
  | (.ok b, s) => k b s
  | (.error c, s) => (some c, s)

/-- The first check of a list that fails gives its offset; none if all hold. -/
def firstBad (checks : List (Bool × Nat)) : Option Nat := (checks.find? (fun c => !c.1)).map (·.2)

/-- The in-flight descriptor of ring `n` with opcode `op` that has been held longest. -/
def State.inflightOp (s : State) (n op : Nat) : Option Inflight :=
  s.hrt.inflight.find? fun i => i.ring == n && byteAt i.desc 0 == op && i.cpl.isNone

/-! ## Report rings: the rings that the module alone produces, set up by their own five registers. -/

/-- The registers of a report ring at `b`: BASE_LO, BASE_HI, CFG, HEAD, TAIL. -/
def State.rptEnabled (s : State) (b : Nat) : Bool := (s.regN (b + 8)).testBit 31
def State.rptSize (s : State) (b : Nat) : Nat := 2 ^ bits (s.regN (b + 8)) 0 5
def State.rptBase (s : State) (b : Nat) : Nat := s.regN b + 2 ^ 32 * bits (s.regN (b + 4)) 0 8
def State.rptUsed (s : State) (b : Nat) : Nat :=
  (s.regN (b + 12) + 2 * s.rptSize b - s.regN (b + 16) % (2 * s.rptSize b)) % (2 * s.rptSize b)

/-- Word 0 of an entry with the phase bit of the report ring at `b` in bit 15. -/
def State.rptPhase (s : State) (b : Nat) (entry : List Byte) : List Byte :=
  putLE entry 0 4 (le entry 0 4 + (b2n (s.regN (b + 12) < s.rptSize b)) * 2 ^ 15)

/-- An entry is written to the report ring at `b` by initiator `ini`. The answer is true when it is lost: the ring is full, or
the write is refused or fails; then the head does not advance. While the ring is disabled nothing is written and nothing
lost (R156). -/
def State.report (s : State) (b ini : Nat) (entry : List Byte) : Bool × State :=
  if !s.rptEnabled b then (false, s)
  else if s.rptUsed b == s.rptSize b then (true, s)
  else
    let head := s.regN (b + 12)
    let (a, s) := s.writeMem ini (s.rptBase b + entry.length * (head % s.rptSize b)) (s.rptPhase b entry)
    match a with
    | .data _ => (false, s.setReg (b + 12) (BitVec.ofNat 32 ((head + 1) % (2 * s.rptSize b))))
    | _ => (true, s)

end Sys2Proof.Machine
end

