-- ==== Sys2Proof/Machine/Rails.lean ====
section
/-! DEFINITION. LED rail groups (R366 to R373): RAIL_CFG, RAIL_SET, the tracking round, the hold-off and the slewing of
v_now. -/

namespace Sys2Proof.Machine

/-- Group `g`, unless it is in OFF. -/
def State.rail (s : State) (g : Nat) : Option Rail := (s.blw.rails.find? fun r => r.1 == g).map (·.2)

def State.setRail (s : State) (g : Nat) (r : Rail) : State := s.modBlw fun b => { b with rails := Sparse.put b.rails g r }

/-- Fields of a RAIL_CFG block (R372). -/
def railMode (b : List Byte) : Nat := byteAt b 1
def railMin (b : List Byte) : Nat := le b 8 2
def railMax (b : List Byte) : Nat := le b 10 2
def railUp (b : List Byte) : Nat := le b 12 2
def railDown (b : List Byte) : Nat := le b 14 2
def railHTarget (b : List Byte) : Nat := le b 16 2
def railHBand (b : List Byte) : Nat := le b 18 2
def railStep (b : List Byte) : Nat := le b 20 2
def railRegain (b : List Byte) : Nat := le b 22 2
def railStart (b : List Byte) : Nat := le b 28 2

def State.railTarget (s : State) (g : Nat) : Nat := s.fld (F.BLW_RAIL_STATUS_target g)

/-- The status registers follow v_now and the target (R367). -/
def State.showRail (s : State) (g : Nat) (r : Rail) (target : Nat) : State :=
  let s := (s.setRail g r).setReg (Reg.BLW_RAIL_STATUS g) (BitVec.ofNat 32 (r.fine / 100 + 65536 * target))
  s.setFld (F.BLW_RAIL_MODE_slewing g) (b2n (r.fine / 100 != target))

/-- Group `g` reverts to OFF (R368). -/
def State.railOff (s : State) (g : Nat) : State :=
  ((s.modBlw fun b => { b with rails := Sparse.del b.rails g }).setReg (Reg.BLW_RAIL_STATUS g) 0).setReg (Reg.BLW_RAIL_MODE g) 0

def State.railsOff (s : State) : State := (s.blw.rails.map (·.1)).foldl State.railOff s

/-- The first field of a RAIL_CFG block that is out of range (R372, R373). -/
def railBad (b : List Byte) : Option Nat :=
  let inside (o lo hi : Nat) : Bool := lo ≤ le b o 2 && le b o 2 ≤ hi
  firstBad [(byteAt b 0 < 16, 0), (railMode b ≤ 2, 1), (byteAt b 2 ≤ 1, 2), (inside 8 1000 24000, 8),
    (inside 10 (railMin b) 24000, 10), (inside 12 1 1000, 12), (inside 14 1 1000, 14), (inside 16 50 2000, 16),
    (inside 18 10 1000, 18), (inside 20 1 1000, 20), (inside 22 0 2000, 22), (inside 24 1 1000, 24),
    (inside 26 0 60000, 26), (inside 28 (railMin b) (railMax b), 28)]

/-- A good RAIL_CFG takes effect: a group leaving OFF starts at v_start; one that is on keeps v_now and clamps its target
(R373). -/
def State.railCfg (s : State) (b : List Byte) : State :=
  let g := byteAt b 0
  if railMode b = 0 then s.railOff g
  else
    let (r, target) := match s.rail g with
      | some r => ({ r with block := b }, max (railMin b) (min (railMax b) (s.railTarget g)))
      | none => ({ block := b, fine := 100 * railStart b : Rail }, railStart b)
    ((s.showRail g r target).setFld (F.BLW_RAIL_MODE_mode g) (railMode b)).lower (F.BLW_RAIL_MODE_at_limit g)

/-- RAIL_CFG (R366, R368, R372, R373): FIXED and TRACK need READY or LIT. -/
def execRailCfg (s : State) : Result :=
  done (s.takeCommand 0x18 0x01 fun _ desc s => s.withBlock 0x18 desc fun b s =>
    match railBad b with
    | some o => (some (badField o), s)
    | none =>
      if railMode b ≠ 0 ∧ s.fld F.BLW_STATUS_state < 2 then (some refusedState, s)
      else (some okCpl, s.railCfg b))

/-- RAIL_SET (R372): the target in FIXED, h_target in TRACK. -/
def execRailSet (s : State) : Result :=
  done (s.takeCommand 0x18 0x02 fun _ desc s =>
    let g := byteAt desc 1
    let v := le desc 2 2
    if 16 ≤ g then (some (badField 0x81), s)
    else match s.rail g with
      | none => (some refusedState, s)
      | some r =>
        if railMode r.block = 1 then
          if railMin r.block ≤ v ∧ v ≤ railMax r.block then (some okCpl, s.showRail g r v) else (some (badField 0x82), s)
        else if 50 ≤ v ∧ v ≤ 2000 then (some okCpl, s.setRail g { r with block := putLE r.block 16 2 v })
        else (some (badField 0x82), s))

/-- The least headroom of group `g` (R243). -/
def State.headroom (s : State) (g : Nat) : Option Int :=
  if s.flag (F.SCN_HEADROOM_valid g) then some (s.sfld (F.SCN_HEADROOM_headroom g)) else none

/-- The module sends setpoints and steers the rails itself: it is not a standby (R368). -/
def State.steersRails (s : State) : Bool := s.fld F.TWN_STATUS_role != 3

/-- The new target of a tracking round (R369). -/
def railRound (b : List Byte) (target vNow : Nat) (h : Int) (held : Bool) : Nat :=
  let ht : Int := railHTarget b
  if h < ht then min (railMax b) ((vNow : Int) + (ht - h)).toNat
  else if ht + (railHBand b : Nat) < h && !held then
    (max (railMin b : Int) ((vNow : Int) - min (h - ht) (railStep b : Nat))).toNat
  else target

/-- TRACKING_ROUND (R369): one round of group `g`, skipped while its headroom is not valid. -/
def execTrackingRound (g : Nat) (s : State) : Result :=
  match s.rail g, s.headroom g with
  | some r, some h =>
    if railMode r.block ≠ 2 ∨ !s.steersRails then done s
    else
      let t := railRound r.block (s.railTarget g) (r.fine / 100) h (s.flag (F.BLW_RAIL_MODE_holdoff g))
      let s := s.showRail g r t
      if t = railMax r.block ∧ h < (railHTarget r.block : Int) then
        done ((s.raise (F.BLW_RAIL_MODE_at_limit g)).raise F.BLW_INT_STAT_rail_limit)
      else done (s.lower (F.BLW_RAIL_MODE_at_limit g))
  | _, _ => done s

/-- A REG_LOST of a DK-16 in group `g` raises the target by regain and holds off lowering (R369). -/
def State.railRegLost (s : State) (g : Nat) : State :=
  match s.rail g with
  | none => s
  | some r =>
    if railMode r.block ≠ 2 ∨ !s.steersRails then s
    else
      let s := s.showRail g r (min (railMax r.block) (r.fine / 100 + railRegain r.block))
      ((s.raise (F.BLW_RAIL_MODE_holdoff g)).raise F.BLW_INT_STAT_reg_lost).bump 11 (6 + g)

/-- HOLDOFF_EXPIRY (R369): group `g` may be lowered again. -/
def execHoldoffExpiry (g : Nat) (s : State) : Result :=
  if (s.rail g).isSome then done (s.lower (F.BLW_RAIL_MODE_holdoff g)) else done s

/-- One 10 µs step of v_now towards the target (R367); a slew of 1 mV/ms is a hundredth of a millivolt a step. -/
def State.slewRail (s : State) (g : Nat) : State :=
  match s.rail g with
  | none => s
  | some r =>
    let t := 100 * s.railTarget g
    let f := if r.fine < t then min t (r.fine + railUp r.block) else max t (r.fine - railDown r.block)
    s.showRail g { r with fine := f } (s.railTarget g)

/-- SETPOINT_SLEW (R367): every 10 µs. -/
def execSetpointSlew (s : State) : Result := done ((s.blw.rails.map (·.1)).foldl State.slewRail s)

end Sys2Proof.Machine
end

