-- ==== Sys2Proof/Machine/Grid.lean ====
section
/-! DEFINITION. The canvas, the greyscale configuration and the chains as their parameter blocks hold them, the frame grid
(R138 to R140), the edge grid (R191), and what a period shows (R147, R148). Exact rationals are compared by cross
multiplication: a time of the grid is a number over p. -/

namespace Sys2Proof.Machine

/-! ## Parameter blocks -/

/-- CANVAS_SET (R154). -/
def canvasP (b : List Byte) : Nat := le b 0 4
def canvasQ (b : List Byte) : Nat := le b 4 2
def canvasRaw (b : List Byte) : Bool := byteAt b 6 == 1
def canvasSlots (b : List Byte) : Nat := byteAt b 7
def canvasWidth (b : List Byte) : Nat := le b 8 2
def canvasHeight (b : List Byte) : Nat := le b 10 2
def canvasLat (b : List Byte) : Nat := le b 12 4
def canvasTAdm (b : List Byte) : Nat := le b 16 4
def canvasMaxRepeat (b : List Byte) : Nat := le b 20 2
def canvasNeedLock (b : List Byte) : Bool := (byteAt b 22).testBit 0

/-- GREY_SET (R212). -/
def greyNSf (b : List Byte) : Nat := le b 0 2
def greyNB (b : List Byte) : Nat := byteAt b 2
def greySigma (b : List Byte) : Nat := byteAt b 3
def greyNLine (b : List Byte) : Nat := byteAt b 4
def greySLo (b : List Byte) : Nat := bits (byteAt b 5) 0 2
def greySHi (b : List Byte) : Nat := bits (byteAt b 5) 2 2
def greyTLsb (b : List Byte) : Nat := byteAt b 6
def greyTBlank (b : List Byte) : Nat := le b 8 2
def greyWMin (b : List Byte) : Nat := le b 12 4

/-- CHAIN_SET (R250). -/
def chainNDk (b : List Byte) : Nat := le b 0 2
def chainPixels (b : List Byte) : Nat := le b 4 4
def chainRate (b : List Byte) : Nat := byteAt b 8
def chainFlywheel (b : List Byte) : Nat := byteAt b 9
def chainNAnt (b : List Byte) : Nat := le b 10 2
def chainImages (b : List Byte) : Nat := le b 16 8
def chainRun (b : List Byte) (i : Nat) : Nat := le b (24 + 4 * i) 4

/-- t_char in 2^−6 ns: 5, 10 or 20 ns (R214). -/
def chainTChar (b : List Byte) : Nat := 320 * 2 ^ chainRate b

/-- The rail group of DK-16 `d`: that of the last valid run that starts at or before it (R243). -/
def chainGroup (b : List Byte) (d : Nat) : Option Nat :=
  ((List.range 4).reverse.find? fun i => (chainRun b i).testBit 13 && bits (chainRun b i) 0 9 ≤ d).map
    fun i => bits (chainRun b i) 9 4

/-- STREAM_SET (R154). -/
def streamRaw (b : List Byte) : Bool := byteAt b 0 == 1
def streamYuv (b : List Byte) : Bool := byteAt b 1 == 1
def streamDepth (b : List Byte) : Nat := byteAt b 2
def streamWidth (b : List Byte) : Nat := le b 12 2
def streamHeight (b : List Byte) : Nat := le b 14 2
def streamWin (b : List Byte) (i : Nat) : Nat := le b (16 + 2 * i) 2
def streamCx (b : List Byte) : Nat := le b 24 2
def streamCy (b : List Byte) : Nat := le b 26 2
def streamStage (b : List Byte) : Nat := le b 28 2
def streamPorts (b : List Byte) : Nat := le b 32 8

/-! ## The grid -/

/-- The grid of a canvas and a greyscale configuration. -/
def gridOf (c g : List Byte) : Grid :=
  { p := canvasP c, q := canvasQ c, lat := canvasLat c, tAdm := canvasTAdm c, nSf := greyNSf g, nB := greyNB g
    sigma := greySigma g, nLine := greyNLine g, tLsb := greyTLsb g, tBlank := greyTBlank g }

/-- The grid of the loaded canvas and greyscale configuration. -/
def State.grid (s : State) : Option Grid :=
  match s.anv.canvas, s.anv.grey with
  | some c, some g => some (gridOf c g)
  | _, _ => none

/-- The frame period in 2^−16 ns, over p. -/
def Grid.frame (g : Grid) : Nat := ns * (1000000 * g.q)

/-- G(k), P(k) and D(k) in 2^−16 ns, over p (R140). -/
def Grid.gNum (g : Grid) (k : Nat) : Int := (k * g.frame : Nat)
def Grid.pNum (g : Grid) (k : Nat) : Int := (k * g.frame + ns * g.lat * g.p : Nat)
def Grid.dNum (g : Grid) (k : Nat) : Int := g.pNum k - (ns * g.tAdm * g.p : Nat)

/-- Wall time `t` over p. -/
def Grid.at (g : Grid) (t : Nat) : Int := (t * g.p : Nat)

/-- How long it is from now to the grid time `num`, over p: modulo 2^32 s in wrap mode (R21, R22). -/
def State.till (s : State) (g : Grid) (num : Int) : Int :=
  let d := num - g.at s.wall
  let turn : Int := (2 ^ 32 * second * g.p : Nat)
  if s.wrap then (d + turn / 2) % turn - turn / 2 else d

/-- The grid time `num` has come. -/
def State.hasCome (s : State) (g : Grid) (num : Int) : Bool := s.till g num ≤ 0

/-- The wall time of a grid time, rounded up to a fraction step. -/
def Grid.wallUp (g : Grid) (num : Int) : Nat := ((num + (g.p : Int) - 1) / g.p).toNat

/-- P(k) as it is written out: rounded to the fraction (R138, R140). -/
def Grid.pWall (g : Grid) (k : Nat) : Nat := rne (g.pNum k).toNat g.p

def Grid.nPs (g : Grid) : Nat := 2 ^ g.sigma
def Grid.slots (g : Grid) : Nat := g.nSf * g.nPs * g.nLine

/-- E(k, j, i, l) rounded once to 2^−6 ns (R191): `slot` is (j × n_ps + i) × n_line + l. -/
def Grid.edge (g : Grid) (k slot : Nat) : Nat :=
  rne ((k * g.slots + slot) * (1000000 * g.q * 64) + g.lat * 64 * (g.p * g.slots)) (g.p * g.slots)

def Grid.slot (g : Grid) (j i l : Nat) : Nat := (j * g.nPs + i) * g.nLine + l

/-- The subframe rate is at most 7,680 Hz (R193). -/
def Grid.rateOk (g : Grid) : Bool := g.nSf * g.p * 1000 ≤ 7680 * g.q

/-- L ≥ t_adm + t_sf (R34), with t_sf = q × 10^6 / (p × n_sf) ns. -/
def Grid.latOk (g : Grid) : Bool := g.tAdm * g.p * g.nSf + 1000000 * g.q ≤ g.lat * g.p * g.nSf

/-- The line slot holds the blanking and the largest pulse (R194). -/
def Grid.slotOk (g : Grid) : Bool :=
  (g.tBlank + 2 ^ g.nB / g.nPs * g.tLsb) * (g.p * g.slots) ≤ 1000000 * g.q

/-- The least n with 2^n ≥ v. -/
def clog2 (v : Nat) : Nat := ((List.range 64).find? fun i => v ≤ 2 ^ i).getD 64

/-- The width of a grey word (R197). -/
def Grid.word (g : Grid) : Nat := 2 + g.nB + clog2 g.nSf

/-- t_load of a chain in ns, over 3 (R206): 16 × n_line × n_dk × w bits at 0.75 of the lane rate. -/
def Grid.load (g : Grid) (chain : List Byte) : Nat :=
  16 * g.nLine * chainNDk chain * g.word * 2 ^ (1 + chainRate chain)

/-- R207 for one chain. -/
def Grid.loadOk (g : Grid) (chain : List Byte) : Bool :=
  let t : Int := g.load chain
  t ≤ 3 * ((g.tAdm : Int) - 180000) && t * g.p ≤ 3 * ((1000000 * g.q : Nat) - 180000 * (g.p : Int))

/-! ## Streams and decisions -/

def State.anyStarted (s : State) : Bool := s.fld F.ANV_INGEST_STATUS_started != 0
def State.isStarted (s : State) (n : Nat) : Bool := (s.fld F.ANV_INGEST_STATUS_started).testBit n
def State.stream (s : State) (n : Nat) : Option Stream := (s.anv.streams.find? fun x => x.1 == n).map (·.2)

/-- The blocks of the started streams, with their numbers. -/
def State.startedStreams (s : State) : List (Nat × Stream) := s.anv.streams.filter fun x => s.isStarted x.1

/-- Stream `x` takes part in grid frame `k`: G(k) lies after its start (R127). -/
def Stream.takesPart (x : Stream) (g : Grid) (k : Nat) : Bool :=
  match x.started with
  | some t => g.at t < g.gNum k
  | none => false

/-- The streams that take part in frame `k`. -/
def State.takingPart (s : State) (g : Grid) (k : Nat) : List (Nat × Stream) :=
  s.startedStreams.filter fun x => x.2.takesPart g k

/-- The frame of the canvas with grid index `k`. -/
def State.frameRec (s : State) (k : Nat) : Option FrameRec := s.anv.frames.find? fun f => f.k == k

/-- The streams whose pixels make up frame `k`: those that take part, or took part when it was admitted (R127). -/
def State.parties (s : State) (g : Grid) (k : Nat) : List (Nat × Stream) :=
  ((s.frameRec k).bind (·.parties)).getD (s.takingPart g k)

/-- The decision of R142 on grid index `k`. -/
def State.decision (s : State) (k : Nat) : Option Nat := (s.anv.decisions.find? fun d => d.1 == k).map (·.2)

/-- Frame `k` is admitted and still to be lit, or being lit. -/
def State.admitted (s : State) (k : Nat) : Bool := s.decision k == some 0 && !s.anv.withdrawn.contains k

def State.maxRepeat (s : State) : Nat := match s.anv.canvas with | some c => canvasMaxRepeat c | none => 0

/-- The last admitted frame after the period being shown and before `k`. -/
def State.lastAdmitted (s : State) (k : Nat) : Option Nat :=
  (s.anv.decisions.filter fun d => s.admitted d.1 && d.1 < k && (match s.anv.shownK with | some j => j < d.1 | none => true)).foldl
    (fun (m : Option Nat) d => match m with | some a => some (max a d.1) | none => some d.1) none

/-- What P(k) shows (R147, R148): 1 frame k, 2 a repeat, 0 dark. -/
def State.showAt (s : State) (k : Nat) : Nat :=
  let run (n : Nat) : Nat := if s.maxRepeat = 0 ∨ n ≤ s.maxRepeat then 2 else 0
  if s.admitted k then 1
  else if !s.anyStarted then 0
  else match s.lastAdmitted k with
    | some a => run (k - a)
    | none =>
      if s.anv.litOnce then run (s.anv.repeats + max 1 (k - s.anv.shownK.getD (k - 1))) else 0

/-- The frame command of P(k) (R205): 1 SHOW, 2 REPEAT, 3 DARK; as it was begun, if P(k) has begun. -/
def State.frameCommand (s : State) (k : Nat) : Nat :=
  let code := if s.anv.shownK = some k then s.fld F.ANV_INGEST_STATUS_show else s.showAt k
  if code = 0 then 3 else code

end Sys2Proof.Machine
end

