-- ==== Sys2Proof/Machine/Tongs.lean ====
section
/-! DEFINITION. The shared operations of the twin pairing (R255 to R288): roles, the claim keeper, health, the configuration
digest, synchronisation, and the choice of a subframe boundary. -/

namespace Sys2Proof.Machine

/-! ## Roles and the claim -/

def State.role (s : State) : Nat := s.fld F.TWN_STATUS_role

/-- The module is the active of a pair, or hands ownership away. -/
def State.isActive (s : State) : Bool := s.role == 2 || (s.role == 4 && s.twn.handOut.isSome)

/-- The module is a standby, or is taking ownership over by a hand-off. -/
def State.isStandby (s : State) : Bool := s.role == 3 || (s.role == 4 && s.twn.handIn.isSome)

/-- The module holds ownership (R25, R361). -/
def State.owns (s : State) : Bool := s.isActive || (s.role == 0 && s.powered 25)

/-- The outbound scan drivers are enabled by the keeper (R262): in SINGLE without a claim. -/
def State.drives (s : State) : Bool := s.powered 25 && !s.twn.keeperOut && (s.role == 0 || s.twn.drive)

/-- The role changes; a change to ACTIVE or STANDBY is flagged. -/
def State.setRole (s : State) (r : Nat) : State :=
  let was := s.role
  let s := s.setFld F.TWN_STATUS_role r
  if was = r then s
  else if r = 2 then s.raise F.TWN_INT_STAT_became_active
  else if r = 3 then s.raise F.TWN_INT_STAT_became_standby
  else s

/-- The claim is asserted or released on its pair of lines (R261). -/
def State.setClaim (s : State) (on : Bool) : State :=
  ((s.setFld F.TWN_STATUS_own_claim (b2n on)).emit (.pin "TWN_CLAIM_N" (!on))).emit (.pin "TWN_CLAIM" on)

/-- The keeper sets every outbound lane to high impedance, then releases the claim (R262). -/
def State.dropClaim (s : State) : State := (s.modTwn fun t => { t with drive := false }).setClaim false

/-- What the peer claim lines show: 0 released, 1 asserted, 2 a fault, which counts as asserted (R261). A new owner that claims ends the
watch of R284. -/
def State.seePeerClaim (s : State) (lines : Nat) : State :=
  let s := s.setFld F.TWN_STATUS_peer_claim (b2n (lines == 1))
  let s := if lines = 2 ∧ !s.flag F.TWN_STATUS_claim_fault then (s.raise F.TWN_INT_STAT_claim_fault).bump 10 7 else s
  (s.setFld F.TWN_STATUS_claim_fault (b2n (lines == 2))).modTwn fun t => { t with
    peerLines := lines, watching := t.watching && lines != 1 }

/-- The wall time of an ownership change is held in TWN_LAST_CHANGE (R280). -/
def State.lastChange (s : State) (t : Nat) : State :=
  ((wallWords s.wrap t).zip (List.range 4)).foldl (fun s x => s.setReg (0x800040 + 4 * x.2) (BitVec.ofNat 32 x.1)) s

/-- A takeover, hand-off or abort is told to the Recorder, which flushes (R565, R569). -/
def State.ownershipEvent (s : State) (event : Nat) : State :=
  (s.faultEntry 0x0204 14 (natLE 4 event ++ (List.range 4).flatMap fun i => natLE 4 (s.regN (0x800040 + 4 * i)))).flushSoon

/-! ## Health (R263) -/

/-- The conditions of R263 that fail, as TWN_HEALTH_WHY shows them. -/
def State.healthWhy (s : State) : Nat :=
  b2n (!s.flag F.TMK_CLK_STATUS_time_locked) + 2 * b2n (s.scn.modQ != 0) + 4 * b2n s.twn.wdogOut +
    8 * b2n s.twn.scanLost + 16 * b2n s.twn.pfFail

/-- The hand-off out of this module ends with the module's health; a SWITCH that asked for it is refused. -/
def State.dropHandoff (s : State) : State :=
  let s' := s.modTwn fun t => { t with handOut := none }
  match s.twn.handOut.bind (·.slot) with
  | some n => s'.finish 0x80 n refusedState
  | none => s'

/-- Health is judged: an active module that is unhealthy drops its drivers and its claim in the same cycle (R263). -/
def State.judgeHealth (s : State) : State :=
  if !s.powered 25 then s
  else
    let why := s.healthWhy
    let active := s.isActive
    let s := (s.setReg Reg.TWN_HEALTH_WHY (BitVec.ofNat 32 why)).setFld F.TWN_STATUS_healthy (b2n (why == 0))
    if why ≠ 0 ∧ active then (s.dropClaim.dropHandoff).setRole 3 else s

def State.healthy (s : State) : Bool := s.flag F.TWN_STATUS_healthy

/-! ## The configuration digest (R270) -/

/-- CRC-64 of R270. -/
def crc64 (bs : List Byte) : Nat := Crypto.crcReflected 0xC96C5795D7870F42 (2 ^ 64 - 1) (2 ^ 64 - 1) bs

def State.chainOf (s : State) (p : Nat) : Option (List Byte) :=
  (Sparse.get (fun _ => ({} : ScnPort)) s.scn.ports p).chain

/-- The configuration digest. -/
def State.digest (s : State) : Nat :=
  let canvas := match s.anv.canvas with | some b => b.take 24 ++ b.drop 32 | none => []
  let chain (p : Nat) : List Byte := match s.chainOf p with | some b => b.take 16 ++ b.drop 24 | none => zeros 64
  let stream (n : Nat) : List Byte := match s.stream n with | some x => x.block ++ natLE 1 (b2n (s.isStarted n)) | none => zeros 65
  let temper := match s.anv.temper with | some t => t.global ++ t.places.flatten | none => []
  crc64 (canvas ++ s.anv.grey.getD [] ++ (List.range 64).flatMap chain ++ (List.range 16).flatMap stream ++ temper)

/-- The digest that the twin reported. -/
def State.peerDigest (s : State) : Nat := s.regN Reg.TWN_PEER_DIGEST_LO + 2 ^ 32 * s.regN Reg.TWN_PEER_DIGEST_HI

/-! ## The link -/

def State.slotB (s : State) : Bool := s.flag F.TWN_CFG_slot_b
def State.linkUp (s : State) : Bool := s.flag F.TWN_STATUS_link_up && s.flag F.TWN_STATUS_auth_ok

/-! ## Synchronisation (R277) -/

/-- State of port `p` (R236). -/
def State.portState (s : State) (p : Nat) : Nat := s.fld (F.SCN_PORT_STATUS_state p)

/-- The ports in RUN. -/
def State.runPorts (s : State) : List Nat := (List.range 64).filter fun p => s.portState p == 4

/-- t_sf exceeds 260 µs, or a port in RUN has FLYWHEEL below 2. -/
def State.slowFly (s : State) : Bool :=
  (match s.grid with | some g => 260000 * g.p * g.nSf < 1000000 * g.q | none => false) ||
    s.runPorts.any fun p => match s.chainOf p with | some c => chainFlywheel c < 2 | none => false

/-- A port in RUN on the active is not in RUN here. -/
def State.portBehind (s : State) : Bool := s.twn.ports.any fun x => x.2.state == 4 && s.portState x.1 != 4

/-- The bits of TWN_SYNC_WHY (R277). -/
def State.syncWhy (s : State) : Nat :=
  let p := s.twn.peer.getD {}
  b2n (!s.linkUp) + 2 * b2n (p.role != 2 || p.health != 0) +
    4 * b2n (s.fld F.TMK_STATUS_servo_state != 3 || p.servo != 3 || p.domain != s.fld F.TMK_PTP_CFG_domain) +
    8 * b2n (131072 < (s.sfld F.TWN_DELTA_delta).natAbs) + 16 * b2n (s.digest != s.peerDigest) +
    32 * b2n (!s.twn.joining.isEmpty || s.regN Reg.TWN_CLASS_STALE != 0) + 64 * b2n s.portBehind + 128 * b2n s.slowFly

/-- Synchronisation is judged again, where the module is one of a pair; a change of synced is flagged. -/
def State.judgeSync (s : State) : State :=
  if s.role = 0 then s
  else
    let why := s.syncWhy
    let was := s.flag F.TWN_STATUS_synced
    let now := why == 0
    let s := (s.setReg Reg.TWN_SYNC_WHY (BitVec.ofNat 32 why)).setFld F.TWN_STATUS_synced (b2n now)
    if now && !was then s.raise F.TWN_INT_STAT_sync_gained
    else if was && !now then s.raise F.TWN_INT_STAT_sync_lost
    else s

/-- The twin is a synchronised standby, as its HEARTBEAT says. -/
def State.peerSynced (s : State) : Bool :=
  s.linkUp && match s.twn.peer with | some p => p.role == 3 && p.syncWhy == 0 | none => false

/-! ## Boundaries and hand-offs -/

/-- The wall time in 2^−6 ns at which the set of an edge `e` ends at DK-16 0 (R227). -/
def setEnd (chain : List Byte) (e : Nat) : Nat := (e - chainNAnt chain * chainTChar chain) / chainTChar chain * chainTChar chain

/-- The SUBF set of subframe (k, j) begins at DK-16 0 no earlier than wall time `t` on every port in RUN. -/
def State.subfAfter (s : State) (g : Grid) (t k j : Nat) : Bool :=
  s.runPorts.all fun p =>
    match s.chainOf p with
    | some c => t ≤ (setEnd c (g.edge k (g.slot j 0 0)) - 6 * chainTChar c) * 1024
    | none => true

/-- The first subframe boundary whose SUBF set begins at or after wall time `t`, as (k, j). -/
def State.boundaryFrom (s : State) (t : Nat) : Option (Nat × Nat) :=
  match s.grid with
  | none => none
  | some g =>
    let n0 := (g.at t - (ns * g.lat * g.p : Nat)).toNat * g.nSf / max 1 g.frame
    ((List.range 16).find? fun i => s.subfAfter g t ((n0 + i) / max 1 g.nSf) ((n0 + i) % max 1 g.nSf)).map
      fun i => ((n0 + i) / max 1 g.nSf, (n0 + i) % max 1 g.nSf)

/-- The same; with no grid there is no subframe, and the pair (0, 0) stands for at once. -/
def State.boundaryOr (s : State) (t : Nat) : Nat × Nat := (s.boundaryFrom t).getD (0, 0)

/-- The wall time of a subframe boundary. -/
def State.boundaryTime (s : State) (k j : Nat) : Nat :=
  match s.grid with
  | some g => g.edge k (g.slot j 0 0) * 1024
  | none => s.wall

end Sys2Proof.Machine
end

