-- ==== Sys2Proof/Machine/Link.lean ====
section
/-! DEFINITION. The twin link (R255 to R260, R272 to R276): its frames, the order in which they are sent, and the copies that go over
it piece by piece. The spec gives a MIRROR frame's class, offset and data, and the contents of classes 0 to 4; how those contents are
laid out in the data is the model's (assumption 98). -/

namespace Sys2Proof.Machine

/-! ## Frames -/

/-- The direction word of slot A and slot B (R256). -/
def directionWord (slotB : Bool) : List Byte := natLE 4 (if slotB then 2 else 1)

/-- The 12-byte header of a link frame (R258). -/
def State.linkHeader (s : State) (type len : Nat) : List Byte :=
  natLE 1 type ++ natLE 1 (b2n s.isActive) ++ natLE 2 len ++ natLE 8 (s.twn.txSeq + 1)

/-- The authentication tag of a link frame (R256). -/
def linkTag (key : List Byte) (slotB : Bool) (seq : Nat) (frame : List Byte) : List Byte :=
  Crypto.gcmTag (Crypto.aesKeys key) (directionWord slotB ++ natLE 8 seq) frame []

/-- Header and payload of the next frame, with its tag; HELLO has none (R256). -/
def State.linkBytes (s : State) (type : Nat) (payload : List Byte) : List Byte :=
  let f := s.linkHeader type payload.length ++ payload
  match s.twn.key with
  | some key => if type = 1 then f else f ++ linkTag key s.slotB (s.twn.txSeq + 1) f
  | none => f

/-- The time that the link counts: fifths of a nanosecond since the power-on reset. -/
def State.linkNow (s : State) : Nat := 5 * s.clock

/-- The lane of a frame: 0 for TIMECMP, for others the two in turn (R255). -/
def State.linkLane (s : State) (type : Nat) : Nat := if type = 3 then 0 else s.twn.lane

/-- A frame leaves: numbered and counted, on its lane, which is busy for four fifths of a nanosecond a byte (R255, R257). -/
def State.linkFrame (s : State) (type : Nat) (payload : List Byte) : State :=
  let lane := s.linkLane type
  let f := s.linkBytes type payload
  let free := s.linkNow + 4 * f.length
  let s := s.modTwn fun t => { t with
    txSeq := t.txSeq + 1, lane := if type = 3 then t.lane else 1 - t.lane, laneFree := t.laneFree.set lane free }
  (s.emit (.twin lane f)).bump 10 13

/-! ## MIRROR payloads -/

/-- The payload of a MIRROR frame (R258). -/
def mirrorBytes (cls off : Nat) (data : List Byte) : List Byte := natLE 4 (cls % 256) ++ natLE 4 off ++ data

/-- The offset of a MIRROR frame that brings no bytes of the class but speaks of it: a request for a copy (0), a registration (1), the
end of a class 3 copy (2), the CRC of the dead map (3), a DEAD_SET or DEAD_CLEAR (4), a registration older than the link (5)
(assumption 98). -/
def aboutClass : Nat := 2 ^ 32 - 1

/-- A class 3 record: the pixel, its integrators, its age word, and the last period that they include (R276). -/
def State.ageRecord (s : State) (t : TemperSet) (n : Nat) : Option (List Byte) × State :=
  let ini := 8 + n / 65536 / 16
  match s.readMem ini (le t.desc 40 8 + 12 * n) 12 with
  | (.data bs, s) =>
    match s.readMem ini (le t.desc 32 8 + 4 * n) 4 with
    | (.data w, s) => (some (natLE 4 n ++ bs ++ w ++ natLE 8 ((s.twn.ageCrc.head?.map (·.1)).getD 0)), s)
    | (_, s) => (none, s)
  | (_, s) => (none, s)

/-- Pixel number `i` of a class 3 copy, and how many it has (R172, R276). -/
def State.agePixel (s : State) (k : Option Nat) (i : Nat) : Nat × Nat :=
  match k with
  | none => (i, 4194304)
  | some k =>
    let e := 2 ^ s.fld F.ANV_AGE_CFG_epoch_log2
    (e * i + (k % e + e - k / e % e) % e, 4194304 / e)

/-! ## The queue (R275) -/

/-- The level of a MIRROR frame of a class (R275). -/
def mirrorLevel (cls : Nat) : Nat := if cls = 3 then 4 else if cls < 5 then 3 else 5

/-- The level of a frame type (R275). -/
def linkLevel (type : Nat) : Nat := if type = 4 then 2 else if type = 8 then 4 else 1

/-- The rate limit of a level lets it send (R275). -/
def State.levelFree (s : State) (level : Nat) : Bool :=
  match level with
  | 5 => s.twn.free5 ≤ s.linkNow
  | 6 => s.twn.free6 ≤ s.linkNow
  | _ => true

/-- The first place of a level whose class comes next by rotating priority. -/
def turnOf (last : Nat) (jobs : List LinkJob) : Option LinkJob :=
  ((List.range 16).map fun i => (last + 1 + i) % 16).findSome? fun c => jobs.find? fun j => j.cls == c

/-- The place in the queue that sends next: by level, then by class in turn, then in order (R275). -/
def State.linkNext (s : State) : Option LinkJob :=
  ((List.range 7).filter s.levelFree).findSome? fun level =>
    turnOf (Sparse.get (fun _ => 15) s.twn.lastCls level) (s.twn.queue.filter fun j => j.level == level)

/-- `n` data bytes of a level with a rate limit have been sent (R275). -/
def State.charge (s : State) (level n : Nat) : State :=
  s.modTwn fun t => match level with
    | 5 => { t with free5 := s.linkNow + 20 * n }
    | 6 => { t with free6 := s.linkNow + 5 * n }
    | _ => t

/-- What a job sends now, as type and payload, and what is left of it. A piece that cannot be read is left out. -/
def State.linkPiece (s : State) (j : LinkJob) : Option (Nat × List Byte) × Option LinkWork × State :=
  match j.work with
  | .frame type payload => (some (type, payload), none, s)
  | .timecmp =>
    let t := s.wall / 1024 * 1024
    (some (3, zeros 8 ++ natLE 8 (shortForm t) ++ zeros 8), none, s.modTwn fun w => { w with sentAt := some t })
  | .region cls off =>
    match s.twn.classes.find? fun c => c.cls == cls with
    | none => (none, none, s)
    | some c =>
      let n := min 2040 (c.size - off)
      let left := if off + n < c.size then some (.region cls (off + n)) else none
      let s := if left.isNone then s.bump 10 11 else s
      match s.readMem 14 (c.base + off) n with
      | (.data bs, s) => (some (5, mirrorBytes cls off bs), left, s)
      | (_, s) => (none, left, s)
  | .deadMap off =>
    let n := min 2040 (0x180000 - off)
    let left := if off + n < 0x180000 then some (.deadMap (off + n)) else none
    match s.readMem 12 (0x102E80000 + off) n with
    | (.data bs, s) => (some (5, mirrorBytes 4 off bs), left, s)
    | (_, s) => (none, left, s)
  | .age k i =>
    let total := (s.agePixel k i).2
    match s.anv.temper with
    | none => (none, none, s)
    | some t =>
      if total ≤ i then
        (some (5, mirrorBytes 3 aboutClass (natLE 1 2 ++ natLE 1 (b2n k.isNone) ++ natLE 8 (k.getD 0))), none, if k.isSome then s.bump 10 10 else s)
      else
        let (bs, s) := (List.range (min 72 (total - i))).foldl (fun (acc : List Byte × State) d =>
          match acc.2.ageRecord t (acc.2.agePixel k (i + d)).1 with
          | (some b, s) => (acc.1 ++ b, s)
          | (none, s) => (acc.1, s)) ([], s)
        (some (5, mirrorBytes 3 (16 * (s.agePixel k i).1) bs), some (.age k (i + 72)), s)

/-- The next frame of the queue leaves if its lane is free; a frame once started is sent whole (R255, R275). -/
def State.linkPump (s : State) : State :=
  match s.linkNext with
  | none => s
  | some j =>
    let type := match j.work with | .frame t _ => t | .timecmp => 3 | _ => 5
    if s.linkNow < nth s.twn.laneFree (s.linkLane type) 0 then s
    else
      let (piece, left, s) := s.linkPiece j
      let s := s.modTwn fun t => { t with
        lastCls := Sparse.set (fun _ => 15) t.lastCls j.level j.cls
        queue := match left with
          | some w => { j with work := w } :: t.queue.erase j
          | none => t.queue.erase j }
      match piece with
      | some (type, payload) => (s.linkFrame type payload).charge j.level payload.length
      | none => s

/-- A job joins the queue; both lanes take what they can. -/
def State.linkQueue (s : State) (j : LinkJob) : State := (s.modTwn fun t => { t with queue := t.queue ++ [j] }).linkPump.linkPump

/-- A link frame of type `type` is to be sent, if the link is up (R256, R258). -/
def State.linkSend (s : State) (type : Nat) (payload : List Byte) : State :=
  if s.linkUp then s.linkQueue { level := linkLevel type, work := .frame type payload } else s

/-- A MIRROR frame is to be sent, if the link is up. -/
def State.mirrorSend (s : State) (cls off : Nat) (data : List Byte) : State :=
  if s.linkUp then s.linkQueue { level := mirrorLevel cls, cls := cls, work := .frame 5 (mirrorBytes cls off data) } else s

/-- What the active tells its twin about a class it mirrors (R272). -/
def State.mirror (s : State) (cls off : Nat) (data : List Byte) : State := if s.isActive then s.mirrorSend cls off data else s

/-- A copy is to be sent, piece by piece. -/
def State.linkCopy (s : State) (level cls : Nat) (w : LinkWork) : State :=
  if s.linkUp then s.linkQueue { level := level, cls := cls, work := w } else s

/-! ## Reception -/

/-- The parts of a received frame. -/
def linkPayload (f : List Byte) : List Byte := (f.drop 12).take (le f 2 2)

/-- A received frame of type `type` is checked (R257): its tag, then its sequence number; one that passes is accepted. -/
def State.linkAccept (s : State) (type : Nat) (f : List Byte) : Option (List Byte) × State :=
  match s.twn.key with
  | none => (none, s)
  | some key =>
    let body := f.take (12 + le f 2 2)
    let seq := le f 4 8
    if !s.powered 25 || byteAt f 0 != type then (none, s)
    else if f.drop (12 + le f 2 2) ≠ linkTag key (!s.slotB) seq body then (none, (s.bump 10 5).raise F.TWN_INT_STAT_auth_fail)
    else if seq ≤ s.twn.rxSeq then (none, s.bump 10 6)
    else (some (linkPayload f), (s.modTwn fun t => { t with rxSeq := seq }).bump 10 14)

/-! ## Hand-offs -/

/-- The active sends HANDOFF for a boundary whose SUBF set begins at least 100 µs ahead (R282). -/
def State.startHandoff (s : State) (slot : Option Nat) (byPower byTwin : Bool) : State :=
  match s.boundaryOr (s.wall + 100000 * ns) with
  | (k, j) =>
    (s.modTwn fun t => { t with handOut := some { k := k, j := j, slot := slot, byPower := byPower, byTwin := byTwin } }).linkSend 6
      (natLE 8 k ++ natLE 2 j)

end Sys2Proof.Machine
end

