-- ==== Sys2Proof/Machine/GreyFigures.lean ====
section
/-! DEFINITION. The figures of the greyscale configuration that the ANV_GRY registers show (R198, R201, R206, R207). -/

namespace Sys2Proof.Machine

/-- b_eff in eighths of a bit, rounded to nearest (R198): n with 2^(2n−1) ≤ X^16 < 2^(2n+1). -/
def effBits (grey : List Byte) : Nat :=
  let x := greyNSf grey * (2 ^ greyNB grey - 1) * 4 ^ (3 - greySLo grey)
  min 176 ((Nat.log2 (x ^ 16) + 1) / 2)

/-- t_pass as a fraction of nanoseconds (R191). -/
def Grid.passNum (g : Grid) : Nat := 1000000 * g.q
def Grid.passDen (g : Grid) : Nat := g.p * g.nSf * g.nPs

/-- The shutter rule of R201: 100 × t_pass ≤ W_min and C / (4 × n_ps) ≥ μ_floor. -/
def shutterOk (g : Grid) (wMin : Nat) : Bool :=
  let a := g.passNum
  let wb := wMin * g.passDen
  100 * a ≤ wb && 2400 * g.nPs * a ≤ (2 ^ g.nB - 1) * (3 * wb - 200 * a)

/-- g_floor of R201: ceil(μ_floor × F × n_ps / (C × 4^(3 − s_lo))). -/
def shutterFloor (g : Grid) (wMin sLo : Nat) : Nat :=
  let a := g.passNum
  let den := (3 * (wMin * g.passDen) - 200 * a) * ((2 ^ g.nB - 1) * 4 ^ (3 - sLo))
  (4194303 * (600 * a) * g.nPs + den - 1) / den

/-- The ports with a chain. -/
def State.chains (s : State) : List (Nat × List Byte) :=
  (List.range 64).filterMap fun p => (s.chainOf p).map fun c => (p, c)

/-- The largest t_load in ns over 3, with its port: the lowest on a tie (R206). -/
def State.maxLoad (s : State) (g : Grid) : Nat × Nat :=
  s.chains.foldl (fun m c => if m.1 < g.load c.2 then (g.load c.2, c.1) else m) (0, 0)

/-- R207 for every port with a chain. -/
def State.loadsOk (s : State) (g : Grid) : Bool := s.chains.all fun c => g.loadOk c.2

/-- A configuration without a canvas: the grid's parts that do not need one. -/
def greyOnly (grey : List Byte) (tAdm : Nat) : Grid := { gridOf [] grey with p := 1, q := 0, tAdm := tAdm }

/-- Every figure is computed again (R212); all read 0 while no configuration is loaded, and g_floor 0x3F_FFFF while the
shutter rule does not hold. -/
def State.greyFigures (s : State) : State :=
  match s.anv.grey with
  | none => s
  | some b =>
    let g := s.grid.getD (greyOnly b s.anv.tAdm)
    let set := s.anv.canvas.isSome
    let shut := set && shutterOk g (greyWMin b)
    let m := s.maxLoad g
    let s := s.setReg Reg.ANV_GRY_STATUS (BitVec.ofNat 32
      (2 ^ 24 * effBits b + 2 ^ 19 * g.word + 4 * b2n (set && s.loadsOk g) + 2 * b2n shut + 1))
    let s := s.setReg Reg.ANV_GRY_TPASS (BitVec.ofNat 32 (if set then rne (g.passNum * 64) g.passDen else 0))
    let s := s.setReg Reg.ANV_GRY_FLOOR (BitVec.ofNat 32 (if shut then satU 22 (shutterFloor g (greyWMin b) (greySLo b)) else 0x3FFFFF))
    (s.setReg Reg.ANV_GRY_LOAD (BitVec.ofNat 32 (satU 32 ((m.1 + 2) / 3)))).setReg Reg.ANV_GRY_LOAD_PORT (BitVec.ofNat 32 m.2)

end Sys2Proof.Machine
end

