-- ==== Sys2Proof/Machine/Lanes.lean ====
section
/-! DEFINITION. The lanes of a scan port: delays and trims (R228, R233, R235), the characters of the clock and data lanes (R214, R217,
R219, R221), and the requests that the four engines offer (R220, R242). Times on a lane are wall times at DK-16 0, in 2^−6 ns. -/

namespace Sys2Proof.Machine

def State.port (s : State) (p : Nat) : ScnPort := Sparse.get (fun _ => {}) s.scn.ports p

def State.modPort (s : State) (p : Nat) (f : ScnPort → ScnPort) : State :=
  s.modScn fun c => { c with ports := Sparse.set (fun _ => {}) c.ports p (f (s.port p)) }

/-- The port's scan group has power (R28, R350). -/
def State.groupOn (s : State) (p : Nat) : Bool := s.powered (18 + p / 16)

/-- The port is in RUN or QUENCHED. -/
def State.portLive (s : State) (p : Nat) : Bool := s.portState p == 4 || s.portState p == 5

/-- The port's outbound lanes are not at high impedance for its own state (R236). -/
def State.portOpen (s : State) (p : Nat) : Bool := s.portState p != 0 && s.portState p != 6

/-- Number of DK-16 found by the last ENUM. -/
def State.found (s : State) (p : Nat) : Nat := s.fld (F.SCN_PORT_STATUS_found p)

/-! ## Delays -/

/-- t_out of the port in 2^−6 ns, from the fuses (R379). -/
def State.tOut (s : State) (p : Nat) : Nat := (s.boot.fuse.filter fun c => c.1 == 0x100 + 2 * p || c.1 == 0x101 + 2 * p).foldl
  (fun a c => a + c.2.toNat * 256 ^ (c.1 - (0x100 + 2 * p))) 0

/-- DK-16 `d` as identified. -/
def ScnPort.dk (r : ScnPort) (d : Nat) : DkId := nth r.dks d ⟨0, 0, 0, 0, 0, 0⟩

/-- c in 2^−6 ns: half of RT_0 less T_TURN_0, rounded once (R233). -/
def ScnPort.cable (r : ScnPort) (rt0 : Nat) : Int := rneI ((rt0 : Int) - (r.dk 0).tTurn) 2

/-- The sum of H_DIFF of DK-16 0 to d − 1. -/
def ScnPort.hops (r : ScnPort) (d : Nat) : Int := (r.dks.take d).foldl (fun a x => a + x.hDiff) 0

/-- a_d in 2^−6 ns (R233). -/
def ScnPort.offset (r : ScnPort) (rt0 rtd d : Nat) : Int :=
  rneI ((rtd : Int) - rt0 - ((r.dk d).tTurn - (r.dk 0).tTurn : Int) - r.hops d) 2

def ScnPort.allOffsets (r : ScnPort) (rts : List Nat) : List Int :=
  (List.range r.dks.length).map fun d => if d = 0 then 0 else r.offset (rts.headD 0) (nth rts d 0) d

/-- The advance A in 2^−6 ns (R228). -/
def State.advance (s : State) (p : Nat) : Nat := ((s.tOut p : Int) + (s.port p).delay + ((s.port p).dk 0).tIn).toNat

/-- W and f that R228 asks for. -/
def State.trimGoal (s : State) (p : Nat) : Nat × Nat :=
  match s.chainOf p with
  | none => (0, 0)
  | some c =>
    let w := (s.advance p + chainTChar c - 1) / chainTChar c
    (w, w * chainTChar c - s.advance p)

/-- The applied W and f. -/
def State.trimNow (s : State) (p : Nat) : Nat × Nat := (s.fld (F.SCN_PORT_TRIM_w_chars p), s.fld (F.SCN_PORT_TRIM_fine p))

def State.setTrim (s : State) (p : Nat) (t : Nat × Nat) : State :=
  (s.setFld (F.SCN_PORT_TRIM_w_chars p) t.1).setFld (F.SCN_PORT_TRIM_fine p) t.2

/-- How far ahead of its boundary at DK-16 0 a character leaves the serialiser: W characters less f (R228). -/
def State.lead (s : State) (p : Nat) (c : List Byte) : Nat := (s.trimNow p).1 * chainTChar c - (s.trimNow p).2

/-- `n` IDLE characters are added on both lanes of the port, or removed (R235). -/
def State.addIdle (s : State) (p : Nat) (n : Int) : State :=
  s.modPort p fun r => { r with sck := { r.sck with adj := r.sck.adj + n }, sdt := { r.sdt with adj := r.sdt.adj + n } }

/-- One fine-delay step towards the goal, with a wrap of one character where f would leave its range (R235). -/
def State.fineStep (s : State) (p : Nat) : State :=
  match s.chainOf p with
  | none => s
  | some c =>
    let t := chainTChar c
    let (w, f) := s.trimNow p
    let (gw, gf) := s.trimGoal p
    let now := w * t - f
    let goal := gw * t - gf
    if now = goal then s
    else
      let s := s.pmc 9 64 p
      if now < goal then
        if f = 0 then ((s.setTrim p (w + 1, t - 1)).addIdle p (-1)).bump 9 7 p else s.setTrim p (w, f - 1)
      else if f + 1 = t then ((s.setTrim p (w - 1, 0)).addIdle p 1).bump 9 7 p else s.setTrim p (w, f + 1)

/-- The schedule's offset takes its next value: a standby follows δ, another owner removes it one step a line slot (R269, R280). -/
def State.shiftStep (s : State) (p : Nat) : State :=
  let d := (s.port p).shift
  let next : Int := if s.isStandby then rneI (s.sfld F.TWN_DELTA_delta) 1024 else if 0 < d then d - 1 else if d < 0 then d + 1 else 0
  s.modPort p fun r => { r with shift := next }

/-! ## Characters -/

/-- The first character boundary at DK-16 0 at which a character that leaves from now on can begin (R227, R228). -/
def State.laneFrom (s : State) (p : Nat) (c : List Byte) : Nat :=
  let t := chainTChar c
  (s.wall / 1024 + s.lead p c + t - 1) / t * t

/-- What characters that begin at `begin` make of a lane: the IDLEs before them, their code groups, and the lane after them. -/
def Lane.put (l : Lane) (tChar begin : Nat) (cs : List LaneChar) : Nat × List Nat × Lane :=
  let idle := ((((begin - l.ends) / tChar : Nat) : Int) + l.adj).toNat
  let (code, rd) := encodeChars (afterIdle l.rd idle) cs
  (idle, code, { ends := begin + cs.length * tChar, rd := rd, adj := 0 })

/-- Characters go out on the clock lane, from boundary `begin` on. -/
def State.sckSend (s : State) (p : Nat) (c : List Byte) (begin : Nat) (cs : List LaneChar) : State :=
  let (idle, code, l) := (s.port p).sck.put (chainTChar c) begin cs
  let s := s.modPort p fun r => { r with sck := l }
  if s.drives then s.emit (.sck p l.ends idle cs code) else s

/-- Characters go out on the data lane. -/
def State.sdtSend (s : State) (p : Nat) (c : List Byte) (begin : Nat) (cs : List LaneChar) : State :=
  let (idle, code, l) := (s.port p).sdt.put (chainTChar c) begin cs
  let s := s.modPort p fun r => { r with sdt := l }
  if s.drives then s.emit (.sdt p l.ends idle cs code) else s

/-- Where the next LINE or SUBF set begins that begins at `from_` or later; none on a port that sends none (R220). -/
def State.nextSet (s : State) (p : Nat) (c : List Byte) (from_ : Nat) : Option Nat :=
  match s.portLive p, (s.port p).grid with
  | true, some g =>
    let r := s.port p
    let den := g.p * g.slots
    let edge : Int := (from_ + 6 * chainTChar c + chainNAnt c * chainTChar c : Nat) - r.shift
    let n := ((edge - (g.lat * 64 : Nat)) * den / (1000000 * g.q * 64 : Nat)).toNat - 1
    ((List.range 4).map fun i => setEnd c ((g.edge 0 (n + i) : Int) + r.shift).toNat - 6 * chainTChar c).find? (from_ ≤ ·)
  | _, _ => none

/-- CRC-8 of R218. -/
def crc8 (bs : List Byte) : Byte := BitVec.ofNat 8 (Crypto.crcForward 8 7 0xFF 0 bs)

/-- The characters of a set or cell: its start character, its bytes, and their CRC (R219, R221). -/
def framed (start : LaneChar) (bs : List Byte) : List LaneChar := start :: dataChars (bs ++ [crc8 bs])

/-- Up to `n` of the BLANKs that are owed go out, in a row, from the first character after the set in progress; one that would run into
the next LINE or SUBF set waits until after it (R219, R246; assumption 99). -/
def State.sendBlanks (s : State) (p : Nat) (c : List Byte) : Nat → State
  | 0 => s
  | n + 1 =>
    let begin := max (s.laneFrom p c) (s.port p).sck.ends
    let fits := match s.nextSet p c begin with | some b => begin + 2 * chainTChar c ≤ b | none => true
    if (s.port p).blanks = 0 ∨ !fits then s
    else ((s.sckSend p c begin [.blank, d21_5]).modPort p fun r => { r with blanks := r.blanks - 1 }).sendBlanks p c n

/-! ## Requests (R220, R242) -/

/-- The wall time at which the SUBF set of subframe (k, j) begins at DK-16 0 of the port. -/
def State.subfBegin (s : State) (p : Nat) (g : Grid) (c : List Byte) (k j : Nat) : Nat :=
  (setEnd c ((g.edge k (g.slot j 0 0) : Int) + (s.port p).shift).toNat - 6 * chainTChar c) * 1024

/-- An agreed hand-off reaches the port within 2 µs (R282). -/
def State.handNear (s : State) (p : Nat) : Bool :=
  match s.twn.handOut, s.grid, s.chainOf p with
  | some h, some g, some c => h.acked && !s.later (s.subfBegin p g c h.k h.j) (s.wall + 2000 * ns)
  | _, _, _ => false

/-- The module starts requests on the port: its start has got beyond training, it drives the lanes (R262, R265), it is no standby
(R267), and no change of owner holds requests back (R280, R282). -/
def State.mayRequest (s : State) (p : Nat) : Bool :=
  s.portOpen p && s.portState p != 1 && s.drives && !s.isStandby && !s.later (s.port p).reqFrom s.wall && !s.handNear p

/-- The request has a reply: only ENUM has one when it is broadcast (R219, R237). -/
def ScnReq.replied (q : ScnReq) : Bool := !q.bcast || q.opcode == 4

/-- The request may go out beside those outstanding: at most 16 are, and an ECHO is the only one (R232, R242). -/
def ScnPort.admits (r : ScnPort) (q : ScnReq) : Bool :=
  !r.requests.any (fun o => o.opcode == 3) && (if q.opcode == 3 then r.requests.isEmpty else !q.replied || r.requests.length < 16)

/-- The offer that wins the next place: of the engine that comes next by rotating priority, its oldest (R220). -/
def ScnPort.winner (r : ScnPort) : Option ScnReq :=
  ((List.range 4).map fun i => (r.lastEng + 1 + i) % 4).findSome? fun e => r.offers.find? fun q => q.engine == e

/-- The bytes of a REQ set before its CRC (R219). -/
def ScnReq.bytes (q : ScnReq) : List Byte :=
  natLE 1 q.addr ++ natLE 1 (bits q.addr 8 1 + 2 * b2n q.bcast) ++ natLE 1 q.opcode ++ natLE 1 q.reg ++ natLE 2 q.data

/-- A REQ set leaves: counted, and outstanding if it has a reply. -/
def State.sendReq (s : State) (p : Nat) (c : List Byte) (begin : Nat) (q : ScnReq) : State :=
  let s := (s.sckSend p c begin (framed .req q.bytes)).bump 9 2 p
  s.modPort p fun r => { r with
    offers := r.offers.erase q, lastEng := q.engine, requests := if q.replied then r.requests ++ [q] else r.requests }

/-- The winning offer goes out if the lane is free, one IDLE after what was last sent, and it ends one character before the next set
(R220). After a step of wall time requests wait for the new schedule. -/
def State.offerStep (s : State) (p : Nat) (c : List Byte) : State :=
  let r := s.port p
  let t := chainTChar c
  let from_ := s.laneFrom p c
  let begin := max from_ (r.sck.ends + t)
  match r.winner with
  | some q =>
    let fits := match s.nextSet p c (max from_ r.sck.ends) with | some b => begin + 9 * t ≤ b | none => true
    if s.mayRequest p && r.admits q && begin ≤ from_ + t && fits && r.resize.isNone && r.blanks == 0 then s.sendReq p c begin q else s
  | none => s

/-- What waits for the clock lane goes out as far as it can: BLANKs, then a request. -/
def State.pump (s : State) (p : Nat) : State :=
  match s.chainOf p with
  | none => s
  | some c => (s.sendBlanks p c 3).offerStep p c

/-- Requests are offered. -/
def State.offer (s : State) (p : Nat) (qs : List ScnReq) : State := (s.modPort p fun r => { r with offers := r.offers ++ qs }).pump p

/-- A write that the module makes for itself. -/
def writeReq (engine addr reg data : Nat) (bcast : Bool) : ScnReq :=
  { engine := engine, addr := addr, opcode := 2, reg := reg, data := data, bcast := bcast }

/-- An ECHO to DK-16 `d`. -/
def echoReq (d : Nat) (cable : Bool) : ScnReq := { engine := 1, addr := d, opcode := 3, reg := 0, data := 0, cable := cable }

end Sys2Proof.Machine
end

