-- ==== Sys2Proof/Machine/ScanPort.lean ====
section
/-! DEFINITION. The shared operations of a scan port: its states and reports (R236, R252), Quench (R245 to R247), what its start and a
change of grid write (R237 to R240), and dead-map marks (R180). -/

namespace Sys2Proof.Machine

/-! ## Reports -/

/-- An event of a port that has a report entry (R252, R253): its kind, the DK-16, channel, line, sub-pixel and argument. -/
def State.scanReport (s : State) (kind p d ch line m arg : Nat) : State :=
  let s := s.raise ⟨if p < 32 then Reg.SCN_EVT_LO else Reg.SCN_EVT_HI, p % 32, 1⟩
  let entry := [kind, p + d * 2 ^ 6 + ch * 2 ^ 15 + 2 ^ 19 * line, m + 2 ^ 24 * (arg % 256), s.wall % second / ns].flatMap (natLE 4)
  let s := if kind ≤ 9 then s.faultEntry 0x0201 12 (s.rptPhase Reg.SCN_RPT_BASE_LO entry) else s
  let (lost, s) := s.report Reg.SCN_RPT_BASE_LO 12 entry
  if lost then (s.bump 9 14 p).raise F.SCN_INT_STAT_rpt_lost else s

/-- A report entry that names no sub-pixel. -/
def noPixel : Nat := 0xFFFFFF

/-- The class 2 record of a DK-16: ID, T_IN, T_TURN, H_DIFF and a_d. -/
def dkRecord (x : DkId × Int) : List Byte :=
  natLE 2 x.1.id ++ natLE 2 x.1.tIn ++ natLE 2 x.1.tTurn ++ natLE 2 (unsigned 16 x.1.hDiff) ++ natLE 4 (unsigned 32 x.2)

/-- The class 2 data of a port: state, qs_host, found count and RT_0 in 24 bytes, then a record for each DK-16 (R272). -/
def State.portBytes (s : State) (p : Nat) : List Byte :=
  let r := s.port p
  natLE 1 (s.portState p) ++ natLE 1 (bits (s.fld (F.SCN_PORT_QSRC_src p)) 4 1) ++ natLE 2 (s.found p) ++
    natLE 4 (s.regN (Reg.SCN_PORT_RTT p)) ++ zeros 16 ++
    ((List.range r.dks.length).flatMap fun d => dkRecord (r.dk d, nth r.offsets d 0))

/-- What class 2 mirrors of a port goes to the twin, a MIRROR frame's worth at a time, and synchronisation is judged again (R272,
R277). Port `p` stands at offset 0x2000 · p of the class. -/
def State.mirrorPort (s : State) (p : Nat) : State :=
  let b := s.portBytes p
  let s := if s.isActive && s.linkUp then
      (List.range ((b.length + 2039) / 2040)).foldl (fun s i => s.mirror 2 (0x2000 * p + 2040 * i) (sliceB b (2040 * i) 2040)) s
    else s
  s.judgeSync

/-! ## Quench -/

/-- The Quench sources asserted for the port (R245). -/
def State.quenchSrc (s : State) (p : Nat) : Nat := s.fld (F.SCN_PORT_QSRC_src p) % 32 + 32 * b2n (s.scn.modQ != 0)

/-- BLANK goes out three times in a row (R219, R246). -/
def State.blank (s : State) (p : Nat) : State := (s.modPort p fun r => { r with blanks := 3 }).pump p

/-- BLANK goes out as the last sets of a port whose lanes are about to be let go (R239, R246). -/
def State.blankLast (s : State) (p : Nat) : State :=
  match s.chainOf p, s.portOpen p with
  | some c, true =>
    let begin := max (s.laneFrom p c) (s.port p).sck.ends
    (s.sckSend p c begin [.blank, d21_5, .blank, d21_5, .blank, d21_5]).modPort p fun r => { r with blanks := 0 }
  | _, _ => s

def quenchedBit (p : Nat) : Field := ⟨if p < 32 then Reg.SCN_QUENCHED_LO else Reg.SCN_QUENCHED_HI, p % 32, 1⟩

/-- A port is in RUN or QUENCHED as a source rises: it goes to QUENCHED and sends BLANK; an accepted resume is undone (R246,
R247). -/
def State.sourceRisen (s : State) (p : Nat) : State :=
  let s := s.modPort p fun r => { r with resume := false }
  if s.portState p = 4 then
    let s := ((s.setFld (F.SCN_PORT_STATUS_state p) 5).raise (quenchedBit p)).raise F.SCN_INT_STAT_quench
    let s := ((s.bump 9 12 p).life 33).scanReport 7 p 0 0 0 noPixel (s.quenchSrc p)
    (s.blank p).mirrorPort p
  else if s.portState p = 5 then s.blank p
  else s

/-- Source `b` of the port is asserted (R245). -/
def State.assertSrc (s : State) (p b : Nat) : State :=
  let w := s.fld (F.SCN_PORT_QSRC_src p)
  if w.testBit b then s else (s.setFld (F.SCN_PORT_QSRC_src p) (w + 2 ^ b)).sourceRisen p

/-- Source `b` of the port goes. -/
def State.clearSrc (s : State) (p b : Nat) : State :=
  let w := s.fld (F.SCN_PORT_QSRC_src p)
  if w.testBit b then s.setFld (F.SCN_PORT_QSRC_src p) (w - 2 ^ b) else s

/-- Module Quench signal `b` rises: every port follows, and health condition 1 fails (R245, R263). -/
def State.moduleQuench (s : State) (b : Nat) : State :=
  let was := s.scn.modQ
  if was.testBit b then s
  else
    let s := s.modScn fun c => { c with modQ := was + 2 ^ b }
    (if was = 0 then (List.range 64).foldl State.sourceRisen s else s).judgeHealth

/-- Module Quench signal `b` is released; ports stay QUENCHED until they are resumed (R31, R247). -/
def State.moduleRelease (s : State) (b : Nat) : State :=
  if s.scn.modQ.testBit b then (s.modScn fun c => { c with modQ := c.modQ - 2 ^ b }).judgeHealth else s

/-! ## States -/

/-- A DK_RELOAD ends, on every port that it addresses. -/
def State.endReload (s : State) (n : Nat) (c : Cpl) : State :=
  (s.modScn fun t => { t with ports := t.ports.map fun x => (x.1, { x.2 with imageSlots := x.2.imageSlots.filter (· != n) }) }).finish 0x70 n c

/-- Whatever the port was doing for a command ends: the commands complete with REFUSED, a PORT_START with fault code `w2`. -/
def State.abandonPort (s : State) (p w2 : Nat) : State :=
  let r := s.port p
  let others := r.remSlots ++ (r.requests ++ r.offers).filterMap (·.slot)
  let s := s.modPort p fun r => { r with
    step := 0, startSlot := none, imagePos := none, imageSlots := [], remSlots := [], requests := [], offers := [], rts := [], missed := []
    pollPos := 0, pollBad := false, pollShut := false, pollTemp := none, pollHead := [], resume := false, newGrid := none, armed := false
    blanks := 0, resize := none, loadK := none, cell := 0 }
  let s := r.startSlot.toList.foldl (fun s slot => s.finish 0x70 slot { status := Status.refused, w2 := w2 }) s
  let s := r.imageSlots.foldl (fun s slot => s.endReload slot { status := Status.refused }) s
  others.foldl (fun s slot => s.finish 0x70 slot { status := Status.refused }) s

/-- The port enters FAULT with a code (R236, R237, R245). -/
def State.portFault (s : State) (p code : Nat) : State :=
  let s := (s.blankLast p).abandonPort p code
  let s := ((s.setFld (F.SCN_PORT_STATUS_state p) 6).setFld (F.SCN_PORT_STATUS_fault p) code).lower (quenchedBit p)
  let s := s.setFld (F.SCN_PORT_QSRC_src p) (s.fld (F.SCN_PORT_QSRC_src p) ||| 8)
  ((s.raise F.SCN_INT_STAT_fault).scanReport 9 p 0 0 0 noPixel code).mirrorPort p

/-- The port leaves FAULT: the code is 0 and qs_fault goes (R245). -/
def State.leaveFault (s : State) (p : Nat) : State := (s.setFld (F.SCN_PORT_STATUS_fault p) 0).clearSrc p 3

/-- The port enters RUN and keeps the loaded grid; a source still asserted quenches it at once (R237, R238, R245). -/
def State.portRun (s : State) (p : Nat) : State :=
  let s := (s.setFld (F.SCN_PORT_STATUS_state p) 4).lower (quenchedBit p)
  let g := s.grid
  let s := (s.modPort p fun r => { r with step := 0, grid := g, newGrid := none }).scanReport 8 p 0 0 0 noPixel 0
  let s := s.mirrorPort p
  if s.quenchSrc p = 0 then s else s.sourceRisen p

/-! ## Geometry and trims -/

/-- The conditions of R230 on a chain against a grid, and that of R600 on the advance: 4 if one on delays fails, 5 if the blanking
one does, 0 if all hold. -/
def State.r230 (s : State) (p : Nat) (g : Grid) : Nat :=
  match s.chainOf p with
  | none => 0
  | some c =>
    let t := chainTChar c
    let last : Int := (s.port p).offsets.getLast?.getD 0
    let ant : Int := (chainNAnt c * t : Nat)
    if 8 * t * (g.p * g.slots) ≤ 64000000 * g.q ∧ last + 6400 ≤ ant ∧ last ≤ 64000 ∧ s.advance p ≤ 255 * t then
      (if (s.port p).dks.all fun d => d.tBlankMin ≤ g.tBlank then 0 else 5)
    else 4

/-- An offset as FIRE_TRIM and SCN_PORT_SPAN hold it: Q10.6, saturated (R6, R233). -/
def trimWord (a : Int) : Nat := satU 16 a.toNat

/-- The writes of FIRE_TRIM to every DK-16 (R229). -/
def ScnPort.trimReqs (r : ScnPort) : List ScnReq :=
  (List.range r.offsets.length).map fun d => writeReq 1 d 0x11 (trimWord (nth r.offsets d 0)) false

/-- The writes of GEOMETRY by broadcast (R240). -/
def geometryReqs (c : List Byte) (g : Grid) : List ScnReq :=
  [(0x14, g.nSf - 1), (0x15, g.nB + g.sigma * 32 + (g.nLine - 1) * 256), (0x16, g.tLsb), (0x17, g.tBlank), (0x18, chainNDk c - 1)].map
    fun r => writeReq 2 0 r.1 r.2 true

/-- The writes of step 5 of a start: N_ANT, FLYWHEEL and GEOMETRY by broadcast, and FIRE_TRIM (R237). -/
def ScnPort.stepFive (r : ScnPort) (c : List Byte) (g : Grid) : List ScnReq :=
  [writeReq 2 0 0x12 (chainNAnt c) true, writeReq 2 0 0x13 (chainFlywheel c) true] ++ geometryReqs c g ++ r.trimReqs

/-- The write of APPLY by broadcast (R240). -/
def applyAll : ScnReq := writeReq 2 0 0x1F 1 true

/-- The first index whose P(k) lies at `t` or later (R238). -/
def Grid.firstP (g : Grid) (t : Nat) : Nat := ((g.at t - g.pNum 0 + (g.frame : Int) - 1) / g.frame).toNat

/-- The ports in RUN or QUENCHED change to the loaded grid at the first P(k) of it at least 1 ms from now (R238). -/
def State.gridChanged (s : State) : State :=
  match s.grid with
  | none => s
  | some g => (List.range 64).foldl (fun s p =>
      if s.portLive p then s.modPort p fun r => { r with newGrid := some (g, g.firstP (s.wall + 1000000 * ns)), armed := false } else s) s

/-! ## A step of wall time -/

/-- The first subframe boundary of the port's grid whose SUBF set begins at DK-16 0 at `t` or later. -/
def State.portBoundary (s : State) (p : Nat) (g : Grid) (c : List Byte) (t : Nat) : Nat × Nat :=
  let n0 := (g.at t - g.pNum 0).toNat * g.nSf / max 1 g.frame
  (((List.range 16).map fun i => ((n0 + i) / max 1 g.nSf, (n0 + i) % max 1 g.nSf)).find? fun b =>
    t ≤ s.subfBegin p g c b.1 b.2).getD (n0 / max 1 g.nSf, n0 % max 1 g.nSf)

/-- A wall time in 2^−6 ns, `d` on. -/
def moved (t : Nat) (d : Int) : Nat := ((t : Int) + d).toNat

/-- Wall time has moved by `d` in 2^−6 ns: a port's lanes go on as they were, and a port in RUN or QUENCHED keeps the old grid to the
first subframe boundary of the new schedule (R210). -/
def State.portStepped (d : Int) (s : State) (p : Nat) : State :=
  match s.portOpen p, s.chainOf p with
  | true, some c =>
    let s := s.modPort p fun r => { r with
      sck := { r.sck with ends := moved r.sck.ends d }, sdt := { r.sdt with ends := moved r.sdt.ends d }
      reqFrom := moved r.reqFrom (1024 * d) }
    match s.portLive p, (s.port p).grid with
    | true, some g =>
      let b := s.portBoundary p g c s.wall
      s.modPort p fun r => { r with
        resize := some (b.1, b.2, (match r.resize with | some x => x.2.2 | none => 0) + d), loadK := none, cell := 0 }
    | _, _ => s
  | _, _ => s

/-! ## The dead map -/

/-- The byte that holds dead-map bit `m` (R180). -/
def deadAddr (m : Nat) : Nat := 0x102E80000 + m / 8

/-- The scan ports set dead-map bit `m` by a read-modify-write; if the word cannot be read the mark is not stored (R180). -/
def State.markDead (s : State) (m : Nat) : State :=
  let (a, s) := s.readMem 12 (deadAddr m) 1
  match a with
  | .data [b] =>
    if b.toNat.testBit (m % 8) then s
    else
      let (r, s) := s.writeMem 12 (deadAddr m) [b ||| BitVec.ofNat 8 (2 ^ (m % 8))]
      match r with
      | .data _ => (s.raise F.ANV_PIPE_INT_STAT_dead_marked).bump 7 4
      | _ => s
  | _ => s

end Sys2Proof.Machine
end

