-- ==== Sys2Proof/Machine/Sets.lean ====
section
/-! DEFINITION. What a port in RUN sends of itself: LINE and SUBF sets at their edges (R219, R226, R227), the frame command (R205, R246,
R247), the change of grid (R238), and the cells of a load (R203, R221, R222). -/

namespace Sys2Proof.Machine

/-! ## LINE and SUBF sets -/

/-- The data bytes of a LINE or SUBF set before its CRC: residual, then two bytes (R219). -/
def setBytes (rho b3 b4 : Nat) : List Byte := natLE 1 rho ++ natLE 1 (rho / 256) ++ natLE 1 b3 ++ natLE 1 b4

/-- The edge of slot `slot` of frame `k` at the port, by its own wall time: with the schedule's offset (R269), and on the old grid of a
subframe being resized moved by the step (R210). -/
def State.portEdge (s : State) (p : Nat) (g : Grid) (k slot : Nat) : Nat :=
  let r := s.port p
  ((g.edge k slot : Int) + r.shift + (match r.resize with | some x => x.2.2 | none => 0)).toNat

/-- A set of the port for the edge at slot `slot` of frame `k` leaves, timed to its edge (R226, R227), after the fine-delay step
of the blanking interval (R235). No set cuts into one in progress (R220). -/
def State.sendSet (s : State) (p k slot : Nat) (g : Grid) (start : LaneChar) (b3 b4 : Nat) : State :=
  match s.chainOf p with
  | none => s
  | some c =>
    let s := (s.shiftStep p).fineStep p
    let e := s.portEdge p g k slot
    let ends := setEnd c e
    let begin := ends - 6 * chainTChar c
    if begin < (s.port p).sck.ends then s
    else
      let s := s.reach ((ends - s.lead p c) * 1024)
      let s := s.sckSend p c begin (framed start (setBytes (e - chainNAnt c * chainTChar c - ends) b3 b4))
      (if s.drives then s.bump 9 1 p else s).pump p

/-- The subframe that a step of wall time resizes loses the passes that would run into the boundary of the new schedule, and no other
subframe of the old grid follows it (R210). -/
def State.lineKept (s : State) (p : Nat) (g : Grid) (k j slot : Nat) : Bool :=
  match (s.port p).resize, s.chainOf p with
  | some x, some c => (s.port p).subf == (k, j) && setEnd c (s.portEdge p g k slot) * 1024 ≤ s.subfBegin p g c x.1 x.2.1
  | _, _ => true

/-- LINE_SET (R219, R227, R235): line `l` of pass `i` of subframe `j` of frame `k`. Line 0 of pass 0 is a SUBF set's. -/
def execLineSet (p k j i l : Nat) (s : State) : Result :=
  match (s.port p).grid with
  | some g =>
    if p < 64 ∧ s.portLive p ∧ j < g.nSf ∧ i < g.nPs ∧ l < g.nLine ∧ (i ≠ 0 ∨ l ≠ 0) ∧ s.lineKept p g k j (g.slot j i l) then
      done (s.sendSet p k (g.slot j i l) g .line l i)
    else done s
  | none => done s

/-- The cells of a load (R222). -/
def Grid.cells (g : Grid) (c : List Byte) : Nat := (16 * g.nLine * chainNDk c * g.word + 239) / 240

/-- The load of frame `k` on the port is complete. -/
def State.loadDone (s : State) (p k : Nat) (g : Grid) : Bool :=
  match s.chainOf p with
  | some c => (s.port p).loadK == some k && g.cells c ≤ (s.port p).cell
  | none => true

/-- The frame command that the port sends for P(k) (R205, R246, R247, R279). -/
def State.portCommand (s : State) (p k : Nat) (g : Grid) : Nat × State :=
  let cmd := s.frameCommand k
  if s.portState p = 5 then
    if (s.port p).resume ∧ cmd = 1 ∧ s.quenchSrc p = 0 then
      let s := ((s.setFld (F.SCN_PORT_STATUS_state p) 4).lower (quenchedBit p)).modPort p fun r => { r with resume := false }
      (1, (s.scanReport 8 p 0 0 0 noPixel 0).mirrorPort p)
    else (3, s)
  else if cmd = 1 ∧ s.twn.firstShow = some k ∧ !s.loadDone p k g then
    (2, (s.bump 10 12).raise F.TWN_INT_STAT_load_repeat)
  else (cmd, s)

/-- The port goes over to its new grid at the P(k) for which it has been told to, and tests R230 again (R238). -/
def State.changeGrid (s : State) (p k : Nat) : State :=
  match (s.port p).newGrid with
  | some (g, k') =>
    if (s.port p).armed ∧ k' ≤ k then
      let s := s.modPort p fun r => { r with grid := some g, newGrid := none, armed := false, resize := none }
      if s.r230 p g = 0 then s else s.portFault p (s.r230 p g)
    else s
  | none => s

/-- The subframe at whose boundary a resized subframe ends has come, or none is being resized (R210). -/
def State.subfKept (s : State) (p k j : Nat) : Bool :=
  match (s.port p).resize with
  | some x => x.1 < k || (x.1 == k && x.2.1 ≤ j)
  | none => true

/-- The SUBF set of subframe `j` of frame `k` on the port's grid. -/
def State.sendSubf (s : State) (p k j : Nat) (g : Grid) : State :=
  let (cmd, s) := if j = 0 then s.portCommand p k g else (0, s)
  let s := (s.modPort p fun r => { r with resize := none, subf := (k, j) }).sendSet p k (g.slot j 0 0) g .subf j (j / 256 + 2 * cmd)
  let s := if s.drives then s.bump 8 2 else s
  let s := if s.drives ∧ cmd = 1 then s.bump 8 1 else s
  if j = 0 ∧ s.portState p = 5 then s.blank p else s

/-- SUBF_SET (R205, R219, R227, R238, R246): subframe `j` of frame `k`, with the frame command at j = 0. -/
def execSubfSet (p k j : Nat) (s : State) : Result :=
  let s := if j = 0 then s.changeGrid p k else s
  match (s.port p).grid with
  | some g => if p < 64 ∧ s.portLive p ∧ j < g.nSf ∧ s.subfKept p k j then done (s.sendSubf p k j g) else done s
  | none => done s

/-- The last P of the old grid before P(k) of the new: its SUBF set must have gone before APPLY goes (R238, R240). -/
def State.lastOldSet (s : State) (p : Nat) (old new : Grid) (c : List Byte) (k : Nat) : Nat :=
  let n := old.firstP (new.pWall k)
  if n = 0 then s.wall else (setEnd c (old.edge (n - 1) 0) - s.lead p c) * 1024

/-- The port is told of the grid change at P(k): GEOMETRY and APPLY are offered after the last SUBF set of the old grid with j = 0. -/
def State.armGrid (k : Nat) (s : State) (p : Nat) : State :=
  match (s.port p).newGrid, (s.port p).grid, s.chainOf p with
  | some (g, k'), some old, some c =>
    if s.portLive p ∧ k = k' ∧ !(s.port p).armed then
      let s := (s.reach (s.lastOldSet p old g c k)).modPort p fun r => { r with armed := true }
      if s.isStandby then s else s.offer p (geometryReqs c g ++ [applyAll])
    else s
  | _, _, _ => s

/-- GRID_CHANGE_APPLY (R238, R240): every port that changes its grid at P(k) is told so, in time for the SUBF set of that P(k). -/
def execGridChangeApply (k : Nat) (s : State) : Result := done ((List.range 64).foldl (State.armGrid k) s)

/-! ## Cells -/

/-- Chain position `x` of the port carries a sub-pixel of the frame that a placement or the raw port mask covers (R163, R203). -/
def State.covered (s : State) (f : FrameRec) (p : Nat) (c : List Byte) (x : Nat) : Bool :=
  x < 3 * chainPixels c &&
    (match s.anv.canvas, s.grid with
     | some cv, some g =>
       if canvasRaw cv then (s.parties g f.k).any fun t => (streamPorts t.2.block).testBit p
       else match f.temper with
         | some t => t.places.any fun e => byteAt e 8 == p && le e 12 4 ≤ x / 3 && x / 3 < le e 12 4 + le e 4 2 * le e 6 2
         | none => false
     | _, _ => false)

/-- The grey word of chain position `x`, if it is there: graded, or the zero word at s_lo (R203). -/
def State.wordAt (s : State) (f : FrameRec) (p : Nat) (c grey : List Byte) (g : Grid) (x : Nat) : Option Nat :=
  if s.covered f p c x then (f.words.find? fun w => w.1 == 3 * 65536 * p + x).map (·.2)
  else some (greySLo grey * 2 ^ (g.word - 2))

/-- Cell `n` of a load: its 30 data bytes and the words that end in it, once every word it needs is there (R222). -/
def State.cellBytes (s : State) (f : FrameRec) (p : Nat) (c grey : List Byte) (g : Grid) (n : Nat) : Option (List Byte × List Nat) :=
  let w := g.word
  let total := 16 * g.nLine * chainNDk c
  let x0 := 240 * n / w
  let xs := (List.range ((240 * n + 239) / w + 1 - x0)).map (· + x0) |>.filter (· < total)
  let words := xs.map fun x => (x, s.wordAt f p c grey g x)
  if words.all (fun x => x.2.isSome) then
    let v := words.foldl (fun a x => a + (x.2.getD 0) * 2 ^ (w * (x.1 - x0))) 0
    some (natLE 30 (v / 2 ^ (240 * n - w * x0)), (words.filter fun x => (w * (x.1 + 1) - 1) / 240 == n).map fun x => x.2.getD 0)
  else none

/-- The frame that a load may be of: it has begun grading, is not refused, and has not come to be lit (R204, R279). -/
def State.loadable (s : State) (f : FrameRec) : Bool :=
  f.temper.isSome && (s.decision f.k).getD 0 == 0 && s.anv.litK != some f.k

/-- The frame of the lower index. -/
def earlier (m : Option FrameRec) (f : FrameRec) : Option FrameRec :=
  match m with
  | some e => if f.k < e.k then some f else some e
  | none => some f

/-- The frame whose load the port goes on with: the one under way, until it is complete or is lit, or the next that has begun
grading. -/
def State.loadFrame (s : State) (p : Nat) (g : Grid) (c : List Byte) : Option FrameRec :=
  let r := s.port p
  let fs := s.anv.frames.filter s.loadable
  match (if r.cell < g.cells c then fs.find? fun f => r.loadK == some f.k else none) with
  | some f => some f
  | none => (fs.filter fun f => r.loadK.all fun k => k < f.k).foldl earlier none

/-- The next cell of the port's load, with the frame it belongs to and its number. -/
def State.nextCell (s : State) (p : Nat) : Option (FrameRec × Nat × List Byte × List Nat × Grid) :=
  match s.chainOf p, s.anv.grey, (s.port p).grid with
  | some c, some grey, some g =>
    match s.loadFrame p g c with
    | some f =>
      let n := if (s.port p).loadK = some f.k then (s.port p).cell else 0
      (s.cellBytes f p c grey g n).map fun b => (f, n, b.1, b.2, g)
    | none => none
  | _, _, _ => none

/-- Grey words of the port that have been released and not yet sent, as the output queue holds them: in bits (R204). -/
def State.queued (s : State) (p : Nat) (g : Grid) (c : List Byte) : Nat :=
  let r := s.port p
  (s.anv.frames.filter s.loadable).foldl (fun a f =>
    let sent := if r.loadK = some f.k then 240 * r.cell / g.word else if r.loadK.any (f.k < ·) then 16 * g.nLine * chainNDk c else 0
    a + g.word * (f.words.filter fun w => w.1 / 196608 == p && sent ≤ w.1 % 196608).length) 0

/-- The port's output queue of 64 KiB is full (R204). It never holds up a word that the next cell still needs (assumption 96). -/
def State.queueFull (s : State) (p : Nat) : Bool :=
  match (s.port p).grid, s.chainOf p with
  | some g, some c => 524288 ≤ s.queued p g c && (s.nextCell p).isSome
  | _, _ => false

/-- The port sends no more cells: an agreed hand-off has reached the SUBF set at which its data lane passes on (R282). -/
def State.sdtPassed (s : State) (p begin : Nat) (c : List Byte) : Bool :=
  match s.twn.handOut, s.grid with
  | some h, some g => h.acked && s.subfBegin p g c h.k h.j ≤ begin * 1024
  | _, _ => false

/-- LOAD_CELL_SEND (R203, R221, R222): a cell leaves when the output queue holds its words and the one before it has gone. -/
def execLoadCellSend (p : Nat) (s : State) : Result :=
  match s.nextCell p, s.chainOf p with
  | some (f, n, b, words, g), some c =>
    let begin := max (s.laneFrom p c) (s.port p).sdt.ends
    if p < 64 ∧ s.portLive p ∧ s.drives ∧ !s.sdtPassed p begin c then
      let s := s.reach ((begin - s.lead p c) * 1024)
      let s := (s.sdtSend p c begin (framed (if n = 0 then .first else .next) b)).bump 9 0 p
      let s := s.bump 8 0 0 words.length
      let s := words.foldl (fun s w => s.bump 8 (5 + w / 2 ^ (g.word - 2))) s
      done (s.modPort p fun r => { r with loadK := some f.k, cell := n + 1 })
    else done s
  | _, _ => done s

/-- STANDBY_CELL_OBSERVED (R267): a standby drains its queue by the cell that it sees complete. -/
def execStandbyCellObserved (p : Nat) (s : State) : Result :=
  match s.nextCell p with
  | some (f, n, _, _, _) =>
    if p < 64 ∧ s.portLive p ∧ s.isStandby then done (s.modPort p fun r => { r with loadK := some f.k, cell := n + 1 }) else done s
  | none => done s

end Sys2Proof.Machine
end

