-- ==== Sys2Proof/Machine/Scan.lean ====
section
/-! DEFINITION. The scan ports (R214 to R254): the commands of ring 0x70, the start of a port, its images, its measurements, its poll,
and the alerts and lane events it takes. -/

namespace Sys2Proof.Machine

/-! ## Commands (R250) -/

/-- A command of ring 0x70 on the port that byte 1 names; every port where `all` allows 0xFF. -/
def State.scanCommand (s : State) (op : Nat) (all : Bool) (k : Nat → Nat → List Byte → State → Option Cpl × State) : State :=
  s.takeCommand 0x70 op fun slot desc s =>
    let p := byteAt desc 1
    if p < 64 ∨ (all ∧ p = 0xFF) then k p slot desc s else (some (badField 0x81), s)

/-- The ports a command addresses. -/
def portsOf (p : Nat) : List Nat := if p = 0xFF then List.range 64 else [p]

/-- The valid rail runs rise strictly and lie below n_dk: the first that does not, if any (R251). -/
def badRun (b : List Byte) : Option Nat :=
  ((List.range 4).foldl (fun (acc : Option Nat × Int) i =>
    let r := chainRun b i
    let first : Int := bits r 0 9
    if acc.1.isSome || !r.testBit 13 then acc
    else if first ≤ acc.2 || (chainNDk b : Int) ≤ first then (some (24 + 4 * i), acc.2)
    else (none, first)) (none, -1)).1

/-- The first field of a CHAIN_SET block that fails the checks of R251; R43 against the loaded n_line names n_dk. -/
def State.chainBad (s : State) (b : List Byte) : Option Nat :=
  let fits := match s.anv.grey with | some g => 3 * chainPixels b ≤ 16 * greyNLine g * chainNDk b | none => true
  match firstBad [(1 ≤ chainNDk b && chainNDk b ≤ 512, 0), (chainPixels b ≤ 65536, 4), (chainRate b ≤ 2, 8),
      (1 ≤ chainFlywheel b && chainFlywheel b ≤ 8, 9), (16 ≤ chainNAnt b && chainNAnt b ≤ 1024, 10),
      (chainImages b % 64 == 0 && chainImages b < 2 ^ 40, 16), (fits, 0)] with
  | some o => some o
  | none => badRun b

/-- CHAIN_SET (R239, R250, R251): refused unless the port is OFF or FAULT, and while any stream is started. -/
def execChainSet (s : State) : Result :=
  done (s.scanCommand 0x01 false fun p _ desc s =>
    if !(s.portState p == 0 || s.portState p == 6) || s.anyStarted then (some refusedState, s)
    else s.withBlock 0x70 desc fun b s =>
      match s.chainBad b with
      | some o => (some (badField o), s)
      | none =>
        let s := (s.modPort p fun r => { r with chain := some b }).raise (F.SCN_PORT_STATUS_chain_set p)
        (some okCpl, s.greyFigures.judgeSync))

/-- Class 2 holds the port in RUN on the active (R268). -/
def State.heldPort (s : State) (p : Nat) : Option TwinPort :=
  match s.twn.ports.find? fun x => x.1 == p with
  | some x => if x.2.state = 4 then some x.2 else none
  | none => none

/-- A standby's start takes over what class 2 holds and goes on at step 4 (R268). -/
def State.startFromTwin (s : State) (p : Nat) (t : TwinPort) : State :=
  let s := ((s.setFld (F.SCN_PORT_STATUS_state p) 3).setFld (F.SCN_PORT_STATUS_found p) t.found).setReg (Reg.SCN_PORT_RTT p)
    (BitVec.ofNat 32 t.rt0)
  s.modPort p fun r => { r with step := 4, dks := t.dks, offsets := t.offsets }

/-- Step 1: training on both outbound lanes, if the module drives them (R237, R265). -/
def State.startTraining (s : State) (p : Nat) : State :=
  let s := (s.setFld (F.SCN_PORT_STATUS_state p) 1).mirrorPort p
  if s.drives then s.emit (.training p) else s

/-- PORT_START (R237, R268). -/
def execPortStart (s : State) : Result :=
  done (s.scanCommand 0x02 false fun p slot _ s =>
    let twin := s.heldPort p
    if (s.chainOf p).isNone || !(s.portState p == 0 || s.portState p == 6) || s.grid.isNone || !s.groupOn p
        || (s.isStandby && twin.isNone) then (some refusedState, s)
    else
      let s := (s.leaveFault p).modPort p fun r => { r with
        startSlot := some slot, step := 1, dks := [], offsets := [], rtCand := none, shift := 0, lastEng := 3 }
      match s.isStandby, twin with
      | true, some t => (none, s.startFromTwin p t)
      | _, _ => (none, s.startTraining p))

/-- What has been sent on the clock lane has left the pads. -/
def State.lanesOut (s : State) (p : Nat) : State :=
  match s.chainOf p with
  | some c => s.reach (((s.port p).sck.ends - s.lead p c) * 1024)
  | none => s

/-- PORT_STOP (R239): BLANK, then OFF once it has left the pads. -/
def execPortStop (s : State) : Result :=
  done (s.scanCommand 0x03 false fun p _ _ s =>
    let s := if s.portOpen p then (s.blankLast p).lanesOut p else s
    let s := ((s.leaveFault p).abandonPort p 0).setFld (F.SCN_PORT_STATUS_state p) 0
    (some okCpl, (s.lower (quenchedBit p)).mirrorPort p))

/-- QUENCH_SET (R245, R268): qs_host of one port, or the module Quench for all. -/
def execQuenchSet (s : State) : Result :=
  done (s.scanCommand 0x04 true fun p _ _ s =>
    if s.isStandby then (some refusedState, s)
    else if p = 0xFF then (some okCpl, s.moduleQuench 2)
    else (some okCpl, (s.assertSrc p 4).mirrorPort p))

/-- qs_host goes, and a QUENCHED port may leave at the next admitted frame (R247). -/
def State.hostResume (s : State) (p : Nat) : State :=
  let s := s.clearSrc p 4
  let live := s.portState p == 5
  (s.modPort p fun r => { r with resume := live }).mirrorPort p

/-- QUENCH_RESUME (R31, R247, R268): refused while any source other than qs_host is asserted; for every port it also
releases the host's module Quench. -/
def execQuenchResume (s : State) : Result :=
  done (s.scanCommand 0x05 true fun p _ _ s =>
    let modQ := if p = 0xFF then bits s.scn.modQ 0 2 + bits s.scn.modQ 3 2 else s.scn.modQ
    if s.isStandby || modQ != 0 || (portsOf p).any (fun q => s.fld (F.SCN_PORT_QSRC_src q) % 32 - bits (s.fld (F.SCN_PORT_QSRC_src q)) 4 1 * 16 != 0)
    then (some refusedState, s)
    else
      let s := if p = 0xFF then s.moduleRelease 2 else s
      (some okCpl, (portsOf p).foldl State.hostResume s))

/-- DK_ACCESS (R250, R268): completes with the reply, or after three timeouts; a broadcast has none. -/
def execDkAccess (s : State) : Result :=
  done (s.scanCommand 0x06 false fun p slot desc s =>
    let w := le desc 2 2
    let op := if (byteAt desc 5).testBit 0 then 2 else 1
    if s.isStandby || !s.portLive p then (some refusedState, s)
    else
      let r : ScnReq := { engine := 3, addr := bits w 0 9, opcode := op, reg := byteAt desc 4, data := le desc 6 2, slot := some slot }
      if w.testBit 9 then (some okCpl, s.offer p [{ r with bcast := true, slot := none }]) else (none, s.offer p [r]))

/-- The images of the port have an address. -/
def State.hasImages (s : State) (p : Nat) : Bool :=
  match s.chainOf p with | some c => chainImages c != 0 | none => false

/-- DK_RELOAD (R244, R268): completes when every image of the ports addressed has been written; a port that is still writing begins
again from its first DK-16. -/
def execDkReload (s : State) : Result :=
  done (s.scanCommand 0x07 true fun p slot _ s =>
    if s.isStandby || (p < 64 && !s.portLive p) then (some refusedState, s)
    else
      let ps := (portsOf p).filter fun q => s.portLive q && s.hasImages q
      let s := ps.foldl (fun s q => s.modPort q fun r => { r with imagePos := some 0, imageSlots := r.imageSlots ++ [slot] }) s
      (if ps.isEmpty then some okCpl else none, s))

/-- The ECHOs of a sweep over the chain (R233, R234). -/
def State.startSweep (s : State) (p : Nat) : State :=
  (s.modPort p fun r => { r with rts := [], offers := r.offers.filter fun q => q.opcode != 3 || q.cable }).offer p
    ((List.range (s.port p).dks.length).map fun d => echoReq d false)

/-- The ECHO for RT_0 (R234). -/
def State.startCable (s : State) (p : Nat) : State :=
  if ((s.port p).offers ++ (s.port p).requests).any fun q => q.cable then s else s.offer p [echoReq 0 true]

/-- REMEASURE (R250, R268): completes when RT_0 and every a_d have been measured again. -/
def execRemeasure (s : State) : Result :=
  done (s.scanCommand 0x08 false fun p slot _ s =>
    if s.isStandby || !s.portLive p then (some refusedState, s)
    else
      let s := s.modPort p fun r => { r with remSlots := r.remSlots ++ [slot], remRt := false, remOff := false }
      (none, (s.startCable p).startSweep p))

/-! ## Starting a port (R237) -/

/-- Step 2: the lanes end their training in sync, with a running disparity that the PRBS leaves open, and ENUM goes out. -/
def State.startEnum (s : State) (p : Nat) : State :=
  match s.chainOf p with
  | none => s
  | some c =>
    let l : Lane := { ends := s.laneFrom p c, rd := Config.trainedDisparity s.draws }
    let s := (s.drawn.setFld (F.SCN_PORT_STATUS_state p) 2).modPort p fun r => { r with step := 2, sck := l, sdt := l }
    s.offer p [{ engine := 1, addr := 0, opcode := 4, reg := 0, data := 0, bcast := true }]

/-- Step 3: the identity registers of every DK-16 are read (R237, R240). -/
def State.startIdentity (s : State) (p n : Nat) : State :=
  (s.modPort p fun r => { r with step := 3, dks := List.replicate n ⟨0, 0, 0, 0, 0, 0⟩ }).offer p
    ((List.range n).flatMap fun d => (List.range 6).map fun i => { engine := 1, addr := d, opcode := 1, reg := i, data := 0 })

/-- Step 4 ends: RT_0, every a_d, A, W and f; a standby keeps the values of class 2 (R233, R269). -/
def State.startMeasured (s : State) (p : Nat) : State :=
  let r := s.port p
  let twin := s.isStandby
  let rts := (List.range r.dks.length).map fun d => Sparse.get (fun _ => 0) r.rts d
  let rt0 := if twin then s.regN (Reg.SCN_PORT_RTT p) else rts.headD 0
  let s := s.modPort p fun r => { r with delay := r.cable rt0, offsets := if twin then r.offsets else r.allOffsets rts }
  let s := (s.setReg (Reg.SCN_PORT_RTT p) (BitVec.ofNat 32 rt0)).setTrim p (s.trimGoal p)
  let s := s.setTrim p (s.trimGoal p)
  s.setFld (F.SCN_PORT_SPAN_span p) (trimWord ((s.port p).offsets.getLast?.getD 0))

/-- A start has ended in RUN. -/
def State.startDone (s : State) (p : Nat) : State :=
  let slot := (s.port p).startSlot
  let s := (s.modPort p fun r => { r with startSlot := none }).portRun p
  match slot with
  | some n => s.finish 0x70 n okCpl
  | none => s

/-- Step 5: geometry and trims are written; a standby sends nothing (R268). -/
def State.startGeometry (s : State) (p : Nat) (g : Grid) : State :=
  let s := s.modPort p fun r => { r with step := 5, grid := some g }
  if s.isStandby then s
  else match s.chainOf p with
    | some c => s.offer p ((s.port p).stepFive c g)
    | none => s

/-- Step 6: the images are written, then APPLY; with no images APPLY goes to all (R237, R240). A standby skips it (R268). -/
def State.startImages (s : State) (p : Nat) : State :=
  let images := s.hasImages p
  let s := s.modPort p fun r => { r with step := 6, imagePos := if images && !s.isStandby then some 0 else none }
  if images || s.isStandby then s else s.offer p [applyAll]

/-- The requests of the step under way have all been answered. -/
def State.stepQuiet (s : State) (p : Nat) : Bool := (s.port p).offers.isEmpty && (s.port p).requests.isEmpty && (s.port p).imagePos.isNone

/-- PORT_START_STEP_DONE (R237): the step under way is complete, once its requests have been answered: the next begins, or the port
enters FAULT or RUN. A configuration loaded since step 5 is written first (assumption 100). -/
def execPortStartStepDone (p : Nat) (s : State) : Result :=
  let r := s.port p
  let n := match s.chainOf p with | some c => chainNDk c | none => 0
  if 64 ≤ p ∨ !s.stepQuiet p then done s
  else match r.step, s.grid with
    | 1, _ => if s.drives then done (s.startEnum p) else done s
    | 2, _ => if s.found p = n then done (s.startIdentity p n) else done (s.portFault p 2)
    | 3, _ =>
      if r.dks.all fun d => d.id == 0xD016 && 2 ≤ d.rev then
        done ((((s.setFld (F.SCN_PORT_STATUS_state p) 3).modPort p fun r => { r with step := 4 }).mirrorPort p).startSweep p)
      else done (s.portFault p 3)
    | 4, some g =>
      let s := s.startMeasured p
      if s.r230 p g = 4 then done (s.portFault p 4) else done (s.startGeometry p g)
    | 5, some g => if s.r230 p g = 5 then done (s.portFault p 5) else done (s.startImages p)
    | 6, some g => if r.grid = some g then done (s.startDone p) else done (s.startGeometry p g)
    | _, _ => done s

/-- TRAIN_TIMEOUT (R237): the return lane has not locked within 10 ms. -/
def execTrainTimeout (p : Nat) (s : State) : Result :=
  if p < 64 ∧ (s.port p).step = 1 then done (s.portFault p 1) else done s

/-! ## Images (R244) -/

/-- The port that the next image read serves. -/
def State.imagePort (s : State) : Option Nat :=
  ((List.range 64).map fun i => (s.scn.imageNext + i) % 64).find? fun p => (s.port p).imagePos.isSome

/-- The frame period under way, or the 4.0 ms under way while no canvas is set, as a number of its own (R244). -/
def State.imagePeriod (s : State) : Nat :=
  match s.grid with
  | some g => 2 * ((g.at s.wall - g.pNum 0) / g.frame).toNat + 1
  | none => 2 * (s.wall / (4000000 * ns))

/-- The requests that write the image `bs` to DK-16 `d`, with its APPLY (R240, R244). -/
def imageReqs (d : Nat) (bs : List Byte) : List ScnReq :=
  (List.range 32).map (fun r => writeReq 2 d (0x20 + r) (le bs (2 * r) 2) false) ++ [writeReq 2 d 0x1F 1 false]

/-- Images of `n` DK-16 from `d` on are read and offered; the first that cannot be read ends it. -/
def State.writeImages (p base : Nat) : Nat → Nat → State → MemAnswer × State
  | 0, _, s => (.data [], s)
  | n + 1, d, s =>
    match s.readMem 12 (base + 64 * d) 64 with
    | (.data bs, s) => State.writeImages p base n (d + 1) (s.offer p (imageReqs d bs))
    | r => r

/-- Every image of the port has been read, and its writes answered: its DK_RELOADs end, each once no other port works on it. -/
def State.imagesDone (s : State) (p : Nat) : State :=
  let r := s.port p
  if r.imagePos.isSome || (r.offers ++ r.requests).any (fun q => q.engine == 2) then s
  else
    let s := s.modPort p fun r => { r with imageSlots := [] }
    r.imageSlots.foldl (fun s n => if s.scn.ports.any fun x => x.2.imageSlots.contains n then s else s.finish 0x70 n okCpl) s

/-- The reading of the port's images ends at an error, or on a standby: so do its start and its DK_RELOADs. -/
def State.imagesFailed (s : State) (p : Nat) (c : Cpl) : State :=
  let slots := (s.port p).imageSlots
  let s := s.modPort p fun r => { r with imagePos := none }
  if (s.port p).step = 6 then s.portFault p 6 else slots.foldl (fun s n => s.endReload n c) s

/-- IMAGE_CHUNK_READ (R244): the next port in turn has up to `n` of its images read and written, within the 64 KiB of the period. -/
def execImageChunkRead (n : Nat) (s : State) : Result :=
  let used := if s.scn.imagePeriod = s.imagePeriod then s.scn.imageUsed else 0
  match s.imagePort with
  | none => done s
  | some p =>
    match s.chainOf p, (s.port p).imagePos with
    | some c, some d =>
      let m := min (min n (1024 - used)) (chainNDk c - d)
      if s.isStandby then done (s.imagesFailed p refusedState)
      else if m = 0 then done s
      else
        let s := s.modScn fun t => { t with imageNext := (p + 1) % 64, imagePeriod := s.imagePeriod, imageUsed := used + m }
        let (a, s) := State.writeImages p (chainImages c) m d s
        match a with
        | .data _ => done (s.modPort p fun r => { r with imagePos := if d + m < chainNDk c then some (d + m) else none })
        | e => done (s.imagesFailed p { status := if e = .denied then Status.accessDenied else Status.memoryError })
    | _, _ => done s

/-! ## Measurements (R232 to R234, R81) -/

/-- The REMEASUREs of the port complete once both parts are measured. -/
def State.remeasured (s : State) (p : Nat) : State :=
  let r := s.port p
  if r.remRt && r.remOff then
    r.remSlots.foldl (fun s n => s.finish 0x70 n okCpl) (s.modPort p fun r => { r with remSlots := [], remRt := false, remOff := false })
  else s

/-- A valid RT_0: one more than 0.5 ns from the previous is discarded unless it repeats the one discarded before it (R81);
an accepted one moves the goal of the trims (R234). A REMEASURE measures again until one is accepted. -/
def State.newRt0 (s : State) (p rt : Nat) : State :=
  let old := s.regN (Reg.SCN_PORT_RTT p)
  let near (a b : Nat) : Bool := ((a : Int) - b).natAbs ≤ 32
  let repeats := match (s.port p).rtCand with | some c => near c rt | none => false
  let waits := !(s.port p).remSlots.isEmpty
  if near old rt || repeats then
    let s := s.setReg (Reg.SCN_PORT_RTT p) (BitVec.ofNat 32 rt)
    let s := (s.modPort p fun r => { r with rtCand := none, delay := r.cable rt, remRt := waits }).pmc 9 65 p
    (s.mirrorPort p).remeasured p
  else
    let s := (s.modPort p fun r => { r with rtCand := some rt }).bump 9 6 p
    let s := (s.raise F.SCN_INT_STAT_rt_discarded).scanReport 10 p 0 0 0 noPixel 0
    if waits then s.startCable p else s

/-- Every a_d has been measured: FIRE_TRIM is written (R233, R234). -/
def State.newOffsets (s : State) (p : Nat) : State :=
  let r := s.port p
  let rts := (List.range r.dks.length).map fun d => Sparse.get (fun _ => 0) r.rts d
  let s := s.modPort p fun r => { r with offsets := r.allOffsets rts, rts := [], remOff := !r.remSlots.isEmpty }
  let s := s.setFld (F.SCN_PORT_SPAN_span p) (trimWord ((s.port p).offsets.getLast?.getD 0))
  ((s.offer p (s.port p).trimReqs).mirrorPort p).remeasured p

/-- A valid round trip of a sweep; the last one of a sweep in RUN gives the offsets. -/
def State.sweepReply (s : State) (p d rt : Nat) : State :=
  let s := s.modPort p fun r => { r with rts := Sparse.put r.rts d rt }
  let r := s.port p
  if r.step = 0 ∧ r.rts.length = r.dks.length then s.newOffsets p else s

/-- A standby measures nothing: what a former active left waiting is refused (R268). -/
def State.endMeasures (s : State) (p : Nat) : State :=
  (s.port p).remSlots.foldl (fun s n => s.finish 0x70 n refusedState)
    (s.modPort p fun r => { r with remSlots := [], remRt := false, remOff := false, rts := [] })

/-- CABLE_REMEASURE (R232, R234): the periodic RT_0 of a port in RUN. -/
def execCableRemeasure (p : Nat) (s : State) : Result :=
  if p < 64 ∧ s.portLive p then (if s.isStandby then done (s.endMeasures p) else done (s.startCable p)) else done s

/-- CHAIN_OFFSET_MEASURE (R233, R234): the periodic sweep over the chain. -/
def execChainOffsetMeasure (p : Nat) (s : State) : Result :=
  if p < 64 ∧ s.portLive p then (if s.isStandby then done (s.endMeasures p) else done (s.startSweep p)) else done s

/-! ## Alerts (R241 to R249) -/

/-- The port takes what comes on its return lane (R236). -/
def State.hears (s : State) (p : Nat) : Bool := s.groupOn p && s.portOpen p

/-- A return-lane set was discarded under R218. -/
def State.badReturn (s : State) (p : Nat) : State := s.bump 9 4 p

/-- STATUS bit `b` of DK-16 `d` has had its alert (R242). -/
def State.markSeen (s : State) (p d b : Nat) : State :=
  s.modPort p fun r => { r with
    seen := Sparse.set (fun _ => 0) r.seen d (Sparse.get (fun _ => 0) r.seen d ||| 2 ^ b) }

/-- Whether channel `ch` of DK-16 `d` on a line carries a sub-pixel, and which (R216). -/
def positionOf (c : List Byte) (p d ch line : Nat) : Bool × Nat :=
  let x := 16 * (chainNDk c * line + d) + ch
  (x < 3 * chainPixels c, 3 * (65536 * p + x / 3) + x % 3)

/-- An OPEN or SHORT alert (R241): code 1 or 2. -/
def State.channelAlert (s : State) (code p d ch line : Nat) : State :=
  match s.chainOf p with
  | none => s
  | some c =>
    let (real, m) := positionOf c p d ch line
    let s := ((s.raise F.SCN_INT_STAT_alert).markSeen p d (3 + code)).bump 9 (7 + code) p
    let s := (if real then s.markDead m else s).life (35 + code)
    s.scanReport code p d ch line (if real then m else noPixel) 0

/-- A SHUTDOWN alert asserts qs_shutdown (R245). -/
def State.shutdownAlert (s : State) (p d temp : Nat) : State :=
  let s := (((s.raise F.SCN_INT_STAT_alert).markSeen p d 0).bump 9 10 p).life 34
  (s.scanReport 3 p d 0 0 noPixel temp).assertSrc p 0

/-- A DAMAGED alert (R248), code 4, and a LOST_INPUT alert (R249), code 5. -/
def State.plainAlert (s : State) (code p d : Nat) : State :=
  let s := (s.raise F.SCN_INT_STAT_alert).markSeen p d (if code = 4 then 2 else 1)
  (if code = 4 then s.bump 9 5 p else s).scanReport code p d 0 0 noPixel 0

/-- A REG_LOST alert reaches Bellows (R243, R369). -/
def State.regLostAlert (s : State) (p d ch line : Nat) : State :=
  let s := ((s.raise F.SCN_INT_STAT_alert).markSeen p d 3).bump 9 13 p
  match s.chainOf p with
  | none => s.scanReport 6 p d ch line noPixel 0
  | some c =>
    let (real, m) := positionOf c p d ch line
    let s := s.scanReport 6 p d ch line (if real then m else noPixel) 0
    match chainGroup c d with
    | some g => s.railRegLost g
    | none => s

/-- An alert set arrives on the return lane of the port, or is discarded under R218. -/
def State.alertSet (s : State) (p : Nat) (bad : Bool) (k : State → State) : State :=
  if !(p < 64 && s.hears p) then s else if bad then s.badReturn p else k s

/-- OPEN (R241). -/
def execOpen (p d ch line : Nat) (bad : Bool) (s : State) : Result :=
  done (s.alertSet p bad fun s => s.channelAlert 1 p d ch line)

/-- SHORT (R241). -/
def execShort (p d ch line : Nat) (bad : Bool) (s : State) : Result :=
  done (s.alertSet p bad fun s => s.channelAlert 2 p d ch line)

/-- SHUTDOWN (R245). -/
def execShutdown (p d temp : Nat) (bad : Bool) (s : State) : Result :=
  done (s.alertSet p bad fun s => s.shutdownAlert p d temp)

/-- DAMAGED (R248). -/
def execDamaged (p d : Nat) (bad : Bool) (s : State) : Result := done (s.alertSet p bad fun s => s.plainAlert 4 p d)

/-- LOST_INPUT (R249). -/
def execLostInput (p d : Nat) (bad : Bool) (s : State) : Result := done (s.alertSet p bad fun s => s.plainAlert 5 p d)

/-- REG_LOST (R243, R369). -/
def execRegLost (p d ch line : Nat) (bad : Bool) (s : State) : Result :=
  done (s.alertSet p bad fun s => s.regLostAlert p d ch line)

/-! ## The poll (R242, R243) -/

/-- POLL_REQUEST (R242): the next READ of the round is offered. -/
def execPollRequest (p : Nat) (s : State) : Result :=
  let r := s.port p
  if p < 64 ∧ s.flag F.SCN_CFG_poll_en ∧ s.portLive p ∧ !s.isStandby ∧ r.pollPos < 3 * s.found p ∧
      !r.offers.any (fun q => q.engine == 0) then
    let s := s.modPort p fun r => { r with pollPos := r.pollPos + 1 }
    done (s.offer p [{ engine := 0, addr := r.pollPos / 3, opcode := 1, reg := 8 + r.pollPos % 3, data := 0 }])
  else done s

/-- The least headroom of group `g` over all ports' last complete rounds. -/
def State.groupHeadroom (s : State) (g : Nat) : Option Int :=
  (s.scn.ports.filterMap fun x => (x.2.heads.find? fun h => h.1 == g).map (·.2)).foldl
    (fun (m : Option Int) h => match m with | some v => some (min v h) | none => some h) none

/-- SCN_HEADROOM_g follows (R243), and extreme 14 with it (R559). -/
def State.showHeadroom (s : State) (g : Nat) : State :=
  match s.groupHeadroom g with
  | some h => (s.setReg (Reg.SCN_HEADROOM g) (BitVec.ofNat 32 (65536 + unsigned 16 h))).extreme 14 h g
  | none => s.setReg (Reg.SCN_HEADROOM g) 0x7FFF

/-- A poll round is complete: its sources go, and its readings are shown (R243, R245). -/
def State.pollRoundDone (s : State) (p : Nat) : State :=
  let r := s.port p
  let s := if r.pollBad then s else s.clearSrc p 2
  let s := if r.pollShut then s else s.clearSrc p 0
  let s := match r.pollTemp with
    | some (t, d) =>
      (s.setReg (Reg.SCN_PORT_TEMP p) (BitVec.ofNat 32 (65536 * d + unsigned 16 t))).extreme 5 t (p + d * 2 ^ 6)
    | none => s
  let s := s.modPort p fun r => { r with
    heads := r.pollHead, pollPos := 0, pollBad := false, pollShut := false, pollTemp := none, pollHead := [] }
  (List.range 16).foldl State.showHeadroom s

/-- The round ends when its last request is answered or given up. -/
def State.pollCheck (s : State) (p : Nat) : State :=
  let r := s.port p
  if r.pollPos = 3 * s.found p ∧ 0 < r.pollPos ∧ !(r.offers ++ r.requests).any (fun q => q.engine == 0) then s.pollRoundDone p else s

/-- A STATUS bit found set without an earlier alert acts as that alert (R242); where the alert would name a channel and a line,
the poll does not tell them: a free value stands for them. -/
def State.statusBit (s : State) (p d data b : Nat) : State :=
  let seen := (Sparse.get (fun _ => 0) (s.port p).seen d).testBit b
  if !data.testBit b then
    s.modPort p fun r => { r with seen := Sparse.set (fun _ => 0) r.seen d (setBits (Sparse.get (fun _ => 0) r.seen d) b 1 0) }
  else if seen then s
  else
    let v := (Config.statusPlace s.draws).toNat
    match b with
    | 0 => s.drawn.shutdownAlert p d (v / 1024)
    | 1 => s.plainAlert 5 p d
    | 2 => s.plainAlert 4 p d
    | 3 => s.drawn.regLostAlert p d (v % 16) (v / 16 % 64)
    | 4 => s.drawn.channelAlert 1 p d (v % 16) (v / 16 % 64)
    | _ => s.drawn.channelAlert 2 p d (v % 16) (v / 16 % 64)

/-- A reply to the poll. -/
def State.pollReply (s : State) (p d reg data : Nat) : State :=
  match reg with
  | 8 =>
    let s := s.modPort p fun r => { r with pollShut := r.pollShut || data.testBit 0 }
    (List.range 6).foldl (fun s b => s.statusBit p d data b) s
  | 9 =>
    let t := signed 16 data
    s.modPort p fun r => { r with pollTemp := match r.pollTemp with
      | some (u, e) => if u < t then some (t, d) else some (u, e)
      | none => some (t, d) }
  | _ =>
    match (s.chainOf p).bind fun c => chainGroup c d with
    | some g => s.modPort p fun r => { r with pollHead := Sparse.put r.pollHead g (match r.pollHead.find? fun h => h.1 == g with
        | some h => min h.2 (signed 16 data)
        | none => signed 16 data) }
    | none => s

/-- The completion of a DK_ACCESS from the reply's status: unknown or read-only names the register, out of range the data. -/
def dkCpl (status data : Nat) : Cpl :=
  match status with
  | 0 => { status := Status.ok, w1 := 65536 * data }
  | 3 => { status := Status.formatError, w1 := 0x86 + 65536 * data }
  | _ => { status := Status.formatError, w1 := 0x84 + 65536 * data }

/-- What an identity READ of a DK-16 returned (R237, R240). -/
def idTaken (x : DkId) (reg data : Nat) : DkId :=
  match reg with
  | 0 => { x with id := data }
  | 1 => { x with rev := data }
  | 2 => { x with tIn := data }
  | 3 => { x with tTurn := data }
  | 4 => { x with hDiff := signed 16 data }
  | _ => { x with tBlankMin := data }

/-- The reply to request `q` is acted on (R232, R233, R237, R242, R250). A round trip whose REP was held back is measured again. -/
def State.replied (s : State) (p d status : Nat) (held : Bool) (data rt : Nat) (q : ScnReq) : State :=
  match q.slot, q.opcode with
  | some n, _ => s.finish 0x70 n (dkCpl status data)
  | none, 3 => if held then s.offer p [q] else if q.cable then s.newRt0 p rt else s.sweepReply p d rt
  | none, 4 => s.setFld (F.SCN_PORT_STATUS_found p) (d + 1)
  | none, 1 =>
    if q.engine = 0 then (s.pollReply p d q.reg data).pollCheck p
    else if status = 0 then s.modPort p fun r => { r with dks := r.dks.set d (idTaken (r.dk d) q.reg data) }
    else s
  | none, _ => s

/-- The REP answers the request: of its opcode, and but for ENUM of its DK-16 and, for READ and WRITE, its register. -/
def ScnReq.answeredBy (q : ScnReq) (d opcode reg : Nat) : Bool :=
  q.opcode == opcode && (opcode == 4 || (q.addr == d && (opcode == 3 || q.reg == reg)))

/-- REP_RECEIVED (R224, R232, R233, R242, R250): a reply set arrives, or is discarded under R218. `rt` is the measured round trip of
an ECHO. On a standby the poll's readings are taken from what it hears (R267). -/
def execRepReceived (p d status : Nat) (held : Bool) (opcode reg data rt : Nat) (bad : Bool) (s : State) : Result :=
  done (s.alertSet p bad fun s =>
    match (s.port p).requests.find? fun q => q.answeredBy d opcode reg with
    | some q =>
      let s := s.modPort p fun r => { r with requests := r.requests.erase q, missed := Sparse.del r.missed d }
      ((s.replied p d status held data rt q).imagesDone p).pump p
    | none =>
      if s.isStandby then
        let s := if opcode = 1 ∧ 8 ≤ reg ∧ reg ≤ 10 then s.pollReply p d reg data else s
        if opcode = 1 ∧ reg = 10 ∧ d + 1 = s.found p then s.pollRoundDone p else s
      else s)

/-- The oldest request to a DK-16 is given up, or offered again: only DK_ACCESS ends at its third timeout (R242, R250), and a start whose
ENUM or identity READ goes unanswered three times fails (R237; assumption 100). A standby sends nothing again (R267). -/
def State.retry (s : State) (p : Nat) (q : ScnReq) : State :=
  let step := (s.port p).step
  if s.isStandby ∨ (q.slot.isSome ∧ 2 ≤ q.tries) then
    match q.slot with
    | some n => s.finish 0x70 n { status := Status.timeout }
    | none => s
  else if (step = 2 ∨ step = 3) ∧ 2 ≤ q.tries then s.portFault p step
  else s.modPort p fun r => { r with offers := { q with tries := q.tries + 1 } :: r.offers }

/-- REQUEST_TIMEOUT (R242, R250): the oldest request to DK-16 `d` goes unanswered. It is sent again; three timeouts in a row to one
DK-16 raise qs_chain, never on a standby (R267). -/
def execRequestTimeout (p d : Nat) (s : State) : Result :=
  match (s.port p).requests.find? fun q => q.addr == d with
  | none => done s
  | some q =>
    let n := Sparse.get (fun _ => 0) (s.port p).missed d + 1
    let s := (s.bump 9 3 p).modPort p fun r => { r with
      requests := r.requests.erase q, missed := Sparse.put r.missed d n, pollBad := r.pollBad || q.engine == 0 }
    let s := if 3 ≤ n ∧ !s.isStandby then s.assertSrc p 2 else s
    done ((s.retry p q).pump p)

/-! ## The return lane and the module signal -/

/-- RETURN_LANE_LOST (R245): qs_lock. -/
def execReturnLaneLost (p : Nat) (s : State) : Result :=
  if p < 64 ∧ s.portOpen p ∧ s.portState p ≠ 1 ∧ !(s.fld (F.SCN_PORT_QSRC_src p)).testBit 1 then
    done (((s.bump 9 11 p).life 35).assertSrc p 1)
  else done s

/-- RETURN_LANE_RELOCKED (R245): locked for 10 ms without a break. -/
def execReturnLaneRelocked (p : Nat) (s : State) : Result := if p < 64 then done (s.clearSrc p 1) else done s

/-- MODULE_QUENCH (R245): the module Quench signal of another subsystem. -/
def execModuleQuench (on : Bool) (s : State) : Result := done (if on then s.moduleQuench 4 else s.moduleRelease 4)

end Sys2Proof.Machine
end

