-- ==== Sys2Proof/Machine/Ingest.lean ====
section
/-! DEFINITION. Ingest and admission (R125 to R157): the canvas and stream commands, the packets a slice takes, decisions and
their reports, and a step of wall time. -/

namespace Sys2Proof.Machine

/-! ## Commands -/

/-- The first bad field of a CANVAS_SET block by its own checks (R138, R144, R154). -/
def canvasBad (b : List Byte) : Option Nat :=
  let p := canvasP b
  let q := canvasQ b
  let raw := canvasRaw b
  firstBad [(24000 * q ≤ 1001000 * p && 1000 * p ≤ 240 * q, 0), (q == 1000 || q == 1001, 4), (byteAt b 6 ≤ 1, 6),
    (3 ≤ canvasSlots b && canvasSlots b ≤ 8, 7), (raw || (1 ≤ canvasWidth b && canvasWidth b ≤ 8192), 8),
    (raw || (1 ≤ canvasHeight b && canvasHeight b ≤ 8192 && canvasWidth b * canvasHeight b ≤ 4194304), 10),
    (canvasLat b * p * 1000 ≤ 1000000000 * ((canvasSlots b - 2) * q), 12),
    (250000 ≤ canvasTAdm b && canvasTAdm b ≤ 10000000, 16), (bits (le b 24 8) 0 21 == 0 && le b 24 8 < 2 ^ 40, 24)]

/-- Checks 3, 4 and 5 of R212 as CANVAS_SET reports them. -/
def canvasGridBad (g : Grid) : Option Nat := firstBad [(g.rateOk, 0), (g.latOk, 12), (g.slotOk, 0)]

/-- A new canvas: frames, decisions and what is shown belong to the old grid. -/
def State.newCanvas (s : State) (b : List Byte) : State :=
  let s := s.modAnv fun a => { a with
    canvas := some b, tAdm := canvasTAdm b, frames := [], decisions := [], deferred := [], seen := [], withdrawn := [], steppedTo := none
    shownK := none, litK := none, repeats := 0, ran := false, litOnce := false, lit := []
    begun := [], nextGrade := 0 }
  let s := s.modScn fun c => { c with ports := c.ports.map fun x => (x.1, { x.2 with loadK := none, cell := 0 }) }
  ((s.setFld F.ANV_INGEST_STATUS_slots_used 0).setFld F.ANV_INGEST_STATUS_show 0).greyFigures.gridChanged.judgeSync

/-- CANVAS_SET (R125, R138, R144, R154, R212). -/
def execCanvasSet (s : State) : Result :=
  done (s.takeCommand 0x60 0x01 fun _ desc s =>
    match s.anyStarted, s.anv.grey with
    | false, some grey => s.withBlock 0x60 desc fun b s =>
      match canvasBad b with
      | some o => (some (badField o), s)
      | none =>
        match canvasGridBad (gridOf b grey) with
        | some o => (some (badField o), s)
        | none => (some okCpl, s.newCanvas b)
    | _, _ => (some refusedState, s))

/-- The first bad field of a STREAM_SET block (R133, R154); bytes 12 to 27 are not checked for a raw stream. -/
def streamBad (b : List Byte) : Option Nat :=
  let raw := streamRaw b
  let yuv := streamYuv b
  let w := streamWidth b
  let h := streamHeight b
  firstBad [(byteAt b 0 ≤ 1, 0), (byteAt b 1 ≤ 1, 1),
    (if raw then streamDepth b == 16 else if yuv then streamDepth b == 10 else streamDepth b == 10 || streamDepth b == 12 || streamDepth b == 16, 2),
    (raw || (1 ≤ w && w ≤ 32768), 12), (raw || (1 ≤ h && h ≤ 32768), 14),
    (raw || (streamWin b 0 < w && (!yuv || streamWin b 0 % 2 == 0)), 16), (raw || streamWin b 1 < h, 18),
    (raw || (1 ≤ streamWin b 2 && streamWin b 0 + streamWin b 2 ≤ w && (!yuv || streamWin b 2 % 2 == 0)), 20),
    (raw || (1 ≤ streamWin b 3 && streamWin b 1 + streamWin b 3 ≤ h), 22), (64 ≤ streamStage b && streamStage b ≤ 4096, 28),
    (raw || streamPorts b == 0, 32)]

/-- A command of the Anvil ring that names a stream in byte 1. -/
def State.streamCommand (s : State) (op : Nat) (k : Nat → List Byte → State → Option Cpl × State) : State :=
  s.takeCommand 0x60 op fun _ desc s => if byteAt desc 1 < 16 then k (byteAt desc 1) desc s else (some (badField 0x81), s)

/-- The stream's kind agrees with the mode of the canvas (R125). -/
def State.kindFits (s : State) (b : List Byte) : Bool :=
  match s.anv.canvas with | some c => canvasRaw c == streamRaw b | none => true

/-- STREAM_SET (R125, R154). -/
def execStreamSet (s : State) : Result :=
  done (s.streamCommand 0x02 fun n desc s =>
    if s.isStarted n then (some refusedState, s)
    else s.withBlock 0x60 desc fun b s =>
      match streamBad b with
      | some o => (some (badField o), s)
      | none =>
        if s.kindFits b then (some okCpl, (s.modAnv fun a => { a with streams := Sparse.put a.streams n { block := b } }).judgeSync)
        else (some refusedState, s))

/-- Two rectangles given as x, y, width, height overlap. -/
def overlap (a b : Nat × Nat × Nat × Nat) : Bool :=
  a.1 < b.1 + b.2.2.1 && b.1 < a.1 + a.2.2.1 && a.2.1 < b.2.1 + b.2.2.2 && b.2.1 < a.2.1 + a.2.2.2

/-- The window of a stream in the canvas. -/
def streamRect (b : List Byte) : Nat × Nat × Nat × Nat := (streamCx b, streamCy b, streamWin b 2, streamWin b 3)

/-- R126: the windows or port masks of the started streams do not overlap, and each window lies inside the canvas. -/
def State.r126 (s : State) (c b : List Byte) : Bool :=
  if canvasRaw c then s.startedStreams.all fun x => streamPorts x.2.block &&& streamPorts b == 0
  else
    let r := streamRect b
    r.1 + r.2.2.1 ≤ canvasWidth c && r.2.1 + r.2.2.2 ≤ canvasHeight c &&
      s.startedStreams.all fun x => !overlap r (streamRect x.2.block)

/-- The rectangle of a placement lies inside the canvas (R162). -/
def placeInside (w h : Nat) (e : List Byte) : Bool := le e 0 2 + le e 4 2 ≤ w && le e 2 2 + le e 6 2 ≤ h

/-- The active Temper set carries a map that fits the canvas (R162, R186). -/
def State.mapFits (s : State) (c : List Byte) : Bool :=
  match s.anv.temper with
  | some t => canvasRaw c || (!t.places.isEmpty && t.places.all (placeInside (canvasWidth c) (canvasHeight c)))
  | none => false

/-- R230 and R43 hold on every port in RUN (R230). -/
def State.portsReady (s : State) (g : Grid) : Bool :=
  s.runPorts.all fun p => s.r230 p g == 0 &&
    match s.chainOf p with | some c => 3 * chainPixels c ≤ 16 * g.nLine * chainNDk c | none => true

/-- The staging pool has room for one more stream (R323). -/
def State.stageFits (s : State) (b : List Byte) : Bool :=
  s.startedStreams.foldl (fun a x => a + streamStage x.2.block) (streamStage b) ≤ 10240

/-- Why a STREAM_START of a set stream is refused, if it is (R125, R126, R162, R166, R186, R207, R230, R323). -/
def State.startRefusal (s : State) (b : List Byte) : Option Cpl :=
  match s.anv.canvas, s.grid with
  | some c, some g =>
    if !s.kindFits b then some refusedState
    else if !s.r126 c b then some { status := Status.formatError, w1 := 0xFF }
    else if s.startedStreams.any (fun x => streamYuv x.2.block != streamYuv b) || !s.mapFits c || !s.stageFits b
        || !s.loadsOk g || !s.portsReady g then some refusedState
    else none
  | _, _ => some refusedState

/-- STREAM_START (R126, R127, R154). -/
def execStreamStart (s : State) : Result :=
  done (s.streamCommand 0x03 fun n _ s =>
    match s.stream n with
    | none => (some refusedState, s)
    | some x =>
      if s.isStarted n then (some refusedState, s)
      else match s.startRefusal x.block with
        | some c => (some c, s)
        | none =>
          let s := s.modAnv fun a => { a with
            litOnce := a.litOnce && s.anyStarted, streams := Sparse.put a.streams n { x with started := some s.wall } }
          (some okCpl, (s.setFld F.ANV_INGEST_STATUS_started (s.fld F.ANV_INGEST_STATUS_started + 2 ^ n)).judgeSync))

/-! ## Decisions (R142) -/

def State.modFrame (s : State) (k : Nat) (f : FrameRec → FrameRec) : State :=
  s.modAnv fun a => { a with frames := a.frames.map fun r => if r.k = k then f r else r }

/-- slots_used follows the frames that hold a slot (R144). -/
def State.countSlots (s : State) : State :=
  s.setFld F.ANV_INGEST_STATUS_slots_used (s.anv.frames.filter (·.slot)).length

/-- What a period shows as R155 codes it, for what `showAt` answers: 0 the frame itself, 1 a repeat, 2 dark. -/
def shownCode (show_ : Nat) : Nat := if show_ = 1 then 0 else if show_ = 2 then 1 else 2

/-- The 16 bytes of a report entry; `shown` in the coding of R155. -/
def ingestEntry (g : Grid) (k code shown : Nat) (slack : Int) : List Byte :=
  natLE 4 ((if code = 0 then Status.ok else Status.refused) + code * 256 + shown * 4096 + 65536 * (k % 65536)) ++
    natLE 4 (unsigned 32 slack) ++ natLE 8 (shortForm (g.pWall k))

/-- A report entry is written, and a refusal told to the Recorder (R155, R156, R565). -/
def State.ingestReport (s : State) (g : Grid) (k code shown : Nat) (slack : Int) : State :=
  let e := ingestEntry g k code shown slack
  let s := if code = 0 then s else s.faultEntry 0x0202 5 (s.rptPhase Reg.ANV_RPT_BASE_LO e)
  let (lost, s) := s.report Reg.ANV_RPT_BASE_LO 5 e
  if lost then (s.bump 6 13).raise F.ANV_INGEST_INT_STAT_rpt_lost else s

/-- Sequence numbers of a stream's frame that no slice has taken (R157). -/
def StreamFrame.missing (f : StreamFrame) : Nat :=
  match f.taken with
  | [] => 0
  | t :: ts =>
    let lo := ts.foldl (fun m x => min m x.seq) t.seq
    let hi := match f.taken.find? (·.last) with | some m => m.seq | none => ts.foldl (fun m x => max m x.seq) t.seq
    ((List.range (hi + 1 - lo)).filter fun i => !f.taken.any fun x => x.seq == lo + i).length

/-- The log bin of a slack in ns, by microseconds (R558). -/
def slackBin (slack : Int) : Nat :=
  let us := slack.toNat / 1000
  if us = 0 then 0 else min 15 (Nat.log2 us + 1)

/-- Counters and flags of a decision (R142, R157, R557, R558). time_wait shows whether the last decision was held off by need_lock
(assumption 92). -/
def State.countDecision (s : State) (code : Nat) : State :=
  let s := (s.bump 6 code).hist (0x5E4 + 4 * code)
  let s := s.life (if code = 0 then 30 else 31)
  let s := s.setFld F.ANV_INGEST_STATUS_time_wait (b2n (code == 9))
  if code = 0 then s else if code = 10 then s.raise F.ANV_INGEST_INT_STAT_absent else s.raise F.ANV_INGEST_INT_STAT_refused

/-- pkts_missing of every stream of a frame that is decided. -/
def State.countMissing (s : State) (k : Nat) : State :=
  match s.frameRec k with
  | some f => f.streams.foldl (fun s x => if x.missing = 0 then s else s.bump 5 3 x.stream x.missing) s
  | none => s

/-- The slack of an admission, in ns, rounded and saturated (R6, R155). -/
def State.slack (s : State) (g : Grid) (k : Nat) : Int :=
  max (-(2 ^ 31 - 1)) (min (2 ^ 31 - 1) (rneI (s.till g (g.dNum k)) (ns * g.p)))

/-- The slack of an admission is noted: its least, extreme 7 and histogram H6. -/
def State.noteSlack (s : State) (k : Nat) (v : Int) : State :=
  let s := if v < s.sfld F.ANV_SLACK_MIN_slack_min then s.setReg Reg.ANV_SLACK_MIN (BitVec.ofInt 32 v) else s
  (s.hist (0x5A4 + 4 * slackBin v)).extreme 7 v (k % 2 ^ 32)

/-- Grid index `k` is decided with `code` (R142, R143): counted, flagged, told to the twin, and reported at once if it is an
admission or D(k) has come; an admitted frame keeps the streams that take part, a refused one gives up its slot. -/
def State.decide (s : State) (g : Grid) (k code : Nat) : State :=
  let v := s.slack g k
  let who := s.takingPart g k
  let s := ((s.countMissing k).countDecision code).modAnv fun a => { a with decisions := (k, code) :: a.decisions }
  let s := if code = 0 then (s.noteSlack k v).modFrame k fun f => { f with parties := some who }
    else (s.modAnv fun a => { a with frames := a.frames.filter fun f => f.k != k }).countSlots
  let s := if s.isActive then s.linkSend 4 (natLE 8 k ++ natLE 1 code) else s
  if code = 0 then s.ingestReport g k 0 0 v
  else if s.hasCome g (g.dNum k) then s.ingestReport g k code (shownCode (s.showAt k)) 0
  else s.modAnv fun a => { a with deferred := k :: a.deferred }

/-- A DUPLICATE is reported in addition to the decision on its index (R143). -/
def State.duplicate (s : State) (g : Grid) (k : Nat) : State := (s.countDecision 5).ingestReport g k 5 3 0

/-- The code of an undecided frame whose deadline passes (R142). -/
def State.deadlineCode (s : State) (g : Grid) (k : Nat) : Nat :=
  match s.frameRec k with
  | none => 10
  | some f =>
    if (s.takingPart g k).all fun x => f.streams.any fun t => t.stream == x.1 && t.taken.any (·.last) then 2 else 1

/-- The report of a refusal decided before D(k) is written at D(k) (R142). -/
def State.lateReport (s : State) (g : Grid) (k : Nat) : State :=
  if s.anv.deferred.contains k then
    let s := s.modAnv fun a => { a with deferred := a.deferred.filter (· != k) }
    s.ingestReport g k ((s.decision k).getD 0) (shownCode (s.showAt k)) 0
  else s

/-! ## Stopping -/

/-- The frames still filling in which stream `x` takes part are refused STOPPED (R127). -/
def State.stopFrames (s : State) (g : Grid) (x : Stream) : State :=
  (s.anv.frames.filter fun f => (s.decision f.k).isNone && x.takesPart g f.k).foldl (fun s f => s.decide g f.k 8) s

/-- STREAM_STOP (R127, R154). -/
def execStreamStop (s : State) : Result :=
  done (s.streamCommand 0x04 fun n _ s =>
    match s.stream n, s.grid with
    | some x, some g =>
      if !s.isStarted n then (some okCpl, s)
      else
        let s := s.stopFrames g x
        let s := s.setFld F.ANV_INGEST_STATUS_started (s.fld F.ANV_INGEST_STATUS_started - 2 ^ n)
        (some okCpl, (s.modAnv fun a => { a with
          streams := Sparse.put a.streams n { x with started := none }, staged := a.staged.filter fun y => y.1 % 16 != n }).judgeSync)
    | _, _ => (some okCpl, s))

/-- SLACK_RESET (R155). -/
def State.slackReset (s : State) (w : Word) : State :=
  if fieldOf F.ANV_SLACK_RESET_reset w = 1 then s.setReg Reg.ANV_SLACK_MIN 0x7FFFFFFF else s

def execSlackReset (ini : Nat) (w : Word) (s : State) : Result :=
  done (s.setupAccess ini Reg.ANV_SLACK_RESET true fun s => s.slackReset w)

/-! ## Packets (R129 to R139) -/

/-- Bytes and pixels of a pixel group (R129). -/
def pixelGroup (yuv : Bool) (depth : Nat) : Nat × Nat :=
  if yuv then (5, 2) else if depth = 10 then (15, 4) else if depth = 12 then (9, 2) else (6, 1)

/-- A sample of `d` bits at 16 bits (R132). -/
def scaleSample (d code : Nat) : Nat := rne (65535 * code) (2 ^ d - 1)

/-- A well-formed packet: its identity (RTP timestamp or media time), sequence number, last mark, and its pixels by raster
coordinate: x, y and the samples. -/
structure PacketIn where
  ident  : Nat
  seq    : Nat
  last   : Bool
  pixels : List (Nat × Nat × (Nat × Nat × Nat))
  deriving DecidableEq, Repr

/-- A sample row data header: length, row, offset, F and C. -/
structure Srd where
  len  : Nat
  row  : Nat
  off  : Nat
  f    : Bool
  c    : Bool
  deriving DecidableEq, Repr

/-- Up to three sample row data headers, while the continuation bit is set. -/
def readSrds (b : List Byte) : Nat → Nat → List Srd
  | _, 0 => []
  | o, n + 1 =>
    let x : Srd := { len := be b o 2, row := bits (be b (o + 2) 2) 0 15, off := bits (be b (o + 4) 2) 0 15
                     f := (be b (o + 2) 2).testBit 15, c := (be b (o + 4) 2).testBit 15 }
    x :: (if x.c then readSrds b (o + 6) n else [])

/-- The samples of one pixel group at `o`: components most significant first, R G B or Cb Y Cr Y. An odd pixel of YCbCr keeps
only its luma (R133). -/
def groupSamples (yuv : Bool) (d : Nat) (bs : List Byte) : List (Nat × Nat × Nat) :=
  let (nb, np) := pixelGroup yuv d
  let v := beNat bs
  let comp (i : Nat) : Nat := scaleSample d (bits v (8 * nb - d * (i + 1)) d)
  if yuv then [(comp 1, comp 0, comp 2), (comp 3, 0, 0)]
  else (List.range np).map fun i => (comp (3 * i), comp (3 * i + 1), comp (3 * i + 2))

/-- The pixels of one row segment. -/
def srdPixels (yuv : Bool) (d : Nat) (data : List Byte) (x : Srd) : List (Nat × Nat × (Nat × Nat × Nat)) :=
  let (nb, np) := pixelGroup yuv d
  (List.range (x.len / nb)).flatMap fun i =>
    ((groupSamples yuv d (sliceB data (nb * i) nb)).zip (List.range np)).map fun s => (x.off + np * i + s.2, x.row, s.1)

/-- The segments' pixels, their data one after another. -/
def allPixels (yuv : Bool) (d : Nat) : List Byte → List Srd → List (Nat × Nat × (Nat × Nat × Nat))
  | _, [] => []
  | data, x :: xs => srdPixels yuv d (data.take x.len) x ++ allPixels yuv d (data.drop x.len) xs

/-- Length of the RTP header of a UDP payload: fixed part, CSRC entries and extension. -/
def rtpLength (b : List Byte) : Nat :=
  let n := 12 + 4 * bits (byteAt b 0) 0 4
  if (byteAt b 0).testBit 4 then n + 4 + 4 * be b (n + 2) 2 else n

/-- An ST 2110-20 packet, unless it is malformed (R130). -/
def rtpPacket (st b : List Byte) : Option PacketIn :=
  let yuv := streamYuv st
  let d := streamDepth st
  let (nb, np) := pixelGroup yuv d
  let h := rtpLength b
  let srds := readSrds b (h + 2) 3
  let data := h + 2 + 6 * srds.length
  let ok (x : Srd) : Bool := x.off % np == 0 && x.len % nb == 0 && x.row < streamHeight st
    && x.off + x.len / nb * np ≤ streamWidth st && !x.f
  if b.length < data + srds.foldl (fun a x => a + x.len) 0 || !srds.all ok || (srds.length == 3 && srds.any fun x => x.c && srds.getLast? == some x)
  then none
  else some { ident := be b 4 4, seq := 65536 * be b h 2 + be b 2 2, last := (byteAt b 1).testBit 7
              pixels := allPixels yuv d (b.drop data) srds }

/-- A Storas raw packet, unless it is malformed (R131): its pixels as (chain index, port). -/
def State.rawPacket (s : State) (st b : List Byte) : Option PacketIn :=
  let n := le b 18 2
  let port := byteAt b 16
  let first := le b 20 4
  let pixels := match s.chainOf port with | some c => chainPixels c | none => 0
  if le b 0 2 ≠ 0x5253 ∨ byteAt b 2 ≠ 1 ∨ n = 0 ∨ 1524 < n ∨ b.length ≠ 24 + 6 * n ∨ !(streamPorts st).testBit port
      ∨ pixels < first + n then none
  else match s.fromShort (le b 8 8) with
    | none => none
    | some t => some { ident := t, seq := le b 4 4, last := (byteAt b 3).testBit 0
                       pixels := (List.range n).map fun i =>
                         (first + i, port, (le b (24 + 6 * i) 2, le b (26 + 6 * i) 2, le b (28 + 6 * i) 2)) }

/-- The packet is foreign (R151). -/
def foreign (st b : List Byte) : Bool :=
  ((byteAt st 3).testBit 0 && be b 8 4 != le st 4 4) || ((byteAt st 3).testBit 1 && bits (byteAt b 1) 0 7 != bits (byteAt st 8) 0 7)

/-- The grid index of a frame from its RTP timestamp (R139): that of the nearest tick, of two as near the earlier. In wrap mode a
tick before 0 is one at the end of the 2^32 s; otherwise it names nothing, and the one after it is taken (assumption 75). -/
def State.rtpIndex (s : State) (g : Grid) (r : Nat) : Nat :=
  let base := 90000 * s.wall / second
  let n1 := base + (r + 2 ^ 32 - base % 2 ^ 32) % 2 ^ 32
  let n := if second * n1 < 2 ^ 31 * second + 90000 * s.wall then n1
    else if 2 ^ 32 ≤ n1 then n1 - 2 ^ 32
    else if s.wrap then n1 + 89999 * 2 ^ 32
    else n1
  let n := if s.wrap then n % (90000 * 2 ^ 32) else n
  (2 * (n * 1000 * g.p) + 90000 * g.q - 1) / (2 * (90000 * g.q))

/-- The grid index nearest a media time, a tie going to the lower (R139). -/
def mediaIndex (g : Grid) (t : Nat) : Nat := (2 * (t * g.p) + g.frame - 1) / (2 * g.frame)

/-- The slices that take part in a stream's frame now (R617). -/
def State.partSlices (s : State) (st : List Byte) : Nat :=
  (List.range 4).foldl (fun m n =>
    let takes := if streamRaw st then bits (streamPorts st) (16 * n) 16 != 0
      else match s.anv.temper with
        | some t => t.places.any fun e => byteAt e 8 / 16 == n &&
            overlap (le e 0 2, le e 2 2, le e 4 2, le e 6 2) (streamRect st)
        | none => false
    m + (b2n takes) * 2 ^ n) 0

/-- The key of a packet's pixel in the canvas, if it lies in the stream's window. -/
def pixelKey (c st : List Byte) (x y : Nat) : Option Nat :=
  if streamRaw st then some (65536 * y + x)
  else if streamWin st 0 ≤ x ∧ x < streamWin st 0 + streamWin st 2 ∧ streamWin st 1 ≤ y ∧ y < streamWin st 1 + streamWin st 3 then
    some ((streamCy st + y - streamWin st 1) * canvasWidth c + (streamCx st + x - streamWin st 0))
  else none

/-- The window ends inside the raster row, so that chroma beyond it is needed (R133). -/
def needsEdge (st : List Byte) : Bool := !streamRaw st && streamYuv st && streamWin st 0 + streamWin st 2 < streamWidth st

/-- The key of the chroma beyond the window of stream `n` on canvas row `y`. -/
def edgeKey (n y : Nat) : Nat := 2 ^ 32 + 65536 * n + y

/-- A packet's pixels in the window and the chroma rows it brings, keyed. -/
def packetKeys (c st : List Byte) (n : Nat) (p : PacketIn) : List (Nat × (Nat × Nat × Nat)) × List (Nat × (Nat × Nat × Nat)) :=
  (p.pixels.filterMap fun t => (pixelKey c st t.1 t.2.1).map fun k => (k, t.2.2),
   if needsEdge st then p.pixels.filterMap fun t =>
     if t.1 = streamWin st 0 + streamWin st 2 ∧ streamWin st 1 ≤ t.2.1 ∧ t.2.1 < streamWin st 1 + streamWin st 3 then
       some (edgeKey n (streamCy st + t.2.1 - streamWin st 1), t.2.2) else none
   else [])

/-- The pixels a stream's frame must hold (R136). -/
def State.windowSize (s : State) (st : List Byte) : Nat :=
  if streamRaw st then (List.range 64).foldl (fun a p =>
    a + if (streamPorts st).testBit p then (match s.chainOf p with | some c => chainPixels c | none => 0) else 0) 0
  else streamWin st 2 * streamWin st 3

/-- A stream's frame is complete in slice `n` (R136, R137). -/
def State.sliceComplete (s : State) (st : List Byte) (f : StreamFrame) (n : Nat) : Bool :=
  let mine := f.taken.filter fun t => t.slices.testBit n
  match mine.find? (·.last), f.taken with
  | some m, t :: ts =>
    let lo := ts.foldl (fun a x => min a x.seq) t.seq
    (List.range (m.seq + 1 - lo)).all (fun i => mine.any fun x => x.seq == lo + i) &&
      mine.foldl (fun a x => a + x.keys.length) 0 == s.windowSize st && mine.all (fun x => Decidable.decide x.keys.Nodup) &&
      (!needsEdge st || (mine.flatMap (·.edge)).eraseDups.length == streamWin st 3)
  | _, _ => false

/-- Frame `k` of the canvas is complete: in every stream that takes part, in every slice that takes part in it (R136). -/
def State.frameComplete (s : State) (g : Grid) (k : Nat) : Bool :=
  match s.frameRec k with
  | none => false
  | some f => (s.takingPart g k).all fun x => f.streams.any fun t => t.stream == x.1 &&
      (List.range 4).all fun n => !t.slices.testBit n || s.sliceComplete x.2.block t n

/-- The active's decision on `k`, as a standby knows it (R271). -/
def State.peerDecision (s : State) (k : Nat) : Option Nat := (s.twn.decisions.find? fun d => d.1 == k).map (·.2)

/-- A frame that is complete at or before D(k) is admitted at once; on a standby once the active has admitted it, up to
D(k) + 10 µs (R142, R271). -/
def State.admitIfComplete (s : State) (g : Grid) (k : Nat) : State :=
  if (s.decision k).isSome || !s.frameComplete g k then s
  else if s.isStandby then
    if s.peerDecision k == some 0 && 0 ≤ s.till g (g.dNum k + (10000 * ns * g.p : Nat)) then s.decide g k 0 else s
  else if 0 ≤ s.till g (g.dNum k) then s.decide g k 0
  else s

/-- What refuses frame `k` when its first packet, of whichever stream, is taken, in the order of R142. -/
def State.firstRefusal (s : State) (g : Grid) (c : List Byte) (k : Nat) : Option Nat :=
  if (s.frameRec k).isSome then none
  else if canvasNeedLock c && !s.timeValid then some 9
  else if 0 < s.till g (g.gNum k - (g.frame : Int)) then some 3
  else if canvasSlots c ≤ s.fld F.ANV_INGEST_STATUS_slots_used then some 4
  else none

/-- A packet is counted by its port when the first slice takes it (R157). -/
def State.countTaken (s : State) (port stream : Nat) : State := if port < 2 then s.bump 5 port stream else s

/-- The packet is taken by a slice for a frame that is filling: its pixels are stored, and a second write of a pixel, a sequence
number too far away, or a packet too many makes the frame malformed (R134 to R136). Sequence numbers are compared as numbers, not
modulo 2^32 (assumption 93). -/
def State.takePacket (s : State) (g : Grid) (c st : List Byte) (port slice n k : Nat) (p : PacketIn) : State :=
  match (s.frameRec k).bind fun f => f.streams.find? fun t => t.stream == n with
  | none => s
  | some t =>
    match t.taken.find? fun x => x.seq == p.seq with
    | some x =>
      if x.slices.testBit slice then s.bump 5 2 n
      else
        let s := s.modFrame k fun f => { f with streams := f.streams.map fun u => if u.stream = n then
            { u with taken := u.taken.map fun y => if y.seq = p.seq then { y with slices := y.slices + 2 ^ slice } else y } else u }
        s.admitIfComplete g k
    | none =>
      let (keys, edges) := packetKeys c st n p
      let far := 65536 ≤ ((p.seq : Int) - t.first).natAbs || 65536 ≤ t.taken.length
      let twice := keys.any fun x => t.taken.any fun y => y.keys.contains x.1
      let y : Taken := { seq := p.seq, last := p.last, slices := 2 ^ slice, keys := keys.map (·.1), edge := edges.map (·.1) }
      let s := (s.countTaken port n).modFrame k fun f => { f with
        pixels := f.pixels ++ keys ++ edges
        streams := f.streams.map fun u => if u.stream = n then { u with taken := u.taken ++ [y] } else u }
      if far || twice then s.decide g k 6 else s.admitIfComplete g k

/-- The frame's first packet: the frame is refused, or takes a slot and begins to fill (R142, R144, R617). -/
def State.openFrame (s : State) (g : Grid) (c st : List Byte) (port slice n k : Nat) (p : PacketIn) : State :=
  let s := s.modAnv fun a => { a with seen := a.seen ++ [(k, n, p.ident)] }
  match s.firstRefusal g c k with
  | some code => (s.countTaken port n).decide g k code
  | none =>
    let t : StreamFrame := { stream := n, ident := p.ident, slices := s.partSlices st, first := p.seq }
    let s := match s.frameRec k with
      | some _ => s.modFrame k fun f => { f with streams := f.streams ++ [t] }
      | none => (s.modAnv fun a => { a with frames := a.frames ++ [({ k := k, streams := [t] } : FrameRec)] }).countSlots
    s.takePacket g c st port slice n k p

/-- The staging space of slice `slice` for stream `n`: how many bytes lie there (R150). -/
def State.staging (s : State) (slice n : Nat) : Nat := Sparse.get (fun _ => 0) s.anv.staged (16 * slice + n)

def State.setStaging (s : State) (slice n v : Nat) : State :=
  s.modAnv fun a => { a with staged := Sparse.set (fun _ => 0) a.staged (16 * slice + n) v }

/-- What has gone on to the frame store by now has left the staging space: how much, the spec leaves open (R150). -/
def State.drainStaging (s : State) (slice n : Nat) : State :=
  if s.staging slice n = 0 then s
  else (s.setStaging slice n (min (s.staging slice n) (Config.stagedLeft s.draws).toNat)).drawn

/-- The staging space has room for a whole frame of `len` bytes (R98, R150). -/
def State.stageRoom (s : State) (st : List Byte) (slice n len : Nat) : Bool :=
  s.powered (14 + slice) && s.staging slice n + len ≤ 1024 * streamStage st

/-- Slice `slice` has taken a copy with this identity and sequence number for frame `k` of stream `n` (R134). -/
def State.isDuplicate (s : State) (slice n k : Nat) (p : PacketIn) : Bool :=
  ((s.frameRec k).bind fun f => f.streams.find? fun t => t.stream == n).any fun t =>
    t.taken.any fun x => x.seq == p.seq && x.slices.testBit slice

/-- The copy is taken if the slice has room for it, by `take`; otherwise it is refused (R98). The answer says whether it was. -/
def State.ifRoom (s : State) (st : List Byte) (slice n len : Nat) (take : State → State) : Bool × State :=
  let s := s.drainStaging slice n
  if s.stageRoom st slice n len then (false, take (s.setStaging slice n (s.staging slice n + len)))
  else (true, s.bump 5 7 n)

/-- A well-formed packet of started stream `n`, in a frame of `len` bytes, reaches a slice that takes part. What needs no place is
judged before the room (R128, R134, R137). -/
def State.placePacket (s : State) (g : Grid) (c st : List Byte) (x : Stream) (port slice n len k : Nat) (p : PacketIn) : Bool × State :=
  let seen := s.anv.seen.filter fun y => y.1 == k && y.2.1 == n
  let old := (false, s.bump 5 4 n)
  if !x.takesPart g k then old
  else match seen with
    | [] => if (s.decision k).isSome then old else s.ifRoom st slice n len fun s => s.openFrame g c st port slice n k p
    | y :: ys =>
      if y.2.2 = p.ident then
        if (s.decision k).isSome then old
        else if s.isDuplicate slice n k p then (false, s.bump 5 2 n)
        else s.ifRoom st slice n len fun s => s.takePacket g c st port slice n k p
      else if ys.any fun z => z.2.2 == p.ident then old
      else s.ifRoom st slice n len fun s =>
        ((s.countTaken port n).modAnv fun a => { a with seen := a.seen ++ [(k, n, p.ident)] }).duplicate g k

/-- A UDP payload as a packet of a stream, or the counter of R157 that a copy which is none grows (R130, R131, R151). -/
def State.readPacket (s : State) (st : List Byte) (cls : Nat) (b : List Byte) : Except Nat PacketIn :=
  if streamRaw st then (match s.rawPacket st b with | some p => .ok p | none => .error 5)
  else if cls ≠ 5 ∧ cls ≠ 6 then .error 5
  else if foreign st b then .error 6
  else match rtpPacket st b with | some p => .ok p | none => .error 5

/-- The slices that take part in frame `k` of stream `n`, to which a packet with identity `ident` belongs: fixed by its first packet
(R617). -/
def State.slicesOf (s : State) (st : List Byte) (n k ident : Nat) : Nat :=
  match (s.frameRec k).bind fun f => f.streams.find? fun t => t.stream == n && t.ident == ident with
  | some t => t.slices
  | none => s.partSlices st

/-- A copy for stream `n` reaches slice `slice` from port `port` in a frame of `len` bytes, with its parse class and its UDP payload
(R128 to R139, R151, R617). The answer says whether the slice refused it for room. -/
def State.ingest (s : State) (port slice n cls : Nat) (b : List Byte) (len : Nat) : Bool × State :=
  match s.stream n, s.anv.canvas, s.grid with
  | some x, some c, some g =>
    let st := x.block
    if !s.isStarted n then (false, s.bump 5 4 n)
    else match s.readPacket st cls b with
      | .error i => (false, if (s.partSlices st).testBit slice then s.bump 5 i n else s)
      | .ok p =>
        let k := if streamRaw st then mediaIndex g p.ident else s.rtpIndex g p.ident
        if (s.slicesOf st n k p.ident).testBit slice then s.placePacket g c st x port slice n len k p else (false, s)
  | _, _, _ => (false, s.bump 5 4 n)

/-- A step of wall time has passed over D(k), or gone back behind it (R143). -/
def State.passedOver (s : State) (g : Grid) (k : Nat) : Bool := s.anv.steppedTo.any fun t => g.dNum k ≤ g.at t

/-- ADMISSION_DEADLINE (R142, R143): D(k) passes. A standby waits for the active's decision (R271). -/
def execAdmissionDeadline (k : Nat) (s : State) : Result :=
  match s.grid with
  | none => done s
  | some g =>
    let s := s.reach (g.wallUp (g.dNum k))
    if (s.decision k).isSome then done (s.lateReport g k)
    else if !s.anyStarted || s.passedOver g k then done s
    else if s.isStandby then done (s.modTwn fun t => { t with 
        atDeadline := ((k, if s.frameComplete g k then 0 else s.deadlineCode g k) :: t.atDeadline).take 64 })
    else done (s.decide g k (s.deadlineCode g k))

/-! ## A step of wall time (R146) -/

/-- An admitted frame that is not yet lit is withdrawn (R143): a second report entry with reason STEP, written at the step
(assumption 94). -/
def State.withdraw (s : State) (g : Grid) (k : Nat) : State :=
  let s := s.modAnv fun a => { a with withdrawn := k :: a.withdrawn, frames := a.frames.filter fun f => f.k != k }
  let s := ((s.bump 6 7).hist (0x5E4 + 28)).raise F.ANV_INGEST_INT_STAT_refused
  (s.countSlots.life 31).ingestReport g k 7 (shownCode (s.showAt k)) 0

/-- Wall time has been stepped by `d` in 2^−6 ns: frames still filling are decided STEP, admitted frames not yet lit withdrawn, the frame being lit
goes on as a repeat, and one subframe is resized (R146, R210). -/
def State.wallStepped (s : State) (d : Int) : State :=
  let s := s.raise F.ANV_INGEST_INT_STAT_step
  match s.grid with
  | none => s
  | some g =>
    let lit := s.anv.litK
    let waiting := s.anv.frames.filter fun f => lit != some f.k
    let s := waiting.foldl (fun s f => if (s.decision f.k).isNone then s.decide g f.k 7 else s) s
    let s := (waiting.filter fun f => s.admitted f.k).foldl (fun s f => s.withdraw g f.k) s
    let live := (List.range 64).any s.portLive
    let s := s.modAnv fun a => { a with
      shownK := none, steppedTo := some s.wall, withdrawn := a.decisions.filterMap fun d => if d.2 = 0 then some d.1 else none }
    let s := (List.range 64).foldl (State.portStepped d) s
    if live then (s.bump 8 4).raise F.ANV_GRY_INT_STAT_sf_resized else s

end Sys2Proof.Machine
end

