-- ==== Sys2Proof/Machine/Pixel.lean ====
section
/-! DEFINITION. The stages of the pixel pipeline and of the greyscale stage as exact integer arithmetic (R158, R161, R165 to
R179, R195 to R197): nothing here reads or changes the state. -/

namespace Sys2Proof.Machine

/-- A component triple: red, green, blue, or Y, Cb, Cr. -/
abbrev Triple := Nat × Nat × Nat

def Triple.at (t : Triple) (c : Nat) : Nat := if c = 0 then t.1 else if c = 1 then t.2.1 else t.2.2

/-- A triple by component. -/
def triple (f : Nat → Nat) : Triple := (f 0, f 1, f 2)

/-- Full drive F (R158). -/
def fullDrive : Nat := 4194303

/-- `n` bits of `v` in reverse order. -/
def bitRev (n v : Nat) : Nat := (List.range n).foldl (fun a i => a + (b2n (v.testBit i)) * 2 ^ (n - 1 - i)) 0

/-! ## The global table block (R184) -/

def tabEnable (g : List Byte) (i : Nat) : Bool := (le g 4 4).testBit i
def tabCompGain (g : List Byte) : Nat := byteAt g 8
def tabOffset (g : List Byte) (c : Nat) : Nat := le g (0x10 + 2 * c) 2
/-- Coefficient `i` of the sQ3.13 matrix at `o`, in row order. -/
def tabCoeff (g : List Byte) (o i : Nat) : Int := signed 16 (le g (o + 2 * i) 2)
def tabInput (g : List Byte) (c i : Nat) : Nat := le g (0x400 + 0x1010 * c + 4 * i) 4
def tabOutput (g : List Byte) (c i : Nat) : Nat := le g (0x4000 + 0x4010 * c + 4 * i) 4
def tabCurves (g : List Byte) : List Byte := sliceB g 0x80 384

/-! ## Map (R161) -/

/-- The chain index of the pixel (u, v) of placement `e`. -/
def placeIndex (e : List Byte) (u v : Nat) : Nat :=
  let w := le e 4 2
  let h := le e 6 2
  let flag := byteAt e 9
  let u1 := if flag.testBit 0 then w - 1 - u else u
  let v1 := if flag.testBit 1 then h - 1 - v else v
  let tr := flag.testBit 2
  let major := if tr then u1 else v1
  let minor := if tr then v1 else u1
  let run := if tr then h else w
  let minor := if flag.testBit 3 ∧ major % 2 = 1 then run - 1 - minor else minor
  le e 12 4 + major * run + minor

def placePort (e : List Byte) : Nat := byteAt e 8

/-- The canvas pixel (x, y) lies in the rectangle of placement `e`. -/
def placeHolds (e : List Byte) (x y : Nat) : Bool :=
  le e 0 2 ≤ x && x < le e 0 2 + le e 4 2 && le e 2 2 ≤ y && y < le e 2 2 + le e 6 2

/-! ## Stages 2 to 9 -/

/-- Decode (R165). -/
def decodeStage (g : List Byte) (s : Triple) : Triple := triple fun r =>
  let sum := (List.range 3).foldl (fun (a : Int) c => a + tabCoeff g 0x20 (3 * r + c) * ((s.at c : Int) - tabOffset g c)) 0
  min (rneI sum 8192).toNat 65535

/-- Saturation of a working value to Q2.30 (R6). -/
def toWork (v : Int) : Nat := min v.toNat (2 ^ 32 - 1)

/-- Input curve (R167). -/
def inputStage (g : List Byte) (s : Triple) : Triple :=
  if !tabEnable g 1 then triple fun c => s.at c * 2 ^ 14
  else triple fun c =>
    let i := s.at c / 64
    let f := s.at c % 64
    let a : Int := tabInput g c i
    toWork (rneI (a * 64 + ((tabInput g c (i + 1) : Int) - a) * f) 64)

/-- A matrix stage (R168): each row sum is rounded once and saturated. -/
def matrixStage (coeff : Nat → Int) (scale : Nat) (v : Triple) : Triple := triple fun r =>
  toWork (rneI ((List.range 3).foldl (fun (a : Int) c => a + coeff (3 * r + c) * (v.at c : Int)) 0) scale)

/-- Coefficient `i` of a calibration record (R169): the diagonal unsigned, the others two's complement. -/
def calCoeff (rec : List Byte) (i : Nat) : Int :=
  let x := bits (leNat rec) (12 * i) 12
  if i % 4 = 0 then x else signed 12 x

/-- The identity record (R169). -/
def calIdentity : List Byte := natLE 16 (0x800 + 2 ^ 48 * 0x800 + 2 ^ 96 * 0x800)

def calForce (rec : List Byte) : Nat := bits (leNat rec) 108 3
def calInhibit (rec : List Byte) : Bool := (leNat rec).testBit 111

/-- Point `j` of colour `c` of a bank of ageing curves, (I_j, a_j); an empty bank is the unit curve (R175). -/
def curvePoint (bank : List Byte) (c j : Nat) : Nat × Nat :=
  if bank.isEmpty then (j, 0x8000) else (le bank (128 * c + 8 * j) 4, le bank (128 * c + 8 * j + 4) 2)

/-- The gain of an ageing code, Q1.15 (R173). -/
def ageGain (bank : List Byte) (c code : Nat) : Nat :=
  let x := min code 960
  let a : Int := (curvePoint bank c (x / 64)).2
  if x / 64 = 15 then a.toNat
  else (rneI (a * 64 + (((curvePoint bank c (x / 64 + 1)).2 : Int) - a) * (x % 64 : Nat)) 64).toNat

/-- The code of an integrator on its colour's curve (R173). -/
def ageCode (bank : List Byte) (c i : Nat) : Nat :=
  let j := ((List.range 16).reverse.find? fun j => (curvePoint bank c j).1 ≤ i).getD 0
  let lo := (curvePoint bank c j).1
  if j = 15 then 960 else 64 * j + 64 * (i - lo) / ((curvePoint bank c (j + 1)).1 - lo)

/-- The age word of three integrators (R174). -/
def ageWord (bank : List Byte) (which : Nat) (i : Triple) : Nat :=
  ageCode bank 0 (i.at 0) + ageCode bank 1 (i.at 1) * 2 ^ 10 + 2 ^ 20 * ageCode bank 2 (i.at 2) + 2 ^ 30 * which

/-- Ageing (R173, R174). -/
def ageStage (banks : List (List Byte)) (word : Nat) (v : Triple) : Triple :=
  let bank := nth banks (bits word 30 1) []
  triple fun c => toWork (rne (v.at c * ageGain bank c (bits word (10 * c) 10)) 32768)

/-- Brightness (R177). -/
def brightStage (b : Nat) (v : Triple) : Triple := triple fun c => toWork (rne (v.at c * b) 32768)

/-- Output curve (R178). -/
def outputStage (g : List Byte) (v : Triple) : Triple :=
  if !tabEnable g 5 then triple fun c => min (rne (v.at c) 4) (2 ^ 28 - 1)
  else triple fun c =>
    let x := v.at c
    if 2 ^ 30 ≤ x then tabOutput g c 4096
    else
      let a : Int := tabOutput g c (x / 2 ^ 18)
      min (rneI (2 ^ 18 * a + ((tabOutput g c (x / 2 ^ 18 + 1) : Int) - a) * (x % 2 ^ 18 : Nat)) (2 ^ 18)).toNat (2 ^ 28 - 1)

/-- The dither matrix (R179), row by row. -/
def ditherMatrix : List Nat := [0, 8, 2, 10, 12, 4, 14, 6, 3, 11, 1, 9, 15, 7, 13, 5]

/-- Dither (R179). -/
def ditherStage (g : List Byte) (k x y : Nat) (v : Triple) : Triple :=
  if !tabEnable g 6 then triple fun c => min (rne (v.at c) 64) fullDrive
  else
    let d := bitRev 6 ((k + 4 * nth ditherMatrix (4 * (y % 4) + x % 4) 0) % 64)
    triple fun c => min ((v.at c + d) / 64) fullDrive

/-- The stages 2 to 9 of one pixel (R158): the sample, whether it is YCbCr, its record, its age word, B(k) and its place. -/
def gradePixel (g : List Byte) (banks : List (List Byte)) (s : Triple) (yuv : Bool) (rec : List Byte) (age bright k x y : Nat) : Triple :=
  let s := if yuv || tabEnable g 0 then decodeStage g s else s
  let v := inputStage g s
  let v := if tabEnable g 2 then matrixStage (tabCoeff g 0x32) 8192 v else v
  let v := if tabEnable g 3 then matrixStage (calCoeff rec) 2048 v else v
  let v := if tabEnable g 4 then ageStage banks age v else v
  ditherStage g k x y (outputStage g (brightStage bright v))

/-! ## The grey word (R195 to R197) -/

/-- The largest graded value that step s_hi carries. -/
def greyTop (grey : List Byte) : Nat := fullDrive / 4 ^ (3 - greySHi grey)

/-- The step of a graded value that has been clipped (R195). -/
def greyStep (grey : List Byte) (v : Nat) : Nat :=
  ((List.range 4).find? fun s => greySLo grey ≤ s && v * 4 ^ (3 - s) ≤ fullDrive).getD 3

/-- The frame total T of sub-pixel `m` in frame `k` (R196). -/
def greyTotal (grey : List Byte) (k m v : Nat) : Nat :=
  let phi := bitRev 16 ((3 * k + 25173 * m) % 65536)
  (greyNSf grey * v * (2 ^ greyNB grey - 1) * 4 ^ (3 - greyStep grey v) + 64 * phi) / fullDrive

/-- The grey word (R197). -/
def greyWord (grey : List Byte) (k m v : Nat) : Nat :=
  let t := greyTotal grey k m v
  let nn := clog2 (greyNSf grey)
  greyStep grey v * 2 ^ (greyNB grey + nn) + t / greyNSf grey * 2 ^ nn + t % greyNSf grey

/-! ## The drive integrators (R172) -/

/-- The increment of an integrator. -/
def integrated (g : Grid) (e k m v : Nat) : Nat :=
  let h := bitRev 16 ((k + 40503 * m) % 65536)
  (65536 * (v * e * 8 * g.q) + h * (1000 * g.p * fullDrive)) / (65536 * (1000 * g.p * fullDrive))

/-- The pixels of the update set of period `k`, for E = `e`: one in every `e`. -/
def updateSet (e k : Nat) : List Nat :=
  let r := (k % e + e - k / e % e) % e
  (List.range (4194304 / e)).map fun i => e * i + r

end Sys2Proof.Machine
end

