-- ==== Sys2Proof/Machine/Grade.lean ====
section
/-! DEFINITION. Grading a frame band by band, compensation, and the grey words (R160 to R182, R195 to R197, R204). -/

namespace Sys2Proof.Machine

/-- A chain pixel of a part: its pixel index n, its place, and its placement (raster mode). -/
structure ChainPixel where
  n     : Nat
  x     : Nat
  y     : Nat
  place : List Byte
  deriving DecidableEq, Repr

/-! ## Bands and parts (R160, R204) -/

/-- The chain pixels that placement `e` shows of canvas row `y`. -/
def placeRow (e : List Byte) (y : Nat) : List ChainPixel :=
  if le e 2 2 ≤ y ∧ y < le e 2 2 + le e 6 2 then
    (List.range (le e 4 2)).map fun u =>
      { n := 65536 * placePort e + placeIndex e u (y - le e 2 2), x := le e 0 2 + u, y := y, place := e }
  else []

/-- Port `port` belongs to the raw port mask of a stream that takes part in frame `k`. -/
def State.rawCovered (s : State) (g : Grid) (k port : Nat) : Bool :=
  (s.parties g k).any fun x => (streamPorts x.2.block).testBit port

/-- The chain pixels of the part of band `band` that belongs to `port`, for a frame under set `t`. -/
def State.partPixels (s : State) (g : Grid) (c : List Byte) (t : TemperSet) (k port band : Nat) : List ChainPixel :=
  if canvasRaw c then
    if s.rawCovered g k port then
      let count := match s.chainOf port with | some b => chainPixels b | none => 0
      (List.range (min 1024 (count - 1024 * band))).map fun i =>
        { n := 65536 * port + 1024 * band + i, x := 1024 * band + i, y := port, place := [] }
    else []
  else ((List.range 32).map (· + 32 * band)).flatMap fun y =>
    if y < canvasHeight c then (t.places.filter fun e => placePort e == port).flatMap fun e => placeRow e y else []

/-- Every part of a frame under set `t`, as (port, band). -/
def State.allParts (s : State) (g : Grid) (c : List Byte) (t : TemperSet) (k : Nat) : List (Nat × Nat) :=
  if canvasRaw c then ((List.range 64).filter (s.rawCovered g k)).flatMap fun p =>
    let count := match s.chainOf p with | some b => chainPixels b | none => 0
    (List.range ((count + 1023) / 1024)).map fun b => (p, b)
  else (t.places.flatMap fun e =>
    ((List.range ((le e 2 2 + le e 6 2 + 31) / 32)).filter fun b => le e 2 2 / 32 ≤ b).map fun b => (placePort e, b)).eraseDups

/-- Slice `slice` has the pixel at `key` in its own copies of stream `n`'s frame, or takes no part in it (R137, R617). -/
def FrameRec.has (f : FrameRec) (slice n key : Nat) : Bool :=
  f.streams.any fun u => u.stream == n && (!u.slices.testBit slice ||
    u.taken.any fun t => t.slices.testBit slice && (t.keys.contains key || t.edge.contains key))

/-- The canvas pixels of band `band` that streams taking part cover have been written, in the slice of the port (R160). -/
def State.bandWritten (s : State) (g : Grid) (c : List Byte) (f : FrameRec) (port band : Nat) : Bool :=
  let has (n key : Nat) : Bool := f.has (port / 16) n key
  if canvasRaw c then
    ((s.parties g f.k).filter fun x => (streamPorts x.2.block).testBit port).all fun x =>
      (List.range (min 1024 ((match s.chainOf port with | some b => chainPixels b | none => 0) - 1024 * band))).all fun i =>
        has x.1 (65536 * port + 1024 * band + i)
  else (s.parties g f.k).all fun x =>
    let b := x.2.block
    (List.range 32).all fun r =>
      let y := 32 * band + r
      !(streamCy b ≤ y && y < streamCy b + streamWin b 3) ||
        ((List.range (streamWin b 2)).all (fun i => has x.1 (y * canvasWidth c + streamCx b + i)) &&
          (!needsEdge b || has x.1 (edgeKey x.1 y)))

/-- The load buffers of the ports are free of frame k − 1: P(k − 1) has come, or the frame was refused (R204). A k − 1 that gets no
decision, because no stream was started or a step of wall time passed over it (R143), holds nothing back. -/
def State.buffersFree (s : State) (g : Grid) (k : Nat) : Bool :=
  k == 0 || s.hasCome g (g.pNum (k - 1)) || (match s.decision (k - 1) with
    | some _ => !s.admitted (k - 1)
    | none => s.passedOver g (k - 1) || (s.takingPart g (k - 1)).isEmpty)

/-! ## Samples (R126, R133) -/

/-- The stored sample at a key; a pixel that no stream covers is 0 (R126). -/
def FrameRec.sample (f : FrameRec) (key : Nat) : Triple := ((f.pixels.find? fun x => x.1 == key).map (·.2)).getD (0, 0, 0)

/-- The stream of frame `k` whose window holds the canvas pixel (x, y). -/
def State.streamAt (s : State) (g : Grid) (k x y : Nat) : Option (Nat × Stream) :=
  (s.parties g k).find? fun t => placeHolds (sliceB t.2.block 24 4 ++ sliceB t.2.block 20 4) x y

/-- The slice that serves port `port` takes part in stream `n`'s frame (R617). -/
def FrameRec.takesIn (f : FrameRec) (port n : Nat) : Bool := f.streams.any fun u => u.stream == n && u.slices.testBit (port / 16)

/-- The sample of a chain pixel, with the chroma of an odd YCbCr pixel filled in (R133); zero where the slice did not take part
(R617). -/
def State.sampleOf (s : State) (g : Grid) (c : List Byte) (f : FrameRec) (px : ChainPixel) : Triple :=
  if canvasRaw c then f.sample px.n
  else
    let key := px.y * canvasWidth c + px.x
    let v := f.sample key
    match s.streamAt g f.k px.x px.y with
    | none => (0, 0, 0)
    | some (n, x) =>
      let b := x.block
      if !f.takesIn (px.n / 65536) n then (0, 0, 0)
      else if streamYuv b ∧ (px.x - streamCx b) % 2 = 1 then
        let l := f.sample (key - 1)
        let r := if px.x + 1 < streamCx b + streamWin b 2 then f.sample (key + 1)
          else if needsEdge b then f.sample (edgeKey n px.y) else l
        (v.1, rne (l.2.1 + r.2.1) 2, rne (l.2.2 + r.2.2) 2)
      else v

/-- The streams that take part carry YCbCr (R165, R166). -/
def State.carriesYuv (s : State) (g : Grid) (k : Nat) : Bool :=
  (s.parties g k).any fun x => !streamRaw x.2.block && streamYuv x.2.block

/-! ## Reads of the planes (R169, R170) -/

def TemperSet.cal (t : TemperSet) : Nat := le t.desc 24 8
def TemperSet.age (t : TemperSet) : Nat := le t.desc 32 8
def TemperSet.int (t : TemperSet) : Nat := le t.desc 40 8

/-- The slice that serves pixel `n`, as an initiator. -/
def sliceOf (n : Nat) : Nat := 8 + n / 65536 / 16

/-- The calibration record of pixel `n`, if one is read; none if the read fails. -/
def State.readCal (s : State) (t : TemperSet) (n : Nat) : Option (List Byte) × State :=
  if tabEnable t.global 3 || tabEnable t.global 7 then
    match s.readMem (sliceOf n) (t.cal + 16 * n) 16 with
    | (.data bs, s) => (some bs, s.pmc 7 65 0)
    | (_, s) => (none, s.pmc 7 65 0)
  else (some calIdentity, s)

/-- The age word of pixel `n`, if one is read. -/
def State.readAge (s : State) (t : TemperSet) (n : Nat) : Option Nat × State :=
  if tabEnable t.global 4 then
    match s.readMem (sliceOf n) (t.age + 4 * n) 4 with
    | (.data bs, s) => (some (leNat bs), s)
    | (_, s) => (none, s)
  else (some 0, s)

/-! ## The first band (R177, R180, R185) -/

/-- B(k) (R177). -/
def brightAt : List Bright → Nat → Nat
  | [], _ => 0x8000
  | b :: bs, k =>
    if k < b.k0 then brightAt bs k
    else if b.k0 + b.r ≤ k then b.b1
    else (rneI ((b.bs : Int) * b.r + ((b.b1 : Int) - b.bs) * ((k - b.k0 : Nat) : Int)) b.r).toNat

/-- The words of the dead map that are not plainly 0, by their offset in it: stored, flipped or poisoned. -/
def State.deadWords (s : State) : List Nat :=
  ((s.mem.cells.map (·.1) ++ s.mem.flips.map (·.1) ++ s.mem.poison.map (·.1)).filter fun a =>
    0x102E80000 ≤ a && a < 0x103000000).map (fun a => (a - 0x102E80000) / 8 * 8) |>.eraseDups

/-- The dead map as the frame reads it, word by word: a word that cannot be read counts as 0 (R180). -/
def State.readDead (s : State) : List (Nat × Nat) × State :=
  s.deadWords.foldl (fun (acc : List (Nat × Nat) × State) o =>
    match acc.2.readMem (sliceOf (o * 8 / 3)) (0x102E80000 + o) 8 with
    | (.data bs, s) => (acc.1 ++ [(o / 8, leNat bs)], s)
    | (_, s) => (acc.1, s)) ([], s)

/-- The records whose force_dead bits are set, as (n, bits), while records are read at all (R169, R180). -/
def State.readForce (s : State) (t : TemperSet) : List (Nat × Nat) :=
  if tabEnable t.global 3 || tabEnable t.global 7 then
    s.mem.cells.filterMap fun x =>
      if t.cal ≤ x.1 ∧ x.1 < t.cal + 0x4000000 ∧ (x.1 - t.cal) % 16 = 13 ∧ bits x.2.toNat 4 3 ≠ 0 then
        some ((x.1 - t.cal) / 16, bits x.2.toNat 4 3)
      else none
  else []

/-- The settings once frame `k` begins grading at brightness `b`, if that is the first at the target of the setting that gives it. -/
def reachedTarget (k b : Nat) : List Bright → Option (List Bright)
  | [] => none
  | x :: xs =>
    if k < x.k0 then (reachedTarget k b xs).map (x :: ·)
    else if !x.told && b == x.b1 then some ({ x with told := true } :: xs)
    else none

/-- ramp_done is set when a frame first begins grading at the target of its setting (R177). -/
def State.tellRamp (s : State) (k b : Nat) : State :=
  match reachedTarget k b s.anv.brights with
  | some l => (s.modAnv fun a => { a with brights := l }).raise F.ANV_PIPE_INT_STAT_ramp_done
  | none => s

/-- The first band of frame `k` begins grading: the set, the brightness and the dead sub-pixels are fixed. -/
def State.beginGrading (s : State) (t : TemperSet) (k : Nat) : State :=
  let b := brightAt s.anv.brights k
  let (dead, s) := s.readDead
  let force := s.readForce t
  let s := s.modFrame k fun f => { f with temper := some t, bright := b, dead := dead, force := force }
  let s := (s.modAnv fun a => { a with begun := k :: a.begun, nextGrade := max a.nextGrade (k + 1) }).setFld F.ANV_BRIGHT_NOW_bright b
  s.tellRamp k b

/-! ## Grading a part -/

/-- One chain pixel is graded: its values before compensation, or 0 with cal_poison under R170. -/
def State.gradeOne (g : Grid) (c : List Byte) (t : TemperSet) (k : Nat) (s : State) (px : ChainPixel) : State :=
  match s.frameRec k with
  | none => s
  | some f =>
    let (rec, s) := s.readCal t px.n
    let (age, s) := s.readAge t px.n
    match rec, age with
    | some r, some a =>
      let v := gradePixel t.global s.anv.banks (s.sampleOf g c f px) (s.carriesYuv g k) r a f.bright k px.x px.y
      s.modFrame k fun f => { f with
        graded := f.graded ++ [(3 * px.n, v.1), (3 * px.n + 1, v.2.1), (3 * px.n + 2, v.2.2)]
        inhibit := if calInhibit r then px.n :: f.inhibit else f.inhibit }
    | _, _ =>
      ((s.bump 7 2).raise F.ANV_PIPE_INT_STAT_poison).modFrame k fun f => { f with
        graded := f.graded ++ [(3 * px.n, 0), (3 * px.n + 1, 0), (3 * px.n + 2, 0)], poison := px.n :: f.poison }

/-! ## Compensation (R182) -/

def FrameRec.value (f : FrameRec) (m : Nat) : Nat := ((f.graded.find? fun x => x.1 == m).map (·.2)).getD 0

/-- Sub-pixel `m` is dead for the frame (R180) and not graded 0 under R170. -/
def FrameRec.isDead (f : FrameRec) (m : Nat) : Bool :=
  !f.poison.contains (m / 3) &&
    ((f.dead.any fun w => w.1 == m / 64 && w.2.testBit (m % 64)) || (f.force.any fun x => x.1 == m / 3 && x.2.testBit (m % 3)))

/-- The pixel indices of the four neighbours of a chain pixel in its placement. -/
def neighbours (px : ChainPixel) : List ChainPixel :=
  let e := px.place
  let at_ (x y : Nat) : List ChainPixel :=
    if placeHolds e x y then [{ px with n := 65536 * placePort e + placeIndex e (x - le e 0 2) (y - le e 2 2), x := x, y := y }] else []
  (if px.x = 0 then [] else at_ (px.x - 1) px.y) ++ at_ (px.x + 1) px.y ++ (if px.y = 0 then [] else at_ px.x (px.y - 1)) ++
    at_ px.x (px.y + 1)

/-- Pixel `n` may receive for colour `c`: not dead, not inhibited, not graded 0 under R170. -/
def FrameRec.receives (f : FrameRec) (n c : Nat) : Bool := !f.isDead (3 * n + c) && !f.inhibit.contains n && !f.poison.contains n

/-- What the dead neighbours of a chain pixel give to its colour `c`. -/
def FrameRec.gift (f : FrameRec) (gain : Nat) (px : ChainPixel) (c : Nat) : Nat :=
  (neighbours px).foldl (fun a d =>
    if f.isDead (3 * d.n + c) then
      let rn := ((neighbours d).filter fun r => f.receives r.n c).length
      a + rne (f.value (3 * d.n + c) * gain) (128 * rn)
    else a) 0

/-- The graded value after compensation, and whether the receiver saturated. -/
def FrameRec.compensated (f : FrameRec) (gain : Nat) (px : ChainPixel) (c : Nat) : Nat × Bool :=
  let m := 3 * px.n + c
  if f.isDead m then (0, false)
  else if f.receives px.n c then
    let v := f.value m + f.gift gain px c
    (min v fullDrive, fullDrive < v)
  else (f.value m, false)

/-- Compensation applies on port `port` (R164, R182). -/
def State.compensates (s : State) (c : List Byte) (t : TemperSet) (port : Nat) : Bool :=
  !canvasRaw c && tabEnable t.global 7 &&
    (if port < 32 then (s.regN Reg.ANV_COMP_EN_LO).testBit port else (s.regN Reg.ANV_COMP_EN_HI).testBit (port - 32))

/-! ## Release -/

/-- One sub-pixel leaves the band: compensated, clipped (R195), and made a grey word (R196, R197). -/
def State.releaseOne (grey : List Byte) (t : TemperSet) (comp : Bool) (k : Nat) (px : ChainPixel) (s : State) (c : Nat) : State :=
  match s.frameRec k with
  | none => s
  | some f =>
    let m := 3 * px.n + c
    let (v, sat) := if comp then f.compensated (tabCompGain t.global) px c else (f.value m, false)
    let s := if sat then s.bump 7 5 else s
    let clip := greyTop grey < v
    let s := if clip then (s.bump 8 3).raise F.ANV_GRY_INT_STAT_clipped else s
    let v := min v (greyTop grey)
    s.modFrame k fun f => { f with shown := f.shown ++ [(m, v)], words := f.words ++ [(m, greyWord grey k m v)] }

/-- The output of a graded part can leave: in raster mode, once the next band's first row is graded, where the port has one
(R160). -/
def State.mayRelease (s : State) (g : Grid) (c : List Byte) (t : TemperSet) (f : FrameRec) (part : Nat × Nat) : Bool :=
  !f.released.contains part &&
    (canvasRaw c || !(s.allParts g c t f.k).contains (part.1, part.2 + 1) || f.parts.contains (part.1, part.2 + 1))

/-- Part `part` is released. -/
def State.releasePart (g : Grid) (c grey : List Byte) (t : TemperSet) (k : Nat) (s : State) (part : Nat × Nat) : State :=
  match s.frameRec k with
  | none => s
  | some f =>
    if s.mayRelease g c t f part then
      let comp := s.compensates c t part.1
      let s := (s.partPixels g c t k part.1 part.2).foldl (fun s px => (List.range 3).foldl (State.releaseOne grey t comp k px) s) s
      s.modFrame k fun f => { f with released := f.released ++ [part] }
    else s

/-- Every part of the frame has been graded. -/
def State.wholeGraded (s : State) (g : Grid) (c : List Byte) (f : FrameRec) : Bool :=
  match f.temper with
  | some t => (s.allParts g c t f.k).all f.parts.contains
  | none => false

/-- Part (port, band) of frame `k` is graded and what it frees is released. -/
def State.gradePart (s : State) (g : Grid) (c grey : List Byte) (t : TemperSet) (k port band : Nat) : State :=
  let s := (s.partPixels g c t k port band).foldl (State.gradeOne g c t k) s
  let s := (s.modFrame k fun f => { f with parts := f.parts ++ [(port, band)] }).pmc 7 64 0
  let s := ((s.frameRec k).map (·.parts)).getD [] |>.foldl (State.releasePart g c grey t k) s
  match s.frameRec k with
  | some f => if s.wholeGraded g c f then s.bump 7 0 else s
  | none => s

/-- The part of a band may be graded now (R160, R204): a port whose output queue is full holds up its own parts. A port's raster bands are graded from the top, which is why R160 need name only
the row below a band for what compensation passes between bands (assumption 54). -/
def State.mayGrade (s : State) (g : Grid) (c : List Byte) (f : FrameRec) (t : TemperSet) (port band : Nat) : Bool :=
  let parts := s.allParts g c t f.k
  s.powered (14 + port / 16) && parts.contains (port, band) && !f.parts.contains (port, band) &&
    (canvasRaw c || band == 0 || !parts.contains (port, band - 1) || f.parts.contains (port, band - 1)) &&
    s.bandWritten g c f port band && s.buffersFree g f.k && !s.queueFull port

/-- BAND_GRADED (R160, R204): the part of band `band` of frame `k` that belongs to `port` is graded. -/
def execBandGraded (k port band : Nat) (s : State) : Result :=
  match s.grid, s.anv.canvas, s.anv.grey, s.frameRec k with
  | some g, some c, some grey, some f =>
    match (f.temper <|> s.anv.temper) with
    | some t =>
      if s.mayGrade g c f t port band then
        let s := if f.temper.isNone then s.beginGrading t k else s
        done (s.gradePart g c grey t k port band)
      else done s
    | none => done s
  | _, _, _, _ => done s

end Sys2Proof.Machine
end

