-- ==== Sys2Proof/Machine/Ageing.lean ====
section
/-! DEFINITION. The drive integrators and age words (R171 to R176): the update of a period, the recode pass, and the
checkpoint. -/

namespace Sys2Proof.Machine

/-- The current bank of ageing curves, and its number (R175). -/
def State.curveBank (s : State) : Nat := s.fld F.ANV_PIPE_STATUS_curve_bank
def State.bankCurves (s : State) : List Byte := nth s.anv.banks s.curveBank []

/-- A pixel's integrator of colour `c` is read by initiator `ini`; one that cannot be read is a free value, with the status of the
failure. -/
def State.readInt (s : State) (ini : Nat) (t : TemperSet) (n c : Nat) : Nat × Nat × State :=
  let (a, s) := s.readMem ini (t.int + 4 * (3 * n + c)) 4
  match a with
  | .data bs => (0, leNat bs, s)
  | a => (a.status 0, (Config.lostIntegrator s.draws).toNat, s.drawn)

/-- Pixel `n` is brought up to date by initiator `ini`: each integrator that can be read takes its new value, the others are left
unchanged, and the age word is written from them (R172, R174, R190). -/
def State.updatePixel (s : State) (ini : Nat) (t : TemperSet) (n : Nat) (new : Nat → Nat → Nat) : State :=
  let one (acc : List Nat × State) (c : Nat) : List Nat × State :=
    let (st, v, s) := acc.2.readInt ini t n c
    let v' := if st = 0 then min (new c v) (2 ^ 32 - 1) else v
    let s := if st = 0 then (s.writeMem ini (t.int + 4 * (3 * n + c)) (natLE 4 v')).2
      else if st = Status.memoryError then s.bump 7 3 else s
    (acc.1 ++ [v'], s)
  let (vs, s) := (List.range 3).foldl one ([], s)
  let w := ageWord s.bankCurves s.curveBank (triple fun c => nth vs c 0)
  (s.writeMem ini (t.age + 4 * n) (natLE 4 w)).2

/-- E (R172). -/
def State.epoch (s : State) : Nat := 2 ^ s.fld F.ANV_AGE_CFG_epoch_log2

/-- The bytes of an update set as they stand in memory: the integrators and the age word of each pixel in turn (R272). -/
def State.agedBytes (s : State) (t : TemperSet) (e k : Nat) : List Byte :=
  (updateSet e k).flatMap fun n => s.mem.bytes (t.int + 12 * n) 12 ++ s.mem.bytes (t.age + 4 * n) 4

/-- INTEGRATOR_UPDATE (R172): the update set of period `k`, which shows the values in `lit`. A standby leaves out a pixel whose copy
from the active includes the period (R276). The active tells its twin the set's CRC-64 (R272). -/
def State.integrate (s : State) (g : Grid) (k : Nat) : State :=
  match s.anv.temper with
  | none => s
  | some t =>
    if !s.flag F.ANV_AGE_CFG_integrate_en then s
    else
      let e := s.epoch
      let lit := s.anv.lit
      let shown (m : Nat) : Nat := ((lit.find? fun x => x.1 == m).map (·.2)).getD 0
      let s := ((updateSet e k).filter fun n => (s.twn.copied.find? fun x => x.1 == n).all fun x => x.2 < k).foldl (fun s n =>
        s.updatePixel (sliceOf n) t n fun c i => i + integrated g e k (3 * n + c) (shown (3 * n + c))) s
      let crc := crc64 (s.agedBytes t e k)
      let s := s.modTwn fun w => { w with ageCrc := ((k, crc) :: w.ageCrc).take 64 }
      if s.isActive then s.linkSend 8 (natLE 8 k ++ natLE 8 crc) else s

/-- The integrators of pixel `n` are read: their values, the status `st` or that of the first read that failed after it. -/
def State.readInts (st : Nat) (s : State) (ini : Nat) (t : TemperSet) (n : Nat) : List Nat × Nat × State :=
  (List.range 3).foldl (fun acc c =>
    let r := acc.2.2.readInt ini t n c
    (acc.1 ++ [r.2.1], if acc.2.1 = 0 then r.1 else acc.2.1, r.2.2)) ([], st, s)

/-- The age word of pixel `n` is written from its integrators under the current curves. -/
def State.recodePixel (st : Nat) (s : State) (ini : Nat) (t : TemperSet) (n : Nat) : Nat × State :=
  let r := State.readInts st s ini t n
  let w := r.2.2.writeMem ini (t.age + 4 * n) (natLE 4 (ageWord s.bankCurves s.curveBank (triple fun c => nth r.1 c 0)))
  (w.1.status r.2.1, w.2)

/-- Every age word is written anew (R175, R176); with the status of the first access that failed. -/
def State.recodeAll (s : State) (t : TemperSet) (ini : Nat → Nat) : Nat × State :=
  (List.range 4194304).foldl (fun acc n => State.recodePixel acc.1 acc.2 (ini n) t n) (0, s)

/-- RECODE_PASS_DONE (R175): the background pass has rewritten every age word. -/
def execRecodePassDone (s : State) : Result :=
  match s.anv.temper with
  | some t =>
    if s.flag F.ANV_PIPE_STATUS_recode_busy then
      done (((s.recodeAll t sliceOf).2.lower F.ANV_PIPE_STATUS_recode_busy).raise F.ANV_PIPE_INT_STAT_recode_done)
    else done s
  | none => done s

/-! ## The checkpoint (R176) -/

/-- The address of the checkpoint entry of sub-pixel `m`. -/
def State.ckptAddr (s : State) (m : Nat) : Nat := 0x180000000 + 0x100000 * s.fld F.ANV_AGE_CKPT_BASE_mib + 2 * m

/-- One word is read, and what `f` makes of it written elsewhere; a word that cannot be read changes nothing. -/
def State.carry (st : Nat) (s : State) (src n dst : Nat) (f : Nat → List Byte) : Nat × State :=
  let (a, s) := s.readMem 5 src n
  match a with
  | .data bs =>
    let (w, s) := s.writeMem 5 dst (f (leNat bs))
    (w.status st, s)
  | a => (a.status st, s)

/-- Every entry takes its integrator's upper half; an entry whose integrator cannot be read keeps its old value. The answer is the
status of the first access that failed. -/
def State.ckptSave (s : State) (t : TemperSet) : Nat × State :=
  (List.range (3 * 4194304)).foldl (fun acc m =>
    acc.2.carry acc.1 (t.int + 4 * m) 4 (acc.2.ckptAddr m) fun v => natLE 2 (v / 65536)) (0, s)

/-- Every integrator is rebuilt from its entry, and then every age word. -/
def State.ckptLoad (s : State) (t : TemperSet) : Nat × State :=
  let r := (List.range (3 * 4194304)).foldl (fun acc m =>
    acc.2.carry acc.1 (acc.2.ckptAddr m) 2 (t.int + 4 * m) fun v => natLE 4 (if v = 0 then 0 else 65536 * v + 0x8000)) (0, s)
  let q := r.2.recodeAll t fun _ => 5
  (if r.1 = 0 then q.1 else r.1, q.2)

/-- A checkpoint operation begins: 1 the timer's write, 2 AGE_CKPT_SAVE, 3 AGE_CKPT_LOAD. -/
def State.ckptBegin (s : State) (op : Nat) (slot : Option Nat) : State :=
  (s.modAnv fun a => { a with ckptOp := op, ckptSlot := slot }).raise F.ANV_PIPE_STATUS_ckpt_busy

/-- AGE_CKPT_SAVE is refused on state: a checkpoint is under way (R189), or no Temper set names the planes (assumption 55). -/
def State.ckptRefused (s : State) : Bool := s.flag F.ANV_PIPE_STATUS_ckpt_busy || s.anv.temper.isNone

/-- AGE_CKPT_SAVE (R176, R189). -/
def execAgeCkptSave (s : State) : Result :=
  done (s.takeCommand 0x60 0x0A fun slot _ s => if s.ckptRefused then (some refusedState, s) else (none, s.ckptBegin 2 (some slot)))

/-- AGE_CKPT_LOAD (R176). While a checkpoint is under way it is not taken: only SAVE is refused then (R189; assumption 55). -/
def execAgeCkptLoad (s : State) : Result :=
  if s.flag F.ANV_PIPE_STATUS_ckpt_busy then done s
  else done (s.takeCommand 0x60 0x09 fun slot _ s =>
    if s.anv.temper.isNone || s.flag F.ANV_AGE_CFG_integrate_en then (some refusedState, s) else (none, s.ckptBegin 3 (some slot)))

/-- AGE_CHECKPOINT_TIMER (R176): ten minutes of operation have passed. -/
def execAgeCheckpointTimer (s : State) : Result :=
  if s.flag F.ANV_AGE_CFG_ckpt_en && !s.ckptRefused then done (s.ckptBegin 1 none) else done s

/-- CHECKPOINT_COMPLETE (R176): the write or load under way ends; an access that failed gives the command its status (R302, R324,
R327). -/
def execCheckpointComplete (s : State) : Result :=
  match s.anv.temper with
  | some t =>
    if s.flag F.ANV_PIPE_STATUS_ckpt_busy then
      let slot := s.anv.ckptSlot
      let (st, s) := if s.anv.ckptOp = 3 then s.ckptLoad t else s.ckptSave t
      let s := (s.modAnv fun a => { a with ckptOp := 0, ckptSlot := none }).lower F.ANV_PIPE_STATUS_ckpt_busy
      let s := s.raise F.ANV_PIPE_INT_STAT_ckpt_done
      done (match slot with | some n => (s.finish 0x60 n { status := st }).settle 0x60 | none => s)
    else done s
  | none => done s

/-! ## What P(k) shows (R147 to R149, R144) -/

/-- The flags and counters of a period that shows `show`: 1 a frame, 2 a repeat, 0 dark. -/
def State.countPeriod (s : State) (show_ : Nat) : State :=
  let was := s.fld F.ANV_INGEST_STATUS_show
  let ran := s.anv.ran
  if show_ = 1 then if ran ∧ was ≠ 1 then s.raise F.ANV_INGEST_INT_STAT_resumed else s
  else if show_ = 2 then
    let s := (s.bump 6 11).life 32
    if was ≠ 2 then s.raise F.ANV_INGEST_INT_STAT_repeat_begun else s
  else
    let s := if s.anyStarted then s.bump 6 12 else s
    if was ≠ 0 ∨ !ran then s.raise F.ANV_INGEST_INT_STAT_dark_begun else s

/-- Slots and what is lit at the start of period `k` (R144, R147). -/
def State.lightPeriod (s : State) (k show_ : Nat) : State :=
  let shown := ((s.frameRec k).map (·.shown)).getD []
  let s := s.modAnv fun a =>
    let old (f : FrameRec) : Bool := f.k < k || (a.litK == some f.k)
    if show_ = 1 then { a with
      frames := a.frames.filter (fun f => f.k == k || !old f), lit := shown, litK := some k, litOnce := true, repeats := 0 }
    else if show_ = 2 then { a with repeats := a.repeats + 1 }
    else { a with frames := a.frames.filter (fun f => f.k != k && !old f), lit := [], litK := none, litOnce := a.litOnce && s.anyStarted }
  (s.modAnv fun a => { a with shownK := some k, ran := true }).countSlots

/-- A brightness that came late ceases to make class 1 stale at its end (R272). -/
def State.endStale (s : State) (k : Nat) : State :=
  if s.twn.staleTill.any (· ≤ k) then
    ((s.setFld ⟨Reg.TWN_CLASS_STALE, 1, 1⟩ 0).modTwn fun t => { t with staleTill := none }).judgeSync
  else s

/-- PRESENTATION_TIME (R147): P(k) comes. -/
def execPresentationTime (k : Nat) (s : State) : Result :=
  match s.grid with
  | none => done s
  | some g =>
    if s.anv.shownK.any (k ≤ ·) then done s
    else
      let s := s.reach (g.pWall k)
      let show_ := s.showAt k
      let s := ((s.countPeriod show_).lightPeriod k show_).setFld F.ANV_INGEST_STATUS_show show_
      let s := (s.setReg Reg.ANV_GRID_INDEX_LO (BitVec.ofNat 32 k)).setReg Reg.ANV_GRID_INDEX_HI (BitVec.ofNat 32 (k / 2 ^ 32))
      let s := if show_ = 0 then s else s.integrate g k
      done ((s.modTwn fun t => { t with firstShow := t.firstShow.filter (k ≤ ·) }).endStale k)

end Sys2Proof.Machine
end

