-- ==== Sys2Proof/Machine/Anvil.lean ====
section
/-! DEFINITION. The commands of the pixel pipeline and the greyscale stage on ring 0x60: Temper sets, brightness, the dead map
and GREY_SET (R177, R181, R183 to R189, R212). -/

namespace Sys2Proof.Machine

/-! ## TEMPER_COMMIT (R162, R183 to R186) -/

def descGlobal (d : List Byte) : Nat := le d 0 8
def descMap (d : List Byte) : Nat := le d 8 8
def descCount (d : List Byte) : Nat := le d 16 4

/-- An address of a set descriptor: aligned, and `size` bytes of DRAM from there (R183). -/
def planeGood (a align size : Nat) : Bool := a % align == 0 && a + size ≤ 0x100000000

/-- The first bad field of a set descriptor. A placement count out of range gives the map no length. -/
def descBad (raw : Bool) (d : List Byte) : Option Nat :=
  let count := 1 ≤ descCount d && descCount d ≤ 65536
  firstBad [(planeGood (descGlobal d) 4096 0x20000, 0x00), (raw || planeGood (descMap d) 64 (if count then 16 * descCount d else 0), 0x08),
    (raw || count, 0x10), (planeGood (le d 24 8) 0x200000 0x4000000, 0x18),
    (planeGood (le d 32 8) 0x200000 0x1000000, 0x20), (planeGood (le d 40 8) 0x200000 0x3000000, 0x28)]

/-- The points of the three curves in a global table block or a bank. -/
def curvePoints (bank : List Byte) : List (Nat × Nat) :=
  (List.range 48).map fun i => curvePoint bank (i / 16) (i % 16)

/-- The points of a curve stand in order from 0 (R173). -/
def curveOrder (bank : List Byte) (c : Nat) : Bool :=
  (curvePoint bank c 0).1 == 0 && (List.range 15).all fun j => (curvePoint bank c j).1 < (curvePoint bank c (j + 1)).1

/-- The global table block passes (R178, R184, R186). -/
def globalGood (g : List Byte) : Bool :=
  le g 0 4 == 0x54454D31 && (List.range 3).all (curveOrder (tabCurves g)) &&
    (List.range 3).all fun c => (List.range 4097).all fun i => tabOutput g c i < 2 ^ 28

/-- Two placements share a chain position of one port. -/
def placeClash (a b : List Byte) : Bool :=
  placePort a == placePort b && le a 12 4 < le b 12 4 + le b 4 2 * le b 6 2 && le b 12 4 < le a 12 4 + le a 4 2 * le a 6 2

/-- No two entries of a map clash. -/
def mapDisjoint : List (List Byte) → Bool
  | [] => true
  | e :: es => es.all (fun x => !placeClash e x) && mapDisjoint es

/-- One placement keeps the rules of R161 and R162. -/
def State.placeGood (s : State) (w h : Nat) (e : List Byte) : Bool :=
  let pixels := match s.chainOf (placePort e) with | some c => chainPixels c | none => 0
  1 ≤ le e 4 2 && le e 4 2 ≤ 8192 && 1 ≤ le e 6 2 && le e 6 2 ≤ 8192 && placePort e < 64 && placeInside w h e &&
    le e 12 4 < 65536 && le e 12 4 + le e 4 2 * le e 6 2 ≤ pixels

/-- The map keeps the rules of R162. -/
def State.mapGood (s : State) (es : List (List Byte)) : Bool :=
  let (w, h) := match s.anv.canvas with | some c => (canvasWidth c, canvasHeight c) | none => (8192, 8192)
  es.all (s.placeGood w h) && mapDisjoint es &&
    (List.range 4).all (fun n => (es.filter fun e => placePort e / 16 == n).length ≤ 16384) &&
    es.foldl (fun a e => a + le e 4 2 * le e 6 2) 0 ≤ 4194304

/-- The canvas in force is in raw mode. -/
def State.rawMode (s : State) : Bool := match s.anv.canvas with | some c => canvasRaw c | none => false

/-- A block of memory read by the Anvil sequencer, or the status of the failure (R186, R302). -/
def State.anvilRead (s : State) (a len : Nat) : Except Nat (List Byte) × State :=
  match s.readMem 5 a len with
  | (.data bs, s) => (.ok bs, s)
  | (.error, s) => (.error Status.memoryError, s)
  | (.denied, s) => (.error Status.accessDenied, s)

/-- The set would move the age or integrator plane under a started stream or running integration (R186). -/
def State.planesMove (s : State) (d : List Byte) : Bool :=
  (s.anyStarted || s.flag F.ANV_AGE_CFG_integrate_en) &&
    (match s.anv.temper with | some t => t.age != le d 32 8 || t.int != le d 40 8 | none => false)

/-- A frame that began grading under an older set is still being graded (R185). -/
def State.draining (s : State) : Bool :=
  match s.grid, s.anv.canvas, s.anv.temper with
  | some g, some c, some t =>
    s.anv.frames.any fun f => (f.temper.any fun u => u.gen != t.gen) && !s.wholeGraded g c f
  | _, _, _ => false

/-- The commit completes (R185). -/
def State.commitDone (s : State) : State :=
  (((s.modAnv fun a => { a with commitSlot := none }).lower F.ANV_PIPE_STATUS_commit_busy).wrapFld F.ANV_PIPE_STATUS_set_gen).raise
    F.ANV_PIPE_INT_STAT_commit_done

/-- New ageing curves go into the other bank and a recode pass begins (R175). -/
def State.loadCurves (s : State) (curves : List Byte) : State :=
  let other := 1 - s.curveBank
  ((s.modAnv fun a => { a with banks := a.banks.set other curves }).setFld F.ANV_PIPE_STATUS_curve_bank other).raise
    F.ANV_PIPE_STATUS_recode_busy

/-- A set that has passed its checks becomes active (R185). -/
def State.activateSet (s : State) (slot : Nat) (t : TemperSet) (newCurves : Bool) : Option Cpl × State :=
  let s := (((s.modAnv fun a => { a with temper := some t }).raise F.ANV_PIPE_STATUS_set_active).bump 7 1).judgeSync
  let s := if newCurves then s.loadCurves (tabCurves t.global) else s
  if s.draining then
    (none, (s.modAnv fun a => { a with commitSlot := some slot }).raise F.ANV_PIPE_STATUS_commit_busy)
  else (some okCpl, s.commitDone)

/-- The checks on the tables themselves, then activation. -/
def State.checkSet (s : State) (slot : Nat) (d g : List Byte) (es : List (List Byte)) : Option Cpl × State :=
  let newCurves := curvePoints (tabCurves g) != curvePoints s.bankCurves
  if !globalGood g then (some (badField 0x00), s)
  else if !s.rawMode && !s.mapGood es then (some (badField 0x08), s)
  else if newCurves && s.flag F.ANV_PIPE_STATUS_recode_busy then (some { status := Status.busy }, s)
  else s.activateSet slot { desc := d, global := g, places := es, gen := (match s.anv.temper with | some t => t.gen + 1 | none => 1) } newCurves

/-- The tables are read and checked (R186). -/
def State.readSet (s : State) (slot : Nat) (d : List Byte) : Option Cpl × State :=
  match s.anvilRead (descGlobal d) 0x20000 with
  | (.error st, s) => (some { status := st }, s)
  | (.ok g, s) =>
    if s.rawMode then s.checkSet slot d g []
    else match s.anvilRead (descMap d) (16 * descCount d) with
      | (.error st, s) => (some { status := st }, s)
      | (.ok m, s) => s.checkSet slot d g ((List.range (descCount d)).map fun i => sliceB m (16 * i) 16)

/-- TEMPER_COMMIT (R183 to R186). It is not taken while an earlier one waits for old frames. -/
def execTemperCommit (s : State) : Result :=
  if s.anv.commitSlot.isSome then done s
  else done (s.takeCommand 0x60 0x05 fun slot desc s => s.withBlock 0x60 desc fun d s =>
    match descBad s.rawMode d with
    | some o => (some (badField o), s)
    | none => if s.planesMove d then (some refusedState, s) else s.readSet slot d)

/-- TEMPER_COMMIT_DRAINED (R185): no frame graded under the old set is still being graded. -/
def execTemperCommitDrained (s : State) : Result :=
  match s.anv.commitSlot with
  | some slot => if s.draining then done s else done ((s.commitDone.finish 0x60 slot okCpl).settle 0x60)
  | none => done s

/-! ## BRIGHTNESS (R177, R272) -/

/-- The lowest grid index whose D lies after wall time `t`. -/
def Grid.nextDeadline (g : Grid) (t : Nat) : Nat :=
  let c : Int := g.dNum 0
  (((g.at t) - c) / (g.frame : Int) + 1).toNat

/-- The next frame to begin grading: the lowest that has not begun and whose D(k) is still to come (R177). -/
def State.nextToGrade (s : State) (g : Grid) : Nat :=
  let k := g.nextDeadline s.wall
  (((List.range (s.anv.begun.length + 1)).map (k + ·)).find? fun j => !s.anv.begun.contains j).getD k

/-- The start index that a BRIGHTNESS takes (R177); the active of a pair leaves the standby two frames (R272). -/
def State.resolveK0 (s : State) (k0 : Nat) : Nat :=
  match s.grid with
  | none => k0
  | some g =>
    let k := if k0 = 0 ∨ s.anv.begun.contains k0 then s.nextToGrade g else k0
    if s.isActive then max k (s.nextToGrade g + 2) else k

/-- A brightness setting takes effect from `k0`. -/
def State.setBright (s : State) (b1 r k0 : Nat) : State :=
  s.modAnv fun a => { a with brights := { b1 := b1, r := r, k0 := k0, bs := brightAt a.brights k0 } :: a.brights }

/-- The first bad field of a BRIGHTNESS block. -/
def brightBad (b : List Byte) : Option Nat := firstBad [(le b 0 2 ≤ 0x8000, 0)]

/-- BRIGHTNESS (R177, R189); on a standby the setting comes through class 1 (R268). -/
def execBrightness (s : State) : Result :=
  done (s.takeCommand 0x60 0x06 fun _ desc s => s.withBlock 0x60 desc fun b s =>
    match brightBad b with
    | some o => (some (badField o), s)
    | none =>
      if s.isStandby && (s.regN Reg.TWN_CLASS_REG).testBit 1 then (some refusedState, s)
      else
        let k0 := s.resolveK0 (le b 8 8)
        (some okCpl, (s.setBright (le b 0 2) (le b 2 2) k0).mirror 1 0 (natLE 4 (le b 0 2) ++ natLE 4 (le b 2 2) ++ natLE 8 k0)))

/-! ## DEAD_SET and DEAD_CLEAR (R180, R181) -/

/-- The first bad field of their block. -/
def deadBad (b : List Byte) : Option Nat :=
  firstBad [(byteAt b 0 < 64, 0), (le b 4 4 < 65536, 4), (1 ≤ le b 8 4 && le b 4 4 + le b 8 4 ≤ 65536, 8)]

/-- The bits of dead-map word `w` that a command names. -/
def deadMask (port mask first count w : Nat) : Nat :=
  (List.range 64).foldl (fun a i =>
    let m := 64 * w + i
    let n := m / 3
    if 65536 * port + first ≤ n ∧ n < 65536 * port + first + count ∧ mask.testBit (m % 3) then a + 2 ^ i else a) 0

/-- The named bits of one word take the value `on`: a whole word is written outright, another is read, changed and written. -/
def State.deadWord (st : Nat) (s : State) (on : Bool) (mask w : Nat) : Nat × State :=
  let a := 0x102E80000 + 8 * w
  if mask = 0 then (st, s)
  else if mask = 2 ^ 64 - 1 then
    let (x, s) := s.writeMem 12 a (natLE 8 (if on then mask else 0))
    (x.status st, s)
  else
    let (x, s) := s.readMem 12 a 8
    match x with
    | .data bs =>
      let v := leNat bs
      let (x, s) := s.writeMem 12 a (natLE 8 (if on then v ||| mask else v - (v &&& mask)))
      (x.status st, s)
    | x => (x.status st, s)

/-- The named bits of the dead map take the value `on`; with the status of the first access that failed. -/
def State.deadBits (s : State) (on : Bool) (port mask first count : Nat) : Nat × State :=
  let lo := 3 * (65536 * port + first) / 64
  let hi := (3 * (65536 * port + first + count) - 1) / 64
  (List.range (hi + 1 - lo)).foldl (fun acc i => acc.2.deadWord acc.1 on (deadMask port mask first count (lo + i)) (lo + i)) (0, s)

/-- The body of both commands. -/
def State.deadCommand (s : State) (op : Nat) (on : Bool) : State :=
  s.takeCommand 0x60 op fun _ desc s => s.withBlock 0x60 desc fun b s =>
    match deadBad b with
    | some o => (some (badField o), s)
    | none =>
      if s.isStandby then (some refusedState, s)
      else
        let (st, s) := s.deadBits on (byteAt b 0) (bits (byteAt b 1) 0 3) (le b 4 4) (le b 8 4)
        (some { status := st }, s.mirror 4 aboutClass (natLE 1 4 ++ natLE 1 (b2n on) ++ sliceB b 0 2 ++ sliceB b 4 8))

def execDeadSet (s : State) : Result := done (s.deadCommand 0x07 true)
def execDeadClear (s : State) : Result := done (s.deadCommand 0x08 false)

/-! ## GREY_SET (R192, R194, R212) -/

/-- The first failing check of R212. -/
def greyBad (canvas : Option (List Byte)) (b : List Byte) : Option Nat :=
  let own := [(1 ≤ greyNSf b && greyNSf b ≤ 320, 0), (8 ≤ greyNB b && greyNB b ≤ 16, 2),
    (greySigma b ≤ 6 && 2 ^ greySigma b ≤ 2 ^ (greyNB b - 2), 3), (1 ≤ greyNLine b && greyNLine b ≤ 64, 4),
    (2 ≤ greyTLsb b && greyTLsb b ≤ 64, 6), (20 ≤ greyTBlank b && greyTBlank b ≤ 4000, 8),
    (250000 ≤ greyWMin b && greyWMin b ≤ 100000000, 12), (greySLo b ≤ greySHi b, 5)]
  let grid := match canvas with
    | some c =>
      let g := gridOf c b
      [(g.rateOk, 0), (g.latOk, 0), (g.slotOk, 8)]
    | none => []
  firstBad (own ++ grid)

/-- GREY_SET (R212). -/
def execGreySet (s : State) : Result :=
  done (s.takeCommand 0x60 0x0B fun _ desc s =>
    if s.anyStarted then (some refusedState, s)
    else s.withBlock 0x60 desc fun b s =>
      match greyBad s.anv.canvas b with
      | some o => (some (badField o), s)
      | none => (some okCpl, (s.modAnv fun a => { a with grey := some b }).greyFigures.gridChanged.judgeSync))

end Sys2Proof.Machine
end

