-- ==== Sys2Proof/Machine/Keystore.lean ====
section
/-! DEFINITION. The Keystore: the commands of rings 0x08 and 0x09, the key path, re-masking, the attribute fence and the
random source (R507 to R537). Each operation is one step: it is checked, runs and completes against one set of
attributes (R526). -/

namespace Sys2Proof.Machine

/-! ## Slots -/

/-- The bindings R508 allows a type, as a mask of the attribute word. -/
def allowedBindings (t : Nat) : Nat :=
  match t with
  | 1 => 0x18700 | 2 => 0x10000 | 3 => 0x4800 | 4 => 0x12000 | 5 => 0x11000 | 6 => 0x4000 | _ => 0

/-- The attribute word passes R510 for its type. -/
def attrGood (attr : Nat) : Bool :=
  let t := keyType attr
  (attr &&& 0x1FF00) &&& (0x1FF00 ^^^ allowedBindings t) == 0 &&
    !((attr.testBit 17 || attr.testBit 18) && (t != 4 || !attr.testBit 13)) &&
    !(attr.testBit 17 && attr.testBit 18)

/-- The attribute word without its reserved bits. -/
def attrWord (v : Nat) : Nat := v &&& 0xFFF0F

/-- The check value of R514, little-endian; 0 for EMPTY. -/
def kcv (k : KeySlot) : Nat :=
  if keyType k.attr = 0 then 0
  else leNat ((Crypto.sha256 (ascii "CSG-4810 KCV" ++ natLE 1 (keyType k.attr) ++ k.key)).take 4)

/-- `n` bytes of the random source (R532). -/
def State.random (s : State) (n : Nat) : List Byte × State :=
  ((List.range n).map (Config.randomByte s.draws), s.drawn)

/-- KEY_STATUS.slots_used shows the slots that are not EMPTY. -/
def State.keyCount (s : State) : State :=
  s.setFld F.KEY_STATUS_slots_used (s.key.slots.filter fun k => keyType k.2.attr != 0).length

/-- A commit under R513: the slot takes its new content and generation; the change is counted, flagged, fenced and
entered in the audit log (R526 to R528). -/
def State.keyCommit (s : State) (slot attr : Nat) (key : List Byte) (counter : Nat) : State :=
  let old := s.keySlot slot
  let k : KeySlot := { attr := attr, key := key, gen := (old.gen + 1) % 2 ^ 16, counter := counter }
  let s := ((s.setKeySlot slot k).keyCount.bump 15 0).raise F.KEY_INT_STAT_commit
  let s := (s.wrapFld F.KEY_FENCE_gen).lower F.KEY_FENCE_drained
  s.audit 0x0103 s.key.doorbellBy (natLE 2 slot ++ natLE 2 k.gen ++ natLE 4 attr ++ natLE 4 (kcv k))

/-- A read of a slot found an uncorrectable error: the slot is damaged (R518). Slot 0 is not stored (R507). -/
def State.keyDamage (s : State) (slot : Nat) : State :=
  if slot = 0 then s
  else ((s.setKeySlot slot { s.keySlot slot with damaged := true }).raise F.KEY_INT_STAT_storage_error).bump 15 5

/-- A signature, seal or tag did not verify (R531). -/
def State.keyAuthFailed (s : State) : State := (s.bump 15 4).life 42

/-- The completion of a management command about `slot` (R536). -/
def State.keyCpl (s : State) (slot status off : Nat) : Cpl :=
  let k := s.keySlot slot
  { status := status, w1 := off + slot * 2 ^ 8 + 2 ^ 16 * k.gen
    w2 := if k.damaged then (Config.damagedKcv s.draws).toNat else kcv k
    w3 := k.attr + 2 ^ 31 * (b2n k.damaged) }

/-- A protected change of the Keystore waits while the audit buffer is full (R568): the command is then not taken. -/
def State.keyGuard (s : State) (f : State → State) : State :=
  let s' := f s
  if !s.auditRoom && s'.fld F.KEY_FENCE_gen != s.fld F.KEY_FENCE_gen then s.auditWait else s'

/-! ## Filling a slot -/

/-- The slot a fill acts on: the one named, or the lowest EMPTY slot from 1 for slot 0 (R515). -/
def State.keyDest (s : State) (slot : Nat) : Option Nat :=
  if slot ≠ 0 then some slot
  else ((List.range 255).map (· + 1)).find? fun n => keyType (s.keySlot n).attr == 0 && !(s.keySlot n).damaged

/-- Host memory that a Keystore command reads, as initiator 15. -/
def State.keyRead (s : State) (a len : Nat) : Except Nat (List Byte) × State :=
  if len = 0 then (.ok [], s)
  else
    let (r, s) := s.readMem 15 a len
    match r with
    | .data bs => (.ok bs, s)
    | .error => (.error Status.memoryError, s)
    | .denied => (.error Status.accessDenied, s)

/-- Host memory that a Keystore command writes, as initiator 15; the status. -/
def State.keyStore (s : State) (a : Nat) (bs : List Byte) : Nat × State :=
  let (r, s) := s.writeMem 15 a bs
  (match r with | .data _ => Status.ok | .error => Status.memoryError | .denied => Status.accessDenied, s)

/-- The last steps of R513 with the key in hand: read-back, check value, commit. -/
def State.keyFill (s : State) (dest attr : Nat) (blk key : List Byte) (readback : Bool) : Option Cpl × State :=
  let k : KeySlot := { attr := attr, key := key }
  if !readback then (some (s.keyCpl dest Status.memoryError 0), s)
  else if (byteAt blk 8).testBit 0 && kcv k != le blk 4 4 then
    let s := s.keyAuthFailed
    (some (s.keyCpl dest Status.authFailed 0), s)
  else
    let s := s.keyCommit dest attr key 0
    (some (s.keyCpl dest Status.ok 0), s)

/-- A command of ring 0x08 that fills a slot: the checks of R508, R510, R515, R516 and R532 before `obtain` supplies the
key of `len` bytes, or the status and offset it fails with. `types` are the types the command can fill, `wrong` the
completion of another type of R508; the codes above them are refused with offset 0. -/
def State.keyFillCommand (s : State) (op : Nat) (types : List Nat) (wrong : Nat × Nat) (readback : Bool)
    (obtain_ : List Byte → List Byte → Nat → State → Except (Nat × Nat) (List Byte) × State) : State :=
  s.keyGuard fun s => s.takeCommand 0x08 op fun _ desc s => s.withBlock 0x08 desc fun blk s =>
    let attr := attrWord (le blk 0 4)
    let slot := byteAt desc 1
    if 7 ≤ keyType attr then (some (s.keyCpl slot Status.formatError 0), s)
    else if !types.contains (keyType attr) then (some (s.keyCpl slot wrong.1 wrong.2), s)
    else if !attrGood attr then (some (s.keyCpl slot Status.formatError 0), s)
    else
      match s.keyDest slot with
      | none => (some { status := Status.tableFull }, s)
      | some dest =>
        if (s.keySlot dest).attr.testBit 19 then (some (s.keyCpl dest Status.refused 0xFF), s)
        else if !s.flag F.KEY_STATUS_rng_ok then (some (s.keyCpl dest Status.refused 0xFF), s)
        else
          match obtain_ desc blk (keyLength (keyType attr)) s with
          | (.ok key, s) => s.keyFill dest attr blk key readback
          | (.error (st, off), s) => (some (s.keyCpl dest st off), s)

/-- The data buffer's address lies within 40 bits (R535). -/
def addrGood (a : Nat) : Bool := a < 2 ^ 40

/-- KEY_WRITE's key: plain from the data buffer, or unwrapped under the source slot (R513). -/
def State.keyWriteData (desc blk : List Byte) (len : Nat) (s : State) : Except (Nat × Nat) (List Byte) × State :=
  let wrapped := (byteAt blk 8).testBit 1
  let n := le blk 32 4
  let a := le blk 16 8
  if !addrGood a then (.error (Status.formatError, 16), s)
  else if n ≠ (if wrapped then len + 28 else len) then (.error (Status.formatError, 32), s)
  else if !wrapped then
    match s.keyRead a n with
    | (.ok bs, s) => (.ok bs, s)
    | (.error st, s) => (.error (st, 0), s)
  else
    match s.keyRequest 6 (byteAt desc 2) [1] [15] with
    | (.refused, s) => (.error (Status.keyRefused, 0), s)
    | (.memoryError, s) => (.error (Status.memoryError, 0), s)
    | (.key kek, s) =>
      match s.keyRead a n with
      | (.error st, s) => (.error (st, 0), s)
      | (.ok bs, s) =>
        match Crypto.gcmOpen kek (bs.take 12) (natLE 4 (le blk 0 4)) (sliceB bs 12 len) (bs.drop (12 + len)) with
        | some key => (.ok key, s)
        | none => (.error (Status.authFailed, 0), s.keyAuthFailed)

/-- The two parts of a derivation's data buffer, after the checks of R521 and R535. -/
def State.deriveData (desc blk : List Byte) (hkdf : Bool) (s : State) :
    Except (Nat × Nat) (List Byte × List Byte × List Byte) × State :=
  let la := le blk 10 2
  let lb := le blk 12 2
  let src := s.keySlot (byteAt desc 2)
  if 256 < la then (.error (Status.formatError, 10), s)
  else if 256 < lb then (.error (Status.formatError, 12), s)
  else if !addrGood (le blk 16 8) then (.error (Status.formatError, 16), s)
  else if le blk 32 4 ≠ la + lb then (.error (Status.formatError, 32), s)
  else if src.damaged then (.error (Status.memoryError, 0), s)
  else if !src.attr.testBit 14 then (.error (Status.refused, 0xFF), s)
  else
    match s.keyRead (le blk 16 8) (la + lb) with
    | (.error st, s) => (.error (st, 0), s)
    | (.ok bs, s) =>
      let a := bs.take la
      let b := bs.drop la
      if (if hkdf then b else a).take 8 = ascii "CSG-4810" then (.error (Status.refused, 0xFF), s)
      else (.ok (src.key, a, b), s)

/-! ## Ring 0x08 -/

/-- KEY_WRITE (R513). `readback` is false when the shares read back differ. -/
def execKeyWrite (readback : Bool) (s : State) : Result :=
  done (s.keyFillCommand 0x01 [1, 2, 3, 4, 5] (Status.formatError, 0) readback State.keyWriteData)

/-- KEY_GENERATE (R513): the key comes from the random source. -/
def execKeyGenerate (readback : Bool) (s : State) : Result :=
  done (s.keyFillCommand 0x02 [1, 2, 3, 4] (Status.formatError, 0) readback fun _ _ len s =>
    let (k, s) := s.random len
    (.ok k, s))

/-- KEY_DERIVE_HKDF (R519, R521). -/
def execKeyDeriveHkdf (readback : Bool) (s : State) : Result :=
  done (s.keyFillCommand 0x03 [1, 2, 3, 4] (Status.refused, 0xFF) readback fun desc blk len s =>
    match State.deriveData desc blk true s with
    | (.ok (k, salt, info), s) => (.ok (Crypto.hkdf k salt info len), s)
    | (.error e, s) => (.error e, s))

/-- KEY_DERIVE_108 (R520, R521). -/
def execKeyDerive108 (readback : Bool) (s : State) : Result :=
  done (s.keyFillCommand 0x04 [1, 2, 3, 4] (Status.refused, 0xFF) readback fun desc blk len s =>
    match State.deriveData desc blk false s with
    | (.ok (k, label, ctx), s) => (.ok (Crypto.kdf108 k label ctx len), s)
    | (.error e, s) => (.error e, s))

/-- KEY_ATTR (R516, R534): binding bits, seal, clear and permanent change; the type may not. -/
def execKeyAttr (s : State) : Result :=
  done (s.keyGuard fun s => s.takeCommand 0x08 0x05 fun _ desc s => s.withBlock 0x08 desc fun blk s =>
    let slot := byteAt desc 1
    let k := s.keySlot slot
    let attr := attrWord (le blk 0 4)
    if slot = 0 ∨ k.attr.testBit 19 then (some (s.keyCpl slot Status.refused 0xFF), s)
    else if k.damaged then (some (s.keyCpl slot Status.memoryError 0), s)
    else if keyType k.attr = 0 then (some (s.keyCpl slot Status.notFound 0), s)
    else if keyType attr ≠ keyType k.attr ∨ !attrGood attr then (some (s.keyCpl slot Status.formatError 0), s)
    else
      let s := s.keyCommit slot attr k.key k.counter
      (some (s.keyCpl slot Status.ok 0), s))

/-- KEY_ERASE (R516, R517). -/
def execKeyErase (s : State) : Result :=
  done (s.keyGuard fun s => s.takeCommand 0x08 0x06 fun _ desc s =>
    let slot := byteAt desc 1
    if slot = 0 ∨ (s.keySlot slot).attr.testBit 19 then (some (s.keyCpl slot Status.refused 0xFF), s)
    else
      let s := s.keyCommit slot 0 [] 0
      (some (s.keyCpl slot Status.ok 0), s))

/-- KEY_INFO (R518, R536). `bad` when the read of the slot finds an uncorrectable error. -/
def execKeyInfo (bad : Bool) (s : State) : Result :=
  done (s.takeCommand 0x08 0x07 fun _ desc s =>
    let slot := byteAt desc 1
    let s := if bad then s.keyDamage slot else s
    (some (s.keyCpl slot Status.ok 0), if (s.keySlot slot).damaged then s.drawn else s))

/-! ## Ring 0x09 -/

/-- The completion of a service operation (R536). -/
def serviceCpl (desc : List Byte) (status off : Nat) : Cpl := { status := status, w1 := off + byteAt desc 1 * 2 ^ 8 }

/-- A service operation with a key: the checks of the data and of the slot, then `run` on the key and the data (R529). -/
def State.service (s : State) (op : Nat) (types : List Nat) (bad : Bool)
    (run : List Byte → List Byte → List Byte → List Byte → State → Nat × Nat × State) : State :=
  s.takeCommand 0x09 op fun _ desc s => s.withBlock 0x09 desc fun blk s =>
    let n := le blk 32 4
    let fail (c : Nat × Nat) (s : State) : Option Cpl × State := (some (serviceCpl desc c.1 c.2), s.bump 15 3)
    if !addrGood (le blk 16 8) then fail (Status.formatError, 16) s
    else if !addrGood (le blk 24 8) then fail (Status.formatError, 24) s
    else if 16777216 < n then fail (Status.formatError, 32) s
    else if n < le blk 36 4 ∧ (op = 0x13 ∨ op = 0x14) then fail (Status.formatError, 36) s
    else
      let s := if bad then s.keyDamage (byteAt desc 1) else s
      match s.keyRequest 7 (byteAt desc 1) types [16] with
      | (.refused, s) => fail (Status.keyRefused, 0) s
      | (.memoryError, s) => fail (Status.memoryError, 0) s
      | (.key key, s) =>
        match s.keyRead (le blk 16 8) n with
        | (.error st, s) => fail (st, 0) s
        | (.ok data, s) =>
          let (st, off, s) := run key data blk desc s
          fail (st, off) s

/-- HMAC_GEN (R529). `bad` when the read of the slot finds an uncorrectable error (R518). -/
def execHmacGen (bad : Bool) (s : State) : Result :=
  done (s.service 0x11 [4] bad fun key data blk _ s =>
    let (st, s) := s.keyStore (le blk 24 8) (Crypto.hmac key data)
    (st, 0, s))

/-- A comparison that failed completes with AUTH_FAILED and is counted (R531). -/
def State.verdict (s : State) (ok : Bool) : Nat × Nat × State :=
  if ok then (Status.ok, 0, s) else (Status.authFailed, 0, s.keyAuthFailed)

/-- HMAC_VERIFY (R529, R531). -/
def execHmacVerify (bad : Bool) (s : State) : Result :=
  done (s.service 0x12 [4] bad fun key data blk _ s =>
    match s.keyRead (le blk 24 8) 32 with
    | (.error st, s) => (st, 0, s)
    | (.ok tag, s) => s.verdict (tag == Crypto.hmac key data))

/-- GCM_SEAL (R529, R530): nonce of 4 random bytes and the slot's counter, which grows first. -/
def execGcmSeal (bad : Bool) (s : State) : Result :=
  done (s.service 0x13 [1, 2] bad fun key data blk desc s =>
    if !s.flag F.KEY_STATUS_rng_ok then (Status.refused, 0xFF, s)
    else
      let slot := byteAt desc 1
      let k := s.keySlot slot
      let s := s.setKeySlot slot { k with counter := (k.counter + 1) % 2 ^ 64 }
      let (r, s) := s.random 4
      let iv := r ++ natBE 8 ((k.counter + 1) % 2 ^ 64)
      let aad := le blk 36 4
      let (ct, tag) := Crypto.gcmSeal key iv (data.take aad) (data.drop aad)
      let (st, s) := s.keyStore (le blk 24 8) (iv ++ ct ++ tag)
      (st, 0, s))

/-- GCM_OPEN (R529, R531): no plaintext is written unless the tag verifies. -/
def execGcmOpen (bad : Bool) (s : State) : Result :=
  done (s.service 0x14 [1, 2] bad fun key data blk _ s =>
    let aad := le blk 36 4
    if data.length < 28 + aad then (Status.formatError, 32, s)
    else
      let body := sliceB data (12 + aad) (data.length - 28 - aad)
      match Crypto.gcmOpen key (data.take 12) (sliceB data 12 aad) body (data.drop (data.length - 16)) with
      | none => (Status.authFailed, 0, s.keyAuthFailed)
      | some pt =>
        if pt.isEmpty then (Status.ok, 0, s)
        else
          let (st, s) := s.keyStore (le blk 24 8) pt
          (st, 0, s))

/-- ECDSA_VERIFY (R529, R531). -/
def execEcdsaVerify (bad : Bool) (s : State) : Result :=
  done (s.service 0x15 [5] bad fun key data blk _ s =>
    match s.keyRead (le blk 24 8) 96 with
    | (.error st, s) => (st, 0, s)
    | (.ok sig, s) => s.verdict (Crypto.ecdsaVerify key data sig))

/-- RANDOM (R529, R532): 1 to 4,096 bytes at the result address. -/
def execRandom (s : State) : Result :=
  done (s.takeCommand 0x09 0x16 fun _ desc s => s.withBlock 0x09 desc fun blk s =>
    let n := le blk 32 4
    let fail (c : Nat × Nat) (s : State) : Option Cpl × State := (some (serviceCpl desc c.1 c.2), s.bump 15 3)
    if !addrGood (le blk 24 8) then fail (Status.formatError, 24) s
    else if n = 0 ∨ 4096 < n then fail (Status.formatError, 32) s
    else if !s.flag F.KEY_STATUS_rng_ok then fail (Status.refused, 0xFF) s
    else
      let (r, s) := s.random n
      let (st, s) := s.keyStore (le blk 24 8) r
      fail (st, 0) s)

/-! ## Events -/

/-- The types and bindings that the requester at a position of R525's order asks for (R522). -/
def requesterNeeds (requester : Nat) (clear : Bool) : List Nat × List Nat :=
  match requester with
  | 0 => ([1], [8]) | 1 => ([1], [9]) | 2 => ([1], [10]) | 3 => ([3], [11]) | 4 => ([5], [12])
  | 5 => ([4], [13, if clear then 18 else 17])
  | 6 => ([1], [15])
  | _ => ([1, 2, 4, 5], [16])

/-- KEY_REQUEST (R522 to R525): the answer goes to the engine over the private path. `bad` when the read of the slot finds
an uncorrectable error (R518). -/
def execKeyRequest (requester slot : Nat) (clear bad : Bool) (s : State) : Result :=
  let s := if bad && s.powered 10 then s.keyDamage slot else s
  let n := requesterNeeds requester clear
  let (a, s) := s.keyRequest requester slot n.1 n.2
  done (s.emit (.keyPath requester slot (a matches .key _)))

/-- The next slot in use from `n` on, wrapping to the lowest. -/
def State.slotInUse (s : State) (n : Nat) : Option Nat :=
  let used := (s.key.slots.filter fun k => k.1 != 0 && keyType k.2.attr != 0).map (·.1)
  match used.find? (fun k => n ≤ k) with
  | some k => some k
  | none => used.head?

/-- REMASK (R511): the next slot in use takes fresh shares; its generation and attributes stay. -/
def execRemask (bad : Bool) (s : State) : Result :=
  if s.powered 10 ∧ s.fld F.KEY_CFG_remask_s ≠ 0 then
    match s.slotInUse s.key.remaskNext with
    | none => done s
    | some n =>
      let s := s.modKey fun k => { k with remaskNext := n + 1 }
      if bad then done (s.keyDamage n)
      else if (s.keySlot n).damaged then done s
      else done ((s.bump 15 7).drawn)
  else done s

/-- KEY_FENCE_DRAINED (R527). -/
def execKeyFenceDrained (s : State) : Result :=
  if s.powered 10 then done (s.raise F.KEY_FENCE_drained) else done s

/-- A write of KEY_CFG: remask_s, and the lock, which is a protected change (R533, R564). -/
def State.keyCfgWrite (s : State) (ini : Nat) (w : Word) : State :=
  let s := s.setFld F.KEY_CFG_remask_s (fieldOf F.KEY_CFG_remask_s w)
  if fieldOf F.KEY_CFG_lock w = 1 ∧ !s.flag F.KEY_CFG_lock then
    if s.auditRoom then (s.raise F.KEY_CFG_lock).audit 0x0102 ini [1] else s.auditWait
  else s

/-- KEY_LOCK (R533). -/
def execKeyLock (ini : Nat) (w : Word) (s : State) : Result :=
  if fieldOf F.KEY_CFG_lock w = 1 then done (s.setupAccess ini Reg.KEY_CFG true fun s => s.keyCfgWrite ini w)
  else done s

/-- RNG_HEALTH_FAIL (R532). -/
def execRngHealthFail (s : State) : Result :=
  if s.powered 10 then done (((s.lower F.KEY_STATUS_rng_ok).raise F.KEY_INT_STAT_rng_fail).bump 15 6) else done s

/-- RNG_RECOVERED (R532): 1,024 samples in a row have passed. -/
def execRngRecovered (s : State) : Result :=
  if s.powered 10 then done (s.raise F.KEY_STATUS_rng_ok) else done s

end Sys2Proof.Machine
end

