-- ==== Sys2Proof/Machine/Twin.lean ====
section
/-! DEFINITION. The twin link, ownership and mirroring as commands (R255 to R288). -/

namespace Sys2Proof.Machine

/-! ## The link (R255 to R260) -/

/-- A command that waits for the hand-off to end is answered. -/
def State.answerSwitch (s : State) (slot : Option Nat) (c : Cpl) : State :=
  match slot with
  | some n => (s.finish 0x80 n c).settle 0x80
  | none => s

/-- A SWITCH that was passed to the active ends (R281). -/
def State.endPass (s : State) (c : Cpl) : State :=
  let slot := s.twn.passSlot
  (s.modTwn fun t => { t with passSlot := none, passTaken := false }).answerSwitch slot c

/-- The link goes down: flagged and counted, what waits for it is dropped, and synchronisation is lost (R259). A SWITCH passed over it
is given up. -/
def State.linkLost (s : State) : State :=
  let s := ((s.lower F.TWN_STATUS_link_up).lower F.TWN_STATUS_auth_ok).modTwn fun t => { t with
    key := none, nonce := [], txSeq := 0, rxSeq := 0, peer := none, sentAt := none, deltas := [], queue := [], peerTags := [] }
  (((s.raise F.TWN_INT_STAT_link_down).bump 10 4).endPass { status := Status.timeout }).judgeSync

/-- TWIN_LINK_TIMEOUT (R259): no frame has been accepted for 50 µs. -/
def execTwinLinkTimeout (s : State) : Result := if s.flag F.TWN_STATUS_link_up then done s.linkLost else done s

/-- HELLO (R256, R258): untagged, the first frame of its direction. Without its nonce, while rng_ok is 0, none is sent (R532). -/
def State.sendHello (s : State) : State :=
  let s := s.modTwn fun t => { t with nonce := [], txSeq := 0, rxSeq := 0, key := none }
  if !s.flag F.KEY_STATUS_rng_ok then s
  else
    let (nonce, s) := s.random 16
    let s := s.modTwn fun t => { t with nonce := nonce }
    s.linkQueue { level := 1, work := .frame 1 (nonce ++ natLE 2 0x4810 ++ natLE 1 (b2n s.slotB) ++ natLE 1 s.role ++ natLE 8 s.digest) }

/-- TWIN_LINK_TRAINED (R256, R259): training ends, of a link that is down by then; a failure leaves it down. -/
def execTwinLinkTrained (ok : Bool) (s : State) : Result :=
  if !s.powered 25 then done s
  else
    let s := if s.flag F.TWN_STATUS_link_up then s.linkLost else s
    if ok then done s.sendHello else done s

/-- The twin has registered a class with the tag (R273). -/
def State.peerHas (s : State) (tag : Nat) : Bool := s.twn.peerTags.any fun x => x.2 == tag

/-- A standby that gains the link with an active awaits join copies of classes 3, 4 and every class that both have registered
(R276). -/
def State.join (s : State) : State :=
  s.modTwn fun t => { t with joining := [3, 4] ++ (t.classes.filter fun c => s.peerHas c.tag).map (·.cls) }

/-- A registered class, by its tag. -/
def State.classOf (s : State) (tag : Nat) : Option TwinClass := s.twn.classes.find? fun c => c.tag == tag

/-- The region here for the twin's class `cls`. -/
def State.regionOf (s : State) (cls : Nat) : Option TwinClass :=
  (s.twn.peerTags.find? fun x => x.1 == cls).bind fun x => s.classOf x.2

/-- The active sends join copies of classes 3 and 4, and of every class that both have registered (R273, R276). -/
def State.sendJoin (s : State) : State :=
  let s := (s.linkCopy 6 3 (.age none 0)).linkCopy 6 4 (.deadMap 0)
  (s.twn.classes.filter fun c => s.peerHas c.tag).foldl (fun s c => s.linkCopy 6 c.cls (.region c.cls 0)) s

/-- The twin is told of a class: that it has been registered or, with no tag, freed (1), or that it was before the link came up (5)
(R273; assumption 98). -/
def State.tellClass (s : State) (kind cls : Nat) (tag : Option Nat) : State :=
  s.mirrorSend cls aboutClass (natLE 1 kind ++ (match tag with | some t => natLE 2 t | none => []))

/-- What a module tells its twin once the session is open: its classes, and on the active its ports (R272, R273). -/
def State.tellSession (s : State) : State :=
  let s := s.twn.classes.foldl (fun s c => s.tellClass 5 c.cls (some c.tag)) s
  if s.isActive then ((List.range 64).filter fun p => (s.chainOf p).isSome).foldl State.mirrorPort s else s

/-- The twin takes a role: a standby that meets an active awaits join copies, and an active that meets a standby sends them (R276). -/
def State.meetRole (s : State) (was now : Nat) : State :=
  if was = now then s
  else if s.isStandby ∧ now = 2 then s.join
  else if s.isActive ∧ now = 3 then s.sendJoin
  else s

/-- The peer's part of a session: its role and digest (R258). -/
def State.meetPeer (s : State) (b : List Byte) : State :=
  let s := (s.setReg Reg.TWN_PEER_DIGEST_LO (BitVec.ofNat 32 (le b 20 4))).setReg Reg.TWN_PEER_DIGEST_HI (BitVec.ofNat 32 (le b 24 4))
  ((s.modTwn fun t => { t with peer := some { role := byteAt b 19 } }).tellSession).meetRole 0 (byteAt b 19)

/-- The session key (R256). -/
def State.sessionKey (s : State) (pair theirs : List Byte) : List Byte :=
  let salt := if s.slotB then theirs ++ s.twn.nonce else s.twn.nonce ++ theirs
  Crypto.hkdf pair salt (ascii "CSG-4810 twin link") 32

/-- HELLO (R256, R257): the session key is derived, once a session; a HELLO in an open session is a frame without a tag. A pair key that
is refused leaves the link down. -/
def execHello (f : List Byte) (s : State) : Result :=
  let b := linkPayload f
  if !s.powered 25 || byteAt f 0 != 1 || b.length != 28 || s.twn.nonce.isEmpty then done s
  else if s.twn.key.isSome then done (s.linkAccept 1 f).2
  else
    match s.keyRequest 2 (s.fld F.TWN_CFG_key_slot) [1] [10] with
    | (.key k, s) =>
      let s := s.modTwn fun t => { t with key := some (s.sessionKey k (b.take 16)), rxSeq := le f 4 8 }
      let s := ((s.raise F.TWN_STATUS_link_up).raise F.TWN_STATUS_auth_ok).bump 10 14
      done (s.meetPeer b).judgeSync
    | (_, s) => done ((s.raise F.TWN_INT_STAT_auth_fail).bump 10 5)

/-- A received frame of type `type` that is accepted is acted on by `k`, which is given its payload. -/
def State.onFrame (s : State) (type : Nat) (f : List Byte) (k : List Byte → State → State) : State :=
  match s.linkAccept type f with
  | (some b, s) => k b s
  | (none, s) => s

/-- What a HEARTBEAT says is noted (R258). The claim itself is read from its lines alone (R261). -/
def State.heartbeat (s : State) (b : List Byte) : State :=
  let was := (s.twn.peer.getD {}).role
  let p : TwinPeer := { role := byteAt b 0, health := byteAt b 1, servo := byteAt b 2, domain := byteAt b 3, syncWhy := le b 4 2
                        claim := byteAt b 6, shown := le b 8 8 }
  let s := s.modTwn fun t => { t with peer := some p }
  (s.meetRole was p.role).judgeSync

/-- HEARTBEAT (R258). `lines` is what the peer claim lines show as it comes: the table has no row of its own for a claim that is seen
asserted, and the module notes it here (R261; assumption 101). -/
def execHeartbeat (f : List Byte) (lines : Nat) (s : State) : Result :=
  let s := if lines = 1 ∧ s.powered 25 then s.seePeerClaim 1 else s
  done (s.onFrame 2 f fun b s => s.heartbeat b)

/-- HEARTBEAT_SEND (R258, R259). -/
def execHeartbeatSend (s : State) : Result :=
  done (s.linkSend 2 (natLE 1 s.role ++ natLE 1 s.healthWhy ++ natLE 1 (s.fld F.TMK_STATUS_servo_state) ++
    natLE 1 (s.fld F.TMK_PTP_CFG_domain) ++ natLE 2 s.syncWhy ++ natLE 1 (s.fld F.TWN_STATUS_own_claim) ++ [0] ++
    natLE 8 (s.anv.shownK.getD 0)))

/-- A stamp at a lane pad has a resolution of 2^−6 ns (R260). -/
def padStamp (t : Nat) : Nat := t / 1024 * 1024

/-- TIMECMP_SEND (R260): a request of the standby. -/
def execTimecmpSend (s : State) : Result :=
  if s.isStandby && s.linkUp then done (s.linkQueue { level := 1, work := .timecmp }) else done s

/-- An exchange is complete: δ is filtered over the last sixteen (R260); how is not in the spec. -/
def State.newDelta (s : State) (t1 t2 t3 t4 : Nat) : State :=
  let d := (s.wallDiff t4 t3 - s.wallDiff t2 t1) / 1024
  let l := (d :: s.twn.deltas).take 16
  let s := ((s.modTwn fun t => { t with deltas := l, sentAt := none }).setReg Reg.TWN_DELTA (Config.twinDelta l)).judgeSync
  if s.flag F.TWN_STATUS_synced then s.extreme 15 (s.sfld F.TWN_DELTA_delta).natAbs 0 else s

/-- TIMECMP (R260): the active answers a request, and on the standby a response completes the exchange. `stamp` is its arrival at this module's pads,
`far` the active's send stamp of the response. -/
def execTimecmp (f : List Byte) (stamp far : Nat) (s : State) : Result :=
  done (s.onFrame 3 f fun b s =>
    if byteAt b 0 = 0 then if !s.isActive then s else s.linkSend 3 (natLE 8 1 ++ sliceB b 8 8 ++ natLE 8 (shortForm (padStamp stamp)))
    else match s.isStandby, s.twn.sentAt, s.fromShort (le b 16 8) with
      | true, some t1, some t2 => s.newDelta t1 t2 (padStamp far) (padStamp stamp)
      | _, _, _ => s)

/-! ## Decisions (R271) -/

/-- A class is brought up to date: it is no longer stale, nor joining. -/
def State.freshClass (s : State) (c : Nat) : State :=
  (s.setFld ⟨Reg.TWN_CLASS_STALE, c, 1⟩ 0).modTwn fun t => { t with joining := t.joining.filter (· != c) }

/-- A decision of the active reaches the standby. -/
def State.takeDecision (s : State) (k code : Nat) : State :=
  let s := (s.modTwn fun t => { t with decisions := (k, code) :: t.decisions }).freshClass 0 |>.judgeSync
  match s.decision k, s.grid with
  | some own, _ => if code = 0 ∧ own ≠ 0 then s.bump 10 8 else s
  | none, some g => if code = 0 then s.admitIfComplete g k else s.decide g k code
  | none, none => s

/-- DECISION (R271). -/
def execDecision (f : List Byte) (s : State) : Result :=
  done (s.onFrame 4 f fun b s => if s.isStandby then s.takeDecision (le b 0 8) (byteAt b 8) else s)

/-- The standby's own state at D(k) decides (R271). -/
def State.ownCode (s : State) (g : Grid) (k : Nat) : Nat :=
  match s.twn.atDeadline.find? fun x => x.1 == k with
  | some x => x.2
  | none => if s.frameComplete g k then 0 else s.deadlineCode g k

/-- STANDBY_DECISION_TIMEOUT (R271): D(k) + 10 µs passes. -/
def execStandbyDecisionTimeout (k : Nat) (s : State) : Result :=
  match s.grid with
  | none => done s
  | some g =>
    let s := s.reach (g.wallUp (g.dNum k) + 10000 * ns)
    if !s.isStandby || (s.decision k).isSome || !s.anyStarted || s.passedOver g k then done s
    else if s.peerDecision k = some 0 then
      done (((s.decide g k (s.ownCode g k)).bump 10 8).raise F.TWN_INT_STAT_diverged)
    else done ((s.decide g k (s.ownCode g k)).bump 10 9)

/-! ## Mirrored classes (R272 to R277) -/

/-- A class is stale (R272). -/
def State.staleClass (s : State) (c : Nat) : State :=
  ((s.setFld ⟨Reg.TWN_CLASS_STALE, c, 1⟩ 1).raise F.TWN_INT_STAT_class_stale).judgeSync

/-- CLASS_STALE (R272): a class exceeds its bound on a standby. -/
def execClassStale (cls : Nat) (s : State) : Result :=
  if s.isStandby ∧ cls < 16 then done (s.staleClass cls) else done s

/-- Class 1: a brightness; one that comes after its k0 has begun grading applies from the next frame (R272). -/
def State.mirrorBright (s : State) (b1 r k0 : Nat) : State :=
  if s.anv.begun.contains k0 then
    (s.setBright b1 r s.anv.nextGrade).modTwn (fun t => { t with staleTill := some (k0 + r) }) |>.staleClass 1
  else s.setBright b1 r k0

/-- A port in RUN here takes the delays that the active has measured (R269). -/
def State.followPort (s : State) (p : Nat) (t : TwinPort) : State :=
  if s.portLive p then
    let s := s.setReg (Reg.SCN_PORT_RTT p) (BitVec.ofNat 32 t.rt0)
    let s := s.modPort p fun r => { r with dks := t.dks, offsets := t.offsets }
    (s.modPort p fun r => { r with delay := r.cable t.rt0 }).setFld (F.SCN_PORT_SPAN_span p) (trimWord (t.offsets.getLast?.getD 0))
  else s

/-- A DK-16 and its offset from a class 2 record; REV and T_BLANK_MIN are not mirrored. -/
def recordDk (b : List Byte) : DkId × Int := (⟨le b 0 2, 0, le b 2 2, le b 4 2, signed 16 (le b 6 2), 0⟩, signed 32 (le b 8 4))

/-- What class 2 holds of a port once `data` has come at `off` of it: the head first, then records. -/
def portMirrored (t : TwinPort) (off : Nat) (data : List Byte) : TwinPort :=
  let head := off = 0
  let t : TwinPort := if head then
      { state := byteAt data 0, qsHost := byteAt data 1 == 1, found := le data 2 2, rt0 := le data 4 4, dks := [], offsets := [] }
    else t
  let records := if head then data.drop 24 else data
  let new := (List.range (records.length / 12)).map fun i => recordDk (sliceB records (12 * i) 12)
  let at_ := (off - 24) / 12
  { t with dks := t.dks.take at_ ++ new.map (·.1), offsets := t.offsets.take at_ ++ new.map (·.2) }

/-- Class 2: a port as it is on the active. -/
def State.mirrorIn (s : State) (off : Nat) (data : List Byte) : State :=
  let p := off / 0x2000
  if 64 ≤ p then s
  else
    let old := ((s.twn.ports.find? fun x => x.1 == p).map (·.2)).getD { state := 0, found := 0, dks := [], rt0 := 0, offsets := [], qsHost := false }
    let t := portMirrored old (off % 0x2000) data
    let s := s.modTwn fun w => { w with ports := Sparse.put w.ports p t }
    let s := if t.qsHost then s.assertSrc p 4 else s.clearSrc p 4
    ((s.followPort p t).freshClass 2).judgeSync

/-- Class 3: a pixel is written by the standby's own slice, with the last period that it includes (R272, R276). -/
def State.mirrorPixel (t : TemperSet) (s : State) (b : List Byte) : State :=
  let n := le b 0 4
  let s := (s.writeMem (sliceOf n) (t.int + 12 * n) (sliceB b 4 12)).2
  let s := (s.writeMem (sliceOf n) (t.age + 4 * n) (sliceB b 16 4)).2
  s.modTwn fun w => { w with copied := (n, le b 20 8) :: w.copied.filter fun x => x.1 != n }

/-- Class 3: a frame's worth of pixels. -/
def State.mirrorAge (s : State) (data : List Byte) : State :=
  match s.anv.temper with
  | none => s
  | some t => (List.range (data.length / 28)).foldl (fun s i => State.mirrorPixel t s (sliceB data (28 * i) 28)) s

/-- A class 3 copy is complete: a join copy, or of period `k`'s update set (R272, R276). -/
def State.ageCopied (s : State) (join : Bool) (k : Nat) : State :=
  let s := if !join && s.twn.recopy.contains k then s.bump 10 10 else s
  let s := s.modTwn fun w => { w with recopy := if join then [] else w.recopy.filter (· != k) }
  if join || (s.twn.recopy.isEmpty && !s.twn.joining.contains 3) then (s.freshClass 3).judgeSync else s

/-- The CRC-64 of the whole dead map (R272). -/
def State.deadCrc (s : State) : Nat := crc64 (s.mem.bytes 0x102E80000 0x180000)

/-- Class 4: bytes of the dead map; the last of them end the copy. -/
def State.mirrorMap (s : State) (off : Nat) (data : List Byte) : State :=
  let s := if off + data.length ≤ 0x180000 then (s.writeMem 12 (0x102E80000 + off) data).2 else s
  if off + data.length = 0x180000 then ((s.freshClass 4).modTwn fun w => { w with recopyDead := false }).judgeSync else s

/-- Class 4: a DEAD_SET or DEAD_CLEAR of the active (R272). -/
def State.mirrorDead (s : State) (b : List Byte) : State :=
  let s := (s.deadBits (byteAt b 0 == 1) (byteAt b 1) (bits (byteAt b 2) 0 3) (le b 3 4) (le b 7 4)).2
  if s.twn.recopyDead || s.twn.joining.contains 4 then s else (s.freshClass 4).judgeSync

/-- Bytes of a registered class go to the region of the same tag; after a copy is complete its generation count is written (R273,
R274). -/
def State.mirrorRegion (s : State) (c : TwinClass) (off : Nat) (data : List Byte) : State :=
  let s := if off + data.length ≤ c.size then (s.writeMem 14 (c.base + off) data).2 else s
  if off + data.length = c.size then
    let s := (s.writeMem 14 (c.base + c.size - 8) (natLE 8 (c.gen + 1))).2
    let s := s.modTwn fun t => { t with classes := t.classes.map fun x => if x.cls = c.cls then { x with gen := x.gen + 1 } else x }
    ((s.freshClass c.cls).bump 10 11).judgeSync
  else s

/-- The standby asks for a copy of a class (assumption 98). -/
def State.askCopy (s : State) (cls : Nat) : State := s.mirrorSend cls aboutClass (natLE 1 0)

/-- The active sends a copy that the standby has asked for (R276). -/
def State.sendCopy (s : State) (cls : Nat) : State :=
  match cls with
  | 3 => s.linkCopy 6 3 (.age none 0)
  | 4 => s.linkCopy 6 4 (.deadMap 0)
  | _ => match (s.regionOf cls) with
    | some c => s.linkCopy 6 c.cls (.region c.cls 0)
    | none => s

/-- The dead map's CRC-64 at the twin. The standby returns its own where it differs, and the active then copies the map (R272;
assumption 98). -/
def State.deadCrcSeen (s : State) (crc : Nat) : State :=
  if crc = s.deadCrc then s
  else if s.isActive then s.linkCopy 3 4 (.deadMap 0)
  else (s.modTwn fun w => { w with recopyDead := true }).mirrorSend 4 aboutClass (natLE 1 3 ++ natLE 8 s.deadCrc)

/-- The twin has registered class `cls` under `tag`, or freed it. What both had registered before the link came up is part of the join
copies (R276). -/
def State.classTold (s : State) (joins : Bool) (cls : Nat) (tag : Option Nat) : State :=
  let s := s.modTwn fun w => { w with peerTags := (tag.toList.map fun t => (cls, t)) ++ w.peerTags.filter fun x => x.1 != cls }
  match joins, s.regionOf cls with
  | true, some c =>
    if s.isStandby then (s.modTwn fun w => { w with joining := c.cls :: w.joining.filter (· != c.cls) }).judgeSync
    else if s.isActive then s.linkCopy 6 c.cls (.region c.cls 0)
    else s
  | _, _ => s

/-- A MIRROR frame that speaks of class `cls` (assumption 98). -/
def State.mirrorAbout (s : State) (cls : Nat) (data : List Byte) : State :=
  let b := data.drop 1
  match byteAt data 0 with
  | 0 => if s.isActive then s.sendCopy cls else s
  | 1 => s.classTold false cls (if b.isEmpty then none else some (le b 0 2))
  | 2 => if s.isStandby then s.ageCopied (byteAt b 0 == 1) (le b 1 8) else s
  | 3 => s.deadCrcSeen (le b 0 8)
  | 4 => if s.isStandby then s.mirrorDead b else s
  | 5 => s.classTold true cls (some (le b 0 2))
  | _ => s

/-- What a MIRROR frame brings is written on the standby. -/
def State.mirrored (s : State) (cls off : Nat) (data : List Byte) : State :=
  if off = aboutClass then s.mirrorAbout cls data
  else if !s.isStandby then s
  else match cls with
    | 1 => s.mirrorBright (le data 0 4) (le data 4 4) (le data 8 8)
    | 2 => s.mirrorIn off data
    | 3 => s.mirrorAge data
    | 4 => s.mirrorMap off data
    | _ => match s.regionOf cls with
      | some c => s.mirrorRegion c off data
      | none => s

/-- MIRROR (R258, R272). -/
def execMirror (f : List Byte) (s : State) : Result :=
  done (s.onFrame 5 f fun b s => s.mirrored (byteAt b 0) (le b 4 4) (b.drop 8))

/-- DIGEST (R272): the standby returns its own digest of an update set that differs, and the active copies the set again (assumption
98). -/
def execDigest (f : List Byte) (s : State) : Result :=
  done (s.onFrame 8 f fun b s =>
    match s.twn.ageCrc.find? fun x => x.1 == le b 0 8 with
    | some x =>
      if x.2 = le b 8 8 then s
      else if s.isStandby then
        (s.modTwn fun t => { t with recopy := x.1 :: t.recopy.filter (· != x.1) }).linkSend 8 (natLE 8 x.1 ++ natLE 8 x.2)
      else if s.isActive then s.linkCopy 4 3 (.age (some x.1) 0)
      else s
    | none => s)

/-- CLASS_COPY (R273, R274): the active copies a registered class whole, if the standby has registered the same tag. -/
def execClassCopy (cls : Nat) (s : State) : Result :=
  match s.twn.classes.find? fun c => c.cls == cls with
  | some c => if s.isActive && s.peerHas c.tag then done (s.linkCopy 5 cls (.region cls 0)) else done s
  | none => done s

/-- DEAD_MAP_CRC_SEND (R272). -/
def execDeadMapCrcSend (s : State) : Result := done (s.mirror 4 aboutClass (natLE 1 3 ++ natLE 8 s.deadCrc))

/-! ## Ownership (R261 to R266, R278 to R280) -/

/-- The module becomes the owner: it drives, TWN_DELTA is 0 on an active, and R280's record of the change is made. -/
def State.becomeActive (s : State) (at_ : Nat) : State :=
  let s := (s.setClaim true).modTwn fun t => { t with drive := true, handIn := none, takeover := none, watching := false, deltas := [] }
  ((s.setReg Reg.TWN_DELTA 0).setRole 2).lastChange at_

/-- The first moment at which the SUBF set of subframe (k, j) begins at DK-16 0 of a port in RUN, and the last. -/
def State.setBegins (s : State) (k j : Nat) : Nat × Nat :=
  let ts := s.runPorts.filterMap fun p => match s.grid, s.chainOf p with
    | some g, some c => some (s.subfBegin p g c k j)
    | _, _ => none
  match ts with
  | [] => (s.boundaryTime k j, s.boundaryTime k j)
  | t :: ts => (ts.foldl min t, ts.foldl max t)

/-- The new owner's lanes: cells from the SUBF set at the boundary on, and requests from `from_` of the port on (R279, R280, R282). -/
def State.takeLanes (s : State) (k j : Nat) (from_ : Nat → Nat) : State :=
  match s.grid with
  | none => s
  | some g => s.runPorts.foldl (fun s p => match s.chainOf p with
      | some c =>
        let b := s.subfBegin p g c k j
        s.modPort p fun r => { r with reqFrom := from_ b, sdt := { r.sdt with ends := max r.sdt.ends (b / 1024) } }
      | none => s) s

/-- A standby, healthy and allowed to, chooses its takeover boundary: 1 µs after detection and 2 µs of IDLE (R278). -/
def State.chooseTakeover (s : State) : State := s.modTwn fun t => { t with takeover := some (s.boundaryOr (s.wall + 3000 * ns)) }

/-- The peer claim has been released before the moment that an accepted HANDOFF names (R264). -/
def State.releasedEarly (s : State) : Bool :=
  s.role == 4 && s.twn.handIn.any fun h => s.later (s.setBegins h.k h.j).1 s.wall

/-- PEER_CLAIM_RELEASED (R264, R266, R278, R284, R285): a release that an accepted HANDOFF announced for that moment is no failure. -/
def execPeerClaimReleased (s : State) : Result :=
  if !s.powered 25 then done s
  else
    let synced := s.flag F.TWN_STATUS_synced
    let early := s.releasedEarly
    let s := s.seePeerClaim 0
    let s := if early then (s.modTwn fun t => { t with handIn := none }).setRole 3 else s
    if s.role = 3 ∧ !s.twn.watching ∧ s.twn.takeover.isNone then
      let s := s.modTwn fun t => { t with lostSynced := synced }
      if s.healthy && (synced || s.flag F.TWN_CFG_takeover_unsync) then done s.chooseTakeover else done s
    else done s

/-- CLAIM_FAULT (R261): the peer claim lines have disagreed for 1 µs. -/
def execClaimFault (s : State) : Result := if s.powered 25 then done (s.seePeerClaim 2) else done s

/-- CLAIM_KEEPER_EXPIRY (R262): 4 µs without a refresh. -/
def execClaimKeeperExpiry (s : State) : Result :=
  let active := s.isActive
  let s := s.dropClaim.dropHandoff.modTwn fun t => { t with keeperOut := true, takeover := none }
  if active then done (s.setRole 3) else done s

/-- HEALTH_LOST (R263): a condition has failed; an active module lets go. -/
def execHealthLost (s : State) : Result := done s.judgeHealth

/-- HOST_WATCHDOG_EXPIRY (R263). -/
def execHostWatchdogExpiry (s : State) : Result :=
  if s.fld F.TWN_CFG_wdog_ms = 0 then done s
  else done (s.modTwn fun t => { t with wdogOut := true }).judgeHealth

/-- WATCHDOG_KICK (R263). -/
def State.kick (s : State) (w : Word) : State :=
  if fieldOf F.TWN_WDOG_kick w = 1 then (s.modTwn fun t => { t with wdogOut := false }).judgeHealth else s

def execWatchdogKick (ini : Nat) (w : Word) (s : State) : Result :=
  done (s.setupAccess ini Reg.TWN_WDOG true fun s => s.kick w)

/-- ELECTION_WAIT_EXPIRY (R265): steps 1 and 2, with what the peer claim lines then show. -/
def execElectionWaitExpiry (peer : Nat) (s : State) : Result :=
  if s.role = 1 ∧ s.healthy ∧ s.powered 25 then
    let s := s.seePeerClaim peer
    if peer = 0 then done (s.setClaim true) else done (s.setRole 3)
  else done s

/-- ELECTION_SETTLE (R265): steps 3 and 4. -/
def execElectionSettle (peer : Nat) (s : State) : Result :=
  if (s.role = 1 ∨ s.role = 3) ∧ s.flag F.TWN_STATUS_own_claim ∧ !s.twn.drive ∧ s.healthy then
    let s := s.seePeerClaim peer
    if peer ≠ 0 ∧ s.slotB then done ((s.setClaim false).setRole 3) else done (s.becomeActive s.wall)
  else done s

/-- TIMED_CLAIM (R266): no claim has been asserted for 100 µs in slot A, 200 µs in slot B. -/
def execTimedClaim (peer : Nat) (s : State) : Result :=
  let may := s.role = 1 ∨ (s.role = 3 ∧ (s.twn.lostSynced ∨ s.flag F.TWN_CFG_takeover_unsync))
  if may ∧ s.powered 25 ∧ s.healthy ∧ peer = 0 ∧ !s.flag F.TWN_STATUS_own_claim ∧ s.twn.takeover.isNone then
    done ((s.seePeerClaim 0).setClaim true)
  else done s

/-- TAKEOVER_DRIVE (R278 to R280): 2 µs before the first SUBF set of the takeover boundary, with what the peer claim lines then show. A
standby that is no longer healthy, or whose twin claims again, does not take over (R266). -/
def execTakeoverDrive (peer : Nat) (s : State) : Result :=
  match s.twn.takeover with
  | none => done s
  | some (k, j) =>
    let s := s.seePeerClaim peer
    if !s.healthy ∨ peer ≠ 0 then done (s.modTwn fun t => { t with takeover := none })
    else
      let e := s.boundaryTime k j
      let s := s.reach ((s.setBegins k j).1 - 2000 * ns)
      let s := (((s.becomeActive e).takeLanes k j fun _ => e + 2000 * ns).bump 10 0).life 27
      let s := s.modTwn fun t => { t with firstShow := some (if j = 0 then k else k + 1) }
      done ((s.ownershipEvent 0).endPass okCpl)

/-! ## Hand-off (R281 to R286) -/

/-- SWITCH (R281). On a standby it is passed to the active: as a HANDOFF frame whose header says that it is not from the active
(assumption 98). -/
def execSwitch (s : State) : Result :=
  done (s.takeCommand 0x80 0x01 fun slot _ s =>
    if s.twn.handOut.isSome || s.twn.handIn.isSome || s.twn.takeover.isSome || s.twn.passSlot.isSome then
      (some { status := Status.busy }, s)
    else if s.isActive then
      if s.peerSynced then (none, s.startHandoff (some slot) false false) else (some { status := Status.refused }, s)
    else if s.isStandby then
      if s.flag F.TWN_STATUS_synced then
        (none, (s.modTwn fun t => { t with passSlot := some slot, passTaken := false }).linkSend 6 (zeros 10))
      else (some { status := Status.refused }, s)
    else (some refusedState, s))

/-- A HANDOFF of the active: the standby answers, and on ACK 0 awaits the boundary. A SWITCH of its own that crosses it on the link
completes busy (R281, R282, R285). -/
def State.handoffTaken (s : State) (b : List Byte) : State :=
  let s := if s.twn.passSlot.isSome && !s.twn.passTaken then s.endPass { status := Status.busy } else s
  if s.role ≠ 3 ∨ s.twn.takeover.isSome then (s.linkSend 7 [2]).endPass { status := Status.busy }
  else if !s.flag F.TWN_STATUS_synced then (s.linkSend 7 [1]).endPass { status := Status.refused }
  else ((s.linkSend 7 [0]).modTwn fun t => { t with handIn := some { k := le b 0 8, j := le b 8 2 } }).setRole 4

/-- A SWITCH that the standby passes on: the active answers whether it has taken it, and starts the hand-off. To one that crosses its own
HANDOFF it says nothing (R281, R285; assumption 98). -/
def State.switchPassed (s : State) : State :=
  if !s.isActive || s.twn.handOut.isSome then s
  else if s.twn.takeover.isSome then s.linkSend 7 [2]
  else if !s.peerSynced then s.linkSend 7 [1]
  else (s.linkSend 7 [0]).startHandoff none false true

/-- HANDOFF (R281, R282, R285). -/
def execHandoff (f : List Byte) (s : State) : Result :=
  done (s.onFrame 6 f fun b s => if (byteAt f 1).testBit 0 then s.handoffTaken b else s.switchPassed)

/-- The hand-off out of this module is given up. -/
def State.abandonHandoff (s : State) (c : Cpl) : State :=
  match s.twn.handOut with
  | some h => ((s.modTwn fun t => { t with handOut := none }).setRole 2).answerSwitch h.slot c
  | none => s

/-- An ACK of the active, which speaks of a SWITCH that this standby passed to it, or withdraws a HANDOFF that it has accepted
(R281; assumption 98). -/
def State.passAnswered (s : State) (result : Nat) : State :=
  let s := if result = 2 ∧ s.twn.handIn.isSome then (s.modTwn fun t => { t with handIn := none }).setRole 3 else s
  match result with
  | 0 => s.modTwn fun t => { t with passTaken := t.passSlot.isSome }
  | 1 => s.endPass { status := Status.refused }
  | _ => s.endPass { status := if s.twn.passTaken then Status.timeout else Status.busy }

/-- ACK (R281, R282). -/
def execAck (f : List Byte) (s : State) : Result :=
  done (s.onFrame 7 f fun b s =>
    match s.twn.handOut with
    | some h =>
      if h.acked then s
      else if byteAt b 0 = 0 then (s.modTwn fun t => { t with handOut := some { h with acked := true } }).setRole 4
      else s.abandonHandoff { status := if byteAt b 0 = 1 then Status.refused else Status.busy }
    | none => if s.isStandby then s.passAnswered (byteAt b 0) else s)

/-- HANDOFF_ACK_TIMEOUT (R282): no ACK within 20 µs. The twin is told, in case its ACK was lost (assumption 98). -/
def execHandoffAckTimeout (s : State) : Result :=
  match s.twn.handOut with
  | some h => if h.acked then done s else done ((s.linkSend 7 [2]).abandonHandoff { status := Status.timeout })
  | none => done s

/-- The former active lets go once both of its lanes have passed on, 100 ns after the last S_p (R282); under a power-fail warning
condition 4 of R263 fails with it (R360). -/
def State.handAway (s : State) (h : Handoff) : State :=
  let s := (s.reach ((s.setBegins h.k h.j).2 + 100 * ns)).dropClaim
  let failing := s.flag F.BLW_STATUS_pf_warn
  let s := s.modTwn fun t => { t with handOut := none, watching := true, pfFail := t.pfFail || failing }
  let s := (s.setRole 3).judgeHealth.lastChange (s.boundaryTime h.k h.j)
  (((s.bump 10 2).life 29).ownershipEvent 1).answerSwitch h.slot okCpl

/-- The standby takes ownership over, from 100 ns before the first S_p on; its cells begin at S_p, its requests 2 µs after (R282). One
that is not healthy then does not (R264). -/
def State.takeHand (s : State) (h : Handoff) : State :=
  let s := s.reach ((s.setBegins h.k h.j).1 - 100 * ns)
  if !s.healthy then ((s.modTwn fun t => { t with handIn := none }).setRole 3).endPass { status := Status.refused }
  else
    let s := ((s.becomeActive (s.boundaryTime h.k h.j)).takeLanes h.k h.j fun b => b + 2000 * ns).bump 10 1
    ((s.life 28).ownershipEvent 1).endPass okCpl

/-- HANDOFF_BOUNDARY (R282): the agreed S_p, with what the peer claim lines then show. -/
def execHandoffBoundary (peer : Nat) (s : State) : Result :=
  match s.twn.handOut, s.twn.handIn with
  | some h, _ => if h.acked then done ((s.handAway h).seePeerClaim peer) else done s
  | none, some h => done ((s.takeHand h).seePeerClaim peer)
  | none, none => done s

/-- HANDOFF_ABORT (R284): the new owner has not claimed by 2 µs after the last S_p, and the former active takes over. -/
def execHandoffAbort (s : State) : Result :=
  if s.twn.watching then
    let s := ((s.modTwn fun t => { t with watching := false }).bump 10 3).raise F.TWN_INT_STAT_handoff_aborted
    let s := s.ownershipEvent 2
    if s.healthy then done s.chooseTakeover else done s
  else done s

/-! ## Commands (R273, R276, R287) -/

/-- The first bad field of a CLASS_REGISTER block. -/
def State.classBad (s : State) (b : List Byte) : Option Nat :=
  firstBad [((s.classOf (le b 0 2)).isNone, 0), (10 ≤ le b 4 4 && le b 4 4 ≤ 60000, 4),
    (le b 8 8 % 64 == 0 && le b 8 8 + le b 16 4 ≤ 0x100000000, 8),
    (64 ≤ le b 16 4 && le b 16 4 ≤ 1048576 && le b 16 4 % 64 == 0, 16)]

/-- The lowest free class from 5 to 15. -/
def State.freeClass (s : State) : Option Nat :=
  ((List.range 16).filter (5 ≤ ·)).find? fun c => !(s.regN Reg.TWN_CLASS_REG).testBit c

/-- A class is given to a region. -/
def State.addClass (s : State) (cls tag ms base size : Nat) : State :=
  let s := (s.setFld ⟨Reg.TWN_CLASS_REG, cls, 1⟩ 1).modTwn fun t => { t with
    classes := t.classes ++ [{ cls := cls, tag := tag, ms := ms, base := base, size := size }] }
  s.tellClass 1 cls (some tag)

/-- A class is freed, be it the radio's. -/
def State.dropClass (s : State) (cls : Nat) : State :=
  let s := s.modRad fun r => { r with mirror := r.mirror.filter (· != cls) }
  let s := ((s.freshClass cls).setFld ⟨Reg.TWN_CLASS_REG, cls, 1⟩ 0).modTwn fun t => { t with
    classes := t.classes.filter fun c => c.cls != cls }
  s.judgeSync.tellClass 1 cls none

/-- CLASS_REGISTER (R273, R287). -/
def execClassRegister (s : State) : Result :=
  done (s.takeCommand 0x80 0x02 fun _ desc s => s.withBlock 0x80 desc fun b s =>
    match s.classBad b with
    | some o => (some (badField o), s)
    | none =>
      match s.freeClass with
      | none => (some { status := Status.tableFull }, s)
      | some c => (some { status := Status.ok, w1 := c * 256 }, s.addClass c (le b 0 2) (le b 4 4) (le b 8 8) (le b 16 4)))

/-- CLASS_RELEASE (R287). -/
def execClassRelease (s : State) : Result :=
  done (s.takeCommand 0x80 0x03 fun _ desc s =>
    let c := byteAt desc 1
    if c < 5 ∨ 15 < c then (some (badField 0x81), s)
    else if (s.regN Reg.TWN_CLASS_REG).testBit c then (some okCpl, s.dropClass c)
    else (some { status := Status.notFound }, s))

/-- RESYNC (R276, R287): the standby asks the active for its join copies. -/
def execResync (s : State) : Result :=
  done (s.takeCommand 0x80 0x04 fun _ _ s =>
    if s.isStandby then
      let s := s.join
      (some okCpl, (s.twn.joining.foldl State.askCopy s).judgeSync)
    else (some refusedState, s))

end Sys2Proof.Machine
end

