-- ==== Sys2Proof/Machine/Wake.lean ====
section
/-! DEFINITION. The power states and what wakes the module (R350 to R358): which domains a state powers, the list of changes of
a transition, and the wake sources. -/

namespace Sys2Proof.Machine

/-- PDd is powered in state `st` (0 DARK, 1 IDLE, 2 READY, 3 LIT) under the BLW_OPT word `opt` (R350, R351). The radio's domain
is on in DARK and IDLE too, where the radio powers itself on its own schedule. -/
def domainIn (st opt d : Nat) : Bool :=
  if d ≤ 2 then true
  else if d = 4 ∨ d = 11 ∨ d = 26 then 1 ≤ st
  else if d = 3 then 2 ≤ st || (st == 1 && opt.testBit 0)
  else if d = 10 then 2 ≤ st || (st == 1 && opt.testBit 1)
  else if d = 27 then 2 ≤ st || (st == 1 && opt.testBit 2)
  else if 14 ≤ d ∧ d ≤ 21 then st == 3 && !opt.testBit (4 + (d - 14) % 4)
  else 2 ≤ st

/-- Domains in the order in which they are powered up: ascending, but PD26 before PD04 (R353). -/
def upOrder : List Nat := [0, 1, 2, 3, 26] ++ (List.range 30).filter fun d => 4 ≤ d && d != 26

/-- The changes that take the module to state `st`: domains to power up in order, then domains to power down in descending number
(R353; assumption 103). -/
def State.changesTo (s : State) (st opt : Nat) : List (Nat × Bool) :=
  ((upOrder.filter fun d => domainIn st opt d && !s.powered d).map fun d => (d, true)) ++
    (((List.range 30).reverse.filter fun d => !domainIn st opt d && s.powered d).map fun d => (d, false))

/-- A transition to state `st` begins (R352); only an accepted request of the host makes a write of BLW_OPT take effect (R351). -/
def State.beginTransition (s : State) (st : Nat) (byHost : Bool) : State :=
  let opt := if byHost then s.regN Reg.BLW_OPT else s.blw.opt
  let todo := s.changesTo st opt
  let s := s.modBlw fun b => { b with todo := todo, byHost := byHost, opt := opt }
  let s := (s.setFld F.BLW_STATUS_target st).raise F.BLW_STATUS_busy
  if byHost then (s.lower F.BLW_STATUS_req_refused).bump 11 5 else s

/-- The module leaves DARK for IDLE (R356). -/
def State.leaveDark (s : State) : State :=
  (((s.modBlw fun b => { b with hotOff := false }).raise F.BLW_WAKE_CAUSE_prev_dark).bump 11 3).beginTransition 1 false

/-- Wake source `n` fires (R356, R357): an enabled one is latched; in DARK it takes the module to IDLE, and during a descent to
DARK it does so when the descent has ended. -/
def State.wake (s : State) (n : Nat) : State :=
  if !s.powered 1 || !(s.regN Reg.BLW_WAKE_EN).testBit n then s
  else
    let s := s.setFld ⟨Reg.BLW_WAKE_CAUSE, n, 1⟩ 1
    if s.flag F.BLW_STATUS_busy then
      if s.fld F.BLW_STATUS_target = 0 then s.modBlw fun b => { b with wakeHeld := true } else s
    else if s.fld F.BLW_STATUS_state = 0 then s.leaveDark
    else s

end Sys2Proof.Machine
end

