-- ==== Sys2Proof/Machine/Cabinet.lean ====
section
/-! DEFINITION. The cabinet bus (R484 to R506) and Bellows' rail setpoint messages (R368, R499, R500). -/

namespace Sys2Proof.Machine

/-! ## Frames and flags -/

/-- The data bytes of a DLC (R484). -/
def dlcBytes (dlc : Nat) : Nat := if dlc ≤ 8 then dlc else nth [12, 16, 20, 24, 32, 48, 64] (dlc - 9) 64

/-- The rank of an identifier in arbitration, the lowest first: a base identifier stands ahead of an extended one with the same
11 leading bits (R494). -/
def canRank (f : CanFrame) : Nat :=
  if f.ext then 2 ^ 19 * (f.id / 2 ^ 18) + 2 ^ 18 + f.id % 2 ^ 18 else 2 ^ 19 * f.id

/-- Bit `b` of channel `n` in CAB_INT_STAT is set. -/
def State.cabRaise (s : State) (n b : Nat) : State := s.raise ⟨Reg.CAB_INT_STAT, 8 * n + b, 1⟩

/-- A write of a CAB register or a request of channel `n` is refused. -/
def State.cabRefused (s : State) (n : Nat) : State := s.cabRaise n 7

def State.canState (s : State) (n : Nat) : Nat := s.fld (F.CAB_STATUS_state n)

/-- Channel `n` takes part on the bus. -/
def State.canOnBus (s : State) (n : Nat) : Bool :=
  n < 2 && s.powered 24 && s.flag (F.CAB_CFG_enable n) && (s.canState n == 1 || s.canState n == 2)

/-- The module may send owner-only frames: its role is SINGLE or ACTIVE (R496). -/
def State.cabOwner (s : State) : Bool := s.fld F.TWN_STATUS_role == 0 || s.fld F.TWN_STATUS_role == 2

/-- A report entry of channel `n` (R505). -/
def State.canReport (s : State) (n kind obj w1 : Nat) (f : CanFrame) : State :=
  let w0 := kind * 2 ^ 8 + n * 2 ^ 12 + b2n f.fd * 2 ^ 13 + b2n f.brs * 2 ^ 14 + 2 ^ 16 * obj + 2 ^ 22 * f.dlc + 2 ^ 26 * b2n f.ext
  let e := natLE 4 w0 ++ natLE 4 w1 ++ natLE 8 (shortForm s.wall) ++ (f.data ++ zeros 64).take 64 ++ zeros 48
  match s.report Reg.CAB_RPT_BASE_LO 19 e with
  | (true, s) => (s.bump 14 12 n).cabRaise n 6
  | (false, s) => s

/-- A frame without content, for the reports that carry none. -/
def noFrame : CanFrame := { id := 0, ext := false, dlc := 0, data := [] }

/-- A report of an event of channel `n` that concerns no frame. -/
def State.canEvent (s : State) (n kind : Nat) : State := s.canReport n kind 0 0 noFrame

/-! ## The end of a send (R489, R495 to R497, R504) -/

/-- The completion of a send with its detail; a frame that was sent carries the time of its end. -/
def sendCpl (s : State) (detail : Nat) : Cpl :=
  let t := if detail = 0 then shortForm s.wall else 0
  { status := if detail = 0 then Status.ok else Status.refused, w1 := detail * 2 ^ 8, w2 := t % 2 ^ 32, w3 := t / 2 ^ 32 }

/-- A send has ended with `detail`: the TX_LOAD that awaits it completes; a periodic object reports a failure. -/
def State.sendEnds (s : State) (x : CanSend) (detail : Nat) : State :=
  let s := if detail = 0 ∨ 32 ≤ x.obj then s else s.cabRaise x.chan 0
  match x.slot with
  | some slot => (s.finish 0xB0 slot (sendCpl s detail)).settle 0xB0
  | none =>
    if detail = 0 ∨ 32 ≤ x.obj ∨ detail = 5 then s
    else s.canReport x.chan 5 x.obj (detail * 2 ^ 8) { x.frame with data := [] }

/-- The sends that satisfy `p` end with `detail`. -/
def State.endSends (s : State) (p : CanSend → Bool) (detail : Nat) : State :=
  let gone := s.cab.sends.filter p
  gone.foldl (fun s x => s.sendEnds x detail) (s.modCab fun c => { c with sends := c.sends.filter fun x => !p x })

/-! ## Arbitration (R493 to R496) -/

/-- `x` goes before `y`: the lower identifier, then the object that follows the last winner first. -/
def CanSend.before (won : Nat) (x y : CanSend) : Bool :=
  canRank x.frame < canRank y.frame || (canRank x.frame == canRank y.frame && (x.obj + 47 - won) % 48 < (y.obj + 47 - won) % 48)

/-- The pending send of channel `n` that enters arbitration first. -/
def State.firstSend (s : State) (n : Nat) : Option CanSend :=
  (s.cab.sends.filter fun x => x.chan == n).foldl (fun best x =>
    match best with
    | none => some x
    | some y => if CanSend.before (nth s.cab.lastWon n 47) x y then some x else some y) none

def State.cabObj (s : State) (n o : Nat) : Option CabObj := (s.cab.objs.find? fun p => p.1 == 32 * n + o).map (·.2)
def State.setObj (s : State) (n o : Nat) (x : CabObj) : State :=
  s.modCab fun c => { c with objs := Sparse.put c.objs (32 * n + o) x }

/-- The frame that an object holds at this moment. -/
def CabObj.frame (x : CabObj) : CanFrame :=
  { id := x.id, ext := x.ext, fd := x.fd, brs := x.brs, dlc := x.dlc, data := (x.data ++ zeros 64).take (dlcBytes x.dlc) }

/-- The content with which a send enters arbitration: that of its object at this moment (R493). -/
def State.sendNow (s : State) (x : CanSend) : CanSend :=
  match s.cabObj x.chan x.obj with
  | some o => if x.obj < 32 then { x with frame := o.frame, onBus := true } else { x with onBus := true }
  | none => { x with onBus := true }

/-- The first occurrence of `x` is replaced. -/
def replaceSend (x y : CanSend) : List CanSend → List CanSend
  | [] => []
  | z :: l => if z = x then y :: l else z :: replaceSend x y l

/-- With no frame of channel `n` in arbitration or on the bus, the first pending one enters arbitration. -/
def State.arbitrate (s : State) (n : Nat) : State :=
  let s := if s.cabOwner then s else s.endSends (fun x => x.chan == n && x.ownerOnly && !x.onBus) 5
  if !s.canOnBus n || s.fld (F.CAB_CFG_mode n) == 1 || s.cab.sends.any (fun x => x.chan == n && x.onBus) then s
  else match s.firstSend n with
    | some x => s.modCab fun c => { c with sends := replaceSend x (s.sendNow x) c.sends, lastWon := c.lastWon.set n x.obj }
    | none => s

/-- A send becomes pending. -/
def State.queueSend (s : State) (x : CanSend) : State :=
  (s.modCab fun c => { c with sends := c.sends ++ [x] }).arbitrate x.chan

/-! ## Sleep (R501 to R503) -/

/-- The wake configuration of channel `n` as its registers hold it. -/
def State.xcvr (s : State) (n : Nat) : CanXcvr :=
  { wake := s.regN (Reg.CAB_WAKE n), id := s.regN (Reg.CAB_WAKE_ID n), idm := s.regN (Reg.CAB_WAKE_IDM n)
    data := s.regN (Reg.CAB_WAKE_DATA_LO n) + 2 ^ 32 * s.regN (Reg.CAB_WAKE_DATA_HI n) }

/-- The transceiver of channel `n` enters sleep. -/
def State.xcvrSleep (s : State) (n : Nat) : State :=
  (s.modCab fun c => { c with asleep := Sparse.put c.asleep n (s.xcvr n), sleepReq := c.sleepReq.filter (· != n) }).setFld
    (F.CAB_STATUS_state n) 5

/-- No frame of channel `n` is on the bus any more: a sleep that was asked for takes place, or the channel goes off. -/
def State.busQuiet (s : State) (n : Nat) : State :=
  if s.cab.sends.any (fun x => x.chan == n && x.onBus) then s
  else if s.cab.sleepReq.contains n then (s.endSends (fun x => x.chan == n) 4).xcvrSleep n
  else if !s.flag (F.CAB_CFG_enable n) ∧ (s.canState n = 1 ∨ s.canState n = 2) then s.setFld (F.CAB_STATUS_state n) 0
  else s

/-- A rail group in FIXED or TRACK uses channel `n`. -/
def State.railUses (s : State) (n : Nat) : Bool := s.blw.rails.any fun r => byteAt r.2.block 2 == n

/-- A write of sleep (R501); a channel that sleeps goes on as it was put to sleep. -/
def State.canSleep (s : State) (n : Nat) : State :=
  if s.canState n = 5 then s
  else if s.railUses n then s.cabRefused n
  else
    let s := s.endSends (fun x => x.chan == n && !x.onBus) 4
    (s.modCab fun c => { c with sleepReq := n :: c.sleepReq }).busQuiet n

/-- A write of wake (R503): a sleeping channel takes part again. -/
def State.canWakeUp (s : State) (n : Nat) : State :=
  if s.canState n ≠ 5 then s
  else
    let s := s.modCab fun c => { c with asleep := Sparse.del c.asleep n }
    (s.setFld (F.CAB_STATUS_state n) (b2n (s.flag (F.CAB_CFG_enable n)))).arbitrate n

/-- The frame or pattern `f` wakes the transceiver (R502). -/
def CanXcvr.wakes (x : CanXcvr) (f : Option CanFrame) : Bool :=
  x.wake.testBit 0 && match f with
  | none => !x.wake.testBit 1
  | some f => x.wake.testBit 1 && !f.fd && !f.remote && f.ext == x.wake.testBit 2 && (f.id ^^^ x.id) &&& x.idm == 0 && f.dlc == bits x.wake 13 4
      && (List.range 8).all fun i => !x.wake.testBit (5 + i) || byteAt f.data i == bits x.data (8 * i) 8

/-! ## Error confinement (R487 to R489) -/

/-- Entry to bus-off: every pending send ends with detail 3. -/
def State.canBusOff (s : State) (n : Nat) : State :=
  let s := ((s.setFld (F.CAB_STATUS_tec n) 255).setFld (F.CAB_STATUS_state n) 3).raise (F.CAB_STATUS_warning n)
  let s := ((s.bump 14 8 n).cabRaise n 3).canEvent n 2
  s.endSends (fun x => x.chan == n) 3

/-- The error counters take `tec` and `rec` (R487). -/
def State.canConfine (s : State) (n tec rec : Nat) : State :=
  if 255 < tec then (s.setFld (F.CAB_STATUS_rec n) (min rec 255)).canBusOff n
  else
    let s := (s.setFld (F.CAB_STATUS_tec n) tec).setFld (F.CAB_STATUS_rec n) (min rec 255)
    let s := s.setFld (F.CAB_STATUS_warning n) (b2n (96 ≤ tec || 96 ≤ rec))
    if 128 ≤ tec ∨ 128 ≤ rec then
      if s.canState n = 1 then (((s.setFld (F.CAB_STATUS_state n) 2).bump 14 7 n).cabRaise n 2).canEvent n 1 else s
    else s.setFld (F.CAB_STATUS_state n) 1

/-- An error of kind `lec` is detected on channel `n`: ISO 11898-1's rules for a transmitter, but for its exempted cases, and for a
receiver, by 8 where a dominant bit follows its error flag (assumption 24). -/
def State.canError (s : State) (n lec : Nat) (sender exempt heavy : Bool) : State :=
  let s := (s.setFld (F.CAB_STATUS_lec n) lec).bump 14 6 n
  let tec := s.fld (F.CAB_STATUS_tec n)
  let rec_ := s.fld (F.CAB_STATUS_rec n)
  if sender then s.canConfine n (if exempt then tec else tec + 8) rec_
  else s.canConfine n tec (rec_ + if heavy then 8 else 1)

def execCanBusError (n lec : Nat) (sender exempt heavy : Bool) (s : State) : Result :=
  if s.canOnBus n then done (s.canError n lec sender exempt heavy) else done s

/-- A write of recover (R488). -/
def State.canRecover (s : State) (n : Nat) : State := if s.canState n = 3 then s.setFld (F.CAB_STATUS_state n) 4 else s

def execRecover (ini n : Nat) (s : State) : Result :=
  if n < 2 then done (s.setupAccess ini (Reg.CAB_CTRL n) true fun s => s.canRecover n) else done s

/-- BUS_OFF_RECOVERED (R488): 128 occurrences of 11 recessive bits. -/
def execBusOffRecovered (n : Nat) (s : State) : Result :=
  if n < 2 ∧ s.powered 24 ∧ s.canState n = 4 then
    let s := ((s.setFld (F.CAB_STATUS_tec n) 0).setFld (F.CAB_STATUS_rec n) 0).lower (F.CAB_STATUS_warning n)
    let s := s.setFld (F.CAB_STATUS_state n) (b2n (s.flag (F.CAB_CFG_enable n)))
    done (((s.cabRaise n 4).canEvent n 3).arbitrate n)
  else done s

/-! ## Receiving (R490 to R492, R500) -/

/-- The first valid receive object of channel `n` that takes the frame. -/
def State.takingObj (s : State) (n : Nat) (f : CanFrame) : Option (Nat × CabObj) :=
  (s.cab.objs.find? fun p => p.1 / 32 == n && p.2.rx && p.2.ext == f.ext && (f.id ^^^ p.2.id) &&& p.2.mask == 0).map
    fun p => (p.1 % 32, p.2)

/-- The object's shadow buffer becomes its live buffer. -/
def State.objTakes (s : State) (n o : Nat) (x : CabObj) (f : CanFrame) : State :=
  let s := if x.new then (s.bump 14 3 n).cabRaise n 1 else s
  let s := s.setObj n o { x with new := true, overrun := x.overrun || x.new, live := some (f, shortForm s.wall) }
  if x.toRing then s.canReport n 0 o f.id f else s

/-- A standby follows the setpoint it observes for a rail group (R368, R500). -/
def State.observeRail (s : State) (n : Nat) (f : CanFrame) (g : Nat) (r : Rail) : State :=
  if byteAt r.block 2 = n ∧ le r.block 4 4 % 2 ^ 29 = f.id ∧ (byteAt r.block 7).testBit 5 = f.ext ∧ s.fld F.TWN_STATUS_role = 3 then
    s.showRail g { r with fine := 100 * le f.data 0 2 } (le f.data 0 2)
  else s

/-- A data frame has been received whole. -/
def State.canReceive (s : State) (n : Nat) (f : CanFrame) : State :=
  let s := s.bump 14 1 n
  let s := s.blw.rails.foldl (fun s r => s.observeRail n f r.1 r.2) s
  match s.takingObj n f with
  | some (o, x) => s.objTakes n o x f
  | none => if s.flag (F.CAB_CFG_rx_unmatched n) then s.canReport n 0 63 f.id f else s.bump 14 2 n

/-- REC after a frame received without error, by ISO 11898-1. -/
def recAfter (rec : Nat) : Nat := if 127 < rec then 127 else rec - 1

/-- CAN_FRAME_RECEIVED (R490, R484): a frame that passed its CRC and was acknowledged; in loopback nothing comes from the bus. -/
def execCanFrameReceived (n : Nat) (f : CanFrame) (s : State) : Result :=
  if !s.canOnBus n ∨ s.fld (F.CAB_CFG_mode n) = 2 then done s
  else if f.fd ∧ !s.flag (F.CAB_CFG_fd_en n) then done (s.canError n 2 false false false)
  else if f.remote then done (s.bump 14 4 n)
  else done ((s.canReceive n f).canConfine n (s.fld (F.CAB_STATUS_tec n)) (recAfter (s.fld (F.CAB_STATUS_rec n))))

/-- The offset of word 0 of object `o` of channel `n`. -/
def cabObjAddr (n o : Nat) : Nat := 0xB04000 + 0x1000 * n + 0x80 * o

/-- The words of an object as its window shows them, as one number. -/
def State.objWords (s : State) (n o : Nat) : Nat :=
  match s.cabObj n o with
  | none => 0
  | some x =>
    let (f, t) := match x.live with
      | some l => l
      | none => ({ x.frame with dlc := if x.rx then 0 else x.dlc, data := if x.rx then [] else x.frame.data }, 0)
    b2n x.new + b2n x.overrun * 2 + 4 + b2n x.rx * 8 + f.dlc * 16 + b2n f.fd * 2 ^ 8 + b2n f.brs * 2 ^ 9 +
      2 ^ 32 * f.id + 2 ^ 64 * t + leNat ((f.data ++ zeros 64).take 64) * 2 ^ 128

/-- A read of word 0 of an object (R492). -/
def State.objectRead (s : State) (ini n o : Nat) : State :=
  let s := s.snapshot ini (cabObjAddr n o) (s.objWords n o) 20
  match s.cabObj n o with
  | some x => s.setObj n o { x with new := false, overrun := false }
  | none => s

def execObjectRead (ini n o : Nat) (s : State) : Result :=
  if n < 2 ∧ o < 32 then done (s.setupAccess ini (cabObjAddr n o) false fun s => s.objectRead ini n o) else done s

/-! ## Sending -/

/-- The frame of `x` has left, in loopback to the channel itself while the bus stays recessive (R484, R490). -/
def State.canSent (s : State) (x : CanSend) : State :=
  let f := x.frame
  let back := s.fld (F.CAB_CFG_mode x.chan) == 2
  let s := s.bump 14 0 x.chan
  let s := if back then s else s.emit (.can x.chan f.id f.ext f.fd f.brs f.data)
  let s := (s.sendEnds x 0).canConfine x.chan (s.fld (F.CAB_STATUS_tec x.chan) - 1) (s.fld (F.CAB_STATUS_rec x.chan))
  if back then s.canReceive x.chan f else s

/-- The frame of `x` did not leave: 1 arbitration lost, 2 bus error. A one-shot send ends; another is retried, unless its channel is
going to sleep or off, or it is a rail message and a later one of its group waits (R495, R497, R499, R501). -/
def State.canMissed (s : State) (x : CanSend) (why : Nat) : State :=
  let s := if why = 1 then s.bump 14 5 x.chan else s
  if x.oneShot then (s.bump 14 9 x.chan).sendEnds x why
  else if s.cab.sleepReq.contains x.chan ∨ !s.flag (F.CAB_CFG_enable x.chan) then s.sendEnds x 4
  else if 32 ≤ x.obj ∧ s.cab.sends.any (fun y => y.obj == x.obj) then s.bump 14 10 x.chan
  else s.modCab fun c => { c with sends := { x with onBus := false } :: c.sends }

/-- CAN_FRAME_SENT (R494, R495): the frame in arbitration or on the bus of channel `n` leaves (0), loses arbitration (1) or meets a
bus error (2). -/
def execCanFrameSent (n outcome : Nat) (s : State) : Result :=
  match s.cab.sends.find? fun x => x.chan == n && x.onBus with
  | none => done s
  | some x =>
    if 2 < outcome then done s
    else
      let s := s.modCab fun c => { c with sends := c.sends.erase x }
      done (((if outcome = 0 then s.canSent x else s.canMissed x outcome).busQuiet n).arbitrate n)

/-- The send that an object asks for. -/
def CabObj.send (x : CabObj) (n o : Nat) (slot : Option Nat) : CanSend :=
  { chan := n, obj := o, frame := x.frame, slot := slot, oneShot := x.oneShot, ownerOnly := x.ownerOnly }

/-- PERIODIC_SEND (R489, R495, R496): the period of object `o` of channel `n` has passed. -/
def execPeriodicSend (n o : Nat) (s : State) : Result :=
  match s.cabObj n o with
  | none => done s
  | some x =>
    if x.rx ∨ x.period = 0 ∨ !s.canOnBus n ∨ s.fld (F.CAB_CFG_mode n) = 1 ∨ (x.ownerOnly ∧ !s.cabOwner) then done s
    else done (s.queueSend (x.send n o none))

/-- The frame of a rail setpoint message of group `g`. -/
def State.railFrame (s : State) (g seq : Nat) (r : Rail) : CanFrame :=
  { id := le r.block 4 4 % 2 ^ 29, ext := (byteAt r.block 7).testBit 5, dlc := 8
    data := natLE 2 (r.fine / 100) ++ [BitVec.ofNat 8 g, BitVec.ofNat 8 (s.fld (F.BLW_RAIL_MODE_slewing g))] ++ natLE 2 seq ++
      [BitVec.ofNat 8 (b2n (s.fld F.BOOT_IDENT_SLOT_slot == 2)), 0] }

/-- A rail setpoint message is due: one that is still pending is updated in place; one that is on the bus leaves whole (R493, R499). -/
def State.railMessage (s : State) (g : Nat) (r : Rail) : State :=
  let n := byteAt r.block 2
  let f := s.railFrame g (nth s.cab.railSeq g 0) r
  let s := s.modCab fun c => { c with railSeq := c.railSeq.set g ((nth c.railSeq g 0 + 1) % 65536) }
  let waits (x : CanSend) : Bool := x.obj == 32 + g && !x.onBus
  if s.cab.sends.any waits then
    (s.modCab fun c => { c with sends := c.sends.map fun x => if waits x then { x with frame := f } else x }).bump 14 10 n
  else s.queueSend { chan := n, obj := 32 + g, frame := f, ownerOnly := true }

/-- RAIL_SETPOINT_MESSAGE (R368, R489, R496). -/
def execRailSetpointMessage (g : Nat) (s : State) : Result :=
  match s.rail g with
  | none => done s
  | some r => if s.cabOwner ∧ s.canOnBus (byteAt r.block 2) then done (s.railMessage g r) else done s

def execCanSleep (ini n : Nat) (s : State) : Result :=
  if n < 2 then done (s.setupAccess ini (Reg.CAB_CTRL n) true fun s => s.canSleep n) else done s

def execCanWakeWrite (ini n : Nat) (s : State) : Result :=
  if n < 2 then done (s.setupAccess ini (Reg.CAB_CTRL n) true fun s => s.canWakeUp n) else done s

/-- CAN_WAKE (R502, R503): the transceiver of channel `n` sees the wake-up pattern (none) or a frame. -/
def execCanWake (n : Nat) (f : Option CanFrame) (s : State) : Result :=
  match s.cab.asleep.find? fun p => p.1 == n with
  | none => done s
  | some (_, x) =>
    if n < 2 ∧ x.wakes f then
      let s := if s.powered 24 then ((s.bump 14 11 n).cabRaise n 5).canEvent n 4 else s
      done (s.wake (2 + n))
    else done s

/-- PD24 powers down: every channel sleeps (R501). -/
def State.cabDown (s : State) : State :=
  let s := (s.endSends (fun _ => true) 4).railsOff
  let asleep := (List.range 2).foldl (fun l n => if (l.any fun p => p.1 == n) then l else Sparse.put l n (s.xcvr n)) s.cab.asleep
  s.modCab fun _ => { asleep := asleep }

/-- PD24 powers up: a channel whose transceiver sleeps shows it. -/
def State.cabUp (s : State) : State :=
  s.cab.asleep.foldl (fun s p => s.setFld (F.CAB_STATUS_state p.1) 5) s

/-! ## The commands of ring 0xB0 (R504) -/

/-- A command on an object: the channel and the object in range. -/
def State.cabCommand (s : State) (op : Nat) (k : Nat → Nat → Nat → List Byte → State → Option Cpl × State) : State :=
  s.takeCommand 0xB0 op fun slot desc s =>
    if 2 ≤ byteAt desc 1 then (some (badField 0x81), s)
    else if 32 ≤ byteAt desc 2 then (some (badField 0x82), s)
    else k (byteAt desc 1) (byteAt desc 2) slot desc s

/-- The object that an OBJ_SET block describes. -/
def objOfBlock (b : List Byte) : CabObj :=
  let w := le b 0 4
  let f := byteAt b 8
  { rx := w.testBit 30, ext := w.testBit 29, id := if w.testBit 29 then w % 2 ^ 29 else w % 2 ^ 11, mask := le b 4 4 % 2 ^ 29
    fd := f.testBit 0, brs := f.testBit 1, oneShot := f.testBit 2, ownerOnly := f.testBit 3, toRing := f.testBit 4
    dlc := byteAt b 9, period := le b 10 2 }

/-- The first field of an OBJ_SET block that is out of range. -/
def State.objBad (s : State) (n : Nat) (x : CabObj) : Option Nat :=
  firstBad [(!x.fd || s.flag (F.CAB_CFG_fd_en n), 8), (x.rx || x.dlc ≤ (if x.fd then 15 else 8), 9), (x.rx || x.period ≤ 60000, 10)]

/-- OBJ_SET (R504). -/
def execObjSet (s : State) : Result :=
  done (s.cabCommand 0x01 fun n o _ desc s => s.withBlock 0xB0 desc fun b s =>
    let x := objOfBlock b
    match s.objBad n x with
    | some off => (some (badField off), s)
    | none =>
      if s.cab.sends.any fun y => y.chan == n && y.obj == o then (some { status := Status.busy }, s)
      else if (byteAt b 3).testBit 7 then (some okCpl, s.setObj n o x)
      else (some okCpl, s.modCab fun c => { c with objs := Sparse.del c.objs (32 * n + o) }))

/-- TX_LOAD's send: refused in listen-only mode, while not enabled and in sleep, and as bus-off while bus-off (R504, R489). -/
def State.loadSend (s : State) (n o slot : Nat) (x : CabObj) : Option Cpl × State :=
  if s.canState n = 3 then (some (sendCpl s 3), s.cabRaise n 0)
  else if x.ownerOnly ∧ !s.cabOwner then (some (sendCpl s 5), s.cabRaise n 0)
  else if x.period = 0 then (none, s.queueSend (x.send n o (some slot)))
  else (some okCpl, s.queueSend (x.send n o none))

/-- TX_LOAD (R493, R504). -/
def execTxLoad (s : State) : Result :=
  done (s.cabCommand 0x02 fun n o slot desc s => s.withBlock 0xB0 desc fun b s =>
    match s.cabObj n o with
    | none => (some refusedState, s)
    | some x =>
      let send := (byteAt desc 3).testBit 0
      let dead := !s.flag (F.CAB_CFG_enable n) || s.fld (F.CAB_CFG_mode n) == 1 || s.canState n == 5
      if x.rx ∨ (send ∧ dead) then (some refusedState, s)
      else
        let x := { x with data := b }
        let s := s.setObj n o x
        if send then s.loadSend n o slot x else (some okCpl, s))

/-- TX_ABORT (R497): a frame already on the bus completes as it ends. -/
def execTxAbort (s : State) : Result :=
  done (s.cabCommand 0x03 fun n o _ _ s => (some okCpl, s.endSends (fun x => x.chan == n && x.obj == o && !x.onBus) 4))

/-! ## Registers (R485, R486) -/

/-- A write of CAB_CFG: disabling ends the pending sends once the frame in progress has finished. -/
def State.cabCfgWrite (s : State) (n : Nat) (w : Word) : State :=
  if fieldOf (F.CAB_CFG_mode n) w = 3 then s.cabRefused n
  else
    let was := s.flag (F.CAB_CFG_enable n)
    let s := s.setReg (Reg.CAB_CFG n) (w &&& 0x1F)
    if was ∧ !s.flag (F.CAB_CFG_enable n) then (s.endSends (fun x => x.chan == n && !x.onBus) 4).busQuiet n
    else if !was ∧ s.flag (F.CAB_CFG_enable n) ∧ s.canState n = 0 then (s.setFld (F.CAB_STATUS_state n) 1).arbitrate n
    else s.arbitrate n

/-- A nominal bit timing in range (R485). -/
def nbtOk (w : Nat) : Bool :=
  let q := 3 + bits w 5 8 + bits w 13 7
  1 ≤ bits w 5 8 && bits w 20 7 ≤ bits w 13 7 && 80 ≤ (bits w 0 5 + 1) * q

/-- A data bit timing in range; a bit shorter than 200 ns needs tdc_en (R485, R486). -/
def dbtOk (w : Nat) : Bool :=
  let n := (bits w 0 5 + 1) * (3 + bits w 5 5 + bits w 10 4)
  bits w 14 4 ≤ bits w 10 4 && 10 ≤ n && (16 ≤ n || w.testBit 18)

/-- A write of CAB_NBT or CAB_DBT (R485). -/
def State.cabTimingWrite (s : State) (n : Nat) (data : Bool) (w : Word) : State :=
  let good := if data then dbtOk w.toNat else nbtOk w.toNat
  if s.flag (F.CAB_CFG_enable n) ∨ !good then s.cabRefused n
  else if data then s.setReg (Reg.CAB_DBT n) (w &&& 0x3FFFFFF#32) else s.setReg (Reg.CAB_NBT n) (w &&& 0x7FFFFFF#32)

end Sys2Proof.Machine
end

