-- ==== Sys2Proof/Machine/Cage.lean ====
section
/-! DEFINITION. The transceiver cages of U0 and U1 (R590, R591). -/

namespace Sys2Proof.Machine

/-- A write of NET_CAGE_MGMT: while go is 1 it is discarded; with go it starts a transfer (R591). -/
def State.cageMgmtWrite (s : State) (c : Nat) (w : Word) : State :=
  if s.flag (F.NET_CAGE_MGMT_go c) then s
  else
    let wr := fieldOf (F.NET_CAGE_MGMT_write c) w
    let addr := fieldOf (F.NET_CAGE_MGMT_address c) w
    let data := fieldOf (F.NET_CAGE_MGMT_data c) w
    let s := ((s.setFld (F.NET_CAGE_MGMT_write c) wr).setFld (F.NET_CAGE_MGMT_address c) addr).setFld (F.NET_CAGE_MGMT_data c) data
    if fieldOf (F.NET_CAGE_MGMT_go c) w = 1 then (s.raise (F.NET_CAGE_MGMT_go c)).emit (.cage c (wr == 1) addr data) else s

/-- CAGE_MGMT_TRANSFER (R591). -/
def execCageMgmtTransfer (ini c : Nat) (w : Word) (s : State) : Result :=
  if c < 2 then done (s.setupAccess ini (Reg.NET_CAGE_MGMT c) true fun s => s.cageMgmtWrite c w) else done s

/-- CAGE_MGMT_COMPLETE (R591): the transceiver acknowledged or not, and the byte it sent. -/
def execCageMgmtComplete (c : Nat) (ack : Bool) (data : Nat) (s : State) : Result :=
  if c < 2 ∧ s.flag (F.NET_CAGE_MGMT_go c) then
    let s := (s.lower (F.NET_CAGE_MGMT_go c)).setFld (F.NET_CAGE_MGMT_nack c) (b2n (!ack))
    done (if ack ∧ !s.flag (F.NET_CAGE_MGMT_write c) then s.setFld (F.NET_CAGE_MGMT_data c) data else s)
  else done s

/-- The cage's supply is on: asked for, its domain powered, and not switched off by a fault (R590). -/
def State.cageSupplied (s : State) (c : Nat) : Bool :=
  s.flag (F.NET_CAGE_power c) && s.powered (22 + c) && !s.flag (F.NET_CAGE_power_fault c)

/-- CAGE_OVERCURRENT (R590): more than 1.5 A for 1 ms. -/
def execCageOvercurrent (c : Nat) (s : State) : Result :=
  if c < 2 ∧ s.cageSupplied c then done (s.raise (F.NET_CAGE_power_fault c)) else done s

/-- A write of NET_CAGE: writing power to 0 clears power_fault (R591). -/
def State.cageWrite (s : State) (c : Nat) (w : Word) : State :=
  let s := s.setReg (Reg.NET_CAGE c) ((s.reg (Reg.NET_CAGE c) &&& 0xF8#32) ||| (w &&& 7#32))
  if s.flag (F.NET_CAGE_power c) then s else s.lower (F.NET_CAGE_power_fault c)

end Sys2Proof.Machine
end

