-- ==== Sys2Proof/Machine/NetParse.lean ====
section
/-! DEFINITION. The header parser of the Network (R88 to R91): what a frame's headers say, and what is wrong with it. A frame is its
bytes from the destination address to the last byte before the FCS; multi-byte fields of headers are in network order. -/

namespace Sys2Proof.Machine

/-- What the parser finds. -/
structure Headers where
  etype    : Nat := 0
  /-- VLAN ID of the innermost tag. -/
  vid      : Option Nat := none
  /-- Offset of the first byte after the EtherType. -/
  l3       : Nat := 14
  /-- Parse class of R105: 0 non-IP, 1 IPv4 other, 2 IPv6 other, 3 IPv4 UDP, 4 IPv6 UDP. -/
  cls      : Nat := 0
  ipDst    : List Byte := []
  ipSrc    : List Byte := []
  proto    : Option Nat := none
  dport    : Option Nat := none
  /-- The IP payload after extension headers, and the UDP payload: offset and length. -/
  ipPay    : Nat × Nat := (0, 0)
  udp      : Option (Nat × Nat) := none
  unparsed : Bool := false
  mismatch : Bool := false
  badIp    : Bool := false
  badUdp   : Bool := false
  deriving DecidableEq, Repr

/-- The 16-bit one's complement sum of a byte string. -/
def sumWords : List Byte → Nat
  | a :: b :: l => a.toNat * 256 + b.toNat + sumWords l
  | [a] => a.toNat * 256
  | [] => 0

def foldSum (n : Nat) : Nat :=
  let a := n % 65536 + n / 65536
  let b := a % 65536 + a / 65536
  b % 65536 + b / 65536

def onesSum (bs : List Byte) : Nat := foldSum (sumWords bs)

def isTag (t : Nat) : Bool := t == 0x8100 || t == 0x88A8

/-- VLAN tags: up to two (R88); a third leaves the frame unparsed (R89). -/
def parseTags (f : List Byte) : Headers :=
  let e0 := be f 12 2
  if !isTag e0 then { etype := e0, l3 := 14 }
  else
    let e1 := be f 16 2
    if !isTag e1 then { etype := e1, l3 := 18, vid := some (be f 14 2 % 4096) }
    else
      let e2 := be f 20 2
      { etype := e2, l3 := 22, vid := some (be f 18 2 % 4096), unparsed := isTag e2, cls := if isTag e2 then 7 else 0 }

/-- Bytes follow the IP packet, in a frame longer than 64 bytes (R90): `len` is the frame's length, its FCS included. -/
def trailing (f : List Byte) (len stop : Nat) : Bool := stop < f.length && 64 < len

/-- The IPv4 header (R88 to R91). -/
def parseIpv4 (f : List Byte) (len : Nat) (h : Headers) : Headers :=
  let ihl := byteAt f h.l3 % 16 * 4
  let total := be f (h.l3 + 2) 2
  let bad := ihl < 20 || total < ihl || f.length < h.l3 + total || trailing f len (h.l3 + total)
  let frag := be f (h.l3 + 6) 2 % 16384 != 0
  { h with
    cls := if frag then 7 else 1
    unparsed := frag, mismatch := bad
    badIp := onesSum (sliceB f h.l3 ihl) != 0xFFFF
    ipSrc := sliceB f (h.l3 + 12) 4, ipDst := sliceB f (h.l3 + 16) 4
    proto := some (byteAt f (h.l3 + 9)), ipPay := (h.l3 + ihl, total - ihl) }

/-- An extension header that the parser follows (R88). -/
def isExt (n : Nat) : Bool := n == 0 || n == 43 || n == 60

/-- The extension headers from offset `o`, of type `n`, with `k` still to follow: the next header's type and offset, whether there
is a further one, and whether one runs past the payload's end (R88 to R90). -/
def parseExts (f : List Byte) (stop : Nat) : Nat → Nat → Nat → Nat × Nat × Bool × Bool
  | 0, n, o => (n, o, isExt n, false)
  | k + 1, n, o =>
    if !isExt n then (n, o, false, false)
    else
      let o' := o + 8 * (byteAt f (o + 1) + 1)
      if stop < o' ∨ stop < o + 2 then (n, o, false, true) else parseExts f stop k (byteAt f o) o'

/-- The IPv6 header and its extension headers (R88 to R90). -/
def parseIpv6 (f : List Byte) (len : Nat) (h : Headers) : Headers :=
  let stop := h.l3 + 40 + be f (h.l3 + 4) 2
  let (n, o, more, past) := parseExts f stop 2 (byteAt f (h.l3 + 6)) (h.l3 + 40)
  let un := more || n == 44
  { h with
    cls := if un then 7 else 2
    unparsed := un, mismatch := f.length < stop || past || trailing f len stop
    ipSrc := sliceB f (h.l3 + 8) 16, ipDst := sliceB f (h.l3 + 24) 16
    proto := some n, ipPay := (o, stop - o) }

/-- The sum that a right UDP checksum brings to all ones, pseudo-header included (R91). -/
def udpSum (f : List Byte) (h : Headers) : Nat :=
  let len := h.ipPay.2
  onesSum (h.ipSrc ++ h.ipDst ++ [0, 17] ++ natBE 4 len ++ sliceB f h.ipPay.1 len)

/-- The UDP header (R90, R91). -/
def parseUdp (f : List Byte) (h : Headers) : Headers :=
  let (o, n) := h.ipPay
  let ulen := be f (o + 4) 2
  let csum := be f (o + 6) 2
  if n < 8 ∨ ulen < 8 ∨ ulen ≠ n then { h with mismatch := true }
  else { h with
    cls := if h.ipDst.length = 16 then 4 else 3
    dport := some (be f (o + 2) 2), udp := some (o + 8, n - 8)
    badUdp := if csum = 0 then h.ipDst.length == 16 else udpSum f h != 0xFFFF }

/-- A whole frame of `len` bytes with its FCS (R88 to R91). -/
def parseFrame (f : List Byte) (len : Nat) : Headers :=
  let h := parseTags f
  if h.unparsed then h
  else
    let h := if h.etype = 0x0800 then parseIpv4 f len h else if h.etype = 0x86DD then parseIpv6 f len h else h
    if h.mismatch ∨ h.unparsed ∨ h.proto ≠ some 17 then h else parseUdp f h

/-- The verdict on a payload that is to be parsed as RTP (R88 to R90): 0 good, 1 unparsed, 2 lengths contradict. A drop goes before
the unparsed queue, as R87 orders it. -/
def parseRtp (b : List Byte) : Nat :=
  let cc := byteAt b 0 % 16
  let n := 12 + 4 * cc
  let ext := (byteAt b 0).testBit 4
  let n' := if ext then n + 4 + 4 * be b (n + 2) 2 else n
  if b.length < n ∨ (ext ∧ b.length < n + 4) ∨ b.length < n' then 2
  else if byteAt b 0 / 64 ≠ 2 ∨ 4 < cc then 1
  else 0

/-- An IP multicast destination (R93). -/
def Headers.multicast (h : Headers) : Bool :=
  match h.ipDst with
  | a :: _ => if h.ipDst.length = 16 then a.toNat == 0xFF else 224 ≤ a.toNat && a.toNat ≤ 239
  | [] => false

/-- The IPv4 header checksum and the UDP checksum filled in (R106). -/
def fillChecksums (f : List Byte) (h : Headers) : List Byte :=
  let put (f : List Byte) (o v : Nat) : List Byte := f.take o ++ natBE 2 v ++ f.drop (o + 2)
  let f := if h.ipDst.length = 4 then
    let g := put f (h.l3 + 10) 0
    put g (h.l3 + 10) (65535 - onesSum (sliceB g h.l3 (byteAt g h.l3 % 16 * 4)))
  else f
  let o := h.ipPay.1 + 6
  let g := put f o 0
  let c := 65535 - udpSum g h
  put g o (if c = 0 then 65535 else c)

end Sys2Proof.Machine
end

