-- ==== Sys2Proof/Machine/Timekeeper.lean ====
section
/-! DEFINITION. The Timekeeper: the exchange of PTP messages, the servo, the selection of a reference, transmit time stamps and
TIME_PPS_OUT (R44 to R81). Ports are numbered 0 U0, 1 U1, 2 M0; times are in 2^−16 ns. -/

namespace Sys2Proof.Machine

/-! ## Ports -/

def State.tport (s : State) (p : Nat) : TmkPort := nth s.tmk.ports p {}

def State.modTport (s : State) (p : Nat) (f : TmkPort → TmkPort) : State :=
  s.modTmk fun t => { t with ports := t.ports.set p (f (nth t.ports p {})) }

def State.tmkEnabled (s : State) : Bool := s.flag F.TMK_CFG_enable

/-- The link of a port is up (R64). -/
def State.netLink (s : State) (p : Nat) : Bool := s.flag ⟨Reg.NET_PORT_STATUS, 4 * p, 1⟩

/-- Stamps are taken on the port: on U0 and U1 once the lane skew has been measured (R50). -/
def State.stamping (s : State) (p : Nat) : Bool := s.netLink p && (p == 2 || s.flag ⟨Reg.NET_PORT_STATUS, 4 * p + 2, 1⟩)

def State.slaveCapable (s : State) (p : Nat) : Bool := s.fld (F.TMK_PORT_CFG_role p) == 1
def State.masterPort (s : State) (p : Nat) : Bool := s.fld (F.TMK_PORT_CFG_role p) == 2

/-- The Timekeeper serves PTP domain `d` on port `p`: its own, or the one a master port serves (R93). -/
def State.servesDomain (s : State) (p d : Nat) : Bool :=
  s.tmkEnabled && (d == s.fld F.TMK_PTP_CFG_domain || (s.masterPort p && d == s.fld (F.TMK_PORT_CFG_m_domain p)))

/-- A stamp with its resolution of 2^−6 ns (R51). -/
def stampRound (t : Int) : Nat := (rneI t 1024 * 1024).toNat

/-- The latency that corrects a stamp of port `p`: that of its register with the lane skew of the last link-up (R49, R50; assumption
76). -/
def State.ingressLatency (s : State) (p : Nat) : Int := s.sfld (F.TMK_CAL_ING_value p) + (s.tport p).skew
def State.egressLatency (s : State) (p : Nat) : Int := s.sfld (F.TMK_CAL_EGR_value p) + (s.tport p).skew

/-- The corrected stamps of a received and of a sent message (R49). -/
def State.ingressStamp (s : State) (p raw : Nat) : Nat := stampRound ((raw : Int) - s.ingressLatency p)
def State.egressStamp (s : State) (p raw : Nat) : Nat := stampRound ((raw : Int) + s.egressLatency p)

/-- The raw egress stamp of a frame whose first bit leaves the medium-dependent interface at `t` (R49, R77). -/
def State.rawEgress (s : State) (p t : Nat) : Nat := ((t : Int) - s.egressLatency p).toNat

/-! ## Candidates (R64 to R66) -/

/-- The field of TMK_REFSEL_STATUS that shows the candidate state of port `p`. -/
def candField (p : Nat) : Field := ⟨Reg.TMK_REFSEL_STATUS, 2 + 2 * p, 2⟩
def State.candState (s : State) (p : Nat) : Nat := s.fld (candField p)
def State.setCand (s : State) (p v : Nat) : State := s.setFld (candField p) v
def State.selState (s : State) : Nat := s.fld F.TMK_REFSEL_STATUS_sel_state
def State.servo (s : State) : Nat := s.fld F.TMK_STATUS_servo_state

/-- None of the conditions for DISQUALIFIED holds (R64). -/
def State.candOk (s : State) (p : Nat) : Bool :=
  let t := s.tport p
  s.tmkEnabled && s.slaveCapable p && s.stamping p && t.annOk && t.syncOk && !t.badSync && !t.badAnn

/-- The last 16 offsets lie within 20 ns of each other (R64). -/
def spreadOk (l : List Int) : Bool :=
  match l with
  | [] => false
  | x :: l' => l.length == 16 && (l'.foldl max x) - (l'.foldl min x) ≤ 20 * 65536

/-- The hop count of a reference (R47). -/
def State.hopsOf (s : State) (p : Nat) : Nat := match (s.tport p).ann with | some a => a.steps + 1 | none => 0

/-- The rank of a candidate under R65: the grandmaster's dataset, the hop count, the host's priority, the fixed order. The lower
list is the better candidate (assumption 16). -/
def State.rank (s : State) (p : Nat) : List Nat :=
  (match (s.tport p).ann with
    | some a => [a.prio1, a.cls, a.accuracy, a.variance, a.prio2, a.identity]
    | none => []) ++ [s.hopsOf p, s.fld (F.TMK_PORT_CFG_priority p), p]

/-- The first difference of two lists decides. -/
def lexLt : List Nat → List Nat → Bool
  | x :: xs, y :: ys => x < y || (x == y && lexLt xs ys)
  | _, _ => false

def State.better (s : State) (p q : Nat) : Bool := lexLt (s.rank p) (s.rank q)

/-- Port `p` may be selected under TMK_REFSEL_CFG.force (R66). -/
def State.forceAllows (s : State) (p : Nat) : Bool :=
  s.fld F.TMK_REFSEL_CFG_force == 0 || s.fld F.TMK_REFSEL_CFG_force == p + 1

/-- The dataset that the module announces as its own: its clockClass is 255 unless it may become grandmaster (R45). -/
def State.ownDataset (s : State) : List Nat :=
  [s.fld F.TMK_PTP_CFG_priority1, if s.flag F.TMK_PTP_CFG_gm_capable then Config.masterClockClass.toNat else 255,
   Config.masterClockAccuracy.toNat, Config.masterClockVariance.toNat, Config.masterPriority2.toNat, Config.masterIdentity.toNat]

/-- The best master algorithm makes the module itself grandmaster before the one of port `p`: it may become one, and its own dataset
is the better (R45; assumption 77). -/
def State.ownBetter (s : State) (p : Nat) : Bool :=
  s.flag F.TMK_PTP_CFG_gm_capable &&
    (match (s.tport p).ann with
      | some a => lexLt s.ownDataset [a.prio1, a.cls, a.accuracy, a.variance, a.prio2, a.identity]
      | none => false)

/-- The best candidate that is at least QUALIFIED and may be selected. -/
def State.bestCandidate (s : State) : Option Nat :=
  ((List.range 3).filter fun p => 2 ≤ s.candState p && s.forceAllows p && !s.ownBetter p).foldl
    (fun b p => match b with | none => some p | some q => if s.better p q then some p else some q) none

/-- Forcing keeps the selection in holdover: the value 4, or a forced port that is not qualified (R66). -/
def State.forcedHold (s : State) : Bool :=
  let f := s.fld F.TMK_REFSEL_CFG_force
  f == 4 || (1 ≤ f && f ≤ 3 && s.candState (f - 1) < 2)

/-! ## The servo's state (R58 to R60) -/

/-- A fault-log entry of type 0x0203 (R565). -/
def State.refEvent (s : State) (event : Nat) : State :=
  s.faultEntry 0x0203 Config.timekeeperOrigin.toNat
    (natLE 4 event ++ natLE 4 (s.regN Reg.TMK_STATUS) ++ natLE 4 (s.regN Reg.TMK_REFSEL_STATUS))

/-- Whole seconds since the last entry to HOLDOVER, held after it is left (R70). -/
def State.holdSeconds (s : State) : Nat :=
  match s.tmk.holdAt with
  | some t => if s.servo = 4 then satU 32 ((s.clock - t) / 1000000000) else s.regN Reg.TMK_HOLD_TIME
  | none => s.regN Reg.TMK_HOLD_TIME

/-- The servo holds its frequency: nothing is left to slew (R66, R70). -/
def State.holdPhase (s : State) : State := s.modPll fun l => { l with slew := 0, gone := 0 }

/-- What the steering of the time PLL becomes as the servo enters state `v`: in FREE it is not steered (R58); an offset that only
slewing may remove has gone with the entry to LOCKED (assumption 78). -/
def State.pllEnter (s : State) (v : Nat) : State :=
  match v with
  | 0 => s.modPll fun _ => {}
  | 3 => s.modPll fun l => { l with noStep := false }
  | 4 => s.holdPhase
  | _ => s

/-- The servo changes state. -/
def State.setServo (s : State) (v : Nat) : State :=
  let was := s.servo
  if was = v then s
  else
    let s := if was = 4 then (s.setReg Reg.TMK_HOLD_TIME (BitVec.ofNat 32 s.holdSeconds)).extreme 9 s.holdSeconds 0 else s
    let s := (s.setFld F.TMK_STATUS_servo_state v).pllEnter v
    let s := s.modTmk fun t => { t with
      updates := 0, exceeds := 0, pullSince := none, holdAt := if v = 4 then some s.clock else t.holdAt }
    let s := if v = 3 then s.raise F.TMK_INT_STAT_lock_gained else s
    (if was = 3 then ((s.raise F.TMK_INT_STAT_lock_lost).life 40).refEvent 2 else s).judgeDisc.judgeSync

/-! ## What TMK_STATUS shows -/

/-- The time PLL takes the recovered clock of the selected port (R58, R402). -/
def State.synceOn (s : State) : Bool :=
  match s.tmk.sel with
  | some p => p < 2 && s.selState == 1 && s.flag (F.TMK_PORT_CFG_synce p) && s.netLink p && !s.tmk.synceLost
  | none => false

/-- The frequency source (R398, R402). -/
def State.freqSource (s : State) : Nat :=
  if s.flag F.TMK_CLK_STATUS_ref_hold then 0
  else if s.synceOn then 1
  else if s.fld F.TMK_CLK_STATUS_ref_input = 1 then 2
  else 0

/-- The hop count and beyond_hops of the selected reference (R47). -/
def State.showHops (s : State) : State :=
  let h := match s.tmk.sel with | some p => s.hopsOf p | none => 0
  let exceeds := 16 < h
  let s := if exceeds && !s.flag F.TMK_STATUS_beyond_hops then s.raise F.TMK_INT_STAT_beyond_hops else s
  (s.setFld F.TMK_STATUS_hops (satU 8 h)).setFld F.TMK_STATUS_beyond_hops (b2n exceeds)

/-- window_ok (R48). -/
def State.windowOk (s : State) : Bool :=
  s.servo == 3 && (s.tmk.sel == some 0 || s.tmk.sel == some 1) && s.fld F.TMK_PTP_CFG_profile == 0 &&
    s.fld F.TMK_STATUS_freq_src == 1 && !s.flag F.TMK_STATUS_beyond_hops

/-- The derived fields of TMK_STATUS follow the selection, the servo and the clocks. -/
def State.showStatus (s : State) : State :=
  let s := s.showHops
  let s := s.setFld F.TMK_STATUS_sel_ref (match s.tmk.sel with | some p => p + 1 | none => 0)
  let s := s.setFld F.TMK_STATUS_freq_src s.freqSource
  s.setFld F.TMK_STATUS_window_ok (b2n s.windowOk)

/-! ## The selection (R67 to R69) -/

def State.setSel (s : State) (v : Nat) : State := s.setFld F.TMK_REFSEL_STATUS_sel_state v

/-- The candidate that is no longer the reference: SELECTED gives way to QUALIFIED. -/
def State.unselect (s : State) : State :=
  match s.tmk.sel with
  | some p => if s.candState p = 3 then s.setCand p 2 else s
  | none => s

/-- The servo enters PULL, or from FREE ACQUIRE, for a reference newly selected: the 2 s of R59 begin anew. -/
def State.servoFollow (s : State) : State :=
  (s.setServo (if s.servo = 0 then 1 else 2)).modTmk fun t => { t with pullSince := none, exceeds := 0 }

/-- The selection follows `p`. -/
def State.track (s : State) (p : Nat) : State :=
  let s := ((s.unselect).modTmk fun t => { t with sel := some p, target := none, lost := none, lostGood := 0, synceLost := false })
  ((s.setCand p 3).setSel 1).servoFollow

/-- The selection enters holdover, and with it a servo that was steered; the Recorder flushes (R59, R67, R569). -/
def State.enterHoldover (s : State) : State :=
  let s := (s.unselect.modTmk fun t => { t with sel := none, target := none, lost := none, lostGood := 0 }).setSel 3
  let s := (s.raise F.TMK_INT_STAT_holdover).life 39
  let s := if 1 ≤ s.servo ∧ s.servo ≤ 3 then s.setServo 4 else s
  (s.showStatus.refEvent 0).flushSoon

/-- A bridge to `q` begins; `lost` is the reference that was lost (R67). -/
def State.bridge (s : State) (q : Nat) (lost : Option Nat) : State :=
  (s.holdPhase.modTmk fun t => { t with
    target := some q, lost := lost, lostGood := 0
    lostOff := match lost with | some p => ((nth t.ports p {}).offsets.head?).getD 0 | none => 0 }).setSel 2

/-- What the selection does in TRACK on reference `p` (R66, R67). A candidate that is already QUALIFIED and becomes the better one, by
its Announce, a priority written or revertive set, starts a bridge as one that becomes QUALIFIED does (assumption 79). -/
def State.selectTrack (s : State) (p : Nat) : State :=
  if s.forcedHold then s.enterHoldover
  else if s.candState p = 0 then
    match s.bestCandidate with
    | some q => s.bridge q (some p)
    | none => s.enterHoldover
  else if !s.forceAllows p then
    match s.bestCandidate with
    | some q => s.bridge q none
    | none => s.enterHoldover
  else match s.bestCandidate with
    | some q => if s.flag F.TMK_REFSEL_CFG_revertive && q != p && s.better q p then s.bridge q none else s
    | none => s

/-- What the selection does in a bridge to `q`: a target that is disqualified gives way to the best candidate (R67). -/
def State.selectBridge (s : State) (q : Nat) : State :=
  if s.forcedHold then s.enterHoldover
  else if s.candState q != 0 && s.forceAllows q then s
  else match s.bestCandidate with
    | some q' => s.modTmk fun t => { t with target := some q' }
    | none => s.enterHoldover

/-- The selection looks at its candidates again (R66, R67). -/
def State.select (s : State) : State :=
  let s :=
    if !s.tmkEnabled then s
    else match s.selState, s.tmk.sel, s.tmk.target with
      | 1, some p, _ => s.selectTrack p
      | 2, _, some q => s.selectBridge q
      | 0, _, _ =>
        if s.forcedHold then s.enterHoldover else match s.bestCandidate with | some q => s.track q | none => s
      | 3, _, _ => if s.forcedHold then s else match s.bestCandidate with | some q => s.track q | none => s
      | _, _, _ => s
  s.showStatus

/-- The conditions of a candidate are judged again: one that holds leaves DISQUALIFIED for QUALIFYING, one that fails is
DISQUALIFIED (R64). -/
def State.judgeCand (s : State) (p : Nat) : State :=
  if s.candOk p then (if s.candState p = 0 then s.setCand p 1 else s) else s.setCand p 0

/-- The candidates are judged and the selection follows. -/
def State.reassess (s : State) : State := (((s.judgeCand 0).judgeCand 1).judgeCand 2).select

/-! ## A servo update (R59, R62) -/

/-- Wall time steps back by `off`, and the stamps held move with it (assumption 17). -/
def State.stepWall (s : State) (off : Int) : State :=
  let back (t : Nat) : Nat := s.foldTime ((t : Int) - off)
  let s := s.setWall (back s.wall)
  let s := s.modTmk fun t => { t with ports := t.ports.map fun p => { p with
    wait := p.wait.map fun w => (w.1, back w.2.1, w.2.2)
    req := p.req.map fun r => (r.1, back r.2), t34 := p.t34.map fun r => (back r.1, r.2.1, r.2.2)
    offsets := p.offsets.map (· - off) } }
  let s := s.modNet fun t => { t with
    busy := t.busy.map back, txq := t.txq.map fun x => (x.1, { x.2 with at_ := back x.2.at_ })
    maxWas := t.maxWas.map fun x => (x.1, back x.2.1, x.2.2) }
  (s.holdPhase.lower F.TMK_STATUS_step_pending).wallStepped (-off / 1024)

/-- The step threshold 2^n ns, in fraction steps (R62). -/
def State.stepFar (s : State) : Nat := ns * 2 ^ s.fld F.TMK_SERVO_CFG_step_log2

/-- The offset is one that ACQUIRE and PULL remove by a step where they may (R62); after a reference switch, and after a write to a
latency or asymmetry, it is slewed away whatever its size (R56, R81). -/
def State.offsetFar (s : State) (off : Int) : Bool :=
  (s.servo == 1 || s.servo == 2) && s.stepFar < off.natAbs && !s.pll.noStep

/-- In ACQUIRE or PULL an offset beyond 2^n ns is stepped away, or waits; step_pending ends when it falls below (R62). -/
def State.stepIfFar (s : State) (off : Int) : State :=
  if s.offsetFar off then
    if !s.anyStarted || s.flag F.TMK_SERVO_CFG_step_allowed then s.stepWall off
    else (s.raise F.TMK_INT_STAT_step_needed).raise F.TMK_STATUS_step_pending
  else if off.natAbs < s.stepFar then s.lower F.TMK_STATUS_step_pending
  else s

/-- What a servo update does to the time PLL, for the offset `off` that remains (R58, R61): ACQUIRE steers the frequency, and slews an
offset that it may not step; PULL and LOCKED also take the phase towards the reference. With synchronous Ethernet the frequency
is the recovered clock's and the servo steers phase only. The word is kept within half the nominal frequency, and the rate below
one half, so that no slew reverses or repeats a time. -/
def State.steerPll (s : State) (off : Int) (offs : List Int) : State :=
  let synce := s.fld F.TMK_STATUS_freq_src = 1
  let slews := s.servo = 2 ∨ s.servo = 3 ∨ (s.servo = 1 ∧ s.stepFar < off.natAbs)
  s.modPll fun l => { l with
    word := if synce then l.word else satS 48 (Config.oscillatorWord offs l.word)
    slew := if slews then off else 0
    rate := if slews then min (Config.slewRate offs) 499999999 else 0 }

/-- PULL: the filtered offset has been within 0.5 ns since `t`, 2 s ago or more (R59). -/
def State.pullUpdate (s : State) (filt : Int) : State :=
  if filt.natAbs ≤ 32768 then
    let t := s.tmk.pullSince.getD s.clock
    if t + 2000000000 ≤ s.clock then s.setServo 3 else s.modTmk fun k => { k with pullSince := some t }
  else s.modTmk fun k => { k with pullSince := none }

/-- LOCKED: 8 updates in a row above 5.0 ns (R59). -/
def State.lockedUpdate (s : State) (filt : Int) : State :=
  if 327680 < filt.natAbs then
    if 8 ≤ s.tmk.exceeds + 1 then s.setServo 2 else s.modTmk fun k => { k with exceeds := k.exceeds + 1 }
  else
    let s := s.modTmk fun k => { k with exceeds := 0 }
    if filt.natAbs ≤ 32768 then s.modPll fun l => { l with noStep := false } else s

/-- ACQUIRE: 16 updates have measured a frequency error below 50 × 10^−9 (R59). -/
def State.acquireUpdate (s : State) (offs : List Int) : State :=
  if 16 ≤ s.tmk.updates + 1 ∧ Config.freqError offs < 50000 then s.setServo 2 else s.modTmk fun k => { k with updates := k.updates + 1 }

/-- The servo runs once for an offset of the selected reference (R58, R59). -/
def State.servoUpdate (s : State) (p : Nat) : State :=
  let off := ((s.tport p).offsets.head?).getD 0
  let s := s.stepIfFar off
  let offs := (s.tport p).offsets
  let filt := Config.filteredOffset offs
  let s := (s.setReg Reg.TMK_OFFSET (BitVec.ofInt 32 (satS 32 filt))).pmc 18 64 0
  let s := if 65536 < filt.natAbs then s.pmc 18 65 0 else s
  let s := if s.servo = 3 then s.extreme 6 (satS 32 filt).natAbs (s.fld F.TMK_STATUS_sel_ref) else s
  let s := s.steerPll (offs.headD 0) offs
  (match s.servo with
    | 1 => s.acquireUpdate offs
    | 2 => s.pullUpdate filt
    | 3 => s.lockedUpdate filt
    | _ => s).showStatus

/-! ## The exchange (R55) -/

/-- The lost reference of a bridge is valid again after 4 updates in a row within 50 ns of its last offset (R67, R69), where it may
still be selected (R66). -/
def State.lostUpdate (s : State) (p : Nat) (off : Int) : State :=
  if s.selState = 2 ∧ s.tmk.lost = some p ∧ s.forceAllows p then
    if (off - s.tmk.lostOff).natAbs ≤ 50 * 65536 then
      if 4 ≤ s.tmk.lostGood + 1 then
        let s := s.incFld F.TMK_REFSEL_CNT_abandons
        let s := (s.modTmk fun t => { t with target := none, lost := none, lostGood := 0 }).setSel 1
        (s.setCand p 3).showStatus
      else s.modTmk fun t => { t with lostGood := t.lostGood + 1 }
    else s.modTmk fun t => { t with lostGood := 0 }
  else s

/-- The offset of port `p` (R55) from the raw stamp of t2, t1, the correction field of the Sync and the last Delay_Req exchange:
every stamp is corrected with the latencies of this moment, so that the offset uses one set of the three values (R56). -/
def State.offsetOf (s : State) (p raw2 t1 : Nat) (corr : Int) (x : Nat × Nat × Int) : Int :=
  let t12 := s.wallDiff (s.ingressStamp p raw2) t1 - corr
  let t34 := s.wallDiff x.2.1 (s.egressStamp p x.1) - x.2.2
  t12 - rneI (t12 + t34) 2 - s.sfld (F.TMK_CAL_ASYM_value p)

/-- A candidate whose offsets spread beyond 20 ns is no longer QUALIFIED; the reference that is followed stays SELECTED, since R67
leaves it on disqualification only (R64; assumption 80). -/
def State.judgeSpread (s : State) (p : Nat) : State :=
  if s.candState p = 2 ∧ !spreadOk (s.tport p).offsets then s.setCand p 1 else s

/-- A complete exchange of port `p` gives an offset, and what follows from it (R55, R59, R64, R67). -/
def State.takeOffset (s : State) (p raw2 t1 : Nat) (corr : Int) : State :=
  match (s.tport p).t34 with
  | none => s
  | some x =>
    let off := s.offsetOf p raw2 t1 corr x
    let s := s.modTport p fun t => { t with offsets := (off :: t.offsets).take 16 }
    let s := (s.judgeSpread p).lostUpdate p off
    if s.selState = 1 ∧ s.tmk.sel = some p then s.servoUpdate p else s

/-- A PTP message reaches the Timekeeper: dropped and counted while stamp calibration is pending (R50), used and counted otherwise
(R87). A message of a domain that is not served does not reach it (R93). -/
def State.ptpTake (s : State) (p domain : Nat) (k : State → State) : State :=
  if !(p < 3 && s.servesDomain p domain && s.netLink p) then s
  else if !s.stamping p then s.bump 3 18 p
  else k (s.bump 3 17 p)

/-- SYNC (R45, R46, R55): `stamp` is the raw ingress stamp. -/
def execSync (p : Nat) (m : PtpMsg) (stamp : Nat) (s : State) : Result :=
  if m.log < -7 ∨ 1 < m.log then
    done (if p < 3 ∧ s.servesDomain p m.domain ∧ s.netLink p then
      ((s.bump 3 18 p).modTport p fun t => { t with badSync := true }).reassess else s)
  else done (s.ptpTake p m.domain fun s =>
    if s.slaveCapable p && m.domain == s.fld F.TMK_PTP_CFG_domain then
      let s := (s.reach (s.ingressStamp p stamp)).modTport p fun t => { t with
        syncOk := true, badSync := false, wait := if m.twoStep then some (m.seq, stamp, m.corr) else none }
      let s := s.reassess
      if m.twoStep then s else s.takeOffset p stamp m.time m.corr
    else s)

/-- FOLLOW_UP (R45, R55): the origin time of the two-step Sync with the same sequence number. -/
def execFollowUp (p : Nat) (m : PtpMsg) (s : State) : Result :=
  done (s.ptpTake p m.domain fun s =>
    match (s.tport p).wait with
    | some (n, raw2, c) =>
      if n = m.seq ∧ s.slaveCapable p ∧ m.domain = s.fld F.TMK_PTP_CFG_domain then
        (s.modTport p fun t => { t with wait := none }).takeOffset p raw2 m.time (c + m.corr)
      else s
    | none => s)

/-- DELAY_RESP (R55): completes the exchange of the Delay_Req with the same sequence number. -/
def execDelayResp (p : Nat) (m : PtpMsg) (s : State) : Result :=
  done (s.ptpTake p m.domain fun s =>
    match (s.tport p).req with
    | some (n, raw3) =>
      if n = m.seq ∧ s.slaveCapable p ∧ m.domain = s.fld F.TMK_PTP_CFG_domain then
        s.modTport p fun t => { t with req := none, t34 := some (raw3, m.time, m.corr) }
      else s
    | none => s)

/-- ANNOUNCE (R46, R47, R64, R65). -/
def execAnnounce (p : Nat) (a : Announce) (s : State) : Result :=
  if a.log < -3 ∨ 3 < a.log then
    done (if p < 3 ∧ s.servesDomain p a.domain ∧ s.netLink p then
      ((s.bump 3 18 p).modTport p fun t => { t with badAnn := true }).reassess else s)
  else done (s.ptpTake p a.domain fun s =>
    if s.slaveCapable p && a.domain == s.fld F.TMK_PTP_CFG_domain then
      (s.modTport p fun t => { t with ann := some a, annOk := true, badAnn := false }).reassess
    else s)

/-! ## Time-driven events -/

/-- ANNOUNCE_TIMEOUT (R64). -/
def execAnnounceTimeout (p : Nat) (s : State) : Result := done (s.modTport p fun t => { t with annOk := false }).reassess

/-- SYNC_TIMEOUT (R64, R67). -/
def execSyncTimeout (p : Nat) (s : State) : Result := done (s.modTport p fun t => { t with syncOk := false }).reassess

/-- CANDIDATE_QUALIFIED (R64, R67): the conditions have held for 2 s without a break, and the spread is small. -/
def execCandidateQualified (p : Nat) (s : State) : Result :=
  if p < 3 ∧ s.candState p = 1 ∧ spreadOk (s.tport p).offsets then done (s.setCand p 2).select else done s

/-- The former reference becomes a new candidate (R68). -/
def State.demote (s : State) (p : Nat) : State := if s.candState p = 0 then s else s.setCand p 1

/-- BRIDGE_COMMIT (R67, R68): the settle window ends; the phase is then pulled by slewing, without a step (R81). -/
def execBridgeCommit (s : State) : Result :=
  match s.selState, s.tmk.target with
  | 2, some q =>
    let s := match s.tmk.sel with | some p => if p = q then s else s.demote p | none => s
    let s := ((s.modTmk fun t => { t with sel := some q, target := none, lost := none, lostGood := 0, synceLost := false }).setCand q 3).setSel 1
    let s := ((s.servoFollow.modPll fun l => { l with noStep := true }).incFld F.TMK_REFSEL_CNT_switches).raise F.TMK_INT_STAT_ref_switch
    done ((s.life 38).showStatus.refEvent 1)
  | _, _ => done s

/-- LANE_SKEW_MEASURED (R50, R84): stamps are taken from now on, with the skew in their correction. -/
def execLaneSkewMeasured (p : Nat) (skew : Int) (s : State) : Result :=
  if p < 2 ∧ s.netLink p then
    done ((s.modTport p fun t => { t with skew := skew }).raise ⟨Reg.NET_PORT_STATUS, 4 * p + 2, 1⟩).reassess
  else done s

/-- PPS_EDGE (R57): the whole second `sec` of wall time comes, unless it lies behind; the pulse lasts 1 ms. -/
def execPpsEdge (sec : Nat) (s : State) : Result :=
  let t := second * sec
  if s.later s.wall t then done s
  else
    let s := s.reach t
    if s.flag F.TMK_CFG_pps_en then
      done ((s.modTmk fun k => { k with pps := some t }).emit (.pulse "TIME_PPS_OUT" t (s.foldTime (t + 1000000 * ns : Nat))))
    else done s

/-! ## The transmit time-stamp queue (R73 to R76) -/

/-- How many entries at the end of the queue have their stamp in the 1 ns cycle `c` of the time PLL. -/
def State.tsqShared (s : State) (c : Nat) : Nat := (s.tmk.tsq.reverse.takeWhile fun e => e.stamp / ns == c).length

/-- An entry joins the queue: behind the others, but among those of its own cycle by rotating priority, the port after the last one
to win in such a cycle first (R73). -/
def State.tsqAdd (s : State) (e : TsEntry) : State :=
  let c := e.stamp / ns
  let n := s.tsqShared c
  if n = 0 then s.modTmk fun t => { t with tsq := t.tsq ++ [e] }
  else
    let base := match s.tmk.tsqCycle with | some (c', b) => if c' = c then b else s.tmk.tsqWon | none => s.tmk.tsqWon
    let turn (x : TsEntry) : Nat := (x.port + 2 - base) % 3
    let keep := s.tmk.tsq.take (s.tmk.tsq.length - n)
    let run := s.tmk.tsq.drop (s.tmk.tsq.length - n)
    let run := run.takeWhile (fun x => turn x ≤ turn e) ++ [e] ++ run.dropWhile (fun x => turn x ≤ turn e)
    s.modTmk fun t => { t with tsq := keep ++ run, tsqWon := (run.head?.map (·.port)).getD base, tsqCycle := some (c, base) }

/-- A corrected egress stamp is queued, or discarded when 64 wait (R73, R75). -/
def State.tsqPush (s : State) (ident port stamp : Nat) : State :=
  if 64 ≤ s.tmk.tsq.length then
    ((s.incFld F.TMK_TSQ_OVF_ovf_count).raise F.TMK_TSQ_STATUS_overflow).raise F.TMK_INT_STAT_tsq_overflow
  else
    let s := s.tsqAdd ⟨ident, port, stamp⟩
    (s.setFld F.TMK_TSQ_STATUS_count s.tmk.tsq.length).pmc 18 66 0

/-- The head entry, as TMK_TSQ_W0 to W3 read it (R76). -/
def State.tsqHead (s : State) : List Nat :=
  match s.tmk.tsq with
  | e :: _ =>
    let w := wallWords s.wrap e.stamp
    [nth w 0 0 + 2 ^ 16 * e.ident, nth w 1 0, nth w 2 0, nth w 3 0 + 2 ^ 16 * e.port + 2 ^ 31]
  | [] => [0, 0, 0, 0]

/-- A write of TMK_TSQ_POP (R76). -/
def State.tsqPop (s : State) (w : Word) : State :=
  if fieldOf F.TMK_TSQ_POP_pop w = 1 then
    let s := s.modTmk fun t => { t with tsq := t.tsq.drop 1 }
    s.setFld F.TMK_TSQ_STATUS_count s.tmk.tsq.length
  else s

/-- TSQ_POP (R76). -/
def execTsqPop (ini : Nat) (w : Word) (s : State) : Result :=
  done (s.setupAccess ini Reg.TMK_TSQ_POP true fun s => s.tsqPop w)

/-! ## TMK_CFG (R59, R67) -/

/-- A TMK write that is discarded whole. -/
def State.tmkRefused (s : State) : State := s.raise F.TMK_INT_STAT_cfg_refused

/-- The Timekeeper is switched off: the servo and the selection go to FREE (R59, R67). -/
def State.tmkStop (s : State) : State :=
  let s := (s.unselect.modTmk fun t => { t with
    sel := none, target := none, lost := none, lostGood := 0
    ports := t.ports.map fun p => { p with annOk := false, syncOk := false, wait := none, req := none, offsets := [] } }).setSel 0
  (((s.setServo 0).judgeCand 0).judgeCand 1).judgeCand 2

/-- A write of TMK_CFG: osc_src 2 and 3, and a change of wrap_mode outside FREE, are refused. -/
def State.tmkCfgWrite (s : State) (w : Word) : State :=
  if 2 ≤ fieldOf F.TMK_CFG_osc_src w ∨ (fieldOf F.TMK_CFG_wrap_mode w ≠ s.fld F.TMK_CFG_wrap_mode ∧ s.servo ≠ 0) then s.tmkRefused
  else
    let was := s.tmkEnabled
    let s := s.setReg Reg.TMK_CFG (w &&& 0x1F)
    let s := s.setWall (s.foldTime s.wall)
    let s := if was && !s.tmkEnabled then s.tmkStop else s
    s.reassess

/-- TMK_CFG_WRITE (R59). -/
def execTmkCfgWrite (ini : Nat) (w : Word) (s : State) : Result :=
  done (s.setupAccess ini Reg.TMK_CFG true fun s => s.tmkCfgWrite w)

/-- EXT_INPUT_QUALIFIED (R70): continuous edges in tolerance for 2 s. While a change away from it is under way it requalifies from the
start (R399). -/
def execExtInputQualified (s : State) : Result :=
  if !s.powered 26 || (s.fld F.TMK_CLK_STATUS_ref_input == 1 && s.fld F.TMK_REFSEL_STATUS_ext_state < 2) then done s else
  let s := s.raise F.TMK_CLK_STATUS_ext_present
  if s.fld F.TMK_REFSEL_STATUS_ext_state < 2 then done (s.setFld F.TMK_REFSEL_STATUS_ext_state 2) else done s

/-! ## The time PLL (R401) -/

/-- The time PLL is unlocked: flagged, and condition 0 of R263 fails. -/
def State.timeUnlock (s : State) : State :=
  if s.flag F.TMK_CLK_STATUS_time_locked then ((s.lower F.TMK_CLK_STATUS_time_locked).raise F.TMK_CLK_INT_STAT_time_unlock).judgeHealth
  else s

/-- The time PLL counts as unlocked while it takes a reference PLL in hold. -/
def State.timeInput (s : State) : State := if s.flag F.TMK_CLK_STATUS_ref_hold && !s.synceOn then s.timeUnlock else s

end Sys2Proof.Machine
end

