-- ==== Sys2Proof/Machine/Steering.lean ====
section
/-! DEFINITION. Steering: rules, groups and the default (R92 to R97), and the commands that set them (R96, R123, R124). -/

namespace Sys2Proof.Machine

/-! ## Rule and group blocks (R124) -/

def blkV6 (b : List Byte) : Bool := (le b 34 2).testBit 13
def blkDst (b : List Byte) : List Byte := b.take (if blkV6 b then 16 else 4)
def blkSrc (b : List Byte) : List Byte := sliceB b 16 (if blkV6 b then 16 else 4)
def blkAnySrc (b : List Byte) : Bool := sliceB b 16 16 == zeros 16
def blkPort (b : List Byte) : Nat := le b 32 2
def blkVlan (b : List Byte) : Option Nat := if (le b 34 2).testBit 12 then some (le b 34 2 % 4096) else none
def blkPorts (b : List Byte) : Nat := byteAt b 36 % 8
def blkValid (b : List Byte) : Bool := (byteAt b 57).testBit 0
def blkDrop (b : List Byte) : Bool := (byteAt b 57).testBit 1
def blkRtp (b : List Byte) : Bool := (byteAt b 57).testBit 2
def blkEn (b : List Byte) (i : Nat) : Bool := (byteAt b 53).testBit i
/-- The destination set: queues 0 to 15, slices 16 to 19. R92 counts three queues of fixed use in its text and two in its table; the
table is followed, and a mask may name RXQ0 and RXQ1 too, since R124 gives the mask a bit for each and no range (assumption 81). -/
def blkDests (b : List Byte) : List Nat :=
  (List.range 16).filter (le b 54 2).testBit ++ ((List.range 4).filter (byteAt b 56).testBit).map (16 + ·)
def blkStream (b : List Byte) : Nat := byteAt b 56 / 16

/-- With ipv6 at 0 the upper address bytes are 0; a rule's prefix is no longer than the address (R124). -/
def blkGood (rule : Bool) (b : List Byte) : Bool :=
  (blkV6 b || (sliceB b 4 12 == zeros 12 && sliceB b 20 12 == zeros 12)) &&
    (!rule || byteAt b 37 ≤ (if blkV6 b then 128 else 32))

/-- A frame of port `p` passes an ingress port mask; 0 matches every port (R124). -/
def portMatch (m p : Nat) : Bool := m == 0 || m.testBit p

/-! ## Matching -/

/-- The first `n` bits of two byte strings agree. -/
def prefixEq (n : Nat) (a b : List Byte) : Bool := beNat a >>> (8 * a.length - n) == beNat b >>> (8 * b.length - n)

/-- A masked MAC address agrees. -/
def macMatch (a b m : List Byte) : Bool := ((a.zip b).zip m).all fun x => (x.1.1 &&& x.2) == (x.1.2 &&& x.2)

/-- A valid rule matches a frame (R94). It uses all fields of its block (R124), so a source address that is not "any" must agree
too (assumption 20). -/
def ruleMatches (b f : List Byte) (h : Headers) (p : Nat) : Bool :=
  blkValid b && portMatch (blkPorts b) p && (blkAnySrc b || h.ipSrc == blkSrc b) &&
    (!blkEn b 0 || macMatch (f.take 6) (sliceB b 40 6) (sliceB b 46 6)) &&
    (!blkEn b 1 || h.etype == le b 38 2) &&
    ((blkVlan b).isNone || h.vid == blkVlan b) &&
    (!blkEn b 2 || (h.ipDst.length == (blkDst b).length && prefixEq (byteAt b 37) h.ipDst (blkDst b))) &&
    (!blkEn b 3 || h.proto == some (byteAt b 52)) &&
    (!blkEn b 4 || blkPort b == 0 || h.dport == some (blkPort b))

/-- A valid group's key agrees with a frame (R95). -/
def groupMatches (b : List Byte) (h : Headers) (p : Nat) : Bool :=
  blkValid b && h.ipDst == blkDst b && (blkAnySrc b || h.ipSrc == blkSrc b) &&
    (blkPort b == 0 || h.dport == some (blkPort b)) && ((blkVlan b).isNone || h.vid == blkVlan b) && portMatch (blkPorts b) p

/-- The order of R95 among groups that match: the lower list wins. -/
def groupRank (n : Nat) (b : List Byte) : List Nat :=
  [b2n (blkAnySrc b), b2n (blkPort b == 0), b2n (blkVlan b).isNone, if blkPorts b = 0 then 3 else popCount 3 (blkPorts b), n]

/-- The group that receives a frame. -/
def State.winningGroup (s : State) (h : Headers) (p : Nat) : Option (Nat × List Byte) :=
  (s.net.groups.filter fun g => groupMatches g.2 h p).foldl
    (fun best g => match best with
      | none => some g
      | some x => if lexLt (groupRank g.1 g.2) (groupRank x.1 x.2) then some g else some x) none

/-- The first valid rule that matches. -/
def State.firstRule (s : State) (f : List Byte) (h : Headers) (p : Nat) : Option (Nat × List Byte) :=
  (List.range 64).findSome? fun n =>
    match s.net.rules.find? (fun r => r.1 == n) with
    | some r => if ruleMatches r.2 f h p then some r else none
    | none => none

/-! ## The decision (R93) -/

/-- Where a frame goes. -/
inductive Steer where
  /-- Dropped: rx_no_match. -/
  | drop
  /-- To the Timekeeper: a message it handles itself, or a peer delay message that it drops (R45). -/
  | timekeeper (peer : Bool)
  /-- To a destination set: the kind and number of the match, the set, the stream, and whether it is to be parsed as RTP. -/
  | to (mtch num : Nat) (dests : List Nat) (stream : Nat) (rtp : Bool)
  deriving DecidableEq, Repr

/-- A PTP message: the transport it came by and its offset (R93). -/
def ptpMessage (h : Headers) : Option (Nat × Nat) :=
  if h.etype = 0x88F7 then some (2, h.l3)
  else match h.dport, h.udp with
    | some d, some u => if d = 319 ∨ d = 320 then some (if h.ipDst.length = 16 then 1 else 0, u.1) else none
    | _, _ => none

/-- A group's or a rule's destination set: its drop bit, which R124 marks for groups too, and an empty set drop the frame (R93;
assumption 83). -/
def steerBlock (mtch : Nat) (x : Nat × List Byte) : Steer :=
  if blkDrop x.2 || (blkDests x.2).isEmpty then .drop else .to mtch x.1 (blkDests x.2) (blkStream x.2) (blkRtp x.2)

/-- Steps 4 to 6 of R93. -/
def State.steerByTables (s : State) (f : List Byte) (h : Headers) (p : Nat) : Steer :=
  match (if h.multicast then s.winningGroup h p else none), s.firstRule f h p with
  | some g, _ => steerBlock 2 g
  | none, some r => steerBlock 1 r
  | none, none =>
    if s.flag F.NET_STEER_CFG_default_drop then .drop else .to 0 0 [s.fld F.NET_STEER_CFG_default_q] 0 false

/-- The whole order of R93 (assumption 21: a peer delay message goes to the Timekeeper, which drops it under R45). -/
def State.steer (s : State) (f : List Byte) (h : Headers) (p : Nat) : Steer :=
  let q1 : Steer := .to 0 0 [1] 0 false
  if h.unparsed then .to 0 0 [0] 0 false
  else match ptpMessage h with
    | some (transport, o) =>
      let type := byteAt f o % 16
      let served := s.servesDomain p (byteAt f (o + 4))
      if served && transport == s.fld F.TMK_PTP_CFG_transport then
        if [0, 1, 8, 9, 11].contains type then .timekeeper false
        else if [2, 3, 10].contains type then .timekeeper true
        else q1
      else if !served || type == 12 || type == 13 then q1
      else s.steerByTables f h p
    | none => if h.etype = 0x8809 ∨ h.etype = 0x888E then q1 else s.steerByTables f h p

/-! ## Commands of ring 0x38 (R123) -/

/-- A field out of range: word 1 of a Network command holds no offset (R123). -/
def netFormat : Cpl := { status := Status.formatError }

/-- A change of the tables is in force, and its command completes with `c` once every frame steered before it has been handed to its
destinations: at once where none waits (R97). -/
def State.settleChange (s : State) (slot : Nat) (c : Cpl) : Option Cpl × State :=
  if s.net.rx.isEmpty then (some c, s)
  else (none, s.modNet fun n => { n with settling := n.settling ++ [(slot, c, n.rxSeq)] })

/-- The commands whose frames have all been handed over complete (R97). -/
def State.settled (s : State) : State :=
  let handed (x : Nat × Cpl × Nat) : Bool := s.net.rx.all fun r => x.2.2 ≤ r.seq
  let ready := s.net.settling.filter handed
  ready.foldl (fun s x => s.finish 0x38 x.1 x.2.1) (s.modNet fun n => { n with settling := n.settling.filter fun x => !handed x })

/-- RULE_WRITE (R94, R97, R124). -/
def execRuleWrite (s : State) : Result :=
  done (s.takeCommand 0x38 0x01 fun slot desc s =>
    if 63 < byteAt desc 2 then (some netFormat, s)
    else s.withBlock 0x38 desc fun b s =>
      if !blkGood true b then (some netFormat, s)
      else (s.modNet fun n => { n with rules := Sparse.put n.rules (byteAt desc 2) b }).settleChange slot okCpl)

/-- The key of a group (R95). Ingress port masks of 0 and of 7 match the same ports and make different keys (assumption 84). -/
def groupKey (b : List Byte) : List Byte × List Byte × Nat × Option Nat × Bool × Nat :=
  (blkDst b, blkSrc b, blkPort b, blkVlan b, blkV6 b, blkPorts b)

def State.groupByKey (s : State) (b : List Byte) : Option Nat :=
  (s.net.groups.find? fun g => groupKey g.2 == groupKey b).map (·.1)

/-- The lowest group number that no valid group has (R96): a group written with valid = 0 keeps its number until it is needed
(assumption 85). -/
def State.freeGroup (s : State) : Option Nat := (List.range 256).find? fun n => !(s.net.groups.any fun g => g.1 == n && blkValid g.2)

/-- Group `n` takes the block `b`. -/
def State.putGroup (s : State) (n : Nat) (b : List Byte) : State := s.modNet fun t => { t with groups := Sparse.put t.groups n b }

/-- GROUP_ADD (R96, R97, R123): word 1 holds the group number. -/
def execGroupAdd (s : State) : Result :=
  done (s.takeCommand 0x38 0x02 fun slot desc s => s.withBlock 0x38 desc fun b s =>
    if !blkGood false b then (some netFormat, s)
    else match s.groupByKey b, s.freeGroup with
      | some n, _ => (s.putGroup n b).settleChange slot { status := Status.ok, w1 := n }
      | none, some n => (s.putGroup n b).settleChange slot { status := Status.ok, w1 := n }
      | none, none => (some { status := Status.tableFull }, s))

/-- GROUP_DELETE (R96, R97, R124): only bytes 0 to 36 are read. -/
def execGroupDelete (s : State) : Result :=
  done (s.takeCommand 0x38 0x03 fun slot desc s => s.withBlock 0x38 desc (len := 37) fun b s =>
    if !blkGood false b then (some netFormat, s)
    else match s.groupByKey b with
      | some n => (s.modNet fun t => { t with groups := Sparse.del t.groups n }).settleChange slot okCpl
      | none => (some { status := Status.notFound }, s))

end Sys2Proof.Machine
end

