-- ==== Sys2Proof/Machine/Macsec.lean ====
section
/-! DEFINITION. MACsec on U0 and U1 (R117 to R122): protection, verification, replay, and the SA commands. -/

namespace Sys2Proof.Machine

def State.macsecOn (s : State) (p : Nat) : Bool := p < 2 && s.flag (F.NET_PORT_CFG_macsec_en p)

/-- An EtherType that passes without protection (R118). -/
def State.macsecBypass (s : State) (p et : Nat) : Bool :=
  et == 0x888E || (et == 0x88F7 && s.flag (F.NET_PORT_CFG_ptp_bypass p))

/-- The port's MAC address as it stands on the wire. -/
def State.portMac (s : State) (p : Nat) : List Byte :=
  natLE 4 (s.regN (Reg.NET_PORT_MAC_LO p)) ++ natLE 2 (s.fld (F.NET_PORT_MAC_HI_mac_hi p))

/-- The nonce of GCM-AES-XPN: the salt with the SSCI and the packet number (R117). -/
def xpnNonce (a : NetSa) (pn : Nat) : List Byte := Crypto.xorB a.salt (natBE 4 a.ssci ++ natBE 8 pn)

/-! ## Reception (R118) -/

/-- The packet number whose low word is `lo`: the one nearest above the lowest acceptable (IEEE 802.1AE; assumption 22). -/
def recoverPn (lowest lo : Nat) : Nat :=
  let up := lowest / 2 ^ 32
  if 2 ^ 31 ≤ lowest % 2 ^ 32 ∧ lo < 2 ^ 31 then 2 ^ 32 * (up + 1) + lo else 2 ^ 32 * up + lo

/-- The receive SA of an SCI and AN on port `p`: the channel's number and the SA. -/
def State.rxSa (s : State) (p : Nat) (sci : List Byte) (an : Nat) : Option (Nat × NetSa) :=
  match s.net.rxCh.find? fun c => c.1 / 8 == p && c.2.sci == sci && !c.2.sas.isEmpty with
  | some c => (c.2.sas.find? fun a => a.1 == an).map fun a => (c.1, a.2)
  | none => none

/-- A receive SA takes a packet number: the next expected and the lowest acceptable move on. -/
def State.advanceRx (s : State) (ch an pn : Nat) (window : Nat) : State :=
  let adv (a : NetSa) : NetSa := { a with next := max a.next (pn + 1), lowest := max a.lowest (max a.next (pn + 1) - window) }
  s.modNet fun t => { t with rxCh := t.rxCh.map fun c =>
    if c.1 = ch then (c.1, { c.2 with sas := c.2.sas.map fun a => if a.1 = an then (an, adv a.2) else a }) else c }

/-- A frame with a SecTAG is verified and decrypted: its bytes without SecTAG and ICV, or none (R118). The tag carries the SCI, and
E is 1 (R117). -/
def State.macsecOpen (s : State) (p : Nat) (f : List Byte) : Option (List Byte) × State :=
  let tci := byteAt f 14
  let an := tci % 4
  let sl := byteAt f 15 % 64
  let body := f.drop 28
  let n := if sl = 0 then body.length - 16 else sl
  match (if tci.testBit 5 && tci.testBit 3 && !tci.testBit 7 && 16 + n ≤ body.length then s.rxSa p (sliceB f 20 8) an else none) with
  | none => (none, s)
  | some (ch, a) =>
    let pn := recoverPn a.lowest (be f 16 4)
    if pn < a.lowest then (none, s)
    else match Crypto.gcmOpen a.key (xpnNonce a pn) (f.take 28) (body.take n) (sliceB body n 16) with
      | some pt => (some (f.take 12 ++ pt), s.advanceRx ch an pn (s.regN (Reg.NET_MACSEC_REPLAY p)))
      | none => (none, s)

/-- Check 7 of R87: the frame that goes on to the parser, or none. -/
def State.macsecIn (s : State) (p : Nat) (f : List Byte) : Option (List Byte) × State :=
  if !s.macsecOn p then (some f, s)
  else if be f 12 2 = 0x88E5 then
    match s.macsecOpen p f with
    | (some g, s) => (some g, s.bump 3 28 p)
    | (none, s) => (none, s.bump 3 29 p)
  else if s.macsecBypass p (be f 12 2) then (some f, s)
  else (none, s.bump 3 29 p)

/-! ## Transmission (R117, R118, R122) -/

/-- The active transmit SA of port `p`. -/
def State.txActive (s : State) (p : Nat) : Option (Nat × NetSa) :=
  match s.net.active.find? fun x => x.1 == p with
  | some x => (s.net.txSa.find? fun a => a.1 == 4 * p + x.2).map fun a => (x.2, a.2)
  | none => none

/-- The SecTAG of packet `pn` (R117): TCI with SC, E and C, the AN, the short length, the packet number and the SCI. -/
def State.secTag (s : State) (p an pn len : Nat) : List Byte :=
  natBE 2 0x88E5 ++ natBE 1 (0x2C + an) ++ natBE 1 (if len < 48 then len else 0) ++ natBE 4 pn ++ s.portMac p ++ [0, 1]

/-- The next packet number has passed the threshold (R122). -/
def State.pnThreshold (s : State) (p next : Nat) : State :=
  if 2 ^ 32 * s.regN (Reg.NET_MACSEC_PN_THRESH p) < next then
    s.raise (if p = 0 then F.NET_INT_STAT_pn_threshold_u0 else F.NET_INT_STAT_pn_threshold_u1)
  else s

/-- The next packet number of the active transmit SA is held against the threshold (R122). -/
def State.pnCheck (s : State) (p : Nat) : State :=
  match s.txActive p with
  | some (_, a) => s.pnThreshold p a.next
  | none => s

/-- The active transmit SA of port `p` gives a frame its packet number: the AN, the SA before the frame, and the state after; none
when no SA can protect it (R118, R122). -/
def State.takePn (s : State) (p : Nat) : Option (Nat × NetSa) × State :=
  match s.txActive p with
  | none => (none, s)
  | some (an, a) =>
    if 2 ^ 64 ≤ a.next then (none, (s.bump 3 31 p).raise F.NET_INT_STAT_pn_exhausted)
    else
      let s := s.modNet fun t => { t with txSa := Sparse.put t.txSa (4 * p + an) { a with next := a.next + 1 } }
      (some (an, a), (s.bump 3 30 p).pnThreshold p (a.next + 1))

/-- What a frame of port `p` becomes on the wire: as it stands, protected, or none when no SA can protect it (R118, R122). -/
def State.macsecOut (s : State) (p : Nat) (f : List Byte) : Option (List Byte) × State :=
  if !s.macsecOn p || s.macsecBypass p (be f 12 2) then (some f, s)
  else match s.takePn p with
    | (none, s) => (none, s)
    | (some (an, a), s) =>
      let pt := f.drop 12
      let head := f.take 12 ++ s.secTag p an a.next pt.length
      let (ct, tag) := Crypto.gcmSeal a.key (xpnNonce a a.next) head pt
      (some (head ++ ct ++ tag), s)

/-! ## SA commands (R120, R121, R123) -/

/-- A field of an SA command is out of range; `ch` says whether byte 3 is read. -/
def saBad (desc : List Byte) (ch : Bool) : Bool :=
  !(byteAt desc 1 < 2 && byteAt desc 2 < 4 && (!ch || byteAt desc 3 / 8 % 16 == 0))

/-- The channel's SCI is new and eight channels of the port are in use: it would be a ninth (R121; assumption 23). -/
def State.ninthChannel (s : State) (p : Nat) (sci : List Byte) : Bool :=
  let used := s.net.rxCh.filter fun c => c.1 / 8 == p && !c.2.sas.isEmpty
  used.length == 8 && !(used.any fun c => c.2.sci == sci)

/-- An SA takes its place. A receive channel whose SCI is another one than before keeps the SAs of its other ANs, and a transmit SA
put in the place of the active one is used from the next frame on, also where the old one was exhausted (R121, R122;
assumptions 86 and 87). -/
def State.putSa (s : State) (p an byte3 : Nat) (sci : List Byte) (a : NetSa) : State :=
  if byte3.testBit 7 then
    let c := 8 * p + byte3 % 8
    s.modNet fun t =>
      let old := (Sparse.get (fun _ => ({} : NetChan)) t.rxCh c).sas
      { t with rxCh := Sparse.put t.rxCh c { sci := sci, sas := Sparse.put old an a } }
  else s.modNet fun t => { t with txSa := Sparse.put t.txSa (4 * p + an) a }

/-- SA_INSTALL (R120, R121, R124): the key is copied from a Keystore slot. The SCI and the salt are byte strings in the order of the
wire, the packet number and the SSCI numbers (assumption 88). -/
def execSaInstall (s : State) : Result :=
  done (s.takeCommand 0x38 0x04 fun _ desc s =>
    if saBad desc true then (some { status := Status.formatError }, s)
    else s.withBlock 0x38 desc fun b s =>
      let p := byteAt desc 1
      let rx := (byteAt desc 3).testBit 7
      if rx && s.ninthChannel p (b.take 8) then (some { status := Status.tableFull }, s)
      else match s.keyRequest p (byteAt desc 16) [1] [8 + p] with
        | (.key k, s) =>
          let pn := le b 8 8
          let a : NetSa := { key := k, salt := sliceB b 20 12, ssci := le b 16 4, next := pn, lowest := pn }
          (some okCpl, (s.putSa p (byteAt desc 2) (byteAt desc 3) (b.take 8) a).pnCheck p)
        | (.refused, s) => (some { status := Status.keyRefused }, s)
        | (.memoryError, s) => (some { status := Status.memoryError }, s))

/-- SA_ACTIVATE_TX (R121). -/
def execSaActivateTx (s : State) : Result :=
  done (s.takeCommand 0x38 0x05 fun _ desc s =>
    let p := byteAt desc 1
    let an := byteAt desc 2
    if saBad desc false then (some { status := Status.formatError }, s)
    else if s.net.txSa.any fun a => a.1 == 4 * p + an then
      (some okCpl, (s.modNet fun t => { t with active := Sparse.put t.active p an }).pnCheck p)
    else (some { status := Status.notFound }, s))

/-- An installed SA is removed; a transmit SA that was active leaves the port without one. -/
def State.dropSa (s : State) (p an byte3 : Nat) : State :=
  if byte3.testBit 7 then
    let c := 8 * p + byte3 % 8
    s.modNet fun t => { t with rxCh := t.rxCh.map fun x => if x.1 = c then (c, { x.2 with sas := Sparse.del x.2.sas an }) else x }
  else s.modNet fun t => { t with
    txSa := Sparse.del t.txSa (4 * p + an), active := t.active.filter fun x => !(x.1 == p && x.2 == an) }

/-- The SA that a command names is installed. -/
def State.hasSa (s : State) (p an byte3 : Nat) : Bool :=
  if byte3.testBit 7 then (Sparse.get (fun _ => ({} : NetChan)) s.net.rxCh (8 * p + byte3 % 8)).sas.any fun a => a.1 == an
  else s.net.txSa.any fun a => a.1 == 4 * p + an

/-- SA_DELETE (R123). -/
def execSaDelete (s : State) : Result :=
  done (s.takeCommand 0x38 0x06 fun _ desc s =>
    if saBad desc true then (some { status := Status.formatError }, s)
    else if s.hasSa (byteAt desc 1) (byteAt desc 2) (byteAt desc 3) then
      (some okCpl, s.dropSa (byteAt desc 1) (byteAt desc 2) (byteAt desc 3))
    else (some { status := Status.notFound }, s))

end Sys2Proof.Machine
end

