-- ==== Sys2Proof/Machine/Meter.lean ====
section
/-! DEFINITION. Energy metering (R427 to R450). A block's samples come as the decimated samples of the seven channels, in sQ1.23 after
the fixed delay of one sample, with the whole cycles they span and their duration in 2^−16 sample. -/

namespace Sys2Proof.Machine

/-! ## Roots -/

/-- The integer square root, by bits from the top. -/
def isqrtBits : Nat → Nat → Nat → Nat
  | 0, _, r => r
  | k + 1, n, r => let t := r + 2 ^ k; isqrtBits k n (if t * t ≤ n then t else r)

def isqrt (n : Nat) : Nat := isqrtBits (n.log2 / 2 + 1) n 0

/-- √(a / b) rounded to nearest, ties to even (R6). -/
def rootRne (a b : Nat) : Nat :=
  let r := isqrt (a / b)
  let half := (2 * r + 1) * (2 * r + 1) * b
  if half < 4 * a then r + 1 else if half = 4 * a then r + r % 2 else r

/-! ## Rates and calibration (R428, R431 to R433) -/

/-- f_mod / 31,250 (R430). -/
def State.decimation (s : State) : Nat := 160 * 2 ^ s.fld F.MTR_CFG_mod_rate

/-- The measured modulator rate in mHz, or its nominal value before the first measurement. -/
def State.fMod (s : State) : Nat := if s.mtr.fmod = 0 then 31250000 * s.decimation else s.mtr.fmod

/-- A register of the active calibration set. -/
def State.cal (s : State) (a : Nat) : Nat := (Sparse.get Reg.resetVal s.mtr.active a).toNat

/-- The registers of the shadow copy, in offset order (R433). -/
def shadowRegs : List Nat :=
  (List.range 7).flatMap (fun c => [Reg.MTR_CH_GAIN c, Reg.MTR_CH_SKEW c, Reg.MTR_CH_SCALE c]) ++
    (List.range 3).map Reg.MTR_PHCAL ++ [Reg.MTR_VNOM, Reg.MTR_DET_CFG]

/-- The delay of channel `c` in 2^−15 sample, before it is held to its range (R431). -/
def State.rawDelay (s : State) (c : Nat) : Int :=
  32768 + signed 16 (s.cal (Reg.MTR_CH_SKEW c)) +
    if 3 ≤ c ∧ c ≤ 5 then signed 16 (s.cal (Reg.MTR_PHCAL (c - 3))) else 0

def State.delayClamped (s : State) : Bool := (List.range 7).any fun c => s.rawDelay c < 0 || 65536 ≤ s.rawDelay c

/-- The calibrated samples of channel `c`: delay, then gain (R431). -/
def State.calibrated (s : State) (c : Nat) (x : List Int) : List Int :=
  let d := (max 0 (min 65535 (s.rawDelay c))).toNat
  let y := if d = 32768 then x else Config.interpolated x d
  y.map fun v => satS 24 (rneI (v * (bits (s.cal (Reg.MTR_CH_GAIN c)) 0 24 : Nat)) (2 ^ 23))

def State.scale (s : State) (c : Nat) : Nat := s.cal (Reg.MTR_CH_SCALE c)
def State.vnom (s : State) : Nat := s.cal Reg.MTR_VNOM

/-! ## What a block holds -/

def dot (a b : List Int) : Int := (a.zip b).foldl (fun t x => t + x.1 * x.2) 0

/-- The sum of squares of a channel in 2^−46 mV² or mA². -/
def State.sumSq (s : State) (x : List (List Int)) (c : Nat) : Nat :=
  let y := s.calibrated c (nth x c [])
  (dot y y).toNat * s.scale c * s.scale c

/-- The sums for P and Q of phase `p`, in 2^−46 µW · sample (R435). -/
def State.sumP (s : State) (x : List (List Int)) (p : Nat) : Int :=
  dot (s.calibrated p (nth x p [])) (s.calibrated (3 + p) (nth x (3 + p) [])) * (s.scale p * s.scale (3 + p) : Nat)
def State.sumQ (s : State) (x : List (List Int)) (p : Nat) : Int :=
  dot (Config.quadrature (s.calibrated p (nth x p []))) (s.calibrated (3 + p) (nth x (3 + p) [])) * (s.scale p * s.scale (3 + p) : Nat)

/-- The S of phase `p` times the block's duration, in 2^−46 µVA · sample: V_rms × I_rms × t_b. -/
def State.sumS (s : State) (x : List (List Int)) (p n dur : Nat) : Nat :=
  rootRne (s.sumSq x p * s.sumSq x (3 + p) * dur * dur) (2 ^ 32 * (n * n))

/-- A sum over samples as an accumulator's contribution, in 2^−32 of a milliwatt-hour: 3.6 J are 3.6 × 10^6 µJ (R436, R437). -/
def State.energy (s : State) (v : Nat) : Nat := rne (2 ^ 32 * (v * 4000 * s.decimation)) (2 ^ 46 * 3600000 * s.fMod)

/-! ## Accumulators (R436 to R438) -/

/-- Accumulator `k` of group `g` grows. -/
def State.accAdd (s : State) (g k v : Nat) : State :=
  s.modMtr fun m => { m with acc := m.acc.set (7 * g + k) (nth m.acc (7 * g + k) 0 + v) }

/-- One block's contributions to a group (R436). -/
def State.accGroup (s : State) (g : Nat) (p q : Int) (a : Nat) : State :=
  let s := s.accAdd g (if 0 ≤ p then 0 else 1) (s.energy p.natAbs)
  let s := if q = 0 then s
    else s.accAdd g (if 0 < q then (if 0 ≤ p then 2 else 3) else (if p < 0 then 4 else 5)) (s.energy q.natAbs)
  s.accAdd g 6 (s.energy a)

/-- The accumulators are restored from the Recorder's copy, or start at 0 (R438, R574). -/
def State.meterRestore (s : State) : State :=
  if s.mtr.restored || !s.powered 3 || !s.flag F.REC_STATUS_loaded then s
  else if s.recd.img.meterValid then
    s.modMtr fun m => { m with acc := s.recd.img.meterCopy.map Int.toNat, restored := true }
  else if !s.auditRoom then s.auditWait
  else ((s.modMtr fun m => { m with acc := List.replicate 28 0, restored := true }).raise F.MTR_INT_STAT_acc_restart).audit 0x0105 17 []

/-- The accumulators are handed to the Recorder (R438, R574). -/
def State.meterSave (s : State) : State :=
  if s.powered 3 && s.powered 11 && s.mtr.restored then
    s.modImg fun i => { i with meterCopy := s.mtr.acc.map Int.ofNat, meterValid := true }
  else s

/-- METER_SAVE (R438). -/
def execMeterSave (s : State) : Result := done s.meterSave

/-! ## Presence, frequency, sequence and neutral (R434, R440 to R442) -/

/-- A voltage channel is present: its rms is at least v_loss percent of VNOM. -/
def State.voltagePresent (s : State) (x : List (List Int)) (p n : Nat) : Bool :=
  2 ^ 46 * ((bits (s.cal Reg.MTR_DET_CFG) 0 8 * s.vnom) ^ 2) * n ≤ s.sumSq x p * 10000

/-- Presence and the reference channel of the next block. -/
def State.judgePresence (s : State) (x : List (List Int)) (n : Nat) : State :=
  let now := (List.range 3).foldl (fun a p => a + b2n (s.voltagePresent x p n) * 2 ^ p) 0
  let s := if now = s.fld F.MTR_STATUS_present then s else s.raise F.MTR_INT_STAT_phase_loss
  (s.setFld F.MTR_STATUS_present now).setFld F.MTR_STATUS_ref ((lowestBit 3 now).getD 3)

/-- The frequency of a block in mHz (R434). -/
def State.blockFreq (s : State) (cycles dur : Nat) : Nat := rne (65536 * (cycles * s.fMod)) (4 * s.decimation * dur)

/-- MTR_FREQ and freq_valid. -/
def State.judgeFreq (s : State) (f : Nat) : State :=
  let ok := 45000 ≤ f && f ≤ 66000 && s.fld F.MTR_STATUS_ref < 3
  let s := s.setReg Reg.MTR_FREQ (BitVec.ofNat 32 f)
  let s := if !ok && s.flag F.MTR_STATUS_freq_valid then s.raise F.MTR_INT_STAT_freq_invalid else s
  s.setFld F.MTR_STATUS_freq_valid (b2n ok)

/-- An angle in 2π/65,536 lies between two in degrees. -/
def angleIn (a lo hi : Nat) : Bool := 65536 * lo ≤ a * 360 && a * 360 ≤ 65536 * hi

/-- The sequence that a block shows (R440). -/
def State.blockSeq (s : State) (t : Nat × Nat) : Nat :=
  if s.fld F.MTR_STATUS_present ≠ 7 then 0
  else if angleIn t.1 90 150 && angleIn t.2 210 270 then 1
  else if angleIn t.1 210 270 && angleIn t.2 90 150 then 2
  else 0

/-- MTR_STATUS.seq follows after three blocks that agree (R440). -/
def State.judgeSeq (s : State) (v : Nat) : State :=
  if v = s.fld F.MTR_STATUS_seq then s.modMtr fun m => { m with seqRun := 0 }
  else
    let run := if v = s.mtr.seqNew then s.mtr.seqRun + 1 else 1
    if run < 3 then s.modMtr fun m => { m with seqNew := v, seqRun := run }
    else (((s.modMtr fun m => { m with seqNew := v, seqRun := 0 }).setFld F.MTR_STATUS_seq v).raise F.MTR_INT_STAT_seq_change).bump 12 5

/-- neutral_missing follows the displacement `v0` (mV) over three blocks (R442). -/
def State.judgeNeutral (s : State) (v0 : Nat) : State :=
  if !s.flag F.MTR_CFG_nd_en || s.fld F.MTR_STATUS_present ≠ 7 then s.modMtr fun m => { m with ndOver := 0, ndUnder := 0 }
  else
    let limit := bits (s.cal Reg.MTR_DET_CFG) 8 8 * s.vnom
    let exceeds := if limit < 100 * v0 then s.mtr.ndOver + 1 else 0
    let under := if 200 * v0 < limit then s.mtr.ndUnder + 1 else 0
    let s := s.modMtr fun m => { m with ndOver := exceeds, ndUnder := under }
    if 3 ≤ exceeds ∧ !s.flag F.MTR_STATUS_neutral_missing then
      ((s.raise F.MTR_STATUS_neutral_missing).raise F.MTR_INT_STAT_neutral).bump 12 6
    else if 3 ≤ under then s.lower F.MTR_STATUS_neutral_missing
    else s

/-! ## Harmonics and result rings (R439, R443 to R445) -/

/-- The words of a channel in a harmonic record: THD, then the orders (R439, R444). -/
def channelRecord (y : List Int) (cycles dur freq : Nat) : List Nat :=
  let orders : List (Option (Nat × Nat)) := (List.range 63).map fun i =>
    if 3800000 < (i + 1) * freq then none else some (Config.harmonic y cycles dur (i + 1))
  let amp (o : Option (Nat × Nat)) : Nat := match o with | some v => min v.1 65535 | none => 0
  let a1 : Nat := amp (nth orders 0 none)
  let sq : Nat := (orders.drop 1).foldl (fun t o => t + amp o ^ 2) 0
  let thd : Nat := bif a1 == 0 then 65535 else min 65535 (rootRne (2 ^ 24 * sq) (a1 * a1))
  thd :: orders.map fun o => match o with | some v => min v.1 65535 + 65536 * (v.2 % 65536) | none => 0xFFFFFFFF

/-- Word 0 of an entry or record, and words 1 to 4 (R443). -/
def State.meterHead (s : State) (seq blocks freq : Nat) (valid fault exceeds : Bool) : List Nat :=
  let t := if s.timeValid then shortForm s.wall else 0
  [b2n s.timeValid * 2 ^ 8 + b2n valid * 2 ^ 9 + b2n fault * 2 ^ 10 + b2n exceeds * 2 ^ 11 +
    b2n (s.flag F.MTR_STATUS_neutral_missing) * 2 ^ 12 + s.fld F.MTR_STATUS_seq * 2 ^ 13 + 2 ^ 16 * seq,
   blocks, t % 2 ^ 32, t / 2 ^ 32, freq]

/-- A harmonic record is written (R444, R445). -/
def State.harmonicBlock (s : State) (x : List (List Int)) (cycles dur freq : Nat) (exceeds : Bool) : State :=
  let recs := (List.range 7).map fun c => channelRecord (s.calibrated c (nth x c [])) cycles dur freq
  let head := s.meterHead s.mtr.harmSeq 1 freq true s.mtr.faulted exceeds
  let bytes := (head.flatMap (natLE 4)) ++ zeros 44 ++ recs.flatMap (fun r => r.flatMap (natLE 4)) ++ zeros 192
  let s := s.modMtr fun m => { m with
    thd := recs.map fun r => r.headD 0, harmSeq := (m.harmSeq + 1) % 65536, harmIn := 0 }
  match s.report Reg.MTR_HRM_BASE_LO 17 bytes with
  | (true, s) => (s.bump 12 3).raise F.MTR_INT_STAT_harm_lost
  | (false, s) => s

/-- Harmonics every harm_every blocks while the frequency is valid (R439). -/
def State.judgeHarmonics (s : State) (x : List (List Int)) (cycles dur freq : Nat) (exceeds : Bool) : State :=
  let every := s.fld F.MTR_CFG_harm_every
  if every = 0 ∨ !s.flag F.MTR_STATUS_freq_valid then s
  else if every ≤ s.mtr.harmIn + 1 then s.harmonicBlock x cycles dur freq exceeds
  else s.modMtr fun m => { m with harmIn := m.harmIn + 1 }

/-- The rms of a channel over an interval (R443). -/
def MtrSum.rms (m : MtrSum) (c : Nat) : Nat := satU 32 (rootRne (nth m.sq c 0) (2 ^ 46 * m.samples))

/-- A mean power in W, var or VA: the interval's energy over its duration (R443). -/
def MtrSum.watts (m : MtrSum) (v : Int) : Nat := unsigned 32 (satS 32 (rneI (65536 * v) (1000000 * (2 ^ 46 * m.dur))))

/-- A measurement entry (R443). -/
def State.resultEntry (s : State) (m : MtrSum) : List Byte :=
  let head := s.meterHead s.mtr.resSeq m.blocks (rne m.freq m.blocks) m.valid m.fault m.exceeds
  let thds := (List.range 3).map fun p => nth s.mtr.thd p 0 + 65536 * nth s.mtr.thd (3 + p) 0
  let words := head ++ (List.range 7).map m.rms ++ m.p.map m.watts ++ m.q.map m.watts ++
    m.s.map (fun v => satU 32 (rne (65536 * v) (1000000 * (2 ^ 46 * m.dur)))) ++ thds ++ [s.mtr.theta.1 + 65536 * s.mtr.theta.2]
  (words.flatMap (natLE 4) ++ zeros 128).take 128

/-- The extremes that a measurement entry feeds (R559). -/
def State.resultExtremes (s : State) (m : MtrSum) : State :=
  (List.range 3).foldl (fun s p =>
    let s := (s.extreme 11 (m.rms (3 + p)) p).extreme 12 (m.rms p) p
    if (s.fld F.MTR_STATUS_present).testBit p then s.extreme 13 (m.rms p) p else s) s

/-- The end of a measurement interval (R443, R445). -/
def State.judgeInterval (s : State) : State :=
  let m := s.mtr.sum
  if m.blocks < max 1 (s.fld F.MTR_RES_INTERVAL_blocks) then s
  else
    let entry := s.resultEntry m
    let s := (s.resultExtremes m).modMtr fun t => { t with sum := {}, resSeq := (t.resSeq + 1) % 65536 }
    let live := s.rptEnabled Reg.MTR_RES_BASE_LO
    match s.report Reg.MTR_RES_BASE_LO 17 entry with
    | (true, s) => (s.bump 12 2).raise F.MTR_INT_STAT_res_lost
    | (false, s) => if live then (s.bump 12 1).raise F.MTR_INT_STAT_result else s

/-! ## A block (R434 to R445) -/

/-- Channels whose decimated samples reach 0.98 of full scale (R429). -/
def overrangeOf (x : List (List Int)) : List Nat :=
  (List.range 7).filter fun c => (nth x c []).any fun v => 98 * 2 ^ 23 ≤ 100 * v.natAbs

/-- The block's sums join the interval's. -/
def State.addToInterval (s : State) (x : List (List Int)) (n dur freq : Nat) (exceeds : Bool) : State :=
  let sq := (List.range 7).map (s.sumSq x)
  let p := (List.range 3).map (s.sumP x)
  let q := (List.range 3).map (s.sumQ x)
  let a := (List.range 3).map fun i => s.sumS x i n dur
  let add (m : MtrSum) : MtrSum := { m with
    blocks := m.blocks + 1, samples := m.samples + n, dur := m.dur + dur
    sq := (m.sq.zip sq).map fun v => v.1 + v.2
    p := (m.p.zip p).map fun v => v.1 + v.2
    q := (m.q.zip q).map fun v => v.1 + v.2
    s := (m.s.zip a).map fun v => v.1 + v.2
    freq := m.freq + freq, valid := m.valid && s.flag F.MTR_STATUS_freq_valid
    fault := m.fault || s.mtr.faulted, exceeds := m.exceeds || exceeds }
  s.modMtr fun m => { m with sum := add m.sum }

/-- The block's energies join the accumulators (R436). -/
def State.addEnergy (s : State) (x : List (List Int)) (n dur : Nat) : State :=
  let p := s.sumP x
  let q := s.sumQ x
  let a (i : Nat) : Nat := s.sumS x i n dur
  let s := (((s.accGroup 0 (p 0) (q 0) (a 0)).accGroup 1 (p 1) (q 1) (a 1)).accGroup 2 (p 2) (q 2) (a 2))
  s.accGroup 3 (p 0 + p 1 + p 2) (q 0 + q 1 + q 2) (a 0 + a 1 + a 2)

/-- The fundamental phasors are judged while the frequency is valid (R435, R440, R442). -/
def State.judgePhasors (s : State) (x : List (List Int)) (cycles dur : Nat) : State :=
  if !s.flag F.MTR_STATUS_freq_valid then s
  else
    let y (c : Nat) : List Int := s.calibrated c (nth x c [])
    let angle (c : Nat) : Nat := (Config.harmonic (y c) cycles dur 1).2 % 65536
    let t := ((angle 1 + 65536 - angle 0) % 65536, (angle 2 + 65536 - angle 0) % 65536)
    let s := s.modMtr fun m => { m with theta := t }
    (s.judgeSeq (s.blockSeq t)).judgeNeutral (Config.displacement [y 0, y 1, y 2] cycles dur)

/-- CRC-32 of the applied shadow registers (R564). -/
def State.shadowCrc (s : State) : Nat :=
  Crypto.crcReflected 0xEDB88320 0xFFFFFFFF 0xFFFFFFFF (shadowRegs.flatMap fun a => natLE 4 (s.regN a))

/-- The shadow copy is the active set. -/
def State.calLoad (s : State) : State :=
  s.modMtr fun m => { m with active := shadowRegs.foldl (fun l a => Sparse.set Reg.resetVal l a (s.reg a)) m.active }

/-- A pending calibration set becomes active at the block boundary: a protected change (R433, R568). -/
def State.applyCal (s : State) : State :=
  if !s.flag F.MTR_STATUS_cal_pending then s
  else if !s.auditRoom then s.auditWait
  else
    let s := ((s.calLoad.lower F.MTR_STATUS_cal_pending).raise F.MTR_INT_STAT_cal_applied).bump 12 4
    s.audit 0x0104 s.mtr.calBy (natLE 4 s.shadowCrc)

/-- The block's samples after the high-pass filter, while it is on; those of a channel in fault stay 0 (R429, R430). -/
def State.highPass (s : State) (x : List (List Int)) : List (List Int) :=
  if !s.flag F.MTR_CFG_hpf_en then x
  else (List.range 7).map fun c =>
    let y := nth x c []
    if s.mtr.dead.testBit c then y else (List.range y.length).map (Config.highPassed s.draws c y)

/-- A swap of the meter DSP that waits for the block boundary is taken: the DSP is out of service for at most two blocks (R552). -/
def State.dspSwap (s : State) : State :=
  match s.boot.swap with
  | some (4, _) => ((s.takeSwap 4).modMtr fun m => { m with dspOut := min 2 (Config.dspBlocks s.draws).toNat }).drawn
  | _ => s

/-- METER_BLOCK (R434 to R445); while the DSP is out of service, harmonics and the detections of R440 to R442 are suspended (R552). -/
def execMeterBlock (x : List (List Int)) (cycles dur : Nat) (s : State) : Result :=
  let s := s.meterRestore
  let n := (nth x 0 []).length
  if !(s.powered 3 && s.flag F.MTR_CFG_enable && s.mtr.restored) || n = 0 || dur = 0 then done s
  else
    let x := (List.range 7).map fun c => if s.mtr.dead.testBit c then List.replicate n 0 else nth x c []
    let exceeds := overrangeOf x
    let s := exceeds.foldl (fun s c => (s.bump 12 (14 + c)).raise F.MTR_INT_STAT_overrange) s
    let x := s.highPass x
    let s := if s.flag F.MTR_CFG_hpf_en then s.drawn else s
    let s := if s.delayClamped then s.raise F.MTR_INT_STAT_delay_clamp else s
    let freq := s.blockFreq cycles dur
    let s := (s.addEnergy x n dur).judgeFreq freq
    let s := if s.mtr.dspOut = 0 then s.judgePhasors x cycles dur else s
    let s := s.addToInterval x n dur freq !exceeds.isEmpty
    let s := if s.mtr.dspOut = 0 then (s.judgeHarmonics x cycles dur freq !exceeds.isEmpty).judgePresence x n else s
    let s := (s.judgeInterval.bump 12 0).modMtr fun m => { m with
      dead := s.fld F.MTR_STATUS_ch_fault, faulted := s.fld F.MTR_STATUS_ch_fault != 0, dspOut := m.dspOut - 1 }
    done s.applyCal.dspSwap

/-! ## Channels, calibration, the modulator rate -/

/-- METER_CHANNEL_FAULT (R429). -/
def execMeterChannelFault (c : Nat) (s : State) : Result :=
  if c < 7 ∧ s.powered 3 ∧ s.flag F.MTR_CFG_enable ∧ !(s.fld F.MTR_STATUS_ch_fault).testBit c then
    let s := (s.setFld F.MTR_STATUS_ch_fault (s.fld F.MTR_STATUS_ch_fault + 2 ^ c)).raise F.MTR_INT_STAT_ch_fault
    done ((s.bump 12 (7 + c)).modMtr fun m => { m with faulted := true })
  else done s

/-- METER_CHANNEL_RECOVERED (R429): 10 ms without a fault. -/
def execMeterChannelRecovered (c : Nat) (s : State) : Result :=
  if c < 7 ∧ (s.fld F.MTR_STATUS_ch_fault).testBit c then
    let s := s.setFld F.MTR_STATUS_ch_fault (s.fld F.MTR_STATUS_ch_fault - 2 ^ c)
    done (s.modMtr fun m => { m with dead := setBits m.dead c 1 0 })
  else done s

/-- A write of MTR_CAL_APPLY (R433). -/
def State.calApply (s : State) (ini : Nat) (w : Word) : State :=
  if fieldOf F.MTR_CAL_APPLY_go w = 1 then (s.raise F.MTR_STATUS_cal_pending).modMtr fun m => { m with calBy := ini } else s

/-- CAL_APPLY (R433). -/
def execCalApply (ini : Nat) (w : Word) (s : State) : Result :=
  done (s.setupAccess ini Reg.MTR_CAL_APPLY true fun s => s.calApply ini w)

/-- FMOD_MEASURE (R428): the modulator rate over the last second, in mHz. -/
def execFmodMeasure (f : Nat) (s : State) : Result :=
  if s.powered 3 ∧ s.flag F.MTR_CFG_enable then
    done ((s.modMtr fun m => { m with fmod := f }).setReg Reg.MTR_FMOD (BitVec.ofNat 32 (satU 32 (rne f 1000))))
  else done s

/-! ## The current-only path (R446 to R449) -/

/-- A channel's burst result: last, largest, charge, and its run of bursts over the threshold. -/
def State.burstChannel (s : State) (c v : Nat) : State :=
  let s := s.setReg (Reg.MTR_BAT_LAST c) (BitVec.ofNat 32 (satU 32 v))
  let s := s.setReg (Reg.MTR_BAT_MAX c) (BitVec.ofNat 32 (satU 32 (max v (s.regN (Reg.MTR_BAT_MAX c)))))
  let q := s.regN (Reg.MTR_BAT_CHARGE c) + rne (v * s.fld F.MTR_BAT_CFG_interval_s) 1000
  let s := s.setReg (Reg.MTR_BAT_CHARGE c) (BitVec.ofNat 32 (satU 32 q))
  let exceeds := s.regN (Reg.MTR_BAT_THRESH c) ≤ v
  let s := s.modBat fun b => { b with run := b.run.set c (if exceeds then nth b.run c 0 + 1 else 0) }
  s.setFld ⟨Reg.MTR_BAT_STATUS, 4 + c, 1⟩ (b2n exceeds)

/-- A channel that a burst does not take is not over in it. -/
def State.burstSkips (s : State) (c : Nat) : State :=
  (s.modBat fun b => { b with run := b.run.set c 0 }).setFld ⟨Reg.MTR_BAT_STATUS, 4 + c, 1⟩ 0

/-- The theft judgement of a burst (R447). -/
def State.judgeTheft (s : State) : State :=
  let s := if s.fld F.MTR_BAT_STATUS_over = 0 then s.modBat fun b => { b with held := false } else s
  if !s.bat.held && s.bat.run.any (s.fld F.MTR_BAT_CFG_n_consec ≤ ·) && s.fld F.MTR_BAT_STATUS_over != 0 then
    let s := s.modBat fun b => { b with held := true }
    ((s.raise F.MTR_BAT_STATUS_theft).incFld F.MTR_BAT_CNT_theft_events).wake 9
  else s

/-- BATTERY_BURST (R446 to R448): the rms of the four current channels in mA, and whether any channel had a transition. -/
def execBatteryBurst (rms : List Nat) (moved : Bool) (s : State) : Result :=
  if !(s.powered 0 && s.flag F.MTR_BAT_CFG_en && !s.powered 3) then done s
  else if s.flag F.BLW_STATUS_vbat_low && !s.flag F.BLW_STATUS_vin_ok then
    done ((s.raise F.MTR_BAT_STATUS_low_batt).incFld F.MTR_BAT_CNT_skips)
  else
    let s := s.incFld F.MTR_BAT_BURSTS_bursts
    if !moved then done (s.raise F.MTR_BAT_STATUS_fe_fault)
    else
      let mask := s.fld F.MTR_BAT_CFG_ch_mask
      done ((List.range 4).foldl (fun s c => if mask.testBit c then s.burstChannel c (nth rms c 0) else s.burstSkips c) s).judgeTheft

end Sys2Proof.Machine
end

