-- ==== Sys2Proof/Machine/NetRx.lean ====
section
/-! DEFINITION. Reception: the checks of R87, the receive buffers, replication (R98 to R101), and the host receive queues (R102 to
R105); link changes (R84). -/

namespace Sys2Proof.Machine

/-! ## Link (R84) -/

/-- The link flag of a port in NET_INT_STAT. -/
def linkFlag (p : Nat) : Field := ⟨Reg.NET_INT_STAT, p, 1⟩

/-- LINK_UP (R84, R50): an enabled port's PCS is aligned, with RS-FEC locked where it is on. -/
def execLinkUp (p : Nat) (s : State) : Result :=
  if p < 3 ∧ s.flag (F.NET_PORT_CFG_enable p) ∧ !s.netLink p ∧ s.powered (22 + p) then
    let s := (s.raise ⟨Reg.NET_PORT_STATUS, 4 * p, 1⟩).raise (linkFlag p)
    let s := if p < 2 ∧ s.flag (F.NET_PORT_CFG_fec_en p) then s.raise ⟨Reg.NET_PORT_STATUS, 4 * p + 1, 1⟩ else s
    done s.reassess
  else done s

/-- A port's link goes down: flagged and counted; what waits to be sent stays (R84). The recovered clock goes with it (R402). -/
def State.portLinkLost (s : State) (p : Nat) : State :=
  if s.netLink p then
    let was := s.synceOn && s.tmk.sel == some p
    let s := (s.lower ⟨Reg.NET_PORT_STATUS, 4 * p, 1⟩).raise (linkFlag p)
    let s := if p < 2 then (s.lower ⟨Reg.NET_PORT_STATUS, 4 * p + 1, 1⟩).lower ⟨Reg.NET_PORT_STATUS, 4 * p + 2, 1⟩ else s
    let s := if was then s.raise F.TMK_CLK_INT_STAT_synce_lost else s
    (s.bump 3 25 p).reassess.timeInput
  else s

/-- LINK_DOWN (R84). -/
def execLinkDown (p : Nat) (s : State) : Result := if p < 3 then done (s.portLinkLost p) else done s

/-! ## The checks of R87 -/

/-- The largest frame of a port (R85). -/
def State.maxFrame (s : State) (p : Nat) : Nat := if s.flag (F.NET_PORT_CFG_max_frame p) then 9216 else 1518

/-- The largest frame in force at wall time `t`, when a frame's first byte arrived (R86): that before the first change since. -/
def State.maxFrameAt (s : State) (p t : Nat) : Nat :=
  match (s.net.maxWas.filter fun x => x.1 == p && s.later x.2.1 t).getLast? with
  | some x => x.2.2
  | none => s.maxFrame p

/-- A write changes the maximum of port `p`, which was `old`: the change is kept as long as a frame can last (R86). -/
def State.maxChanged (s : State) (p old : Nat) : State :=
  if s.maxFrame p = old then s
  else s.modNet fun t => { t with maxWas := (p, s.wall, old) :: t.maxWas.filter fun x => s.wallDiff s.wall x.2.1 ≤ (1000000 * ns : Nat) }

/-- Octets that port `p`'s receive buffer holds (R101). -/
def State.rxUsed (s : State) (p : Nat) : Nat :=
  (s.net.rx.filter fun f => f.port == p).foldl (fun a f => a + f.len) 0

def rxBuffer (p : Nat) : Nat := if p < 2 then 262144 else 32768

def broadcast : List Byte := List.replicate 6 0xFF
def isMulticast (f : List Byte) : Bool := (byteAt f 0).testBit 0

/-- The address check, order 6 of R87. -/
def State.addressTaken (s : State) (p : Nat) (f : List Byte) : Bool :=
  if f.take 6 = broadcast then s.flag (F.NET_PORT_CFG_bcast_en p)
  else isMulticast f || f.take 6 == s.portMac p || s.flag (F.NET_PORT_CFG_promisc p)

/-- The drop counter of the first check from 1 to 6 that a frame fails (R87), its first byte having come at wall time `t`. -/
def State.earlyDrop (s : State) (p : Nat) (f : List Byte) (fcsOk : Bool) (t : Nat) : Option Nat :=
  let len := f.length + 4
  if len < 64 then some 5
  else if s.maxFrameAt p t < len then some 6
  else if !fcsOk then some 7
  else if rxBuffer p < s.rxUsed p + len then some 11
  else if be f 12 2 = 0x8808 then some 9
  else if !s.addressTaken p f then some 10
  else none

/-- Errors that the PCS and the FEC saw with the frame are counted (R115). -/
def State.countPcs (s : State) (p pcs fec fecBad : Nat) : State :=
  let s := if pcs = 0 then s else s.bump 3 8 p pcs
  if p < 2 then
    let s := if fec = 0 then s else s.bump 3 26 p fec
    if fecBad = 0 then s else s.bump 3 27 p fecBad
  else s

/-- A frame is taken in (R87). -/
def State.takenIn (s : State) (p : Nat) (f : List Byte) (len : Nat) : State :=
  let s := (s.bump 3 0 p len).bump 3 1 p
  s.bump 3 (if f.take 6 = broadcast then 4 else if isMulticast f then 3 else 2) p

/-- A frame joins the port's receive buffer with the copies it is to become (R98). -/
def State.buffer (s : State) (r : RxFrame) : State :=
  s.modNet fun t => { t with rx := t.rx ++ [{ r with seq := t.rxSeq }], rxSeq := t.rxSeq + 1 }

/-- A frame that has passed checks 1 to 7 is parsed, checked and steered (R87 to R97). `len` is its length as received. -/
def State.parseAndSteer (s : State) (p : Nat) (f : List Byte) (len : Nat) (stamp : Option Nat) : State :=
  let h := parseFrame f len
  let dec := s.steer f h p
  let pay := h.udp.getD (0, 0)
  let rtp : Nat := match dec with
    | .to _ _ _ _ true => if h.udp.isSome then parseRtp (sliceB f pay.1 pay.2) else 3
    | _ => 3
  let s := match dec with | .to 1 n _ _ _ => s.pmc 20 n 0 | _ => s
  if h.mismatch || rtp == 2 then s.bump 3 12 p
  else if h.badIp then s.bump 3 13 p
  else if h.badUdp then s.bump 3 14 p
  else match dec with
    | .drop => s.bump 3 16 p
    | .timekeeper peer => let s := s.takenIn p f len; if peer then s.bump 3 18 p else s
    | .to m n dests st _ =>
      let s := s.takenIn p f len
      if h.unparsed || rtp == 1 then
        (s.bump 3 15 p).buffer { port := p, len := len, bytes := f, cls := 7, stamp := stamp, stream := 0, mtch := 0, num := 0, pay := pay, dests := [0] }
      else
        let cls := if rtp = 0 then h.cls + 2 else h.cls
        s.buffer { port := p, len := len, bytes := f, cls := cls, stamp := stamp, stream := st, mtch := m, num := n, pay := pay, dests := dests }

/-- A frame of port `p`, good or not, reaches its MAC with the raw stamp `stamp` (R85 to R101, R117, R118). -/
def State.frameIn (s : State) (p : Nat) (f : List Byte) (good : Bool) (stamp : Nat) : State :=
  match s.earlyDrop p f good stamp with
  | some c => s.bump 3 c p
  | none =>
    let st := if s.stamping p then some (shortForm (s.ingressStamp p stamp)) else none
    let s := if s.stamping p then s.reach (s.ingressStamp p stamp) else s
    match s.macsecIn p f with
    | (some g, s) => s.parseAndSteer p g (f.length + 4) st
    | (none, s) => s

/-- FRAME_RECEIVED: a frame of port `p` without its FCS, whether the FCS was right, the PCS error blocks in it and those since the
frame before it, the FEC codewords corrected and not, and the raw ingress stamp. A port in loopback hears only itself. -/
def execFrameReceived (p : Nat) (f : List Byte) (fcsOk : Bool) (pcs pcsIdle fec fecBad stamp : Nat) (s : State) : Result :=
  if !(p < 3 && s.netLink p && !s.flag (F.NET_PORT_CFG_loopback p)) then done s
  else done ((s.countPcs p (pcs + pcsIdle) fec fecBad).frameIn p f (fcsOk && pcs == 0) stamp)

/-! ## Host receive queues (R102 to R105) -/

/-- A receive descriptor is well formed (R103). -/
def rxDescGood (d : List Byte) : Bool :=
  let a := le d 0 8
  let n := le d 8 2
  a < 2 ^ 40 && a % 64 == 0 && 256 ≤ n && n ≤ 16384 && n % 64 == 0

/-- How filling the buffers for a frame went. -/
inductive RxEnd where
  /-- Every byte is written. -/
  | full
  /-- No descriptor was left, or one failed, with the status it returns (R104). -/
  | short
  | failed
  deriving DecidableEq, Repr

/-- What is said of a buffer in its completion entry: its slot, the bytes written, and its status; `bare` for a descriptor that
could not be read, whose entry says nothing else (R302). -/
structure RxPart where
  slot   : Nat
  bytes  : Nat
  status : Nat
  bare   : Bool := false
  deriving DecidableEq, Repr

/-- Buffers of ring `n` are taken and filled with `bs`, oldest first (R103, R104). With its completion ring full, no descriptor is
available (R300). -/
def State.fillBuffers (n : Nat) : Nat → List Byte → List RxPart → State → RxEnd × List RxPart × State
  | 0, _, acc, s => (.short, acc, s)
  | fuel + 1, bs, acc, s =>
    if !s.canTake n || s.ringSize n ≤ s.unreleased n + acc.length then (.short, acc, s)
    else
      let slot := s.headSlot n
      let (a, s) := s.readMem 13 (s.headAddr n) 32
      match a with
      | .data d =>
        let s := s.takeHead n d
        if !rxDescGood d then State.fillBuffers n fuel bs (acc ++ [{ slot := slot, bytes := 0, status := Status.formatError }]) s
        else
          let chunk := bs.take (le d 8 2)
          let (w, s) := s.writeMem 13 (le d 0 8) chunk
          match w with
          | .data _ =>
            let acc := acc ++ [{ slot := slot, bytes := chunk.length, status := Status.ok }]
            if bs.length ≤ le d 8 2 then (.full, acc, s) else State.fillBuffers n fuel (bs.drop (le d 8 2)) acc s
          | .denied => (.failed, acc ++ [{ slot := slot, bytes := 0, status := Status.accessDenied }], s)
          | .error => (.failed, acc ++ [{ slot := slot, bytes := 0, status := Status.memoryError }], s)
      | .denied =>
        State.fillBuffers n fuel bs (acc ++ [{ slot := slot, bytes := 0, status := Status.accessDenied, bare := true }]) (s.takeHead n [])
      | .error =>
        State.fillBuffers n fuel bs (acc ++ [{ slot := slot, bytes := 0, status := Status.memoryError, bare := true }]) (s.takeHead n [])

/-- The completion entry of part `i` of the frame's filled parts (R105): `first` and `last` mark the filled ones. -/
def rxCpl (r : RxFrame) (q : Nat) (ok first last : Bool) (x : RxPart) : Cpl :=
  let stamped := first && r.stamp.isSome
  let t := r.stamp.getD 0
  let status := if x.status = Status.ok ∧ !ok then Status.discarded else x.status
  if x.bare then { status := status } else
  { status := status
    w0 := b2n first * 2 ^ 8 + b2n (last && ok) * 2 ^ 9 + b2n stamped * 2 ^ 10 + r.cls * 2 ^ 11
    w1 := x.bytes + 2 ^ 16 * q + 2 ^ 20 * r.port + 2 ^ 22 * r.mtch + 2 ^ 24 * r.num
    w2 := if stamped then t % 2 ^ 32 else 0
    w3 := if stamped then t / 2 ^ 32 else 0 }

/-- The completions of a frame's parts, in buffer order. -/
def State.rxComplete (s : State) (n q : Nat) (r : RxFrame) (ok : Bool) (parts : List RxPart) : State :=
  let good := (parts.filter fun x => x.status == Status.ok).map (·.slot)
  parts.foldl (fun s x =>
    let s := if x.status = Status.memoryError then s.descError else s
    s.finish n x.slot (rxCpl r q ok (good.head? == some x.slot && x.status == Status.ok) (good.getLast? == some x.slot && x.status == Status.ok) x)) s

/-- A copy is delivered to queue `q`, or refused (R103 to R105). -/
def State.toQueue (s : State) (q : Nat) (r : RxFrame) : State :=
  let n := 0x40 + q
  match State.fillBuffers n (s.waiting n + 1) r.bytes [] s with
  | (.full, parts, s) => (s.rxComplete n q r true parts).pmc 4 (64 + q) 0
  | (.short, parts, s) => ((s.rxComplete n q r false parts).bump 4 q).raise F.NET_INT_STAT_no_buffer
  | (.failed, parts, s) => s.rxComplete n q r false parts

/-! ## Copies (R98 to R100) -/

/-- A copy is delivered to slice `n` or refused for room (R98, R128). -/
def State.toSlice (s : State) (n : Nat) (r : RxFrame) : State :=
  match s.ingest r.port n r.stream r.cls (sliceB r.bytes r.pay.1 r.pay.2) r.bytes.length with
  | (true, s) => (s.bump 4 (16 + n)).raise F.NET_INT_STAT_anvil_drop
  | (false, s) => s.pmc 4 (80 + n) 0

/-- The port that wins at destination `d`: rotating priority after the last winner (R100). -/
def State.winner (s : State) (d : Nat) : Option RxFrame :=
  let last := Sparse.get (fun _ => 2) s.net.lastWin d
  ((List.range 3).map fun i => (last + 1 + i) % 3).findSome? fun p =>
    s.net.rx.find? fun r => r.port == p && r.dests.contains d

/-- A copy has left the receive buffer, and with its last copy the frame (R101). -/
def copyGone (r : RxFrame) (d : Nat) : List RxFrame → List RxFrame
  | [] => []
  | x :: l =>
    if x = r then
      let ds := x.dests.erase d
      if ds.isEmpty then l else { x with dests := ds } :: l
    else x :: copyGone r d l

/-- FRAME_COPY_DELIVER (R98 to R105): destination `dest`, a queue 0 to 15 or 16 plus a slice, serves the copy that wins there. -/
def execFrameCopyDeliver (dest : Nat) (s : State) : Result :=
  match s.winner dest with
  | none => done s
  | some r =>
    let s := if dest < 16 then s.toQueue dest r else s.toSlice (dest - 16) r
    done (s.modNet fun t => { t with
      rx := copyGone r dest t.rx, lastWin := Sparse.set (fun _ => 2) t.lastWin dest r.port }).settled

end Sys2Proof.Machine
end

