-- ==== Sys2Proof/Machine/Radio.lean ====
section
/-! DEFINITION. The sensor radio (R451 to R483): the poll schedule, joining, readings, the node table and its mirror, and the commands
of ring 0xA0. The payload layouts of the frames are not in the spec: a frame comes and goes as what it says. -/

namespace Sys2Proof.Machine

/-! ## The schedule (R451 to R457) -/

def State.slotTicks (s : State) : Nat := s.fld F.RAD_SCHED_CFG_slot_ticks
def State.nSlot (s : State) : Nat := s.fld F.RAD_SCHED_CFG2_n_slot

/-- The cycle and the slot of the RTC count (R454). -/
def State.radCycle (s : State) : Nat := s.rtc.count / (s.nSlot * s.slotTicks)
def State.radSlot (s : State) : Nat := s.rtc.count / s.slotTicks % s.nSlot

/-- Byte time in thirds of a microsecond, and the bytes of SHR and PHR (R451). -/
def State.byteTime (s : State) : Nat :=
  if s.fld F.RAD_PHY_CFG_band = 0 then 96 else nth [480, 240, 160] (s.fld F.RAD_PHY_CFG_rate) 160
def State.phyHead (s : State) : Nat := if s.fld F.RAD_PHY_CFG_band = 0 then 6 else 12

/-- Air time of a PSDU, and the turnaround, in thirds of a microsecond (R451, R456). -/
def State.air (s : State) (n : Nat) : Nat := (s.phyHead + n) * s.byteTime
def State.turnaround (s : State) : Nat := if s.fld F.RAD_PHY_CFG_band = 0 then 576 else 3000

/-- A time in ticks, in thirds of a microsecond times 512: a tick is 15,625 / 512 µs. -/
def tickThirds (n : Nat) : Nat := n * 15625 * 3

/-- The schedule's two tests (R457). -/
def State.scheduleFits (s : State) : Bool :=
  let slot := tickThirds s.slotTicks
  let lead := tickThirds (s.fld F.RAD_SCHED_CFG_lead_ticks)
  lead + (s.air 35 + s.turnaround + s.air 52 + 300) * 512 ≤ slot &&
    (s.air 27 + s.turnaround + s.air 61 + s.turnaround + s.air 31 + 300) * 512 ≤ slot

def State.acting (s : State) : Nat := s.fld F.RAD_STATUS_acting
def State.coordinating (s : State) : Bool := s.acting == 1 && s.powered 2

/-- The role that RAD_CTRL and the twin's role ask for: 1 coordinator, 2 listener, 0 disabled (R453). -/
def State.wantedRole (s : State) : Nat :=
  if !s.flag F.RAD_CTRL_enable then 0
  else match s.fld F.RAD_CTRL_role with
    | 0 => 1
    | 1 => 2
    | _ =>
      let r := if s.powered 25 then s.fld F.TWN_STATUS_role else s.rad.keptRole
      if r = 0 ∨ r = 2 then 1 else 2

/-- The TCXO is lost, and the radio stopped (R462). -/
def State.radStopped (s : State) : Bool := s.powered 26 && !s.flag F.TMK_CLK_STATUS_tcxo_ok

/-- RAD_STATUS.tcxo_wait follows (R462). -/
def State.showTcxo (s : State) : State :=
  if s.powered 2 then s.setFld F.RAD_STATUS_tcxo_wait (b2n (s.acting != 0 && s.radStopped)) else s

/-- The coordinator may begin a frame: the TCXO runs, and no change to listener waits for the end of a frame (R453, R462). -/
def State.maySend (s : State) : Bool := s.acting == 1 && s.wantedRole == 1 && !s.radStopped

/-! ## Keys (R468, R469) -/

/-- The link key of the node with EUI-64 `eui` at key generation `gen`: the context is the EUI-64, the byte sent first in front as
RAD_EUI holds it, and the generation (assumption 107). -/
def State.linkKey (s : State) (eui gen : Nat) : List Byte :=
  Crypto.kdf108 s.rad.master (ascii "Ramdan link") (natLE 8 eui ++ natLE 1 gen) 16

/-- The group key: the context is the PAN ID, low byte first (assumption 107). -/
def State.groupKey (s : State) : List Byte :=
  Crypto.kdf108 s.rad.master (ascii "Ramdan group") (natLE 2 (s.fld F.RAD_CFG_pan_id)) 16

/-- An RAD write or enable is refused. -/
def State.radRefused (s : State) : State := s.raise F.RAD_INT_STAT_cfg_refused

/-- RAD_STATUS.join_open follows open_cycles (R463). -/
def State.showJoinOpen (s : State) : State := s.setFld F.RAD_STATUS_join_open (b2n (s.fld F.RAD_JOIN_open_cycles != 0))

/-! ## The sensor ring and the reading buffer (R474, R475) -/

/-- A sensor ring entry (R474). -/
def radEntryBytes (x : RadEntry) (buffered : Bool) : List Byte :=
  natLE 4 (x.kind * 2 ^ 8 + 2 ^ 16 * x.addr) ++ natLE 4 x.value ++ natLE 4 (x.ticks / 32768) ++
    natLE 4 (x.ticks % 32768 + b2n buffered * 2 ^ 15 + 2 ^ 16 * b2n x.heard + 2 ^ 17 * b2n x.urgent + 2 ^ 24 * x.rssi)

/-- The ring is reachable: enabled, and DRAM powered. -/
def State.radRing (s : State) : Bool := s.rptEnabled Reg.RAD_RPT_BASE_LO && s.powered 12

/-- An entry is written to the ring, or lost when it is full; the answer tells which. -/
def State.radWrite (s : State) (x : RadEntry) (buffered : Bool) : Bool × State :=
  match s.report Reg.RAD_RPT_BASE_LO 18 (radEntryBytes x buffered) with
  | (true, s) => (false, (s.bump 13 12).raise F.RAD_INT_STAT_rpt_lost)
  | (false, s) => (true, s.raise F.RAD_INT_STAT_reading)

/-- The reading buffer is written to the ring as soon as it can be, in arrival order. -/
def State.radFlush (s : State) : State :=
  if s.radRing && !s.rad.buffer.isEmpty then
    s.rad.buffer.foldl (fun s x => (s.radWrite x true).2) (s.modRad fun r => { r with buffer := [] })
  else s

/-- An entry goes to the ring, or to the buffer; the answer is false when it is lost. -/
def State.radPut (s : State) (x : RadEntry) : Bool × State :=
  let s := s.radFlush
  if s.radRing then s.radWrite x false
  else if s.rad.buffer.length < 256 then (true, s.modRad fun r => { r with buffer := r.buffer ++ [x] })
  else (false, (s.bump 13 11).raise F.RAD_INT_STAT_dark_lost)

/-- A report entry (R461, R464, R466). -/
def State.radReport (s : State) (kind addr value rssi : Nat) : State :=
  (s.radPut { kind := kind, addr := addr, value := value, ticks := s.rtc.count, heard := s.acting == 2, urgent := false, rssi := rssi }).2

/-! ## The node table (R478) -/

def State.node (s : State) (i : Nat) : Option RadNode := (s.rad.nodes.find? fun n => n.1 == i).map (·.2)

def State.modNode (s : State) (i : Nat) (f : RadNode → RadNode) : State :=
  s.modRad fun r => { r with nodes := r.nodes.map fun n => if n.1 = i then (i, f n.2) else n }

/-- RAD_STATUS.nodes follows the table. -/
def State.showNodes (s : State) : State := s.setFld F.RAD_STATUS_nodes s.rad.nodes.length

/-- An entry is freed: its node is neither polled nor answered any more (R466). -/
def State.freeNode (s : State) (i : Nat) : State :=
  (s.modRad fun r => { r with
    nodes := Sparse.del r.nodes i, polled := if r.polled = some i then none else r.polled
    resp := r.resp.filter fun x => x.2.2 != some i }).showNodes

/-- The 64 bytes of an entry (R478). -/
def nodeBytes (i : Nat) (n : RadNode) : List Byte :=
  natLE 8 n.eui ++ natLE 2 (i + 1) ++ natLE 1 n.st ++ natLE 1 n.e ++ natLE 2 n.slot ++ natLE 1 n.phase ++ natLE 1 n.drift ++
    natLE 4 n.lastCtr ++ natLE 4 n.nextCtr ++ natLE 1 n.gen ++ natLE 1 n.miss ++ natLE 1 n.rssi ++ natLE 1 n.lqi ++
    natLE 8 (n.contact % 2 ^ 63) ++ natLE 2 n.kinds ++ natLE 2 n.batt ++ natLE 4 n.accepted ++ natLE 4 n.missed ++ zeros 16

/-- An entry read back from its 64 bytes. -/
def nodeOf (b : List Byte) : RadNode :=
  { eui := le b 0 8, st := byteAt b 10, e := byteAt b 11 % 8, slot := le b 12 2, phase := byteAt b 14, drift := byteAt b 15
    lastCtr := le b 16 4, nextCtr := le b 20 4, gen := byteAt b 24, miss := byteAt b 25, rssi := byteAt b 26, lqi := byteAt b 27
    contact := le b 28 8 % 2 ^ 63, kinds := le b 36 2, batt := le b 38 2, accepted := le b 40 4, missed := le b 44 4 }

/-! ## Commands that wait on a node (R466, R467, R482) -/

/-- A DOWNLINK or REKEY of a node ends. -/
def State.endCommand (s : State) (slot : Option Nat) (c : Cpl) : State :=
  match slot with
  | some k => (s.finish 0xA0 k c).settle 0xA0
  | none => s

/-- The node's pending commands end with TIMEOUT when it is LOST (R482). -/
def State.nodeTimeouts (s : State) (i : Nat) : State :=
  match s.node i with
  | none => s
  | some n =>
    let c : Cpl := { status := Status.timeout }
    let s := s.modNode i fun n => { n with down := none, rekey := none }
    (s.endCommand (n.down.map (·.1)) c).endCommand n.rekey c

/-- A NODE_EVICT takes effect; a node that has left meanwhile is not found. -/
def State.evictNode (s : State) (x : Nat × Nat) : State :=
  ((s.nodeTimeouts x.2).freeNode x.2).endCommand (some x.1) (if (s.node x.2).isSome then okCpl else { status := Status.notFound })

/-- The evictions of the nodes that satisfy `p` take effect (R467). -/
def State.applyEvictions (s : State) (p : Nat → Bool) : State :=
  (s.rad.evict.filter fun x => p x.2).foldl State.evictNode (s.modRad fun r => { r with evict := r.evict.filter fun x => !p x.2 })

/-- Node `i` has the EUI-64 `eui`. -/
def State.hasEui (s : State) (eui i : Nat) : Bool := (s.node i).any fun n => n.eui == eui

/-! ## Misses (R461) -/

/-- A poll of node `i` is without an accepted DATA. -/
def State.missNode (s : State) (i : Nat) : State :=
  let s := s.modRad fun r => { r with polled := none }
  match s.node i with
  | none => s
  | some n =>
    let k := satU 8 (n.miss + 1)
    let s := (s.bump 13 2).modNode i fun n => { n with miss := k, missed := satU 32 (n.missed + 1) }
    let s := if n.miss + 1 = 2 then
        ((s.modNode i fun n => { n with st := 2 }).raise F.RAD_INT_STAT_node_missing).radReport 0x40 (i + 1)
          (Config.radioReportValue 0x40).toNat n.rssi else s
    if s.fld F.RAD_SCHED_CFG2_m_lost ≤ k ∧ n.st ≠ 3 then
      (((s.modNode i fun n => { n with st := 3 }).raise F.RAD_INT_STAT_node_lost).radReport 0x41 (i + 1)
        (Config.radioReportValue 0x41).toNat n.rssi).nodeTimeouts i
    else s

/-! ## Transmit time (R452) -/

/-- A frame of `n` bytes of PSDU may be sent under duty_pm; the hour is counted on the RTC (assumption 107). -/
def State.dutyAllows (s : State) (n : Nat) : Bool :=
  let pm := s.fld F.RAD_PHY_CFG_duty_pm
  let used := (s.rad.sent.filter fun x => s.rtc.count < x.1 + 117964800).foldl (fun a x => a + x.2) 0
  pm == 0 || used + s.air n ≤ 10800000 * pm

/-- A frame leaves, protected at security level `level` under `key` (R456, R468). -/
def State.radSend (s : State) (frame dst counter n level : Nat) (key : List Byte) (content : List Nat) : State :=
  let keep := s.rad.sent.filter fun x => s.rtc.count < x.1 + 117964800
  (s.modRad fun r => { r with sent := (s.rtc.count, s.air n) :: keep }).emit (.radio frame dst counter level key content)

/-- A frame that the limit forbids is not sent. -/
def State.dutySkip (s : State) : State := (s.bump 13 14).raise F.RAD_INT_STAT_duty_skip

/-! ## RAD_LUX (R477) -/

/-- Insertion into a rising list. -/
def insertUp (x : Nat) : List Nat → List Nat
  | [] => [x]
  | y :: l => if x ≤ y then x :: y :: l else y :: insertUp x l

/-- The median of the nodes' latest illuminance, young enough. -/
def State.showLux (s : State) : State :=
  let young := s.rad.nodes.filterMap fun n => n.2.lux.bind fun x =>
    if s.rtc.count < x.2 + 32768 * s.fld F.RAD_AGG_CFG_max_age_s then some x.1 else none
  let l := young.foldl (fun l x => insertUp x l) []
  let m := nth l ((l.length - 1) / 2) 0xFFFFFFFF
  (s.setReg Reg.RAD_LUX (BitVec.ofNat 32 m)).setFld F.RAD_LUX_N_count l.length

/-! ## DATA (R458, R471 to R476) -/

/-- A reading is written or buffered (R473 to R475). -/
def State.takeReading (s : State) (i : Nat) (d : RadData) (x : Nat × Nat) : State :=
  if x.1 = 0 ∨ 15 < x.1 then s.bump 13 13
  else
    let e : RadEntry := { kind := x.1, addr := i + 1, value := x.2, ticks := s.rtc.count, heard := s.acting == 2, urgent := d.urgent, rssi := d.rssi }
    let (ok, s) := s.radPut e
    let s := if ok then s.bump 13 3 else s
    if x.1 = 1 then (s.modNode i fun n => { n with lux := some (x.2, s.rtc.count) }).showLux
    else if x.1 = 9 then s.modNode i fun n => { n with batt := satU 16 x.2 }
    else s

/-- The DATA is marked for wake (R476). -/
def State.marksWake (s : State) (d : RadData) : Bool :=
  d.urgent || d.readings.any fun x => 1 ≤ x.1 && x.1 ≤ 15 && (s.fld F.RAD_WAKE_KINDS_kinds).testBit x.1

/-- An accepted DATA of node `i`: the entry follows, then the readings, the wake and a leave (R461, R466, R471 to R476). -/
def State.acceptData (s : State) (i : Nat) (d : RadData) : State :=
  let s := (s.bump 13 1).modRad fun r => { r with polled := none }
  let s := s.modNode i fun n => { n with
    st := 1, miss := 0, lastCtr := d.counter, rssi := d.rssi, lqi := d.lqi, contact := s.rtc.count
    accepted := satU 32 (n.accepted + 1), lastSeq := d.seq }
  let s := (d.readings.take 6).foldl (fun s x => s.takeReading i d x) s
  let s := if s.marksWake d then s.wake 1 else s
  if d.leave then
    (((s.nodeTimeouts i).freeNode i).radReport 0x44 (i + 1) (Config.radioReportValue 0x44).toNat d.rssi)
  else s

/-- A rekey commits (R472): the new generation, both counters from the start. -/
def State.commitRekey (s : State) (i : Nat) : State :=
  match s.node i with
  | none => s
  | some n =>
    let s := s.modNode i fun n => { n with gen := (n.gen + 1) % 256, lastCtr := 0, nextCtr := 0, rekeying := false, rekey := none }
    ((s.bump 13 10).raise F.RAD_INT_STAT_rekey).endCommand n.rekey okCpl

/-- A DOWNLINK that a POLL carried is answered by DATA (R482). -/
def State.downlinkDone (s : State) (i : Nat) : State :=
  match s.node i with
  | some n => match n.down with
    | some (k, _, true) => (s.modNode i fun n => { n with down := none }).endCommand (some k) okCpl
    | _ => s
  | none => s

/-- A DATA is dropped, and its poll missed (R471). -/
def State.dropData (s : State) (counter : Nat) (flag : Field) (missed : Option Nat) : State :=
  let s := (s.bump 13 counter).raise flag
  match missed with | some i => s.missNode i | none => s

/-- A DATA of node `i` is verified and taken (R471, R472). -/
def State.judgeData (s : State) (i : Nat) (n : RadNode) (d : RadData) (missed : Option Nat) : State :=
  if d.gen = some n.gen then
    if n.lastCtr < d.counter then (s.downlinkDone i).acceptData i d
    else s.dropData 5 F.RAD_INT_STAT_replay missed
  else if n.rekeying ∧ d.gen = some ((n.gen + 1) % 256) then
    ((s.downlinkDone i).commitRekey i).acceptData i d
  else s.dropData 4 F.RAD_INT_STAT_auth_fail missed

/-- DATA (R458, R471): the frame that follows a POLL. A frame of another node, or of none, does not verify. -/
def execData (d : RadData) (s : State) : Result :=
  match s.rad.polled with
  | some i =>
    if !s.coordinating || s.radStopped then done s
    else match (if d.addr = i + 1 then s.node i else none) with
      | some n => done (s.judgeData i n d (some i))
      | none => done (s.dropData 4 F.RAD_INT_STAT_auth_fail (some i))
  | none => done s

/-- DATA_TIMEOUT (R458, R461): no DATA began within t_ta ± 50 µs. -/
def execDataTimeout (s : State) : Result :=
  match s.rad.polled with
  | some i => done (s.missNode i)
  | none => done s

/-! ## Poll slots (R455, R458, R472) -/

/-- The node of the present slot and phase. -/
def State.slotNode (s : State) : Option (Nat × RadNode) :=
  s.rad.nodes.find? fun n => n.2.slot == s.radSlot && s.radCycle % 2 ^ n.2.e == n.2.phase

/-- The rekey flag of the next POLL (R472). -/
def needsRekey (n : RadNode) : Bool := n.rekeying || n.rekey.isSome || 0xFFFF0000 ≤ n.nextCtr || 0xFFFF0000 ≤ n.lastCtr

/-- POLL is sent to node `i`, with the cycle number, the sequence number of the last DATA, the rekey flag and any downlink. -/
def State.sendPoll (s : State) (i : Nat) (n : RadNode) : State :=
  let down := match n.down with | some (_, b, _) => b.length :: b.map BitVec.toNat | none => [0]
  let s := (s.radSend 2 (i + 1) n.nextCtr 35 5 (s.linkKey n.eui n.gen) ([s.radCycle % 2 ^ 32, n.lastSeq, b2n (needsRekey n)] ++ down)).bump 13 0
  let s := s.modNode i fun n => { n with
    nextCtr := n.nextCtr + 1, rekeying := needsRekey n, down := n.down.map fun x => (x.1, x.2.1, true) }
  s.modRad fun r => { r with polled := some i }

/-! ## Joining (R460, R463 to R465) -/

/-- The guard after one missed poll fits the lead at exponent `e` (R460): in 512 × 10^6 µs. -/
def State.guardFits (s : State) (drift e : Nat) : Bool :=
  512000000 * s.fld F.RAD_GUARD_g_min_us +
      (drift + s.fld F.RAD_SCHED_CFG_coord_ppm) * 2 * 2 ^ e * s.nSlot * s.slotTicks * 15625 ≤
    1000000 * (s.fld F.RAD_SCHED_CFG_lead_ticks * 15625)

/-- The exponent that a node is assigned. -/
def State.assignExp (s : State) (j : RadJoin) : Option Nat :=
  ((List.range (min j.e 7 + 1)).reverse).find? (s.guardFits j.drift)

/-- The lowest phase of exponent `e` free in slot `k`, if the slot has that exponent or is free (R455). -/
def State.freePhase (s : State) (e k : Nat) : Option Nat :=
  let mine := s.rad.nodes.filter fun n => n.2.slot == k
  if mine.all fun n => n.2.e == e then (List.range (2 ^ e)).find? fun p => !(mine.any fun n => n.2.phase == p) else none

/-- The lowest slot and phase that fit (R464). -/
def State.findSlot (s : State) (e : Nat) : Option (Nat × Nat) :=
  ((List.range s.nSlot).drop 1).findSome? fun k => (s.freePhase e k).map fun p => (k, p)

def State.nodeByEui (s : State) (eui : Nat) : Option (Nat × RadNode) := s.rad.nodes.find? fun n => n.2.eui == eui

/-- A join is refused: counted, flagged, reported; and the response waits (R464). -/
def State.refuseJoin (s : State) (j : RadJoin) (status counter : Nat) : State :=
  let addr := match s.nodeByEui j.eui with | some (i, _) => i + 1 | none => Config.noShortAddress.toNat
  let s := ((s.bump 13 counter).raise F.RAD_INT_STAT_join_refused).radReport 0x42 addr status j.rssi
  s.modRad fun r => { r with resp := some (j.eui, status, none) }

/-- A join is accepted as entry `i`. -/
def State.acceptJoin (s : State) (j : RadJoin) (i : Nat) : State :=
  let s := (s.raise F.RAD_INT_STAT_joined).radReport 0x43 (i + 1) (Config.radioReportValue 0x43).toNat j.rssi
  s.modRad fun r => { r with resp := some (j.eui, 0, some i) }

/-- An entry starts again from the node's factory state: generation 0 and fresh counters, of which the frame that asks has used the
node's `counter` (R465, R471; assumption 107). -/
def RadNode.fresh (n : RadNode) (counter : Nat) : RadNode := { n with gen := 0, lastCtr := counter, nextCtr := 0, rekeying := false }

/-- A rejoin keeps index, address, slot and phase (R465). -/
def State.rejoin (s : State) (j : RadJoin) (i : Nat) : State :=
  (s.modNode i fun n => { n.fresh j.counter with rssi := j.rssi, lqi := j.lqi, contact := s.rtc.count }).acceptJoin j i

/-- A new entry takes the lowest free index (R464). -/
def State.addNode (s : State) (j : RadJoin) (e : Nat) (at_ : Nat × Nat) : State :=
  match (List.range 1024).find? fun i => (s.node i).isNone with
  | none => s
  | some i =>
    let n : RadNode := { eui := j.eui, e := e, slot := at_.1, phase := at_.2, drift := j.drift, kinds := j.kinds, rssi := j.rssi, lqi := j.lqi, contact := s.rtc.count, lastCtr := j.counter }
    ((s.modRad fun r => { r with nodes := Sparse.put r.nodes i n }).showNodes).acceptJoin j i

/-- A JOIN_REQ is judged (R464). -/
def State.judgeJoin (s : State) (j : RadJoin) : State :=
  if s.fld F.RAD_JOIN_open_cycles = 0 then s.refuseJoin j 3 8
  else match s.nodeByEui j.eui with
    | some (i, _) => s.rejoin j i
    | none =>
      if 1024 ≤ s.rad.nodes.length then s.refuseJoin j 1 6
      else match s.assignExp j with
        | none => s.refuseJoin j 2 7
        | some e => match s.findSlot e with
          | some p => s.addNode j e p
          | none => s.refuseJoin j 2 7

/-- JOIN_REQ (R463, R464, R467): taken in the beacon slot. -/
def execJoinReq (j : RadJoin) (s : State) : Result :=
  if !(s.coordinating && s.radSlot == 0 && !s.radStopped) then done s
  else if !j.good then done ((s.bump 13 4).raise F.RAD_INT_STAT_auth_fail)
  else if s.rad.judged then done (s.bump 13 9)
  else done (((s.applyEvictions (s.hasEui j.eui)).modRad fun r => { r with judged := true, asked := some j }).judgeJoin j)

/-! ## Slots (R454, R455, R458, R463, R472) -/

/-- What a slot boundary brings before the frames of its slot: a poll still open was missed, evictions take effect, and a join of the
beacon slot that ends, of a node evicted in it, is judged as new (R461, R467). -/
def State.slotBoundary (s : State) : State :=
  let s := match s.rad.polled with | some i => s.missNode i | none => s
  let again := s.rad.asked.filter fun j => s.rad.evict.any fun x => s.hasEui j.eui x.2
  let s := (s.applyEvictions fun _ => true).modRad fun r => { r with asked := none }
  let s := match again with | some j => s.judgeJoin j | none => s
  s.radFlush.showTcxo

/-- POLL_SLOT (R458, R462, R467): a poll slot begins. A slot that passes between a change to coordinator and its cycle boundary
counts as missed (R481). -/
def execPollSlot (s : State) : Result :=
  if !(s.powered 2 && s.acting != 0 && s.radSlot != 0) then done s
  else
    let s := s.slotBoundary
    match s.slotNode with
    | none => done s
    | some (i, n) =>
      if s.acting = 2 then (if s.wantedRole = 1 then done (s.missNode i) else done s)
      else if s.wantedRole ≠ 1 then done s
      else if s.radStopped ∨ 0xFFFFFFFF ≤ n.nextCtr then done (s.missNode i)
      else if !s.dutyAllows 35 then done (s.dutySkip.missNode i)
      else done (s.sendPoll i n)

/-- open_cycles falls by one at a cycle boundary; 0xFFFF holds it (R463). -/
def State.countJoin (s : State) : State :=
  let n := s.fld F.RAD_JOIN_open_cycles
  (if n = 0 ∨ n = 0xFFFF then s else s.setFld F.RAD_JOIN_open_cycles (n - 1)).showJoinOpen

/-- BEACON is sent under the group key (R454, R463); the counter 0xFFFF_FFFF is never used (R472). -/
def State.sendBeacon (s : State) : State :=
  let k := s.rad.beaconCtr
  if 0xFFFFFFFF ≤ k then s
  else if !s.dutyAllows 27 then s.dutySkip
  else
    ((s.radSend 0 0xFFFF k 27 1 s.groupKey [s.radCycle % 2 ^ 32, b2n (s.flag F.RAD_STATUS_join_open)]).bump 13 15).modRad fun r =>
      { r with beaconCtr := k + 1 }

/-- The frame counter of a JOIN_RESP to the node with EUI-64 `eui`: its entry's, which is used up; a node without an entry has none that
the spec gives. -/
def State.respCounter (s : State) (eui : Nat) : Nat × State :=
  match s.nodeByEui eui with
  | some (k, n) => (n.nextCtr, s.modNode k fun n => { n with nextCtr := n.nextCtr + 1 })
  | none => ((Config.refusalCounter s.draws).toNat, s.drawn)

/-- What a JOIN_RESP says: the status, and to a node that is accepted its address, exponent, slot and phase, and the group key (R464,
R469). -/
def State.respContent (s : State) (status : Nat) (i : Option Nat) : List Nat :=
  match i.bind fun k => (s.node k).map fun n => (k, n) with
  | some (k, n) => [status, k + 1, n.e, n.slot, n.phase] ++ s.groupKey.map BitVec.toNat
  | none => [status]

/-- The JOIN_RESP of the last beacon slot's JOIN_REQ is sent, under the link key of the generation that the node's entry holds, or
generation 0 (R463, R464, R469). -/
def State.sendJoinResp (s : State) (r : Nat × Nat × Option Nat) : State :=
  if !s.dutyAllows 61 then s.dutySkip
  else
    let gen := match s.nodeByEui r.1 with | some (_, n) => n.gen | none => 0
    let content := s.respContent r.2.1 r.2.2
    let (k, s) := s.respCounter r.1
    if 0xFFFFFFFF ≤ k then s else s.radSend 1 r.1 k 61 5 (s.linkKey r.1 gen) content

/-- BEACON_SLOT (R454, R463, R467): slot 0 of a cycle begins. A JOIN_RESP that cannot be sent in it is not sent later. -/
def execBeaconSlot (s : State) : Result :=
  if !(s.powered 2 && s.acting != 0 && s.radSlot == 0) then done s
  else
    let s := s.slotBoundary.takeSwap 3
    let resp := s.rad.resp
    let s := (s.countJoin.showLux).modRad fun r => { r with judged := false, resp := none }
    if s.maySend then
      let s := s.sendBeacon
      match resp with
      | some r => done (s.sendJoinResp r)
      | none => done s
    else done s

/-! ## The listener (R479) -/

/-- A heard JOIN_RESP that accepts: a node known at its index starts again, as the coordinator has it, and another takes the index
(R465, R479). -/
def State.heardJoin (s : State) (eui i counter : Nat) (new : RadNode) : State :=
  let n := if s.hasEui eui i then ((s.node i).getD new).fresh 0 else new
  (s.modRad fun r => { r with nodes := Sparse.put r.nodes i { n with nextCtr := counter + 1, contact := s.rtc.count } }).showNodes

/-- A heard POLL to node `i`, with a counter that no earlier frame to it had: its DATA is awaited (R471, R479). -/
def State.heardPoll (s : State) (i ctr : Nat) (n : RadNode) : State :=
  if ctr < n.nextCtr then s.dropData 5 F.RAD_INT_STAT_replay none
  else
    let s := match s.rad.polled with | some j => s.missNode j | none => s
    (s.modNode i fun n => { n with nextCtr := ctr + 1 }).modRad fun r => { r with polled := some i }

/-- HEARD_FRAME (R479). -/
def execHeardFrame (h : RadHeard) (s : State) : Result :=
  if !(s.powered 2 && s.acting == 2) || s.radStopped then done s
  else match h with
    | .poll addr ctr good =>
      match (if good ∧ addr ≠ 0 then s.node (addr - 1) else none) with
      | some n => done (s.heardPoll (addr - 1) ctr n)
      | none => done (s.dropData 4 F.RAD_INT_STAT_auth_fail none)
    | .data d =>
      match (if d.addr = 0 then none else s.node (d.addr - 1)) with
      | some n =>
        let rekeyed := d.gen = some ((n.gen + 1) % 256)
        let s := if rekeyed then s.modNode (d.addr - 1) fun n => { n with rekeying := true } else s
        let n := (s.node (d.addr - 1)).getD n
        done (s.judgeData (d.addr - 1) n d none)
      | none => done (s.dropData 4 F.RAD_INT_STAT_auth_fail none)
    | .join eui i e slot phase drift kinds ctr good =>
      if !good then done (s.dropData 4 F.RAD_INT_STAT_auth_fail none)
      else done (s.heardJoin eui i ctr { eui := eui, e := e, slot := slot, phase := phase, drift := drift, kinds := kinds })

/-! ## The mirror (R480, R481) -/

def State.mirrorBase (s : State) : Nat := s.regN Reg.RAD_MIRROR_BASE_LO + 2 ^ 32 * s.fld ⟨Reg.RAD_MIRROR_BASE_HI, 0, 8⟩

/-- The radio registers its Tongs class, once (R273, R480). -/
def State.mirrorRegister (s : State) : State :=
  if !(s.flag F.RAD_CTRL_mirror_en && s.flag F.RAD_CTRL_enable) || s.rad.mirror.isSome then s
  else match (if (s.classOf 0x5244).isNone && s.powered 25 then s.freeClass else none) with
    | some c =>
      (s.addClass c 0x5244 (s.fld F.RAD_MIRROR_INT_ms) s.mirrorBase 65600).modRad fun r => { r with mirror := some c }
    | none => s.raise F.RAD_INT_STAT_mirror_refused

/-- RADIO_MIRROR_WRITE (R480): the table goes to the region, and the generation count to its end. -/
def execRadioMirrorWrite (s : State) : Result :=
  if !(s.coordinating && s.rad.mirror.isSome) then done s
  else
    let g := s.rad.mirrorGen + 1
    let table := (List.range 1024).flatMap fun i => match s.node i with | some n => nodeBytes i n | none => zeros 64
    let s := (s.writeMem 18 s.mirrorBase (table ++ zeros 56 ++ natLE 8 g)).2
    done (s.modRad fun r => { r with mirrorGen := g })

/-- One index of the merge: the entry with the later contact, with the larger counters, and beside the entry what this module keeps of
the node (R481). -/
def mergeNode (mine other : Option RadNode) : Option RadNode :=
  match mine, other with
  | none, none => none
  | some a, none => some { a with nextCtr := satU 32 (a.nextCtr + 2 ^ 20) }
  | none, some b => some { b with nextCtr := satU 32 (b.nextCtr + 2 ^ 20) }
  | some a, some b =>
    let keep := if a.contact < b.contact then
        { b with lastSeq := a.lastSeq, lux := a.lux, down := a.down, rekey := a.rekey, rekeying := a.rekeying }
      else a
    some { keep with lastCtr := max a.lastCtr b.lastCtr, nextCtr := satU 32 (max a.nextCtr b.nextCtr + 2 ^ 20) }

/-- The entries of the mirror region, where they can be read. -/
def State.readMirror (s : State) : List (Nat × RadNode) × State :=
  (List.range 1024).foldl (fun (acc : List (Nat × RadNode) × State) i =>
    let (a, s) := acc.2.readMem 18 (s.mirrorBase + 64 * i) 64
    match a with
    | .data b => if byteAt b 10 = 0 then (acc.1, s) else (acc.1 ++ [(i, nodeOf b)], s)
    | _ => (acc.1, s)) ([], s)

/-- A listener that becomes coordinator merges the mirror, where it has one, into its table (R481). -/
def State.mergeMirror (s : State) : State :=
  let (other, s) := if s.rad.mirror.isSome then s.readMirror else ([], s)
  let nodes := (List.range 1024).filterMap fun i =>
    (mergeNode (s.node i) ((other.find? fun n => n.1 == i).map (·.2))).map fun n => (i, n)
  (s.modRad fun r => { r with nodes := nodes }).showNodes

/-- The acting role changes; what the old role had begun ends, and a swap need not wait for its cycle (R552). -/
def State.setActing (s : State) (r : Nat) : State :=
  if s.acting = r then s
  else (((s.setFld F.RAD_STATUS_acting r).raise F.RAD_INT_STAT_role_change).modRad fun x =>
    { x with polled := none, judged := false, asked := none, resp := none }).showTcxo.takeSwap 3

/-- RADIO_ROLE_CHANGE (R453, R481): the role that is asked for takes effect, for a listener that becomes coordinator at a cycle
boundary, in slot 0. -/
def execRadioRoleChange (s : State) : Result :=
  if !s.powered 2 || s.wantedRole = s.acting then done s
  else if s.acting = 2 ∧ s.wantedRole = 1 then
    if s.radSlot = 0 then done (s.mergeMirror.setActing 1) else done s
  else done (s.setActing s.wantedRole)

/-! ## RAD_CTRL (R457, R470) -/

/-- The radio is enabled: the schedule is checked and the master key read. -/
def State.radEnable (s : State) (w : Word) : State :=
  if !s.scheduleFits then s.radRefused
  else
    let s := s.setReg Reg.RAD_CTRL (w &&& 0xE#32)
    match s.keyRequest 3 (s.fld F.RAD_CFG_key_slot) [3] [11] with
    | (.key k, s) =>
      let s := (s.raise F.RAD_CTRL_enable).modRad fun r => { r with master := k }
      (s.setActing s.wantedRole).mirrorRegister
    | (_, s) => s.radRefused

/-- The radio's class is released. -/
def State.mirrorRelease (s : State) : State := match s.rad.mirror with | some c => s.dropClass c | none => s

/-- The radio is disabled: its keys and its class go, and with no slot boundary to come, evictions take effect. -/
def State.radDisable (s : State) (w : Word) : State :=
  ((((s.setReg Reg.RAD_CTRL (w &&& 0xF#32)).modRad fun r => { r with master := [] }).setActing 0).applyEvictions fun _ => true).mirrorRelease

/-- A write of RAD_CTRL. -/
def State.radCtrlWrite (s : State) (w : Word) : State :=
  if fieldOf F.RAD_CTRL_role w = 3 then s.radRefused
  else if fieldOf F.RAD_CTRL_enable w = 1 ∧ !s.flag F.RAD_CTRL_enable then s.radEnable w
  else if fieldOf F.RAD_CTRL_enable w = 0 then s.radDisable w
  else
    let s := s.setReg Reg.RAD_CTRL (w &&& 0xF#32)
    if s.flag F.RAD_CTRL_mirror_en then s.mirrorRegister else s.mirrorRelease

/-- RADIO_ENABLE (R457, R470). -/
def execRadioEnable (ini : Nat) (w : Word) (s : State) : Result :=
  done (s.setupAccess ini Reg.RAD_CTRL true fun s => s.radCtrlWrite w)

/-! ## Commands of ring 0xA0 (R482) -/

/-- A command on a node: NOT_FOUND for an unknown short address. -/
def State.nodeCommand (s : State) (op : Nat) (k : Nat → List Byte → Nat → RadNode → State → Option Cpl × State) : State :=
  s.takeCommand 0xA0 op fun slot desc s =>
    let a := le desc 2 2
    match (if a = 0 then none else s.node (a - 1)) with
    | some n => k slot desc (a - 1) n s
    | none => (some { status := Status.notFound }, s)

/-- NODE_EVICT (R466, R467): at the next slot boundary; at once while no schedule runs. -/
def execNodeEvict (s : State) : Result :=
  done (s.nodeCommand 0x01 fun slot _ i _ s =>
    if s.acting = 0 then (some okCpl, (s.nodeTimeouts i).freeNode i)
    else (none, s.modRad fun r => { r with evict := r.evict ++ [(slot, i)] }))

/-- NODE_READ (R478). -/
def execNodeRead (s : State) : Result :=
  done (s.nodeCommand 0x02 fun _ desc i n s =>
    let a := le desc 8 8
    if a % 64 ≠ 0 ∨ 2 ^ 40 ≤ a then (some (badField 0x88), s)
    else match s.writeMem 18 a (nodeBytes i n) with
      | (.data _, s) => (some okCpl, s)
      | (.denied, s) => (some { status := Status.accessDenied }, s)
      | (.error, s) => (some { status := Status.memoryError }, s))

/-- DOWNLINK (R482): the next POLL carries the data. -/
def execDownlink (s : State) : Result :=
  done (s.nodeCommand 0x03 fun slot desc i n s =>
    let len := byteAt desc 4
    if len = 0 ∨ 8 < len then (some (badField 0x84), s)
    else if n.down.isSome then (some { status := Status.busy }, s)
    else (none, s.modNode i fun n => { n with down := some (slot, sliceB desc 16 len, false) }))

/-- REKEY (R472, R482). -/
def execRekey (s : State) : Result :=
  done (s.nodeCommand 0x04 fun slot _ i n s =>
    if n.rekey.isSome then (some { status := Status.busy }, s)
    else (none, s.modNode i fun n => { n with rekey := some slot }))

end Sys2Proof.Machine
end

