-- ==== Sys2Proof/Machine/Hearth.lean ====
section
/-! DEFINITION. The commands of the Hearth: doorbells and ring set-up (R293 to R302), interrupts (R307 to R311), mailbox
queues (R312 to R318) and the lockstep pair (R291). -/

namespace Sys2Proof.Machine

/-- An HRT register write is discarded (R294). -/
def State.hrtRefused (s : State) : State := s.raise F.HRT_INT_STAT_cfg_refused

/-! ## Doorbells and rings -/

/-- A doorbell is discarded: its word is recorded (R296). -/
def State.doorbellBad (s : State) (w : Word) (unknown : Bool) : State :=
  let s := s.setReg Reg.HRT_DB_LAST_BAD w
  if unknown then (s.bump 1 2).raise F.HRT_INT_STAT_db_unknown else (s.bump 1 1).raise F.HRT_INT_STAT_db_bad

/-- A doorbell word written by `ini`: the checks of R296 and R533, then the producer index; the engine then looks at the
head of its ring. -/
def State.doorbell (s : State) (ini : Nat) (w : Word) : State :=
  let n := fieldOf F.DBL_RING_ring w
  let v := fieldOf F.DBL_RING_producer w
  if n = 0x08 ∧ s.flag F.KEY_CFG_lock ∧ ini ≠ 4 then (s.bump 15 8).raise F.KEY_INT_STAT_db_locked
  else if !ringAssigned n || !s.ringEnabled n then s.doorbellBad w true
  else if s.ringMod n ≤ v ∨ s.ringSize n < s.ringDiff n v (s.regN (Reg.HRT_RING_CONS n)) then s.doorbellBad w false
  else
    let s := (s.setReg (Reg.HRT_RING_PROD n) (BitVec.ofNat 32 v)).bump 1 0
    let s := if n = 0x08 then s.modKey fun k => { k with doorbellBy := ini } else s
    let s := if n = 0x50 then s.modBoot fun b => { b with updBy := ini } else s
    let s := if n = 0x58 then s.modRec fun r => { r with doorbellBy := ini } else s
    s.settle n

/-- Both arrays of ring `n`, at `size` entries, are aligned to 4 KiB and lie wholly inside DRAM (R294). -/
def State.ringBasesGood (s : State) (n size : Nat) : Bool :=
  s.descBase n % 4096 == 0 && s.cplBase n % 4096 == 0 &&
    s.descBase n + 32 * size ≤ 2 ^ 32 && s.cplBase n + 16 * size ≤ 2 ^ 32

/-- A write of HRT_RING_CFG_n: discarded in the cases of R294; enabling sets the four indices to 0, and disabling leaves
the ring busy while a descriptor is being executed (R301). -/
def State.ringCfgWrite (s : State) (n : Nat) (w : Word) : State :=
  let en := fieldOf (F.HRT_RING_CFG_enable n) w == 1
  let size := fieldOf (F.HRT_RING_CFG_size_log2 n) w
  let vec := fieldOf (F.HRT_RING_CFG_vector n) w
  let busy := s.flag (F.HRT_RING_CFG_busy n)
  let was := s.ringEnabled n
  if !ringAssigned n || size < 4 || 16 < size || 95 < vec
      || (en && (!s.ringBasesGood n (2 ^ size) || busy))
      || ((was || busy) && (size != s.fld (F.HRT_RING_CFG_size_log2 n) || vec != s.fld (F.HRT_RING_CFG_vector n)))
  then s.hrtRefused
  else
    let s := ((s.setFld (F.HRT_RING_CFG_enable n) (b2n en)).setFld (F.HRT_RING_CFG_size_log2 n) size).setFld
      (F.HRT_RING_CFG_vector n) vec
    if en && !was then
      let s := (((s.setReg (Reg.HRT_RING_PROD n) 0).setReg (Reg.HRT_RING_CONS n) 0).setReg (Reg.HRT_RING_CPL_HEAD n) 0).setReg
        (Reg.HRT_RING_CPL_TAIL n) 0
      s.modHrt fun h => { h with aged := h.aged.filter (· != n), stalled := h.stalled.filter (· != n) }
    else if !en && was && s.hrt.inflight.any (fun i => i.ring == n) then s.raise (F.HRT_RING_CFG_busy n)
    else s

def execRingCfgWrite (ini n : Nat) (w : Word) (s : State) : Result :=
  done (s.setupAccess ini (Reg.HRT_RING_CFG n) true fun s => s.ringCfgWrite n w)

/-- RING_DRAIN_DONE (R301): the engine has written the last completion it owes after a disable. -/
def execRingDrainDone (n : Nat) (s : State) : Result :=
  if !s.ringEnabled n && s.flag (F.HRT_RING_CFG_busy n) && !s.hrt.inflight.any (fun i => i.ring == n) then
    done (s.lower (F.HRT_RING_CFG_busy n))
  else done s

/-- A write of HRT_RING_CPL_TAIL_n (R299): discarded if it lies beyond the index's width or would pass CPL_HEAD; otherwise
the completions are released and the ring is looked at again. -/
def State.cplTailWrite (s : State) (n : Nat) (w : Word) : State :=
  let v := bits w.toNat 0 17
  let tail := s.regN (Reg.HRT_RING_CPL_TAIL n)
  if !ringAssigned n || s.ringMod n ≤ v || s.unreleased n < s.ringDiff n v tail then s.hrtRefused
  else
    let s := s.setReg (Reg.HRT_RING_CPL_TAIL n) (BitVec.ofNat 32 v)
    let s := if v = tail then s else s.modHrt fun h => { h with aged := h.aged.filter (· != n) }
    s.settle n

def execCplTailWrite (ini n : Nat) (w : Word) (s : State) : Result :=
  done (s.setupAccess ini (Reg.HRT_RING_CPL_TAIL n) true fun s => s.cplTailWrite n w)

/-- COALESCE_TIMER (R309): the oldest unreleased completion of ring `n` has reached time_us. -/
def execCoalesceTimer (n : Nat) (s : State) : Result :=
  if s.ringEnabled n && 0 < s.unreleased n && s.fld (F.HRT_RING_COAL_time_us n) != 0 && !s.hrt.aged.contains n then
    done (s.modHrt fun h => { h with aged := n :: h.aged })
  else done s

/-! ## Interrupts -/

/-- A claim at agent `c`: the vector of highest priority is answered and placed in service, or empty = 1 (R307, R308). -/
def State.irqClaim (s : State) (c : Nat) : State :=
  match s.nextVector c with
  | none => s.answerWith (.word 0x100)
  | some v =>
    let key := 16 * c + s.fld (F.HRT_VEC_ROUTE_priority v)
    let s := s.modHrt fun h => { h with
      inService := h.inService ++ [(v, c)]
      lastClaim := Sparse.set (fun _ => 0) h.lastClaim key (v + 1) }
    (s.answerWith (.word (BitVec.ofNat 32 v))).pmc 1 (64 + c) 0

def execIrqClaim (ini c : Nat) (s : State) : Result :=
  done (s.setupAccess ini (Reg.HRT_IRQ_CLAIM c) false fun s => s.irqClaim c)

/-- The end of service of a vector at agent `c`; one not in service there is ignored (R307). -/
def State.irqEoi (s : State) (c : Nat) (w : Word) : State :=
  s.modHrt fun h => { h with inService := h.inService.filter (· != (fieldOf (F.HRT_IRQ_EOI_vector c) w, c)) }

def execIrqEoi (ini c : Nat) (w : Word) (s : State) : Result :=
  done (s.setupAccess ini (Reg.HRT_IRQ_EOI c) true fun s => s.irqEoi c w)

/-- Software interrupts are raised: the written bits join HRT_SWI_STAT (R311). -/
def State.swiSet (s : State) (w : Word) : State := s.setReg Reg.HRT_SWI_STAT (s.reg Reg.HRT_SWI_STAT ||| w)

def execSwiSet (ini : Nat) (w : Word) (s : State) : Result :=
  done (s.setupAccess ini Reg.HRT_SWI_SET true fun s => s.swiSet w)

/-! ## Mailbox queues -/

def State.mailbox (s : State) (q : Nat) : Mailbox := nth s.hrt.mbx q {}
def State.setMailbox (s : State) (q : Nat) (m : Mailbox) : State := s.modHrt fun h => { h with mbx := h.mbx.set q m }

/-- A foreign access, or a held write lost to a disable (R312, R316). -/
def State.mbxForeign (s : State) : State := (s.bump 1 7).raise F.HRT_INT_STAT_mbx_foreign

/-- One even-parity bit for each byte of a word (R313). -/
def evenParity (d : BitVec 64) : BitVec 8 :=
  BitVec.ofNat 8 ((List.range 8).foldl (fun a b => a + (popCount 8 (d.toNat >>> (8 * b)) % 2) * 2 ^ b) 0)

/-- A word arrives at queue `q`: it is discarded while a drop looks for the end of a packet (R317), otherwise stored. -/
def State.mbxArrive (s : State) (q : Nat) (d : BitVec 64) : State :=
  let m := s.mailbox q
  if m.dropping then (s.setMailbox q { m with dropping := !d.getLsbD 61 }).bump 1 8
  else
    (s.setMailbox q { m with words := m.words ++ [⟨d, evenParity d⟩], wrPtr := (m.wrPtr + 1) % 1024 }).pmc 1 (69 + q) 0

/-- The sender's initiator: agent numbers 0 to 7 are initiator IDs 0 to 7 (R289, R325). -/
def State.mbxSender (s : State) (q ini : Nat) : Bool := s.fld (F.HRT_MBX_CFG_sender q) == ini
def State.mbxReceiver (s : State) (q ini : Nat) : Bool := s.fld (F.HRT_MBX_CFG_receiver q) == ini
def State.mbxOn (s : State) (q : Nat) : Bool := s.flag (F.HRT_MBX_CFG_enable q)

/-- The low payload word is staged for its initiator (R313). -/
def State.mbxLo (s : State) (ini : Nat) (w : Word) : State :=
  s.modHrt fun h => { h with staging := Sparse.put h.staging ini w }

def execMbxWdataLoWrite (ini q : Nat) (w : Word) (s : State) : Result :=
  done (s.setupAccess ini (Reg.HRT_MBX_WDATA_LO q) true fun s => s.mbxLo ini w)

/-- The high word queues the message with valid 1 and poison 0; a full queue holds the writer (R313, R316); a word of an
agent that is not the sender, or for a queue that is not enabled, is discarded and counted (R312; assumption 13). -/
def State.mbxOffer (s : State) (ini q : Nat) (w : Word) : State :=
  let lo := Sparse.get (fun _ => (0 : Word)) s.hrt.staging ini
  let d : BitVec 64 := ((1#1 ++ 0#1) ++ w.extractLsb' 0 30) ++ lo
  if !s.mbxSender q ini || !s.mbxOn q then s.mbxForeign
  else if (s.mailbox q).words.length < 512 then s.mbxArrive q d
  else (s.setMailbox q { s.mailbox q with held := some (ini, d) }).answerWith .held

/-- A held write enters the queue if there is room (R316). -/
def State.mbxUnhold (s : State) (q : Nat) : State :=
  match (s.mailbox q).held with
  | some (_, d) =>
    if (s.mailbox q).words.length < 512 then
      ((s.setMailbox q { s.mailbox q with held := none }).mbxArrive q d).answerWith .ok
    else s
  | none => s

/-- A write of WDATA_HI: a word that is held goes first (R316). -/
def State.mbxHi (s : State) (ini q : Nat) (w : Word) : State := (s.mbxUnhold q).mbxOffer ini q w

def execMbxWdataHiWrite (ini q : Nat) (w : Word) (s : State) : Result :=
  done (s.setupAccess ini (Reg.HRT_MBX_WDATA_HI q) true fun s => s.mbxHi ini q w)

/-- MBX_HELD_WRITE_QUEUED (R316). -/
def execMbxHeldWriteQueued (q : Nat) (s : State) : Result := done (s.mbxUnhold q)

/-- The word as delivered: as stored, with poison 1 if a byte fails its parity check (R315). -/
def mbxDelivered (w : MbxWord) : BitVec 64 × Bool :=
  if evenParity w.data = w.parity then (w.data, false) else (w.data ||| BitVec.ofNat 64 (2 ^ 62), true)

/-- A read of RDATA_LO: the head word leaves the queue, its high half goes to the reader's holder (R314); an empty queue
answers 0; another agent than the receiver takes nothing (R312). `upset` flips stored bits of the head word: data in bits
63 to 0, parity above. -/
def State.mbxRead (s : State) (ini q upset : Nat) : State :=
  if !s.mbxReceiver q ini then s.mbxForeign.answerWith (.word 0)
  else
    let m := s.mailbox q
    match m.words with
    | [] => (s.setHolder ini 0 [0]).answerWith (.word 0)
    | w :: ws =>
      let w : MbxWord := ⟨w.data ^^^ BitVec.ofNat 64 upset, w.parity ^^^ BitVec.ofNat 8 (upset >>> 64)⟩
      let (d, bad) := mbxDelivered w
      let s := (s.setMailbox q { m with words := ws, rdPtr := (m.rdPtr + 1) % 1024 }).pmc 1 (85 + q) 0
      let s := if bad then (s.bump 1 6).raise F.HRT_INT_STAT_mbx_poison else s
      (s.setHolder ini 0 [d.extractLsb' 32 32]).answerWith (.word (d.extractLsb' 0 32))

def execMbxRdataLoRead (ini q : Nat) (upset : Nat) (s : State) : Result :=
  done (s.setupAccess ini (Reg.HRT_MBX_RDATA_LO q) false fun s => s.mbxRead ini q upset)

/-- The queue is emptied and a drop ends (R316). -/
def State.mbxEmpty (s : State) (q : Nat) : State :=
  let m := s.mailbox q
  s.setMailbox q { m with words := [], rdPtr := m.wrPtr, dropping := false }

/-- A disable empties the queue and discards a held write (R316). -/
def State.mbxDisable (s : State) (q : Nat) : State :=
  let s := s.mbxEmpty q
  if (s.mailbox q).held.isSome then ((s.setMailbox q { s.mailbox q with held := none }).mbxForeign).answerWith .ok else s

/-- Words are discarded from the head up to and including the first with end-of-packet; if it has not arrived, each word
that arrives is discarded until it does (R317). -/
def State.mbxDrop (s : State) (q : Nat) : State :=
  let m := s.mailbox q
  if m.dropping then s
  else
    let n := (m.words.takeWhile (fun w => !w.data.getLsbD 61)).length
    let found := n < m.words.length
    let gone := if found then n + 1 else n
    (s.setMailbox q { m with words := m.words.drop gone, rdPtr := (m.rdPtr + gone) % 1024, dropping := !found }).bump 1 8 0 gone

/-- A write of HRT_MBX_CTRL_q: flush, then drop_pkt, which only the receiver may give (R316, R317). -/
def State.mbxCtrl (s : State) (ini q : Nat) (w : Word) : State :=
  let s := if fieldOf (F.HRT_MBX_CTRL_flush q) w = 1 then s.mbxEmpty q else s
  if fieldOf (F.HRT_MBX_CTRL_drop_pkt q) w = 1 ∧ s.mbxReceiver q ini then s.mbxDrop q else s

def execMbxFlush (ini q : Nat) (w : Word) (s : State) : Result :=
  if fieldOf (F.HRT_MBX_CTRL_flush q) w = 1 then
    done (s.setupAccess ini (Reg.HRT_MBX_CTRL q) true fun s => s.mbxCtrl ini q w)
  else done s

def execMbxDropPkt (ini q : Nat) (w : Word) (s : State) : Result :=
  if fieldOf (F.HRT_MBX_CTRL_drop_pkt q) w = 1 then
    done (s.setupAccess ini (Reg.HRT_MBX_CTRL q) true fun s => s.mbxCtrl ini q w)
  else done s

/-! ## The lockstep pair -/

/-- LOCKSTEP_MISMATCH (R291). -/
def execLockstepMismatch (s : State) : Result := if s.powered 4 then done s.lockstepError else done s

/-- LOCKSTEP_RESTART (R291): after 10 µs in reset the pair restarts from its reset vector. -/
def execLockstepRestart (s : State) : Result := done (s.lower F.HRT_STATUS_rt_reset)

end Sys2Proof.Machine
end

