-- ==== Sys2Proof/Machine/NetTx.lean ====
section
/-! DEFINITION. Transmission: descriptors to frames (R106 to R109), launch times (R77 to R79, R112 to R114), the credit-based shaper
(R110, R111), and the doorbell, which tells a transmit queue of new frames. -/

namespace Sys2Proof.Machine

/-! ## Queues -/

/-- The ring of queue `q` of port `p`. -/
def txRing (p q : Nat) : Nat := 0x20 + 8 * p + q

def State.txq (s : State) (p q : Nat) : TxQ := Sparse.get (fun _ => ({} : TxQ)) s.net.txq (8 * p + q)

def State.modTxq (s : State) (p q : Nat) (f : TxQ → TxQ) : State :=
  s.modNet fun t => { t with txq := Sparse.set (fun _ => ({} : TxQ)) t.txq (8 * p + q) (f (Sparse.get (fun _ => {}) t.txq (8 * p + q))) }

/-- The port rate in Mb/s (R110). -/
def portRate (p : Nat) : Nat := if p < 2 then 100000 else 1000

/-- The time that `n` bytes of wire length take on port `p` (R111). -/
def wireTime (p n : Nat) : Nat := (ns * (n * 8 * 1000) + portRate p - 1) / portRate p

def State.shaped (s : State) (p q : Nat) : Bool := s.flag (F.NET_TXQ_CFG_cbs_en p q)
def State.slope (s : State) (p q : Nat) : Nat := s.fld (F.NET_TXQ_CFG_idle_slope p q)

/-- hi_credit and lo_credit in 2^−8 bit (R111). -/
def State.hiCredit (s : State) (p q : Nat) : Int := ((s.fld (F.NET_TXQ_HI_hi_credit p q) * 8 * 256 : Nat) : Int)
def State.loCredit (s : State) (p q : Nat) : Int :=
  rneI (((s.maxFrame p + 20) * 8 * 256 : Nat) * ((s.slope p q : Int) - portRate p)) (portRate p)

/-- The queue holds a frame: the engine holds its head, or descriptors wait. -/
def State.holdsFrame (s : State) (p q : Nat) : Bool := (s.txq p q).head.isSome || (s.ringEnabled (txRing p q) && 0 < s.waiting (txRing p q))

/-- The credit of a queue that does not send, at wall time `t` (R111). -/
def State.creditAt (s : State) (p q t : Nat) : Int :=
  let x := s.txq p q
  let grown := x.credit + rneI ((s.slope p q * (s.wallDiff t x.at_).toNat : Nat) : Int) 256000
  if s.holdsFrame p q then min grown (s.hiCredit p q)
  else if 0 < x.credit then 0 else min 0 grown

/-- Cycles of the 400 MHz MAC clock in a time (R395). -/
def macCycles (t : Nat) : Nat := t * 2 / (5 * ns)

/-- The cycles in which a shaped queue holds a frame and lacks credit, and those in which a head frame of the port waits for its
launch time, are seen by the performance monitors (R580). -/
def State.txPmc (s : State) (p q t : Nat) : State :=
  let x := s.txq p q
  let short := if s.shaped p q ∧ s.holdsFrame p q ∧ x.credit < 0 ∧ s.slope p q ≠ 0 then
    min (t - x.at_) (256000 * (-x.credit).toNat / s.slope p q) else 0
  let s := if macCycles short = 0 then s else s.pmc 3 (72 + q) p (macCycles short)
  match x.head.bind (·.launch) with
  | some l => let w := macCycles (min t l - x.at_); if w = 0 then s else s.pmc 3 80 p w
  | none => s

/-- The credits of port `p` are brought forward to wall time `t`. -/
def State.txAdvance (s : State) (p t : Nat) : State :=
  (List.range 8).foldl (fun s q =>
    if !s.later t (s.txq p q).at_ then s
    else
      let s := s.txPmc p q t
      let c := if s.shaped p q then s.creditAt p q t else 0
      s.modTxq p q fun x => { x with credit := c, at_ := t }) s

/-! ## Taking a frame (R106 to R109) -/

/-- A transmit completion entry (R109). -/
def txCpl (status n : Nat) (ident : Option Nat) (late : Bool) (bytes : Nat) : Cpl :=
  { status := status, w0 := b2n late * 2 ^ 8, w1 := n + 2 ^ 16 * ident.getD 0, w2 := bytes }

/-- What the descriptors of a frame are found to be. -/
inductive TxTake where
  /-- The frame's end has not been posted yet, or the engine may not take. -/
  | wait
  /-- The descriptors, first to last; one that could not be read ends them with a status. -/
  | descs (ds : List (List Byte)) (fail : Option Nat)
  deriving DecidableEq, Repr

/-- Descriptors from index `i` of ring `n` up to eop, sixteen, or one that cannot be read (R107). -/
def State.readTx (n : Nat) : Nat → Nat → List (List Byte) → State → TxTake × State
  | 0, _, acc, s => (.descs acc none, s)
  | fuel + 1, i, acc, s =>
    if s.ringDiff n (s.regN (Reg.HRT_RING_PROD n)) i = 0 then (.wait, s)
    else
      let (a, s) := s.readMem 13 (s.descBase n + 32 * (i % s.ringSize n)) 32
      match a with
      | .data d =>
        if (byteAt d 10).testBit 1 then (.descs (acc ++ [d]) none, s) else State.readTx n fuel (s.ringNext n i) (acc ++ [d]) s
      | .denied => (.descs acc (some Status.accessDenied), s)
      | .error => (.descs acc (some Status.memoryError), s)

/-- The checks of R107 on a frame's descriptors. -/
def State.txFormatGood (s : State) (p : Nat) (ds : List (List Byte)) : Bool :=
  let len := ds.foldl (fun a d => a + le d 8 2) 0
  ((ds.head?.map fun d => (byteAt d 10).testBit 0) == some true) &&
    (ds.drop 1).all (fun d => !(byteAt d 10).testBit 0) &&
    ((ds.getLast?.map fun d => (byteAt d 10).testBit 1) == some true) &&
    ds.all (fun d => le d 0 8 < 2 ^ 40 && 1 ≤ le d 8 2 && le d 8 2 ≤ 16384) &&
    len + 4 + (if s.macsecOn p then 32 else 0) ≤ s.maxFrame p

/-- The buffers of a frame are read (R108): the bytes, or the status of the first read that fails. -/
def State.readBuffers : List (List Byte) → List Byte → State → Except Nat (List Byte) × State
  | [], acc, s => (.ok acc, s)
  | d :: l, acc, s =>
    let (a, s) := s.readMem 13 (le d 0 8) (le d 8 2)
    match a with
    | .data bs => State.readBuffers l (acc ++ bs) s
    | .denied => (.error Status.accessDenied, s)
    | .error => (.error Status.memoryError, s)

/-- What a frame's launch time makes of it as it reaches the head of its queue, at wall time now (R78, R79, R114). -/
inductive Launch where
  | refused | none | held (t : Nat) | late
  deriving DecidableEq, Repr

def State.launchOf (s : State) (p : Nat) (d : List Byte) : Launch :=
  if !(byteAt d 10).testBit 3 then .none
  else match s.fromShort (le d 16 8) with
    | Option.none => .refused
    | some t =>
      if (second : Int) < s.wallDiff t s.wall then .refused
      else if s.later s.wall t || s.later (nth s.net.busy p 0) t then .late
      else .held t

/-- The launch time of a frame's first descriptor is malformed (R20). -/
def launchMalformed (d : List Byte) : Bool := (byteAt d 10).testBit 3 && decide (1000000000 ≤ bits (le d 16 8) 16 32)

/-- A frame of ring `n` completes with `c`. -/
def State.txDone (s : State) (n slot : Nat) (c : Cpl) : State :=
  (if c.status = Status.memoryError then s.descError else s).finish n slot c

/-- The head frame of a queue is late (R79): launch_late is set; it is dropped, or will be sent with the late flag. -/
def State.txLate (s : State) (p q : Nat) (h : TxHead) : State :=
  let s := s.raise F.TMK_INT_STAT_launch_late
  if s.flag (F.TMK_PORT_CFG_late_drop p) then
    ((s.modTxq p q fun x => { x with head := none }).bump 3 23 p).finish (txRing p q) h.slot (txCpl Status.late h.n h.ident false 0)
  else s.modTxq p q fun x => { x with head := some { h with launch := none, late := true } }

/-- A frame whose bytes have been read becomes the head of its queue, or is refused (R78, R79, R106, R107). A frame that the host gives
the EtherType 0x8808 is sent as any other: R107 does not refuse it, and R83 binds what the module makes itself (assumption 89). -/
def State.txHold (s : State) (p q slot : Nat) (ds : List (List Byte)) (bytes : List Byte) : State :=
  let d := ds.headD []
  let n := ds.length
  let ident := if (byteAt d 10).testBit 2 then some (le d 12 2) else none
  let f := bytes ++ zeros (60 - bytes.length)
  let h := parseFrame f (f.length + 4)
  let csum := (byteAt d 10).testBit 4
  if csum && (h.mismatch || !(h.cls == 3 || h.cls == 4)) then
    s.finish (txRing p q) slot (txCpl Status.formatError n ident false 0)
  else
    let f := if csum then fillChecksums f h else f
    let head : TxHead := { slot := slot, n := n, bytes := f, ident := ident }
    match s.launchOf p d with
    | .refused => s.finish (txRing p q) slot (txCpl Status.formatError n ident false 0)
    | .none => s.modTxq p q fun x => { x with head := some head }
    | .held t => s.modTxq p q fun x => { x with head := some { head with launch := some t } }
    | .late => s.txLate p q head

/-- The consumer index of ring `n` moves past `k` descriptors of one frame, whose completion will name `slot`. -/
def State.takeFrame (s : State) (n k slot : Nat) (d : List Byte) : State :=
  let cons := (s.regN (Reg.HRT_RING_CONS n) + k) % s.ringMod n
  (s.setReg (Reg.HRT_RING_CONS n) (BitVec.ofNat 32 cons)).modHrt fun h => { h with
    inflight := h.inflight ++ [{ ring := n, slot := slot, desc := d }], stalled := h.stalled.filter (· != n) }

/-- The next frame of a queue is taken to its head; frames that are refused complete at once, and the one behind follows. A descriptor
that cannot be read is reported with its own slot and nothing else, and the frame that it belonged to is given up (R302). -/
def State.txTake (p q : Nat) : Nat → State → State
  | 0, s => s
  | fuel + 1, s =>
    let n := txRing p q
    if (s.txq p q).head.isSome then s
    else if s.ringEnabled n && s.engineOn n && 0 < s.waiting n && s.cplFull n then s.cplStall n
    else if !s.canTake n then s
    else
      let slot := s.headSlot n
      match State.readTx n 16 (s.regN (Reg.HRT_RING_CONS n)) [] s with
      | (.wait, _) => s
      | (.descs ds (some c), s) =>
        let bad := (slot + ds.length) % s.ringSize n
        State.txTake p q fuel ((s.takeFrame n (ds.length + 1) bad []).txDone n bad { status := c })
      | (.descs ds none, s) =>
        let s := s.takeFrame n ds.length slot (ds.headD [])
        let ident := if (byteAt (ds.headD []) 10).testBit 2 then some (le (ds.headD []) 12 2) else none
        if !s.txFormatGood p ds || launchMalformed (ds.headD []) then
          State.txTake p q fuel (s.finish n slot (txCpl Status.formatError ds.length ident false 0))
        else match State.readBuffers ds [] s with
          | (.ok bytes, s) => State.txTake p q fuel (s.txHold p q slot ds bytes)
          | (.error c, s) =>
            let s := if c = Status.memoryError then s.bump 3 24 p else s
            State.txTake p q fuel (s.finish n slot (txCpl c ds.length ident false 0))

/-- Every queue of port `p` takes its next frame. -/
def State.txFill (s : State) (p : Nat) : State :=
  (List.range 8).foldl (fun s q => State.txTake p q (s.waiting (txRing p q) + 1) s) s

/-! ## Sending (R108 to R114) -/

/-- The wire length of the head frame of a queue (R111). -/
def State.headWire (s : State) (p : Nat) (h : TxHead) : Nat :=
  h.bytes.length + 4 + 20 + (if s.macsecOn p && !s.macsecBypass p (be h.bytes 12 2) then 32 else 0)

/-- The earliest launch time for which a head frame of port `p` is held (R113). -/
def State.nextLaunch (s : State) (p : Nat) : Option Nat :=
  ((List.range 8).filterMap fun q => (s.txq p q).head.bind (·.launch)).min?

/-- A queue is eligible at wall time `t` (R110, R112, R113). -/
def State.eligible (s : State) (p q t : Nat) : Bool :=
  match (s.txq p q).head with
  | some h => h.launch.isNone && (!s.shaped p q || 0 ≤ (s.txq p q).credit) &&
      (match s.nextLaunch p with | some l => !s.later (t + wireTime p (s.headWire p h)) l | none => true)
  | none => false

/-- The credit of a shaped queue after a frame of `n` bytes of wire length (R111). -/
def State.spend (s : State) (p q n : Nat) : State :=
  if !s.shaped p q then s
  else
    let c := (s.txq p q).credit + rneI ((n * 8 * 256 : Nat) * ((s.slope p q : Int) - portRate p)) (portRate p)
    s.modTxq p q fun x => { x with credit := max c (s.loCredit p q) }

/-- A frame leaves port `p` with its first bit at the raw stamp `t`: onto the medium, or in loopback back into the port while the medium
carries idles. -/
def State.frameOut (s : State) (p t : Nat) (w : List Byte) : State :=
  if s.flag (F.NET_PORT_CFG_loopback p) then s.frameIn p w true t else s.emit (.frame p w)

/-- The head frame `h` of a queue starts on the wire at `t`, whose raw stamp that is (R49, R73, R109). -/
def State.txStart (s : State) (p q t : Nat) (h : TxHead) : State :=
  let n := txRing p q
  let s := s.modTxq p q fun x => { x with head := none }
  match s.macsecOut p h.bytes with
  | (none, s) => (s.finish n h.slot (txCpl Status.keyRefused h.n h.ident false 0))
  | (some w, s) =>
    let stop := t + wireTime p (w.length + 24)
    let s := s.modNet fun x => { x with busy := x.busy.set p stop }
    let s := (s.spend p q (w.length + 24)).modTxq p q fun x => { x with at_ := stop }
    let s := (s.bump 3 19 p (w.length + 4)).bump 3 20 p
    let s := if isMulticast w then s.bump 3 21 p else s
    let s := (if h.late then s.bump 3 22 p else s).pmc 3 (64 + q) p
    let s := match h.ident with | some i => if s.stamping p then s.tsqPush i p (s.egressStamp p t) else s | none => s
    (s.finish n h.slot (txCpl Status.ok h.n h.ident h.late (w.length + 4))).frameOut p t w

/-- Head frames whose launch time falls while the medium is busy are late (R114). -/
def State.txConflicts (s : State) (p : Nat) : State :=
  (List.range 8).foldl (fun s q =>
    match (s.txq p q).head with
    | some h => match h.launch with
      | some l => if s.later (nth s.net.busy p 0) l then s.txLate p q h else s
      | none => s
    | none => s) s

/-- Head frames whose launch time has passed while they could not be sent are late (R79, R84). -/
def State.txOverdue (s : State) (p : Nat) : State :=
  (List.range 8).foldl (fun s q =>
    match (s.txq p q).head with
    | some h => if h.launch.any (s.later s.wall ·) then s.txLate p q h else s
    | none => s) s

/-- TX_FRAME_SEND (R110): at wall time `t` the medium of port `p` is free, and the highest eligible queue sends. -/
def execTxFrameSend (p t : Nat) (s : State) : Result :=
  if !(p < 3 && s.netLink p && !s.later (nth s.net.busy p 0) t) then done s
  else
    let s := ((((s.txAdvance p s.wall).txOverdue p).txFill p).reach t).txAdvance p t
    match (List.range 8).reverse.find? fun q => s.eligible p q t with
    | some q =>
      match (s.txq p q).head with
      | some h => done (((s.txStart p q t h).txConflicts p).txFill p)
      | none => done s
    | none => done s

/-- LAUNCH_TIME_REACHED (R77, R112, R114): the head frame of queue `q` starts so that its first bit is at the medium-dependent interface
at its launch time, unless a head frame of a higher queue has a launch time within one wire length, which makes this one late. A
launch time that a step of wall time has jumped over starts its frame at once (assumption 90). -/
def execLaunchTimeReached (p q : Nat) (s : State) : Result :=
  let s := s.txFill p
  match (s.txq p q).head with
  | some h =>
    match h.launch with
    | some l =>
      if !(p < 3 && s.netLink p) then done s
      else
        let raw := s.rawEgress p l
        let t := if s.later s.wall raw then s.wall else raw
        let s := (s.reach t).txAdvance p t
        let rival := (List.range 8).any fun r => q < r && (match (s.txq p r).head.bind (·.launch) with
          | some l' => s.later (l + wireTime p (s.headWire p h)) l' | none => false)
        if rival ∨ s.later (nth s.net.busy p 0) t then done (s.txLate p q h)
        else done (((s.txStart p q t h).txConflicts p).txFill p)
    | none => done s
  | none => done s

/-! ## The doorbell (R296) -/

/-- A write of DBL_RING (R296): a transmit queue's credit is brought up to the instant, and its next frame taken to its head. -/
def State.dblWrite (s : State) (ini : Nat) (w : Word) : State :=
  let n := fieldOf F.DBL_RING_ring w
  if 0x20 ≤ n ∧ n < 0x38 then
    let p := (n - 0x20) / 8
    ((s.txAdvance p s.wall).doorbell ini w).txFill p
  else s.doorbell ini w

/-- DOORBELL (R296). -/
def execDoorbell (ini : Nat) (w : Word) (s : State) : Result :=
  done (s.setupAccess ini Reg.DBL_RING true fun s => s.dblWrite ini w)

end Sys2Proof.Machine
end

