-- ==== Sys2Proof/Machine/RegRules.lean ====
section
/-! DEFINITION. When a write of a register is discarded whole: the ranges of the register tables, and the conditions that other rules
put on a write. Registers whose write has a row of its own check in their own operation. -/

namespace Sys2Proof.Machine

/-- A field of the word lies from `lo` to `hi`. -/
def inside (f : Field) (w : Word) (lo hi : Nat) : Bool := lo ≤ fieldOf f w && fieldOf f w ≤ hi

/-- A two's complement field of the word lies from `lo` to `hi`. -/
def insideI (f : Field) (w : Word) (lo hi : Int) : Bool := lo ≤ signed f.width (fieldOf f w) && signed f.width (fieldOf f w) ≤ hi

/-- The write leaves a field as it is. -/
def State.keeps (s : State) (f : Field) (w : Word) : Bool := fieldOf f w == s.fld f

/-! ## Report rings -/

/-- The report rings: their first register, and how many low bits of the base must be 0. -/
def reportRings : List (Nat × Nat) :=
  [(Reg.ANV_RPT_BASE_LO, 4), (Reg.SCN_RPT_BASE_LO, 4), (Reg.MTR_RES_BASE_LO, 7), (Reg.MTR_HRM_BASE_LO, 11),
   (Reg.RAD_RPT_BASE_LO, 4), (Reg.CAB_RPT_BASE_LO, 7)]

/-- The report ring whose BASE_LO, BASE_HI or CFG lies at `a`. -/
def reportRingAt (a : Nat) : Option (Nat × Nat) := reportRings.find? fun r => r.1 ≤ a && a ≤ r.1 + 8

/-- A write of a report ring's set-up breaks the rules of ANV_RPT_BASE and ANV_RPT_CFG. -/
def State.rptBad (s : State) (a : Nat) (w : Word) (r : Nat × Nat) : Bool :=
  if a = r.1 + 8 then
    let size := bits w.toNat 0 5
    size < 4 || 16 < size || (s.rptEnabled r.1 && size != bits (s.regN a) 0 5)
  else s.rptEnabled r.1 || (a == r.1 && w.toNat % 2 ^ r.2 != 0)

/-! ## Block by block -/

/-- HRT (R294, R310, R312): ring context, routes and mailboxes. -/
def State.hrtBad (s : State) (a : Nat) (w : Word) : Bool :=
  if 0x400 ≤ a ∧ a < 0x800 then 4 < bits w.toNat 0 3
  else if 0x1000 ≤ a ∧ a < 0x5000 then
    let n := (a - 0x1000) / 0x40
    let off := (a - 0x1000) % 0x40
    !ringAssigned n || (off < 0x10 && (s.ringEnabled n || s.flag (F.HRT_RING_CFG_busy n) || (off % 8 == 0 && w.toNat % 4096 != 0)))
  else if 0x6000 ≤ a ∧ a < 0x6400 then
    let q := (a - 0x6000) / 0x40
    if a = Reg.HRT_MBX_CFG q then
      s.flag (F.HRT_MBX_CFG_enable q) && !(s.keeps (F.HRT_MBX_CFG_sender q) w && s.keeps (F.HRT_MBX_CFG_receiver q) w)
    else a == Reg.HRT_MBX_THRESH q && !(inside (F.HRT_MBX_THRESH_room_thresh q) w 0 512 && inside (F.HRT_MBX_THRESH_data_thresh q) w 0 512)
  else false

/-- MEM (R331, R333). -/
def State.memBad (s : State) (a : Nat) (w : Word) : Bool :=
  if Reg.MEM_SCRUB_CFG 0 ≤ a ∧ a ≤ Reg.MEM_SCRUB_CFG 2 then !inside (F.MEM_SCRUB_CFG_period_s 0) w 1 1000000
  else if Reg.MEM_FLIP_ADDR_LO ≤ a ∧ a ≤ Reg.MEM_FLIP_MASK_HI then
    s.flag F.MEM_FLIP_CTRL_arm || (a == Reg.MEM_FLIP_ADDR_LO && w.toNat % 8 != 0)
  else false

/-- BLW. -/
def blwBad (a : Nat) (w : Word) : Bool :=
  if a = Reg.BLW_PF_CFG then !(inside F.BLW_PF_CFG_commit_us w 0 4000 && inside F.BLW_PF_CFG_warn_mv w 2400 2700)
  else if a = Reg.BLW_THERM_CFG then !(inside F.BLW_THERM_CFG_restart_c w 40 100 && inside F.BLW_THERM_CFG_warn_c w 60 114)
  else false

/-- TMK (R59 to R66). -/
def State.tmkBad (s : State) (a : Nat) (w : Word) : Bool :=
  if a = Reg.TMK_CFG then 2 ≤ fieldOf F.TMK_CFG_osc_src w || (!s.keeps F.TMK_CFG_wrap_mode w && s.servo != 0)
  else if a = Reg.TMK_PTP_CFG then
    !(inside F.TMK_PTP_CFG_ann_timeout w 2 10 && inside F.TMK_PTP_CFG_transport w 0 2 && inside F.TMK_PTP_CFG_profile w 0 2)
  else if Reg.TMK_PORT_CFG 0 ≤ a ∧ a ≤ Reg.TMK_PORT_CFG 2 then
    !(insideI (F.TMK_PORT_CFG_m_log_sync 0) w (-7) 1 && insideI (F.TMK_PORT_CFG_m_log_announce 0) w (-3) 3 &&
      inside (F.TMK_PORT_CFG_m_profile 0) w 0 2)
  else if a = Reg.TMK_SERVO_CFG then !(inside F.TMK_SERVO_CFG_step_log2 w 10 30 && inside F.TMK_SERVO_CFG_max_slew w 1 65535)
  else a == Reg.TMK_REFSEL_CFG && !(inside F.TMK_REFSEL_CFG_settle_ms w 50 2000 && inside F.TMK_REFSEL_CFG_force w 0 4)

/-- RTC (R413, R418 to R420): what is refused in an unlocked interface. -/
def State.rtcBad (s : State) (a : Nat) (w : Word) : Bool :=
  if a = Reg.RTC_ADJ_SEC then s.flag F.RTC_ADJ_CTRL_go
  else if a = Reg.RTC_TRIM then signed 16 (bits w.toNat 0 16) == -32768
  else if a = Reg.RTC_ALARM_W0 0 ∨ a = Reg.RTC_ALARM_W1 0 then s.flag (F.RTC_ALARM_W2_arm 0)
  else if a = Reg.RTC_ALARM_W0 1 ∨ a = Reg.RTC_ALARM_W1 1 then s.flag (F.RTC_ALARM_W2_arm 1)
  else false

/-- NET (R93, R114). -/
def netBad (a : Nat) (w : Word) : Bool :=
  if a = Reg.NET_STEER_CFG then !inside F.NET_STEER_CFG_default_q w 2 15
  else if Reg.NET_TXQ_CFG 0 0 ≤ a ∧ a ≤ Reg.NET_TXQ_CFG 2 7 then
    let p := (a - Reg.NET_TXQ_CFG 0 0) / 0x20
    w.getLsbD 0 && !inside (F.NET_TXQ_CFG_idle_slope 0 0) w 1 (portRate p)
  else false

/-- ANV (R180, R182). -/
def State.anvBad (s : State) (a : Nat) (w : Word) : Bool :=
  if a = Reg.ANV_AGE_CFG then
    !inside F.ANV_AGE_CFG_epoch_log2 w 4 12 || (s.flag F.ANV_AGE_CFG_integrate_en && !s.keeps F.ANV_AGE_CFG_epoch_log2 w)
  else a == Reg.ANV_AGE_CKPT_BASE && (8 < fieldOf F.ANV_AGE_CKPT_BASE_mib w || s.flag F.ANV_PIPE_STATUS_ckpt_busy)

/-- TWN: enable changes only in SINGLE or ELECTING. -/
def State.twnBad (s : State) (a : Nat) (w : Word) : Bool :=
  a == Reg.TWN_CFG && !s.keeps F.TWN_CFG_enable w && 1 < s.role

/-- MTR (R427 to R447). -/
def State.mtrBad (s : State) (a : Nat) (w : Word) : Bool :=
  if a = Reg.MTR_CFG then
    fieldOf F.MTR_CFG_mod_rate w == 3 ||
      (s.flag F.MTR_CFG_enable && !(s.keeps F.MTR_CFG_mod_rate w && s.keeps F.MTR_CFG_clk_mode w))
  else if a = Reg.MTR_RES_INTERVAL then fieldOf F.MTR_RES_INTERVAL_blocks w == 0
  else if Reg.MTR_CH_SCALE 0 ≤ a ∧ a ≤ Reg.MTR_CH_SCALE 6 ∧ a % 16 = 8 then
    w.toNat < 1000 || (if a ≤ Reg.MTR_CH_SCALE 2 then 1000000 else 10000000) < w.toNat
  else if a = Reg.MTR_VNOM then w.toNat < 50000 || 700000 < w.toNat
  else if a = Reg.MTR_DET_CFG then !(inside F.MTR_DET_CFG_nd_pct w 1 100 && inside F.MTR_DET_CFG_v_loss w 1 100)
  else a == Reg.MTR_BAT_CFG && !(inside F.MTR_BAT_CFG_n_consec w 1 15 && inside F.MTR_BAT_CFG_interval_s w 10 3600)

/-- A channel of a band and rate (R451). -/
def channelOk (band rate ch : Nat) : Bool :=
  match band with
  | 0 => 11 ≤ ch && ch ≤ 26
  | 1 => ch ≤ (if rate = 0 then 33 else 16)
  | _ => ch ≤ (if rate = 0 then 128 else 63)

/-- A word of RAD_PHY_CFG out of range. -/
def phyBad (w : Word) : Bool :=
  !(inside F.RAD_PHY_CFG_duty_pm w 0 1000 && insideI F.RAD_PHY_CFG_tx_dbm w (-20) 14 && inside F.RAD_PHY_CFG_rate w 0 2 &&
    inside F.RAD_PHY_CFG_band w 0 2 && channelOk (fieldOf F.RAD_PHY_CFG_band w) (fieldOf F.RAD_PHY_CFG_rate w) (fieldOf F.RAD_PHY_CFG_channel w))

/-- RAD (R457): the schedule may not change while the radio is enabled. -/
def State.radBad (s : State) (a : Nat) (w : Word) : Bool :=
  let on := s.flag F.RAD_CTRL_enable
  if a = Reg.RAD_CFG then on && !s.keeps F.RAD_CFG_key_slot w
  else if a = Reg.RAD_PHY_CFG then on || phyBad w
  else if a = Reg.RAD_SCHED_CFG then
    let slot := fieldOf F.RAD_SCHED_CFG_slot_ticks w
    on || !(inside F.RAD_SCHED_CFG_coord_ppm w 1 100 && inside F.RAD_SCHED_CFG_slot_ticks w 64 1024 &&
      inside F.RAD_SCHED_CFG_lead_ticks w 8 (slot - 8))
  else if a = Reg.RAD_SCHED_CFG2 then on || !(inside F.RAD_SCHED_CFG2_m_lost w 3 255 && inside F.RAD_SCHED_CFG2_n_slot w 16 4096)
  else if a = Reg.RAD_GUARD then on || !inside F.RAD_GUARD_g_min_us w 30 10000
  else if a = Reg.RAD_EUI_LO ∨ a = Reg.RAD_EUI_HI then on
  else if a = Reg.RAD_MIRROR_BASE_LO then w.toNat % 64 != 0
  else if a = Reg.RAD_MIRROR_INT then !inside F.RAD_MIRROR_INT_ms w 10 60000
  else if a = Reg.RAD_CTRL then fieldOf F.RAD_CTRL_role w == 3
  else a == Reg.RAD_AGG_CFG && !inside F.RAD_AGG_CFG_max_age_s w 1 65535

/-- CAB (R484 to R486). -/
def State.cabBad (s : State) (a : Nat) (w : Word) : Bool :=
  if a % 0x100000 < 0x100 then
    let n := a % 0x100000 / 0x80
    if a = Reg.CAB_CFG n then fieldOf (F.CAB_CFG_mode n) w == 3
    else if a = Reg.CAB_NBT n then s.flag (F.CAB_CFG_enable n) || !nbtOk w.toNat
    else if a = Reg.CAB_DBT n then s.flag (F.CAB_CFG_enable n) || !dbtOk w.toNat
    else a == Reg.CAB_WAKE n && 8 < fieldOf (F.CAB_WAKE_dlc n) w
  else false

/-- REC and PMC (R569, R578). -/
def State.recBad (s : State) (a : Nat) (w : Word) : Bool :=
  if a = Reg.REC_CFG then !inside F.REC_CFG_flush_min w 1 60
  else Reg.PMC_SEL 0 ≤ a && a ≤ Reg.PMC_SEL 63 && s.flag F.PMC_CTRL_run

/-- The word `w` written to the register at `a` would be discarded whole. -/
def State.writeBad (s : State) (a : Nat) (w : Word) : Bool :=
  match reportRingAt a with
  | some r => s.rptBad a w r
  | none =>
    match a / 0x100000 with
    | 0 => s.hrtBad a w
    | 1 => s.memBad a w
    | 2 => blwBad a w
    | 4 => if a < 0x480000 then s.tmkBad a w else s.rtcBad a w
    | 5 => netBad a w
    | 6 => s.anvBad a w
    | 8 => s.twnBad a w
    | 9 => s.mtrBad a w
    | 10 => s.radBad a w
    | 11 => s.cabBad a w
    | 14 => s.recBad a w
    | _ => false

/-- A discarded write is flagged in the blocks that have a cfg_refused flag. -/
def State.writeDiscarded (s : State) (a : Nat) : State :=
  match a / 0x100000 with
  | 0 => s.raise F.HRT_INT_STAT_cfg_refused
  | 4 => if a < 0x480000 then s.tmkRefused else s.raise F.RTC_INT_STAT_cfg_refused
  | 10 => s.raise F.RAD_INT_STAT_cfg_refused
  | 11 => if a % 0x100000 < 0x100 then s.cabRefused (a % 0x100000 / 0x80) else s
  | _ => s

end Sys2Proof.Machine
end

