-- ==== Sys2Proof/Machine/Recorder.lean ====
section
/-! DEFINITION. The Recorder and the performance monitors: the image and its banks, flushes, clears, the once-a-second
sample, and the commands of ring 0x58 and of PMC_CTRL (R555 to R582). -/

namespace Sys2Proof.Machine

/-- The CRC-32 of R377. -/
def crc32 (bs : List Byte) : Nat := Crypto.crcReflected 0xEDB88320 0xFFFFFFFF 0xFFFFFFFF bs

/-- Byte `o` of the fuse block (R377). -/
def State.fuse (s : State) (o : Nat) : Byte := Sparse.get (fun _ => 0) s.boot.fuse o
def State.fuseBytes (s : State) (o n : Nat) : List Byte := (List.range n).map fun i => s.fuse (o + i)

/-- The unit serial (R378). -/
def State.unitSerial (s : State) : List Byte := s.fuseBytes 4 8

/-! ## The image -/

/-- The 12 bytes of an accumulator: fraction, then count (R437, R556). -/
def accBytes (v : Int) : List Byte := natLE 12 (unsigned 96 v)

/-- The 64-byte header of an image (R556). -/
def RecImage.header (m : RecImage) (sealed : Bool) : List Byte :=
  ascii "CSGL" ++ natLE 2 1 ++ natLE 1 (b2n sealed + 2 * b2n m.meterValid + 4 * b2n m.sealBadSeen) ++ [0] ++
    natLE 8 m.flushSeq ++ natLE 4 m.hours ++ natLE 2 m.hourSec ++ [0, 0] ++ natLE 4 m.cycles ++ natLE 4 m.clearSeq ++
    m.folded.flatMap (natLE 4) ++ natLE 2 m.nextFault ++ natLE 2 m.nextAudit ++ natLE 4 m.faultSeq ++ natLE 4 m.auditSeq

/-- The 32 bytes of an extreme entry (R556): its time tags follow value and qualifier. -/
def Extreme.bytes (wrap : Bool) (x : Extreme) : List Byte :=
  natLE 4 (unsigned 32 x.value) ++ natLE 4 x.qual ++ natLE 4 x.hours ++ natLE 4 x.cycles ++
    (if x.wall = 0 then zeros 16 else wallBytes wrap x.wall)

/-- Bytes 0x0000 to 0x3FDB of an image (R556). -/
def RecImage.body (m : RecImage) (sealed wrap : Bool) : List Byte :=
  m.header sealed ++ (List.range 64).flatMap (fun i => natLE 8 (Sparse.get (fun _ => 0) m.life i)) ++
    (List.range 517).flatMap (fun i => natLE 4 (Sparse.get (fun _ => 0) m.hist (0x240 + 4 * i))) ++ zeros 428 ++
    m.extremes.flatMap (Extreme.bytes wrap) ++ m.meterCopy.flatMap accBytes ++ zeros 12428

/-- The whole image with its CRC and its seal, or a zero seal (R556, R570). -/
def RecImage.bytes (m : RecImage) (key : Option (List Byte)) (wrap : Bool) : List Byte :=
  let b := m.body key.isSome wrap
  let b := b ++ natLE 4 (crc32 b)
  b ++ match key with
    | some k => Crypto.hmac k b
    | none => zeros 32

/-- The address of a bank (R555). -/
def bankAddr (bank : Nat) : Nat := 0x181E00000 + 0x40000 * bank

/-- An image read back from its bytes. -/
def RecImage.parse (wrap : Bool) (b : List Byte) : RecImage :=
  let ext (e : Nat) : Extreme :=
    let x := b.drop (0xC00 + 32 * e)
    { value := signed 32 (le x 0 4), qual := le x 4 4, hours := le x 8 4, cycles := le x 12 4
      wall := (wallOfBytes wrap (sliceB x 16 16)).getD 0 }
  { life := (List.range 64).foldl (fun l i => Sparse.set (fun _ => 0) l i (le b (0x40 + 8 * i) 8)) []
    hist := (List.range 517).foldl (fun l i => Sparse.set (fun _ => 0) l (0x240 + 4 * i) (le b (0x240 + 4 * i) 4)) []
    extremes := (List.range 16).map ext
    meterCopy := (List.range 28).map fun i => signed 96 (le b (0xE00 + 12 * i) 12)
    meterValid := (byteAt b 6).testBit 1, sealBadSeen := (byteAt b 6).testBit 2
    flushSeq := le b 8 8, hours := le b 16 4, hourSec := le b 20 2, cycles := le b 24 4, clearSeq := le b 28 4
    folded := (List.range 5).map fun i => le b (32 + 4 * i) 4
    nextFault := le b 52 2, nextAudit := le b 54 2, faultSeq := le b 56 4, auditSeq := le b 60 4 }

/-- A bank is valid when its CRC holds (R570). -/
def bankValid (b : List Byte) : Bool := crc32 (b.take 0x3FDC) == le b 0x3FDC 4

/-! ## Flushes -/

/-- The logs and the image of a flush are written, then its CRC and seal (R570); the bank becomes the last complete one. -/
def State.flushWrite (s : State) (f : Flush) : State :=
  let put (base : Nat) (s : State) (e : Nat × List Byte) : State := (s.storeBytes 16 (base + 64 * e.1) e.2).2
  let s := f.faults.foldl (put 0x181E80000) s
  let s := f.audits.foldl (put 0x181E90000) s
  let seq := s.recd.img.flushSeq + 1
  let s := (s.storeBytes 16 (bankAddr f.bank) ({ f.image with flushSeq := seq }.bytes f.sealKey s.wrap)).2
  let s := s.modImg fun m => { m with flushSeq := seq }
  ((s.setFld F.REC_STATUS_bank f.bank).setReg Reg.REC_SEQ_LO (BitVec.ofNat 32 seq)).setReg Reg.REC_SEQ_HI
    (BitVec.ofNat 32 (seq >>> 32))

/-- A bank whose CRC does not hold: free bytes, with the CRC inverted where by chance it would (R570; assumption 110). -/
def State.tornBank (s : State) : List Byte :=
  let b := (List.range 0x4000).map (Config.tornByte s.draws)
  if bankValid b then b.take 0x3FDC ++ natLE 4 (0xFFFFFFFF - le b 0x3FDC 4) ++ b.drop 0x3FE0 else b

/-- Power is lost while a flush writes: the bank being written is left invalid, the other one as it was (R570). -/
def State.flushTorn (s : State) : State :=
  match s.recd.flush with
  | some f =>
    if f.pass ≤ 2 then (s.modMem fun m => m.putBytes (bankAddr f.bank) s.tornBank).drawn else s
  | none => s

/-- The commands that waited for a flush complete (R577, R581). -/
def State.flushAnswer (s : State) : State :=
  (s.recd.waitNow.foldl (fun s slot =>
    let s := if s.hrt.inflight.any (fun i => i.ring == 0x58 && i.slot == slot && byteAt i.desc 0 == 2) then
      s.raise F.REC_INT_STAT_clear_done else s
    s.finish 0x58 slot okCpl) (s.modRec fun r => { r with waitNow := [] }))

/-- A flush is complete: it is counted, answered, and followed by another if one was triggered meanwhile (R569). -/
def State.flushEnd (s : State) : State :=
  let s := ((s.bump 17 0).raise F.REC_INT_STAT_flush_done).lower F.REC_STATUS_flushing
  let s := (s.modRec fun r => { r with flush := none }).flushAnswer
  if s.recd.again then s.flushBegin 0 else s

/-- Pass 2 of a power-fail flush begins: BLW_STORE is taken for extreme 10, and the other bank is written (R572). -/
def State.pfPass2 (s : State) (f : Flush) : State :=
  let s := s.extreme 10 (s.fld F.BLW_STORE_mv) 0
  let s := s.modRec fun r => { r with
    flush := some { pass := 2, bank := 1 - f.bank, image := r.img, faults := r.faultBuf, audits := r.auditBuf, sealKey := f.sealKey }
    faultBuf := [], auditBuf := [] }
  (s.setFld F.REC_STATUS_audit_count 0).setFld F.REC_STATUS_detail_count 0

/-- The power-fail flush ends (R572). -/
def State.pfFlushEnd (s : State) : State := ((s.bump 17 1).lower F.REC_STATUS_pf_flush).flushEnd

/-- The power-fail warning abandons a flush under way, whose entries return to the buffers, and begins pass 1 with the Meter
copy of the warning (R572). -/
def State.pfFlushBegin (s : State) : State :=
  if !(s.powered 11 && s.flag F.REC_STATUS_loaded) then s
  else
    let s := match s.recd.flush with
      | some f => s.modRec fun r => { r with faultBuf := f.faults ++ r.faultBuf, auditBuf := f.audits ++ r.auditBuf, flush := none }
      | none => s
    let s := s.modRec fun r => { r with pfCommit := false, img := { r.img with meterValid := true } }
    (s.flushBegin 1).raise F.REC_STATUS_pf_flush

/-- The warning has committed: pass 2 begins if pass 1 has ended (R572). -/
def State.pfFlushCommit (s : State) : State :=
  let s := s.modRec fun r => { r with pfCommit := true }
  match s.recd.flush with
  | some f => if f.pass = 4 then s.pfPass2 f else s
  | none => s

/-- The warning is withdrawn: a flush that waits for the commit has run to its end (R572). -/
def State.pfFlushWithdraw (s : State) : State :=
  match s.recd.flush with
  | some f => if f.pass = 4 then s.pfFlushEnd else s
  | none => s

/-- A firewall commit or calibration that waited for room in the audit buffer is made now that a flush has emptied it
(R568). -/
def State.resumeHeld (s : State) : State :=
  if s.flag F.FWL_COMMIT_go && s.auditRoom then s.fwlCommit 4 else s

/-- FLUSH_DONE (R570, R572): the flush under way, or its pass, has finished writing. Pass 1 of a power-fail flush waits for
the commit (stage 4); pass 2 is followed by the read-back (stage 3). -/
def execFlushDone (s : State) : Result :=
  if !s.powered 11 then done s
  else
    match s.recd.flush with
    | none => done s
    | some f =>
      match f.pass with
      | 0 => done (((s.flushWrite f).flushEnd).resumeHeld)
      | 1 =>
        let s := s.flushWrite f
        if s.recd.pfCommit then done (s.pfPass2 f)
        else if !s.flag F.BLW_STATUS_pf_warn then done s.pfFlushEnd
        else done (s.modRec fun r => { r with flush := some { f with pass := 4 } })
      | 2 => done ((s.flushWrite f).modRec fun r => { r with flush := some { f with pass := 3 } })
      | 3 => done s.pfFlushEnd
      | _ => done s

/-- FLUSH_TIMER (R569): flush_min minutes have passed, or the second ends in which triggers were merged. -/
def execFlushTimer (s : State) : Result :=
  if s.powered 11 ∧ (s.recd.merged ∨ 60 * s.fld F.REC_CFG_flush_min ≤ s.recd.sinceFlush) then done s.flushTrigger else done s

/-- REC_FLUSH (R581): it completes when a flush that began after it is complete. -/
def execRecFlush (s : State) : Result :=
  done (s.takeCommand 0x58 0x01 fun slot _ s =>
    (none, (s.modRec fun r => { r with waitNext := r.waitNext ++ [slot] }).flushTrigger))

/-! ## Clearing -/

/-- A clear is refused: counted and flagged (R576). -/
def State.clearRefused (s : State) (c : Cpl) : Option Cpl × State :=
  (some c, (s.bump 17 8).raise F.REC_INT_STAT_clear_refused)

/-- The scoped parts of the live image take their start values (R575, R577). -/
def RecImage.clear (m : RecImage) (scope : Nat) : RecImage :=
  let keep : List Nat := [0, 1, 2, 3, 4, 5, 6, 7, 8, 9, 10, 11, 12, 13, 14, 15, 27, 28, 29, 43, 44, 45, 46, 47]
  let m := if scope.testBit 0 then { m with hist := [] } else m
  let m := if scope.testBit 1 then { m with extremes := (List.range 16).map Extreme.start } else m
  let m := if scope.testBit 2 then { m with life := m.life.filter fun x => keep.contains x.1 } else m
  if scope.testBit 3 then { m with nextFault := 0 } else m

/-- After a clear of the fault log, the entries that still wait in the buffer are the first of the new log (R577; assumption 110). -/
def State.reindexFaults (s : State) (scope : Nat) : State :=
  if scope.testBit 3 then
    s.modRec fun r => { r with
      faultBuf := r.faultBuf.zipIdx.map fun x => (x.2, x.1.2), img := { r.img with nextFault := r.faultBuf.length } }
  else s

/-- REC_CLEAR (R575 to R577): the checks in order, then the clear, its audit entry and its flush; it completes with that
flush. With the audit buffer full it waits (R568). -/
def execRecClear (s : State) : Result :=
  let run (s : State) : State := s.takeCommand 0x58 0x02 fun slot desc s => s.withBlock 0x58 desc fun blk s =>
    let scope := byteAt blk 12
    let bad := ((List.range 19).map (· + 13)).find? fun i => byteAt blk i != 0
    if scope = 0 ∨ 16 ≤ scope then s.clearRefused (badField 12)
    else match bad with
    | some i => s.clearRefused (badField i)
    | none =>
      let ks := s.fld F.REC_CFG_clear_slot
      let (a, s) := if ks = 0 then (KeyAnswer.refused, s) else s.keyRequest 5 ks [4] [13, 18]
      match a with
      | .refused => s.clearRefused { status := Status.keyRefused }
      | .memoryError => s.clearRefused { status := Status.memoryError }
      | .key key =>
        if Crypto.hmac key (blk.take 32) ≠ blk.drop 32 then s.clearRefused { status := Status.authFailed }
        else if blk.take 8 ≠ s.unitSerial ∨ le blk 8 4 ≠ (s.recd.img.clearSeq + 1) % 2 ^ 32 then s.clearRefused refusedState
        else
          let seq := (s.recd.img.clearSeq + 1) % 2 ^ 32
          let s := (s.modImg fun m => { m.clear scope with clearSeq := seq }).reindexFaults scope
          let s := ((s.setReg Reg.REC_CLEAR_SEQ (BitVec.ofNat 32 seq)).bump 17 7).life 45
          let s := s.audit 0x010B s.recd.doorbellBy ([BitVec.ofNat 8 scope, 0, 0, 0] ++ natLE 4 seq)
          (none, (s.modRec fun r => { r with waitNext := r.waitNext ++ [slot] }).flushTrigger)
  let s' := run s
  if !s.auditRoom && s'.recd.img.clearSeq != s.recd.img.clearSeq then done s.auditWait else done s'

/-! ## Loading at release -/

/-- The valid one of two banks with the higher flush sequence, and its number (R573). -/
def pickBank (a b : List Byte) : Option (Nat × List Byte) :=
  if bankValid a && bankValid b then some (if le a 8 8 < le b 8 8 then (1, b) else (0, a))
  else if bankValid a then some (0, a) else if bankValid b then some (1, b) else none

/-- The Recorder takes over the bank picked, or starts from zero (R573). With no seal slot there is no key to verify a seal with
(assumption 110). -/
def State.recTake (s : State) (pick : Option (Nat × List Byte)) : State :=
  let s := s.raise F.REC_STATUS_loaded
  match pick with
  | none =>
    let s := s.modImg fun _ => {}
    (((s.life 47).audit 0x010D 16 []).raise F.REC_STATUS_image_lost).raise F.REC_INT_STAT_image_lost
  | some (n, bs) =>
    let img := RecImage.parse s.wrap bs
    let s := s.modImg fun _ => img
    let s := ((s.setFld F.REC_STATUS_bank n).setReg Reg.REC_SEQ_LO (BitVec.ofNat 32 img.flushSeq)).setReg Reg.REC_SEQ_HI
      (BitVec.ofNat 32 (img.flushSeq >>> 32))
    let s := s.setReg Reg.REC_CLEAR_SEQ (BitVec.ofNat 32 img.clearSeq)
    if (byteAt bs 6).testBit 0 ∧ s.fld F.REC_CFG_seal_slot ≠ 0 then
      match s.keyRequest 5 (s.fld F.REC_CFG_seal_slot) [4] [13, 17] with
      | (.key k, s) =>
        if Crypto.hmac k (bs.take 0x3FE0) = sliceB bs 0x3FE0 32 then s
        else
          let s := (s.modImg fun m => { m with sealBadSeen := true }).life 46
          ((s.audit 0x010C 16 [BitVec.ofNat 8 n]).raise F.REC_STATUS_seal_bad).raise F.REC_INT_STAT_seal_bad
      | (_, s) => (s.bump 17 6).raise F.REC_INT_STAT_seal_refused
    else s

/-- The Recorder loads the valid bank with the higher flush sequence, or starts from zero (R573). -/
def State.recLoad (s : State) : State :=
  s.recTake (pickBank (s.mem.bytes (bankAddr 0) 16384) (s.mem.bytes (bankAddr 1) 16384))

/-- At release each Bellows counter's increase since its last folded value joins its lifetime counter (R562). -/
def State.recFold (s : State) : State :=
  [(0, 11), (1, 12), (2, 10), (3, 14), (4, 13)].foldl (fun (s : State) (x : Nat × Nat) =>
    let now := s.count (0x201000 + 8 * x.1)
    let last := nth s.recd.img.folded x.1 0
    let s := s.life x.2 (if last ≤ now then now - last else now)
    s.modImg fun m => { m with folded := m.folded.set x.1 (now % 2 ^ 32) }) s

/-! ## The sample of each second -/

/-- The bin of a temperature histogram (H0, H5): sQ8.8 °C. -/
def tempBin (t : Int) : Nat := if t < -35 * 256 then 0 else if 115 * 256 ≤ t then 31 else ((t + 35 * 256) / (5 * 256) + 1).toNat

/-- The bin of H1, in mV. -/
def vinBin (mv : Nat) : Nat := if mv < 2600 then 0 else if 5600 ≤ mv then 31 else (mv - 2600) / 100 + 1

/-- The bin of a doubling histogram: 0 below `unit`, i from unit · 2^(i−1) to unit · 2^i, `top` beyond (H4, H6). -/
def doublingBin (unit top v : Nat) : Nat :=
  ((List.range top).find? fun i => v < unit * 2 ^ i).getD top

/-- The bin of H9, in mV. -/
def headroomBin (v : Int) : Nat := if v < 0 then 0 else if 1400 ≤ v then 15 else (v / 100 + 1).toNat

/-- The highest reading of a list of sensors, with its sensor. -/
def hottest : Nat → List Int → Option (Nat × Int)
  | _, [] => none
  | i, t :: ts => match hottest (i + 1) ts with
    | some (j, u) => if t < u then some (j, u) else some (i, t)
    | none => some (i, t)

/-- The lowest reading of a list of sensors, with its sensor. -/
def coldest : Nat → List Int → Option (Nat × Int)
  | _, [] => none
  | i, t :: ts => match coldest (i + 1) ts with
    | some (j, u) => if u < t then some (j, u) else some (i, t)
    | none => some (i, t)

/-- The supply and die readings of the second: registers, histograms H0 and H1, extremes 0 to 4 (R558, R559). -/
def State.sampleSupplies (s : State) (temps : List Int) (vin vbat store : Nat) : State :=
  let s := ((s.setFld F.BLW_MON_vin vin).setFld F.BLW_MON_vbat vbat).setFld F.BLW_STORE_mv store
  let s := (s.setFld F.BLW_STATUS_vin_ok (b2n (2700 ≤ vin && vin ≤ 5500))).setFld F.BLW_STATUS_vbat_low (b2n (vbat < 2200))
  let s := s.setFld F.BLW_STATUS_therm_hot (b2n (temps.any fun t => (s.fld F.BLW_THERM_CFG_warn_c : Int) * 256 ≤ t))
  let s := match hottest 0 temps with
    | some (i, t) => ((s.setFld F.BLW_THERM_temp (unsigned 16 t)).setFld F.BLW_THERM_sensor i).extreme 0 t i
    | none => s
  let s := match coldest 0 temps with
    | some (i, t) => s.extreme 1 t i
    | none => s
  let s := (s.hist (0x240 + 4 * tempBin (s.sfld F.BLW_THERM_temp))).hist (0x2C0 + 4 * vinBin vin)
  let s := (s.extreme 2 vin 0).extreme 4 vbat 0
  if s.flag F.BLW_STATUS_pf_warn then s else s.extreme 3 vin 0

/-- The bin of H2: power state and role. -/
def stateBin (state role : Nat) : Nat := if state < 3 then state - 1 else if role = 0 ∨ role = 2 then 2 else 3

/-- Power state, servo state and offset: H2, H3, H4 and extreme 6. -/
def State.sampleTiming (s : State) : State :=
  let st := s.fld F.BLW_STATUS_state
  let s := if st = 0 then s else s.hist (0x340 + 4 * stateBin st (s.fld F.TWN_STATUS_role))
  let servo := s.fld F.TMK_STATUS_servo_state
  let s := s.hist (0x350 + 4 * servo)
  let off := (s.sfld F.TMK_OFFSET_offset).natAbs
  if servo = 3 then (s.hist (0x364 + 4 * doublingBin 8192 15 off)).extreme 6 off (s.fld F.TMK_STATUS_sel_ref) else s

/-- The hottest SCN_PORT_TEMP of scan group `n`, while a port of it is in RUN. -/
def State.groupTemp (s : State) (n : Nat) : Option (Nat × Int) :=
  let ports := (List.range 16).map fun i => 16 * n + i
  if ports.any fun p => s.fld (F.SCN_PORT_STATUS_state p) == 4 then
    hottest 0 ((ports.filter fun p => s.fld (F.SCN_PORT_TEMP_temp p) != 0x8000).map fun p => s.sfld (F.SCN_PORT_TEMP_temp p))
  else none

/-- H5, one bin for each scan group with a port in RUN. -/
def State.sampleChains (s : State) : State :=
  (List.range 4).foldl (fun s n => match s.groupTemp n with
    | some (_, t) => s.hist (0x3A4 + 128 * n + 4 * tempBin t)
    | none => s) s

/-- H9 and extreme 14, for each rail group with a valid headroom. -/
def State.sampleRails (s : State) : State :=
  (List.range 16).foldl (fun s g =>
    if s.flag (F.SCN_HEADROOM_valid g) then
      (s.hist (0x654 + 64 * g + 4 * headroomBin (s.sfld (F.SCN_HEADROOM_headroom g)))).extreme 14
        (s.sfld (F.SCN_HEADROOM_headroom g)) g
    else s) s

/-- H8, extreme 15 and lifetime counter 48. -/
def State.sampleRest (s : State) : State :=
  let s := if s.fld F.ANV_INGEST_STATUS_started = 0 then s
    else s.hist (0x610 + 4 * min 16 (16 * s.fld F.ANV_BRIGHT_NOW_bright / 32768))
  let s := if s.flag F.TWN_STATUS_synced then s.extreme 15 (s.sfld F.TWN_DELTA_delta).natAbs 0 else s
  if (s.fld F.BLW_THERM_CFG_warn_c : Int) * 256 ≤ s.sfld F.BLW_THERM_temp then s.life 48 else s

/-- One second of operation joins the operating hours, 360 to each 0.1 h (R560). -/
def RecImage.addSecond (m : RecImage) : RecImage :=
  if m.hourSec + 1 < 360 then { m with hourSec := m.hourSec + 1 }
  else { m with hourSec := 0, hours := (m.hours + 1) % 2 ^ 32 }

/-- HISTOGRAM_SAMPLE (R558 to R560): one second of operation. The operands are that second's readings: the die sensors in
sQ8.8 °C, VIN, VBAT and the hold-up store in mV; BLW_THERM, BLW_MON and BLW_STORE show them. -/
def execHistogramSample (temps : List Int) (vin vbat store : Nat) (s : State) : Result :=
  if s.powered 11 && s.released then
    done (((((((s.sampleSupplies temps vin vbat store).sampleTiming).sampleChains).sampleRails).sampleRest).modImg
      RecImage.addSecond).modRec fun r => { r with sinceFlush := r.sinceFlush + 1 })
  else done s

/-! ## Performance monitors -/

/-- A write of PMC_CTRL: run takes its bit, and zero sets every counter to 0 (R578). -/
def State.pmcCtrl (s : State) (w : Word) : State :=
  let s := s.setFld F.PMC_CTRL_run (fieldOf F.PMC_CTRL_run w)
  if fieldOf F.PMC_CTRL_zero w = 1 then (List.range 64).foldl (fun s i => s.setCount (0xE08200 + 8 * i) 0) s else s

/-- PMC_RUN (R578): a write of PMC_CTRL that starts or stops the counters. -/
def execPmcRun (ini : Nat) (w : Word) (s : State) : Result :=
  done (s.setupAccess ini Reg.PMC_CTRL true fun s => s.pmcCtrl w)

/-- PMC_ZERO (R578): a write of PMC_CTRL with zero at 1. -/
def execPmcZero (ini : Nat) (w : Word) (s : State) : Result :=
  if fieldOf F.PMC_CTRL_zero w = 1 then done (s.setupAccess ini Reg.PMC_CTRL true fun s => s.pmcCtrl w) else done s

end Sys2Proof.Machine
end

