-- ==== Sys2Proof/Machine/Update.lean ====
section
/-! DEFINITION. Boot flash, images and their checks, and the commands of ring 0x50 (R538 to R554). -/

namespace Sys2Proof.Machine

/-! ## Boot flash (R538) -/

/-- Base and size of a target: slots 0 and 1, and the staging area. -/
def updBase (t : Nat) : Nat := if t < 2 then 0x200000000 + 0x6000000 * t else 0x20C000000
def updSize (t : Nat) : Nat := if t < 2 then 0x6000000 else 0x3000000

/-- `n` bytes of boot flash. -/
def State.flash (s : State) (a n : Nat) : List Byte := s.mem.bytes a n

/-- The state of a target (R539). -/
def UpdCtl.get (c : UpdCtl) (t : Nat) : Nat := if t < 2 then nth c.slots t 0 else c.stage
def UpdCtl.put (c : UpdCtl) (t v : Nat) : UpdCtl := if t < 2 then { c with slots := c.slots.set t v } else { c with stage := v }

def State.updState (s : State) (t : Nat) : Nat := s.boot.ctl.get t
def State.setUpdState (s : State) (t v : Nat) : State := s.modBoot fun b => { b with ctl := b.ctl.put t v }
def State.modCtl (s : State) (f : UpdCtl → UpdCtl) : State := s.modBoot fun b => { b with ctl := f b.ctl }

/-- The running slot. -/
def State.runSlot (s : State) : Nat := s.fld F.UPD_STATUS_running

/-- The running slot is on trial, and its window runs (R548). -/
def State.onTrial (s : State) : Bool := s.boot.window.isSome

/-- The slot that is TRIAL. -/
def UpdCtl.trial (c : UpdCtl) : Option Nat := if nth c.slots 0 0 = 4 then some 0 else if nth c.slots 1 0 = 4 then some 1 else none

/-- An activation is outstanding: a TRIAL slot that has not started, or a PENDING staging area (R546). -/
def UpdCtl.outstanding (c : UpdCtl) : Bool := c.stage == 7 || (c.trial.isSome && c.count == 0)

/-- Image version, security version and settings format version of the image at `a` (R540). -/
def State.imgVersion (s : State) (a : Nat) : Nat := leNat (s.flash (a + 16) 4)
def State.imgSecurity (s : State) (a : Nat) : Nat := leNat (s.flash (a + 20) 4)
def State.imgFormat (s : State) (a : Nat) : Nat := leNat (s.flash (a + 30) 2)

/-- The version registers of slot `n`. -/
def State.showSlot (s : State) (n : Nat) : State :=
  let seen := 2 ≤ s.updState n
  let s := s.setReg (Reg.UPD_SLOT_VER n) (BitVec.ofNat 32 (if seen then s.imgVersion (updBase n) else 0))
  s.setReg (Reg.UPD_SLOT_SEC n) (BitVec.ofNat 32 (if seen then s.imgSecurity (updBase n) else 0))

/-- UPD_SETTINGS (R550). -/
def State.showSettings (s : State) : State :=
  let r := s.runSlot
  let other := nth s.boot.ctl.halves (1 - r) none
  let s := s.setFld F.UPD_SETTINGS_own_half ((nth s.boot.ctl.halves r none).getD 0)
  let s := s.setFld F.UPD_SETTINGS_own_fmt (s.imgFormat (updBase r))
  let s := s.setFld F.UPD_SETTINGS_other_fmt (if other.isSome then s.imgFormat (updBase (1 - r)) else 0)
  s.setFld F.UPD_SETTINGS_other_valid (b2n other.isSome)

/-- The registers copy the control area. -/
def State.showUpd (s : State) : State :=
  let c := s.boot.ctl
  let s := (s.setFld F.UPD_STATUS_slot0_state (c.get 0)).setFld F.UPD_STATUS_slot1_state (c.get 1)
  let s := (s.setFld F.UPD_STATUS_stage_state c.stage).setFld F.UPD_STATUS_pending (b2n c.outstanding)
  let s := (s.setFld F.UPD_STATUS_trial_count c.count).setFld F.UPD_STATUS_trial (b2n s.onTrial)
  (((s.setReg Reg.UPD_FLOOR (BitVec.ofNat 32 c.floor)).showSlot 0).showSlot 1).showSettings

/-- The seconds left in the confirmation window (R548). -/
def State.windowLeft (s : State) : Nat :=
  match s.boot.window with
  | some e => (e - s.clock + 999999999) / 1000000000
  | none => 0

/-! ## The checks of R543 -/

/-- The section entries of a header (R541). -/
def sections (h : List Byte) : List (List Byte) := (List.range (le h 28 2)).map fun i => sliceB h (256 + 128 * i) 128
def secProc (e : List Byte) : Nat := byteAt e 0
def secVersion (e : List Byte) : Nat := le e 2 2
def secOffset (e : List Byte) : Nat := le e 4 4
def secLength (e : List Byte) : Nat := le e 8 4
/-- The range of processor `q`'s interface version that a section accepts. -/
def secAccepts (e : List Byte) (q v : Nat) : Bool := le e (24 + 4 * q) 2 ≤ v && v ≤ le e (26 + 4 * q) 2

/-- Check 1: the header and its section entries. -/
def headerGood (h : List Byte) : Bool :=
  let es := sections h
  h.take 4 == ascii "CSGF" && le h 4 2 == 1 && 1 ≤ le h 28 2 && le h 28 2 ≤ 16 && le h 24 4 % 4096 == 0 &&
    es.all (fun e => secProc e ≤ 5 && secOffset e % 4096 == 0 && secOffset e + secLength e ≤ le h 24 4) &&
    (List.range 5).all fun p => (es.filter fun e => secProc e == p).length == 1

/-- Check 3: the unit serial. -/
def State.serialGood (s : State) (h : List Byte) : Bool :=
  let any := le h 8 8 == 0
  (any && !(s.fuse 0x20).getLsbD 1) || (!any && sliceB h 8 8 == s.unitSerial)

/-- Check 5: the signature, over the header with the signature bytes taken as zero. -/
def signatureGood (h : List Byte) : Bool := Crypto.ecdsaVerify (sliceB h 32 96) (h.take 128 ++ zeros 96 ++ h.drop 224) (sliceB h 128 96)

/-- Check 6: the hash of a section of the image at `a`. -/
def State.sectionGood (s : State) (a : Nat) (e : List Byte) : Bool :=
  Crypto.sha384 (s.flash (a + secOffset e) (secLength e)) == sliceB e 48 48

/-- Check 7: every pair of processors accepts each other. -/
def sectionsFit (es : List (List Byte)) : Bool :=
  (es.filter fun e => secProc e < 5).all fun q => (es.filter fun e => secProc e < 5).all fun p =>
    secProc p == secProc q || secAccepts p (secProc q) (secVersion q)

/-- The record trailer of an image, and check 8 (R542). -/
def State.trailer (s : State) (a : Nat) (h : List Byte) : List Byte := s.flash (a + le h 24 4) 256
def State.records (s : State) (a : Nat) (h : List Byte) : List Byte := s.flash (a + le h 24 4 + 256) (le (s.trailer a h) 4 4)
def State.trailerGood (s : State) (a : Nat) (h : List Byte) : Bool :=
  let t := s.trailer a h
  t.take 4 == ascii "CSGR" && le h 24 4 + 256 + le t 4 4 ≤ 0x6000000 && Crypto.sha384 (s.records a h) == sliceB t 8 48

/-- The first of checks 1 to 8 that the image at `a` fails. -/
def State.firstEight (s : State) (a : Nat) : Option Nat :=
  let h := s.flash a 4096
  if !headerGood h then some 1
  else if le h 6 2 ≠ 0x4810 then some 2
  else if !s.serialGood h then some 3
  else if Crypto.sha384 (sliceB h 32 96) ≠ s.fuseBytes 0x40 48 then some 4
  else if !signatureGood h then some 5
  else if !(sections h).all (s.sectionGood a) then some 6
  else if !sectionsFit (sections h) then some 7
  else if !s.trailerGood a h then some 8
  else none

/-- Check 9: the owner signature over bytes 0 to 55 of the trailer, under the key of UPD_CFG.owner_slot (R522). -/
def State.ownerGood (s : State) (a : Nat) : Bool × State :=
  if s.fld F.UPD_CFG_owner_slot = 0 then (true, s)
  else
    let t := s.trailer a (s.flash a 4096)
    match s.keyRequest 4 (s.fld F.UPD_CFG_owner_slot) [5] [12] with
    | (.key k, s) => (Crypto.ecdsaVerify k (t.take 56) (sliceB t 56 96), s)
    | (_, s) => (false, s)

/-- The checks of R543 on the image at `a`; the boot engine leaves out check 9. -/
def State.imageCheck (s : State) (a : Nat) (owner : Bool) : Option Nat × State :=
  match s.firstEight a with
  | some d => (some d, s)
  | none =>
    let (good, s) := if owner then s.ownerGood a else (true, s)
    if !good then (some 9, s)
    else if s.imgSecurity a < s.boot.ctl.floor then (some 10, s)
    else (none, s)

/-- The payload length of the staged package (R551). -/
def State.payloadLength (s : State) : Nat := leNat (s.flash (updBase 2 + 8) 4)

/-- The checks of R551 on the package, then of R543 on its payload. -/
def State.packageCheck (s : State) : Option Nat × State :=
  let h := s.flash (updBase 2) 16
  if h.take 4 ≠ ascii "GNLP" ∨ le h 4 2 ≠ 2 ∨ le h 6 2 ≠ 0x4810 ∨ 50331136 < le h 8 4 then (some 11, s)
  else if crc32 (s.flash (updBase 2 + 512) (le h 8 4)) ≠ le h 12 4 then (some 12, s)
  else s.imageCheck (updBase 2 + 512) true

/-! ## Completions (R553) -/

/-- Where the image of a target begins. -/
def imageAt (t : Nat) : Nat := if t < 2 then updBase t else updBase 2 + 512

/-- A completion that names the image versions of target `t`. -/
def State.updCpl (s : State) (t status w1 : Nat) : Cpl :=
  { status := status, w1 := w1, w2 := s.imgVersion (imageAt t), w3 := s.imgSecurity (imageAt t) }

/-- The status of a failed check. -/
def checkStatus (d : Nat) : Nat :=
  if [4, 5, 6, 8, 9, 12].contains d then Status.authFailed else if d = 10 then Status.refused else Status.formatError

/-- The completion of a failed check: without a header the versions are 0. -/
def State.failCpl (s : State) (t d : Nat) : Cpl :=
  if d = 1 ∨ d = 11 ∨ d = 12 then { status := checkStatus d, w1 := d * 2 ^ 8 } else s.updCpl t (checkStatus d) (d * 2 ^ 8)

/-- A protected change of the update engine waits while the audit buffer is full: its command is then not taken (R568). -/
def State.auditGuard (s : State) (f : State → State) : State :=
  let s' := f s
  if !s.auditRoom && s'.recd.img.auditSeq != s.recd.img.auditSeq then s.auditWait else s'

/-- A command that names a target below `n`. -/
def State.updCommand (s : State) (op n : Nat) (k : Nat → List Byte → State → Option Cpl × State) : State :=
  s.takeCommand 0x50 op fun _ desc s => if n ≤ byteAt desc 1 then (some (badField 0x81), s) else k (byteAt desc 1) desc s

/-! ## The commands -/

/-- The first field of an UPD_WRITE that is out of range. -/
def writeBad (t : Nat) (desc : List Byte) : Option Nat :=
  let off := le desc 4 4
  let len := le desc 16 4
  firstBad [(off % 4096 == 0, 0x84), (le desc 8 8 < 2 ^ 40, 0x88),
    (4096 ≤ len && len ≤ 16777216 && len % 4096 == 0 && off + len ≤ updSize t, 0x90)]

/-- Target `t` may not be written (R544). -/
def State.writeRefused (s : State) (t : Nat) : Bool :=
  (t < 2 && (t == s.runSlot || s.updState t == 4 || s.updState t == 5)) || s.updState t == 7

/-- Data is programmed into a target, which becomes INCOMPLETE. -/
def State.program (s : State) (t off : Nat) (bs : List Byte) : State :=
  let s := (s.modMem fun m => m.putBytes (updBase t + off) bs).bump 16 0 0 bs.length
  (if off = 0 ∨ [1, 2, 3].contains (s.updState t) then s.setUpdState t 1 else s).showUpd

/-- UPD_WRITE (R544). -/
def execUpdWrite (s : State) : Result :=
  done (s.updCommand 0x01 3 fun t desc s =>
    match writeBad t desc with
    | some off => (some (badField off), s)
    | none =>
      if s.writeRefused t then (some refusedState, s)
      else
        let (r, s) := s.readMem 20 (le desc 8 8) (le desc 16 4)
        match r with
        | .data bs => (some okCpl, s.program t (le desc 4 4) bs)
        | .error => (some { status := Status.memoryError }, s)
        | .denied => (some { status := Status.accessDenied }, s))

/-- The verdict of a check on a target's state: a slot that is EMPTY, TRIAL or CONFIRMED and a PENDING staging area keep theirs
(assumption 25). -/
def State.checked (s : State) (t : Nat) (pass : Bool) : State :=
  (if [1, 2, 3, 6].contains (s.updState t) then s.setUpdState t (if pass then 3 else 2) else s).showUpd

/-- UPD_CHECK (R545). -/
def execUpdCheck (s : State) : Result :=
  done (s.updCommand 0x02 3 fun t _ s =>
    let (d, s) := if t < 2 then s.imageCheck (updBase t) true else s.packageCheck
    match d with
    | none => let s := s.checked t true; (some (s.updCpl t Status.ok 0), s)
    | some d =>
      let s := ((s.checked t false).bump 16 1).raise F.UPD_INT_STAT_check_failed
      (some (s.failCpl t d), s))

/-- The audit entry of an activation or a cancel (R564). -/
def State.auditActivation (s : State) (t cancel : Nat) : State :=
  s.audit 0x0106 s.boot.updBy ([BitVec.ofNat 8 t, BitVec.ofNat 8 cancel, 0, 0] ++ natLE 4 (s.imgVersion (imageAt t)) ++
    natLE 4 (s.imgSecurity (imageAt t)))

/-- Activating target `t` (R546). -/
def State.activate (s : State) (t : Nat) : State :=
  let s := if t < 2 then (s.setUpdState t 4).modCtl fun c => { c with count := 0 } else s.setUpdState 2 7
  (s.bump 16 2).showUpd.auditActivation t 0

/-- UPD_ACTIVATE (R546). -/
def execUpdActivate (s : State) : Result :=
  done (s.auditGuard fun s => s.updCommand 0x03 3 fun t _ s =>
    if s.updState t ≠ 3 ∨ s.boot.ctl.stage = 7 ∨ s.boot.ctl.trial.isSome then (some refusedState, s)
    else (some (s.updCpl t Status.ok 0), s.activate t))

/-- UPD_CANCEL (R546). -/
def execUpdCancel (s : State) : Result :=
  done (s.auditGuard fun s => s.updCommand 0x04 3 fun t _ s =>
    if s.updState t = 7 ∨ (s.updState t = 4 ∧ s.boot.ctl.count = 0) then
      (some (s.updCpl t Status.ok 0), (s.setUpdState t 3).showUpd.auditActivation t 1)
    else (some refusedState, s))

/-- The running slot is confirmed (R549, R550). -/
def State.confirm (s : State) (r : Nat) : State :=
  let sec := s.imgSecurity (updBase r)
  let s := s.modCtl fun c => { c with
    slots := (c.slots.map fun v => if v = 5 then 3 else v).set r 5, count := 0, floor := max c.floor sec
    halves := c.halves.set (1 - r) none }
  let s := ((s.modBoot fun b => { b with window := none }).bump 16 3).showUpd
  s.audit 0x0107 s.boot.updBy ([BitVec.ofNat 8 r, 0, 0, 0] ++ natLE 4 (s.imgVersion (updBase r)) ++ natLE 4 s.boot.ctl.floor)

/-- UPD_CONFIRM (R549). -/
def execUpdConfirm (s : State) : Result :=
  done (s.auditGuard fun s => s.takeCommand 0x50 0x05 fun _ _ s =>
    if s.onTrial then (some (s.updCpl s.runSlot Status.ok 0), s.confirm s.runSlot) else (some refusedState, s))

/-! ## Processors one at a time (R552) -/

/-- The section of processor `p` in the image of slot `t`. -/
def State.sectionOf (s : State) (t p : Nat) : Option (List Byte) := (sections (s.flash (updBase t) 4096)).find? fun e => secProc e == p

/-- The new section and the running ones accept each other. -/
def State.swapFits (s : State) (p : Nat) (e : List Byte) : Bool :=
  (List.range 5).all fun q =>
    q == p || (secAccepts e q (s.fld (F.UPD_RUN_IFV_ifv q)) && secAccepts (nth s.boot.loaded q []) p (secVersion e))

/-- The state does not allow a swap of processor `p` from slot `t`. -/
def State.swapRefused (s : State) (t p : Nat) : Bool :=
  p < 2 || (p == 2 && s.anyStarted) || !([3, 4, 5].contains (s.updState t)) || s.boot.swap.isSome

/-- A swap of processor `p` waits for a boundary of its engine: the radio's cycle or the Meter's block, while that engine runs. -/
def State.swapWaits (s : State) (p : Nat) : Bool :=
  (p == 3 && s.fld F.RAD_STATUS_acting != 0) || (p == 4 && s.powered 3 && s.flag F.MTR_CFG_enable)

/-- An accepted swap: the section is taken at once, or at the boundary. -/
def State.swapTo (s : State) (p : Nat) (e : List Byte) : State :=
  if s.swapWaits p then s.modBoot fun b => { b with swap := some (p, e) } else s.runSection p e true

/-- UPD_PROC_SWAP (R552). -/
def execUpdProcSwap (s : State) : Result :=
  done (s.auditGuard fun s => s.updCommand 0x06 2 fun t desc s =>
    let p := byteAt desc 2
    if 5 ≤ p then (some (badField 0x82), s)
    else if s.swapRefused t p then (some refusedState, s)
    else match s.sectionOf t p with
      | none => (some (s.failCpl t 1), s)
      | some e =>
        if !s.sectionGood (updBase t) e then (some (s.failCpl t 6), s)
        else if !s.swapFits p e then (some (s.failCpl t 7), s)
        else
          let c := s.updCpl t Status.ok 0
          let s := (s.swapTo p e).bump 16 6
          (some c, s.audit 0x0109 s.boot.updBy ([BitVec.ofNat 8 p, BitVec.ofNat 8 t] ++ natLE 2 (secVersion e))))

/-- WINDOW_WARN (R548): one minute before the window ends. -/
def execWindowWarn (s : State) : Result :=
  match s.boot.window with
  | some e =>
    let s := s.reach (s.wall + ns * (e - 60000000000 - s.clock))
    done (if s.powered 27 then s.raise F.UPD_INT_STAT_window_warn else s)
  | none => done s

end Sys2Proof.Machine
end

