-- ==== Sys2Proof/Machine/Domains.lean ====
section
/-! DEFINITION. What the power of a domain carries (R349, R350, R353, R387, R392): the registers and the state that go with it, and
what its power-up restores. -/

namespace Sys2Proof.Machine

/-! ## Registers of a domain -/

/-- Register or counter `a` belongs to network port `p` alone. -/
def netPortReg (p a : Nat) : Bool :=
  a == Reg.NET_PORT_CFG p || a == Reg.NET_PORT_MAC_LO p || a == Reg.NET_PORT_MAC_HI p || a / 8 == Reg.NET_CNT_HALF p / 8 ||
    (p < 2 && (a == Reg.NET_MACSEC_REPLAY p || a == Reg.NET_MACSEC_PN_THRESH p || a == Reg.NET_CAGE p || a == Reg.NET_CAGE_MGMT p)) ||
    a / 0x20 == Reg.NET_TXQ_CFG p 0 / 0x20 || a / 0x20 == Reg.NET_TXQ_HI p 0 / 0x20 || a / 0x100 == 0x5010 + p

/-- Register or counter `a` belongs to a port of scan group `g` alone. -/
def scanGroupReg (g a : Nat) : Bool :=
  (Reg.SCN_PORT_STATUS 0 ≤ a && a < Reg.SCN_PORT_STATUS 64 && (a - Reg.SCN_PORT_STATUS 0) / 0x200 == g) ||
    (0x702000 ≤ a && a < 0x706000 && (a - 0x702000) / 0x1000 == g)

/-- The registers and counters that go with domain `d`; `last` says that no other domain powers its block. -/
def domainReg (d : Nat) (last : Bool) (a : Nat) : Bool :=
  match d with
  | 22 | 23 => a / 0x100000 == 5 && (last || netPortReg (d - 22) a)
  | 24 => a / 0x100000 == 11 || (a / 0x100000 == 5 && (last || netPortReg 2 a))
  | 14 | 15 | 16 | 17 => a / 0x100000 == 6 && (last || a / 0x40 == 0x601000 / 0x40 + (d - 14))
  | 18 | 19 | 20 | 21 => a / 0x100000 == 7 && (last || scanGroupReg (d - 18) a)
  | _ => blockDomains a == [d]

/-- The domains that share a block with `d`. -/
def sharers (d : Nat) : List Nat :=
  if 14 ≤ d ∧ d ≤ 17 then [14, 15, 16, 17] else if 18 ≤ d ∧ d ≤ 21 then [18, 19, 20, 21]
  else if 22 ≤ d ∧ d ≤ 24 then [22, 23, 24] else [d]

/-- No other domain of `d`'s block has power. -/
def State.lastOn (s : State) (d : Nat) : Bool := (sharers d).all fun e => e == d || !s.powered e

/-- The registers and counters that satisfy `p` return to their reset values. -/
def State.clearRegs (s : State) (p : Nat → Bool) : State :=
  (s.resetRegs p).resetCounts p

/-! ## State that goes with a domain -/

/-- Memory contents from `lo` up to `hi` are lost, and what was in error there. -/
def State.memLost (s : State) (lo hi : Nat) : State :=
  s.modMem fun m => { m with
    cells := m.cells.filter fun c => c.1 < lo || hi ≤ c.1
    flips := m.flips.filter fun c => c.1 < lo || hi ≤ c.1
    poison := m.poison.filter fun c => c.1 < lo || hi ≤ c.1 }

/-- PD04: the rings and vectors, and the tightly coupled SRAM. -/
def State.hearthLost (s : State) : State :=
  let s := s.modHrt fun h => { mbx := h.mbx }
  (s.memLost tcmKey (2 * tcmKey)).modMem fun m => { m with tcm := [] }

/-- A port's receive buffers, MACsec associations and transmit state; the frames that wait in its queues stay queued (R84, R349). -/
def State.netPortGone (s : State) (p : Nat) : State :=
  (s.portLinkLost p).modNet fun t => { t with
    txSa := t.txSa.filter fun x => x.1 / 4 != p, active := t.active.filter fun x => x.1 != p
    rxCh := t.rxCh.filter fun x => x.1 / 8 != p, rx := t.rx.filter fun r => r.port != p, busy := t.busy.set p 0
    txq := t.txq.map fun x => if x.1 / 8 = p then (x.1, { head := x.2.head }) else x, maxWas := t.maxWas.filter fun x => x.1 != p }

/-- A network domain: its port, and with the last of them what the ports share, the tables and the order of arbitration (R100). -/
def State.netGone (s : State) (d p : Nat) : State :=
  let s := s.netPortGone p
  if s.lastOn d then s.modNet fun t => { txq := t.txq } else s.settled

/-- A scan group: its ports stop, and what they were doing ends. -/
def State.scanGroupGone (s : State) (g : Nat) : State :=
  let ports := (List.range 16).map fun i => 16 * g + i
  let s := ports.foldl (fun s p => s.abandonPort p 0) s
  let s := s.modScn fun c => { c with ports := c.ports.filter fun x => x.1 / 16 != g }
  if s.blockOn Reg.ANV_GRY_STATUS then s.greyFigures else s

/-- PD25: the claim keeper lets go (R262), and the role is kept for the radio (R453). -/
def State.tongsGone (s : State) : State :=
  let role := s.role
  let s := s.dropClaim.modRad fun r => { r with keptRole := role, mirror := none }
  s.modTwn fun t => { peerLines := t.peerLines }

/-- Vectors in service at an application core are released (R307). -/
def State.coreGone (s : State) (c : Nat) : State := s.modHrt fun h => { h with inService := h.inService.filter fun v => v.2 != c }

/-- PD10: slot 0 is held there only (R507). -/
def State.keystoreGone (s : State) : State :=
  (s.setKeySlot 0 {}).modKey fun k => { k with doorbellBy := 0, remaskNext := 1 }

/-- PD26: the Timekeeper and its wall time. -/
def State.timeGone (s : State) : State := ((s.modTmk fun _ => {}).modPll fun _ => {}).setWall 0

/-- PD00: the RTC's count and the battery's metering. -/
def State.backupGone (s : State) : State := (s.modRtc fun _ => {}).modBat fun _ => {}

/-- What domain `d` holds is lost with its power. DRAM is in self-refresh while PD12 is off, and keeps its contents until a power-on
reset (R354, R392; assumption 105). -/
def State.domainState (s : State) (d : Nat) : State :=
  match d with
  | 0 => s.backupGone
  | 2 => (s.modRad fun r => { keptRole := r.keptRole }).takeSwap 3
  | 3 => (s.modMtr fun _ => {}).takeSwap 4
  | 4 => s.hearthLost
  | 5 | 6 | 7 | 8 => s.coreGone (d - 5)
  | 9 => s.memLost l2Key (2 * l2Key)
  | 10 => s.keystoreGone
  | 11 => s.flushTorn.modRec fun _ => {}
  | 13 => s.modHrt fun h => { h with mbx := List.replicate 16 {} }
  | 14 | 15 | 16 | 17 => if s.lastOn d then s.modAnv fun _ => {} else s
  | 18 | 19 | 20 | 21 => s.scanGroupGone (d - 18)
  | 22 | 23 => s.netGone d (d - 22)
  | 24 => (s.netGone 24 2).cabDown
  | 25 => s.tongsGone
  | 26 => s.timeGone
  | 28 => s.memLost 0x100000000 0x101800000
  | 29 => s.memLost 0x101800000 0x103000000
  | _ => s

/-- Domain `d` loses its power: its state and its registers are gone, commands that its engine held never complete, and
snapshot holders of a block without power are empty (R14, R353, R409). -/
def State.domainDown (s : State) (d : Nat) : State :=
  if !s.powered d then s
  else
    let last := s.lastOn d
    let s := (s.domainState d).clearRegs (domainReg d last)
    let s := s.setFld ⟨Reg.BLW_DOM_ON, d, 1⟩ 0
    let s := s.modHrt fun h => { h with inflight := h.inflight.filter fun i => s.engineOn i.ring || (0x20 ≤ i.ring && i.ring < 0x38) }
    let s := s.keepSnaps fun h => s.blockOn (if h.block = 0x48 then 0x480000 else 0x100000 * h.block)
    s.judgeHealth.judgeSync.showTcxo

/-! ## Power-up (R353, R387) -/

/-- The registers of R378 and R379 that a fuse field loads: the offset, and its value. -/
def State.fuseRegs (s : State) : List (Nat × Nat) :=
  let mac := leNat (s.fuseBytes 12 6)
  let port (p : Nat) : List (Nat × Nat) :=
    let m := (be (natLE 6 mac) 0 6 + p) % 2 ^ 48
    let v := leNat (natBE 6 m)
    [(Reg.NET_PORT_MAC_LO p, v % 2 ^ 32), (Reg.NET_PORT_MAC_HI p, v / 2 ^ 32)]
  let cal (p : Nat) : List (Nat × Nat) :=
    [(Reg.TMK_CAL_ING p, leNat (s.fuseBytes (0xE0 + 8 * p) 4)), (Reg.TMK_CAL_EGR p, leNat (s.fuseBytes (0xE4 + 8 * p) 4))]
  (List.range 3).flatMap port ++ (List.range 3).flatMap cal

/-- How many rows of a memory the spare-row map replaces (R380, R332). -/
def State.spareCount (s : State) (lo n : Nat) : Nat :=
  ((List.range n).filter fun i => (s.fuse (0x400 + 4 * (lo + i) + 3)).getLsbD 7).length

/-- MEM_SPARE_STATUS (R332). -/
def State.showSpares (s : State) : State :=
  ((s.setFld F.MEM_SPARE_STATUS_billet_a (s.spareCount 0 64)).setFld F.MEM_SPARE_STATUS_billet_b (s.spareCount 64 64)).setFld
    F.MEM_SPARE_STATUS_mram (s.spareCount 128 256)

/-- The mask of the fields of the register at `a` whose Reset entry is cfg. -/
def cfgMask (a : Nat) : Nat := match Reg.find a with | some r => r.cfg | none => 0

/-- Fuse fields come from the fuse shadow and cfg fields from the retained set (R387). -/
def State.restoreRegs (s : State) (p : Nat → Bool) : State :=
  let s := s.fuseRegs.foldl (fun s x => if p x.1 then s.setReg x.1 (BitVec.ofNat 32 x.2) else s) s
  s.boot.retained.foldl (fun s x =>
    if p x.1 then s.setReg x.1 (BitVec.ofNat 32 ((s.regN x.1 &&& (0xFFFFFFFF ^^^ cfgMask x.1)) ||| x.2)) else s) s

/-- The PLLs are locked when their domain is up (R395). -/
def State.clocksUp (s : State) : State :=
  let s := ((s.raise F.TMK_CLK_STATUS_tcxo_ok).raise F.TMK_CLK_STATUS_ref_locked).raise F.TMK_CLK_STATUS_core_locked
  ((s.raise F.TMK_CLK_STATUS_anvil_locked).raise F.TMK_CLK_STATUS_time_locked).setFld F.TMK_CLK_STATUS_dram_locked (b2n (s.powered 12))

/-- Requests that came while PD10 was off are recorded now (R524). -/
def State.keystoreUp (s : State) : State :=
  match s.key.offRefusal with
  | some w =>
    let n := s.key.offCount
    let s := s.modKey fun k => { k with offRefusal := none, offCount := 0 }
    ((s.bump 15 2 0 n).raise F.KEY_INT_STAT_refused).setReg Reg.KEY_LAST_REFUSED (BitVec.ofNat 32 w) |>.keyCount
  | none => s.keyCount

/-- What the power-up of domain `d` starts. -/
def State.domainStart (s : State) (d : Nat) : State :=
  match d with
  | 3 => s.calLoad.meterRestore
  | 10 => s.keystoreUp
  | 11 => if s.released then s.recLoad else s
  | 12 => (s.setFld F.TMK_CLK_STATUS_dram_locked (b2n (s.powered 26))).radFlush
  | 13 => s.showSpares
  | 24 => s.cabUp
  | 25 => ((s.setRole (s.fld F.TWN_CFG_enable)).seePeerClaim s.twn.peerLines).mirrorRegister
  | 26 => s.clocksUp.showTcxo
  | 27 => s.showUpd
  | _ => s

/-- Domain `d` is powered up (R353): its blocks start from their reset values, with fuse and cfg fields restored. -/
def State.domainUp (s : State) (d : Nat) : State :=
  if s.powered d then s
  else
    let last := s.lastOn d
    let s := s.setFld ⟨Reg.BLW_DOM_ON, d, 1⟩ 1
    ((s.restoreRegs (domainReg d last)).domainStart d).judgeHealth

end Sys2Proof.Machine
end

