-- ==== Sys2Proof/Machine/Rtc.lean ====
section
/-! DEFINITION. The real-time clock and calendar (R412 to R426). -/

namespace Sys2Proof.Machine

/-- An RTC write is discarded (R417, R418, R420). -/
def State.rtcRefused (s : State) : State := s.raise F.RTC_INT_STAT_cfg_refused

/-! ## The calendar -/

/-- Days before month `m` of a leap or common year, for m from 1. -/
def daysBefore (leap : Bool) (m : Nat) : Nat :=
  nth [0, 31, 59, 90, 120, 151, 181, 212, 243, 273, 304, 334] (m - 1) 0 + (if leap && 2 < m then 1 else 0)

/-- The Gregorian rule (R415). -/
def leapYear (y : Nat) : Bool := y % 4 == 0 && (y % 100 != 0 || y % 400 == 0)

/-- Days from 1970-01-01 to the first of January of year `y`. -/
def daysToYear (y : Nat) : Nat :=
  let p := y - 1
  365 * (y - 1970) + ((p / 4 - p / 100 + p / 400) - 477)

/-- The year, month and day of a day number counted from 1970-01-01. -/
def civilDate (d : Nat) : Nat × Nat × Nat :=
  let guess := 1970 + d / 366
  let y := ((List.range 3).map (fun i => guess + 2 - i)).find? (fun y => daysToYear y ≤ d) |>.getD guess
  let r := d - daysToYear y
  let m := ((List.range 12).map (fun i => 12 - i)).find? (fun m => daysBefore (leapYear y) m ≤ r) |>.getD 1
  (y, m, r - daysBefore (leapYear y) m + 1)

/-- Seconds of UTC since 1970 of the count (R415). -/
def State.utc (s : State) (sec : Nat) : Int := (sec : Int) - s.sfld F.RTC_UTC_OFF_offset

/-- 2000-01-01 00:00:00 and 2399-12-31 23:59:59 UTC (R416). -/
def calFirst : Int := 946684800
def calLast : Int := 13569465599

/-- The scheduled second s_L (R417). -/
def State.leapSecond (s : State) : Nat := s.regN Reg.RTC_LEAP_LO + 2 ^ 32 * s.fld F.RTC_LEAP_HI_sec_hi

/-- The inserted second is being shown: 23:59:60 (R417). -/
def State.leapShown (s : State) : Bool :=
  s.flag F.RTC_LEAP_HI_arm && !s.flag F.RTC_LEAP_HI_delete && s.rtc.count / 32768 == s.leapSecond

/-- The UTC seconds the calendar shows, held to its range; during an inserted second, those of the second before. -/
def State.calSeconds (s : State) : Nat :=
  let u := s.utc (s.rtc.count / 32768) - (if s.leapShown then 1 else 0)
  (max calFirst (min u calLast)).toNat

def State.calRange (s : State) : Bool :=
  let u := s.utc (s.rtc.count / 32768)
  u < calFirst || calLast < u

/-- The word of RTC_CAL_DATE. -/
def State.calDate (s : State) : Nat :=
  let d := s.calSeconds / 86400
  let (y, m, day) := civilDate d
  2 ^ 20 * y + 2 ^ 16 * m + day * 2 ^ 11 + ((d + 3) % 7 + 1) * 2 ^ 8

/-- The word of RTC_CAL_TIME. -/
def State.calTime (s : State) : Nat :=
  let t := s.calSeconds % 86400
  (t / 3600) * 2 ^ 12 + (t / 60 % 60) * 2 ^ 6 + (t % 60 + if s.leapShown then 1 else 0)

/-- A read of RTC_TIME_W0 snapshots W1, W2 and the calendar, so that all describe one tick (R412). -/
def State.rtcRead (s : State) (ini : Nat) : State :=
  let sec := s.rtc.count / 32768
  (s.setHolder ini 0x48 ([sec % 2 ^ 32, sec / 2 ^ 32 % 2 ^ 16, s.calDate, s.calTime].map (BitVec.ofNat 32))).answerWith
    (.word (BitVec.ofNat 32 (s.rtc.count % 32768)))

/-! ## Ticks -/

/-- The count moved by a signed number of ticks; it holds 48 bits of seconds. -/
def moveCount (c : Nat) (d : Int) : Nat := (((c : Int) + d) % ((2 ^ 63 : Nat) : Int)).toNat

/-- The count is adjusted by `d` ticks: it has been set (R418, R423; assumption 106). -/
def State.rtcAdjusted (s : State) (d : Int) : State :=
  ((s.modRtc fun r => { r with count := moveCount r.count d }).raise F.RTC_STATUS_valid).lower F.RTC_STATUS_osc_stopped

/-- The adjustment step of a tick: the host's under go, and the discipline's (R418, R423). -/
def State.rtcAdjustStep (s : State) : State :=
  let s := if s.rtc.discAdj = 0 then s else (s.rtcAdjusted s.rtc.discAdj).modRtc fun r => { r with discAdj := 0 }
  if s.flag F.RTC_ADJ_CTRL_go then
    (s.rtcAdjusted (s.sfld F.RTC_ADJ_SEC_seconds * 32768 + s.sfld F.RTC_ADJ_CTRL_ticks)).lower F.RTC_ADJ_CTRL_go
  else s

/-- The count advances by one tick, or by two or none where the trim's accumulator overflows (R413). -/
def State.rtcTrimStep (s : State) : State :=
  let t := s.sfld F.RTC_TRIM_trim
  let acc := s.rtc.trimAcc + t.natAbs
  let exceeds := 2 ^ 24 ≤ acc
  let adv : Int := if exceeds then (if 0 < t then 2 else 0) else 1
  s.modRtc fun r => { r with trimAcc := acc % 2 ^ 24, count := moveCount r.count adv }

/-- The leap change: at s_L for a deletion, from s_L + 1 for an insertion (R417; assumption 14). -/
def State.rtcLeapStep (s : State) : State :=
  let sec := s.rtc.count / 32768
  let del := s.flag F.RTC_LEAP_HI_delete
  if s.flag F.RTC_LEAP_HI_arm && (if del then s.leapSecond ≤ sec else s.leapSecond + 1 ≤ sec) then
    let off := s.sfld F.RTC_UTC_OFF_offset + (if del then -1 else 1)
    ((s.setFld F.RTC_UTC_OFF_offset (unsigned 16 off)).lower F.RTC_LEAP_HI_arm).raise F.RTC_INT_STAT_leap_done
  else s

/-- The value of alarm `a`, in ticks. -/
def State.alarmValue (s : State) (a : Nat) : Nat :=
  (s.regN (Reg.RTC_ALARM_W1 a) + 2 ^ 32 * s.fld (F.RTC_ALARM_W2_sec_hi a)) * 32768 + s.fld (F.RTC_ALARM_W0_ticks a)

/-- An armed alarm whose value has been reached fires: its flag is set, it disarms, and it may raise wake source 0 (R420,
R421). -/
def State.alarmStep (s : State) (a : Nat) : State :=
  if s.flag (F.RTC_ALARM_W2_arm a) && s.alarmValue a ≤ s.rtc.count then
    let s := (s.lower (F.RTC_ALARM_W2_arm a)).raise (if a = 0 then F.RTC_INT_STAT_alarm0 else F.RTC_INT_STAT_alarm1)
    if s.flag (F.RTC_ALARM_W2_wake a) then s.wake 0 else s
  else s

/-- RTC_TICK (R412 to R421, R426): the adjustment step, the trim, the leap change, then the alarms. The stop detector holds the count while
PD01 is off; with PD01 a tick comes from the crystal or the RC oscillator, and counts (R414; assumption 106). -/
def execRtcTick (s : State) : Result :=
  if !s.powered 0 || (s.flag F.RTC_STATUS_osc_stopped && !s.powered 1) then done s
  else
    let s := ((s.rtcAdjustStep.rtcTrimStep.rtcLeapStep.alarmStep 0).alarmStep 1)
    done (s.setFld F.RTC_STATUS_cal_range (b2n s.calRange))

/-! ## Writes -/

/-- A write to an RTC register while the interface is locked is discarded whole (R425). -/
def State.rtcWrite (s : State) (k : State → State) : State :=
  if s.flag F.RTC_STATUS_locked then s.raise F.RTC_INT_STAT_wr_locked else k s

/-- A write of RTC_ADJ_CTRL: discarded while go is 1, or with go while the discipline owns the count (R418, R419). -/
def State.adjCtrlWrite (s : State) (w : Word) : State :=
  s.rtcWrite fun s =>
    if s.flag F.RTC_ADJ_CTRL_go then s.rtcRefused
    else if signed 16 (fieldOf F.RTC_ADJ_CTRL_ticks w) = -32768 then s.rtcRefused
    else if fieldOf F.RTC_ADJ_CTRL_go w = 1 ∧ s.discActive then s.raise F.RTC_INT_STAT_adj_refused
    else (s.setFld F.RTC_ADJ_CTRL_ticks (fieldOf F.RTC_ADJ_CTRL_ticks w)).setFld F.RTC_ADJ_CTRL_go (fieldOf F.RTC_ADJ_CTRL_go w)

/-- RTC_ADJUST (R418, R419). -/
def execRtcAdjust (ini : Nat) (w : Word) (s : State) : Result :=
  done (s.setupAccess ini Reg.RTC_ADJ_CTRL true fun s => s.adjCtrlWrite w)

/-- A write of an alarm's W2 arms or disarms it (R420). -/
def State.alarmArm (s : State) (a : Nat) (w : Word) : State :=
  s.rtcWrite fun s => s.setReg (Reg.RTC_ALARM_W2 a) (w &&& 0x3FFFF)

/-- ALARM_ARM (R420). -/
def execAlarmArm (ini a : Nat) (w : Word) (s : State) : Result :=
  if a < 2 then done (s.setupAccess ini (Reg.RTC_ALARM_W2 a) true fun s => s.alarmArm a w) else done s

/-- The two words of RTC_LEAP hold no schedule, or one whose s_L falls on a UTC day's edge (R417). -/
def State.leapGood (s : State) (lo hi : Word) : Bool :=
  let tod := (s.utc (lo.toNat + 2 ^ 32 * fieldOf F.RTC_LEAP_HI_sec_hi hi)) % 86400
  fieldOf F.RTC_LEAP_HI_arm hi == 0 || (if fieldOf F.RTC_LEAP_HI_delete hi = 1 then tod == 86399 else tod == 0)

/-- A write of RTC_LEAP: of either word only if what they then hold is accepted (R417). -/
def State.leapWrite (s : State) (hi : Bool) (w : Word) : State :=
  s.rtcWrite fun s =>
    let a := if hi then Reg.RTC_LEAP_HI else Reg.RTC_LEAP_LO
    let w := if hi then w &&& 0x3FFFF else w
    if s.leapGood (if hi then s.reg Reg.RTC_LEAP_LO else w) (if hi then w else s.reg Reg.RTC_LEAP_HI) then s.setReg a w else s.rtcRefused

/-- LEAP_SCHEDULE (R417). -/
def execLeapSchedule (ini : Nat) (hi : Bool) (w : Word) (s : State) : Result :=
  done (s.setupAccess ini (if hi then Reg.RTC_LEAP_HI else Reg.RTC_LEAP_LO) true fun s => s.leapWrite hi w)

/-! ## Discipline -/

/-- e in 2^−16 ns: the count at a tick edge less the wall time of that edge; a tick is 2 × 10^9 of them (R423). -/
def State.discError (s : State) (edge : Nat) : Int := s.wallDiff (2000000000 * s.rtc.count) edge

/-- The end of a window: trim and count are corrected, and the result written (R423). -/
def State.discWindowEnd (s : State) (e : Int) : State :=
  let dt := rneI (16777216 * (e - s.rtc.discE0)) (65536 * (16 * 1000000000))
  let trim := max (-32767) (min 32767 (s.sfld F.RTC_TRIM_trim - dt))
  let s := if s.flag F.BLW_LF_CLK_on_rc then s else s.setFld F.RTC_TRIM_trim (unsigned 16 trim)
  let s := s.modRtc fun r => { r with discAdj := r.discAdj - rneI e 2000000000, discSec := none }
  s.setReg Reg.RTC_DISC_ERR (BitVec.ofInt 32 (max (-(2 ^ 31 - 1)) (min (2 ^ 31 - 1) (rneI e 65536))))

/-- DISCIPLINE_SECOND (R423): at a whole second of wall time, the tick edge nearest it was stamped `edge`. -/
def execDisciplineSecond (edge : Nat) (s : State) : Result :=
  let s := s.reach edge
  if !s.discActive then done (s.modRtc fun r => { r with discWas := false, discSec := none })
  else
    let e := s.discError edge
    if !s.rtc.discWas || (second : Int) ≤ e.natAbs then
      done ((s.modRtc fun r => { r with discWas := true, discSec := none, discAdj := r.discAdj - rneI e 2000000000 }).raise
        F.RTC_INT_STAT_disc_jump)
    else match s.rtc.discSec with
      | none => done (s.modRtc fun r => { r with discSec := some 0, discE0 := e })
      | some n => if n + 1 < 16 then done (s.modRtc fun r => { r with discSec := some (n + 1) }) else done (s.discWindowEnd e)

/-- RTC_OSC_STOPPED (R414): the crystal stops while PD01 is off. -/
def execRtcOscStopped (s : State) : Result :=
  if s.powered 1 then done s else done ((s.raise F.RTC_STATUS_osc_stopped).lower F.RTC_STATUS_valid)

/-- At release wall time takes the count: seconds, and the ticks' nanoseconds, rounded, with the fraction 0 (R6, R422). -/
def State.seedWall (s : State) : State :=
  let sec := s.rtc.count / 32768
  let sec := if s.wrap then sec % 2 ^ 32 else sec
  s.setWall (mkWall sec (rne (30517578125 * (s.rtc.count % 32768)) 1000000) 0)

end Sys2Proof.Machine
end

