-- ==== Sys2Proof/Machine/Start.lean ====
section
/-! DEFINITION. The start sequence from a power-on reset to release, the resets, and what ends a trial (R375 to R394, R547 to
R549). -/

namespace Sys2Proof.Machine

/-! ## A power-on reset (R392, R393) -/

/-- A register or counter that a power-on reset reaches in PD01: all but the reset cause, the wake cause, the low-frequency
clock and the Bellows counters 0 to 4 (R374, R392, R403). -/
def pd01Reset (a : Nat) : Bool :=
  (a / 0x100000 == 2 && !(a / 4 == Reg.BLW_WAKE_CAUSE / 4 || a / 4 == Reg.BLW_WAKE_CAUSE / 4 + 1 || a / 8 == Reg.BLW_LF_CLK / 8 ||
    (0x201000 ≤ a && a < 0x201028))) ||
  (a / 0x100000 == 3 && a != Reg.BOOT_CAUSE)

/-- The domains from PD02 on lose their power, in descending order. -/
def State.allDown (s : State) : State := (((List.range 30).drop 2).reverse).foldl State.domainDown s

/-- A list of domain changes is made at once. -/
def State.applyChanges (s : State) (l : List (Nat × Bool)) : State :=
  l.foldl (fun s c => if c.2 then s.domainUp c.1 else s.domainDown c.1) s

/-- BOOT_CAUSE of a start with the causes in the bits of `causes`: the highest of the table is recorded (R393). After causes 0
and 1 no earlier start is known. -/
def State.causeWord (s : State) (causes dom : Nat) : Nat :=
  let c := (lowestBit 9 causes).getD 0
  let prev := if c ≤ 1 then 0 else s.fld F.BOOT_CAUSE_cause * 2 ^ 4 + 2 ^ 16 * s.fld F.BOOT_STATUS_fault
  c + prev + (if causes.testBit 3 then dom % 32 else 0) * 2 ^ 8 + 2 ^ 21 * bits causes 0 9

/-- A failed start: the processors stay in reset with the domains of IDLE powered, and the Recorder counts it (R391). -/
def State.failStart (s : State) (code : Nat) : State :=
  let s := (s.setFld F.BOOT_STATUS_phase 15).setFld F.BOOT_STATUS_fault code
  let s := s.applyChanges (s.changesTo 1 (s.regN Reg.BLW_OPT))
  let s := s.recLoad.life 0
  let s := s.boot.owed.foldl (fun s e => (s.life 43 (b2n (e.1 == 0x0108))).audit e.1 21 e.2) s
  s.modBoot fun b => { b with owed := [] }

/-- The state of Bellows and of the boot engine that a power-on reset clears, and the contents of DRAM and the Billet, which it loses
(R392). -/
def State.startClean (s : State) : State :=
  let s := s.modBlw fun b => { unseated := b.unseated }
  let s := ((s.modScn fun _ => {}).modNet fun _ => {}).memLost 0 0x103000000
  s.modBoot fun b => { b with loaded := [], swap := none, window := none, retained := [], tries := 0, ready := false }

/-- A power-on reset (R375, R392, R393): the domains lose their power, PD01 keeps what R392 names, and the start sequence
begins, unless the watchdog has ended three starts in a row (R388). -/
def State.restart (s : State) (causes dom : Nat) : State :=
  let causes := bits causes 0 9
  let causes := if s.fld F.BOOT_STATUS_phase = 15 then causes &&& 0x53 else causes
  if causes = 0 then s
  else
    let cause := s.causeWord causes dom
    let wd := cause % 16 == 7
    let count := if wd then satU 8 (s.fld F.BOOT_STATUS_wd_count + 1) else s.fld F.BOOT_STATUS_wd_count
    let s := s.allDown.startClean.clearRegs pd01Reset
    let s := (s.keepSnaps fun h => h.block == 0x48).setClock 0
    let s := ((s.setReg Reg.BLW_DOM_ON 3).setReg Reg.BOOT_CAUSE (BitVec.ofNat 32 cause)).setFld F.BOOT_STATUS_wd_count count
    let s := (s.raise F.BLW_STATUS_vin_ok).lower F.RTC_STATUS_locked
    let s := s.emit (.pin "MOD_FAULT_N" false)
    if wd && 3 ≤ count then s.failStart 4 else s

/-- POWER_ON_RESET (R375, R393). -/
def execPowerOnReset (causes dom : Nat) (s : State) : Result := if s.powered 1 then done (s.restart causes dom) else done s

/-- The start is in phase `n` and not held by BP_RESET_N. -/
def State.inPhase (s : State) (n : Nat) : Bool := s.powered 1 && s.fld F.BOOT_STATUS_phase == n && !s.boot.held

/-! ## FUSE (R377, R378) -/

/-- A region of the fuse block agrees with the CRC-32 in its last four bytes. -/
def State.regionGood (s : State) (off size : Nat) : Bool :=
  crc32 (s.fuseBytes off (size - 4)) == leNat (s.fuseBytes (off + size - 4) 4)

/-- The checks of R377: none, or the fault code. -/
def State.fuseFault (s : State) : Option Nat :=
  if !([(0, 32), (0x20, 32), (0x40, 64), (0x80, 640), (0x300, 64)].all (fun r => s.regionGood r.1 r.2) &&
      crc32 (s.fuseBytes 0x400 1536) == leNat (s.fuseBytes 0xA00 4)) then some 1
  else if leNat (s.fuseBytes 0 2) ≠ 0x4810 then some 5
  else none

/-- The domains that the CLOCKS phase powers, PD26 first (R375). -/
def clocksDomains : List Nat := [26, 4, 9, 11, 12, 13, 27, 28, 29]

/-- The end of FUSE: BOOT_HWID is loaded, and CLOCKS begins. -/
def State.fuseDone (s : State) : State :=
  match s.fuseFault with
  | some code => s.failStart code
  | none =>
    let s := (s.setFld F.BOOT_HWID_type (leNat (s.fuseBytes 0 2))).setFld F.BOOT_HWID_revision (leNat (s.fuseBytes 2 1))
    clocksDomains.foldl State.domainUp (s.setFld F.BOOT_STATUS_phase 1)

/-! ## Configuration records (R384 to R387) -/

/-- A record: its type and its data. -/
def nextRecord (b : List Byte) : Option (Nat × List Byte × List Byte) :=
  let n := le b 2 2
  let len := (n + 3) / 4 * 4
  if b.length < 4 + len then none
  else if le b 0 2 = 0xFFFF then none
  else some (le b 0 2, sliceB b 4 n, b.drop (4 + len))

/-- The records of a body. -/
def recordsOf : Nat → List Byte → List (Nat × List Byte)
  | 0, _ => []
  | fuel + 1, b =>
    match nextRecord b with
    | some (t, d, rest) => (t, d) :: recordsOf fuel rest
    | none => []

/-- The resolved cfg fields of the register at `a` (R386, R387). -/
def State.cfgOf (s : State) (a : Nat) : Nat := Sparse.get (fun a => (Reg.resetVal a).toNat &&& cfgMask a) s.boot.retained a

/-- A resolved value of the cfg fields joins the retained set, and the register if its block has power (R387). -/
def State.retain (s : State) (a v : Nat) : State :=
  let s := s.modBoot fun b => { b with retained := Sparse.put b.retained a v }
  if s.blockOn a then s.setReg a (BitVec.ofNat 32 ((s.regN a &&& (0xFFFFFFFF ^^^ cfgMask a)) ||| v)) else s

/-- The mask bits that only the identity header sets: TWN_CFG.enable and slot_b (R385). -/
def headerBits (a : Nat) : Nat := if a = Reg.TWN_CFG then 2 ^ F.TWN_CFG_enable.lo + 2 ^ F.TWN_CFG_slot_b.lo else 0

/-- A REG record: the value that the register's cfg fields take, or none if the record is refused (R385). -/
def State.recordValue (s : State) (a mask value : Nat) : Option Nat :=
  let v := (s.cfgOf a &&& (0xFFFFFFFF ^^^ mask)) ||| (value &&& mask)
  let word := BitVec.ofNat 32 ((s.regN a &&& (0xFFFFFFFF ^^^ cfgMask a)) ||| v)
  let room := s.boot.retained.length < 1024 || s.boot.retained.any fun x => x.1 == a
  if a % 4 = 0 ∧ a ≤ 0xFFFFFC ∧ (Reg.find a).isSome ∧ mask &&& (0xFFFFFFFF ^^^ cfgMask a) = 0 ∧ mask &&& headerBits a = 0 ∧
    !s.writeBad a word ∧ room then some v else none

/-- One record. -/
def State.applyRecord (s : State) (r : Nat × List Byte) : State :=
  if r.1 ≠ 1 then s.incFld F.BOOT_CFG_CNT_unknown
  else
    match (if r.2.length = 12 then s.recordValue (le r.2 0 4) (le r.2 4 4) (le r.2 8 4) else none) with
    | some v => (s.retain (le r.2 0 4) v).incFld F.BOOT_CFG_CNT_applied
    | none => s.incFld F.BOOT_CFG_CNT_refused

/-- The records of a body, in order. -/
def State.applyRecords (s : State) (b : List Byte) : State := (recordsOf b.length b).foldl State.applyRecord s

/-! ## IDENTITY (R381 to R383) -/

/-- The memory's header and body agree with R382. -/
def identGood (b : List Byte) : Bool :=
  let n := le b 6 2
  b.take 4 == ascii "CSGI" && byteAt b 4 == 1 && byteAt b 5 ≤ 2 && n ≤ 65504 && n % 4 == 0 && 32 + n ≤ b.length &&
    crc32 (b.take 28 ++ sliceB b 32 n) == le b 28 4

/-- TWN_CFG.enable and slot_b as the identity gives them. -/
def State.setPairing (s : State) (enable slotB : Bool) : State :=
  s.retain Reg.TWN_CFG ((s.cfgOf Reg.TWN_CFG &&& (0xFFFFFFFF ^^^ headerBits Reg.TWN_CFG)) |||
    (b2n enable * 2 ^ F.TWN_CFG_enable.lo + b2n slotB * 2 ^ F.TWN_CFG_slot_b.lo))

/-- The identity is applied, or handled as bad (R382, R383). -/
def State.applyIdentity (s : State) (b : List Byte) : State :=
  if identGood b then
    let s := s.setPairing (byteAt b 5 != 0) (byteAt b 5 == 2)
    let s := (s.setReg Reg.BOOT_IDENT (BitVec.ofNat 32 (le b 8 4))).setFld F.BOOT_IDENT_SLOT_slot (byteAt b 5)
    s.applyRecords (sliceB b 32 (le b 6 2))
  else
    let s := (s.setPairing true true).raise F.BOOT_STATUS_ident_bad
    (s.setReg Reg.BOOT_IDENT 0xFFFFFFFF).setFld F.BOOT_IDENT_SLOT_slot 0xFF

/-- The end of IDENTITY: what was read, or no answer after three tries (R381, R383). -/
def State.identityDone (s : State) (ident : Option (List Byte)) : State :=
  match ident with
  | some b => (s.applyIdentity b).setFld F.BOOT_STATUS_phase 3
  | none => if 2 ≤ s.boot.tries then (s.applyIdentity []).setFld F.BOOT_STATUS_phase 3 else s

/-- IDENTITY_RETRY (R381): up to three tries; the read runs alongside DRAM training. -/
def execIdentityRetry (s : State) : Result :=
  if (s.inPhase 1 || s.inPhase 2) && s.boot.tries < 2 then done (s.modBoot fun b => { b with tries := b.tries + 1 }) else done s

/-! ## IMAGE (R547) -/

/-- A pending package is copied to the slot that is not confirmed; `ok` says whether the copy succeeded. -/
def State.stagingCopy (s : State) (ok : Bool) : State :=
  if s.boot.ctl.stage ≠ 7 then s
  else if !ok then (s.setUpdState 2 2).raise F.UPD_INT_STAT_copy_failed
  else
    let t := if s.updState 0 = 5 then 1 else 0
    let s := s.modMem fun m => m.putBytes (updBase t) (m.bytes (updBase 2 + 512) s.payloadLength)
    let s := ((s.setUpdState t 4).setUpdState 2 0).modCtl fun c => { c with count := 0 }
    (s.raise F.BOOT_STATUS_staging_copied).bump 16 5

/-- The slot `t` on trial has failed: it is marked, flagged, counted, and entered in the audit log (R547, R549, R564). -/
def State.fallBack (s : State) (t detail : Nat) : State :=
  let s := ((s.setUpdState t 6).raise F.UPD_INT_STAT_fell_back).bump 16 4
  s.modBoot fun b => { b with owed := b.owed ++ [(0x0108, [BitVec.ofNat 8 t, BitVec.ofNat 8 detail])] }

/-- A slot in one of the states `l`. -/
def UpdCtl.slotIn (c : UpdCtl) (l : List Nat) : Option Nat :=
  if l.contains (nth c.slots 0 0) then some 0 else if l.contains (nth c.slots 1 0) then some 1 else none

/-- The slot that R547 chooses. -/
def State.chooseSlot (s : State) : Option Nat × State :=
  match s.boot.ctl.trial with
  | some t =>
    if s.boot.ctl.count < 2 then (some t, s.modCtl fun c => { c with count := c.count + 1 })
    else
      let s := s.fallBack t 0
      ((s.boot.ctl.slotIn [5]).or (s.boot.ctl.slotIn [3]), s)
  | none => ((s.boot.ctl.slotIn [5]).or (s.boot.ctl.slotIn [3]), s)

/-- The chosen slot is checked, and the other one after it: the slot that passes (R375, R547). -/
def State.passingSlot (s : State) : Option Nat × State :=
  match s.chooseSlot with
  | (none, s) => (none, s)
  | (some t, s) =>
    match (s.imageCheck (updBase t) false).1 with
    | none => (some t, s)
    | some d =>
      let s := if s.updState t = 4 then s.fallBack t d else s
      if (s.updState (1 - t) = 5 ∨ s.updState (1 - t) = 3) ∧ (s.imageCheck (updBase (1 - t)) false).1.isNone then
        (some (1 - t), s.raise F.BOOT_STATUS_slot_fallback)
      else (none, s)

/-- A section is loaded: the processors 0 and 1 and data to their address, and every processor's section runs (R389, R541). -/
def State.loadSection (s : State) (t : Nat) (e : List Byte) : State :=
  let s := if [0, 1, 5].contains (secProc e) then
    (s.writeMem 21 (le e 16 5) (s.flash (updBase t + secOffset e) (secLength e))).2 else s
  if secProc e < 5 then s.runSection (secProc e) e false else s

/-- The end of IMAGE: the image is loaded and the domains of READY are powered (R375, R389), or no slot passes. -/
def State.imageDone (s : State) (ok : Bool) : State :=
  match (s.stagingCopy ok).passingSlot with
  | (none, s) => s.failStart 2
  | (some t, s) =>
    let s := (s.setFld F.BOOT_STATUS_booted_slot t).setFld F.UPD_STATUS_running t
    let s := (sections (s.flash (updBase t) 4096)).foldl (fun s e => s.loadSection t e) s
    let s := s.applyChanges (s.changesTo 2 (s.regN Reg.BLW_OPT))
    s.showUpd.setFld F.BOOT_STATUS_phase 4

/-! ## RECORDS (R386, R507) -/

/-- The root key goes to Keystore slot 0: type ROOT, bound to derivation only (R507, R509). -/
def State.passRootKey (s : State) : State :=
  (s.setKeySlot 0 { attr := 6 + 2 ^ 14, key := s.fuseBytes 0x300 32 }).raise F.KEY_STATUS_root_loaded

/-- The boot engine commits the firewall's shadow table under R343; the audit entry waits for the Recorder's load (R345, R386). -/
def State.bootCommit (s : State) : State :=
  match s.fwlBadEntry with
  | some e => s.commitRefused e
  | none =>
    let s := ((s.fwlActivate.wrapFld F.FWL_FENCE_gen).bump 2 15).lower F.FWL_FENCE_drained
    let gen := s.fld F.FWL_FENCE_gen
    s.modBoot fun b => { b with owed := b.owed ++ [(0x0101, natLE 2 gen)] }

/-- The end of RECORDS. -/
def State.recordsDone (s : State) : State :=
  let a := updBase s.runSlot
  let s := s.applyRecords (s.records a (s.flash a 4096))
  s.passRootKey.bootCommit.modBoot fun b => { b with ready := true }

/-- START_PHASE_DONE (R375): the phase under way has ended. `ok` is the outcome of DRAM training in CLOCKS and of the copy from
staging in IMAGE; `ident` is what the identity memory answered. -/
def execStartPhaseDone (ok : Bool) (ident : Option (List Byte)) (s : State) : Result :=
  if s.inPhase 0 then done s.fuseDone
  else if s.inPhase 1 then done (if ok then s.setFld F.BOOT_STATUS_phase 2 else s.failStart 3)
  else if s.inPhase 2 then done (s.identityDone ident)
  else if s.inPhase 3 then done (s.imageDone ok)
  else if s.inPhase 4 && !s.boot.ready then done s.recordsDone
  else done s

/-! ## Release (R388 to R390, R548, R562, R573) -/

/-- The flags of BOOT_INT_STAT for the start (R389). -/
def State.startFlags (s : State) : State :=
  let s := if s.flag F.BOOT_STATUS_slot_fallback then s.raise F.BOOT_INT_STAT_slot_fallback else s
  let s := if s.flag F.BOOT_STATUS_ident_bad then s.raise F.BOOT_INT_STAT_ident_bad else s
  if s.fld F.BOOT_CFG_CNT_refused = 0 then s else s.raise F.BOOT_INT_STAT_records_refused

/-- The Recorder at release: it loads a bank, takes what the start owes it, counts the start and enters it (R389, R562, R564,
R565, R573). -/
def State.recRelease (s : State) : State :=
  let cause := s.fld F.BOOT_CAUSE_cause
  let s := s.recLoad
  let s := s.boot.owed.foldl (fun s e => (s.life 43 (b2n (e.1 == 0x0108))).audit e.1 21 e.2) s
  let s := s.modBoot fun b => { b with owed := [] }
  let s := (s.recFold.life (1 + cause)).modImg fun m => { m with cycles := (m.cycles + 1) % 2 ^ 32 }
  let s := s.audit 0x010A 21 ([Reg.BOOT_CAUSE, Reg.BOOT_STATUS, Reg.BOOT_START_TIME].flatMap fun a => natLE 4 (s.regN a))
  if cause = 3 then s.faultEntry 0x0209 23 (natLE 1 (s.fld F.BOOT_CAUSE_domain)) else s

/-- A start from a TRIAL slot: the confirmation window runs, and at the first such start the image is given the settings half
that the confirmed image does not own (R548, R550). -/
def State.beginTrial (s : State) : State :=
  let r := s.runSlot
  if s.updState r ≠ 4 then s
  else
    let m := leNat (s.flash (updBase r + 224) 2)
    let s := s.modBoot fun b => { b with window := some (s.clock + 60000000000 * (if m = 0 then 15 else m)) }
    let s := if s.boot.ctl.count = 1 then
      s.modCtl fun c => { c with halves := c.halves.set r (some (1 - (nth c.halves (1 - r) none).getD 1)) } else s
    (s.raise F.UPD_INT_STAT_trial_started).showUpd

/-- A radio that the records enable starts as a write of RAD_CTRL starts it. -/
def State.radioRelease (s : State) : State :=
  if s.flag F.RAD_CTRL_enable then (s.lower F.RAD_CTRL_enable).radCtrlWrite (s.reg Reg.RAD_CTRL) else s

/-- RELEASE (R389, R390): the module is in READY and its processors run. -/
def execRelease (s : State) : Result :=
  if !(s.inPhase 4 && s.boot.ready) then done s
  else
    let s := (s.setFld F.BOOT_STATUS_phase 5).setFld F.BOOT_STATUS_wd_count 0
    let s := s.setReg Reg.BOOT_START_TIME (BitVec.ofNat 32 (s.clock / 1000))
    let s := s.startFlags.seedWall.recRelease
    let s := ((s.setFld F.BLW_STATUS_state 2).setFld F.BLW_STATUS_target 2).emit (.pin "MOD_FAULT_N" true)
    let s := s.modBlw fun b => { b with opt := s.regN Reg.BLW_OPT }
    let s := if s.powered 3 then s.calLoad else s
    done ((s.meterRestore.beginTrial).radioRelease).judgeHealth

/-! ## The causes of a restart -/

/-- START_WATCHDOG_EXPIRY (R388): a start has not reached release 2.0 s after its reset. -/
def execStartWatchdogExpiry (s : State) : Result :=
  if s.powered 1 && s.fld F.BOOT_STATUS_phase < 5 && !s.boot.held then done (s.restart (2 ^ 7) 0) else done s

/-- BP_RESET (R393): BP_RESET_N has been low for 10 µs, or rises again; the start begins at the rise. -/
def execBpReset (low : Bool) (s : State) : Result :=
  if !s.powered 1 then done s
  else if low then done ((s.restart (2 ^ 6) 0).modBoot fun b => { b with held := true })
  else if s.boot.held then done ((s.modBoot fun b => { b with held := false }).setClock 0)
  else done s

/-- The memory that survives every reset: MRAM and boot flash (R392). -/
def Mem.lasting (m : Mem) : Mem :=
  let keep (a : Nat) : Bool := region a == some .mram || region a == some .flash
  { cells := m.cells.filter fun c => keep c.1, flips := m.flips.filter fun c => keep c.1
    poison := m.poison.filter fun c => keep c.1 }

/-- What outlives every loss of power: the contents that are not volatile, the seating of the module, and the model's own queue,
output and draws (R392, R538, R507). -/
def State.nonVolatile (s : State) : State :=
  { pending := s.pending, out := s.out, draws := s.flushTorn.draws, mem := s.flushTorn.mem.lasting
    key := { slots := s.key.slots.filter fun k => k.1 != 0 }
    boot := { fuse := s.boot.fuse, ctl := s.boot.ctl, held := s.boot.held, owed := s.boot.owed }
    blw := { unseated := s.blw.unseated } }

/-- BACKUP_POWER_UP (R392, R393): PD00 regains power and nothing volatile is kept; the start is cold. -/
def execBackupPowerUp (s : State) : Result := done (s.nonVolatile.restart 1 0)

/-- A register of PD00: the RTC, and the battery's metering. -/
def pd00Reg (a : Nat) : Bool := blockDomains a == [0]

/-- Only PD00 has power: the RTC and the battery's metering go on, and everything else volatile is lost (R348). -/
def State.backupOnly (s : State) : State :=
  let n : State := s.nonVolatile
  { n with regs := Sparse.set Reg.resetVal (s.regs.filter fun r => pd00Reg r.1) Reg.BLW_DOM_ON 1
           counts := s.counts.filter fun c => pd00Reg c.1, snaps := s.snaps.filter fun h => h.block == 0x48
           rtc := s.rtc, bat := s.bat }

/-- ALWAYS_ON_POWER_UP (R392, R393, R414): PD01 regains power, and PD00 is kept. -/
def execAlwaysOnPowerUp (s : State) : Result :=
  if s.powered 1 then done s
  else
    let n := s.backupOnly.setReg Reg.BLW_DOM_ON 3
    let n := if n.flag F.RTC_STATUS_osc_stopped then n.raise F.RTC_INT_STAT_osc_stop else n
    done (n.restart 2 0)

/-- A write of BOOT_RESET (R394): a wrong key, or a kind that is none, is discarded; a restart asked for while a thermal shutdown
or a power-fail warning is served is dropped. -/
def State.bootReset (s : State) (w : Word) : State :=
  if fieldOf F.BOOT_RESET_key w ≠ 0xC5A1 then s.raise F.BOOT_INT_STAT_reset_refused
  else if fieldOf F.BOOT_RESET_kind w = 2 then s.coreGone (fieldOf F.BOOT_RESET_core w)
  else if fieldOf F.BOOT_RESET_kind w = 1 then
    if s.blw.thermal || s.flag F.BLW_STATUS_pf_warn then s else s.restart (2 ^ 8) 0
  else s

/-- HOST_RESTART (R394): kind 1. -/
def execHostRestart (ini : Nat) (w : Word) (s : State) : Result :=
  done (s.setupAccess ini Reg.BOOT_RESET true fun s => s.bootReset w)

/-- CORE_RESET (R392): kind 2. -/
def execCoreReset (ini : Nat) (w : Word) (s : State) : Result :=
  done (s.setupAccess ini Reg.BOOT_RESET true fun s => s.bootReset w)

/-- CONFIRMATION_WINDOW_END (R549): without a confirmation the trial slot fails and the module restarts; the audit entry waits
for the Recorder of the next start. -/
def execConfirmationWindowEnd (s : State) : Result :=
  match s.boot.window with
  | some e =>
    let s := s.reach (s.wall + ns * (e - s.clock))
    if !s.auditRoom then done s.auditWait else done ((s.fallBack s.runSlot 0).restart (2 ^ 5) 0)
  | none => done s

end Sys2Proof.Machine
end

