-- ==== Sys2Proof/Machine/Power.lean ====
section
/-! DEFINITION. Power: state requests and transitions, domain faults, the loss and return of VIN, waking, and heat (R347 to R373). -/

namespace Sys2Proof.Machine

/-! ## Transitions (R350 to R353) -/

/-- Domain `d` powers down; before PD03 does, the Meter hands its accumulators over (R438). -/
def State.powerOff (s : State) (d : Nat) : State := (if d = 3 then s.meterSave else s).domainDown d

/-- Every domain but those of `keep` powers down, in descending order (R353). -/
def State.keepOnly (s : State) (keep : List Nat) : State :=
  ((List.range 30).reverse.filter fun d => !keep.contains d).foldl State.powerOff s

/-- The last domain has changed (R352); a wake that fired during a descent to DARK acts now (R357). -/
def State.finishTransition (s : State) : State :=
  let s := (s.setFld F.BLW_STATUS_state (s.fld F.BLW_STATUS_target)).lower F.BLW_STATUS_busy
  let s := s.raise F.BLW_INT_STAT_state_done
  if s.fld F.BLW_STATUS_state = 0 ∧ s.blw.wakeHeld then (s.modBlw fun b => { b with wakeHeld := false }).leaveDark else s

/-- The transition under way ends where it is; one that the host asked for is refused (R358). -/
def State.cutTransition (s : State) : State :=
  if s.flag F.BLW_STATUS_busy then
    let s := if s.blw.byHost then s.raise F.BLW_STATUS_req_refused else s
    (s.modBlw fun b => { b with todo := [], wakeHeld := false }).lower F.BLW_STATUS_busy
  else s

/-- A domain that may not be powered off: its block has an enabled ring, it is a slice of a started stream, or a scan group with a
port that is neither OFF nor in FAULT (R294, R352). -/
def State.mustStay (s : State) (d : Nat) : Bool :=
  ringNumbers.any (fun n => (ringEngine n).2.contains d && s.ringEnabled n) ||
    (14 ≤ d && d ≤ 17 && s.anyStarted) ||
    (18 ≤ d && d ≤ 21 && (List.range 16).any fun i =>
      let st := s.fld (F.SCN_PORT_STATUS_state (16 * (d - 18) + i))
      st != 0 && st != 6)

/-- A request for LIT that would skip a group in which a port has a chain set (R351). -/
def State.skipsChain (s : State) (st : Nat) : Bool :=
  st == 3 && (List.range 64).any fun p => (s.fld F.BLW_OPT_skip_group).testBit (p / 16) && (s.chainOf p).isSome

/-- The request is refused (R351, R352). -/
def State.requestRefused (s : State) (st : Nat) : Bool :=
  s.flag F.BLW_STATUS_busy || s.flag F.BLW_STATUS_pf_warn || s.skipsChain st ||
    (s.changesTo st (s.regN Reg.BLW_OPT)).any fun c => !c.2 && s.mustStay c.1

/-- A write of BLW_STATE_REQ. -/
def State.stateRequest (s : State) (st : Nat) : State :=
  if s.requestRefused st then s.raise F.BLW_STATUS_req_refused
  else
    let s := s.beginTransition st true
    if s.blw.todo.isEmpty then s.finishTransition else s

/-- STATE_REQUEST (R352). -/
def execStateRequest (ini : Nat) (w : Word) (s : State) : Result :=
  done (s.setupAccess ini Reg.BLW_STATE_REQ true fun s => s.stateRequest (fieldOf F.BLW_STATE_REQ_state w))

/-- Condition 3 of R263 holds again when no faulted scan domain is without power. -/
def State.judgeScanPower (s : State) : State :=
  let bad := (List.range 30).any fun d => 14 ≤ d && d ≤ 21 && !s.powered d && (s.regN Reg.BLW_DOM_FAULT).testBit d
  (s.modTwn fun t => { t with scanLost := t.scanLost && bad }).judgeHealth

/-- One domain changes. -/
def State.changeDomain (s : State) (c : Nat × Bool) : State := if c.2 then (s.domainUp c.1).judgeScanPower else s.powerOff c.1

/-- DOMAIN_POWER_STEP (R353): the next domain of the transition. -/
def execDomainPowerStep (s : State) : Result :=
  match s.blw.todo with
  | [] => done s
  | c :: rest =>
    let s := (s.modBlw fun b => { b with todo := rest }).changeDomain c
    if rest.isEmpty then done s.finishTransition else done s

/-! ## Domain faults (R349) -/

/-- A domain whose fault restarts the module. -/
def restartDomain (d : Nat) : Bool := [4, 9, 12, 13, 26].contains d

/-- The ports of a scan group whose Anvil slice has gone stop driving; their chains stay set. -/
def State.groupStops (s : State) (g : Nat) : State :=
  ((List.range 16).map fun i => 16 * g + i).foldl (fun s p =>
    if s.fld (F.SCN_PORT_STATUS_state p) = 0 ∨ s.fld (F.SCN_PORT_STATUS_state p) = 6 then s
    else (s.abandonPort p 0).setFld (F.SCN_PORT_STATUS_state p) 0) s

/-- A port of the scan group of domain `d` is in RUN. -/
def State.groupRuns (s : State) (d : Nat) : Bool :=
  14 ≤ d && d ≤ 21 && (List.range 16).any fun i => s.fld (F.SCN_PORT_STATUS_state (16 * ((d - 14) % 4) + i)) == 4

/-- The power-good of domain `d` has fallen (R349). -/
def State.domainFault (s : State) (d : Nat) : State :=
  let ran := s.groupRuns d
  let s := if 14 ≤ d ∧ d ≤ 17 then s.groupStops (d - 14) else s
  let s := s.domainDown d
  let s := ((s.setFld ⟨Reg.BLW_DOM_FAULT, d, 1⟩ 1).raise F.BLW_INT_STAT_dom_fault).bump 11 4
  let s := if ran then (s.modTwn fun t => { t with scanLost := true }).judgeHealth else s
  if restartDomain d then s.restart (2 ^ 3) d else s

/-- DOMAIN_FAULT (R349): of a powered domain but PD01, in which the Bellows sequencer itself lies (assumption 104). -/
def execDomainFault (d : Nat) (s : State) : Result :=
  if d ≠ 1 ∧ d < 30 ∧ s.powered 1 ∧ s.powered d then done (s.domainFault d) else done s

/-- DOMAIN_RESTART is refused: the domain is not faulted, or the present state does not power it (R372). -/
def State.domainRefused (s : State) (d : Nat) : Bool :=
  !domainIn (s.fld F.BLW_STATUS_state) s.blw.opt d ||
    !((s.regN Reg.BLW_DOM_FAULT).testBit d || (!s.powered d && !s.flag F.BLW_STATUS_busy))

/-- DOMAIN_RESTART (R372). -/
def execDomainRestart (s : State) : Result :=
  done (s.takeCommand 0x18 0x03 fun _ desc s =>
    let d := byteAt desc 1
    if 30 ≤ d then (some (badField 0x81), s)
    else if s.domainRefused d then (some refusedState, s)
    else (some okCpl, ((s.domainUp d).setFld ⟨Reg.BLW_DOM_FAULT, d, 1⟩ 0).judgeScanPower))

/-! ## Loss of VIN (R347, R359 to R365, R585) -/

/-- The warning of a module in DARK: the store carries it, and nothing else happens (R365). -/
def State.darkWarning (s : State) : State :=
  ((s.modBlw fun b => { b with openSwitch := true, darkWarn := true }).lower F.BLW_STATUS_vin_ok).bump 11 0

/-- What Tongs does at the warning: an active module starts the hand-off of R286; for any other, condition 4 fails at once. -/
def State.warnTongs (s : State) : State :=
  if s.isActive then (if s.twn.handOut.isSome then s else s.startHandoff none true false)
  else (s.modTwn fun t => { t with pfFail := true }).judgeHealth

/-- The warning (R360): the input switch opens, the Recorder flushes with the Meter's accumulators, the RTC locks (R425), and
Tongs is told. -/
def State.powerFailWarning (s : State) : State :=
  if !s.powered 1 || s.blw.openSwitch then s
  else if s.fld F.BLW_STATUS_state = 0 ∧ !s.flag F.BLW_STATUS_busy then s.darkWarning
  else
    let s := (s.cutTransition.modBlw fun b => { b with openSwitch := true }).lower F.BLW_STATUS_vin_ok
    let s := (((s.raise F.BLW_STATUS_pf_warn).raise F.BLW_INT_STAT_pf_warn).bump 11 0).raise F.RTC_STATUS_locked
    let s := s.faultEntry 0x0208 23 (natLE 2 (s.fld F.BLW_MON_vin) ++ natLE 2 (s.fld F.BLW_STORE_mv) ++ natLE 1 s.role)
    s.judgeDisc.meterSave.pfFlushBegin.warnTongs

/-- POWER_FAIL_WARNING (R360, R365). -/
def execPowerFailWarning (s : State) : Result := done s.powerFailWarning

/-- SEATED_LOST (R585): VIN is treated as absent from now on. -/
def execSeatedLost (s : State) : Result := done (s.modBlw fun b => { b with unseated := true }).powerFailWarning

/-- PF_COMMIT (R361): a module without ownership powers off what the end of hold-up does not need. -/
def execPfCommit (s : State) : Result :=
  if s.flag F.BLW_STATUS_pf_warn && !s.flag F.BLW_STATUS_committed then
    let s := (s.raise F.BLW_STATUS_committed).pfFlushCommit
    if s.owns then done s else done (s.keepOnly [0, 1, 4, 11, 25, 26])
  else done s

/-- The end of hold-up after a warning outside DARK (R362, R363): an owner quenches and lets go; then only PD00 keeps its power,
or a module whose VIN has returned starts again. -/
def State.holdupEnd (s : State) : State :=
  let s := if s.owns then (s.modTwn fun t => { t with pfFail := true }).moduleQuench 3 else s
  let s := s.judgeHealth
  if s.blw.vinBack && !s.blw.unseated then s.restart (2 ^ 4) 0 else s.allDown.backupOnly

/-- HOLDUP_END (R362, R363, R365): the hold-up store is at its end threshold; with VIN back after the commit it stands for 12.0 ms after
the warning too, whichever comes first. -/
def execHoldupEnd (s : State) : Result :=
  if !s.blw.openSwitch then done s
  else if s.blw.darkWarn then done s.allDown.backupOnly
  else done s.holdupEnd

/-- A warning that arose in DARK is withdrawn (R365). -/
def State.darkRecovery (s : State) : State :=
  let s := s.modBlw fun b => { b with openSwitch := false, darkWarn := false }
  ((s.raise F.BLW_INT_STAT_pf_recovered).bump 11 1).wake 6

/-- A warning is withdrawn before its commit (R363, R425, R572). -/
def State.withdrawWarning (s : State) : State :=
  let s := (s.modBlw fun b => { b with openSwitch := false }).lower F.BLW_STATUS_pf_warn
  let s := ((s.raise F.BLW_INT_STAT_pf_recovered).bump 11 1).lower F.RTC_STATUS_locked
  (s.modTwn fun t => { t with pfFail := false }).judgeHealth.pfFlushWithdraw

/-- VIN_RESTORED (R363, R365, R585): VIN has been at 2,700 mV or more for 1 ms with the module seated. After the commit the restart
waits for the end of hold-up. -/
def execVinRestored (s : State) : Result :=
  if !s.powered 1 then done s
  else
    let s := (s.modBlw fun b => { b with unseated := false }).raise F.BLW_STATUS_vin_ok
    if s.blw.darkWarn then done s.darkRecovery
    else if s.flag F.BLW_STATUS_committed then done (s.modBlw fun b => { b with vinBack := true })
    else if s.flag F.BLW_STATUS_pf_warn then done s.withdrawWarning
    else done s

/-- VIN_OVERVOLTAGE (R347): VIN has risen to `mv`. Above 6,000 mV the input protection disconnects it, as a loss of VIN; beyond the
limit of R593 no rule says what the module does. -/
def execVinOvervoltage (mv : Nat) (s : State) : Result :=
  if 16000 < mv then .fault (.outsideOperatingRange "VIN above +16.0 V")
  else if mv ≤ 5500 ∨ !s.powered 1 then done s
  else
    let s := ((s.setFld F.BLW_MON_vin mv).raise F.BLW_INT_STAT_vin_ov).lower F.BLW_STATUS_vin_ok
    if 6000 < mv then done s.powerFailWarning else done s

/-- VBAT_LOW (R348). -/
def execVbatLow (s : State) : Result :=
  if s.powered 1 then done ((s.raise F.BLW_INT_STAT_vbat_low).raise F.BLW_STATUS_vbat_low) else done s

/-! ## Heat (R370, R371) -/

/-- THERMAL_WARNING (R370, R569). -/
def execThermalWarning (s : State) : Result :=
  if s.powered 1 then done ((s.raise F.BLW_INT_STAT_therm_warn).raise F.BLW_STATUS_therm_hot).flushSoon else done s

/-- THERMAL_SHUTDOWN (R358, R370): the transition under way ends, and qs_module is asserted. -/
def execThermalShutdown (s : State) : Result :=
  if s.powered 1 then done ((s.cutTransition.modBlw fun b => { b with thermal := true }).moduleQuench 0) else done s

/-- THERMAL_POWER_OFF (R370). -/
def execThermalPowerOff (s : State) : Result :=
  if s.blw.thermal then
    let s := (s.bump 11 2).keepOnly [0, 1, 2]
    let s := (s.modScn fun _ => {}).modBlw fun b => { b with thermal := false, hotOff := true, todo := [] }
    done ((s.setFld F.BLW_STATUS_state 0).setFld F.BLW_STATUS_target 0)
  else done s

/-- Thermal restart (R356, R371): wake source 7 by which the module starts again. -/
def State.thermalRestart (s : State) : State :=
  if s.blw.hotOff && s.flag F.BLW_THERM_CFG_auto_restart then
    let s := if (s.regN Reg.BLW_WAKE_EN).testBit 7 then
      ((s.setFld ⟨Reg.BLW_WAKE_CAUSE, 7, 1⟩ 1).raise F.BLW_WAKE_CAUSE_prev_dark).bump 11 3 else s
    s.restart (2 ^ 2) 0
  else s

/-- THERMAL_RESTART (R371): sensor 0 has read below restart_c for 10 s. -/
def execThermalRestart (s : State) : Result := done s.thermalRestart

/-! ## Waking (R356, R357) -/

/-- A pending vector with wake at 1 asks for its agent's domain: in DARK it wakes the module; an application core that is not
powered is left to the real-time pair (R310, R357). -/
def State.vectorWake (s : State) : State :=
  if s.wakeAgents.isEmpty && s.fld F.BLW_STATUS_state != 0 then s
  else
    let s' := if s.wakeAgents.any (· < 4) then s.raise F.BLW_INT_STAT_core_wake else s
    s'.wake 8

/-- WAKE_REQUEST (R356): source `n` fires. -/
def execWakeRequest (n : Nat) (s : State) : Result :=
  if !s.powered 1 then done s
  else if n = 7 then done s.thermalRestart
  else if n = 8 then done s.vectorWake
  else if n < 10 then done (s.wake n)
  else done s

end Sys2Proof.Machine
end

