-- ==== Sys2Proof/Machine/Clocks.lean ====
section
/-! DEFINITION. Oscillators and PLLs (R395 to R403). -/

namespace Sys2Proof.Machine

/-! ## The reference PLL (R397 to R400) -/

/-- The external input is qualified (R70). -/
def State.extGood (s : State) : Bool := 2 ≤ s.fld F.TMK_REFSEL_STATUS_ext_state

/-- The input that the reference PLL is to take: the one that osc_src prefers while it is qualified, else the other one
(R397, R398); none when both are lost. -/
def State.refTarget (s : State) : Option Nat :=
  if s.fld F.TMK_CFG_osc_src = 1 ∧ s.extGood then some 1
  else if s.flag F.TMK_CLK_STATUS_tcxo_ok then some 0
  else if s.extGood then some 1
  else none

/-- The reference PLL enters hold (R398). -/
def State.refHold (s : State) : State :=
  let s := ((s.raise F.TMK_CLK_STATUS_ref_hold).raise F.TMK_CLK_INT_STAT_ref_hold).incFld F.TMK_CLK_CNT_hold_entries
  ((s.setFld F.TMK_CLK_STATUS_ref_input 2).lower F.TMK_CLK_STATUS_ref_locked).showStatus.timeInput

/-- The TCXO is lost: it no longer counts as running. -/
def State.tcxoLost (s : State) : State :=
  if s.flag F.TMK_CLK_STATUS_tcxo_ok then ((s.lower F.TMK_CLK_STATUS_tcxo_ok).raise F.TMK_CLK_INT_STAT_tcxo_lost).showTcxo else s

/-- The external input is lost: it is absent, and qualifies anew. -/
def State.extLost (s : State) : State :=
  let was := s.flag F.TMK_CLK_STATUS_ext_present
  let s := (s.setFld F.TMK_REFSEL_STATUS_ext_state 0).lower F.TMK_CLK_STATUS_ext_present
  if was then s.raise F.TMK_CLK_INT_STAT_ext_lost else s

/-- The input that the reference PLL runs on is gone. -/
def State.refInputGone (s : State) : Bool :=
  match s.fld F.TMK_CLK_STATUS_ref_input with
  | 0 => !s.flag F.TMK_CLK_STATUS_tcxo_ok
  | 1 => !s.extGood
  | _ => false

/-- REF_INPUT_LOST (R398, R400): the inputs named are lost. With the other input qualified the PLL changes to it, which
OSC_SWITCH_DONE completes; otherwise it enters hold. -/
def execRefInputLost (tcxo ext : Bool) (s : State) : Result :=
  if !s.powered 26 then done s
  else
    let s := if tcxo then s.tcxoLost else s
    let s := if ext then s.extLost else s
    if s.refInputGone ∧ s.refTarget.isNone then done s.refHold else done s

/-- TCXO_REQUALIFIED (R399). While the reference PLL still changes away from it, it requalifies from the start. -/
def execTcxoRequalified (s : State) : Result :=
  if s.powered 26 && !s.flag F.TMK_CLK_STATUS_tcxo_ok && s.fld F.TMK_CLK_STATUS_ref_input != 0 then
    done ((s.raise F.TMK_CLK_STATUS_tcxo_ok).raise F.TMK_CLK_INT_STAT_tcxo_back).showTcxo
  else done s

/-- The reference PLL runs on input `n`, and leaves hold if it was there; the time PLL then has its input back (R399, R401). -/
def State.refTake (s : State) (n : Nat) : State :=
  let held := s.flag F.TMK_CLK_STATUS_ref_hold
  let s := ((s.setFld F.TMK_CLK_STATUS_ref_input n).lower F.TMK_CLK_STATUS_ref_hold).raise F.TMK_CLK_STATUS_ref_locked
  let s := (s.raise F.TMK_CLK_INT_STAT_ref_switch).incFld F.TMK_CLK_CNT_ref_switches
  let s := if n = 1 then s.setFld F.TMK_REFSEL_STATUS_ext_state 3
    else if s.extGood then s.setFld F.TMK_REFSEL_STATUS_ext_state 2 else s
  let s := if held then s.raise F.TMK_CLK_STATUS_time_locked else s
  s.showStatus.judgeHealth

/-- OSC_SWITCH_DONE (R397): a change of input is complete. -/
def execOscSwitchDone (s : State) : Result :=
  match s.refTarget with
  | some n => if s.powered 26 ∧ s.fld F.TMK_CLK_STATUS_ref_input ≠ n then done (s.refTake n) else done s
  | none => done s

/-! ## Loss of lock (R401, R402) -/

/-- PLL_UNLOCK (R401): 0 the core PLL, unlocked for 10 µs; 1 the Anvil PLL; 2 the time PLL; 3 the DRAM PLL. -/
def execPllUnlock (pll : Nat) (s : State) : Result :=
  if !s.powered 26 then done s
  else match pll with
    | 0 => done (s.domainFault 26)
    | 1 => done (((s.lower F.TMK_CLK_STATUS_anvil_locked).raise F.TMK_CLK_INT_STAT_anvil_unlock).moduleQuench 1)
    | 2 => done s.timeUnlock
    | 3 => if s.powered 12 then done (s.domainFault 12) else done s
    | _ => done s

/-- ANVIL_PLL_RELOCKED (R401): locked for 1 ms without a break. -/
def execAnvilPllRelocked (s : State) : Result :=
  if s.powered 26 then done ((s.raise F.TMK_CLK_STATUS_anvil_locked).moduleRelease 1) else done s

/-- TIME_PLL_RELOCKED (R401): it has no lock to find while its input is in hold. -/
def execTimePllRelocked (s : State) : Result :=
  if s.powered 26 && !(s.flag F.TMK_CLK_STATUS_ref_hold && !s.synceOn) then
    done (s.raise F.TMK_CLK_STATUS_time_locked).judgeHealth
  else done s

/-- SYNCE_LOST (R402): the time PLL changes to the reference PLL. -/
def execSynceLost (s : State) : Result :=
  if s.synceOn then
    done ((s.modTmk fun t => { t with synceLost := true }).raise F.TMK_CLK_INT_STAT_synce_lost).showStatus.timeInput
  else done s

/-! ## The crystal (R403) -/

/-- CRYSTAL_LOST (R403): PD01 runs on the RC oscillator. -/
def execCrystalLost (s : State) : Result :=
  if s.powered 1 then done ((s.raise F.BLW_LF_CLK_on_rc).raise F.BLW_LF_CLK_lost) else done s

/-- CRYSTAL_RESTORED (R403). -/
def execCrystalRestored (s : State) : Result := if s.powered 1 then done (s.lower F.BLW_LF_CLK_on_rc) else done s

end Sys2Proof.Machine
end

