-- ==== Sys2Proof/Machine/PtpSend.lean ====
section
/-! DEFINITION. The PTP messages that the Timekeeper sends (R44, R45, R118, R119): Sync, Follow_Up, Delay_Req, Delay_Resp and Announce,
with their share of the port's counters and of its MACsec. -/

namespace Sys2Proof.Machine

/-- The bytes of a message from the destination address to the last before the FCS: an Ethernet header, the headers of its transport
and the message of IEEE 1588, padded to 60 (assumption 91). -/
def ptpLength (transport type : Nat) : Nat :=
  let head := match transport with | 0 => 42 | 1 => 64 | _ => 14
  max 60 (head + (match type with | 9 => 54 | 11 => 64 | _ => 44))

/-- Messages of this transport go without protection: only the EtherType 0x88F7 does, and only with ptp_bypass (R118). -/
def State.ptpClear (s : State) (p transport : Nat) : Bool :=
  !s.macsecOn p || (transport == 2 && s.macsecBypass p 0x88F7)

/-- A message of the Timekeeper leaves port `p` (R44, R45): to a multicast address, counted as sent (R115), and protected where the
port protects it; with no SA to protect it, it is not sent (R118, R122). -/
def State.ptpEmit (s : State) (p profile type seq : Nat) (content : List Int) : State :=
  let transport := s.fld F.TMK_PTP_CFG_transport
  let count (s : State) (n : Nat) : State := ((s.bump 3 19 p (n + 4)).bump 3 20 p).bump 3 21 p
  if s.ptpClear p transport then
    (count s (ptpLength transport type)).emit (.ptp p { transport := transport, profile := profile } type seq content)
  else match s.takePn p with
    | (none, s) => s
    | (some (an, a), s) =>
      (count s (ptpLength transport type + 32)).emit
        (.ptp p { transport := transport, profile := profile, secured := some (an, a.next) } type seq content)

/-- DELAY_REQ (R44, R45): a master port answers with Delay_Resp, which carries the corrected stamp and the request's correction
field. -/
def execDelayReq (p : Nat) (m : PtpMsg) (stamp : Nat) (s : State) : Result :=
  done (s.ptpTake p m.domain fun s =>
    if s.masterPort p && m.domain == s.fld (F.TMK_PORT_CFG_m_domain p) then
      let t4 := s.ingressStamp p stamp
      (s.reach t4).ptpEmit p (s.fld (F.TMK_PORT_CFG_m_profile p)) 9 m.seq [(m.domain : Int), (t4 : Int), m.corr]
    else s)

/-! ## Messages sent (R44, R45, R119) -/

/-- Sync goes one-step: one_step is set and MACsec does not forbid it (R45, R119). -/
def State.oneStep (s : State) (p : Nat) : Bool :=
  s.flag (F.TMK_PORT_CFG_one_step p) && !(s.flag (F.NET_PORT_CFG_macsec_en p) && !s.flag (F.NET_PORT_CFG_ptp_bypass p))

/-- PTP_SYNC_SEND: Sync and, when two-step, Follow_Up, with the corrected egress stamp as the origin time (R45, R49). -/
def execPtpSyncSend (p stamp : Nat) (s : State) : Result :=
  if !(p < 3 && s.tmkEnabled && s.masterPort p && s.stamping p) then done s
  else
    let n := (s.tport p).syncSeq
    let t := s.egressStamp p stamp
    let d : Int := s.fld (F.TMK_PORT_CFG_m_domain p)
    let g := s.sfld (F.TMK_PORT_CFG_m_log_sync p)
    let s := (s.reach t).modTport p fun x => { x with syncSeq := (n + 1) % 65536 }
    let v := s.fld (F.TMK_PORT_CFG_m_profile p)
    if s.oneStep p then done (s.ptpEmit p v 0 n [d, g, 0, (t : Int)])
    else done ((s.ptpEmit p v 0 n [d, g, 1]).ptpEmit p v 8 n [d, g, (t : Int)])

/-- PTP_ANNOUNCE_SEND: the dataset of the selected reference one hop on, or the module's own (R44, R47; assumption 16). -/
def execPtpAnnounceSend (p : Nat) (s : State) : Result :=
  if !(p < 3 && s.tmkEnabled && s.masterPort p && s.netLink p) then done s
  else
    let n := (s.tport p).annSeq
    let head : List Int := [(s.fld (F.TMK_PORT_CFG_m_domain p) : Int), s.sfld (F.TMK_PORT_CFG_m_log_announce p)]
    let prio : Int := s.fld F.TMK_PTP_CFG_priority1
    let body : List Int := match s.tmk.sel.bind fun q => if s.ownBetter q then none else (s.tport q).ann with
      | some a => [(a.steps + 1 : Nat), prio, a.cls, a.accuracy, a.variance, a.prio2, a.identity]
      | none => (0 : Int) :: s.ownDataset.map Int.ofNat
    done ((s.modTport p fun x => { x with annSeq := (n + 1) % 65536 }).ptpEmit p (s.fld (F.TMK_PORT_CFG_m_profile p)) 11 n (head ++ body))

/-- PTP_DELAY_REQ_SEND: a slave-capable port sends Delay_Req and keeps the raw stamp of t3 (R49, R55, R56). -/
def execPtpDelayReqSend (p stamp : Nat) (s : State) : Result :=
  if !(p < 3 && s.tmkEnabled && s.slaveCapable p && s.stamping p) then done s
  else
    let n := (s.tport p).reqSeq
    let t3 := s.egressStamp p stamp
    let s := (s.reach t3).modTport p fun x => { x with reqSeq := (n + 1) % 65536, req := some (n, stamp) }
    done (s.ptpEmit p (s.fld F.TMK_PTP_CFG_profile) 1 n [(s.fld F.TMK_PTP_CFG_domain : Int)])

end Sys2Proof.Machine
end

