-- ==== Sys2Proof/Machine/RegAccess.lean ====
section
/-! DEFINITION. Accesses to the setup window (R7 to R15): a write of any register, with its access codes and what its rules make
of it, and a read of any register, with the snapshots of live values. -/

namespace Sys2Proof.Machine

/-! ## Writes (R7 to R12) -/

/-- What the access codes of row `d` make of the word `w` (R10). -/
def accessWord (d : RegDesc) (old w : Nat) : Nat := (old &&& (0xFFFFFFFF ^^^ (d.rw ||| (d.wc &&& w)))) ||| (w &&& (d.rw ||| d.ws))

/-- A write of one that meets a hardware set of the same wc field is counted in the companion register (R11, R12). -/
def State.countSdc (s : State) (d : RegDesc) (a : Nat) : State :=
  match d.sdc with
  | some c => s.setReg (c + (a - d.addr)) (BitVec.ofNat 32 (satU 16 (s.regN (c + (a - d.addr)) + 1)))
  | none => s

/-- A write by its access codes alone; `meet` holds the wc bits that hardware sets in the same cycle: there the set wins (R11). -/
def State.plainWrite (s : State) (d : RegDesc) (a : Nat) (w meet : Nat) : State :=
  let met := meet &&& w &&& d.wc
  let s := s.setReg a (BitVec.ofNat 32 (accessWord d (s.regN a) w ||| met))
  if met = 0 then s else s.countSdc d a

/-- The ring context registers of ring `n`, at `off` within them (R294, R299). -/
def State.ringWrite (s : State) (d : RegDesc) (a : Nat) (w : Word) : State :=
  let n := (a - 0x1000) / 0x40
  if a = Reg.HRT_RING_CFG n then s.ringCfgWrite n w
  else if a = Reg.HRT_RING_CPL_TAIL n then s.cplTailWrite n w
  else s.plainWrite d a w.toNat 0

/-- The mailbox registers of queue q (R312 to R317). -/
def State.mbxWrite (s : State) (ini : Nat) (d : RegDesc) (a : Nat) (w : Word) : State :=
  let q := (a - 0x6000) / 0x40
  if a = Reg.HRT_MBX_WDATA_LO q then s.mbxLo ini w
  else if a = Reg.HRT_MBX_WDATA_HI q then s.mbxHi ini q w
  else if a = Reg.HRT_MBX_CTRL q then s.mbxCtrl ini q w
  else
    let was := s.mbxOn q
    let s := s.plainWrite d a w.toNat 0
    if was && !s.mbxOn q then s.mbxDisable q else s

/-- HRT. -/
def State.hrtWrite (s : State) (ini : Nat) (d : RegDesc) (a : Nat) (w : Word) (meet : Nat) : State :=
  if a = Reg.HRT_SWI_SET then s.swiSet w
  else if 0x100 ≤ a ∧ a < 0x150 ∧ a % 16 = 4 then s.irqEoi ((a - 0x100) / 16) w
  else if 0x1000 ≤ a ∧ a < 0x5000 then s.ringWrite d a w
  else if 0x6000 ≤ a ∧ a < 0x6400 then s.mbxWrite ini d a w
  else s.plainWrite d a w.toNat meet

/-- MEM and FWL (R343 to R345). -/
def State.memWrite (s : State) (ini : Nat) (d : RegDesc) (a : Nat) (w : Word) (meet : Nat) : State :=
  let table := a = Reg.FWL_DEFAULT_R ∨ a = Reg.FWL_DEFAULT_W ∨ (0x108400 ≤ a ∧ a < 0x108800)
  if a = Reg.FWL_COMMIT then s.fwlCommitWrite ini w
  else if a = Reg.FWL_CFG then s.fwlLock ini w
  else if table ∧ s.fwlLocked ini then s.deny ini (0x300000000 + a) 74 true
  else s.plainWrite d a w.toNat meet

/-- The register at `a` is a latency or asymmetry of the reference that is followed, and no longer holds `was`: what it changes of the
offset is slewed away (R56, R81). -/
def State.latencyChanged (s : State) (a : Nat) (was : Word) : Bool :=
  Reg.TMK_CAL_ING 0 ≤ a && a ≤ Reg.TMK_CAL_ASYM 2 && s.tmk.sel == some ((a - Reg.TMK_CAL_ING 0) / 0x10) && s.reg a != was

/-- TMK: the selection looks again at what a write may have changed (R64 to R67). -/
def State.tmkWrite (s : State) (d : RegDesc) (a : Nat) (w : Word) (meet : Nat) : State :=
  if a = Reg.TMK_CFG then s.tmkCfgWrite w
  else if a = Reg.TMK_TSQ_POP then s.tsqPop w
  else
    let was := s.reg a
    let s := s.plainWrite d a w.toNat meet
    let s := if s.latencyChanged a was then s.modPll fun l => { l with noStep := true } else s
    if a = Reg.TMK_PTP_CFG ∨ a = Reg.TMK_REFSEL_CFG ∨ (Reg.TMK_PORT_CFG 0 ≤ a ∧ a ≤ Reg.TMK_PORT_CFG 2) then s.reassess.judgeSync else s

/-- RTC: every write is discarded while the interface is locked (R425). -/
def State.rtcRegWrite (s : State) (d : RegDesc) (a : Nat) (w : Word) (meet : Nat) : State :=
  if a = Reg.RTC_ADJ_CTRL then s.adjCtrlWrite w
  else if a = Reg.RTC_ALARM_W2 0 then s.alarmArm 0 w
  else if a = Reg.RTC_ALARM_W2 1 then s.alarmArm 1 w
  else if a = Reg.RTC_LEAP_LO then s.leapWrite false w
  else if a = Reg.RTC_LEAP_HI then s.leapWrite true w
  else s.rtcWrite fun s =>
    if a = Reg.RTC_TRIM ∧ s.discActive then s.raise F.RTC_INT_STAT_adj_refused
    else (s.plainWrite d a w.toNat meet).judgeDisc

/-- NET_PORT_CFG of port `p` has been written (R84, R86): a port that is disabled, or whose RS-FEC has not locked since it was switched
on, has no link, and a lock goes with the FEC. -/
def State.portCfgWrite (s : State) (d : RegDesc) (p : Nat) (w : Nat) : State :=
  let max := s.maxFrame p
  let fec := s.flag (F.NET_PORT_CFG_fec_en p)
  let s := (s.plainWrite d (Reg.NET_PORT_CFG p) w 0).maxChanged p max
  let s := if fec && !s.flag (F.NET_PORT_CFG_fec_en p) then s.lower ⟨Reg.NET_PORT_STATUS, 4 * p + 1, 1⟩ else s
  if s.flag (F.NET_PORT_CFG_enable p) && (fec || !s.flag (F.NET_PORT_CFG_fec_en p)) then s else s.portLinkLost p

/-- NET (R84, R113, R117, R122, R591): fec_en and macsec_en of M0 ignore writes. -/
def State.netWrite (s : State) (d : RegDesc) (a : Nat) (w : Word) (meet : Nat) : State :=
  if a = Reg.NET_CAGE 0 then s.cageWrite 0 w
  else if a = Reg.NET_CAGE 1 then s.cageWrite 1 w
  else if a = Reg.NET_CAGE_MGMT 0 then s.cageMgmtWrite 0 w
  else if a = Reg.NET_CAGE_MGMT 1 then s.cageMgmtWrite 1 w
  else if a = Reg.NET_PORT_CFG 2 then
    s.portCfgWrite d 2 (w.toNat &&& 0xFFFFFFAF)
  else if a = Reg.NET_PORT_CFG 0 ∨ a = Reg.NET_PORT_CFG 1 then s.portCfgWrite d ((a - Reg.NET_PORT_CFG 0) / 4) w.toNat
  else if a = Reg.NET_MACSEC_PN_THRESH 0 ∨ a = Reg.NET_MACSEC_PN_THRESH 1 then
    (s.plainWrite d a w.toNat meet).pnCheck ((a - Reg.NET_MACSEC_PN_THRESH 0) / 4)
  else if Reg.NET_TXQ_CFG 0 0 ≤ a ∧ a ≤ Reg.NET_TXQ_HI 2 7 then
    (s.txAdvance ((a - Reg.NET_TXQ_CFG 0 0) / 0x20 % 4) s.wall).plainWrite d a w.toNat 0
  else s.plainWrite d a w.toNat meet

/-- TWN: enable chooses between SINGLE and an election; with wdog_ms at 0 there is no watchdog (R263, R265). -/
def State.twnWrite (s : State) (d : RegDesc) (a : Nat) (w : Word) (meet : Nat) : State :=
  if a = Reg.TWN_WDOG then s.kick w
  else if a = Reg.TWN_CFG then
    let was := s.fld F.TWN_CFG_enable
    let s := s.plainWrite d a w.toNat 0
    let s := if s.fld F.TWN_CFG_enable = was then s else s.setRole (s.fld F.TWN_CFG_enable)
    if s.fld F.TWN_CFG_wdog_ms = 0 then (s.modTwn fun t => { t with wdogOut := false }).judgeHealth else s
  else s.plainWrite d a w.toNat meet

/-- CAB (R485 to R488, R501, R503). -/
def State.cabWrite (s : State) (d : RegDesc) (a : Nat) (w : Word) (meet : Nat) : State :=
  let n := a % 0x100000 / 0x80
  if 2 ≤ n then s.plainWrite d a w.toNat meet
  else if a = Reg.CAB_CFG n then s.cabCfgWrite n w
  else if a = Reg.CAB_NBT n then s.cabTimingWrite n false w
  else if a = Reg.CAB_DBT n then s.cabTimingWrite n true w
  else if a = Reg.CAB_CTRL n then
    let s := if w.getLsbD 0 then s.canRecover n else s
    let s := if w.getLsbD 1 then s.canSleep n else s
    if w.getLsbD 2 then s.canWakeUp n else s
  else s.plainWrite d a w.toNat meet

/-- REC and PMC: a change of the seal or clear slot is a protected change (R564, R568). -/
def State.recWrite (s : State) (ini : Nat) (d : RegDesc) (a : Nat) (w : Word) (meet : Nat) : State :=
  if a = Reg.PMC_CTRL then s.pmcCtrl w
  else if a = Reg.REC_CFG ∧ !(s.keeps F.REC_CFG_seal_slot w && s.keeps F.REC_CFG_clear_slot w) then
    if s.auditRoom then
      (s.plainWrite d a w.toNat 0).audit 0x010E ini
        [BitVec.ofNat 8 (fieldOf F.REC_CFG_seal_slot w), BitVec.ofNat 8 (fieldOf F.REC_CFG_clear_slot w)]
    else s.auditWait
  else s.plainWrite d a w.toNat meet

/-- The blocks of which one register has a rule of its own. -/
def State.otherWrite (s : State) (ini : Nat) (d : RegDesc) (a : Nat) (w : Word) (meet : Nat) : State :=
  if a = Reg.BLW_STATE_REQ then s.stateRequest (fieldOf F.BLW_STATE_REQ_state w)
  else if a = Reg.BOOT_RESET then s.bootReset w
  else if a = Reg.ANV_SLACK_RESET then s.slackReset w
  else if a = Reg.MTR_CAL_APPLY then s.calApply ini w
  else if a = Reg.RAD_CTRL then s.radCtrlWrite w
  else if a = Reg.RAD_JOIN then (s.plainWrite d a w.toNat meet).showJoinOpen
  else if a = Reg.RAD_RPT_CFG ∨ a = Reg.RAD_RPT_TAIL then (s.plainWrite d a w.toNat meet).radFlush
  else if a = Reg.KEY_CFG then s.keyCfgWrite ini w
  else if a = Reg.DBL_RING then s.dblWrite ini w
  else s.plainWrite d a w.toNat meet

/-- A write that is not discarded, by the block of its register. -/
def State.blockWrite (s : State) (ini : Nat) (d : RegDesc) (a : Nat) (w : Word) (meet : Nat) : State :=
  match a / 0x100000 with
  | 0 => s.hrtWrite ini d a w meet
  | 1 => s.memWrite ini d a w meet
  | 4 => if a < 0x480000 then s.tmkWrite d a w meet else s.rtcRegWrite d a w meet
  | 5 => s.netWrite d a w meet
  | 8 => s.twnWrite d a w meet
  | 11 => s.cabWrite d a w meet
  | 14 => s.recWrite ini d a w meet
  | _ => s.otherWrite ini d a w meet

/-- The interface of the register takes no write: RTC while it is locked (R425). -/
def State.locksOut (s : State) (a : Nat) : Bool := blockDomains a == [0] && a < 0x500000 && s.flag F.RTC_STATUS_locked

/-- A write of the register at `a`: an offset with none ignores it (R8), and one that its rules discard has no effect but the
block's cfg_refused. -/
def State.registerWrite (s : State) (ini a : Nat) (w : Word) (meet : Nat) : State :=
  match Reg.find a with
  | none => s
  | some d => if !s.locksOut a && s.writeBad a w then s.writeDiscarded a else s.blockWrite ini d a w meet

/-- The access lies in the setup window, aligned to 4 bytes; otherwise it has no effect and is answered with a bus error, and
an address beyond the window is a hole (R7, R321). -/
def State.windowAccess (s : State) (ini a : Nat) (write : Bool) (k : State → State) : State :=
  if 0x1000000 ≤ a then (s.deny ini (0x300000000 + a) 73 write).answerWith .busError
  else if !s.mayUseSetup ini then (s.deny ini (0x300000000 + a) 73 write).answerWith .busError
  else if a % 4 ≠ 0 then s.answerWith .busError
  else s.setupAccess ini a write k

/-- REGISTER_WRITE (R10): a write by initiator `ini`; `meet` names the wc flags that hardware sets in the same cycle (R11). -/
def execRegisterWrite (ini addr : Nat) (w : Word) (meet : Nat) (s : State) : Result :=
  done (s.windowAccess ini addr true fun s => s.registerWrite ini addr w meet)

/-- UNALIGNED_ACCESS (R7): an access of another size than 4 bytes, or one that is not aligned. -/
def execUnalignedAccess (ini addr size : Nat) (write : Bool) (s : State) : Result :=
  if size = 4 ∧ addr % 4 = 0 then done s
  else if s.mayUseSetup ini ∧ addr < 0x1000000 then done (s.answerWith .busError)
  else done ((s.deny ini (0x300000000 + addr) 73 write).answerWith .busError)

/-! ## Reads (R8, R10, R13 to R15) -/

/-- The counters: where a table of them begins, how many it has, how far apart its instances lie and how many there are. -/
def counterTables : List (Nat × Nat × Nat × Nat) :=
  [(0x007000, 9, 0x100, 1), (0x109000, 17, 0x100, 1), (0x201000, 38, 0x200, 1), (0x501000, 32, 0x100, 3), (0x501300, 20, 0x100, 1),
   (0x601000, 8, 0x40, 16), (0x601400, 14, 0x100, 1), (0x601800, 6, 0x100, 1), (0x601C00, 9, 0x100, 1), (0x702000, 15, 0x100, 64),
   (0x801000, 15, 0x100, 1), (0x902000, 21, 0x100, 1), (0xA01000, 16, 0x100, 1), (0xB02000, 13, 0x100, 2), (0xC01000, 9, 0x100, 1),
   (0xD01000, 7, 0x100, 1), (0xE01000, 9, 0x100, 1), (0xE08200, 64, 0x200, 1)]

/-- `a` lies in one of the two words of a counter. -/
def isCounter (a : Nat) : Bool :=
  counterTables.any fun t => t.1 ≤ a && (a - t.1) / t.2.2.1 < t.2.2.2 && (a - t.1) % t.2.2.1 / 8 < t.2.1

/-- The live values of several words: the first address and the number of words (R13, R15). -/
def wideAt (a : Nat) : Option (Nat × Nat) :=
  if isCounter a then some (a / 8 * 8, 2)
  else if a / 16 = 0x400020 / 16 ∨ a / 16 = 0x400180 / 16 ∨ a / 16 = 0x800040 / 16 then some (a / 16 * 16, 4)
  else if a / 8 = Reg.ANV_GRID_INDEX_LO / 8 ∨ a / 8 = Reg.TWN_DIGEST_LO / 8 ∨ a / 8 = Reg.TWN_PEER_DIGEST_LO / 8 ∨
    a / 8 = Reg.REC_SEQ_LO / 8 then some (a / 8 * 8, 2)
  else if 0x901000 ≤ a ∧ a < 0x9011C0 ∧ a % 16 < 12 then some (a / 16 * 16, 3)
  else none

/-- Words as one number, the first lowest. -/
def joinWords (l : List Nat) : Nat := l.foldr (fun w v => w % 2 ^ 32 + 2 ^ 32 * v) 0

/-- The live value that begins at `b`. -/
def State.wideValue (s : State) (b : Nat) : Nat :=
  if isCounter b then s.count b
  else if b = 0x400020 then joinWords (wallWords s.wrap s.wall)
  else if b = 0x400180 then joinWords s.tsqHead
  else if b = 0x800040 then joinWords ((List.range 4).map fun i => s.regN (b + 4 * i))
  else if b = Reg.TWN_DIGEST_LO then s.digest
  else if 0x901000 ≤ b ∧ b < 0x9011C0 then (nth s.mtr.acc ((b - 0x901000) / 16) 0)
  else joinWords [s.regN b, s.regN (b + 4)]

/-- Word `i` above the lowest of the value that initiator `ini` last read in the block of `a` (R14). -/
def State.heldWord (s : State) (ini a i : Nat) : Word := nth (s.holder ini (blockOf a)) (i - 1) 0

/-- HRT_MBX_STATUS of queue `q`. -/
def State.mbxStatus (s : State) (q : Nat) : Nat :=
  let m := s.mailbox q
  m.rdPtr % 1024 + m.wrPtr % 1024 * 2 ^ 10 + 2 ^ 20 * m.words.length + 2 ^ 30 * b2n m.dropping + 2 ^ 31 * b2n m.held.isSome

/-- What a read of a register returns that the module computes when it is read. -/
def State.derived (s : State) (a : Nat) : Option Nat :=
  match a / 0x100000 with
  | 0 =>
    if a = Reg.HRT_STATUS then some (flagWord (fun c => c < 5 && s.agentOn c) + s.fld F.HRT_STATUS_rt_reset * 2 ^ 5)
    else if a = Reg.HRT_SWI_SET then some (s.regN Reg.HRT_SWI_STAT)
    else if 0x800 ≤ a ∧ a < 0x820 then some (flagWord fun b => s.vectorPending (8 * (a - 0x800) + b))
    else if 0x820 ≤ a ∧ a < 0x840 then some (flagWord fun b => s.coalesced (8 * (a - 0x820) + b))
    else if 0x1000 ≤ a ∧ a < 0x5000 ∧ !ringAssigned ((a - 0x1000) / 0x40) then some 0
    else if 0x6000 ≤ a ∧ a < 0x6400 ∧ a % 0x40 = 4 then some (s.mbxStatus ((a - 0x6000) / 0x40))
    else none
  | 3 => if Reg.BOOT_FUSE 0 ≤ a ∧ a < Reg.BOOT_FUSE 1024 then
      some (let w := (a - Reg.BOOT_FUSE 0) / 4
            if 192 ≤ w ∧ w ≤ 207 then 0 else leNat (s.fuseBytes (4 * w) 4)) else none
  | 4 =>
    if a = Reg.TMK_HOLD_TIME then some s.holdSeconds
    else if a = Reg.RTC_STATUS then some (setBits (s.regN a) F.RTC_STATUS_disc_active.lo 1 (b2n s.discActive))
    else none
  | 5 => if a = Reg.NET_INT_STAT then some (setBits (s.regN a) F.NET_INT_STAT_cnt_half.lo 1 (b2n s.netHalf)) else none
  | 7 => if Reg.SCN_PORT_QSRC 0 ≤ a ∧ a ≤ Reg.SCN_PORT_QSRC 63 ∧ a % 0x20 = 4 then
      some (setBits (s.regN a) 5 1 (b2n (s.scn.modQ != 0))) else none
  | 13 => if a = Reg.UPD_WINDOW_LEFT then some s.windowLeft else none
  | _ => none

/-- An ordinary read: wo fields, and offsets with no register, read 0 (R8, R10); a companion register reads its count (R12). -/
def State.plainRead (s : State) (a : Nat) : Nat :=
  match Reg.find a with
  | some d => (s.derived a).getD (s.regN a) &&& (0xFFFFFFFF ^^^ d.wo)
  | none => if Reg.isSdc a then s.regN a else 0

/-- A read of a mailbox's RDATA_HI returns the holder; another agent than the receiver reads 0 (R312, R314). -/
def State.mbxHigh (s : State) (ini q : Nat) : State :=
  if s.mbxReceiver q ini then s.answerWith (.word (s.heldWord ini 0 1)) else s.mbxForeign.answerWith (.word 0)

/-- A read with an effect, or of a value that a chapter's own operation answers. -/
def State.specialRead (s : State) (ini a : Nat) : Option State :=
  if 0x100 ≤ a ∧ a < 0x150 ∧ a % 16 = 0 then some (s.irqClaim ((a - 0x100) / 16))
  else if 0x6000 ≤ a ∧ a < 0x6400 ∧ a % 0x40 = 0x10 then some (s.mbxRead ini ((a - 0x6000) / 0x40) 0)
  else if 0x6000 ≤ a ∧ a < 0x6400 ∧ a % 0x40 = 0x14 then some (s.mbxHigh ini ((a - 0x6000) / 0x40))
  else if a = Reg.MEM_DISP_LAT_MAX then some s.dispLatRead
  else if a = 0x480000 then some (s.rtcRead ini)
  else if 0x480000 < a ∧ a ≤ 0x480010 then some (s.answerWith (.word (s.heldWord ini a ((a - 0x480000) / 4))))
  else if 0xB04000 ≤ a ∧ a < 0xB06000 then
    let w := a % 0x80 / 4
    if w = 0 then some (s.objectRead ini ((a - 0xB04000) / 0x1000) (a % 0x1000 / 0x80))
    else if w < 20 then some (s.answerWith (.word (s.heldWord ini a w))) else none
  else none

/-- A read of the register at `a` by initiator `ini`. -/
def State.registerRead (s : State) (ini a : Nat) : State :=
  match s.specialRead ini a with
  | some s' => s'
  | none =>
    match wideAt a with
    | some (b, n) =>
      if a = b then s.snapshot ini b (s.wideValue b) n else s.answerWith (.word (s.heldWord ini a ((a - b) / 4)))
    | none => s.answerWith (.word (BitVec.ofNat 32 (s.plainRead a)))

/-- LIVE_VALUE_READ (R13): a read of any register; of a live value's low word it holds the higher ones for that initiator. -/
def execLiveValueRead (ini addr : Nat) (s : State) : Result :=
  done (s.windowAccess ini addr false fun s => s.registerRead ini addr)

end Sys2Proof.Machine
end

