-- ==== Sys2Proof/Machine/Dispatch.lean ====
section
/-! DEFINITION. One arm per command: the meaning it calls. -/

namespace Sys2Proof.Machine

def exec (i : Instr) (s : State) : Host.Outcome State Fault Refusal :=
  match i with
  | .unalignedAccess ini addr size write => Sys2Proof.Machine.execUnalignedAccess ini addr size write s
  | .registerWrite ini addr w meet => Sys2Proof.Machine.execRegisterWrite ini addr w meet s
  | .liveValueRead ini addr => Sys2Proof.Machine.execLiveValueRead ini addr s
  | .tmkCfgWrite ini w => Sys2Proof.Machine.execTmkCfgWrite ini w s
  | .sync p m stamp => Sys2Proof.Machine.execSync p m stamp s
  | .followUp p m => Sys2Proof.Machine.execFollowUp p m s
  | .delayReq p m stamp => Sys2Proof.Machine.execDelayReq p m stamp s
  | .delayResp p m => Sys2Proof.Machine.execDelayResp p m s
  | .announce p a => Sys2Proof.Machine.execAnnounce p a s
  | .ptpSyncSend p stamp => Sys2Proof.Machine.execPtpSyncSend p stamp s
  | .ptpAnnounceSend p => Sys2Proof.Machine.execPtpAnnounceSend p s
  | .ptpDelayReqSend p stamp => Sys2Proof.Machine.execPtpDelayReqSend p stamp s
  | .announceTimeout p => Sys2Proof.Machine.execAnnounceTimeout p s
  | .syncTimeout p => Sys2Proof.Machine.execSyncTimeout p s
  | .candidateQualified p => Sys2Proof.Machine.execCandidateQualified p s
  | .bridgeCommit => Sys2Proof.Machine.execBridgeCommit s
  | .extInputQualified => Sys2Proof.Machine.execExtInputQualified s
  | .laneSkewMeasured p skew => Sys2Proof.Machine.execLaneSkewMeasured p skew s
  | .tsqPop ini w => Sys2Proof.Machine.execTsqPop ini w s
  | .launchTimeReached p q => Sys2Proof.Machine.execLaunchTimeReached p q s
  | .ppsEdge sec => Sys2Proof.Machine.execPpsEdge sec s
  | .linkUp p => Sys2Proof.Machine.execLinkUp p s
  | .linkDown p => Sys2Proof.Machine.execLinkDown p s
  | .frameReceived p f fcsOk pcs pcsIdle fec fecBad stamp => Sys2Proof.Machine.execFrameReceived p f fcsOk pcs pcsIdle fec fecBad stamp s
  | .frameCopyDeliver dest => Sys2Proof.Machine.execFrameCopyDeliver dest s
  | .txFrameSend p t => Sys2Proof.Machine.execTxFrameSend p t s
  | .ruleWrite => Sys2Proof.Machine.execRuleWrite s
  | .groupAdd => Sys2Proof.Machine.execGroupAdd s
  | .groupDelete => Sys2Proof.Machine.execGroupDelete s
  | .saInstall => Sys2Proof.Machine.execSaInstall s
  | .saActivateTx => Sys2Proof.Machine.execSaActivateTx s
  | .saDelete => Sys2Proof.Machine.execSaDelete s
  | .cageMgmtTransfer ini c w => Sys2Proof.Machine.execCageMgmtTransfer ini c w s
  | .cageMgmtComplete c ack data => Sys2Proof.Machine.execCageMgmtComplete c ack data s
  | .cageOvercurrent c => Sys2Proof.Machine.execCageOvercurrent c s
  | .canvasSet => Sys2Proof.Machine.execCanvasSet s
  | .streamSet => Sys2Proof.Machine.execStreamSet s
  | .streamStart => Sys2Proof.Machine.execStreamStart s
  | .streamStop => Sys2Proof.Machine.execStreamStop s
  | .admissionDeadline k => Sys2Proof.Machine.execAdmissionDeadline k s
  | .presentationTime k => Sys2Proof.Machine.execPresentationTime k s
  | .slackReset ini w => Sys2Proof.Machine.execSlackReset ini w s
  | .bandGraded k port band => Sys2Proof.Machine.execBandGraded k port band s
  | .temperCommit => Sys2Proof.Machine.execTemperCommit s
  | .temperCommitDrained => Sys2Proof.Machine.execTemperCommitDrained s
  | .recodePassDone => Sys2Proof.Machine.execRecodePassDone s
  | .brightness => Sys2Proof.Machine.execBrightness s
  | .deadSet => Sys2Proof.Machine.execDeadSet s
  | .deadClear => Sys2Proof.Machine.execDeadClear s
  | .ageCkptLoad => Sys2Proof.Machine.execAgeCkptLoad s
  | .ageCkptSave => Sys2Proof.Machine.execAgeCkptSave s
  | .ageCheckpointTimer => Sys2Proof.Machine.execAgeCheckpointTimer s
  | .greySet => Sys2Proof.Machine.execGreySet s
  | .loadCellSend p => Sys2Proof.Machine.execLoadCellSend p s
  | .lineSet p k j ps l => Sys2Proof.Machine.execLineSet p k j ps l s
  | .subfSet p k j => Sys2Proof.Machine.execSubfSet p k j s
  | .gridChangeApply k => Sys2Proof.Machine.execGridChangeApply k s
  | .chainSet => Sys2Proof.Machine.execChainSet s
  | .portStart => Sys2Proof.Machine.execPortStart s
  | .portStartStepDone p => Sys2Proof.Machine.execPortStartStepDone p s
  | .trainTimeout p => Sys2Proof.Machine.execTrainTimeout p s
  | .portStop => Sys2Proof.Machine.execPortStop s
  | .quenchSet => Sys2Proof.Machine.execQuenchSet s
  | .quenchResume => Sys2Proof.Machine.execQuenchResume s
  | .dkAccess => Sys2Proof.Machine.execDkAccess s
  | .dkReload => Sys2Proof.Machine.execDkReload s
  | .remeasure => Sys2Proof.Machine.execRemeasure s
  | .imageChunkRead n => Sys2Proof.Machine.execImageChunkRead n s
  | .repReceived p d status held opcode reg data rt bad => Sys2Proof.Machine.execRepReceived p d status held opcode reg data rt bad s
  | .open p d ch line bad => Sys2Proof.Machine.execOpen p d ch line bad s
  | .short p d ch line bad => Sys2Proof.Machine.execShort p d ch line bad s
  | .shutdown p d temp bad => Sys2Proof.Machine.execShutdown p d temp bad s
  | .damaged p d bad => Sys2Proof.Machine.execDamaged p d bad s
  | .lostInput p d bad => Sys2Proof.Machine.execLostInput p d bad s
  | .regLost p d ch line bad => Sys2Proof.Machine.execRegLost p d ch line bad s
  | .pollRequest p => Sys2Proof.Machine.execPollRequest p s
  | .requestTimeout p d => Sys2Proof.Machine.execRequestTimeout p d s
  | .cableRemeasure p => Sys2Proof.Machine.execCableRemeasure p s
  | .chainOffsetMeasure p => Sys2Proof.Machine.execChainOffsetMeasure p s
  | .returnLaneLost p => Sys2Proof.Machine.execReturnLaneLost p s
  | .returnLaneRelocked p => Sys2Proof.Machine.execReturnLaneRelocked p s
  | .moduleQuench on => Sys2Proof.Machine.execModuleQuench on s
  | .standbyCellObserved p => Sys2Proof.Machine.execStandbyCellObserved p s
  | .hello f => Sys2Proof.Machine.execHello f s
  | .heartbeat f lines => Sys2Proof.Machine.execHeartbeat f lines s
  | .heartbeatSend => Sys2Proof.Machine.execHeartbeatSend s
  | .timecmp f stamp far => Sys2Proof.Machine.execTimecmp f stamp far s
  | .timecmpSend => Sys2Proof.Machine.execTimecmpSend s
  | .decision f => Sys2Proof.Machine.execDecision f s
  | .standbyDecisionTimeout k => Sys2Proof.Machine.execStandbyDecisionTimeout k s
  | .mirror f => Sys2Proof.Machine.execMirror f s
  | .digest f => Sys2Proof.Machine.execDigest f s
  | .handoff f => Sys2Proof.Machine.execHandoff f s
  | .ack f => Sys2Proof.Machine.execAck f s
  | .twinLinkTimeout => Sys2Proof.Machine.execTwinLinkTimeout s
  | .classCopy cls => Sys2Proof.Machine.execClassCopy cls s
  | .classStale cls => Sys2Proof.Machine.execClassStale cls s
  | .deadMapCrcSend => Sys2Proof.Machine.execDeadMapCrcSend s
  | .peerClaimReleased => Sys2Proof.Machine.execPeerClaimReleased s
  | .claimFault => Sys2Proof.Machine.execClaimFault s
  | .claimKeeperExpiry => Sys2Proof.Machine.execClaimKeeperExpiry s
  | .healthLost => Sys2Proof.Machine.execHealthLost s
  | .hostWatchdogExpiry => Sys2Proof.Machine.execHostWatchdogExpiry s
  | .watchdogKick ini w => Sys2Proof.Machine.execWatchdogKick ini w s
  | .electionWaitExpiry peer => Sys2Proof.Machine.execElectionWaitExpiry peer s
  | .electionSettle peer => Sys2Proof.Machine.execElectionSettle peer s
  | .timedClaim peer => Sys2Proof.Machine.execTimedClaim peer s
  | .takeoverDrive peer => Sys2Proof.Machine.execTakeoverDrive peer s
  | .switch => Sys2Proof.Machine.execSwitch s
  | .handoffBoundary peer => Sys2Proof.Machine.execHandoffBoundary peer s
  | .handoffAckTimeout => Sys2Proof.Machine.execHandoffAckTimeout s
  | .handoffAbort => Sys2Proof.Machine.execHandoffAbort s
  | .classRegister => Sys2Proof.Machine.execClassRegister s
  | .classRelease => Sys2Proof.Machine.execClassRelease s
  | .resync => Sys2Proof.Machine.execResync s
  | .doorbell ini w => Sys2Proof.Machine.execDoorbell ini w s
  | .ringCfgWrite ini n w => Sys2Proof.Machine.execRingCfgWrite ini n w s
  | .ringDrainDone n => Sys2Proof.Machine.execRingDrainDone n s
  | .cplTailWrite ini n w => Sys2Proof.Machine.execCplTailWrite ini n w s
  | .coalesceTimer n => Sys2Proof.Machine.execCoalesceTimer n s
  | .irqClaim ini c => Sys2Proof.Machine.execIrqClaim ini c s
  | .irqEoi ini c w => Sys2Proof.Machine.execIrqEoi ini c w s
  | .swiSet ini w => Sys2Proof.Machine.execSwiSet ini w s
  | .mbxWdataLoWrite ini q w => Sys2Proof.Machine.execMbxWdataLoWrite ini q w s
  | .mbxWdataHiWrite ini q w => Sys2Proof.Machine.execMbxWdataHiWrite ini q w s
  | .mbxHeldWriteQueued q => Sys2Proof.Machine.execMbxHeldWriteQueued q s
  | .mbxRdataLoRead ini q upset => Sys2Proof.Machine.execMbxRdataLoRead ini q upset s
  | .mbxFlush ini q w => Sys2Proof.Machine.execMbxFlush ini q w s
  | .mbxDropPkt ini q w => Sys2Proof.Machine.execMbxDropPkt ini q w s
  | .lockstepMismatch => Sys2Proof.Machine.execLockstepMismatch s
  | .lockstepRestart => Sys2Proof.Machine.execLockstepRestart s
  | .memoryRead ini tcm addr len l2 upset latency => Sys2Proof.Machine.execMemoryRead ini tcm addr len l2 upset latency s
  | .memoryWrite ini tcm addr data poisoned => Sys2Proof.Machine.execMemoryWrite ini tcm addr data poisoned s
  | .scrubRead x upset => Sys2Proof.Machine.execScrubRead x upset s
  | .fwlCommit ini w => Sys2Proof.Machine.execFwlCommit ini w s
  | .fwlFenceDrained => Sys2Proof.Machine.execFwlFenceDrained s
  | .fwlLock ini w => Sys2Proof.Machine.execFwlLock ini w s
  | .dispLatRead ini => Sys2Proof.Machine.execDispLatRead ini s
  | .stateRequest ini w => Sys2Proof.Machine.execStateRequest ini w s
  | .domainPowerStep => Sys2Proof.Machine.execDomainPowerStep s
  | .domainFault d => Sys2Proof.Machine.execDomainFault d s
  | .domainRestart => Sys2Proof.Machine.execDomainRestart s
  | .powerFailWarning => Sys2Proof.Machine.execPowerFailWarning s
  | .pfCommit => Sys2Proof.Machine.execPfCommit s
  | .holdupEnd => Sys2Proof.Machine.execHoldupEnd s
  | .vinRestored => Sys2Proof.Machine.execVinRestored s
  | .vinOvervoltage mv => Sys2Proof.Machine.execVinOvervoltage mv s
  | .vbatLow => Sys2Proof.Machine.execVbatLow s
  | .seatedLost => Sys2Proof.Machine.execSeatedLost s
  | .wakeRequest n => Sys2Proof.Machine.execWakeRequest n s
  | .thermalShutdown => Sys2Proof.Machine.execThermalShutdown s
  | .thermalPowerOff => Sys2Proof.Machine.execThermalPowerOff s
  | .thermalRestart => Sys2Proof.Machine.execThermalRestart s
  | .railCfg => Sys2Proof.Machine.execRailCfg s
  | .railSet => Sys2Proof.Machine.execRailSet s
  | .trackingRound g => Sys2Proof.Machine.execTrackingRound g s
  | .holdoffExpiry g => Sys2Proof.Machine.execHoldoffExpiry g s
  | .setpointSlew => Sys2Proof.Machine.execSetpointSlew s
  | .railSetpointMessage g => Sys2Proof.Machine.execRailSetpointMessage g s
  | .powerOnReset causes dom => Sys2Proof.Machine.execPowerOnReset causes dom s
  | .identityRetry => Sys2Proof.Machine.execIdentityRetry s
  | .release => Sys2Proof.Machine.execRelease s
  | .startWatchdogExpiry => Sys2Proof.Machine.execStartWatchdogExpiry s
  | .bpReset low => Sys2Proof.Machine.execBpReset low s
  | .backupPowerUp => Sys2Proof.Machine.execBackupPowerUp s
  | .alwaysOnPowerUp => Sys2Proof.Machine.execAlwaysOnPowerUp s
  | .hostRestart ini w => Sys2Proof.Machine.execHostRestart ini w s
  | .coreReset ini w => Sys2Proof.Machine.execCoreReset ini w s
  | .refInputLost tcxo ext => Sys2Proof.Machine.execRefInputLost tcxo ext s
  | .tcxoRequalified => Sys2Proof.Machine.execTcxoRequalified s
  | .oscSwitchDone => Sys2Proof.Machine.execOscSwitchDone s
  | .pllUnlock pll => Sys2Proof.Machine.execPllUnlock pll s
  | .anvilPllRelocked => Sys2Proof.Machine.execAnvilPllRelocked s
  | .synceLost => Sys2Proof.Machine.execSynceLost s
  | .crystalLost => Sys2Proof.Machine.execCrystalLost s
  | .crystalRestored => Sys2Proof.Machine.execCrystalRestored s
  | .rtcTick => Sys2Proof.Machine.execRtcTick s
  | .rtcAdjust ini w => Sys2Proof.Machine.execRtcAdjust ini w s
  | .alarmArm ini a w => Sys2Proof.Machine.execAlarmArm ini a w s
  | .leapSchedule ini hi w => Sys2Proof.Machine.execLeapSchedule ini hi w s
  | .disciplineSecond edge => Sys2Proof.Machine.execDisciplineSecond edge s
  | .rtcOscStopped => Sys2Proof.Machine.execRtcOscStopped s
  | .meterChannelFault c => Sys2Proof.Machine.execMeterChannelFault c s
  | .meterChannelRecovered c => Sys2Proof.Machine.execMeterChannelRecovered c s
  | .meterBlock x cycles dur => Sys2Proof.Machine.execMeterBlock x cycles dur s
  | .calApply ini w => Sys2Proof.Machine.execCalApply ini w s
  | .fmodMeasure f => Sys2Proof.Machine.execFmodMeasure f s
  | .meterSave => Sys2Proof.Machine.execMeterSave s
  | .batteryBurst rms moved => Sys2Proof.Machine.execBatteryBurst rms moved s
  | .beaconSlot => Sys2Proof.Machine.execBeaconSlot s
  | .pollSlot => Sys2Proof.Machine.execPollSlot s
  | .joinReq j => Sys2Proof.Machine.execJoinReq j s
  | .data d => Sys2Proof.Machine.execData d s
  | .dataTimeout => Sys2Proof.Machine.execDataTimeout s
  | .heardFrame h => Sys2Proof.Machine.execHeardFrame h s
  | .radioEnable ini w => Sys2Proof.Machine.execRadioEnable ini w s
  | .radioRoleChange => Sys2Proof.Machine.execRadioRoleChange s
  | .radioMirrorWrite => Sys2Proof.Machine.execRadioMirrorWrite s
  | .nodeEvict => Sys2Proof.Machine.execNodeEvict s
  | .nodeRead => Sys2Proof.Machine.execNodeRead s
  | .downlink => Sys2Proof.Machine.execDownlink s
  | .rekey => Sys2Proof.Machine.execRekey s
  | .canFrameReceived n f => Sys2Proof.Machine.execCanFrameReceived n f s
  | .canFrameSent n outcome => Sys2Proof.Machine.execCanFrameSent n outcome s
  | .canBusError n lec sender exempt heavy => Sys2Proof.Machine.execCanBusError n lec sender exempt heavy s
  | .recover ini n => Sys2Proof.Machine.execRecover ini n s
  | .busOffRecovered n => Sys2Proof.Machine.execBusOffRecovered n s
  | .canSleep ini n => Sys2Proof.Machine.execCanSleep ini n s
  | .canWakeWrite ini n => Sys2Proof.Machine.execCanWakeWrite ini n s
  | .canWake n f => Sys2Proof.Machine.execCanWake n f s
  | .objSet => Sys2Proof.Machine.execObjSet s
  | .txLoad => Sys2Proof.Machine.execTxLoad s
  | .txAbort => Sys2Proof.Machine.execTxAbort s
  | .periodicSend n o => Sys2Proof.Machine.execPeriodicSend n o s
  | .objectRead ini n o => Sys2Proof.Machine.execObjectRead ini n o s
  | .keyWrite readback => Sys2Proof.Machine.execKeyWrite readback s
  | .keyGenerate readback => Sys2Proof.Machine.execKeyGenerate readback s
  | .keyDeriveHkdf readback => Sys2Proof.Machine.execKeyDeriveHkdf readback s
  | .keyDerive108 readback => Sys2Proof.Machine.execKeyDerive108 readback s
  | .keyAttr => Sys2Proof.Machine.execKeyAttr s
  | .keyErase => Sys2Proof.Machine.execKeyErase s
  | .keyInfo bad => Sys2Proof.Machine.execKeyInfo bad s
  | .hmacGen bad => Sys2Proof.Machine.execHmacGen bad s
  | .hmacVerify bad => Sys2Proof.Machine.execHmacVerify bad s
  | .gcmSeal bad => Sys2Proof.Machine.execGcmSeal bad s
  | .gcmOpen bad => Sys2Proof.Machine.execGcmOpen bad s
  | .ecdsaVerify bad => Sys2Proof.Machine.execEcdsaVerify bad s
  | .random => Sys2Proof.Machine.execRandom s
  | .keyRequest requester slot clear bad => Sys2Proof.Machine.execKeyRequest requester slot clear bad s
  | .remask bad => Sys2Proof.Machine.execRemask bad s
  | .keyFenceDrained => Sys2Proof.Machine.execKeyFenceDrained s
  | .keyLock ini w => Sys2Proof.Machine.execKeyLock ini w s
  | .rngHealthFail => Sys2Proof.Machine.execRngHealthFail s
  | .rngRecovered => Sys2Proof.Machine.execRngRecovered s
  | .updWrite => Sys2Proof.Machine.execUpdWrite s
  | .updCheck => Sys2Proof.Machine.execUpdCheck s
  | .updActivate => Sys2Proof.Machine.execUpdActivate s
  | .updCancel => Sys2Proof.Machine.execUpdCancel s
  | .updConfirm => Sys2Proof.Machine.execUpdConfirm s
  | .updProcSwap => Sys2Proof.Machine.execUpdProcSwap s
  | .windowWarn => Sys2Proof.Machine.execWindowWarn s
  | .confirmationWindowEnd => Sys2Proof.Machine.execConfirmationWindowEnd s
  | .recFlush => Sys2Proof.Machine.execRecFlush s
  | .recClear => Sys2Proof.Machine.execRecClear s
  | .flushTimer => Sys2Proof.Machine.execFlushTimer s
  | .flushDone => Sys2Proof.Machine.execFlushDone s
  | .histogramSample temps vin vbat store => Sys2Proof.Machine.execHistogramSample temps vin vbat store s
  | .pmcRun ini w => Sys2Proof.Machine.execPmcRun ini w s
  | .pmcZero ini w => Sys2Proof.Machine.execPmcZero ini w s
  | .twinLinkTrained ok => Sys2Proof.Machine.execTwinLinkTrained ok s
  | .startPhaseDone ok ident => Sys2Proof.Machine.execStartPhaseDone ok ident s
  | .checkpointComplete => Sys2Proof.Machine.execCheckpointComplete s
  | .thermalWarning => Sys2Proof.Machine.execThermalWarning s
  | .timePllRelocked => Sys2Proof.Machine.execTimePllRelocked s

end Sys2Proof.Machine
end

