-- ==== Sys2Proof/Machine/Idle.lean ====
section
/-! DEFINITION. The tick of an idle module: one nanosecond passes (assumption 5), and what waits for a lane goes out as far as it can. -/

namespace Sys2Proof.Machine

/-- Cycles of the performance monitors: event 64 at each tick, event 65 where a whole microsecond of wall time has come since the
wall time `before` (R579). -/
def State.tickPmc (s : State) (before : Nat) : State :=
  let s := s.pmc 19 64 0
  if s.wall / (1000 * ns) = before / (1000 * ns) then s else s.pmc 19 65 0

/-- What waits for a clock lane or for the twin link goes out as far as it can (R220, R275). -/
def State.pumpAll (s : State) : State :=
  let s := (s.scn.ports.filter fun x => !x.2.offers.isEmpty || x.2.blanks != 0).foldl (fun s x => s.pump x.1) s
  if s.twn.queue.isEmpty then s else s.linkPump.linkPump

/-- No command waits: one nanosecond passes. Wall time runs with its clocks in PD26 and the start clock with PD01. -/
def State.idle (s : State) : State :=
  let before := s.wall
  let s := if s.powered 26 then s.pllRun 1 else s
  let s := if s.powered 1 then s.setClock (s.clock + 1) else s
  (s.tickPmc before).pumpAll

end Sys2Proof.Machine
end

