-- ==== Sys2Proof/Machine/Pins.lean ====
section
/-! DEFINITION. What the contacts of the module show at an instant (R583, R597 to R610), as functions of the state: outputs that
change at an instant of their own are also told in `State.out`. -/

namespace Sys2Proof.Machine

/-- The level of an output contact; an unpowered one is at high impedance (R597). -/
inductive Level where
  | low | high | highZ
  deriving DecidableEq, Repr

/-- The outbound lanes SCK and SDT of port `p` are driven (R236, R262, R376). -/
def State.laneDriven (s : State) (p : Nat) : Bool :=
  s.groupOn p && s.drives && s.portState p != 0 && s.portState p != 6

/-- The 100 Ω termination of port `p`'s SRT receiver is connected (R597, R599). -/
def State.srtTerminated (s : State) (p : Nat) : Bool :=
  s.groupOn p && s.drives && (s.role != 0 || (s.portState p != 0 && s.portState p != 6))

/-- TWN_CLAIM_N and TWN_CLAIM, driven push-pull while PD25 is powered (R261, R603). -/
def State.claimPins (s : State) : Level × Level :=
  if !s.powered 25 then (.highZ, .highZ) else if s.flag F.TWN_STATUS_own_claim then (.low, .high) else (.high, .low)

/-- The open-drain MOD_FAULT_N: low from the power-on reset until release, and in FAILED (R390, R391, R597). -/
def State.modFaultPin (s : State) : Level := if s.powered 1 && !s.released then .low else .highZ

/-- TIME_PPS_OUT: high for 1 ms from its edge, and low otherwise (R57, R597, R604). -/
def State.ppsPin (s : State) : Level :=
  if !s.powered 26 then .highZ
  else match s.tmk.pps with
    | some t =>
      if s.flag F.TMK_CFG_pps_en ∧ !s.later t s.wall ∧ s.later (s.foldTime (t + 1000000 * ns : Nat)) s.wall then .high else .low
    | none => .low

/-- MTR_MCLK is driven at the modulator rate (R428, R597). -/
def State.meterClockDriven (s : State) : Bool := s.powered 3 && s.flag F.MTR_CFG_enable && !s.flag F.MTR_CFG_clk_mode

/-- ID_VCC supplies the cabinet identity memory (R609). -/
def State.idSupplied (s : State) : Bool := s.powered 27

end Sys2Proof.Machine
end

