-- ==== Sys2Proof/WellFormed.lean ====
section
/-! DEFINITION. Well-formed commands: every operand lies in the range that the spec gives the thing it names. A command that is not
well formed names nothing on the module. -/

namespace Sys2Proof

/-- An assigned initiator of R325: IDs 24 to 31 are never assigned. -/
abbrev initiator (i : Nat) : Prop := i < 24

/-- A network port: U0, U1 or M0 (R82). -/
abbrev netPort (p : Nat) : Prop := p < 3

/-- A scan port, S00 to S63 (R214). -/
abbrev scanPort (p : Nat) : Prop := p < 64

/-- The 9-bit address of a DK-16 on its chain (R219). -/
abbrev dkAddr (d : Nat) : Prop := d < 512

/-- A CAN frame: an 11-bit or 29-bit identifier and a 4-bit DLC (R484). -/
abbrev canFrame (f : CanFrame) : Prop := f.id < (if f.ext then 2 ^ 29 else 2 ^ 11) ∧ f.dlc < 16 ∧ f.data.length ≤ 64

/-- A JOIN_REQ's fields: an EUI-64, a period exponent of 0 to 7, a drift of 1 to 100 ppm, a kind mask, RSSI, LQI and a frame
counter (R455, R472, R478). -/
abbrev radJoin (j : RadJoin) : Prop :=
  j.eui < 2 ^ 64 ∧ j.e < 8 ∧ 1 ≤ j.drift ∧ j.drift ≤ 100 ∧ j.kinds < 2 ^ 16 ∧ j.rssi < 256 ∧ j.lqi < 256 ∧ j.counter < 2 ^ 32 - 1

/-- A DATA's fields, with at most six readings of a kind byte and a 32-bit value (R473). -/
abbrev radData (d : RadData) : Prop :=
  d.addr < 2 ^ 16 ∧ d.counter < 2 ^ 32 ∧ d.rssi < 256 ∧ d.lqi < 256 ∧ d.readings.length ≤ 6 ∧
    ∀ x ∈ d.readings, x.1 < 256 ∧ x.2 < 2 ^ 32

/-- A heard frame's fields (R478, R479). -/
def radHeard (h : RadHeard) : Bool :=
  match h with
  | .poll addr ctr _ => decide (addr < 2 ^ 16 ∧ ctr < 2 ^ 32 - 1)
  | .data d => decide (radData d)
  | .join eui i e slot phase drift kinds ctr _ =>
    decide (eui < 2 ^ 64 ∧ i < 1024 ∧ e < 8 ∧ slot < 4096 ∧ phase < 2 ^ e ∧ drift < 256 ∧ kinds < 2 ^ 16 ∧ ctr < 2 ^ 32 - 1)

/-- Every operand of the command is in range. -/
def Instr.wf (i : Instr) : Bool :=
  match i with
  | .unalignedAccess ini _ size _ => decide (initiator ini ∧ 0 < size)
  | .registerWrite ini _ _ meet => decide (initiator ini ∧ meet < 2 ^ 32)
  | .liveValueRead ini _ => decide (initiator ini)
  | .tmkCfgWrite ini _ => decide (initiator ini)
  | .sync p _ _ => decide (netPort p)
  | .followUp p _ => decide (netPort p)
  | .delayReq p _ _ => decide (netPort p)
  | .delayResp p _ => decide (netPort p)
  | .announce p _ => decide (netPort p)
  | .ptpSyncSend p _ => decide (netPort p)
  | .ptpAnnounceSend p => decide (netPort p)
  | .ptpDelayReqSend p _ => decide (netPort p)
  | .announceTimeout p => decide (netPort p)
  | .syncTimeout p => decide (netPort p)
  | .candidateQualified p => decide (netPort p)
  | .bridgeCommit => true
  | .extInputQualified => true
  | .laneSkewMeasured p _ => decide (p < 2)
  | .tsqPop ini _ => decide (initiator ini)
  | .launchTimeReached p q => decide (netPort p ∧ q < 8)
  | .ppsEdge _ => true
  | .linkUp p => decide (netPort p)
  | .linkDown p => decide (netPort p)
  | .frameReceived p _ _ _ _ _ _ _ => decide (netPort p)
  | .frameCopyDeliver dest => decide (dest < 20)
  | .txFrameSend p _ => decide (netPort p)
  | .ruleWrite => true
  | .groupAdd => true
  | .groupDelete => true
  | .saInstall => true
  | .saActivateTx => true
  | .saDelete => true
  | .cageMgmtTransfer ini c _ => decide (initiator ini ∧ c < 2)
  | .cageMgmtComplete c _ data0 => decide (c < 2 ∧ data0 < 256)
  | .cageOvercurrent c => decide (c < 2)
  | .canvasSet => true
  | .streamSet => true
  | .streamStart => true
  | .streamStop => true
  | .admissionDeadline _ => true
  | .presentationTime _ => true
  | .slackReset ini _ => decide (initiator ini)
  | .bandGraded _ port _ => decide (scanPort port)
  | .temperCommit => true
  | .temperCommitDrained => true
  | .recodePassDone => true
  | .brightness => true
  | .deadSet => true
  | .deadClear => true
  | .ageCkptLoad => true
  | .ageCkptSave => true
  | .ageCheckpointTimer => true
  | .greySet => true
  | .loadCellSend p => decide (scanPort p)
  | .lineSet p _ _ _ _ => decide (scanPort p)
  | .subfSet p _ _ => decide (scanPort p)
  | .gridChangeApply _ => true
  | .chainSet => true
  | .portStart => true
  | .portStartStepDone p => decide (scanPort p)
  | .trainTimeout p => decide (scanPort p)
  | .portStop => true
  | .quenchSet => true
  | .quenchResume => true
  | .dkAccess => true
  | .dkReload => true
  | .remeasure => true
  | .imageChunkRead n => decide (n ≤ 1024)
  | .repReceived p d status _ opcode reg value rt _ =>
    decide (scanPort p ∧ dkAddr d ∧ status < 8 ∧ opcode < 256 ∧ reg < 256 ∧ value < 65536 ∧ rt < 2 ^ 32)
  | .open p d ch line _ => decide (scanPort p ∧ dkAddr d ∧ ch < 16 ∧ line < 64)
  | .short p d ch line _ => decide (scanPort p ∧ dkAddr d ∧ ch < 16 ∧ line < 64)
  | .shutdown p d temp _ => decide (scanPort p ∧ dkAddr d ∧ temp < 256)
  | .damaged p d _ => decide (scanPort p ∧ dkAddr d)
  | .lostInput p d _ => decide (scanPort p ∧ dkAddr d)
  | .regLost p d ch line _ => decide (scanPort p ∧ dkAddr d ∧ ch < 16 ∧ line < 64)
  | .pollRequest p => decide (scanPort p)
  | .requestTimeout p d => decide (scanPort p ∧ dkAddr d)
  | .cableRemeasure p => decide (scanPort p)
  | .chainOffsetMeasure p => decide (scanPort p)
  | .returnLaneLost p => decide (scanPort p)
  | .returnLaneRelocked p => decide (scanPort p)
  | .moduleQuench _ => true
  | .standbyCellObserved p => decide (scanPort p)
  | .hello _ => true
  | .heartbeat _ lines => decide (lines < 3)
  | .heartbeatSend => true
  | .timecmp _ _ _ => true
  | .timecmpSend => true
  | .decision _ => true
  | .standbyDecisionTimeout _ => true
  | .mirror _ => true
  | .digest _ => true
  | .handoff _ => true
  | .ack _ => true
  | .twinLinkTimeout => true
  | .classCopy cls => decide (cls < 16)
  | .classStale cls => decide (cls < 16)
  | .deadMapCrcSend => true
  | .peerClaimReleased => true
  | .claimFault => true
  | .claimKeeperExpiry => true
  | .healthLost => true
  | .hostWatchdogExpiry => true
  | .watchdogKick ini _ => decide (initiator ini)
  | .electionWaitExpiry peer => decide (peer < 3)
  | .electionSettle peer => decide (peer < 3)
  | .timedClaim peer => decide (peer < 3)
  | .takeoverDrive peer => decide (peer < 3)
  | .switch => true
  | .handoffBoundary peer => decide (peer < 3)
  | .handoffAckTimeout => true
  | .handoffAbort => true
  | .classRegister => true
  | .classRelease => true
  | .resync => true
  | .doorbell ini _ => decide (initiator ini)
  | .ringCfgWrite ini n _ => decide (initiator ini ∧ n < 256)
  | .ringDrainDone n => decide (n < 256)
  | .cplTailWrite ini n _ => decide (initiator ini ∧ n < 256)
  | .coalesceTimer n => decide (n < 256)
  | .irqClaim ini c => decide (initiator ini ∧ c < 5)
  | .irqEoi ini c _ => decide (initiator ini ∧ c < 5)
  | .swiSet ini _ => decide (initiator ini)
  | .mbxWdataLoWrite ini q _ => decide (initiator ini ∧ q < 16)
  | .mbxWdataHiWrite ini q _ => decide (initiator ini ∧ q < 16)
  | .mbxHeldWriteQueued q => decide (q < 16)
  | .mbxRdataLoRead ini q upset => decide (initiator ini ∧ q < 16 ∧ upset < 2 ^ 72)
  | .mbxFlush ini q _ => decide (initiator ini ∧ q < 16)
  | .mbxDropPkt ini q _ => decide (initiator ini ∧ q < 16)
  | .lockstepMismatch => true
  | .lockstepRestart => true
  | .memoryRead ini tcm addr len _ _ _ => decide (initiator ini ∧ addr < 2 ^ 40 ∧ 0 < len ∧ (tcm → addr + len ≤ 0x20000))
  | .memoryWrite ini tcm addr data0 _ => decide (initiator ini ∧ addr < 2 ^ 40 ∧ 0 < data0.length ∧ (tcm → addr + data0.length ≤ 0x20000))
  | .scrubRead x _ => decide (x < 3)
  | .fwlCommit ini _ => decide (initiator ini)
  | .fwlFenceDrained => true
  | .fwlLock ini _ => decide (initiator ini)
  | .dispLatRead ini => decide (initiator ini)
  | .stateRequest ini _ => decide (initiator ini)
  | .domainPowerStep => true
  | .domainFault d => decide (d < 30)
  | .domainRestart => true
  | .powerFailWarning => true
  | .pfCommit => true
  | .holdupEnd => true
  | .vinRestored => true
  | .vinOvervoltage _ => true
  | .vbatLow => true
  | .seatedLost => true
  | .wakeRequest n => decide (n < 10)
  | .thermalShutdown => true
  | .thermalPowerOff => true
  | .thermalRestart => true
  | .railCfg => true
  | .railSet => true
  | .trackingRound g => decide (g < 16)
  | .holdoffExpiry g => decide (g < 16)
  | .setpointSlew => true
  | .railSetpointMessage g => decide (g < 16)
  | .powerOnReset causes dom => decide (0 < causes ∧ causes < 512 ∧ dom < 30)
  | .identityRetry => true
  | .release => true
  | .startWatchdogExpiry => true
  | .bpReset _ => true
  | .backupPowerUp => true
  | .alwaysOnPowerUp => true
  | .hostRestart ini _ => decide (initiator ini)
  | .coreReset ini _ => decide (initiator ini)
  | .refInputLost _ _ => true
  | .tcxoRequalified => true
  | .oscSwitchDone => true
  | .pllUnlock pll => decide (pll < 4)
  | .anvilPllRelocked => true
  | .synceLost => true
  | .crystalLost => true
  | .crystalRestored => true
  | .rtcTick => true
  | .rtcAdjust ini _ => decide (initiator ini)
  | .alarmArm ini a _ => decide (initiator ini ∧ a < 2)
  | .leapSchedule ini _ _ => decide (initiator ini)
  | .disciplineSecond _ => true
  | .rtcOscStopped => true
  | .meterChannelFault c => decide (c < 7)
  | .meterChannelRecovered c => decide (c < 7)
  | .meterBlock x _ _ => decide (x.length = 7)
  | .calApply ini _ => decide (initiator ini)
  | .fmodMeasure _ => true
  | .meterSave => true
  | .batteryBurst rms _ => decide (rms.length = 3)
  | .beaconSlot => true
  | .pollSlot => true
  | .joinReq j => decide (radJoin j)
  | .data d => decide (radData d)
  | .dataTimeout => true
  | .heardFrame h => radHeard h
  | .radioEnable ini _ => decide (initiator ini)
  | .radioRoleChange => true
  | .radioMirrorWrite => true
  | .nodeEvict => true
  | .nodeRead => true
  | .downlink => true
  | .rekey => true
  | .canFrameReceived n f => decide (n < 2 ∧ canFrame f)
  | .canFrameSent n _ => decide (n < 2)
  | .canBusError n lec _ _ _ => decide (n < 2 ∧ lec < 8)
  | .recover ini n => decide (initiator ini ∧ n < 2)
  | .busOffRecovered n => decide (n < 2)
  | .canSleep ini n => decide (initiator ini ∧ n < 2)
  | .canWakeWrite ini n => decide (initiator ini ∧ n < 2)
  | .canWake n _ => decide (n < 2)
  | .objSet => true
  | .txLoad => true
  | .txAbort => true
  | .periodicSend n o => decide (n < 2 ∧ o < 32)
  | .objectRead ini n o => decide (initiator ini ∧ n < 2 ∧ o < 32)
  | .keyWrite _ => true
  | .keyGenerate _ => true
  | .keyDeriveHkdf _ => true
  | .keyDerive108 _ => true
  | .keyAttr => true
  | .keyErase => true
  | .keyInfo _ => true
  | .hmacGen _ => true
  | .hmacVerify _ => true
  | .gcmSeal _ => true
  | .gcmOpen _ => true
  | .ecdsaVerify _ => true
  | .random => true
  | .keyRequest _ slot _ _ => decide (slot < 256)
  | .remask _ => true
  | .keyFenceDrained => true
  | .keyLock ini _ => decide (initiator ini)
  | .rngHealthFail => true
  | .rngRecovered => true
  | .updWrite => true
  | .updCheck => true
  | .updActivate => true
  | .updCancel => true
  | .updConfirm => true
  | .updProcSwap => true
  | .windowWarn => true
  | .confirmationWindowEnd => true
  | .recFlush => true
  | .recClear => true
  | .flushTimer => true
  | .flushDone => true
  | .histogramSample temps _ _ _ => decide (temps.length = 8)
  | .pmcRun ini _ => decide (initiator ini)
  | .pmcZero ini _ => decide (initiator ini)
  | .twinLinkTrained _ => true
  | .startPhaseDone _ _ => true
  | .checkpointComplete => true
  | .thermalWarning => true
  | .timePllRelocked => true

end Sys2Proof
end

