-- ==== Sys2Proof/Safety.lean ====
section
/-! DEFINITION. What counts as a safe run, in the terms that the statements use: a state in canonical form, a step that ends in a
next state, and what no step may undo. -/

namespace Sys2Proof.Machine

/-- The canonical form: registers, counters and memory each list only what differs from reset, in rising order, so that equal
contents are equal data. -/
def State.wf (s : State) : Bool :=
  Sparse.wf Reg.resetVal s.regs && Sparse.wf (fun _ => 0) s.counts && s.mem.wf

/-- The command may be given: its operands name things that exist, and a supply voltage lies where the spec gives the module a
behaviour (R593). -/
def mayGive (c : Instr) : Bool :=
  c.wf && (match c with
    | .vinOvervoltage mv => decide (mv ≤ 16000)
    | _ => true)

/-- Every command that waits may be given. -/
def State.safe (s : State) : Bool := s.pending.all mayGive

/-- `t` has taken nothing back: what was sent out in `s` stays sent, and no free value is drawn twice. -/
def State.follows (t s : State) : Prop := s.out <+: t.out ∧ s.draws ≤ t.draws

/-- What `t` has sent out since `s`. -/
def State.outSince (t s : State) : List Out := t.out.drop s.out.length

/-- The output puts the characters `cs` on the clock lane of port `p`. -/
def onClock (p : Nat) (cs : List LaneChar) : Out → Bool
  | .sck q _ _ ds _ => q == p && ds == cs
  | _ => false

/-- The output is the characters `cs` on the clock lane of port `p`, the last of which ends at `ends`, coded in 8b/10b from the
disparity that the IDLEs before them leave of `rd` (R214). -/
def clockSet (p ends : Nat) (rd : Bool) (cs : List LaneChar) : Out → Bool
  | .sck q e idle ds code => q == p && e == ends && ds == cs && code == (encodeChars (afterIdle rd idle) cs).1
  | _ => false

/-- The same of the data lane. -/
def dataCell (p ends : Nat) (rd : Bool) (cs : List LaneChar) : Out → Bool
  | .sdt q e idle ds code => q == p && e == ends && ds == cs && code == (encodeChars (afterIdle rd idle) cs).1
  | _ => false

/-- The link is up with nothing else to send, and the lane that a frame of type `type` takes is free (R255, R275). -/
def State.linkReady (s : State) (type : Nat) : Bool :=
  s.linkUp && s.twn.queue.isEmpty && Nat.ble (nth s.twn.laneFree (s.linkLane type) 0) s.linkNow

/-! ## When a command of a ring has its effect -/

/-- The engine of ring `n` may take the descriptor at its head: the slot, the descriptor, and the state in which it holds it (R297,
R298). Descriptors that cannot be read or that no command of the ring spells have completed before. -/
def State.taken (s : State) (n : Nat) : Option (Nat × List Byte × State) :=
  let s := s.settle n
  if s.canTake n then
    match s.readHead n with
    | (some desc, u) => some (s.headSlot n, desc, u.takeHead n desc)
    | (none, _) => none
  else none

/-- The same of a command with a parameter block: also the block, and the state after its read (R153). -/
def State.takenBlock (s : State) (n : Nat) : Option (Nat × List Byte × List Byte × State) :=
  match s.taken n with
  | some (slot, desc, u) =>
    match u.readBlock n desc with
    | (.ok b, v) => some (slot, desc, b, v)
    | (.error _, _) => none
  | none => none

/-- What a Keystore command reads from memory, where its read succeeds: the bytes, and the state after (R529). -/
def State.keyData (s : State) (a n : Nat) : Option (List Byte × State) :=
  match s.keyRead a n with
  | (.ok bs, u) => some (bs, u)
  | (.error _, _) => none

/-- What an Anvil command reads from memory, where its read succeeds. -/
def State.anvilData (s : State) (a n : Nat) : Option (List Byte × State) :=
  match s.anvilRead a n with
  | (.ok bs, u) => some (bs, u)
  | (.error _, _) => none

/-- An access to the register at `a` by initiator `ini` reaches the register: the initiator may address the setup window, and the
block has power, and the real-time pair is not held in reset (R291, R292, R325). -/
def State.reaches (s : State) (ini a : Nat) : Bool := s.mayUseSetup ini && s.blockOn a && !s.pairHeld ini

/-- No register lies at offset `a`: no row of a register table, no companion, no live value, no word of the RTC's count and of a message object. -/
def unassigned (a : Nat) : Bool :=
  (Reg.find a).isNone && !Reg.isSdc a && (wideAt a).isNone && !(0x480000 ≤ a && a ≤ 0x480010) &&
    !(0xB04000 ≤ a && a < 0xB06000 && a % 0x80 / 4 < 20)

/-! ## What a command leaves as it was -/

/-- The tables of fixed size have it, and the rail groups stand in rising order, each with a block of 64 bytes
and a v_now that fits its 16 bits. -/
def State.tablesSized (s : State) : Prop :=
  s.hrt.mbx.length = 16 ∧ s.mem.scrubPos.length = 3 ∧ s.tmk.ports.length = 3 ∧ s.net.busy.length = 3 ∧
    s.mtr.acc.length = 28 ∧ s.recd.img.meterCopy.length = 28 ∧ s.bat.run.length = 4 ∧
    (∀ x, x ∈ s.blw.rails → x.1 < 16 ∧ x.2.fine / 100 < 65536 ∧ x.2.block.length = 64) ∧ (s.blw.rails.map (·.1)).Pairwise (· < ·)

/-- Every register outside `as` holds in `t` what it holds in `s`; the overflow flags of the performance monitors, which any event may
set (R578), are left out. -/
def State.regsBut (t s : State) (as : List Nat) : Prop :=
  ∀ a, a ∉ as → a ≠ Reg.PMC_OVF_LO → a ≠ Reg.PMC_OVF_HI → t.reg a = s.reg a

/-- Every counter outside `cs` has in `t` the value it has in `s`; the performance counters, which count any event they select (R578),
are left out. -/
def State.countsBut (t s : State) (cs : List Nat) : Prop :=
  ∀ c, c ∉ cs → ¬ (0xE08200 ≤ c ∧ c < 0xE08400) → t.count c = s.count c

/-- Every register outside the blocks `bs` of the setup window (R17, by megabyte) holds in `t` what it holds in `s`. -/
def State.blocksBut (t s : State) (bs : List Nat) : Prop := ∀ a, a / 0x100000 ∉ bs → t.reg a = s.reg a

/-- Every byte of memory, and of the tightly coupled SRAM, is in `t` what it is in `s`. -/
def State.bytesKept (t s : State) : Prop := (∀ a, t.mem.byte a = s.mem.byte a) ∧ t.mem.tcm = s.mem.tcm

/-- The bytes of a REQ set after its start character (R219): address, broadcast, opcode, register, data and CRC-8. -/
def reqSet (addr opcode reg data : Nat) (bcast : Bool) : List Byte :=
  let b := natLE 1 addr ++ natLE 1 (bits addr 8 1 + 2 * b2n bcast) ++ natLE 1 opcode ++ natLE 1 reg ++ natLE 2 data
  b ++ [crc8 b]

end Sys2Proof.Machine
end

