-- ==== Sys2Proof/Certificates/Slice0/Obligations.lean ====
section
/-! DEFINITION. The statements for the provers. Each says what commands or the whole machine do, from the rules of spec/. A statement of a
command's effect gives, for every state and operands that meet its hypotheses, the next state that exec answers and what the command
leaves as it was. -/

open Sys2Proof Sys2Proof.Machine

/-- A step of a machine on which `c` waits in front of `rest` is the meaning of `c` on the machine with the queue `rest`; a command is
whole and indivisible (spec/95_what_each_step_holds.md). -/
def Obligations.StepRunsFrontCommand : Prop :=
  ∀ (c : Instr) (rest : List Instr) (s : State),
    step { s with pending := c :: rest } = exec c { s with pending := rest }

/-- The model's choice (log entry 5): on an empty queue time passes, one nanosecond a step. Wall time runs while PD26 is powered, steered by
the servo, the clock of the start while PD01 is; where no request, BLANK or link frame waits, only the performance monitors count. -/
def Obligations.IdleStepPassesTime : Prop :=
  ∀ s : State, s.pending = [] → ∃ t, step s = .next t ∧
    t.clock = (if s.powered 1 then s.clock + 1 else s.clock) ∧
    (s.powered 26 = false → t.wall = s.wall ∧ t.pll = s.pll) ∧
    (s.powered 26 = true → t.wall = s.wallAfter 1) ∧
    (s.powered 26 = true → s.oscWord = 0 → s.pll.slew = 0 → 0 ≤ s.pll.part → s.pll.part < 2 ^ 32 →
      s.wall + ns < (if s.wrap then 2 ^ 32 else 2 ^ 48) * second → t.wall = s.wall + ns) ∧
    ((∀ x, x ∈ s.scn.ports → x.2.offers = [] ∧ x.2.blanks = 0) → s.twn.queue = [] →
      t.regsBut s [] ∧ t.countsBut s [] ∧
      { t with regs := s.regs, counts := s.counts, wall := s.wall, clock := s.clock, pll := s.pll } = s)

/-- Equal contents are equal data: the canonical form of registers, counters and memory survives every step, of every command and of
the idle machine. -/
def Obligations.StepKeepsCanonicalForm : Prop :=
  ∀ s t : State, s.wf = true → step s = .next t → t.wf = true

/-- The invariant of `StepKeepsCanonicalForm` holds at reset, where no command waits. -/
def Obligations.ResetIsCanonical : Prop := State.reset.wf = true ∧ State.reset.pending = []

/-- What waits is not a command's to change: the queue moves only by being taken from. -/
def Obligations.CommandsLeaveTheQueue : Prop :=
  ∀ (c : Instr) (s t : State), exec c s = .next t → t.pending = s.pending

/-- Over any run: frames, cells, messages and pin changes that have left the module are never withdrawn or reordered, and a free value
once drawn is not drawn again. -/
def Obligations.NothingIsTakenBack : Prop :=
  ∀ (k : Nat) (s t : State), core.run k s = .next t → t.follows s

/-- No data stops the machine: whatever words, frames, blocks and readings the waiting commands bring, as long as they name things that
exist and the supply lies within R593, every step answers a next state. -/
def Obligations.SafeRunNeverStops : Prop :=
  ∀ (k : Nat) (s : State), s.safe = true → ∃ t, core.run k s = .next t

/-- R593 gives the module no behaviour above 16.0 V: there the command stops with a fault, and this is the only stop of the model. -/
def Obligations.OvervoltageStops : Prop :=
  (∀ (s : State) (mv : Nat), 16000 < mv → exec (.vinOvervoltage mv) s = .fault (.outsideOperatingRange "VIN above +16.0 V")) ∧
  (∀ (c : Instr) (s : State), (∀ mv, c = .vinOvervoltage mv → mv ≤ 16000) → ∃ t, exec c s = .next t)

/-- Reset as the register tables give it: the Reset column everywhere, counters at 0, no flag, nothing in service, every queue empty; and what
the contacts show (R376, R597). That memory lists nothing, that state which no register shows is empty, and the word of BLW_DOM_ON are the model's
choices (log entries 3, 1 and 7). -/
def Obligations.ResetGivesTheSpecsValues : Prop :=
  (∀ a, State.reset.reg a = Reg.resetVal a ∧ State.reset.count a = 0) ∧
  State.reset.fld F.TMK_PTP_CFG_ann_timeout = 3 ∧
  (∀ p, p < 3 → State.reset.sfld (F.TMK_PORT_CFG_m_log_sync p) = -3 ∧ State.reset.fld (F.TMK_PORT_CFG_late_drop p) = 1) ∧
  (∀ x, x ∈ statusSources → State.reset.reg x.2.1 = 0) ∧
  (∀ n, n < 256 → State.reset.ringEnabled n = false) ∧
  (∀ q, q < 16 → State.reset.mailbox q = {}) ∧
  State.reset.hrt.inService = [] ∧ State.reset.mem.cells = [] ∧ State.reset.mem.tcm = [] ∧
  State.reset.out = [] ∧ State.reset.answer = .none ∧
  (∀ p, State.reset.laneDriven p = false ∧ State.reset.srtTerminated p = false) ∧ State.reset.claimPins = (.highZ, .highZ) ∧
  State.reset.modFaultPin = .low

/-- R7: only aligned 32-bit accesses reach a register; any other changes nothing and is answered with a bus error. -/
def Obligations.MisalignedAccessHasNoEffect : Prop :=
  ∀ (ini a : Nat) (s : State), s.mayUseSetup ini = true → a < 0x1000000 →
    (∀ (size : Nat) (write : Bool), ¬ (size = 4 ∧ a % 4 = 0) →
      exec (.unalignedAccess ini a size write) s = .next (s.answerWith .busError)) ∧
    (a % 4 ≠ 0 →
      (∀ (w : Word) (meet : Nat), exec (.registerWrite ini a w meet) s = .next (s.answerWith .busError)) ∧
      exec (.liveValueRead ini a) s = .next (s.answerWith .busError))

/-- R8: where no register lies, a read answers 0 and a write does nothing, both without error. -/
def Obligations.UnassignedOffsetReadsZero : Prop :=
  ∀ (ini a : Nat) (s : State), s.reaches ini a = true → a < 0x1000000 → a % 4 = 0 → unassigned a = true →
    (∀ (w : Word) (meet : Nat), exec (.registerWrite ini a w meet) s = .next (s.answerWith .ok)) ∧
    exec (.liveValueRead ini a) s = .next (s.answerWith (.word 0))

/-- The access codes, bit by bit, over every register of five blocks whose write has no rule of its own. -/
def Obligations.RegisterWriteFollowsAccessCodes : Prop :=
  ∀ (ini a : Nat) (w : Word) (s : State) (d : RegDesc), s.reaches ini a = true → a % 4 = 0 → Reg.find a = some d →
    a / 0x100000 ∈ [2, 3, 7, 12, 13] → a ∉ [Reg.BLW_STATE_REQ, Reg.BOOT_RESET, Reg.KEY_CFG] →
    (s.writeBad a w = false → ∃ t, exec (.registerWrite ini a w 0) s = .next t ∧
      (∀ i, i < 32 → (t.reg a).getLsbD i =
        if d.rw.testBit i then w.getLsbD i
        else if d.ws.testBit i && w.getLsbD i then true
        else if d.wc.testBit i && w.getLsbD i then false
        else (s.reg a).getLsbD i) ∧
      (∀ b, b ≠ a → t.reg b = s.reg b) ∧ { t with regs := s.regs } = s.answerWith .ok) ∧
    (s.writeBad a w = true → exec (.registerWrite ini a w 0) s = .next (s.answerWith .ok))

/-- R11 over every flag register of the status vectors: set wins over clear, the companion counts, the vector stays asserted. -/
def Obligations.FlagSetWinsOverClear : Prop :=
  ∀ (ini v a en : Nat) (w : Word) (meet : Nat) (s : State) (d : RegDesc) (c : Nat),
    (v, a, en) ∈ statusSources → Reg.find a = some d → d.sdc = some c →
    s.reaches ini a = true → s.flag F.RTC_STATUS_locked = false →
    ∃ t, exec (.registerWrite ini a w meet) s = .next t ∧
      (∀ i, i < 32 → d.wc.testBit i = true →
        (t.reg a).getLsbD i = if w.getLsbD i then meet.testBit i else (s.reg a).getLsbD i) ∧
      (∀ i, i < 32 → (d.wc.testBit i && w.getLsbD i && meet.testBit i) = true →
        t.reg c = BitVec.ofNat 32 (min (s.regN c + 1) 0xFFFF) ∧
        ((s.reg en).getLsbD i = true → t.vectorAsserted v = true)) ∧
      ((∀ i, i < 32 → (d.wc.testBit i && w.getLsbD i && meet.testBit i) = false) → t.reg c = s.reg c) ∧
      (∀ b, b ≠ a → b ≠ c → t.reg b = s.reg b) ∧ { t with regs := s.regs } = s.answerWith .ok

/-- R13 and R14: the low word's read snapshots the high word for that initiator and block; the high word's read returns the holder. -/
def Obligations.LiveValueIsReadWhole : Prop :=
  ∀ (ini a : Nat) (s : State), isCounter a = true → a % 8 = 0 → s.reaches ini a = true →
    (∃ t, exec (.liveValueRead ini a) s = .next t ∧
      t.answer = .word (BitVec.ofNat 32 (s.count a)) ∧
      t.heldWord ini a 1 = BitVec.ofNat 32 (s.count a / 2 ^ 32) ∧
      (∀ j b, (j, b) ≠ (ini, blockOf a) → t.holder j b = s.holder j b) ∧
      { t with snaps := s.snaps, answer := s.answer } = s ∧
      (∀ v, ∃ u : State, exec (.liveValueRead ini (a + 4)) (t.setCount a v) = .next u ∧
        u.answer = .word (BitVec.ofNat 32 (s.count a / 2 ^ 32)) ∧ { u with answer := t.answer } = t.setCount a v))

/-- The setup window belongs to initiators 0 to 7 (and 21 before release): others meet a hole. A block without power answers a bus error. -/
def Obligations.ForeignInitiatorMeetsAHole : Prop :=
  (∀ (ini a : Nat) (w : Word) (meet : Nat) (s : State), s.mayUseSetup ini = false →
    (∃ t, exec (.registerWrite ini a w meet) s = .next t ∧ t.answer = .busError ∧
      t.flag F.FWL_INT_STAT_denied = true ∧ t.count 0x109070 = min (s.count 0x109070 + 1) (2 ^ 32 - 1) ∧
      (∀ b, b / 0x100000 ∉ [1, 12, 14] → t.reg b = s.reg b)) ∧
    (∃ t, exec (.liveValueRead ini a) s = .next t ∧ t.answer = .busError ∧ t.flag F.FWL_INT_STAT_denied = true ∧
      (∀ b, b / 0x100000 ∉ [1, 12, 14] → t.reg b = s.reg b))) ∧
  (∀ (ini a : Nat) (w : Word) (meet : Nat) (s : State), s.mayUseSetup ini = true → a < 0x1000000 → a % 4 = 0 → s.blockOn a = false →
    exec (.registerWrite ini a w meet) s = .next (s.answerWith .busError) ∧
    exec (.liveValueRead ini a) s = .next (s.answerWith .busError))

/-- R296, with the engine's look at the ring after a doorbell that is applied (`State.settle`). -/
def Obligations.DoorbellIsChecked : Prop :=
  ∀ (ini : Nat) (w : Word) (s : State) (n v : Nat), s.reaches ini Reg.DBL_RING = true →
    fieldOf F.DBL_RING_ring w = n → fieldOf F.DBL_RING_producer w = v → ¬ (0x20 ≤ n ∧ n < 0x38) →
    (n = 0x08 → s.flag F.KEY_CFG_lock = true → ini = 4) →
    (ringAssigned n = true → s.ringEnabled n = true → v < s.ringMod n →
      s.ringDiff n v (s.regN (Reg.HRT_RING_CONS n)) ≤ s.ringSize n →
      ∃ u : State, exec (.doorbell ini w) s = .next (u.settle n) ∧ u.regN (Reg.HRT_RING_PROD n) = v ∧
        u.count 0x7000 = satU 48 (s.count 0x7000 + 1) ∧ u.regsBut s [Reg.HRT_RING_PROD n] ∧ u.countsBut s [0x7000] ∧
        u.bytesKept s ∧ u.hrt = s.hrt ∧ u.out = s.out) ∧
    ((ringAssigned n && s.ringEnabled n) = false →
      ∃ t, exec (.doorbell ini w) s = .next t ∧ t.reg Reg.HRT_DB_LAST_BAD = w ∧ t.flag F.HRT_INT_STAT_db_unknown = true ∧
        t.count 0x7010 = satU 32 (s.count 0x7010 + 1) ∧ t.regsBut s [Reg.HRT_DB_LAST_BAD, Reg.HRT_INT_STAT] ∧
        t.countsBut s [0x7010] ∧ { t with regs := s.regs, counts := s.counts } = s.answerWith .ok) ∧
    (ringAssigned n = true → s.ringEnabled n = true →
      (s.ringMod n ≤ v ∨ s.ringSize n < s.ringDiff n v (s.regN (Reg.HRT_RING_CONS n))) →
      ∃ t, exec (.doorbell ini w) s = .next t ∧ t.reg Reg.HRT_DB_LAST_BAD = w ∧ t.flag F.HRT_INT_STAT_db_bad = true ∧
        t.count 0x7008 = satU 32 (s.count 0x7008 + 1) ∧ t.regsBut s [Reg.HRT_DB_LAST_BAD, Reg.HRT_INT_STAT] ∧
        t.countsBut s [0x7008] ∧ { t with regs := s.regs, counts := s.counts } = s.answerWith .ok)

/-- Ring context writes, the end of a drain, the release of completions, and the age limit of coalescing (R294, R299, R301, R309). -/
def Obligations.RingSetUpAndRelease : Prop :=
  ∀ (ini n : Nat) (s : State), ringAssigned n = true → n < 256 →
    (∀ w : Word, s.reaches ini (Reg.HRT_RING_CFG n) = true → fieldOf (F.HRT_RING_CFG_enable n) w = 1 →
      s.ringEnabled n = false → s.flag (F.HRT_RING_CFG_busy n) = false →
      4 ≤ fieldOf (F.HRT_RING_CFG_size_log2 n) w → fieldOf (F.HRT_RING_CFG_size_log2 n) w ≤ 16 →
      fieldOf (F.HRT_RING_CFG_vector n) w ≤ 95 → s.ringBasesGood n (2 ^ fieldOf (F.HRT_RING_CFG_size_log2 n) w) = true →
      ∃ t, exec (.ringCfgWrite ini n w) s = .next t ∧ t.ringEnabled n = true ∧
        t.fld (F.HRT_RING_CFG_size_log2 n) = fieldOf (F.HRT_RING_CFG_size_log2 n) w ∧
        t.fld (F.HRT_RING_CFG_vector n) = fieldOf (F.HRT_RING_CFG_vector n) w ∧
        t.reg (Reg.HRT_RING_PROD n) = 0 ∧ t.reg (Reg.HRT_RING_CONS n) = 0 ∧
        t.reg (Reg.HRT_RING_CPL_HEAD n) = 0 ∧ t.reg (Reg.HRT_RING_CPL_TAIL n) = 0 ∧
        t.regsBut s [Reg.HRT_RING_CFG n, Reg.HRT_RING_PROD n, Reg.HRT_RING_CONS n, Reg.HRT_RING_CPL_HEAD n, Reg.HRT_RING_CPL_TAIL n] ∧
        { t with regs := s.regs, hrt := s.hrt } = s.answerWith .ok) ∧
    (∀ w : Word, s.reaches ini (Reg.HRT_RING_CFG n) = true → fieldOf (F.HRT_RING_CFG_enable n) w = 1 →
      s.ringBasesGood n (2 ^ fieldOf (F.HRT_RING_CFG_size_log2 n) w) = false →
      ∃ t, exec (.ringCfgWrite ini n w) s = .next t ∧ t.flag F.HRT_INT_STAT_cfg_refused = true ∧
        t.regsBut s [Reg.HRT_INT_STAT] ∧ { t with regs := s.regs } = s.answerWith .ok) ∧
    (∀ w : Word, s.reaches ini (Reg.HRT_RING_CFG n) = true → fieldOf (F.HRT_RING_CFG_enable n) w = 0 → s.ringEnabled n = true →
      fieldOf (F.HRT_RING_CFG_size_log2 n) w = s.fld (F.HRT_RING_CFG_size_log2 n) →
      fieldOf (F.HRT_RING_CFG_vector n) w = s.fld (F.HRT_RING_CFG_vector n) →
      4 ≤ s.fld (F.HRT_RING_CFG_size_log2 n) → s.fld (F.HRT_RING_CFG_size_log2 n) ≤ 16 → s.fld (F.HRT_RING_CFG_vector n) ≤ 95 →
      ∃ t, exec (.ringCfgWrite ini n w) s = .next t ∧ t.ringEnabled n = false ∧
        t.flag (F.HRT_RING_CFG_busy n) = (s.flag (F.HRT_RING_CFG_busy n) || s.hrt.inflight.any fun i => i.ring == n) ∧
        t.regsBut s [Reg.HRT_RING_CFG n] ∧ { t with regs := s.regs } = s.answerWith .ok) ∧
    (s.ringEnabled n = false → (s.hrt.inflight.any fun i => i.ring == n) = false →
      ∃ t, exec (.ringDrainDone n) s = .next t ∧ t.flag (F.HRT_RING_CFG_busy n) = false ∧
        t.regsBut s [Reg.HRT_RING_CFG n] ∧ { t with regs := s.regs } = s) ∧
    (∀ w : Word, s.reaches ini (Reg.HRT_RING_CPL_TAIL n) = true → w.toNat < s.ringMod n → w.toNat < 2 ^ 17 →
      s.ringDiff n w.toNat (s.regN (Reg.HRT_RING_CPL_TAIL n)) ≤ s.unreleased n →
      ∃ u : State, exec (.cplTailWrite ini n w) s = .next (u.settle n) ∧ u.reg (Reg.HRT_RING_CPL_TAIL n) = w ∧
        u.regsBut s [Reg.HRT_RING_CPL_TAIL n] ∧ { u with regs := s.regs, hrt := s.hrt } = s.answerWith .ok) ∧
    (s.ringEnabled n = true → 0 < s.unreleased n → s.fld (F.HRT_RING_COAL_time_us n) ≠ 0 → s.fld (F.HRT_RING_CFG_vector n) < 96 →
      ∃ t, exec (.coalesceTimer n) s = .next t ∧ t.vectorAsserted (s.fld (F.HRT_RING_CFG_vector n)) = true ∧
        { t with hrt := s.hrt } = s)

/-- R307, R308 and R311: claim, end of service, and software interrupts. -/
def Obligations.InterruptIsClaimedAndEnded : Prop :=
  ∀ (ini c : Nat) (s : State),
    (s.reaches ini (Reg.HRT_IRQ_CLAIM c) = true → s.qualifying c = [] →
      exec (.irqClaim ini c) s = .next (s.answerWith (.word 0x100))) ∧
    (s.reaches ini (Reg.HRT_IRQ_CLAIM c) = true → s.qualifying c ≠ [] →
      ∃ t v, exec (.irqClaim ini c) s = .next t ∧ t.answer = .word (BitVec.ofNat 32 v) ∧ v < 256 ∧
        s.fld (F.HRT_VEC_ROUTE_target v) = c ∧ s.vectorPending v = true ∧
        s.fld (F.HRT_IRQ_PMASK_threshold c) < s.fld (F.HRT_VEC_ROUTE_priority v) ∧
        (∀ x, x ∈ s.hrt.inService → x.2 = c → s.fld (F.HRT_VEC_ROUTE_priority x.1) < s.fld (F.HRT_VEC_ROUTE_priority v)) ∧
        (∀ x, x ∈ s.qualifying c → s.fld (F.HRT_VEC_ROUTE_priority x) ≤ s.fld (F.HRT_VEC_ROUTE_priority v)) ∧
        (∀ x, x ∈ s.qualifying c → s.fld (F.HRT_VEC_ROUTE_priority x) = s.fld (F.HRT_VEC_ROUTE_priority v) → x < v →
          Sparse.get (fun _ => 0) s.hrt.lastClaim (16 * c + s.fld (F.HRT_VEC_ROUTE_priority v)) ≤ v →
          x < Sparse.get (fun _ => 0) s.hrt.lastClaim (16 * c + s.fld (F.HRT_VEC_ROUTE_priority v))) ∧
        (∀ x, x ∈ s.qualifying c → s.fld (F.HRT_VEC_ROUTE_priority x) = s.fld (F.HRT_VEC_ROUTE_priority v) →
          v < Sparse.get (fun _ => 0) s.hrt.lastClaim (16 * c + s.fld (F.HRT_VEC_ROUTE_priority v)) →
          v ≤ x ∧ x < Sparse.get (fun _ => 0) s.hrt.lastClaim (16 * c + s.fld (F.HRT_VEC_ROUTE_priority v))) ∧
        t.hrt.inService = s.hrt.inService ++ [(v, c)] ∧ t.vectorPending v = false ∧
        t.regsBut s [] ∧ { t with regs := s.regs, counts := s.counts, hrt := s.hrt, answer := s.answer } = s) ∧
    (∀ (v : Nat) (w : Word), s.reaches ini (Reg.HRT_IRQ_EOI c) = true → fieldOf (F.HRT_IRQ_EOI_vector c) w = v →
      ∃ t, exec (.irqEoi ini c w) s = .next t ∧ (v, c) ∉ t.hrt.inService ∧
        (∀ x, x ≠ (v, c) → (x ∈ t.hrt.inService ↔ x ∈ s.hrt.inService)) ∧
        ((∀ x, x ∈ s.hrt.inService → x.1 = v → x.2 = c) → s.vectorAsserted v = true → s.flag (F.HRT_VEC_ROUTE_en v) = true →
          t.vectorPending v = true) ∧
        { t with hrt := s.hrt } = s.answerWith .ok) ∧
    (∀ w : Word, s.reaches ini Reg.HRT_SWI_SET = true →
      ∃ t, exec (.swiSet ini w) s = .next t ∧ t.reg Reg.HRT_SWI_STAT = (s.reg Reg.HRT_SWI_STAT ||| w) ∧
        (∀ i, i < 32 → w.getLsbD i = true → t.vectorAsserted (160 + i) = true) ∧
        (∀ b, b ≠ Reg.HRT_SWI_STAT → t.reg b = s.reg b) ∧ { t with regs := s.regs } = s.answerWith .ok)

/-- R312 to R317: what each access to a mailbox does to its queue. -/
def Obligations.MailboxIsAQueue : Prop :=
  ∀ (ini q : Nat) (s : State), q < 16 → s.hrt.mbx.length = 16 →
    (∀ w : Word, s.reaches ini (Reg.HRT_MBX_WDATA_LO q) = true →
      ∃ t, exec (.mbxWdataLoWrite ini q w) s = .next t ∧ Sparse.get (fun _ => 0) t.hrt.staging ini = w ∧ t.hrt.mbx = s.hrt.mbx ∧
        { t with hrt := s.hrt } = s.answerWith .ok) ∧
    (∀ w : Word, s.reaches ini (Reg.HRT_MBX_WDATA_HI q) = true → s.mbxSender q ini = true → s.mbxOn q = true →
      (s.mailbox q).dropping = false →
      ((s.mailbox q).words.length < 512 →
        ∃ t d, exec (.mbxWdataHiWrite ini q w) s = .next t ∧ t.answer = .ok ∧
          (t.mailbox q).words = (s.mailbox q).words ++ [⟨d, evenParity d⟩] ∧
          d.getLsbD 63 = true ∧ d.getLsbD 62 = false ∧ d.extractLsb' 32 30 = w.extractLsb' 0 30 ∧
          d.extractLsb' 0 32 = Sparse.get (fun _ => 0) s.hrt.staging ini ∧
          (∀ r, r ≠ q → t.mailbox r = s.mailbox r) ∧ t.regsBut s [] ∧ t.bytesKept s) ∧
      (512 ≤ (s.mailbox q).words.length →
        ∃ t, exec (.mbxWdataHiWrite ini q w) s = .next t ∧ t.answer = .held ∧ (t.mailbox q).held.isSome = true ∧
          (t.mailbox q).words = (s.mailbox q).words ∧ t.regs = s.regs)) ∧
    (∀ w : Word, s.reaches ini (Reg.HRT_MBX_WDATA_HI q) = true → s.mbxSender q ini = false →
      ∃ t, exec (.mbxWdataHiWrite ini q w) s = .next t ∧ t.hrt = s.hrt ∧ t.flag F.HRT_INT_STAT_mbx_foreign = true ∧
        t.count 0x7038 = satU 32 (s.count 0x7038 + 1) ∧ t.regsBut s [Reg.HRT_INT_STAT]) ∧
    (∀ j d, (s.mailbox q).held = some (j, d) → (s.mailbox q).words.length < 512 → (s.mailbox q).dropping = false →
      ∃ t, exec (.mbxHeldWriteQueued q) s = .next t ∧ (t.mailbox q).held = none ∧ t.answer = .ok ∧
        (t.mailbox q).words = (s.mailbox q).words ++ [⟨d, evenParity d⟩] ∧ t.regsBut s []) ∧
    (∀ w ws, s.reaches ini (Reg.HRT_MBX_RDATA_LO q) = true → s.mbxReceiver q ini = true → (s.mailbox q).words = w :: ws →
      ∃ t, exec (.mbxRdataLoRead ini q 0) s = .next t ∧ (t.mailbox q).words = ws ∧
        t.answer = .word (w.data.extractLsb' 0 32) ∧
        t.heldWord ini 0 1 = (if evenParity w.data = w.parity then w.data.extractLsb' 32 32
          else w.data.extractLsb' 32 32 ||| BitVec.ofNat 32 (2 ^ 30)) ∧
        (evenParity w.data ≠ w.parity → t.flag F.HRT_INT_STAT_mbx_poison = true) ∧ t.regsBut s [Reg.HRT_INT_STAT]) ∧
    (s.reaches ini (Reg.HRT_MBX_RDATA_LO q) = true → s.mbxReceiver q ini = true → (s.mailbox q).words = [] →
      ∃ t, exec (.mbxRdataLoRead ini q 0) s = .next t ∧ t.answer = .word 0 ∧ t.heldWord ini 0 1 = 0 ∧ t.hrt = s.hrt ∧ t.regs = s.regs) ∧
    (∀ w : Word, s.reaches ini (Reg.HRT_MBX_CTRL q) = true → fieldOf (F.HRT_MBX_CTRL_flush q) w = 1 →
      fieldOf (F.HRT_MBX_CTRL_drop_pkt q) w = 0 →
      ∃ t, exec (.mbxFlush ini q w) s = .next t ∧ (t.mailbox q).words = [] ∧ (t.mailbox q).dropping = false ∧
        (t.mailbox q).held = (s.mailbox q).held ∧ (∀ r, r ≠ q → t.mailbox r = s.mailbox r) ∧ { t with hrt := s.hrt } = s.answerWith .ok) ∧
    (∀ w : Word, s.reaches ini (Reg.HRT_MBX_CTRL q) = true → fieldOf (F.HRT_MBX_CTRL_flush q) w = 0 →
      fieldOf (F.HRT_MBX_CTRL_drop_pkt q) w = 1 → s.mbxReceiver q ini = true → (s.mailbox q).dropping = false →
      (∀ l e r, (s.mailbox q).words = l ++ e :: r → (∀ x, x ∈ l → x.data.getLsbD 61 = false) → e.data.getLsbD 61 = true →
        ∃ t, exec (.mbxDropPkt ini q w) s = .next t ∧ (t.mailbox q).words = r ∧ (t.mailbox q).dropping = false ∧ t.regsBut s []) ∧
      ((∀ x, x ∈ (s.mailbox q).words → x.data.getLsbD 61 = false) →
        ∃ t, exec (.mbxDropPkt ini q w) s = .next t ∧ (t.mailbox q).words = [] ∧ (t.mailbox q).dropping = true ∧ t.regsBut s []))

/-- R291: the mismatch, and the restart from the reset vector. -/
def Obligations.LockstepPairIsHeldAndRestarts : Prop :=
  (∀ s : State, s.powered 4 = true → ∃ t, exec .lockstepMismatch s = .next t ∧
    t.flag F.HRT_INT_STAT_lockstep = true ∧ t.flag F.HRT_STATUS_rt_reset = true ∧
    t.count 0x7028 = satU 32 (s.count 0x7028 + 1) ∧
    (∀ x, x ∈ t.hrt.inService ↔ x ∈ s.hrt.inService ∧ x.2 ≠ 4) ∧ t.mem = s.mem ∧
    (∀ a, a ∉ [Reg.HRT_INT_STAT, Reg.HRT_STATUS] → a / 0x100000 ∉ [12, 14] → t.reg a = s.reg a)) ∧
  (∀ (s : State) (tcm : Bool) (a : Nat) (bs : List Byte) (p : Bool), s.flag F.HRT_STATUS_rt_reset = true →
    exec (.memoryWrite 4 tcm a bs p) s = .next (s.answerWith .busError)) ∧
  (∀ (s : State) (tcm l2 : Bool) (a n up lat : Nat), s.flag F.HRT_STATUS_rt_reset = true →
    exec (.memoryRead 4 tcm a n l2 up lat) s = .next (s.answerWith .busError)) ∧
  (∀ s : State, ∃ t, exec .lockstepRestart s = .next t ∧ t.flag F.HRT_STATUS_rt_reset = false ∧
    (∀ a, a ≠ Reg.HRT_STATUS → t.reg a = s.reg a) ∧ { t with regs := s.regs } = s)

/-- The sixteen queues of R312, the three scrubbed memories, the three ports of the module, the 28 accumulators (R437) and the 16 bits of v_now (R367), kept by every
step; reset has them. -/
def Obligations.TablesKeepTheirSize : Prop :=
  State.reset.tablesSized ∧ (∀ s t : State, s.tablesSized → step s = .next t → t.tablesSized)

/-- Reads of the bus: R326, R327, R339, R342; and the read of the held maximum (R337). -/
def Obligations.MemoryReadIsJudgedAndCorrected : Prop :=
  (∀ (ini a len : Nat) (s : State), 0 < len → s.pairHeld ini = false → s.judge ini a len false = none → s.memOn a len = true →
    (∀ w, w ∈ wordsOf a len → s.mem.verdict w = .good) →
    exec (.memoryRead ini false a len false 0 0) s = .next (s.answerWith (.bytes (s.mem.bytes a len)))) ∧
  (∀ (ini a : Nat) (s : State), a % 8 = 0 → s.pairHeld ini = false → s.judge ini a 8 false = none → s.memOn a 8 = true →
    region a ≠ some .flash →
    (s.mem.verdict a = .corrected → ∃ t, exec (.memoryRead ini false a 8 false 0 0) s = .next t ∧
      t.answer = .bytes (s.mem.bytes a 8) ∧ t.mem.verdict a = .good ∧ t.bytesKept s ∧
      (∀ w, w ≠ a → t.mem.verdict w = s.mem.verdict w) ∧ t.flag F.MEM_INT_STAT_ce = true ∧
      t.count (0x109000 + 8 * memIndex a) = satU 48 (s.count (0x109000 + 8 * memIndex a) + 1) ∧
      (s.flag F.MEM_ECC_LAST_INFO_valid = false → t.reg Reg.MEM_ECC_LAST_ADDR_LO = BitVec.ofNat 32 a ∧
        t.flag F.MEM_ECC_LAST_INFO_valid = true ∧ t.flag F.MEM_ECC_LAST_INFO_uncorrectable = false) ∧
      t.regsBut s [Reg.MEM_INT_STAT, Reg.MEM_ECC_LAST_ADDR_LO, Reg.MEM_ECC_LAST_ADDR_HI, Reg.MEM_ECC_LAST_INFO]) ∧
    (s.mem.verdict a = .uncorrectable → ∃ t, exec (.memoryRead ini false a 8 false 0 0) s = .next t ∧
      t.answer = .busError ∧ t.mem = s.mem ∧ t.flag F.MEM_INT_STAT_ue = true ∧
      t.count (0x109028 + 8 * memIndex a) = satU 32 (s.count (0x109028 + 8 * memIndex a) + 1) ∧
      t.reg Reg.MEM_ECC_LAST_ADDR_LO = BitVec.ofNat 32 a ∧ t.flag F.MEM_ECC_LAST_INFO_uncorrectable = true ∧
      (∀ b, b / 0x100000 ∉ [1, 12, 14] → t.reg b = s.reg b))) ∧
  (∀ (ini a : Nat) (s : State), a % 8 = 0 → s.pairHeld ini = false → s.judge ini a 8 false = none → s.memOn a 8 = true →
    region a = some .flash →
    (s.mem.verdict a = .corrected → ∃ t, exec (.memoryRead ini false a 8 false 0 0) s = .next t ∧
      t.answer = .bytes (s.mem.bytes a 8) ∧ t.mem.verdict a = .good ∧ t.bytesKept s ∧ t.regs = s.regs ∧ t.counts = s.counts) ∧
    (s.mem.verdict a = .uncorrectable →
      exec (.memoryRead ini false a 8 false 0 0) s = .next (s.answerWith .busError))) ∧
  (∀ (ini a len rule : Nat) (s : State), s.pairHeld ini = false → s.judge ini a len false = some rule →
    ∃ t, exec (.memoryRead ini false a len false 0 0) s = .next t ∧ t.answer = .busError ∧ t.mem = s.mem ∧
      t.flag F.FWL_INT_STAT_denied = true ∧
      (s.flag F.FWL_INT_STAT_denied = false → t.reg Reg.FWL_DENY_ADDR_LO = BitVec.ofNat 32 a) ∧
      (s.flag F.FWL_INT_STAT_denied = true → t.reg Reg.FWL_DENY_ADDR_LO = s.reg Reg.FWL_DENY_ADDR_LO) ∧
      (∀ b, b / 0x100000 ∉ [1, 12, 14] → t.reg b = s.reg b)) ∧
  (∀ (ini : Nat) (s : State), s.reaches ini Reg.MEM_DISP_LAT_MAX = true →
    ∃ t, exec (.dispLatRead ini) s = .next t ∧ t.answer = .word (s.reg Reg.MEM_DISP_LAT_MAX) ∧
      t.reg Reg.MEM_DISP_LAT_MAX = 0 ∧ (∀ a, a ≠ Reg.MEM_DISP_LAT_MAX → t.reg a = s.reg a) ∧
      { t with regs := s.regs, answer := s.answer } = s)

/-- Writes of the bus: R328, R329, R333, R339, R342. -/
def Obligations.MemoryWriteStoresTheBytes : Prop :=
  (∀ (ini a : Nat) (bs : List Byte) (p : Bool) (s : State), bs ≠ [] → s.pairHeld ini = false → s.judge ini a bs.length true = none →
    s.memOn a bs.length = true →
    (∀ w, w ∈ wordsOf a bs.length → (wordPart a bs.length w).2 ≠ 8 → s.mem.verdict w ≠ .uncorrectable) →
    ∃ t, exec (.memoryWrite ini false a bs p) s = .next t ∧ t.answer = .ok ∧ t.mem.bytes a bs.length = bs ∧
      (∀ b, (b < a ∨ a + bs.length ≤ b) → t.mem.byte b = s.mem.byte b) ∧ t.mem.tcm = s.mem.tcm ∧
      (p = true → ∀ w, w ∈ wordsOf a bs.length → t.mem.verdict w = .uncorrectable) ∧
      (∀ b, b / 0x100000 ∉ [1, 12, 14] → t.reg b = s.reg b)) ∧
  (∀ (ini a rule : Nat) (bs : List Byte) (p : Bool) (s : State), s.pairHeld ini = false → s.judge ini a bs.length true = some rule →
    ∃ t, exec (.memoryWrite ini false a bs p) s = .next t ∧ t.answer = .busError ∧ t.mem = s.mem ∧
      t.flag F.FWL_INT_STAT_denied = true ∧ (∀ b, b / 0x100000 ∉ [1, 12, 14] → t.reg b = s.reg b)) ∧
  (∀ (ini a : Nat) (bs : List Byte) (s : State), bs.length = 8 → a % 8 = 0 → s.pairHeld ini = false → s.judge ini a 8 true = none →
    s.memOn a 8 = true →
    (s.flag F.MEM_FLIP_CTRL_arm = false ∨ s.flipWord ≠ a →
      ∃ t, exec (.memoryWrite ini false a bs false) s = .next t ∧ t.mem.verdict a = .good ∧ t.mem.bytes a 8 = bs ∧
        (∀ b, b / 8 ≠ a / 8 → t.mem.byte b = s.mem.byte b) ∧ { t with mem := s.mem } = s.answerWith .ok) ∧
    (s.flag F.MEM_FLIP_CTRL_arm = true → s.flipWord = a →
      ∃ t, exec (.memoryWrite ini false a bs false) s = .next t ∧ t.mem.flipMask a = s.flipMask ∧ t.mem.bytes a 8 = bs ∧
        t.flag F.MEM_FLIP_CTRL_arm = false ∧ t.flag F.MEM_INT_STAT_flip_done = true ∧
        (∀ b, b ∉ [Reg.MEM_FLIP_CTRL, Reg.MEM_INT_STAT] → t.reg b = s.reg b)))

/-- R331: one read of the scrub engine. -/
def Obligations.ScrubCoversTheMemory : Prop :=
  ∀ (x : Nat) (s : State), x < 3 → s.mem.scrubPos.length = 3 → s.flag (F.MEM_SCRUB_CFG_enable x) = true → s.powered 13 = true →
    s.powered (memDomain ((scrubRange x).1 + 8 * nth s.mem.scrubPos x 0)) = true → s.fld F.ANV_INGEST_STATUS_started = 0 →
    (s.mem.verdict ((scrubRange x).1 + 8 * nth s.mem.scrubPos x 0) = .good →
      ∃ t, exec (.scrubRead x 0) s = .next t ∧
        nth t.mem.scrubPos x 0 = (nth s.mem.scrubPos x 0 + 1) % (scrubRange x).2 ∧
        t.count (0x109050 + 8 * x) =
          (if nth s.mem.scrubPos x 0 + 1 = (scrubRange x).2 then satU 32 (s.count (0x109050 + 8 * x) + 1) else s.count (0x109050 + 8 * x)) ∧
        t.bytesKept s ∧ t.regsBut s []) ∧
    (s.mem.verdict ((scrubRange x).1 + 8 * nth s.mem.scrubPos x 0) = .corrected →
      ∃ t, exec (.scrubRead x 0) s = .next t ∧ t.mem.verdict ((scrubRange x).1 + 8 * nth s.mem.scrubPos x 0) = .good ∧
        t.flag F.MEM_INT_STAT_ce = true ∧ t.bytesKept s ∧
        t.regsBut s [Reg.MEM_INT_STAT, Reg.MEM_ECC_LAST_ADDR_LO, Reg.MEM_ECC_LAST_ADDR_HI, Reg.MEM_ECC_LAST_INFO])

/-- R343 to R345. -/
def Obligations.FirewallCommitIsWholeOrNothing : Prop :=
  (∀ (ini : Nat) (w : Word) (s : State), s.reaches ini Reg.FWL_COMMIT = true → fieldOf F.FWL_COMMIT_go w = 1 →
    (s.flag F.FWL_CFG_lock = true → ini = 4) →
    (∀ e, s.fwlBadEntry = some e → ∃ t, exec (.fwlCommit ini w) s = .next t ∧ t.fld F.FWL_COMMIT_bad_entry = e ∧
      (s.reg (Reg.FWL_ENT e 0)).getLsbD 31 = true ∧
      bits (s.regN (Reg.FWL_ENT e 1)) 0 28 < bits (s.regN (Reg.FWL_ENT e 0)) 0 28 ∧
      (∀ d, d < e → (s.reg (Reg.FWL_ENT d 0)).getLsbD 31 = true →
        bits (s.regN (Reg.FWL_ENT d 0)) 0 28 ≤ bits (s.regN (Reg.FWL_ENT d 1)) 0 28) ∧
      t.flag F.FWL_INT_STAT_commit_refused = true ∧ t.regsBut s [Reg.FWL_COMMIT, Reg.FWL_INT_STAT] ∧
      { t with regs := s.regs, counts := s.counts } = s.answerWith .ok) ∧
    ((∀ e, e < 64 → (s.reg (Reg.FWL_ENT e 0)).getLsbD 31 = true →
        bits (s.regN (Reg.FWL_ENT e 0)) 0 28 ≤ bits (s.regN (Reg.FWL_ENT e 1)) 0 28) → s.auditRoom = true →
      ∃ t, exec (.fwlCommit ini w) s = .next t ∧
        (∀ e, e < 64 → ∀ j, j < 4 → t.reg (Reg.FWL_ACT_ENT e j) = s.reg (Reg.FWL_ENT e j) ∧
          t.reg (Reg.FWL_ENT e j) = s.reg (Reg.FWL_ENT e j)) ∧
        t.reg Reg.FWL_ACT_DEFAULT_R = s.reg Reg.FWL_DEFAULT_R ∧ t.reg Reg.FWL_ACT_DEFAULT_W = s.reg Reg.FWL_DEFAULT_W ∧
        t.fld F.FWL_FENCE_gen = (s.fld F.FWL_FENCE_gen + 1) % 65536 ∧ t.flag F.FWL_FENCE_drained = false ∧ t.mem = s.mem ∧
        (∀ b, b / 0x100000 ∉ [1, 12, 14] → t.reg b = s.reg b))) ∧
  (∀ s : State, ∃ t, exec .fwlFenceDrained s = .next t ∧ t.flag F.FWL_FENCE_drained = true ∧
    t.fld F.FWL_FENCE_gen = s.fld F.FWL_FENCE_gen ∧ (∀ b, b ≠ Reg.FWL_FENCE → t.reg b = s.reg b) ∧ { t with regs := s.regs } = s) ∧
  (∀ (ini : Nat) (w : Word) (s : State), s.reaches ini Reg.FWL_CFG = true →
    (fieldOf F.FWL_CFG_lock w = 1 → s.flag F.FWL_CFG_lock = false → s.auditRoom = true →
      ∃ t, exec (.fwlLock ini w) s = .next t ∧ t.flag F.FWL_CFG_lock = true ∧ t.mem = s.mem ∧
        (∀ b, b ≠ Reg.FWL_CFG → b / 0x100000 ∉ [12, 14] → t.reg b = s.reg b)) ∧
    (s.flag F.FWL_CFG_lock = true → exec (.fwlLock ini w) s = .next (s.answerWith .ok))) ∧
  (∀ (ini : Nat) (w : Word) (s : State), s.reaches ini Reg.FWL_COMMIT = true → s.flag F.FWL_CFG_lock = true → ini ≠ 4 →
    ∃ t, exec (.fwlCommit ini w) s = .next t ∧ t.flag F.FWL_INT_STAT_denied = true ∧
      t.count 0x109070 = satU 32 (s.count 0x109070 + 1) ∧ t.mem = s.mem ∧
      (∀ b, b / 0x100000 = 1 → b ∉ [Reg.FWL_INT_STAT, Reg.FWL_DENY_ADDR_LO, Reg.FWL_DENY_ADDR_HI, Reg.FWL_DENY_INFO] →
        t.reg b = s.reg b))

/-- The end of a ring command (R299, R304): `State.finish` of a command whose ring has none else in execution. -/
def Obligations.CompletionsReachTheHost : Prop :=
  ∀ (n slot : Nat) (desc : List Byte) (c : Cpl) (s : State) (head : Nat),
    s.hrt.inflight = [{ ring := n, slot := slot, desc := desc, cpl := none }] → c.status < 256 → c.status ≠ Status.accessDenied →
    c.w0 % 2 ^ 8 = 0 → c.w0 < 2 ^ 15 → slot < 65536 → s.regN (Reg.HRT_RING_CPL_HEAD n) = head →
    s.judge (ringEngine n).1 (s.cplBase n + 16 * (head % s.ringSize n)) 16 true = none →
    s.memOn (s.cplBase n + 16 * (head % s.ringSize n)) 16 = true → s.cplBase n % 4096 = 0 → s.flag F.MEM_FLIP_CTRL_arm = false →
    (s.finish n slot c).hrt.inflight = [] ∧
    byteAt ((s.finish n slot c).mem.bytes (s.cplBase n + 16 * (head % s.ringSize n)) 16) 0 = c.status ∧
    (le ((s.finish n slot c).mem.bytes (s.cplBase n + 16 * (head % s.ringSize n)) 16) 0 4).testBit 15 = decide (head < s.ringSize n) ∧
    le ((s.finish n slot c).mem.bytes (s.cplBase n + 16 * (head % s.ringSize n)) 16) 2 2 = slot ∧
    le ((s.finish n slot c).mem.bytes (s.cplBase n + 16 * (head % s.ringSize n)) 16) 4 4 = c.w1 % 2 ^ 32 ∧
    (s.finish n slot c).regN (Reg.HRT_RING_CPL_HEAD n) = (head + 1) % s.ringMod n ∧
    (∀ b, (b < s.cplBase n + 16 * (head % s.ringSize n) ∨ s.cplBase n + 16 * (head % s.ringSize n) + 16 ≤ b) →
      (s.finish n slot c).mem.byte b = s.mem.byte b) ∧
    (∀ a, a ≠ Reg.HRT_RING_CPL_HEAD n → (s.finish n slot c).reg a = s.reg a)

/-- What every ring command has in common, its frame: `State.finish` and `State.settle`. -/
def Obligations.RingMachineryIsConfined : Prop :=
  ∀ (n slot : Nat) (c : Cpl) (s t : State), (t = s.finish n slot c ∨ t = s.settle n) →
    (∀ a, a / 0x100000 ∉ [0, 1, 12, 14] → t.reg a = s.reg a) ∧
    { t with regs := s.regs, counts := s.counts, mem := s.mem, hrt := s.hrt, recd := s.recd, key := s.key } = s ∧
    t.mem.tcm = s.mem.tcm ∧ t.key.slots = s.key.slots ∧ t.hrt.inService = s.hrt.inService ∧ t.hrt.mbx = s.hrt.mbx ∧
    (∀ b, (b < s.cplBase n ∨ s.cplBase n + 16 * s.ringSize n ≤ b) → t.mem.byte b = s.mem.byte b)

/-- R360 to R365 and R585; low VBAT (R348), VIN too high (R347), the crystal (R403), and its stop while only PD00 has power (R414). -/
def Obligations.PowerFailRunsItsCourse : Prop :=
  (∀ s : State, s.powered 1 = true → s.blw.openSwitch = false → (s.fld F.BLW_STATUS_state ≠ 0 ∨ s.flag F.BLW_STATUS_busy = true) →
    (∀ c, c = Instr.powerFailWarning ∨ c = Instr.seatedLost → ∃ t, exec c s = .next t ∧ t.blw.openSwitch = true ∧
      t.blw.unseated = (s.blw.unseated || decide (c = Instr.seatedLost)) ∧
      t.flag F.BLW_STATUS_pf_warn = true ∧ t.flag F.BLW_INT_STAT_pf_warn = true ∧ t.flag F.BLW_STATUS_vin_ok = false ∧
      t.flag F.BLW_STATUS_busy = false ∧ t.flag F.RTC_STATUS_locked = true ∧
      t.blocksBut s [0, 1, 2, 4, 8, 12, 14] ∧ (s.twn.handOut = none → t.bytesKept s))) ∧
  (∀ s : State, s.powered 1 = true → s.blw.openSwitch = false → s.fld F.BLW_STATUS_state = 0 → s.flag F.BLW_STATUS_busy = false →
    ∃ t, exec .powerFailWarning s = .next t ∧ t.blw.openSwitch = true ∧ t.blw.darkWarn = true ∧ t.flag F.BLW_STATUS_vin_ok = false ∧
      t.regsBut s [Reg.BLW_STATUS] ∧ { t with regs := s.regs, counts := s.counts, blw := s.blw } = s) ∧
  (∀ s : State, s.flag F.BLW_STATUS_pf_warn = true → s.flag F.BLW_STATUS_committed = false →
    ∃ t, exec .pfCommit s = .next t ∧ t.flag F.BLW_STATUS_committed = true ∧
      (s.owns = true → t.reg Reg.BLW_DOM_ON = s.reg Reg.BLW_DOM_ON) ∧
      (s.owns = false → ∀ d, d < 30 → t.powered d = (s.powered d && [0, 1, 4, 11, 25, 26].contains d))) ∧
  (∀ s : State, s.powered 1 = true → s.blw.darkWarn = false →
    (s.flag F.BLW_STATUS_pf_warn = true → s.flag F.BLW_STATUS_committed = false →
      ∃ t, exec .vinRestored s = .next t ∧ t.flag F.BLW_STATUS_pf_warn = false ∧ t.flag F.BLW_STATUS_vin_ok = true ∧
        t.blw.openSwitch = false ∧ t.blw.unseated = false ∧ t.flag F.BLW_INT_STAT_pf_recovered = true ∧
        t.flag F.RTC_STATUS_locked = false ∧ t.twn.pfFail = false ∧ t.blocksBut s [0, 1, 2, 4, 8, 12, 14]) ∧
    (s.flag F.BLW_STATUS_committed = true →
      ∃ t, exec .vinRestored s = .next t ∧ t.blw.vinBack = true ∧ t.blw.unseated = false ∧ t.flag F.BLW_STATUS_vin_ok = true ∧
        t.regsBut s [Reg.BLW_STATUS] ∧ { t with regs := s.regs, blw := s.blw } = s)) ∧
  (∀ s : State, s.blw.openSwitch = true → (s.blw.vinBack = false ∨ s.blw.unseated = true) →
    ∃ t, exec .holdupEnd s = .next t ∧ (∀ d, d < 30 → t.powered d = decide (d = 0)) ∧ t.rtc.count = s.rtc.count ∧
      (∀ a, region a ≠ some .mram → region a ≠ some .flash → t.mem.byte a = 0) ∧
      (∀ a, pd00Reg a = true → t.reg a = s.reg a)) ∧
  (∀ s : State,
    (s.powered 1 = true →
      (∃ t, exec .vbatLow s = .next t ∧ t.flag F.BLW_INT_STAT_vbat_low = true ∧ t.flag F.BLW_STATUS_vbat_low = true ∧
        t.regsBut s [Reg.BLW_INT_STAT, Reg.BLW_STATUS] ∧ { t with regs := s.regs } = s) ∧
      (∀ mv, 5500 < mv → mv ≤ 6000 → ∃ t, exec (.vinOvervoltage mv) s = .next t ∧ t.flag F.BLW_INT_STAT_vin_ov = true ∧
        t.flag F.BLW_STATUS_vin_ok = false ∧ t.fld F.BLW_MON_vin = mv ∧
        t.regsBut s [Reg.BLW_INT_STAT, Reg.BLW_STATUS, Reg.BLW_MON] ∧ { t with regs := s.regs } = s) ∧
      (∃ t, exec .crystalLost s = .next t ∧ t.flag F.BLW_LF_CLK_on_rc = true ∧ t.flag F.BLW_LF_CLK_lost = true ∧
        t.regsBut s [Reg.BLW_LF_CLK] ∧ { t with regs := s.regs } = s) ∧
      (∃ t, exec .crystalRestored s = .next t ∧ t.flag F.BLW_LF_CLK_on_rc = false ∧ t.flag F.BLW_LF_CLK_lost = s.flag F.BLW_LF_CLK_lost ∧
        t.regsBut s [Reg.BLW_LF_CLK] ∧ { t with regs := s.regs } = s)) ∧
    (s.powered 1 = false → ∃ t, exec .rtcOscStopped s = .next t ∧ t.flag F.RTC_STATUS_osc_stopped = true ∧
      t.flag F.RTC_STATUS_valid = false ∧ t.regsBut s [Reg.RTC_STATUS] ∧ { t with regs := s.regs } = s))

/-- R358, R370 and R371. -/
def Obligations.HeatTurnsTheModuleOff : Prop :=
  (∀ s : State, s.powered 1 = true →
    (∃ t, exec .thermalWarning s = .next t ∧ t.flag F.BLW_INT_STAT_therm_warn = true ∧ t.flag F.BLW_STATUS_therm_hot = true ∧
      (∀ a, a ∉ [Reg.BLW_INT_STAT, Reg.BLW_STATUS] → a / 0x100000 ∉ [12, 14] → t.reg a = s.reg a) ∧ t.mem = s.mem) ∧
    (∃ t, exec .thermalShutdown s = .next t ∧ t.blw.thermal = true ∧ t.scn.modQ.testBit 0 = true ∧ t.flag F.BLW_STATUS_busy = false ∧
      t.reg Reg.BLW_DOM_ON = s.reg Reg.BLW_DOM_ON)) ∧
  (∀ s : State, s.blw.thermal = true →
    ∃ t, exec .thermalPowerOff s = .next t ∧ (∀ d, d < 30 → t.powered d = (s.powered d && decide (d < 3))) ∧
      t.fld F.BLW_STATUS_state = 0 ∧ t.fld F.BLW_STATUS_target = 0 ∧ t.blw.hotOff = true ∧ t.blw.thermal = false ∧ t.rtc.count = s.rtc.count) ∧
  (∀ s : State, s.blw.hotOff = true → s.flag F.BLW_THERM_CFG_auto_restart = true → s.fld F.BOOT_STATUS_phase ≠ 15 →
    ∃ t, exec .thermalRestart s = .next t ∧ t.reg Reg.BLW_DOM_ON = 3 ∧ t.fld F.BOOT_CAUSE_cause = 2 ∧ t.fld F.BOOT_STATUS_phase = 0 ∧
      t.rtc.count = s.rtc.count)

/-- R350 to R353. -/
def Obligations.StateTransitionsFollowTheOrder : Prop :=
  (∀ (ini : Nat) (w : Word) (s : State), s.reaches ini Reg.BLW_STATE_REQ = true →
    (s.requestRefused (fieldOf F.BLW_STATE_REQ_state w) = true →
      ∃ t, exec (.stateRequest ini w) s = .next t ∧ t.flag F.BLW_STATUS_req_refused = true ∧
        t.regsBut s [Reg.BLW_STATUS] ∧ { t with regs := s.regs } = s.answerWith .ok) ∧
    (s.requestRefused (fieldOf F.BLW_STATE_REQ_state w) = false → (fieldOf F.BLW_STATE_REQ_state w ≠ 0 ∨ s.blw.wakeHeld = false) →
      ∃ t, exec (.stateRequest ini w) s = .next t ∧ t.fld F.BLW_STATUS_target = fieldOf F.BLW_STATE_REQ_state w ∧
        t.flag F.BLW_STATUS_req_refused = false ∧
        (∀ d, d < 30 → ((d, true) ∈ t.blw.todo ↔ domainIn (fieldOf F.BLW_STATE_REQ_state w) (s.regN Reg.BLW_OPT) d = true ∧ s.powered d = false) ∧
          ((d, false) ∈ t.blw.todo ↔ domainIn (fieldOf F.BLW_STATE_REQ_state w) (s.regN Reg.BLW_OPT) d = false ∧ s.powered d = true)) ∧
        (t.blw.todo.Pairwise fun a b => (a.2 = b.2 → if a.2 then (a.1 < b.1 ∨ a.1 = 26) ∧ ¬ (b.1 = 26 ∧ 4 ≤ a.1) else b.1 < a.1 ∨ b.1 = 26) ∧
          (b.2 = true → a.2 = true)) ∧
        (t.blw.todo ≠ [] → t.flag F.BLW_STATUS_busy = true ∧ t.regsBut s [Reg.BLW_STATUS]) ∧
        (t.blw.todo = [] → t.flag F.BLW_STATUS_busy = false ∧ t.fld F.BLW_STATUS_state = fieldOf F.BLW_STATE_REQ_state w ∧
          t.flag F.BLW_INT_STAT_state_done = true))) ∧
  (∀ (s : State) (d : Nat) (up : Bool) (rest : List (Nat × Bool)), s.blw.todo = (d, up) :: rest → 2 ≤ d → d < 30 →
    (s.fld F.BLW_STATUS_target ≠ 0 ∨ s.blw.wakeHeld = false) →
    ∃ t, exec .domainPowerStep s = .next t ∧ t.powered d = up ∧ (∀ e, e < 30 → e ≠ d → t.powered e = s.powered e) ∧ t.blw.todo = rest ∧
      (rest ≠ [] → t.fld F.BLW_STATUS_state = s.fld F.BLW_STATUS_state) ∧
      (rest = [] → t.fld F.BLW_STATUS_state = s.fld F.BLW_STATUS_target ∧ t.flag F.BLW_STATUS_busy = false ∧
        t.flag F.BLW_INT_STAT_state_done = true))

/-- R349, R356 and R372. -/
def Obligations.DomainFaultsAndWakes : Prop :=
  (∀ (s : State) (d : Nat), 2 ≤ d → d < 30 → s.powered 1 = true → s.powered d = true →
    (restartDomain d = false → ∃ t, exec (.domainFault d) s = .next t ∧ t.powered d = false ∧
      (s.reg Reg.BLW_DOM_FAULT ||| BitVec.ofNat 32 (2 ^ d)) = t.reg Reg.BLW_DOM_FAULT ∧ t.flag F.BLW_INT_STAT_dom_fault = true ∧
      (∀ e, e < 30 → e ≠ d → t.powered e = s.powered e)) ∧
    (restartDomain d = true → s.fld F.BOOT_STATUS_phase ≠ 15 → ∃ t, exec (.domainFault d) s = .next t ∧
      t.reg Reg.BLW_DOM_ON = 3 ∧ t.fld F.BOOT_CAUSE_cause = 3 ∧ t.fld F.BOOT_CAUSE_domain = d ∧ t.fld F.BOOT_STATUS_phase = 0)) ∧
  (∀ (s : State) (slot : Nat) (desc : List Byte) (u : State), s.taken 0x18 = some (slot, desc, u) → byteAt desc 0 = 3 →
    (byteAt desc 1 < 30 → u.domainRefused (byteAt desc 1) = false →
      ∃ w : State, exec .domainRestart s = .next ((w.finish 0x18 slot okCpl).settle 0x18) ∧ w.powered (byteAt desc 1) = true ∧
        (w.reg Reg.BLW_DOM_FAULT).getLsbD (byteAt desc 1) = false ∧
        (∀ e, e < 30 → e ≠ byteAt desc 1 → w.powered e = u.powered e)) ∧
    (byteAt desc 1 < 30 → u.domainRefused (byteAt desc 1) = true →
      exec .domainRestart s = .next ((u.finish 0x18 slot refusedState).settle 0x18)) ∧
    (30 ≤ byteAt desc 1 → exec .domainRestart s = .next ((u.finish 0x18 slot (badField 0x81)).settle 0x18))) ∧
  (∀ (s : State) (n : Nat), s.powered 1 = true → n < 10 → n ≠ 7 → n ≠ 8 →
    ((s.reg Reg.BLW_WAKE_EN).getLsbD n = false → exec (.wakeRequest n) s = .next s) ∧
    ((s.reg Reg.BLW_WAKE_EN).getLsbD n = true → s.flag F.BLW_STATUS_busy = false →
      ∃ t, exec (.wakeRequest n) s = .next t ∧ (t.reg Reg.BLW_WAKE_CAUSE).getLsbD n = true ∧
        (s.fld F.BLW_STATUS_state = 0 → t.fld F.BLW_STATUS_target = 1 ∧ t.flag F.BLW_STATUS_busy = true ∧
          t.flag F.BLW_WAKE_CAUSE_prev_dark = true) ∧
        t.regsBut s [Reg.BLW_WAKE_CAUSE, Reg.BLW_STATUS] ∧ t.bytesKept s))

/-- R366, R372 and R373. -/
def Obligations.RailsAreConfiguredAndSet : Prop :=
  (∀ (s v : State) (slot : Nat) (desc b : List Byte), s.takenBlock 0x18 = some (slot, desc, b, v) → byteAt desc 0 = 1 →
    (∀ o, railBad b = some o → exec .railCfg s = .next ((v.finish 0x18 slot (badField o)).settle 0x18)) ∧
    (railBad b = none → railMode b ≠ 0 → v.fld F.BLW_STATUS_state < 2 →
      exec .railCfg s = .next ((v.finish 0x18 slot refusedState).settle 0x18)) ∧
    (railBad b = none → railMode b ≠ 0 → 2 ≤ v.fld F.BLW_STATUS_state → v.rail (byteAt b 0) = none →
      ∃ w : State, exec .railCfg s = .next ((w.finish 0x18 slot okCpl).settle 0x18) ∧
        w.rail (byteAt b 0) = some { block := b, fine := 100 * railStart b } ∧ w.railTarget (byteAt b 0) = railStart b ∧
        w.fld (F.BLW_RAIL_STATUS_v_now (byteAt b 0)) = railStart b ∧ w.fld (F.BLW_RAIL_MODE_mode (byteAt b 0)) = railMode b ∧
        w.regsBut v [Reg.BLW_RAIL_STATUS (byteAt b 0), Reg.BLW_RAIL_MODE (byteAt b 0)] ∧ { w with regs := v.regs, blw := v.blw } = v) ∧
    (∀ r, railBad b = none → railMode b ≠ 0 → 2 ≤ v.fld F.BLW_STATUS_state → v.rail (byteAt b 0) = some r → r.fine / 100 < 65536 →
      ∃ w : State, exec .railCfg s = .next ((w.finish 0x18 slot okCpl).settle 0x18) ∧
        w.rail (byteAt b 0) = some { r with block := b } ∧
        w.railTarget (byteAt b 0) = max (railMin b) (min (railMax b) (v.railTarget (byteAt b 0))) ∧
        w.regsBut v [Reg.BLW_RAIL_STATUS (byteAt b 0), Reg.BLW_RAIL_MODE (byteAt b 0)] ∧ { w with regs := v.regs, blw := v.blw } = v) ∧
    (railBad b = none → railMode b = 0 →
      ∃ w : State, exec .railCfg s = .next ((w.finish 0x18 slot okCpl).settle 0x18) ∧ w.rail (byteAt b 0) = none ∧
        w.reg (Reg.BLW_RAIL_STATUS (byteAt b 0)) = 0 ∧ w.reg (Reg.BLW_RAIL_MODE (byteAt b 0)) = 0 ∧
        w.regsBut v [Reg.BLW_RAIL_STATUS (byteAt b 0), Reg.BLW_RAIL_MODE (byteAt b 0)] ∧ { w with regs := v.regs, blw := v.blw } = v)) ∧
  (∀ (s u : State) (slot : Nat) (desc : List Byte), s.taken 0x18 = some (slot, desc, u) → byteAt desc 0 = 2 → byteAt desc 1 < 16 →
    (u.rail (byteAt desc 1) = none → exec .railSet s = .next ((u.finish 0x18 slot refusedState).settle 0x18)) ∧
    (∀ r, u.rail (byteAt desc 1) = some r → railMode r.block = 1 → r.fine / 100 < 65536 → railMin r.block ≤ le desc 2 2 → le desc 2 2 ≤ railMax r.block →
      ∃ w : State, exec .railSet s = .next ((w.finish 0x18 slot okCpl).settle 0x18) ∧ w.railTarget (byteAt desc 1) = le desc 2 2 ∧
        w.rail (byteAt desc 1) = some r ∧
        w.regsBut u [Reg.BLW_RAIL_STATUS (byteAt desc 1), Reg.BLW_RAIL_MODE (byteAt desc 1)] ∧ { w with regs := u.regs, blw := u.blw } = u) ∧
    (∀ r, u.rail (byteAt desc 1) = some r → railMode r.block ≠ 1 → 50 ≤ le desc 2 2 → le desc 2 2 ≤ 2000 → r.block.length = 64 →
      ∃ w : State, exec .railSet s = .next ((w.finish 0x18 slot okCpl).settle 0x18) ∧
        (∃ q, w.rail (byteAt desc 1) = some q ∧ railHTarget q.block = le desc 2 2 ∧ q.fine = r.fine) ∧
        { w with blw := u.blw } = u))

/-- R367 and R369. -/
def Obligations.RailsFollowTheirHeadroom : Prop :=
  (∀ (g : Nat) (s : State) (r : Rail) (h : Int), g < 16 → s.rail g = some r → s.headroom g = some h → railMode r.block = 2 →
    s.steersRails = true → r.fine / 100 < 65536 →
    ∃ t, exec (.trackingRound g) s = .next t ∧ t.rail g = some r ∧
      (h < (railHTarget r.block : Int) → t.railTarget g = min (railMax r.block) (((r.fine / 100 : Nat) : Int) + (railHTarget r.block - h)).toNat ∧
        (t.flag (F.BLW_RAIL_MODE_at_limit g) = true ↔ t.railTarget g = railMax r.block)) ∧
      ((railHTarget r.block + railHBand r.block : Nat) < h → s.flag (F.BLW_RAIL_MODE_holdoff g) = false →
        (t.railTarget g : Int) = max (railMin r.block : Int) (((r.fine / 100 : Nat) : Int) - min (h - railHTarget r.block) (railStep r.block))) ∧
      ((railHTarget r.block : Int) ≤ h → (h ≤ (railHTarget r.block + railHBand r.block : Nat) ∨ s.flag (F.BLW_RAIL_MODE_holdoff g) = true) →
        t.railTarget g = s.railTarget g) ∧
      t.regsBut s [Reg.BLW_RAIL_STATUS g, Reg.BLW_RAIL_MODE g, Reg.BLW_INT_STAT] ∧ { t with regs := s.regs, blw := s.blw } = s) ∧
  (∀ (g : Nat) (s : State), (s.rail g).isSome = true →
    ∃ t, exec (.holdoffExpiry g) s = .next t ∧ t.flag (F.BLW_RAIL_MODE_holdoff g) = false ∧
      t.regsBut s [Reg.BLW_RAIL_MODE g] ∧ { t with regs := s.regs } = s) ∧
  (∀ s : State, (s.blw.rails.map (·.1)).Pairwise (· < ·) → (∀ x, x ∈ s.blw.rails → x.1 < 16) →
    ∃ t, exec .setpointSlew s = .next t ∧ t.blw.rails.map (·.1) = s.blw.rails.map (·.1) ∧
      (∀ g r, (g, r) ∈ s.blw.rails → ∃ q, (g, q) ∈ t.blw.rails ∧ q.block = r.block ∧
        (r.fine < 100 * s.railTarget g → q.fine = min (100 * s.railTarget g) (r.fine + railUp r.block)) ∧
        (100 * s.railTarget g ≤ r.fine → q.fine = max (100 * s.railTarget g) (r.fine - railDown r.block))))

/-- R397 to R402. -/
def Obligations.ClockInputsAndLocks : Prop :=
  ∀ s : State, s.powered 26 = true →
    (s.flag F.TMK_CLK_STATUS_tcxo_ok = true → s.fld F.TMK_CLK_STATUS_ref_input = 0 → s.extGood = false →
      ∃ t, exec (.refInputLost true false) s = .next t ∧ t.flag F.TMK_CLK_STATUS_tcxo_ok = false ∧
        t.flag F.TMK_CLK_INT_STAT_tcxo_lost = true ∧ t.flag F.TMK_CLK_STATUS_ref_hold = true ∧
        t.flag F.TMK_CLK_INT_STAT_ref_hold = true ∧ t.fld F.TMK_CLK_STATUS_ref_input = 2 ∧ t.flag F.TMK_CLK_STATUS_ref_locked = false ∧
        t.fld F.TMK_CLK_CNT_hold_entries = satU F.TMK_CLK_CNT_hold_entries.width (s.fld F.TMK_CLK_CNT_hold_entries + 1) ∧
        t.blocksBut s [0, 1, 4, 8, 10, 12, 14] ∧ t.rtc.count = s.rtc.count ∧ t.wall = s.wall) ∧
    (s.flag F.TMK_CLK_STATUS_tcxo_ok = true → s.extGood = true →
      ∃ t, exec (.refInputLost true false) s = .next t ∧ t.flag F.TMK_CLK_STATUS_tcxo_ok = false ∧
        t.flag F.TMK_CLK_STATUS_ref_hold = s.flag F.TMK_CLK_STATUS_ref_hold ∧
        t.fld F.TMK_CLK_STATUS_ref_input = s.fld F.TMK_CLK_STATUS_ref_input ∧
        t.regsBut s [Reg.TMK_CLK_STATUS, Reg.TMK_CLK_INT_STAT, Reg.RAD_STATUS] ∧ { t with regs := s.regs } = s) ∧
    (s.flag F.TMK_CLK_STATUS_tcxo_ok = false → s.fld F.TMK_CLK_STATUS_ref_input ≠ 0 →
      ∃ t, exec .tcxoRequalified s = .next t ∧ t.flag F.TMK_CLK_STATUS_tcxo_ok = true ∧ t.flag F.TMK_CLK_INT_STAT_tcxo_back = true ∧
        (s.powered 2 = true → t.flag F.RAD_STATUS_tcxo_wait = false) ∧
        t.regsBut s [Reg.TMK_CLK_STATUS, Reg.TMK_CLK_INT_STAT, Reg.RAD_STATUS] ∧ { t with regs := s.regs } = s) ∧
    (s.fld F.TMK_CLK_STATUS_ref_input = 0 → exec .tcxoRequalified s = .next s) ∧
    (∀ n, s.refTarget = some n → s.fld F.TMK_CLK_STATUS_ref_input ≠ n →
      ∃ t, exec .oscSwitchDone s = .next t ∧ t.fld F.TMK_CLK_STATUS_ref_input = n ∧ t.flag F.TMK_CLK_STATUS_ref_hold = false ∧
        t.flag F.TMK_CLK_STATUS_ref_locked = true ∧ t.flag F.TMK_CLK_INT_STAT_ref_switch = true ∧
        t.fld F.TMK_CLK_CNT_ref_switches = satU F.TMK_CLK_CNT_ref_switches.width (s.fld F.TMK_CLK_CNT_ref_switches + 1) ∧
        (s.flag F.TMK_CLK_STATUS_ref_hold = true → t.flag F.TMK_CLK_STATUS_time_locked = true) ∧
        t.blocksBut s [0, 1, 4, 8, 12, 14]) ∧
    (∃ t, exec (.pllUnlock 1) s = .next t ∧ t.flag F.TMK_CLK_STATUS_anvil_locked = false ∧
      t.flag F.TMK_CLK_INT_STAT_anvil_unlock = true ∧ t.scn.modQ.testBit 1 = true ∧ t.reg Reg.BLW_DOM_ON = s.reg Reg.BLW_DOM_ON) ∧
    (s.flag F.TMK_CLK_STATUS_time_locked = true → s.powered 25 = true →
      ∃ t, exec (.pllUnlock 2) s = .next t ∧ t.flag F.TMK_CLK_STATUS_time_locked = false ∧
        t.flag F.TMK_CLK_INT_STAT_time_unlock = true ∧ t.flag F.TWN_STATUS_healthy = false ∧
        (t.reg Reg.TWN_HEALTH_WHY).getLsbD 0 = true ∧ t.blocksBut s [0, 1, 4, 8, 12, 14]) ∧
    (∀ k d, (k, d) ∈ [(0, 26), (3, 12)] → s.powered d = true → s.fld F.BOOT_STATUS_phase ≠ 15 →
      ∃ t, exec (.pllUnlock k) s = .next t ∧ t.reg Reg.BLW_DOM_ON = 3 ∧ t.fld F.BOOT_CAUSE_cause = 3 ∧ t.fld F.BOOT_CAUSE_domain = d) ∧
    (∃ t, exec .anvilPllRelocked s = .next t ∧ t.flag F.TMK_CLK_STATUS_anvil_locked = true ∧ t.scn.modQ.testBit 1 = false ∧
      t.blocksBut s [0, 1, 4, 8, 12, 14]) ∧
    (s.flag F.TMK_CLK_STATUS_ref_hold = false →
      ∃ t, exec .timePllRelocked s = .next t ∧ t.flag F.TMK_CLK_STATUS_time_locked = true ∧
        (s.powered 25 = true → (t.reg Reg.TWN_HEALTH_WHY).getLsbD 0 = false) ∧ t.blocksBut s [0, 1, 4, 8, 12, 14]) ∧
    (s.synceOn = true →
      ∃ t, exec .synceLost s = .next t ∧ t.tmk.synceLost = true ∧ t.flag F.TMK_CLK_INT_STAT_synce_lost = true ∧
        t.fld F.TMK_STATUS_freq_src ≠ 1 ∧ t.blocksBut s [0, 1, 4, 8, 12, 14])

/-- R412 to R421. -/
def Obligations.RtcTickAdvancesTheCount : Prop :=
  ∀ s : State,
    (s.powered 0 = false ∨ (s.flag F.RTC_STATUS_osc_stopped = true ∧ s.powered 1 = false) → exec .rtcTick s = .next s) ∧
    (s.powered 0 = true → (s.flag F.RTC_STATUS_osc_stopped = false ∨ s.powered 1 = true) → ∃ t, exec .rtcTick s = .next t) ∧
    (s.powered 0 = true → (s.flag F.RTC_STATUS_osc_stopped = false ∨ s.powered 1 = true) → s.rtc.discAdj = 0 →
      ∃ t, exec .rtcTick s = .next t ∧ t.rtc.discAdj = 0 ∧ t.flag F.RTC_ADJ_CTRL_go = false ∧
        t.rtc.trimAcc = (s.rtc.trimAcc + (s.sfld F.RTC_TRIM_trim).natAbs) % 2 ^ 24 ∧
        (t.rtc.count : Int) = ((s.rtc.count : Int) +
          (if s.flag F.RTC_ADJ_CTRL_go then 32768 * s.sfld F.RTC_ADJ_SEC_seconds + s.sfld F.RTC_ADJ_CTRL_ticks else 0) +
          (if s.rtc.trimAcc + (s.sfld F.RTC_TRIM_trim).natAbs < 2 ^ 24 then 1 else if 0 < s.sfld F.RTC_TRIM_trim then 2 else 0)) % 2 ^ 63 ∧
        (s.flag F.RTC_ADJ_CTRL_go = true → t.flag F.RTC_STATUS_valid = true ∧ t.flag F.RTC_STATUS_osc_stopped = false) ∧
        (s.flag F.RTC_ADJ_CTRL_go = false → t.flag F.RTC_STATUS_valid = s.flag F.RTC_STATUS_valid ∧
          t.flag F.RTC_STATUS_osc_stopped = s.flag F.RTC_STATUS_osc_stopped) ∧
        (s.flag (F.RTC_ALARM_W2_arm 0) = true → s.alarmValue 0 ≤ t.rtc.count →
          t.flag F.RTC_INT_STAT_alarm0 = true ∧ t.flag (F.RTC_ALARM_W2_arm 0) = false) ∧
        (s.flag (F.RTC_ALARM_W2_arm 1) = true → s.alarmValue 1 ≤ t.rtc.count →
          t.flag F.RTC_INT_STAT_alarm1 = true ∧ t.flag (F.RTC_ALARM_W2_arm 1) = false) ∧
        (∀ a, a < 2 → t.rtc.count < s.alarmValue a → t.flag (F.RTC_ALARM_W2_arm a) = s.flag (F.RTC_ALARM_W2_arm a)) ∧
        t.blocksBut s [2, 4, 14] ∧ t.bytesKept s ∧ t.wall = s.wall)

/-- R417 to R420, R423 and R425. -/
def Obligations.RtcIsSetAndDisciplined : Prop :=
  (∀ (ini : Nat) (w : Word) (s : State), s.reaches ini Reg.RTC_ADJ_CTRL = true → s.flag F.RTC_STATUS_locked = false →
    (s.flag F.RTC_ADJ_CTRL_go = false → s.discActive = false → fieldOf F.RTC_ADJ_CTRL_go w = 1 → fieldOf F.RTC_ADJ_CTRL_ticks w ≠ 0x8000 →
      ∃ t, exec (.rtcAdjust ini w) s = .next t ∧ t.flag F.RTC_ADJ_CTRL_go = true ∧
        t.fld F.RTC_ADJ_CTRL_ticks = fieldOf F.RTC_ADJ_CTRL_ticks w ∧ t.regsBut s [Reg.RTC_ADJ_CTRL] ∧
        { t with regs := s.regs } = s.answerWith .ok) ∧
    (s.flag F.RTC_ADJ_CTRL_go = true →
      ∃ t, exec (.rtcAdjust ini w) s = .next t ∧ t.flag F.RTC_INT_STAT_cfg_refused = true ∧
        t.regsBut s [Reg.RTC_INT_STAT] ∧ { t with regs := s.regs } = s.answerWith .ok)) ∧
  (∀ (ini a : Nat) (w : Word) (s : State), a < 2 → s.reaches ini (Reg.RTC_ALARM_W2 a) = true → s.flag F.RTC_STATUS_locked = false →
    ∃ t, exec (.alarmArm ini a w) s = .next t ∧ t.reg (Reg.RTC_ALARM_W2 a) = (w &&& 0x3FFFF) ∧
      t.regsBut s [Reg.RTC_ALARM_W2 a] ∧ { t with regs := s.regs } = s.answerWith .ok) ∧
  (∀ (ini : Nat) (w : Word) (s : State), s.reaches ini Reg.RTC_LEAP_HI = true → s.flag F.RTC_STATUS_locked = false →
    fieldOf F.RTC_LEAP_HI_arm w = 1 → fieldOf F.RTC_LEAP_HI_delete w = 0 →
    ((s.utc (s.regN Reg.RTC_LEAP_LO + 2 ^ 32 * fieldOf F.RTC_LEAP_HI_sec_hi w)) % 86400 = 0 →
      ∃ t, exec (.leapSchedule ini true w) s = .next t ∧ t.reg Reg.RTC_LEAP_HI = (w &&& 0x3FFFF) ∧
        t.regsBut s [Reg.RTC_LEAP_HI] ∧ { t with regs := s.regs } = s.answerWith .ok) ∧
    ((s.utc (s.regN Reg.RTC_LEAP_LO + 2 ^ 32 * fieldOf F.RTC_LEAP_HI_sec_hi w)) % 86400 ≠ 0 →
      ∃ t, exec (.leapSchedule ini true w) s = .next t ∧ t.flag F.RTC_INT_STAT_cfg_refused = true ∧
        t.regsBut s [Reg.RTC_INT_STAT] ∧ { t with regs := s.regs } = s.answerWith .ok)) ∧
  (∀ (ini : Nat) (w : Word) (s : State), s.reaches ini Reg.RTC_LEAP_HI = true → s.flag F.RTC_STATUS_locked = false →
    fieldOf F.RTC_LEAP_HI_arm w = 1 → fieldOf F.RTC_LEAP_HI_delete w = 1 →
    (s.utc (s.regN Reg.RTC_LEAP_LO + 2 ^ 32 * fieldOf F.RTC_LEAP_HI_sec_hi w)) % 86400 = 86399 →
    ∃ t, exec (.leapSchedule ini true w) s = .next t ∧ t.reg Reg.RTC_LEAP_HI = (w &&& 0x3FFFF) ∧
      t.regsBut s [Reg.RTC_LEAP_HI] ∧ { t with regs := s.regs } = s.answerWith .ok) ∧
  (∀ (ini : Nat) (w : Word) (s : State), s.reaches ini Reg.RTC_LEAP_LO = true → s.flag F.RTC_STATUS_locked = false →
    s.flag F.RTC_LEAP_HI_arm = false →
    ∃ t, exec (.leapSchedule ini false w) s = .next t ∧ t.reg Reg.RTC_LEAP_LO = w ∧
      t.regsBut s [Reg.RTC_LEAP_LO] ∧ { t with regs := s.regs } = s.answerWith .ok) ∧
  (∀ (ini : Nat) (w : Word) (s : State) (c : Instr) (r : Nat),
    (c, r) ∈ [(Instr.rtcAdjust ini w, Reg.RTC_ADJ_CTRL), (.alarmArm ini 0 w, Reg.RTC_ALARM_W2 0), (.alarmArm ini 1 w, Reg.RTC_ALARM_W2 1),
      (.leapSchedule ini true w, Reg.RTC_LEAP_HI), (.leapSchedule ini false w, Reg.RTC_LEAP_LO)] →
    s.reaches ini r = true → s.flag F.RTC_STATUS_locked = true →
    ∃ t, exec c s = .next t ∧ t.flag F.RTC_INT_STAT_wr_locked = true ∧ t.regsBut s [Reg.RTC_INT_STAT] ∧
      { t with regs := s.regs } = s.answerWith .ok) ∧
  (∀ (edge : Nat) (s : State), s.later edge s.wall = false →
    (s.discActive = false →
      ∃ t, exec (.disciplineSecond edge) s = .next t ∧ t.rtc.discWas = false ∧ t.rtc.discSec = none ∧ t.rtc.discAdj = s.rtc.discAdj ∧
        { t with rtc := s.rtc } = s) ∧
    (s.discActive = true → s.rtc.discWas = false →
      ∃ t, exec (.disciplineSecond edge) s = .next t ∧ t.rtc.discWas = true ∧ t.flag F.RTC_INT_STAT_disc_jump = true ∧
        t.rtc.discAdj = s.rtc.discAdj - rneI (s.discError edge) 2000000000 ∧ t.rtc.count = s.rtc.count ∧
        t.regsBut s [Reg.RTC_INT_STAT] ∧ { t with regs := s.regs, rtc := s.rtc } = s) ∧
    (∀ n, s.discActive = true → s.rtc.discWas = true → (s.discError edge).natAbs < second → s.rtc.discSec = some n → n < 15 →
      ∃ t, exec (.disciplineSecond edge) s = .next t ∧ t.rtc.discSec = some (n + 1) ∧ t.rtc.discAdj = s.rtc.discAdj ∧ { t with rtc := s.rtc } = s) ∧
    (s.discActive = true → s.rtc.discWas = true → (s.discError edge).natAbs < second → s.rtc.discSec = some 15 →
      ∃ t, exec (.disciplineSecond edge) s = .next t ∧ t.rtc.discSec = none ∧
        t.rtc.discAdj = s.rtc.discAdj - rneI (s.discError edge) 2000000000 ∧ t.rtc.count = s.rtc.count ∧
        t.regsBut s [Reg.RTC_TRIM, Reg.RTC_DISC_ERR] ∧ { t with regs := s.regs, rtc := s.rtc } = s))

/-- R388 and R392 to R394. -/
def Obligations.ResetsReachTheirBlocks : Prop :=
  (∀ (s : State) (causes dom : Nat), s.powered 1 = true → s.fld F.BOOT_STATUS_phase ≠ 15 →
    (∀ c, c < 9 → causes.testBit c = true → (∀ i, i < c → causes.testBit i = false) → c ≠ 7 →
      ∃ t, exec (.powerOnReset causes dom) s = .next t ∧ t.reg Reg.BLW_DOM_ON = 3 ∧ t.fld F.BOOT_CAUSE_cause = c ∧
        t.fld F.BOOT_STATUS_phase = 0 ∧ t.clock = 0 ∧ t.rtc.count = s.rtc.count ∧ t.boot.ctl = s.boot.ctl ∧ t.boot.fuse = s.boot.fuse ∧
        s.out <+: t.out)) ∧
  (∀ s : State, s.powered 1 = true → s.fld F.BOOT_STATUS_phase ≠ 15 →
    (∃ t, exec (.bpReset true) s = .next t ∧ t.reg Reg.BLW_DOM_ON = 3 ∧ t.fld F.BOOT_CAUSE_cause = 6 ∧ t.fld F.BOOT_STATUS_phase = 0 ∧
      t.boot.held = true ∧ t.rtc.count = s.rtc.count) ∧
    (∃ t, exec (.bpReset false) s = .next t ∧ t.boot.held = false ∧ { t with boot := s.boot } = s)) ∧
  (∀ s : State, s.powered 1 = true → s.fld F.BOOT_STATUS_phase < 5 → s.boot.held = false → s.fld F.BOOT_STATUS_wd_count < 2 →
    ∃ t, exec .startWatchdogExpiry s = .next t ∧ t.reg Reg.BLW_DOM_ON = 3 ∧ t.fld F.BOOT_CAUSE_cause = 7 ∧
      t.fld F.BOOT_STATUS_wd_count = s.fld F.BOOT_STATUS_wd_count + 1 ∧ t.fld F.BOOT_STATUS_phase = 0 ∧ t.rtc.count = s.rtc.count) ∧
  (∀ s : State, s.powered 1 = false →
    ∃ t, exec .alwaysOnPowerUp s = .next t ∧ t.reg Reg.BLW_DOM_ON = 3 ∧ t.fld F.BOOT_CAUSE_cause = 1 ∧ t.fld F.BOOT_STATUS_phase = 0 ∧
      t.rtc.count = s.rtc.count ∧ t.boot.ctl = s.boot.ctl) ∧
  (∀ s : State, ∃ t, exec .backupPowerUp s = .next t ∧ t.reg Reg.BLW_DOM_ON = 3 ∧ t.fld F.BOOT_CAUSE_cause = 0 ∧
    t.fld F.BOOT_STATUS_phase = 0 ∧ t.rtc.count = 0 ∧ t.boot.ctl = s.boot.ctl ∧
    (∀ a, region a ≠ some .mram → region a ≠ some .flash → t.mem.byte a = 0) ∧
    (s.recd.flush = none → ∀ a, region a = some .mram ∨ region a = some .flash → t.mem.byte a = s.mem.byte a)) ∧
  (∀ (ini : Nat) (w : Word) (s : State), s.reaches ini Reg.BOOT_RESET = true →
    (fieldOf F.BOOT_RESET_key w = 0xC5A1 → fieldOf F.BOOT_RESET_kind w = 1 → s.blw.thermal = false → s.flag F.BLW_STATUS_pf_warn = false →
      s.fld F.BOOT_STATUS_phase ≠ 15 →
      ∃ t, exec (.hostRestart ini w) s = .next t ∧ t.reg Reg.BLW_DOM_ON = 3 ∧ t.fld F.BOOT_CAUSE_cause = 8 ∧ t.fld F.BOOT_STATUS_phase = 0) ∧
    (fieldOf F.BOOT_RESET_key w = 0xC5A1 → fieldOf F.BOOT_RESET_kind w = 2 →
      ∃ t, exec (.coreReset ini w) s = .next t ∧
        (∀ v, v ∈ t.hrt.inService ↔ v ∈ s.hrt.inService ∧ v.2 ≠ fieldOf F.BOOT_RESET_core w) ∧ { t with hrt := s.hrt } = s.answerWith .ok) ∧
    (fieldOf F.BOOT_RESET_key w ≠ 0xC5A1 → ∀ c, c = Instr.hostRestart ini w ∨ c = Instr.coreReset ini w →
      ∃ t, exec c s = .next t ∧ t.flag F.BOOT_INT_STAT_reset_refused = true ∧ t.regsBut s [Reg.BOOT_INT_STAT] ∧
        { t with regs := s.regs } = s.answerWith .ok))

/-- R375 to R390. -/
def Obligations.StartRunsThroughItsPhases : Prop :=
  ∀ s : State,
    (s.inPhase 0 = true → s.fuseFault = none → ∀ ok ident, ∃ t, exec (.startPhaseDone ok ident) s = .next t ∧
      t.fld F.BOOT_STATUS_phase = 1 ∧ t.fld F.BOOT_HWID_type = 0x4810 ∧ (∀ d, d ∈ clocksDomains → t.powered d = true) ∧
      (∀ d, d < 30 → d ∉ clocksDomains → t.powered d = s.powered d)) ∧
    (s.inPhase 1 = true → ∀ ident,
      (∃ t, exec (.startPhaseDone true ident) s = .next t ∧ t.fld F.BOOT_STATUS_phase = 2 ∧ t.regsBut s [Reg.BOOT_STATUS] ∧
        { t with regs := s.regs } = s) ∧
      (∃ t, exec (.startPhaseDone false ident) s = .next t ∧ t.fld F.BOOT_STATUS_phase = 15 ∧ t.fld F.BOOT_STATUS_fault = 3)) ∧
    (s.inPhase 2 = true → ∀ ok,
      (∀ b, identGood b = true → ∃ t, exec (.startPhaseDone ok (some b)) s = .next t ∧ t.fld F.BOOT_STATUS_phase = 3 ∧
        t.reg Reg.BOOT_IDENT = BitVec.ofNat 32 (le b 8 4) ∧ t.fld F.BOOT_IDENT_SLOT_slot = byteAt b 5 ∧ t.bytesKept s) ∧
      (s.boot.tries < 2 → exec (.startPhaseDone ok none) s = .next s ∧
        (∃ t, exec .identityRetry s = .next t ∧ t.boot.tries = s.boot.tries + 1 ∧ { t with boot := s.boot } = s)) ∧
      (2 ≤ s.boot.tries → ∃ t, exec (.startPhaseDone ok none) s = .next t ∧ t.fld F.BOOT_STATUS_phase = 3 ∧
        t.flag F.BOOT_STATUS_ident_bad = true ∧ t.reg Reg.BOOT_IDENT = 0xFFFFFFFF)) ∧
    (s.inPhase 4 = true → s.boot.ready = false → ∀ ok ident, ∃ t, exec (.startPhaseDone ok ident) s = .next t ∧ t.boot.ready = true ∧
      keyType (t.keySlot 0).attr = 6 ∧ (t.keySlot 0).key = s.fuseBytes 0x300 32 ∧ t.flag F.KEY_STATUS_root_loaded = true) ∧
    (s.inPhase 4 = true → s.boot.ready = true → ∃ t, exec .release s = .next t ∧ t.fld F.BOOT_STATUS_phase = 5 ∧
      t.fld F.BLW_STATUS_state = 2 ∧ t.reg Reg.BOOT_START_TIME = BitVec.ofNat 32 (s.clock / 1000) ∧
      t.wall / second = (if s.wrap then s.rtc.count / 32768 % 2 ^ 32 else s.rtc.count / 32768) ∧
      .pin "MOD_FAULT_N" true ∈ t.out)

/-- R45 to R47, R49, R50, R55, R56, R58, R59, R61, R62, R64, R81 and R93. -/
def Obligations.PtpMessagesReachTheServo : Prop :=
  ∀ (p : Nat) (s : State), p < 3 → s.tmk.ports.length = 3 → s.netLink p = true →
    (∀ (m : PtpMsg) (a : Announce) (st : Nat) (c : Instr), (c, m.domain) ∈ [(Instr.sync p m st, m.domain), (.followUp p m, m.domain), (.delayReq p m st, m.domain),
        (.delayResp p m, m.domain), (.announce p a, a.domain)] →
      (s.servesDomain p m.domain = false → exec c s = .next s) ∧
      (s.servesDomain p m.domain = true → s.stamping p = false → (-7 ≤ m.log ∧ m.log ≤ 1) → (-3 ≤ a.log ∧ a.log ≤ 3) →
        ∃ t, exec c s = .next t ∧ t.count (0x501090 + 0x100 * p) = (s.count (0x501090 + 0x100 * p) + 1) % 2 ^ (counterRow 3 18 p).width ∧
          t.countsBut s [0x501090 + 0x100 * p] ∧ t.regsBut s [Reg.NET_CNT_HALF p] ∧ { t with regs := s.regs, counts := s.counts } = s)) ∧
    (∀ (m : PtpMsg) (st : Nat), s.servesDomain p m.domain = true → (m.log < -7 ∨ 1 < m.log) →
      ∃ t, exec (.sync p m st) s = .next t ∧ t.candState p = 0 ∧ t.count (0x501090 + 0x100 * p) = (s.count (0x501090 + 0x100 * p) + 1) % 2 ^ (counterRow 3 18 p).width ∧
        t.blocksBut s [4, 5, 8, 12, 14] ∧ t.mem = s.mem ∧ t.wall = s.wall) ∧
    (∀ a : Announce, s.servesDomain p a.domain = true → (a.log < -3 ∨ 3 < a.log) →
      ∃ t, exec (.announce p a) s = .next t ∧ t.candState p = 0 ∧ t.blocksBut s [4, 5, 8, 12, 14] ∧ t.mem = s.mem ∧ t.wall = s.wall) ∧
    (s.tmkEnabled = true → s.stamping p = true →
      (∀ (m : PtpMsg) (st : Nat), s.masterPort p = true → m.domain = s.fld (F.TMK_PORT_CFG_m_domain p) → s.ptpClear p (s.fld F.TMK_PTP_CFG_transport) = true →
        ∃ t, exec (.delayReq p m st) s = .next t ∧ t.out = s.out ++ [.ptp p { transport := s.fld F.TMK_PTP_CFG_transport, profile := s.fld (F.TMK_PORT_CFG_m_profile p) }
            9 m.seq [(m.domain : Int), (s.ingressStamp p st : Int), m.corr]] ∧
          t.wall = (s.reach (s.ingressStamp p st)).wall ∧ t.tmk = s.tmk ∧ t.mem = s.mem ∧ t.regsBut s [Reg.NET_CNT_HALF p]) ∧
      (s.slaveCapable p = true →
        (∀ a : Announce, a.domain = s.fld F.TMK_PTP_CFG_domain → -3 ≤ a.log → a.log ≤ 3 →
          ∃ t, exec (.announce p a) s = .next t ∧ (t.tport p).ann = some a ∧ (t.tport p).annOk = true ∧
            (s.candState p = 0 → (s.tport p).syncOk = true → (s.tport p).badSync = false → t.candState p = 1) ∧
            t.blocksBut s [4, 5, 8, 12, 14] ∧ t.mem = s.mem ∧ t.wall = s.wall) ∧
        (∀ (m : PtpMsg) (st : Nat), m.domain = s.fld F.TMK_PTP_CFG_domain →
          (-7 ≤ m.log → m.log ≤ 1 → m.twoStep = true →
            ∃ t, exec (.sync p m st) s = .next t ∧ (t.tport p).wait = some (m.seq, st, m.corr) ∧
              (t.tport p).syncOk = true ∧ (∀ q, q ≠ p → t.tport q = s.tport q) ∧ t.wall = (s.reach (s.ingressStamp p st)).wall ∧
              t.blocksBut s [4, 5, 8, 12, 14] ∧ t.mem = s.mem) ∧
          (∀ t3, (s.tport p).req = some (m.seq, t3) →
            ∃ t, exec (.delayResp p m) s = .next t ∧ (t.tport p).req = none ∧ (t.tport p).t34 = some (t3, m.time, m.corr) ∧
              (∀ q, q ≠ p → t.tport q = s.tport q) ∧ t.wall = s.wall ∧ t.mem = s.mem ∧ t.regsBut s [Reg.NET_CNT_HALF p]) ∧
          (∀ (t2 t3 t4 : Nat) (c c4 d12 d34 off : Int), (s.tport p).wait = some (m.seq, t2, c) → (s.tport p).t34 = some (t3, t4, c4) →
            d12 = s.wallDiff (s.ingressStamp p t2) m.time - c - m.corr → d34 = s.wallDiff t4 (s.egressStamp p t3) - c4 →
            off = d12 - rneI (d12 + d34) 2 - s.sfld (F.TMK_CAL_ASYM_value p) →
            (s.tmk.sel ≠ some p → s.selState ≠ 2 →
              ∃ t, exec (.followUp p m) s = .next t ∧ (t.tport p).offsets = (off :: (s.tport p).offsets).take 16 ∧ (t.tport p).wait = none ∧
                (∀ q, q ≠ p → t.tport q = s.tport q) ∧ t.wall = s.wall ∧ t.mem = s.mem ∧ t.regsBut s [Reg.NET_CNT_HALF p, Reg.TMK_REFSEL_STATUS]) ∧
            (s.tmk.sel = some p → s.selState = 1 →
              (s.servo = 3 → ∃ t, exec (.followUp p m) s = .next t ∧ t.reg Reg.TMK_OFFSET = BitVec.ofInt 32 (satS 32 (Config.filteredOffset ((off :: (s.tport p).offsets).take 16))) ∧
                t.servo = (if 327680 < (Config.filteredOffset ((off :: (s.tport p).offsets).take 16)).natAbs ∧ 7 ≤ s.tmk.exceeds then 2 else 3) ∧
                t.pll.slew = off ∧ t.wall = s.wall ∧ t.mem = s.mem ∧ t.blocksBut s [4, 5, 8, 12, 14]) ∧
              (s.servo = 2 → off.natAbs < 65536 * 2 ^ s.fld F.TMK_SERVO_CFG_step_log2 → ∃ t, exec (.followUp p m) s = .next t ∧
                t.servo = (if (Config.filteredOffset ((off :: (s.tport p).offsets).take 16)).natAbs ≤ 32768 ∧
                  s.tmk.pullSince.getD s.clock + 2000000000 ≤ s.clock then 3 else 2) ∧
                t.pll.slew = off ∧ t.wall = s.wall ∧ t.mem = s.mem ∧ t.blocksBut s [4, 5, 8, 12, 14]) ∧
              (s.servo = 1 → off.natAbs < 65536 * 2 ^ s.fld F.TMK_SERVO_CFG_step_log2 → ∃ t, exec (.followUp p m) s = .next t ∧
                t.servo = (if 15 ≤ s.tmk.updates ∧ Config.freqError ((off :: (s.tport p).offsets).take 16) < 50000 then 2 else 1) ∧
                t.wall = s.wall ∧ t.mem = s.mem ∧ t.blocksBut s [4, 5, 8, 12, 14]) ∧
              ((s.servo = 1 ∨ s.servo = 2) → 65536 * 2 ^ s.fld F.TMK_SERVO_CFG_step_log2 < off.natAbs →
                (s.pll.noStep = true → ∃ t, exec (.followUp p m) s = .next t ∧ t.wall = s.wall ∧ t.pll.slew = off ∧ t.mem = s.mem ∧ t.blocksBut s [4, 5, 8, 12, 14]) ∧
                (s.pll.noStep = false → s.anyStarted = false → s.grid = none → ∃ t, exec (.followUp p m) s = .next t ∧ t.wall = s.foldTime ((s.wall : Int) - off) ∧
                  t.flag F.TMK_STATUS_step_pending = false ∧ t.flag F.ANV_INGEST_INT_STAT_step = true ∧ t.mem = s.mem ∧ t.blocksBut s [4, 5, 6, 8, 12, 14]) ∧
                (s.pll.noStep = false → s.anyStarted = true → s.flag F.TMK_SERVO_CFG_step_allowed = false → ∃ t, exec (.followUp p m) s = .next t ∧ t.wall = s.wall ∧ t.pll.slew = off ∧
                  t.flag F.TMK_STATUS_step_pending = true ∧ t.flag F.TMK_INT_STAT_step_needed = true ∧ t.mem = s.mem ∧ t.blocksBut s [4, 5, 8, 12, 14])))))))

/-- R44, R45, R47, R50, R55, R57, R59, R64 to R70 and R76. -/
def Obligations.TimekeeperSelectsSendsAndQueues : Prop :=
  (∀ (p : Nat) (s : State), p < 3 → s.tmk.ports.length = 3 →
    (s.candState p = 1 → spreadOk (s.tport p).offsets = true →
      (∃ t, exec (.candidateQualified p) s = .next t ∧ 2 ≤ t.candState p ∧ t.mem = s.mem ∧ t.wall = s.wall ∧ t.blocksBut s [4, 8, 12, 14]) ∧
      (s.tmkEnabled = true → s.selState = 0 → s.fld F.TMK_REFSEL_CFG_force = 0 → s.ownBetter p = false → (∀ q, q < 3 → q ≠ p → s.candState q < 2) →
        ∃ t, exec (.candidateQualified p) s = .next t ∧ t.selState = 1 ∧ t.tmk.sel = some p ∧ t.candState p = 3 ∧
          (s.servo = 0 → t.servo = 1) ∧ t.fld F.TMK_STATUS_sel_ref = p + 1) ∧
      (s.selState = 0 → s.fld F.TMK_REFSEL_CFG_force = 0 → s.ownBetter p = true → (∀ q, q < 3 → q ≠ p → s.candState q < 2) →
        ∃ t, exec (.candidateQualified p) s = .next t ∧ t.selState = 0 ∧ t.candState p = 2)) ∧
    (∀ c, c = Instr.announceTimeout p ∨ c = .syncTimeout p →
      (∃ t, exec c s = .next t ∧ t.candState p = 0 ∧ t.mem = s.mem ∧ t.wall = s.wall ∧ t.blocksBut s [4, 8, 12, 14]) ∧
      (s.tmkEnabled = true → s.selState = 1 → s.tmk.sel = some p → (∀ q, q < 3 → q ≠ p → s.candState q < 2) → 1 ≤ s.servo → s.servo ≤ 3 →
        ∃ t, exec c s = .next t ∧ t.selState = 3 ∧ t.servo = 4 ∧ t.tmk.sel = none ∧ t.flag F.TMK_INT_STAT_holdover = true ∧
          t.fld F.TMK_STATUS_sel_ref = 0)) ∧
    (s.selState = 2 → s.tmk.target = some p →
      ∃ t, exec .bridgeCommit s = .next t ∧ t.selState = 1 ∧ t.tmk.sel = some p ∧ t.candState p = 3 ∧
        t.servo = (if s.servo = 0 then 1 else 2) ∧ t.flag F.TMK_INT_STAT_ref_switch = true ∧
        t.fld F.TMK_REFSEL_CNT_switches = satU F.TMK_REFSEL_CNT_switches.width (s.fld F.TMK_REFSEL_CNT_switches + 1) ∧
        (∀ q, s.tmk.sel = some q → q < 3 → q ≠ p → s.candState q ≠ 0 → t.candState q = 1) ∧
        t.pll.noStep = true ∧ t.mem = s.mem ∧ t.wall = s.wall ∧ t.blocksBut s [4, 8, 12, 14]) ∧
    (∀ raw v, s.tmkEnabled = true → s.stamping p = true → s.ptpClear p (s.fld F.TMK_PTP_CFG_transport) = true → v = PtpVia.mk (s.fld F.TMK_PTP_CFG_transport) (s.fld (F.TMK_PORT_CFG_m_profile p)) none →
      (s.masterPort p = true → ∃ t, exec (.ptpSyncSend p raw) s = .next t ∧
        t.out = s.out ++ (if s.oneStep p then [.ptp p v 0 (s.tport p).syncSeq [(s.fld (F.TMK_PORT_CFG_m_domain p) : Int), s.sfld (F.TMK_PORT_CFG_m_log_sync p), 0, (s.egressStamp p raw : Int)]]
          else [.ptp p v 0 (s.tport p).syncSeq [(s.fld (F.TMK_PORT_CFG_m_domain p) : Int), s.sfld (F.TMK_PORT_CFG_m_log_sync p), 1],
            .ptp p v 8 (s.tport p).syncSeq [(s.fld (F.TMK_PORT_CFG_m_domain p) : Int), s.sfld (F.TMK_PORT_CFG_m_log_sync p), (s.egressStamp p raw : Int)]]) ∧
        (t.tport p).syncSeq = ((s.tport p).syncSeq + 1) % 65536 ∧ t.wall = (s.reach (s.egressStamp p raw)).wall ∧ t.regsBut s [Reg.NET_CNT_HALF p] ∧ t.mem = s.mem) ∧
      (s.slaveCapable p = true → ∃ t, exec (.ptpDelayReqSend p raw) s = .next t ∧
        t.out = s.out ++ [.ptp p { v with profile := s.fld F.TMK_PTP_CFG_profile } 1 (s.tport p).reqSeq [(s.fld F.TMK_PTP_CFG_domain : Int)]] ∧
        (t.tport p).req = some ((s.tport p).reqSeq, raw) ∧ t.wall = (s.reach (s.egressStamp p raw)).wall ∧ t.regsBut s [Reg.NET_CNT_HALF p] ∧ t.mem = s.mem)) ∧
    (∀ v l : List Int, s.tmkEnabled = true → s.masterPort p = true → s.netLink p = true →
      v = (match s.tmk.sel.bind fun q => if s.ownBetter q then none else (s.tport q).ann with
        | some a => [(a.steps : Int) + 1, (s.fld F.TMK_PTP_CFG_priority1 : Int), a.cls, a.accuracy, a.variance, a.prio2, a.identity]
        | none => [0, (s.fld F.TMK_PTP_CFG_priority1 : Int), if s.flag F.TMK_PTP_CFG_gm_capable then (Config.masterClockClass.toNat : Int) else 255,
            Config.masterClockAccuracy.toNat, Config.masterClockVariance.toNat, Config.masterPriority2.toNat, Config.masterIdentity.toNat]) →
      l = (s.fld (F.TMK_PORT_CFG_m_domain p) : Int) :: s.sfld (F.TMK_PORT_CFG_m_log_announce p) :: v →
      ∃ t, exec (.ptpAnnounceSend p) s = .next t ∧ (t.tport p).annSeq = ((s.tport p).annSeq + 1) % 65536 ∧ t.mem = s.mem ∧
        t.out = s.out ++ (if s.ptpClear p (s.fld F.TMK_PTP_CFG_transport) then
            [.ptp p (PtpVia.mk (s.fld F.TMK_PTP_CFG_transport) (s.fld (F.TMK_PORT_CFG_m_profile p)) none) 11 (s.tport p).annSeq l]
          else match (s.takePn p).1 with
            | some (an, a) => [.ptp p (PtpVia.mk (s.fld F.TMK_PTP_CFG_transport) (s.fld (F.TMK_PORT_CFG_m_profile p)) (some (an, a.next))) 11 (s.tport p).annSeq l]
            | none => []) ∧
        (s.ptpClear p (s.fld F.TMK_PTP_CFG_transport) = true → t.regsBut s [Reg.NET_CNT_HALF p])) ∧
    (∀ skew, p < 2 → s.netLink p = true → ∃ t, exec (.laneSkewMeasured p skew) s = .next t ∧ t.stamping p = true ∧ (t.tport p).skew = skew ∧ t.blocksBut s [4, 5, 8, 12, 14] ∧ t.mem = s.mem)) ∧
  (∀ (sec : Nat) (s : State),
    (s.later s.wall (second * sec) = true → exec (.ppsEdge sec) s = .next s) ∧
    (s.later s.wall (second * sec) = false → ∃ t, exec (.ppsEdge sec) s = .next t ∧ t.wall = (s.reach (second * sec)).wall ∧ t.regs = s.regs ∧ t.mem = s.mem ∧
      t.out = s.out ++ if s.flag F.TMK_CFG_pps_en then [.pulse "TIME_PPS_OUT" (second * sec) (s.foldTime ((second * sec + 1000000 * ns : Nat) : Int))] else [])) ∧
  (∀ s : State, ((s.powered 26 = false ∨ (s.fld F.TMK_CLK_STATUS_ref_input = 1 ∧ s.fld F.TMK_REFSEL_STATUS_ext_state < 2)) →
      exec .extInputQualified s = .next s) ∧
    (s.powered 26 = true → (s.fld F.TMK_CLK_STATUS_ref_input ≠ 1 ∨ 2 ≤ s.fld F.TMK_REFSEL_STATUS_ext_state) →
      ∃ t, exec .extInputQualified s = .next t ∧ t.flag F.TMK_CLK_STATUS_ext_present = true ∧
        t.fld F.TMK_REFSEL_STATUS_ext_state = max 2 (s.fld F.TMK_REFSEL_STATUS_ext_state) ∧
        t.regsBut s [Reg.TMK_CLK_STATUS, Reg.TMK_REFSEL_STATUS] ∧ { t with regs := s.regs } = s)) ∧
  (∀ (ini : Nat) (w : Word) (s : State),
    (s.reaches ini Reg.TMK_TSQ_POP = true → fieldOf F.TMK_TSQ_POP_pop w = 1 → s.tmk.tsq.length ≤ 64 →
      ∃ t, exec (.tsqPop ini w) s = .next t ∧ t.tmk.tsq = s.tmk.tsq.tail ∧ t.fld F.TMK_TSQ_STATUS_count = s.tmk.tsq.length - 1 ∧
        t.regsBut s [Reg.TMK_TSQ_STATUS] ∧ { t with regs := s.regs, tmk := s.tmk } = s.answerWith .ok) ∧
    (s.reaches ini Reg.TMK_CFG = true →
      ((2 ≤ fieldOf F.TMK_CFG_osc_src w ∨ (fieldOf F.TMK_CFG_wrap_mode w ≠ s.fld F.TMK_CFG_wrap_mode ∧ s.servo ≠ 0)) →
        ∃ t, exec (.tmkCfgWrite ini w) s = .next t ∧ t.flag F.TMK_INT_STAT_cfg_refused = true ∧ t.regsBut s [Reg.TMK_INT_STAT] ∧
          { t with regs := s.regs } = s.answerWith .ok) ∧
      (fieldOf F.TMK_CFG_osc_src w < 2 → (fieldOf F.TMK_CFG_wrap_mode w = s.fld F.TMK_CFG_wrap_mode ∨ s.servo = 0) →
        ∃ t, exec (.tmkCfgWrite ini w) s = .next t ∧ t.reg Reg.TMK_CFG = (w &&& 0x1F) ∧
          (s.tmkEnabled = true → fieldOf F.TMK_CFG_enable w = 0 → t.servo = 0 ∧ t.selState = 0 ∧ t.tmk.sel = none ∧
            (∀ q, q < 3 → t.candState q = 0)) ∧ t.blocksBut s [4, 8, 12, 14] ∧ t.mem = s.mem ∧ t.wall = t.foldTime s.wall)))

/-- R84, R87 and R93 to R98. -/
def Obligations.FramesAreCheckedInOrder : Prop :=
  (∀ (p : Nat) (s : State), p < 3 →
    (s.flag (F.NET_PORT_CFG_enable p) = true → s.netLink p = false → s.powered (22 + p) = true →
      ∃ t, exec (.linkUp p) s = .next t ∧ t.netLink p = true ∧ t.flag (linkFlag p) = true ∧
        (p < 2 → s.flag (F.NET_PORT_CFG_fec_en p) = true → t.flag ⟨Reg.NET_PORT_STATUS, 4 * p + 1, 1⟩ = true) ∧
        (∀ q, q < 3 → q ≠ p → t.netLink q = s.netLink q) ∧ t.net = s.net ∧ t.mem = s.mem ∧ t.blocksBut s [4, 5, 12, 14]) ∧
    (s.netLink p = true →
      ∃ t, exec (.linkDown p) s = .next t ∧ t.netLink p = false ∧ t.flag (linkFlag p) = true ∧ t.stamping p = false ∧
        t.count (0x501000 + 0x100 * p + 8 * 25) = (s.count (0x501000 + 0x100 * p + 8 * 25) + 1) % 2 ^ (counterRow 3 25 p).width ∧
        (∀ q, q < 3 → q ≠ p → t.netLink q = s.netLink q) ∧ t.net = s.net ∧ t.blocksBut s [0, 1, 4, 5, 8, 12, 14])) ∧
  (∀ (p : Nat) (f : List Byte) (ok : Bool) (pcs idle fec bad st : Nat) (s : State),
    (s.netLink p = false ∨ s.flag (F.NET_PORT_CFG_loopback p) = true) → exec (.frameReceived p f ok pcs idle fec bad st) s = .next s) ∧
  (∀ (p c : Nat) (f : List Byte) (ok : Bool) (st : Nat) (s : State), p < 3 → s.netLink p = true → s.flag (F.NET_PORT_CFG_loopback p) = false →
    ((f.length + 4 < 64 ∧ c = 5) ∨
     (64 ≤ f.length + 4 ∧ s.maxFrameAt p st < f.length + 4 ∧ c = 6) ∨
     (64 ≤ f.length + 4 ∧ f.length + 4 ≤ s.maxFrameAt p st ∧ ok = false ∧ c = 7) ∨
     (64 ≤ f.length + 4 ∧ f.length + 4 ≤ s.maxFrameAt p st ∧ ok = true ∧ rxBuffer p < s.rxUsed p + (f.length + 4) ∧ c = 11) ∨
     (64 ≤ f.length + 4 ∧ f.length + 4 ≤ s.maxFrameAt p st ∧ ok = true ∧ s.rxUsed p + (f.length + 4) ≤ rxBuffer p ∧ be f 12 2 = 0x8808 ∧ c = 9) ∨
     (64 ≤ f.length + 4 ∧ f.length + 4 ≤ s.maxFrameAt p st ∧ ok = true ∧ s.rxUsed p + (f.length + 4) ≤ rxBuffer p ∧ be f 12 2 ≠ 0x8808 ∧
       s.addressTaken p f = false ∧ c = 10)) →
    ∃ t, exec (.frameReceived p f ok 0 0 0 0 st) s = .next t ∧
      t.count (0x501000 + 0x100 * p + 8 * c) = (s.count (0x501000 + 0x100 * p + 8 * c) + 1) % 2 ^ 32 ∧
      t.countsBut s [0x501000 + 0x100 * p + 8 * c] ∧ t.regsBut s [Reg.NET_CNT_HALF p] ∧ { t with regs := s.regs, counts := s.counts } = s) ∧
  (∀ (p : Nat) (f : List Byte) (st : Nat) (s : State), p < 3 → s.netLink p = true → s.flag (F.NET_PORT_CFG_loopback p) = false → s.macsecOn p = false →
    64 ≤ f.length + 4 → f.length + 4 ≤ s.maxFrameAt p st → s.rxUsed p + (f.length + 4) ≤ rxBuffer p → be f 12 2 ≠ 0x8808 →
    s.addressTaken p f = true → (parseFrame f (f.length + 4)).mismatch = false → (parseFrame f (f.length + 4)).badIp = false →
    (parseFrame f (f.length + 4)).badUdp = false → (parseFrame f (f.length + 4)).unparsed = false →
    (s.steer f (parseFrame f (f.length + 4)) p = .drop →
      ∃ t, exec (.frameReceived p f true 0 0 0 0 st) s = .next t ∧ t.net = s.net ∧ t.mem = s.mem ∧ t.regsBut s [Reg.NET_CNT_HALF p] ∧
        t.count (0x501000 + 0x100 * p + 8 * 16) = (s.count (0x501000 + 0x100 * p + 8 * 16) + 1) % 2 ^ 32 ∧
        t.countsBut s [0x501000 + 0x100 * p + 8 * 16]) ∧
    (∀ m n dests stream, s.steer f (parseFrame f (f.length + 4)) p = .to m n dests stream false →
      ∃ t, exec (.frameReceived p f true 0 0 0 0 st) s = .next t ∧
        t.net = { s.net with rx := s.net.rx ++ [{ port := p, len := f.length + 4, bytes := f, cls := (parseFrame f (f.length + 4)).cls
                                                  stamp := if s.stamping p then some (shortForm (s.ingressStamp p st)) else none
                                                  stream := stream, mtch := m, num := n, pay := (parseFrame f (f.length + 4)).udp.getD (0, 0), dests := dests, seq := s.net.rxSeq }], rxSeq := s.net.rxSeq + 1 } ∧
        t.count (0x501000 + 0x100 * p) = (s.count (0x501000 + 0x100 * p) + (f.length + 4)) % 2 ^ 64 ∧
        t.count (0x501008 + 0x100 * p) = (s.count (0x501008 + 0x100 * p) + 1) % 2 ^ 48 ∧
        t.wall = (if s.stamping p then (s.reach (s.ingressStamp p st)).wall else s.wall) ∧ t.mem = s.mem ∧ t.regsBut s [Reg.NET_CNT_HALF p]))

/-- R77, R79, R98 to R105 and R108 to R114. -/
def Obligations.FramesAreDeliveredAndSent : Prop :=
  (∀ (d : Nat) (s : State),
    (s.winner d = none → exec (.frameCopyDeliver d) s = .next s) ∧
    (∀ r, s.winner d = some r → d < 16 →
      (∀ slot desc (v w : State) bs, s.taken (0x40 + d) = some (slot, desc, v) → s.unreleased (0x40 + d) < s.ringSize (0x40 + d) →
        rxDescGood desc = true → r.bytes.length ≤ le desc 8 2 →
        v.writeMem 13 (le desc 0 8) r.bytes = (.data bs, w) →
        exec (.frameCopyDeliver d) s = .next ((((w.finish (0x40 + d) slot
          { status := Status.ok, w0 := 2 ^ 8 + 2 ^ 9 + b2n r.stamp.isSome * 2 ^ 10 + r.cls * 2 ^ 11,
            w1 := r.bytes.length + 2 ^ 16 * d + 2 ^ 20 * r.port + 2 ^ 22 * r.mtch + 2 ^ 24 * r.num,
            w2 := r.stamp.getD 0 % 2 ^ 32, w3 := r.stamp.getD 0 / 2 ^ 32 }).pmc 4 (64 + d) 0).modNet fun n =>
          { n with rx := copyGone r d n.rx, lastWin := Sparse.set (fun _ => 2) n.lastWin d r.port }).settled)) ∧
      ((s.waiting (0x40 + d) = 0 ∨ s.unreleased (0x40 + d) = s.ringSize (0x40 + d)) → s.net.settling = [] →
        ∃ t, exec (.frameCopyDeliver d) s = .next t ∧ t.flag F.NET_INT_STAT_no_buffer = true ∧ t.net.rx = copyGone r d s.net.rx ∧
          t.count (0x501300 + 8 * d) = (s.count (0x501300 + 8 * d) + 1) % 2 ^ 32 ∧ t.countsBut s [0x501300 + 8 * d] ∧
          t.regsBut s [Reg.NET_INT_STAT, Reg.NET_CNT_HALF 3] ∧ t.mem = s.mem)) ∧
    (∀ r u refused, s.winner d = some r → 16 ≤ d → d < 20 →
      s.ingest r.port (d - 16) r.stream r.cls (sliceB r.bytes r.pay.1 r.pay.2) r.bytes.length = (refused, u) →
      exec (.frameCopyDeliver d) s = .next (((if refused then (u.bump 4 d).raise F.NET_INT_STAT_anvil_drop else u.pmc 4 (64 + d) 0).modNet fun n =>
        { n with rx := copyGone r d n.rx, lastWin := Sparse.set (fun _ => 2) n.lastWin d r.port }).settled))) ∧
  (∀ (p q at_ : Nat) (h : TxHead) (s : State), p < 3 → q < 8 → s.net.busy.length = 3 → s.macsecOn p = false →
    s.flag (F.NET_PORT_CFG_loopback p) = false → (∀ r, r < 8 → s.waiting (txRing p r) = 0) → (s.txq p q).head = some h → h.ident = none → h.late = false →
    ((s.netLink p = false ∨ s.later (nth s.net.busy p 0) at_ = true) → exec (.txFrameSend p at_) s = .next s) ∧
    (s.netLink p = true → s.later (nth s.net.busy p 0) at_ = false → (∀ r, r < 8 → s.shaped p r = false ∧ (s.txq p r).head.bind (·.launch) = none) →
      (∀ r, r < 8 → q < r → (s.txq p r).head = none) →
      ∃ t, exec (.txFrameSend p at_) s = .next t ∧ t.out = s.out ++ [.frame p h.bytes] ∧ (t.txq p q).head = none ∧
        (∀ r, r < 8 → r ≠ q → (t.txq p r).head = (s.txq p r).head) ∧ t.wall = (s.reach at_).wall ∧
        nth t.net.busy p 0 = at_ + wireTime p (h.bytes.length + 24) ∧ t.net.rx = s.net.rx ∧
        t.count (0x501098 + 0x100 * p) = (s.count (0x501098 + 0x100 * p) + (h.bytes.length + 4)) % 2 ^ 64 ∧
        t.count (0x5010A0 + 0x100 * p) = (s.count (0x5010A0 + 0x100 * p) + 1) % 2 ^ 48 ∧ t.blocksBut s [0, 1, 5, 12, 14]) ∧
    (∀ l x, h.launch = some l → x = (if s.later s.wall (s.rawEgress p l) then s.wall else s.rawEgress p l) → s.netLink p = true → s.shaped p q = false →
      (s.later (nth s.net.busy p 0) x = false → (∀ r, r < 8 → q < r → (s.txq p r).head = none) → (∀ r, r < q → (s.txq p r).head.bind (·.launch) = none) →
        ∃ t, exec (.launchTimeReached p q) s = .next t ∧ t.out = s.out ++ [.frame p h.bytes] ∧ (t.txq p q).head = none ∧
          t.wall = (s.reach x).wall ∧ nth t.net.busy p 0 = x + wireTime p (h.bytes.length + 24) ∧ t.net.rx = s.net.rx ∧
          t.blocksBut s [0, 1, 5, 12, 14]) ∧
      (s.later (nth s.net.busy p 0) x = true → s.flag (F.TMK_PORT_CFG_late_drop p) = true →
        ∃ t, exec (.launchTimeReached p q) s = .next t ∧ t.out = s.out ∧ (t.txq p q).head = none ∧ t.wall = (s.reach x).wall ∧
          t.flag F.TMK_INT_STAT_launch_late = true ∧ nth t.net.busy p 0 = nth s.net.busy p 0 ∧
          t.count (0x5010B8 + 0x100 * p) = (s.count (0x5010B8 + 0x100 * p) + 1) % 2 ^ 32 ∧ t.blocksBut s [0, 1, 4, 5, 12, 14])))

/-- R94 to R96, R120, R121, R123, R124, R590 and R591. -/
def Obligations.NetworkTablesAndCages : Prop :=
  (∀ (s v : State) (slot : Nat) (desc b : List Byte), s.takenBlock 0x38 = some (slot, desc, b, v) →
    (byteAt desc 0 = 1 → byteAt desc 2 < 64 →
      (blkGood true b = true → v.net.rx = [] →
        exec .ruleWrite s = .next (((v.modNet fun n => { n with rules := Sparse.put n.rules (byteAt desc 2) b }).finish 0x38 slot okCpl).settle 0x38)) ∧
      (blkGood true b = true → v.net.rx ≠ [] →
        exec .ruleWrite s = .next (v.modNet fun n => { n with rules := Sparse.put n.rules (byteAt desc 2) b, settling := n.settling ++ [(slot, okCpl, n.rxSeq)] })) ∧
      (blkGood true b = false → exec .ruleWrite s = .next ((v.finish 0x38 slot { status := Status.formatError }).settle 0x38))) ∧
    (byteAt desc 0 = 2 → blkGood false b = true →
      (∀ n, (v.groupByKey b = some n ∨ (v.groupByKey b = none ∧ n < 256 ∧ (∀ g, g ∈ v.net.groups → g.1 = n → blkValid g.2 = false) ∧
          (∀ m, m < n → ∃ g, g ∈ v.net.groups ∧ g.1 = m ∧ blkValid g.2 = true))) →
        (v.net.rx = [] → exec .groupAdd s = .next (((v.modNet fun t => { t with groups := Sparse.put t.groups n b }).finish
          0x38 slot { status := Status.ok, w1 := n }).settle 0x38)) ∧
        (v.net.rx ≠ [] → exec .groupAdd s = .next (v.modNet fun t => { t with
          groups := Sparse.put t.groups n b, settling := t.settling ++ [(slot, { status := Status.ok, w1 := n }, t.rxSeq)] }))) ∧
      (v.groupByKey b = none → (∀ m, m < 256 → ∃ g, g ∈ v.net.groups ∧ g.1 = m ∧ blkValid g.2 = true) →
        exec .groupAdd s = .next ((v.finish 0x38 slot { status := Status.tableFull }).settle 0x38))) ∧
    (byteAt desc 0 = 4 → byteAt desc 1 < 2 → byteAt desc 2 < 4 → byteAt desc 3 / 8 % 16 = 0 →
      (∀ k w, ((byteAt desc 3).testBit 7 = false ∨ v.ninthChannel (byteAt desc 1) (b.take 8) = false) →
        v.keyRequest (byteAt desc 1) (byteAt desc 16) [1] [8 + byteAt desc 1] = (.key k, w) →
        ∃ u : State, exec .saInstall s = .next ((u.finish 0x38 slot okCpl).settle 0x38) ∧ { u with net := w.net, regs := w.regs } = w ∧ u.regsBut w [Reg.NET_INT_STAT] ∧
          u.net.rules = w.net.rules ∧ u.net.groups = w.net.groups ∧ u.net.active = w.net.active ∧ u.net.rx = w.net.rx ∧ u.net.txq = w.net.txq ∧
          ((byteAt desc 3).testBit 7 = false → u.net.rxCh = w.net.rxCh ∧ u.net.txSa = Sparse.put w.net.txSa (4 * byteAt desc 1 + byteAt desc 2)
            ⟨k, sliceB b 20 12, le b 16 4, le b 8 8, le b 8 8⟩) ∧
          ((byteAt desc 3).testBit 7 = true → u.net.txSa = w.net.txSa ∧
            (Sparse.get (fun _ => ({} : NetChan)) u.net.rxCh (8 * byteAt desc 1 + byteAt desc 3 % 8)).sci = b.take 8 ∧
            (byteAt desc 2, (⟨k, sliceB b 20 12, le b 16 4, le b 8 8, le b 8 8⟩ : NetSa)) ∈
              (Sparse.get (fun _ => ({} : NetChan)) u.net.rxCh (8 * byteAt desc 1 + byteAt desc 3 % 8)).sas)) ∧
      (∀ w, (byteAt desc 3).testBit 7 = false → v.keyRequest (byteAt desc 1) (byteAt desc 16) [1] [8 + byteAt desc 1] = (.refused, w) →
        exec .saInstall s = .next ((w.finish 0x38 slot { status := Status.keyRefused }).settle 0x38)))) ∧
  (∀ (s u v : State) (slot : Nat) (desc b : List Byte), s.taken 0x38 = some (slot, desc, u) → u.readBlock 0x38 desc 37 = (.ok b, v) →
    byteAt desc 0 = 3 → blkGood false b = true →
    (∀ n, v.groupByKey b = some n → v.net.rx = [] →
      exec .groupDelete s = .next (((v.modNet fun t => { t with groups := Sparse.del t.groups n }).finish 0x38 slot okCpl).settle 0x38)) ∧
    (∀ n, v.groupByKey b = some n → v.net.rx ≠ [] → exec .groupDelete s =
      .next (v.modNet fun t => { t with groups := Sparse.del t.groups n, settling := t.settling ++ [(slot, okCpl, t.rxSeq)] })) ∧
    (v.groupByKey b = none → exec .groupDelete s = .next ((v.finish 0x38 slot { status := Status.notFound }).settle 0x38))) ∧
  (∀ (s v : State) (slot : Nat) (desc : List Byte), s.taken 0x38 = some (slot, desc, v) → byteAt desc 1 < 2 → byteAt desc 2 < 4 →
    (byteAt desc 0 = 5 → (∃ a, a ∈ v.net.txSa ∧ a.1 = 4 * byteAt desc 1 + byteAt desc 2) →
      exec .saActivateTx s = .next ((((v.modNet fun t => { t with active := Sparse.put t.active (byteAt desc 1) (byteAt desc 2) }).pnCheck (byteAt desc 1)).finish
        0x38 slot okCpl).settle 0x38)) ∧
    (byteAt desc 0 = 5 → (∀ a, a ∈ v.net.txSa → a.1 ≠ 4 * byteAt desc 1 + byteAt desc 2) →
      exec .saActivateTx s = .next ((v.finish 0x38 slot { status := Status.notFound }).settle 0x38)) ∧
    (byteAt desc 0 = 6 → byteAt desc 3 / 8 % 16 = 0 → v.hasSa (byteAt desc 1) (byteAt desc 2) (byteAt desc 3) = true →
      exec .saDelete s = .next (((v.dropSa (byteAt desc 1) (byteAt desc 2) (byteAt desc 3)).finish 0x38 slot okCpl).settle 0x38) ∧
      ((byteAt desc 3).testBit 7 = false → ∀ a, a ∈ (v.dropSa (byteAt desc 1) (byteAt desc 2) (byteAt desc 3)).net.txSa ↔
        a ∈ v.net.txSa ∧ a.1 ≠ 4 * byteAt desc 1 + byteAt desc 2)) ∧
    (byteAt desc 0 = 6 → byteAt desc 3 / 8 % 16 = 0 → v.hasSa (byteAt desc 1) (byteAt desc 2) (byteAt desc 3) = false →
      exec .saDelete s = .next ((v.finish 0x38 slot { status := Status.notFound }).settle 0x38))) ∧
  (∀ (ini c : Nat) (w : Word) (s : State), c < 2 → s.reaches ini (Reg.NET_CAGE_MGMT c) = true →
    (s.flag (F.NET_CAGE_MGMT_go c) = true → exec (.cageMgmtTransfer ini c w) s = .next (s.answerWith .ok)) ∧
    (s.flag (F.NET_CAGE_MGMT_go c) = false → fieldOf (F.NET_CAGE_MGMT_go c) w = 1 →
      ∃ t, exec (.cageMgmtTransfer ini c w) s = .next t ∧ t.flag (F.NET_CAGE_MGMT_go c) = true ∧
        t.out = s.out ++ [.cage c (fieldOf (F.NET_CAGE_MGMT_write c) w == 1) (fieldOf (F.NET_CAGE_MGMT_address c) w) (fieldOf (F.NET_CAGE_MGMT_data c) w)] ∧
        t.fld (F.NET_CAGE_MGMT_address c) = fieldOf (F.NET_CAGE_MGMT_address c) w ∧ t.regsBut s [Reg.NET_CAGE_MGMT c] ∧
        { t with regs := s.regs, out := s.out } = s.answerWith .ok)) ∧
  (∀ (c data : Nat) (ack : Bool) (s : State), c < 2 →
    (s.flag (F.NET_CAGE_MGMT_go c) = true → data < 256 →
      ∃ t, exec (.cageMgmtComplete c ack data) s = .next t ∧ t.flag (F.NET_CAGE_MGMT_go c) = false ∧ t.flag (F.NET_CAGE_MGMT_nack c) = !ack ∧
        t.fld (F.NET_CAGE_MGMT_data c) = (if ack && !s.flag (F.NET_CAGE_MGMT_write c) then data else s.fld (F.NET_CAGE_MGMT_data c)) ∧
        t.regsBut s [Reg.NET_CAGE_MGMT c] ∧ { t with regs := s.regs } = s) ∧
    (s.cageSupplied c = true → ∃ t, exec (.cageOvercurrent c) s = .next t ∧ t.flag (F.NET_CAGE_power_fault c) = true ∧
      t.cageSupplied c = false ∧ t.regsBut s [Reg.NET_CAGE c] ∧ { t with regs := s.regs } = s))

/-- R125 to R127, R138, R144, R154 and R155. -/
def Obligations.CanvasAndStreamsAreSet : Prop :=
  (∀ (s v : State) (slot : Nat) (desc : List Byte), s.taken 0x60 = some (slot, desc, v) →
    (byteAt desc 0 = 1 → (v.anyStarted = true ∨ v.anv.grey = none) → exec .canvasSet s = .next ((v.finish 0x60 slot refusedState).settle 0x60)) ∧
    (∀ op c, (op, c) ∈ [(2, Instr.streamSet), (3, .streamStart), (4, .streamStop)] → byteAt desc 0 = op → 16 ≤ byteAt desc 1 →
      exec c s = .next ((v.finish 0x60 slot (badField 0x81)).settle 0x60)) ∧
    (byteAt desc 0 = 2 → byteAt desc 1 < 16 → v.isStarted (byteAt desc 1) = true →
      exec .streamSet s = .next ((v.finish 0x60 slot refusedState).settle 0x60)) ∧
    (byteAt desc 0 = 3 → byteAt desc 1 < 16 →
      ((v.stream (byteAt desc 1) = none ∨ v.isStarted (byteAt desc 1) = true) →
        exec .streamStart s = .next ((v.finish 0x60 slot refusedState).settle 0x60)) ∧
      (∀ x, v.stream (byteAt desc 1) = some x → v.isStarted (byteAt desc 1) = false →
        (∀ c, v.startRefusal x.block = some c → exec .streamStart s = .next ((v.finish 0x60 slot c).settle 0x60)) ∧
        (v.startRefusal x.block = none →
          ∃ u : State, exec .streamStart s = .next ((u.finish 0x60 slot okCpl).settle 0x60) ∧
            (∀ n, n < 16 → u.isStarted n = (v.isStarted n || decide (n = byteAt desc 1))) ∧
            u.stream (byteAt desc 1) = some { x with started := some v.wall } ∧ (∀ n, n ≠ byteAt desc 1 → u.stream n = v.stream n) ∧
            u.regsBut v [Reg.ANV_INGEST_STATUS, Reg.TWN_STATUS, Reg.TWN_SYNC_WHY, Reg.TWN_INT_STAT] ∧ { u with regs := v.regs, anv := v.anv } = v))) ∧
    (byteAt desc 0 = 4 → byteAt desc 1 < 16 →
      (∀ x, v.stream (byteAt desc 1) = some x → v.isStarted (byteAt desc 1) = false →
        exec .streamStop s = .next ((v.finish 0x60 slot okCpl).settle 0x60)) ∧
      (∀ x g, v.stream (byteAt desc 1) = some x → v.grid = some g → v.isStarted (byteAt desc 1) = true →
        ∃ u : State, exec .streamStop s = .next ((u.finish 0x60 slot okCpl).settle 0x60) ∧
          (∀ n, n < 16 → u.isStarted n = (v.isStarted n && decide (n ≠ byteAt desc 1))) ∧
          u.stream (byteAt desc 1) = some { x with started := none } ∧ (∀ n, n ≠ byteAt desc 1 → u.stream n = v.stream n) ∧
          (∀ f, f ∈ v.anv.frames → v.decision f.k = none → x.takesPart g f.k = true → u.decision f.k = some 8) ∧
          (∀ k d, v.decision k = some d → u.decision k = some d) ∧ u.blocksBut v [1, 6, 8, 12, 14]))) ∧
  (∀ (s v : State) (slot : Nat) (desc b : List Byte), s.takenBlock 0x60 = some (slot, desc, b, v) →
    (∀ g, byteAt desc 0 = 1 → v.anyStarted = false → v.anv.grey = some g →
      (∀ o, canvasBad b = some o → exec .canvasSet s = .next ((v.finish 0x60 slot (badField o)).settle 0x60)) ∧
      (∀ o, canvasBad b = none → canvasGridBad (gridOf b g) = some o → exec .canvasSet s = .next ((v.finish 0x60 slot (badField o)).settle 0x60)) ∧
      (canvasBad b = none → canvasGridBad (gridOf b g) = none →
        ∃ u : State, exec .canvasSet s = .next ((u.finish 0x60 slot okCpl).settle 0x60) ∧ u.anv.canvas = some b ∧ u.anv.grey = some g ∧
          u.anv.frames = [] ∧ u.anv.decisions = [] ∧ u.anv.shownK = none ∧ u.anv.streams = v.anv.streams ∧ u.anv.temper = v.anv.temper ∧
          u.fld F.ANV_INGEST_STATUS_slots_used = 0 ∧ u.fld F.ANV_INGEST_STATUS_show = 0 ∧ u.blocksBut v [6, 8] ∧
          { u with regs := v.regs, anv := v.anv, scn := v.scn } = v)) ∧
    (byteAt desc 0 = 2 → byteAt desc 1 < 16 → v.isStarted (byteAt desc 1) = false →
      (∀ o, streamBad b = some o → exec .streamSet s = .next ((v.finish 0x60 slot (badField o)).settle 0x60)) ∧
      (streamBad b = none → v.kindFits b = false → exec .streamSet s = .next ((v.finish 0x60 slot refusedState).settle 0x60)) ∧
      (streamBad b = none → v.kindFits b = true →
        ∃ u : State, exec .streamSet s = .next ((u.finish 0x60 slot okCpl).settle 0x60) ∧ u.stream (byteAt desc 1) = some { block := b } ∧
          (∀ n, n ≠ byteAt desc 1 → u.stream n = v.stream n) ∧ u.regsBut v [Reg.TWN_STATUS, Reg.TWN_SYNC_WHY, Reg.TWN_INT_STAT] ∧
          { u with anv := v.anv, regs := v.regs } = v ∧ { u.anv with streams := v.anv.streams } = v.anv))) ∧
  (∀ (ini : Nat) (w : Word) (s : State), s.reaches ini Reg.ANV_SLACK_RESET = true → fieldOf F.ANV_SLACK_RESET_reset w = 1 →
    ∃ t, exec (.slackReset ini w) s = .next t ∧ t.reg Reg.ANV_SLACK_MIN = 0x7FFFFFFF ∧ t.regsBut s [Reg.ANV_SLACK_MIN] ∧
      { t with regs := s.regs } = s.answerWith .ok)

/-- R140, R142, R144, R147, R148 and R271. -/
def Obligations.FramesAreDecidedAndPresented : Prop :=
  ∀ (k : Nat) (s : State),
    (s.grid = none → exec (.admissionDeadline k) s = .next s ∧ exec (.presentationTime k) s = .next s) ∧
    (∀ g, s.grid = some g →
      (s.decision k = none → (s.anyStarted = false ∨ s.passedOver g k = true) → ∃ t, exec (.admissionDeadline k) s = .next t ∧
        t.anv = s.anv ∧ t.regs = s.regs ∧ t.mem = s.mem ∧ t.wall = (s.reach (g.wallUp (g.dNum k))).wall) ∧
      (s.decision k = none → s.anyStarted = true → s.passedOver g k = false →
        (s.isStandby = false → ∃ t, exec (.admissionDeadline k) s = .next t ∧ t.frameRec k = none ∧
          t.decision k = some (match s.frameRec k with
            | none => 10
            | some f => if (s.takingPart g k).all (fun x => f.streams.any fun u => u.stream == x.1 && u.taken.any (·.last)) then 2 else 1) ∧
          (∀ j, j ≠ k → t.decision j = s.decision j ∧ t.frameRec j = s.frameRec j) ∧
          (s.frameRec k = none → t.flag F.ANV_INGEST_INT_STAT_absent = true) ∧
          (s.frameRec k ≠ none → t.flag F.ANV_INGEST_INT_STAT_refused = true) ∧
          t.wall = (s.reach (g.wallUp (g.dNum k))).wall ∧ t.blocksBut s [1, 6, 8, 12, 14]) ∧
        (s.isStandby = true → ∃ t, exec (.admissionDeadline k) s = .next t ∧ t.anv = s.anv ∧ t.regs = s.regs ∧ t.mem = s.mem ∧
          t.twn.atDeadline.head? = some (k, if s.frameComplete g k then 0 else s.deadlineCode g k))) ∧
      (∀ d, s.decision k = some d → ∃ t, exec (.admissionDeadline k) s = .next t ∧ t.anv.decisions = s.anv.decisions ∧
        t.anv.frames = s.anv.frames ∧ t.wall = (s.reach (g.wallUp (g.dNum k))).wall ∧ (k ∉ s.anv.deferred → t.regs = s.regs ∧ t.mem = s.mem) ∧
        (k ∈ s.anv.deferred → k ∉ t.anv.deferred) ∧ t.blocksBut s [1, 6, 12, 14]) ∧
      ((∀ j, s.anv.shownK = some j → j < k) →
        ∃ t, exec (.presentationTime k) s = .next t ∧ t.anv.shownK = some k ∧ t.fld F.ANV_INGEST_STATUS_show = s.showAt k ∧
          (s.admitted k = true → s.showAt k = 1) ∧ (s.admitted k = false → s.anyStarted = false → s.showAt k = 0) ∧
          t.reg Reg.ANV_GRID_INDEX_LO = BitVec.ofNat 32 k ∧ t.reg Reg.ANV_GRID_INDEX_HI = BitVec.ofNat 32 (k / 2 ^ 32) ∧
          t.anv.frames = s.anv.frames.filter (fun f => s.showAt k = 2 ∨ (k < f.k ∧ s.anv.litK ≠ some f.k) ∨ (s.showAt k = 1 ∧ f.k = k)) ∧
          (s.showAt k = 1 → t.anv.lit = ((s.frameRec k).map (·.shown)).getD [] ∧ t.anv.litOnce = true) ∧
          (s.showAt k = 0 → t.anv.lit = []) ∧ (s.showAt k = 2 → t.anv.lit = s.anv.lit ∧ t.anv.repeats = s.anv.repeats + 1) ∧
          (s.showAt k = 2 → s.fld F.ANV_INGEST_STATUS_show ≠ 2 → t.flag F.ANV_INGEST_INT_STAT_repeat_begun = true) ∧
          (s.showAt k = 0 → s.fld F.ANV_INGEST_STATUS_show ≠ 0 → t.flag F.ANV_INGEST_INT_STAT_dark_begun = true) ∧
          t.anv.litK = (if s.showAt k = 1 then some k else if s.showAt k = 2 then s.anv.litK else none) ∧
          t.anv.decisions = s.anv.decisions ∧ t.wall = (s.reach (g.pWall k)).wall ∧ t.blocksBut s [1, 6, 8, 12, 14] ∧
          (s.flag F.ANV_AGE_CFG_integrate_en = false → t.mem = s.mem)) ∧
      (∀ j, s.anv.shownK = some j → k ≤ j → exec (.presentationTime k) s = .next s))

/-- R175, R177, R180, R181, R183 to R186, R192 and R212. -/
def Obligations.PipelineTablesAreCommitted : Prop :=
  (∀ (s v : State) (slot : Nat) (desc b : List Byte), s.takenBlock 0x60 = some (slot, desc, b, v) →
    (byteAt desc 0 = 5 → s.anv.commitSlot = none →
      (∀ o, descBad v.rawMode b = some o → exec .temperCommit s = .next ((v.finish 0x60 slot (badField o)).settle 0x60)) ∧
      (descBad v.rawMode b = none → v.planesMove b = true → exec .temperCommit s = .next ((v.finish 0x60 slot refusedState).settle 0x60)) ∧
      (∀ r st w, descBad v.rawMode b = none → v.planesMove b = false → v.readMem 5 (descGlobal b) 0x20000 = (r, w) →
          (r = .error ∧ st = Status.memoryError) ∨ (r = .denied ∧ st = Status.accessDenied) →
        exec .temperCommit s = .next ((w.finish 0x60 slot { status := st }).settle 0x60)) ∧
      (∀ g w, descBad v.rawMode b = none → v.planesMove b = false → v.rawMode = true → v.anvilData (descGlobal b) 0x20000 = some (g, w) →
        (globalGood g = false → exec .temperCommit s = .next ((w.finish 0x60 slot (badField 0)).settle 0x60)) ∧
        (globalGood g = true → curvePoints (tabCurves g) = curvePoints w.bankCurves → (∀ f, f ∈ w.anv.frames → f.temper = none) →
          ∃ u : State, exec .temperCommit s = .next ((u.finish 0x60 slot okCpl).settle 0x60) ∧
            (∃ t, u.anv.temper = some t ∧ t.desc = b ∧ t.global = g ∧ t.places = []) ∧ u.flag F.ANV_PIPE_STATUS_set_active = true ∧
            u.flag F.ANV_PIPE_INT_STAT_commit_done = true ∧ u.flag F.ANV_PIPE_STATUS_commit_busy = false ∧
            u.fld F.ANV_PIPE_STATUS_set_gen = (w.fld F.ANV_PIPE_STATUS_set_gen + 1) % 2 ^ F.ANV_PIPE_STATUS_set_gen.width ∧
            u.regsBut w [Reg.ANV_PIPE_STATUS, Reg.ANV_PIPE_INT_STAT, Reg.TWN_STATUS, Reg.TWN_SYNC_WHY, Reg.TWN_INT_STAT] ∧ u.anv.frames = w.anv.frames ∧
            { u with regs := w.regs, counts := w.counts, anv := w.anv } = w))) ∧
    (byteAt desc 0 = 6 →
      (∀ o, brightBad b = some o → exec .brightness s = .next ((v.finish 0x60 slot (badField o)).settle 0x60)) ∧
      (brightBad b = none → v.isStandby = true → (v.regN Reg.TWN_CLASS_REG).testBit 1 = true →
        exec .brightness s = .next ((v.finish 0x60 slot refusedState).settle 0x60)) ∧
      (brightBad b = none → v.isStandby = false →
        ∃ (u : State) (k0 : Nat), exec .brightness s = .next ((u.finish 0x60 slot okCpl).settle 0x60) ∧ k0 = v.resolveK0 (le b 8 8) ∧
          u = (v.setBright (le b 0 2) (le b 2 2) k0).mirror 1 0 (natLE 4 (le b 0 2) ++ natLE 4 (le b 2 2) ++ natLE 8 k0) ∧
          (∀ k, k < k0 → brightAt u.anv.brights k = brightAt v.anv.brights k) ∧
          (∀ k, k0 + le b 2 2 ≤ k → brightAt u.anv.brights k = le b 0 2) ∧ { u.anv with brights := v.anv.brights } = v.anv ∧
          (v.isActive = false → u.regs = v.regs) ∧ u.bytesKept v ∧ u.blocksBut v [1, 6, 8, 12, 14])) ∧
    (∀ op c on, (op, c, on) ∈ [(7, Instr.deadSet, true), (8, .deadClear, false)] → byteAt desc 0 = op →
      (∀ o, deadBad b = some o → exec c s = .next ((v.finish 0x60 slot (badField o)).settle 0x60)) ∧
      (deadBad b = none → v.isStandby = true → exec c s = .next ((v.finish 0x60 slot refusedState).settle 0x60)) ∧
      (deadBad b = none → v.isStandby = false → v.mem.flips = [] → v.mem.poison = [] → v.flag F.MEM_FLIP_CTRL_arm = false →
        v.memOn 0x102E80000 0x180000 = true →
        ∃ u : State, exec c s = .next ((u.finish 0x60 slot okCpl).settle 0x60) ∧
          (∀ m, m < 12582912 → (u.mem.byte (deadAddr m)).toNat.testBit (m % 8) =
            if 65536 * byteAt b 0 + le b 4 4 ≤ m / 3 ∧ m / 3 < 65536 * byteAt b 0 + le b 4 4 + le b 8 4 ∧ (byteAt b 1).testBit (m % 3) then on
            else (v.mem.byte (deadAddr m)).toNat.testBit (m % 8)) ∧
          (∀ a, (a < 0x102E80000 ∨ 0x103000000 ≤ a) → u.mem.byte a = v.mem.byte a) ∧
          (v.isActive = false → u.regsBut v []) ∧ u.blocksBut v [1, 6, 8, 12, 14] ∧ u.anv = v.anv)) ∧
    (byteAt desc 0 = 0x0B → v.anyStarted = false →
      (∀ o, greyBad v.anv.canvas b = some o → exec .greySet s = .next ((v.finish 0x60 slot (badField o)).settle 0x60)) ∧
      (greyBad v.anv.canvas b = none →
        ∃ u : State, exec .greySet s = .next ((u.finish 0x60 slot okCpl).settle 0x60) ∧ u.anv = { v.anv with grey := some b } ∧
          (u.reg Reg.ANV_GRY_STATUS).getLsbD 0 = true ∧ u.blocksBut v [6, 8] ∧ { u with regs := v.regs, anv := v.anv, scn := v.scn } = v))) ∧
  (∀ (s v : State) (slot : Nat) (desc : List Byte), s.taken 0x60 = some (slot, desc, v) → byteAt desc 0 = 0x0B → v.anyStarted = true →
    exec .greySet s = .next ((v.finish 0x60 slot refusedState).settle 0x60)) ∧
  (∀ (n : Nat) (s : State), s.anv.commitSlot = some n →
    (s.draining = true → exec .temperCommitDrained s = .next s) ∧
    (s.draining = false → ∃ u : State, exec .temperCommitDrained s = .next ((u.finish 0x60 n okCpl).settle 0x60) ∧ u.anv = { s.anv with commitSlot := none } ∧
      u.flag F.ANV_PIPE_STATUS_commit_busy = false ∧ u.flag F.ANV_PIPE_INT_STAT_commit_done = true ∧
      u.regsBut s [Reg.ANV_PIPE_STATUS, Reg.ANV_PIPE_INT_STAT] ∧ { u with regs := s.regs, anv := s.anv } = s)) ∧
  (∀ (t : TemperSet) (s : State), s.anv.temper = some t → s.flag F.ANV_PIPE_STATUS_recode_busy = true →
    ∃ u, exec .recodePassDone s = .next u ∧ u.flag F.ANV_PIPE_STATUS_recode_busy = false ∧ u.flag F.ANV_PIPE_INT_STAT_recode_done = true ∧
      u.anv = s.anv ∧ u.wall = s.wall ∧ u.blocksBut s [1, 6, 12, 14] ∧
      (∀ a, (a < t.age ∨ t.age + 0x1000000 ≤ a) → u.mem.byte a = s.mem.byte a))

/-- R158, R160, R177, R180, R185, R195 to R197 and R204. -/
def Obligations.BandsAreGradedToGreyWords : Prop :=
  ∀ (k port band : Nat) (s : State) (g : Grid) (c grey : List Byte) (f : FrameRec) (t : TemperSet),
    s.grid = some g → s.anv.canvas = some c → s.anv.grey = some grey → s.frameRec k = some f → (f.temper <|> s.anv.temper) = some t →
    (s.mayGrade g c f t port band = false → exec (.bandGraded k port band) s = .next s) ∧
    (s.mayGrade g c f t port band = true →
      ∃ (u : State) (f' : FrameRec), exec (.bandGraded k port band) s = .next u ∧ u.frameRec k = some f' ∧ f'.parts = f.parts ++ [(port, band)] ∧
        f'.temper = some t ∧ (f.temper = none → f'.bright = brightAt s.anv.brights k ∧ u.fld F.ANV_BRIGHT_NOW_bright = brightAt s.anv.brights k % 65536) ∧
        f'.graded.map (·.1) = f.graded.map (·.1) ++ (s.partPixels g c t k port band).flatMap (fun p => [3 * p.n, 3 * p.n + 1, 3 * p.n + 2]) ∧
        (canvasRaw c = true → (port, band) ∉ f.released → ∀ p, p ∈ s.partPixels g c t k port band → ∀ i, i < 3 →
          (3 * p.n + i, min (f'.value (3 * p.n + i)) (greyTop grey)) ∈ f'.shown ∧
          (3 * p.n + i, greyWord grey k (3 * p.n + i) (min (f'.value (3 * p.n + i)) (greyTop grey))) ∈ f'.words) ∧
        (∀ j, j ≠ k → u.frameRec j = s.frameRec j) ∧ u.anv.decisions = s.anv.decisions ∧ u.bytesKept s ∧ u.wall = s.wall ∧
        u.blocksBut s [1, 6, 12, 14])

/-- R176 and R189. -/
def Obligations.CheckpointsKeepTheAge : Prop :=
  (∀ (s v : State) (slot : Nat) (desc : List Byte), s.taken 0x60 = some (slot, desc, v) →
    (byteAt desc 0 = 0x0A → (v.flag F.ANV_PIPE_STATUS_ckpt_busy = true ∨ v.anv.temper = none) →
      exec .ageCkptSave s = .next ((v.finish 0x60 slot refusedState).settle 0x60)) ∧
    (byteAt desc 0 = 9 → s.flag F.ANV_PIPE_STATUS_ckpt_busy = false → (v.anv.temper = none ∨ v.flag F.ANV_AGE_CFG_integrate_en = true) →
      exec .ageCkptLoad s = .next ((v.finish 0x60 slot refusedState).settle 0x60)) ∧
    (∀ op c, (op, c) ∈ [(0x0A, Instr.ageCkptSave), (9, .ageCkptLoad)] → byteAt desc 0 = op → s.flag F.ANV_PIPE_STATUS_ckpt_busy = false →
      v.flag F.ANV_PIPE_STATUS_ckpt_busy = false → v.anv.temper ≠ none → (op = 9 → v.flag F.ANV_AGE_CFG_integrate_en = false) →
      ∃ u, exec c s = .next u ∧ u.flag F.ANV_PIPE_STATUS_ckpt_busy = true ∧ u.anv = { v.anv with ckptOp := if op = 9 then 3 else 2, ckptSlot := some slot } ∧
        u.regsBut v [Reg.ANV_PIPE_STATUS] ∧ { u with regs := v.regs, anv := v.anv } = v)) ∧
  (∀ s : State,
    (s.flag F.ANV_AGE_CFG_ckpt_en = true → s.flag F.ANV_PIPE_STATUS_ckpt_busy = false → s.anv.temper ≠ none →
      ∃ u, exec .ageCheckpointTimer s = .next u ∧ u.flag F.ANV_PIPE_STATUS_ckpt_busy = true ∧ u.anv = { s.anv with ckptOp := 1, ckptSlot := none } ∧
        u.regsBut s [Reg.ANV_PIPE_STATUS] ∧ { u with regs := s.regs, anv := s.anv } = s) ∧
    (s.flag F.ANV_AGE_CFG_ckpt_en = false → exec .ageCheckpointTimer s = .next s) ∧
    (s.flag F.ANV_PIPE_STATUS_ckpt_busy = true → exec .ageCkptLoad s = .next s) ∧
    (∀ t, s.anv.temper = some t → s.flag F.ANV_PIPE_STATUS_ckpt_busy = true →
      ∃ u : State, exec .checkpointComplete s = .next (match s.anv.ckptSlot with
          | some n => (u.finish 0x60 n { status := (if s.anv.ckptOp = 3 then s.ckptLoad t else s.ckptSave t).1 }).settle 0x60
          | none => u) ∧
        u.flag F.ANV_PIPE_STATUS_ckpt_busy = false ∧ u.flag F.ANV_PIPE_INT_STAT_ckpt_done = true ∧
        u.anv = { s.anv with ckptOp := 0, ckptSlot := none } ∧ u.blocksBut s [1, 6, 12, 14] ∧
        (s.anv.ckptOp ≠ 3 → ∀ a, (a < s.ckptAddr 0 ∨ s.ckptAddr 0 + 0x1800000 ≤ a) → u.mem.byte a = s.mem.byte a) ∧
        (s.anv.ckptOp = 3 → ∀ a, (a < t.age ∨ t.age + 0x1000000 ≤ a) → (a < t.int ∨ t.int + 0x3000000 ≤ a) → u.mem.byte a = s.mem.byte a)))

/-- R237, R239, R243 to R247, R250, R251 and R267 to R269. -/
def Obligations.ScanCommandsActOnTheirPorts : Prop :=
  (∀ (s v : State) (slot : Nat) (desc : List Byte), s.taken 0x70 = some (slot, desc, v) →
    (∀ op c, (op, c) ∈ [(1, Instr.chainSet), (2, .portStart), (3, .portStop), (6, .dkAccess), (8, .remeasure)] → byteAt desc 0 = op →
      64 ≤ byteAt desc 1 → exec c s = .next ((v.finish 0x70 slot (badField 0x81)).settle 0x70)) ∧
    (∀ op c, (op, c) ∈ [(4, Instr.quenchSet), (5, .quenchResume), (7, .dkReload)] → byteAt desc 0 = op → 64 ≤ byteAt desc 1 → byteAt desc 1 ≠ 0xFF →
      exec c s = .next ((v.finish 0x70 slot (badField 0x81)).settle 0x70)) ∧
    (∀ op c, (op, c) ∈ [(4, Instr.quenchSet), (5, .quenchResume), (6, .dkAccess), (7, .dkReload), (8, .remeasure)] → byteAt desc 0 = op →
      byteAt desc 1 < 64 → v.isStandby = true → exec c s = .next ((v.finish 0x70 slot refusedState).settle 0x70)) ∧
    (∀ op c, (op, c) ∈ [(6, Instr.dkAccess), (7, .dkReload), (8, .remeasure)] → byteAt desc 0 = op → byteAt desc 1 < 64 →
      v.portLive (byteAt desc 1) = false → exec c s = .next ((v.finish 0x70 slot refusedState).settle 0x70)) ∧
    (∀ p, byteAt desc 1 = p → p < 64 →
      (byteAt desc 0 = 1 → ((v.portState p ≠ 0 ∧ v.portState p ≠ 6) ∨ v.anyStarted = true) →
        exec .chainSet s = .next ((v.finish 0x70 slot refusedState).settle 0x70)) ∧
      (byteAt desc 0 = 2 →
        ((v.chainOf p = none ∨ (v.portState p ≠ 0 ∧ v.portState p ≠ 6) ∨ v.grid = none ∨ v.groupOn p = false ∨
            (v.isStandby = true ∧ v.heldPort p = none)) →
          exec .portStart s = .next ((v.finish 0x70 slot refusedState).settle 0x70)) ∧
        (v.chainOf p ≠ none → (v.portState p = 0 ∨ v.portState p = 6) → v.grid ≠ none → v.groupOn p = true → v.isStandby = false →
          ∃ t, exec .portStart s = .next t ∧ t.portState p = 1 ∧ (t.port p).step = 1 ∧ (t.port p).startSlot = some slot ∧
            t.fld (F.SCN_PORT_STATUS_fault p) = 0 ∧ (t.fld (F.SCN_PORT_QSRC_src p)).testBit 3 = false ∧ t.chainOf p = v.chainOf p ∧
            (∀ q, q ≠ p → t.port q = v.port q) ∧ (v.drives = true → t.out.getLast? = some (.training p)) ∧
            (∀ q, q < 64 → q ≠ p → t.portState q = v.portState q) ∧ t.blocksBut v [0, 1, 7, 8, 12, 14] ∧ t.bytesKept v) ∧
        (∀ w, v.chainOf p ≠ none → (v.portState p = 0 ∨ v.portState p = 6) → v.grid ≠ none → v.groupOn p = true → v.isStandby = true →
          v.heldPort p = some w →
          ∃ t, exec .portStart s = .next t ∧ t.portState p = 3 ∧ (t.port p).step = 4 ∧ (t.port p).dks = w.dks ∧ (t.port p).offsets = w.offsets ∧
            (∀ q, q ≠ p → t.port q = v.port q) ∧ t.blocksBut v [7] ∧ t.mem = v.mem)) ∧
      (byteAt desc 0 = 3 → ∃ u : State, exec .portStop s = .next ((u.finish 0x70 slot okCpl).settle 0x70) ∧ u.portState p = 0 ∧ (u.port p).step = 0 ∧
        (u.port p).requests = [] ∧ u.chainOf p = v.chainOf p ∧ (v.portOpen p = true → v.drives = true → v.chainOf p ≠ none →
          (u.outSince v).any (onClock p [.blank, d21_5, .blank, d21_5, .blank, d21_5]) = true) ∧
        (∀ q, q ≠ p → u.port q = v.port q) ∧ (∀ q, q < 64 → q ≠ p → u.portState q = v.portState q) ∧ u.blocksBut v [0, 1, 7, 8, 12, 14]) ∧
      (byteAt desc 0 = 4 → v.isStandby = false →
        ∃ u : State, exec .quenchSet s = .next ((u.finish 0x70 slot okCpl).settle 0x70) ∧ (u.fld (F.SCN_PORT_QSRC_src p)).testBit 4 = true ∧
          (v.portState p = 4 → (v.fld (F.SCN_PORT_QSRC_src p)).testBit 4 = false → u.portState p = 5 ∧ u.flag F.SCN_INT_STAT_quench = true) ∧
          (v.portState p ≠ 4 → u.portState p = v.portState p) ∧ (∀ q, q ≠ p → u.port q = v.port q) ∧
          (∀ q, q < 64 → q ≠ p → u.portState q = v.portState q) ∧ u.blocksBut v [0, 1, 7, 8, 12, 14]) ∧
      (byteAt desc 0 = 5 → v.isStandby = false →
        ((v.scn.modQ ≠ 0 ∨ v.fld (F.SCN_PORT_QSRC_src p) % 16 ≠ 0) →
          exec .quenchResume s = .next ((v.finish 0x70 slot refusedState).settle 0x70)) ∧
        (v.scn.modQ = 0 → v.fld (F.SCN_PORT_QSRC_src p) % 16 = 0 →
          ∃ u : State, exec .quenchResume s = .next ((u.finish 0x70 slot okCpl).settle 0x70) ∧ (u.fld (F.SCN_PORT_QSRC_src p)).testBit 4 = false ∧
            (u.port p).resume = (v.portState p == 5) ∧ u.portState p = v.portState p ∧ (∀ q, q ≠ p → u.port q = v.port q) ∧
            u.blocksBut v [0, 1, 7, 8, 12, 14] ∧ u.bytesKept v)) ∧
      (byteAt desc 0 = 6 → v.isStandby = false → v.portLive p = true →
        ∀ q : ScnReq, q = { engine := 3, addr := bits (le desc 2 2) 0 9, opcode := if (byteAt desc 5).testBit 0 then 2 else 1, reg := byteAt desc 4
                            data := le desc 6 2, bcast := (le desc 2 2).testBit 9, slot := if (le desc 2 2).testBit 9 then none else some slot } →
          ((le desc 2 2).testBit 9 = true → exec .dkAccess s = .next (((v.offer p [q]).finish 0x70 slot okCpl).settle 0x70)) ∧
          ((le desc 2 2).testBit 9 = false → exec .dkAccess s = .next (v.offer p [q]))) ∧
      (∀ (c : List Byte) (q : ScnReq), v.chainOf p = some c → (v.port p).offers = [] → (v.port p).blanks = 0 → (v.port p).resize = none →
        v.mayRequest p = true → (v.port p).admits q = true → q.engine < 4 → (v.port p).sck.ends + chainTChar c ≤ v.laneFrom p c →
        (v.nextSet p c (v.laneFrom p c)).all (fun b => decide (v.laneFrom p c + 9 * chainTChar c ≤ b)) = true →
        ((v.offer p [q]).outSince v).any (onClock p (.req :: dataChars (reqSet q.addr q.opcode q.reg q.data q.bcast))) = true ∧
          ((v.offer p [q]).port p).requests = (v.port p).requests ++ (if q.replied then [q] else []) ∧ ((v.offer p [q]).port p).offers = [] ∧
          (∀ r, r ≠ p → (v.offer p [q]).port r = v.port r) ∧ (v.offer p [q]).regsBut v [] ∧ (v.offer p [q]).mem = v.mem) ∧
      (byteAt desc 0 = 7 → v.isStandby = false → v.portLive p = true →
        (v.hasImages p = false → exec .dkReload s = .next ((v.finish 0x70 slot okCpl).settle 0x70)) ∧
        (v.hasImages p = true → ∃ t, exec .dkReload s = .next t ∧
          t.port p = { v.port p with imagePos := some 0, imageSlots := (v.port p).imageSlots ++ [slot] } ∧
          (∀ q, q ≠ p → t.port q = v.port q) ∧ { t with scn := v.scn } = v)) ∧
      (byteAt desc 0 = 8 → v.isStandby = false → v.portLive p = true →
        ∃ t, exec .remeasure s = .next t ∧ (t.port p).remSlots = (v.port p).remSlots ++ [slot] ∧ (t.port p).remRt = false ∧ (t.port p).remOff = false ∧
          (t.port p).rts = [] ∧ (((t.port p).offers ++ (t.port p).requests).any fun q => q.opcode == 3 && q.cable) = true ∧
          (∀ q, q ≠ p → t.port q = v.port q) ∧ t.regsBut v [] ∧ t.mem = v.mem)) ∧
    (byteAt desc 0 = 4 → byteAt desc 1 = 0xFF → v.isStandby = false →
      ∃ u : State, exec .quenchSet s = .next ((u.finish 0x70 slot okCpl).settle 0x70) ∧ u.scn.modQ.testBit 2 = true ∧
        (v.scn.modQ = 0 → ∀ q, q < 64 → u.portState q = if v.portState q = 4 then 5 else v.portState q) ∧
        (v.scn.modQ ≠ 0 → ∀ q, q < 64 → u.portState q = v.portState q) ∧ u.blocksBut v [0, 1, 7, 8, 12, 14])) ∧
  (∀ (s v : State) (slot : Nat) (desc b : List Byte), s.takenBlock 0x70 = some (slot, desc, b, v) → byteAt desc 0 = 1 → byteAt desc 1 < 64 →
    (v.portState (byteAt desc 1) = 0 ∨ v.portState (byteAt desc 1) = 6) → v.anyStarted = false →
    (∀ o, v.chainBad b = some o → exec .chainSet s = .next ((v.finish 0x70 slot (badField o)).settle 0x70)) ∧
    (v.chainBad b = none → ∃ u : State, exec .chainSet s = .next ((u.finish 0x70 slot okCpl).settle 0x70) ∧ u.chainOf (byteAt desc 1) = some b ∧
      u.flag (F.SCN_PORT_STATUS_chain_set (byteAt desc 1)) = true ∧ (∀ q, q ≠ byteAt desc 1 → u.port q = v.port q) ∧ u.blocksBut v [6, 7, 8] ∧
      { u with regs := v.regs, scn := v.scn } = v))

/-- R228, R230, R233, R236, R237, R244 and R600. -/
def Obligations.StartsRunThroughTheirSteps : Prop :=
  (∀ (p : Nat) (s : State), p < 64 →
    (s.stepQuiet p = false → exec (.portStartStepDone p) s = .next s) ∧
    ((s.port p).step = 1 → ∃ t, exec (.trainTimeout p) s = .next t ∧ t.portState p = 6 ∧ t.fld (F.SCN_PORT_STATUS_fault p) = 1 ∧ (t.port p).step = 0 ∧
      (t.fld (F.SCN_PORT_QSRC_src p)).testBit 3 = true ∧ t.flag F.SCN_INT_STAT_fault = true ∧
      (∀ q, q ≠ p → t.port q = s.port q) ∧ (∀ q, q < 64 → q ≠ p → t.portState q = s.portState q) ∧ t.blocksBut s [0, 1, 7, 8, 12, 14]) ∧
    (s.stepQuiet p = true →
      (∀ c, (s.port p).step = 1 → s.chainOf p = some c →
        (s.drives = true → ∃ t, exec (.portStartStepDone p) s = .next t ∧ t.portState p = 2 ∧ (t.port p).step = 2 ∧
          (((t.port p).offers ++ (t.port p).requests).any fun q => q.opcode == 4 && q.bcast) = true ∧
          (∀ q, q ≠ p → t.port q = s.port q) ∧ t.regsBut s [Reg.SCN_PORT_STATUS p] ∧ t.mem = s.mem) ∧
        (s.drives = false → exec (.portStartStepDone p) s = .next s)) ∧
      (∀ c, (s.port p).step = 2 → s.chainOf p = some c →
        (s.found p = chainNDk c → ∃ t, exec (.portStartStepDone p) s = .next t ∧ (t.port p).step = 3 ∧ (t.port p).dks.length = chainNDk c ∧
          (∀ q, q ≠ p → t.port q = s.port q) ∧ t.regsBut s [] ∧ t.mem = s.mem) ∧
        (s.found p ≠ chainNDk c → ∃ t, exec (.portStartStepDone p) s = .next t ∧ t.portState p = 6 ∧ t.fld (F.SCN_PORT_STATUS_fault p) = 2 ∧
          (∀ q, q ≠ p → t.port q = s.port q) ∧ t.blocksBut s [0, 1, 7, 8, 12, 14])) ∧
      ((s.port p).step = 3 →
        ((s.port p).dks.all (fun d => d.id == 0xD016 && 2 ≤ d.rev) = true →
          ∃ t, exec (.portStartStepDone p) s = .next t ∧ (t.port p).dks = (s.port p).dks ∧ t.portState p = 3 ∧ (t.port p).step = 4 ∧
            (∀ q, q ≠ p → t.port q = s.port q) ∧ t.blocksBut s [0, 1, 7, 8, 12, 14] ∧ t.bytesKept s) ∧
        ((s.port p).dks.all (fun d => d.id == 0xD016 && 2 ≤ d.rev) = false →
          ∃ t, exec (.portStartStepDone p) s = .next t ∧ t.portState p = 6 ∧ t.fld (F.SCN_PORT_STATUS_fault p) = 3 ∧
            (∀ q, q ≠ p → t.port q = s.port q) ∧ t.blocksBut s [0, 1, 7, 8, 12, 14])) ∧
      (∀ g rts, (s.port p).step = 4 → s.grid = some g → s.isStandby = false →
        rts = (List.range (s.port p).dks.length).map (fun d => Sparse.get (fun _ => 0) (s.port p).rts d) →
        ∃ t, exec (.portStartStepDone p) s = .next t ∧ t.reg (Reg.SCN_PORT_RTT p) = BitVec.ofNat 32 (rts.headD 0) ∧
          (t.port p).delay = (s.port p).cable (rts.headD 0) ∧ (t.port p).offsets = (s.port p).allOffsets rts ∧
          (t.r230 p g ≠ 4 → (t.port p).step = 5 ∧ (t.port p).grid = some g ∧
            t.regsBut s [Reg.SCN_PORT_RTT p, Reg.SCN_PORT_TRIM p, Reg.SCN_PORT_SPAN p] ∧ t.mem = s.mem) ∧
          (t.r230 p g = 4 → t.portState p = 6 ∧ t.fld (F.SCN_PORT_STATUS_fault p) = 4) ∧
          (∀ q, q ≠ p → t.port q = s.port q) ∧ t.blocksBut s [0, 1, 7, 8, 12, 14]) ∧
      (∀ g, (s.port p).step = 5 → s.grid = some g →
        (s.r230 p g = 5 → ∃ t, exec (.portStartStepDone p) s = .next t ∧ t.portState p = 6 ∧ t.fld (F.SCN_PORT_STATUS_fault p) = 5 ∧
          (∀ q, q ≠ p → t.port q = s.port q)) ∧
        (s.r230 p g ≠ 5 → s.isStandby = false → ∃ t, exec (.portStartStepDone p) s = .next t ∧ (t.port p).step = 6 ∧
          ((t.port p).imagePos.isSome = s.hasImages p) ∧ (∀ q, q ≠ p → t.port q = s.port q) ∧ t.regsBut s [] ∧ t.mem = s.mem)) ∧
      (∀ g, (s.port p).step = 6 → s.grid = some g →
        ((s.port p).grid = some g →
          ∃ t, exec (.portStartStepDone p) s = .next t ∧ (t.port p).step = 0 ∧ (t.port p).startSlot = none ∧
            t.portState p = (if s.quenchSrc p = 0 then 4 else 5) ∧ (t.port p).grid = some g ∧ (∀ q, q ≠ p → t.port q = s.port q) ∧
            (∀ q, q < 64 → q ≠ p → t.portState q = s.portState q) ∧ t.blocksBut s [0, 1, 7, 8, 12, 14]) ∧
        ((s.port p).grid ≠ some g →
          ∃ t, exec (.portStartStepDone p) s = .next t ∧ (t.port p).step = 5 ∧ (t.port p).grid = some g ∧
            (∀ q, q ≠ p → t.port q = s.port q) ∧ t.regsBut s [] ∧ t.mem = s.mem)))) ∧
  (∀ (n : Nat) (s : State), s.imagePort = none → exec (.imageChunkRead n) s = .next s) ∧
  (∀ (n p d m used : Nat) (c : List Byte) (s w : State), s.imagePort = some p → s.chainOf p = some c → (s.port p).imagePos = some d →
    s.isStandby = false → used = (if s.scn.imagePeriod = s.imagePeriod then s.scn.imageUsed else 0) → m = min (min n (1024 - used)) (chainNDk c - d) →
    (m = 0 → exec (.imageChunkRead n) s = .next s) ∧
    (0 < m → State.writeImages p (chainImages c) m d
        (s.modScn fun t => { t with imageNext := (p + 1) % 64, imagePeriod := s.imagePeriod, imageUsed := used + m }) = (.data [], w) →
      ∃ t, exec (.imageChunkRead n) s = .next t ∧ t.scn.imageNext = (p + 1) % 64 ∧ t.scn.imageUsed = used + m ∧ s.out <+: t.out ∧
        (t.port p).imagePos = (if d + m < chainNDk c then some (d + m) else none) ∧
        (∀ q, q ≠ p → (t.port q).imagePos = (s.port q).imagePos) ∧ t.blocksBut s [0, 1, 7, 8, 12, 14]))

/-- R203, R205, R214, R219, R221, R222, R226, R227, R235, R238, R246 and R267. -/
def Obligations.LanesCarryTheFrame : Prop :=
  (∀ (p k j : Nat) (s : State) (g : Grid) (c : List Byte), p < 64 → s.portLive p = true → s.drives = true → s.isStandby = false →
    (s.port p).shift = 0 → (s.port p).resize = none → (s.port p).blanks = 0 → (s.port p).offers = [] → (s.port p).newGrid = none →
    (s.port p).grid = some g → s.chainOf p = some c → j < g.nSf →
    (∀ e i l bs, i < g.nPs → l < g.nLine → (i ≠ 0 ∨ l ≠ 0) → e = g.edge k (g.slot j i l) → (s.port p).sck.ends ≤ setEnd c e - 6 * chainTChar c →
      bs = setBytes (e - chainNAnt c * chainTChar c - setEnd c e) l i →
      ∃ t, exec (.lineSet p k j i l) s = .next t ∧
        (t.outSince s).map (clockSet p (setEnd c e) (s.port p).sck.rd (.line :: dataChars (bs ++ [crc8 bs]))) = [true] ∧
        t.wall = (s.reach ((setEnd c e - t.lead p c) * 1024)).wall ∧ t.regsBut s [Reg.SCN_PORT_TRIM p] ∧ (∀ q, q ≠ p → t.port q = s.port q) ∧ t.mem = s.mem) ∧
    (∀ e cmd bs, e = g.edge k (g.slot j 0 0) → (s.port p).sck.ends ≤ setEnd c e - 6 * chainTChar c →
      bs = setBytes (e - chainNAnt c * chainTChar c - setEnd c e) j (j / 256 + 2 * cmd) →
      (((j ≠ 0 ∧ cmd = 0) ∨ (j = 0 ∧ s.portState p = 4 ∧ s.twn.firstShow = none ∧ cmd = s.frameCommand k)) →
        ∃ t, exec (.subfSet p k j) s = .next t ∧
          (t.outSince s).map (clockSet p (setEnd c e) (s.port p).sck.rd (.subf :: dataChars (bs ++ [crc8 bs]))) = [true] ∧ (t.port p).subf = (k, j) ∧
          t.wall = (s.reach ((setEnd c e - t.lead p c) * 1024)).wall ∧ t.regsBut s [Reg.SCN_PORT_TRIM p] ∧ (∀ q, q ≠ p → t.port q = s.port q) ∧ t.mem = s.mem) ∧
      (j = 0 → s.portState p = 5 → (s.port p).resume = false → cmd = 3 →
        ∃ t, exec (.subfSet p k j) s = .next t ∧
          (((t.outSince s).head?.map (clockSet p (setEnd c e) (s.port p).sck.rd (.subf :: dataChars (bs ++ [crc8 bs])))) = some true) ∧
          (t.outSince s).tail.all (onClock p [.blank, d21_5]) = true ∧ (t.outSince s).length + (t.port p).blanks = 4 ∧
          t.portState p = 5 ∧ t.regsBut s [Reg.SCN_PORT_TRIM p] ∧ (∀ q, q ≠ p → t.port q = s.port q) ∧ t.mem = s.mem)) ∧
    (j = 0 → s.portState p = 5 → (s.port p).resume = true → s.frameCommand k = 1 → s.quenchSrc p = 0 →
      ∃ t, exec (.subfSet p k j) s = .next t ∧ t.portState p = 4 ∧ (t.port p).resume = false ∧ t.blocksBut s [0, 1, 7, 8, 12, 14])) ∧
  (∀ (p k at_ : Nat) (g : Grid) (s : State), p < 64 → s.portLive p = true → s.chainOf p ≠ none → (s.port p).newGrid = some (g, at_) → (s.port p).armed = true → at_ ≤ k →
    (s.r230 p g = 0 → ∃ t, exec (.subfSet p k 0) s = .next t ∧ (t.port p).grid = some g ∧ (t.port p).newGrid = none ∧ (t.port p).armed = false) ∧
    (s.r230 p g ≠ 0 → ∃ t, exec (.subfSet p k 0) s = .next t ∧ t.portState p = 6 ∧ t.fld (F.SCN_PORT_STATUS_fault p) = s.r230 p g)) ∧
  (∀ (p n begin : Nat) (f : FrameRec) (c b : List Byte) (words : List Nat) (g : Grid) (s : State), p < 64 → s.portLive p = true →
    s.nextCell p = some (f, n, b, words, g) → s.chainOf p = some c → begin = max (s.laneFrom p c) (s.port p).sdt.ends →
    (s.drives = true → s.sdtPassed p begin c = false → ∃ t, exec (.loadCellSend p) s = .next t ∧
      (t.outSince s).map (dataCell p (begin + (b.length + 2) * chainTChar c) (s.port p).sdt.rd ((if n = 0 then .first else .next) :: dataChars (b ++ [crc8 b]))) = [true] ∧
      (t.port p).loadK = some f.k ∧ (t.port p).cell = n + 1 ∧ (∀ q, q ≠ p → t.port q = s.port q) ∧ t.regsBut s [] ∧ t.mem = s.mem ∧ t.anv = s.anv) ∧
    (s.isStandby = true → ∃ t, exec (.standbyCellObserved p) s = .next t ∧ t.port p = { s.port p with loadK := some f.k, cell := n + 1 } ∧
      (∀ q, q ≠ p → t.port q = s.port q) ∧ { t with scn := s.scn } = s)) ∧
  (∀ (k p : Nat) (s : State), p < 64 → ∃ t, exec (.gridChangeApply k) s = .next t ∧ t.portState p = s.portState p ∧ (t.port p).grid = (s.port p).grid ∧
    t.regsBut s [] ∧ t.mem = s.mem ∧ (s.isStandby = true → t.out = s.out) ∧
    ((s.portLive p = false ∨ (s.port p).armed = true ∨ (s.port p).newGrid.all (fun x => decide (x.2 ≠ k)) = true) → t.port p = s.port p) ∧
    (s.portLive p = true → (s.port p).armed = false → (s.port p).newGrid.any (fun x => decide (x.2 = k)) = true → (s.port p).grid ≠ none → s.chainOf p ≠ none →
      (t.port p).armed = true ∧ (t.port p).newGrid = (s.port p).newGrid ∧ (s.isStandby = false → applyAll ∈ (t.port p).offers)))

/-- R81, R218, R224, R232 to R234, R241 to R243, R245, R246, R248 to R250 and R369. -/
def Obligations.ReturnLaneAnswersAndAlerts : Prop :=
  ∀ (p : Nat) (s : State), p < 64 →
    (s.flag F.SCN_CFG_poll_en = true → s.portLive p = true → s.isStandby = false → (s.port p).pollPos < 3 * s.found p →
      (s.port p).offers.any (fun q => q.engine == 0) = false →
      ∃ t, exec (.pollRequest p) s = .next t ∧ (t.port p).pollPos = (s.port p).pollPos + 1 ∧
        ({ engine := 0, addr := (s.port p).pollPos / 3, opcode := 1, reg := 8 + (s.port p).pollPos % 3, data := 0 } : ScnReq) ∈
          (t.port p).offers ++ (t.port p).requests ∧ (∀ q, q ≠ p → t.port q = s.port q) ∧ t.regsBut s [] ∧ t.mem = s.mem) ∧
    (∀ (d : Nat) (q : ScnReq), (s.port p).requests.find? (fun r => r.addr == d) = some q →
      (s.isStandby = false → (q.tries < 2 ∨ (q.slot = none ∧ (s.port p).step ≠ 2 ∧ (s.port p).step ≠ 3)) →
        ∃ t, exec (.requestTimeout p d) s = .next t ∧ { q with tries := q.tries + 1 } ∈ (t.port p).offers ++ (t.port p).requests ∧
          (Sparse.get (fun _ => 0) (s.port p).missed d = 2 → (t.fld (F.SCN_PORT_QSRC_src p)).testBit 2 = true) ∧
          (∀ r, r ≠ p → t.port r = s.port r) ∧ t.blocksBut s [0, 1, 7, 8, 12, 14]) ∧
      (∀ n, s.isStandby = false → 2 ≤ q.tries → q.slot = some n →
        ∃ u : State, exec (.requestTimeout p d) s = .next ((u.finish 0x70 n { status := Status.timeout }).pump p) ∧
          (∀ r, r ≠ p → u.port r = s.port r) ∧ u.blocksBut s [0, 1, 7, 8, 12, 14]) ∧
      (s.isStandby = true → q.slot = none → ∃ t, exec (.requestTimeout p d) s = .next t ∧ (t.port p).requests = (s.port p).requests.erase q ∧
        (t.port p).offers = (s.port p).offers ∧ t.portState p = s.portState p ∧ (∀ r, r ≠ p → t.port r = s.port r) ∧ t.regsBut s [])) ∧
    (s.portLive p = false → exec (.cableRemeasure p) s = .next s ∧ exec (.chainOffsetMeasure p) s = .next s) ∧
    (s.portLive p = true → s.isStandby = false →
      (∃ t, exec (.cableRemeasure p) s = .next t ∧ ((t.port p).offers ++ (t.port p).requests).any (·.cable) = true ∧
        (∀ q, q ≠ p → t.port q = s.port q) ∧ t.regsBut s [] ∧ t.mem = s.mem) ∧
      (∃ t, exec (.chainOffsetMeasure p) s = .next t ∧ (t.port p).rts = [] ∧
        (∀ d, d < (s.port p).dks.length → echoReq d false ∈ (t.port p).offers ++ (t.port p).requests) ∧
        (∀ q, q ≠ p → t.port q = s.port q) ∧ t.regsBut s [] ∧ t.mem = s.mem)) ∧
    (s.portLive p = true → s.isStandby = true → ∀ c, c ∈ [Instr.cableRemeasure p, .chainOffsetMeasure p] →
      ∃ t, exec c s = .next t ∧ (t.port p).remSlots = [] ∧ (∀ q, q ≠ p → t.port q = s.port q) ∧ t.blocksBut s [0, 1, 12, 14]) ∧
    (∀ (d ch line temp status reg data rt opcode : Nat) (held : Bool) (bad : Bool) (c : Instr),
      c ∈ [Instr.open p d ch line bad, .short p d ch line bad, .shutdown p d temp bad, .damaged p d bad, .lostInput p d bad, .regLost p d ch line bad,
        .repReceived p d status held opcode reg data rt bad] →
      (s.hears p = false → exec c s = .next s) ∧
      (s.hears p = true → bad = true → ∃ t, exec c s = .next t ∧
        t.count (0x702020 + 0x100 * p) = satU (counterRow 9 4 p).width (s.count (0x702020 + 0x100 * p) + 1) ∧ t.countsBut s [0x702020 + 0x100 * p] ∧
        t.regsBut s [] ∧ { t with regs := s.regs, counts := s.counts } = s)) ∧
    (s.hears p = true →
      (∀ (d status reg data rt opcode n : Nat) (held : Bool) (q : ScnReq) (u : State),
        (s.port p).requests.find? (fun q => q.answeredBy d opcode reg) = some q → q.slot = some n →
        u = s.modPort p (fun r => { r with requests := r.requests.erase q, missed := Sparse.del r.missed d }) →
        exec (.repReceived p d status held opcode reg data rt false) s = .next (((u.finish 0x70 n
          (if status = 0 then { status := Status.ok, w1 := 65536 * data }
           else if status = 3 then { status := Status.formatError, w1 := 0x86 + 65536 * data }
           else { status := Status.formatError, w1 := 0x84 + 65536 * data })).imagesDone p).pump p)) ∧
      (∀ (d status reg data rt : Nat) (q : ScnReq), (s.port p).requests.find? (fun q => q.answeredBy d 3 reg) = some q → q.slot = none → q.opcode = 3 → rt < 2 ^ 32 →
        (∃ t, exec (.repReceived p d status true 3 reg data rt false) s = .next t ∧ t.regN (Reg.SCN_PORT_RTT p) = s.regN (Reg.SCN_PORT_RTT p) ∧
          (t.port p).offsets = (s.port p).offsets ∧ q ∈ (t.port p).offers ++ (t.port p).requests ∧ (∀ r, r ≠ p → t.port r = s.port r)) ∧
        (q.cable = true → ((s.regN (Reg.SCN_PORT_RTT p) : Int) - rt).natAbs ≤ 32 →
          ∃ t, exec (.repReceived p d status false 3 reg data rt false) s = .next t ∧ t.regN (Reg.SCN_PORT_RTT p) = rt ∧
            (t.port p).delay = (s.port p).cable rt ∧ (t.port p).rtCand = none ∧ (∀ r, r ≠ p → t.port r = s.port r) ∧ t.blocksBut s [0, 1, 7, 8, 12, 14]) ∧
        (q.cable = true → 32 < ((s.regN (Reg.SCN_PORT_RTT p) : Int) - rt).natAbs → (s.port p).rtCand = none →
          ∃ t, exec (.repReceived p d status false 3 reg data rt false) s = .next t ∧ t.regN (Reg.SCN_PORT_RTT p) = s.regN (Reg.SCN_PORT_RTT p) ∧
            (t.port p).rtCand = some rt ∧ t.flag F.SCN_INT_STAT_rt_discarded = true ∧ (∀ r, r ≠ p → t.port r = s.port r) ∧ t.blocksBut s [0, 1, 7, 8, 12, 14]) ∧
        (∀ rts, q.cable = false → (s.port p).step = 0 → (Sparse.put (s.port p).rts d rt).length = (s.port p).dks.length →
          rts = (List.range (s.port p).dks.length).map (fun i => Sparse.get (fun _ => 0) (Sparse.put (s.port p).rts d rt) i) →
          ∃ t, exec (.repReceived p d status false 3 reg data rt false) s = .next t ∧ (t.port p).offsets = (s.port p).allOffsets rts ∧
            t.fld (F.SCN_PORT_SPAN_span p) = satU 16 (((s.port p).allOffsets rts).getLast?.getD 0).toNat ∧ (∀ r, r ≠ p → t.port r = s.port r) ∧
            t.blocksBut s [0, 1, 7, 8, 12, 14])) ∧
      (∀ (d ch line : Nat) (k : Nat) (c : Instr), (k, c) ∈ [(1, Instr.open p d ch line false), (2, .short p d ch line false)] → s.chainOf p ≠ none →
        ∃ t, exec c s = .next t ∧ t.flag F.SCN_INT_STAT_alert = true ∧ t.portState p = s.portState p ∧
          t.count (0x702038 + 8 * k + 0x100 * p) = satU (counterRow 9 (7 + k) p).width (s.count (0x702038 + 8 * k + 0x100 * p) + 1) ∧
          t.flag ⟨if p < 32 then Reg.SCN_EVT_LO else Reg.SCN_EVT_HI, p % 32, 1⟩ = true ∧
          (∀ b, s.chainOf p = some b → 16 * (chainNDk b * line + d) + ch < 3 * chainPixels b → ch < 16 → 3 * chainPixels b ≤ 196608 → s.mem.flips = [] → s.mem.poison = [] →
            s.flag F.MEM_FLIP_CTRL_arm = false → s.rptEnabled Reg.SCN_RPT_BASE_LO = false → (∀ a r, s.judge 12 a 1 r = none) → s.memOn 0x102E80000 0x180000 = true →
            (t.mem.byte (deadAddr (196608 * p + (16 * (chainNDk b * line + d) + ch)))).toNat.testBit ((196608 * p + (16 * (chainNDk b * line + d) + ch)) % 8) = true) ∧
          (∀ q, q ≠ p → t.port q = s.port q) ∧ t.blocksBut s [0, 1, 6, 7, 12, 14]) ∧
      (∀ d temp, ∃ t, exec (.shutdown p d temp false) s = .next t ∧ t.flag F.SCN_INT_STAT_alert = true ∧ (t.fld (F.SCN_PORT_QSRC_src p)).testBit 0 = true ∧
        (s.portState p = 4 → (s.fld (F.SCN_PORT_QSRC_src p)).testBit 0 = false → t.portState p = 5) ∧ (∀ q, q ≠ p → t.port q = s.port q) ∧ t.blocksBut s [0, 1, 7, 8, 12, 14]) ∧
      (∀ d c, c = Instr.damaged p d false ∨ c = Instr.lostInput p d false → ∃ t, exec c s = .next t ∧ t.flag F.SCN_INT_STAT_alert = true ∧
        t.portState p = s.portState p ∧ t.fld (F.SCN_PORT_QSRC_src p) = s.fld (F.SCN_PORT_QSRC_src p) ∧ (∀ q, q ≠ p → t.port q = s.port q) ∧ t.blocksBut s [0, 1, 7, 12, 14]) ∧
      (∀ d ch line, ∃ t, exec (.regLost p d ch line false) s = .next t ∧ t.flag F.SCN_INT_STAT_alert = true ∧ t.portState p = s.portState p ∧
        (∀ q, q ≠ p → t.port q = s.port q) ∧ t.blocksBut s [0, 1, 2, 7, 12, 14]) ∧
      (∀ (d ch line g : Nat) (r : Rail), (s.chainOf p).bind (chainGroup · d) = some g → s.rail g = some r → railMode r.block = 2 → s.steersRails = true → r.fine / 100 < 65536 →
        ∃ t, exec (.regLost p d ch line false) s = .next t ∧ t.flag F.BLW_INT_STAT_reg_lost = true ∧
          t.railTarget g = min (railMax r.block) (r.fine / 100 + railRegain r.block) % 65536)) ∧
    (s.portOpen p = true → s.portState p ≠ 1 → (s.fld (F.SCN_PORT_QSRC_src p)).testBit 1 = false → ∃ t, exec (.returnLaneLost p) s = .next t ∧
      (t.fld (F.SCN_PORT_QSRC_src p)).testBit 1 = true ∧ t.portState p = (if s.portState p = 4 then 5 else s.portState p) ∧
      (∀ q, q ≠ p → t.port q = s.port q) ∧ t.blocksBut s [0, 1, 7, 8, 12, 14]) ∧
    (∃ t, exec (.returnLaneRelocked p) s = .next t ∧ (t.fld (F.SCN_PORT_QSRC_src p)).testBit 1 = false ∧ t.portState p = s.portState p ∧
      t.regsBut s [Reg.SCN_PORT_QSRC p] ∧ { t with regs := s.regs } = s) ∧
    (∃ t, exec (.moduleQuench true) s = .next t ∧ t.scn.modQ.testBit 4 = true ∧
      (s.scn.modQ = 0 → s.portState p = 4 → t.portState p = 5) ∧ t.blocksBut s [0, 1, 7, 8, 12, 14]) ∧
    (∃ t, exec (.moduleQuench false) s = .next t ∧ t.scn.modQ.testBit 4 = false ∧ (∀ i, i ≠ 4 → t.scn.modQ.testBit i = s.scn.modQ.testBit i) ∧
      t.portState p = s.portState p ∧ t.blocksBut s [0, 1, 8, 12, 14])

/-- R255 to R260, R270 to R277. -/
def Obligations.TwinLinkCarriesItsFrames : Prop :=
  (∀ s : State,
    (s.flag F.TWN_STATUS_link_up = false → exec .twinLinkTimeout s = .next s ∧ exec (.twinLinkTrained false) s = .next s) ∧
    (s.powered 25 = false → exec (.twinLinkTrained true) s = .next s) ∧
    (∀ c, c = Instr.twinLinkTimeout ∨ (c = .twinLinkTrained false ∧ s.powered 25 = true) → s.flag F.TWN_STATUS_link_up = true →
      ∃ t, exec c s = .next t ∧ t.flag F.TWN_STATUS_link_up = false ∧ t.flag F.TWN_STATUS_auth_ok = false ∧ t.twn.key = none ∧ t.twn.queue = [] ∧
        t.flag F.TWN_INT_STAT_link_down = true ∧ (s.role ≠ 0 → t.flag F.TWN_STATUS_synced = false) ∧ t.twn.passSlot = none ∧ t.blocksBut s [0, 1, 8, 12, 14] ∧
        (s.twn.passSlot = none → t.regsBut s [Reg.TWN_STATUS, Reg.TWN_INT_STAT, Reg.TWN_SYNC_WHY] ∧ { t with regs := s.regs, counts := s.counts, twn := s.twn } = s)) ∧
    (s.powered 25 = true → s.flag F.TWN_STATUS_link_up = true → exec (.twinLinkTrained true) s = exec (.twinLinkTrained true) s.linkLost) ∧
    (s.powered 25 = true → s.flag F.TWN_STATUS_link_up = false →
      (s.flag F.KEY_STATUS_rng_ok = false → ∃ t, exec (.twinLinkTrained true) s = .next t ∧ t.twn.nonce = [] ∧ t.twn.key = none ∧ { t with twn := s.twn } = s) ∧
      (s.flag F.KEY_STATUS_rng_ok = true → s.twn.queue = [] → nth s.twn.laneFree s.twn.lane 0 ≤ s.linkNow →
        ∃ t, exec (.twinLinkTrained true) s = .next t ∧ t.twn.nonce.length = 16 ∧ t.twn.key = none ∧ t.twn.txSeq = 1 ∧ t.twn.rxSeq = 0 ∧
          t.out = s.out ++ [.twin s.twn.lane (natLE 1 1 ++ natLE 1 (b2n s.isActive) ++ natLE 2 28 ++ natLE 8 1 ++ t.twn.nonce ++ natLE 2 0x4810 ++
            natLE 1 (b2n s.slotB) ++ natLE 1 s.role ++ natLE 8 s.digest)] ∧ t.regsBut s [] ∧ t.mem = s.mem))) ∧
  (∀ (f : List Byte) (s : State),
    (s.powered 25 = false ∨ byteAt f 0 ≠ 1 ∨ (linkPayload f).length ≠ 28 ∨ s.twn.nonce = [] → exec (.hello f) s = .next s) ∧
    (s.powered 25 = true → byteAt f 0 = 1 → (linkPayload f).length = 28 → s.twn.nonce ≠ [] →
      (s.twn.key ≠ none → exec (.hello f) s = .next (s.linkAccept 1 f).2) ∧
      (∀ k u, s.twn.key = none → s.keyRequest 2 (s.fld F.TWN_CFG_key_slot) [1] [10] = (.key k, u) →
        ∃ t, exec (.hello f) s = .next t ∧ t.twn.key = some (u.sessionKey k ((linkPayload f).take 16)) ∧ t.twn.rxSeq = le f 4 8 ∧
          t.flag F.TWN_STATUS_link_up = true ∧ t.flag F.TWN_STATUS_auth_ok = true ∧
          t.twn.peer = some { role := byteAt (linkPayload f) 19 } ∧ t.peerDigest = le (linkPayload f) 20 8 ∧
          (u.isStandby = true → byteAt (linkPayload f) 19 = 2 → 3 ∈ t.twn.joining ∧ 4 ∈ t.twn.joining) ∧
          t.blocksBut u [1, 8, 12, 14] ∧ t.bytesKept u ∧ u.out <+: t.out) ∧
      (∀ a u, s.twn.key = none → s.keyRequest 2 (s.fld F.TWN_CFG_key_slot) [1] [10] = (a, u) → (a = .refused ∨ a = .memoryError) →
        ∃ t, exec (.hello f) s = .next t ∧ t.flag F.TWN_INT_STAT_auth_fail = true ∧ t.flag F.TWN_STATUS_link_up = u.flag F.TWN_STATUS_link_up ∧
          t.regsBut u [Reg.TWN_INT_STAT] ∧ { t with regs := u.regs, counts := u.counts } = u))) ∧
  (∀ (f : List Byte) (stamp far lines n : Nat) (c : Instr) (s : State), lines ≠ 1 →
    (n, c) ∈ [(2, Instr.heartbeat f lines), (3, .timecmp f stamp far), (4, .decision f), (5, .mirror f), (6, .handoff f), (7, .ack f), (8, .digest f)] →
    (s.twn.key = none ∨ s.powered 25 = false ∨ byteAt f 0 ≠ n → exec c s = .next s) ∧
    (∀ key, s.twn.key = some key → s.powered 25 = true → byteAt f 0 = n →
      (f.drop (12 + le f 2 2) ≠ linkTag key (!s.slotB) (le f 4 8) (f.take (12 + le f 2 2)) →
        ∃ t, exec c s = .next t ∧ t.flag F.TWN_INT_STAT_auth_fail = true ∧ t.regsBut s [Reg.TWN_INT_STAT] ∧
          { t with regs := s.regs, counts := s.counts } = s) ∧
      (f.drop (12 + le f 2 2) = linkTag key (!s.slotB) (le f 4 8) (f.take (12 + le f 2 2)) → le f 4 8 ≤ s.twn.rxSeq →
        ∃ t, exec c s = .next t ∧ t.regsBut s [] ∧ { t with regs := s.regs, counts := s.counts } = s) ∧
      (f.drop (12 + le f 2 2) = linkTag key (!s.slotB) (le f 4 8) (f.take (12 + le f 2 2)) → s.twn.rxSeq < le f 4 8 →
        ∃ u, s.linkAccept n f = (some (linkPayload f), u) ∧ u.twn = { s.twn with rxSeq := le f 4 8 } ∧ u.regsBut s [] ∧
          { u with regs := s.regs, counts := s.counts, twn := s.twn } = s))) ∧
  (∀ (n : Nat) (p : List Byte) (s : State), (s.linkUp = false → s.linkSend n p = s) ∧
    (∀ key, n ≠ 1 → s.linkReady n = true → s.twn.key = some key →
      (s.linkSend n p).out = s.out ++ [.twin (if n = 3 then 0 else s.twn.lane)
        (s.linkHeader n p.length ++ p ++ linkTag key s.slotB (s.twn.txSeq + 1) (s.linkHeader n p.length ++ p))] ∧
      (s.linkSend n p).twn.txSeq = s.twn.txSeq + 1 ∧ (s.linkSend n p).twn.lane = (if n = 3 then s.twn.lane else 1 - s.twn.lane) ∧
      (s.linkSend n p).twn.laneFree = s.twn.laneFree.set (if n = 3 then 0 else s.twn.lane) (s.linkNow + 4 * (p.length + 28)) ∧ (s.linkSend n p).twn.queue = [] ∧
      (s.linkSend n p).regsBut s [] ∧ (s.linkSend n p).mem = s.mem) ∧
    (s.linkUp = true → s.linkNow < nth s.twn.laneFree 0 0 → s.linkNow < nth s.twn.laneFree s.twn.lane 0 →
      s.linkSend n p = s.modTwn fun t => { t with queue := t.queue ++ [{ level := linkLevel n, work := .frame n p }] }) ∧
    (∀ j, s.linkNext = some j → (∀ i ∈ s.twn.queue, i.cls < 16) →
      j ∈ s.twn.queue ∧ s.levelFree j.level = true ∧ ∀ i ∈ s.twn.queue, s.levelFree i.level = true → j.level ≤ i.level)) ∧
  (∀ (f b : List Byte) (lines : Nat) (s u : State), (if lines = 1 ∧ s.powered 25 = true then s.seePeerClaim 1 else s).linkAccept 2 f = (some b, u) →
    ∃ t, exec (.heartbeat f lines) s = .next t ∧
      t.twn.peer = some { role := byteAt b 0, health := byteAt b 1, servo := byteAt b 2, domain := byteAt b 3, syncWhy := le b 4 2
                          claim := byteAt b 6, shown := le b 8 8 } ∧
      (lines = 1 → s.powered 25 = true → t.flag F.TWN_STATUS_peer_claim = true) ∧
      (lines ≠ 1 → t.flag F.TWN_STATUS_peer_claim = s.flag F.TWN_STATUS_peer_claim) ∧
      (s.role ≠ 0 → t.regN Reg.TWN_SYNC_WHY = t.syncWhy ∧ t.flag F.TWN_STATUS_synced = (t.syncWhy == 0)) ∧ t.role = s.role ∧
      t.blocksBut s [1, 8, 12, 14] ∧ t.bytesKept s) ∧
  (∀ s : State, exec .heartbeatSend s = .next (s.linkSend 2 (natLE 1 s.role ++ natLE 1 s.healthWhy ++ natLE 1 (s.fld F.TMK_STATUS_servo_state) ++
      natLE 1 (s.fld F.TMK_PTP_CFG_domain) ++ natLE 2 s.syncWhy ++ natLE 1 (s.fld F.TWN_STATUS_own_claim) ++ [0] ++ natLE 8 (s.anv.shownK.getD 0))) ∧
    (s.isStandby = false ∨ s.linkUp = false → exec .timecmpSend s = .next s) ∧
    (∀ key, s.isStandby = true → s.linkReady 3 = true → s.twn.key = some key → ∃ t, exec .timecmpSend s = .next t ∧
      t.out = s.out ++ [.twin 0 (s.linkHeader 3 24 ++ zeros 8 ++ natLE 8 (shortForm (padStamp s.wall)) ++ zeros 8 ++
        linkTag key s.slotB (s.twn.txSeq + 1) (s.linkHeader 3 24 ++ zeros 8 ++ natLE 8 (shortForm (padStamp s.wall)) ++ zeros 8))] ∧
      t.twn.sentAt = some (padStamp s.wall) ∧ t.regsBut s [] ∧ t.mem = s.mem)) ∧
  (∀ (f b : List Byte) (stamp far : Nat) (s u : State), s.linkAccept 3 f = (some b, u) →
    (byteAt b 0 = 0 → u.isActive = true →
      exec (.timecmp f stamp far) s = .next (u.linkSend 3 (natLE 8 1 ++ sliceB b 8 8 ++ natLE 8 (shortForm (padStamp stamp))))) ∧
    (byteAt b 0 = 0 → u.isActive = false → exec (.timecmp f stamp far) s = .next u) ∧
    (byteAt b 0 ≠ 0 → (u.isStandby = false ∨ u.twn.sentAt = none ∨ u.fromShort (le b 16 8) = none) →
      exec (.timecmp f stamp far) s = .next u) ∧
    (∀ t1 t2, byteAt b 0 ≠ 0 → u.isStandby = true → u.twn.sentAt = some t1 → u.fromShort (le b 16 8) = some t2 →
      ∃ t, exec (.timecmp f stamp far) s = .next t ∧ t.twn.sentAt = none ∧ t.reg Reg.TWN_DELTA = Config.twinDelta t.twn.deltas ∧
        t.twn.deltas = ((u.wallDiff (padStamp stamp) (padStamp far) - u.wallDiff t2 t1) / 1024 :: u.twn.deltas).take 16 ∧
        t.blocksBut s [8, 14] ∧ { t with regs := s.regs, counts := s.counts, twn := s.twn } = s)) ∧
  (∀ (f b : List Byte) (s u : State), s.linkAccept 4 f = (some b, u) →
    (u.isStandby = false → exec (.decision f) s = .next u) ∧
    (∀ own, u.isStandby = true → u.decision (le b 0 8) = some own →
      ∃ t, exec (.decision f) s = .next t ∧ t.twn.decisions = (le b 0 8, byteAt b 8) :: u.twn.decisions ∧ 0 ∉ t.twn.joining ∧
        (t.regN Reg.TWN_CLASS_STALE).testBit 0 = false ∧ t.blocksBut s [8, 14] ∧ { t with regs := s.regs, counts := s.counts, twn := s.twn } = s) ∧
    (∀ g, u.isStandby = true → u.decision (le b 0 8) = none → u.grid = some g →
      (byteAt b 8 ≠ 0 ∨ (u.frameComplete g (le b 0 8) = true ∧ 0 ≤ u.till g (g.dNum (le b 0 8) + (10000 * ns * g.p : Nat)))) →
      ∃ t, exec (.decision f) s = .next t ∧ t.decision (le b 0 8) = some (byteAt b 8))) ∧
  (∀ (k : Nat) (s : State), (s.grid = none → exec (.standbyDecisionTimeout k) s = .next s) ∧
    (∀ g u, s.grid = some g → u = s.reach (g.wallUp (g.dNum k) + 10000 * ns) →
      (u.isStandby = false ∨ (u.decision k).isSome = true ∨ u.anyStarted = false ∨ u.passedOver g k = true → exec (.standbyDecisionTimeout k) s = .next u) ∧
      (u.isStandby = true → u.decision k = none → u.anyStarted = true → u.passedOver g k = false →
        ∃ t, exec (.standbyDecisionTimeout k) s = .next t ∧ t.decision k = some (u.ownCode g k) ∧
          (u.peerDecision k = some 0 → t.flag F.TWN_INT_STAT_diverged = true) ∧ t.wall = u.wall))) ∧
  (∀ (f b : List Byte) (s u : State), s.linkAccept 8 f = (some b, u) →
    (u.twn.ageCrc.find? (fun x => x.1 == le b 0 8) = none → exec (.digest f) s = .next u) ∧
    (∀ x, u.twn.ageCrc.find? (fun x => x.1 == le b 0 8) = some x →
      (x.2 = le b 8 8 → exec (.digest f) s = .next u) ∧
      (x.2 ≠ le b 8 8 → u.isStandby = true →
        exec (.digest f) s = .next ((u.modTwn fun t => { t with recopy := x.1 :: t.recopy.filter (· != x.1) }).linkSend 8 (natLE 8 x.1 ++ natLE 8 x.2))) ∧
      (x.2 ≠ le b 8 8 → u.isStandby = false → u.isActive = true → ∃ t, exec (.digest f) s = .next t ∧ t = u.linkCopy 4 3 (.age (some x.1) 0) ∧
        t.bytesKept s ∧ t.blocksBut s [1, 12, 14]) ∧
      (x.2 ≠ le b 8 8 → u.isStandby = false → u.isActive = false → exec (.digest f) s = .next u))) ∧
  (∀ (f b data : List Byte) (cls off : Nat) (s u : State), s.linkAccept 5 f = (some b, u) → cls = byteAt b 0 → off = le b 4 4 → data = b.drop 8 →
    (u.isStandby = false → off ≠ aboutClass → exec (.mirror f) s = .next u) ∧
    (u.isStandby = true → off ≠ aboutClass →
      (cls = 1 → ∃ t, exec (.mirror f) s = .next t ∧
        t.anv = (u.setBright (le data 0 4) (le data 4 4) (if u.anv.begun.contains (le data 8 8) then u.anv.nextGrade else le data 8 8)).anv ∧
        (u.anv.begun.contains (le data 8 8) = true → (t.regN Reg.TWN_CLASS_STALE).testBit 1 = true ∧ t.flag F.TWN_INT_STAT_class_stale = true) ∧
        t.blocksBut s [8, 14] ∧ t.mem = s.mem) ∧
      (∀ p, cls = 2 → off = 0x2000 * p → p < 64 → ∃ t, exec (.mirror f) s = .next t ∧
        (t.twn.ports.find? (fun x => x.1 == p)).map (fun x => (x.2.state, x.2.qsHost, x.2.found, x.2.rt0, x.2.dks.length)) =
          some (byteAt data 0, byteAt data 1 == 1, le data 2 2, le data 4 4, (data.length - 24) / 12) ∧
        (t.fld (F.SCN_PORT_QSRC_src p)).testBit 4 = (byteAt data 1 == 1) ∧ (t.regN Reg.TWN_CLASS_STALE).testBit 2 = false ∧ 2 ∉ t.twn.joining ∧
        (t.portLive p = true → t.regN (Reg.SCN_PORT_RTT p) = le data 4 4) ∧ (∀ r, r ≠ p → t.port r = s.port r) ∧ t.blocksBut s [0, 1, 7, 8, 12, 14]) ∧
      (∀ x : TemperSet, cls = 3 → u.anv.temper = some x → data.length = 28 → ∃ t, exec (.mirror f) s = .next t ∧
        t.mem = ((u.writeMem (sliceOf (le data 0 4)) (x.int + 12 * le data 0 4) (sliceB data 4 12)).2.writeMem (sliceOf (le data 0 4)) (x.age + 4 * le data 0 4) (sliceB data 16 4)).2.mem ∧
        (le data 0 4, le data 20 8) ∈ t.twn.copied) ∧
      (cls = 4 → off + data.length ≤ 0x180000 → ∃ t, exec (.mirror f) s = .next t ∧ t.mem = (u.writeMem 12 (0x102E80000 + off) data).2.mem ∧
        (off + data.length = 0x180000 → (t.regN Reg.TWN_CLASS_STALE).testBit 4 = false ∧ 4 ∉ t.twn.joining ∧ t.twn.recopyDead = false)) ∧
      (5 ≤ cls → u.regionOf cls = none → exec (.mirror f) s = .next u) ∧
      (∀ c, 5 ≤ cls → u.regionOf cls = some c →
        (off + data.length < c.size → exec (.mirror f) s = .next (u.writeMem 14 (c.base + off) data).2) ∧
        (c.size < off + data.length → exec (.mirror f) s = .next u) ∧
        (off + data.length = c.size → ∃ t, exec (.mirror f) s = .next t ∧
          t.mem = ((u.writeMem 14 (c.base + off) data).2.writeMem 14 (c.base + c.size - 8) (natLE 8 (c.gen + 1))).2.mem ∧ c.cls ∉ t.twn.joining))) ∧
    (off = aboutClass →
      (byteAt data 0 = 0 → u.isActive = true → ∃ t, exec (.mirror f) s = .next t ∧ t = u.sendCopy cls ∧ t.bytesKept s ∧ t.blocksBut s [1, 12, 14]) ∧
      (byteAt data 0 = 0 → u.isActive = false → exec (.mirror f) s = .next u) ∧
      (byteAt data 0 = 1 → (data.drop 1) ≠ [] → ∃ t, exec (.mirror f) s = .next t ∧ (cls, le data 1 2) ∈ t.twn.peerTags ∧ t.regsBut s [] ∧ t.mem = s.mem) ∧
      (byteAt data 0 = 1 → (data.drop 1) = [] → ∃ t, exec (.mirror f) s = .next t ∧ (∀ x ∈ t.twn.peerTags, x.1 ≠ cls) ∧ t.regsBut s [] ∧ t.mem = s.mem) ∧
      (byteAt data 0 = 5 → ∃ t, exec (.mirror f) s = .next t ∧ (cls, le data 1 2) ∈ t.twn.peerTags ∧ t.bytesKept s ∧ t.blocksBut s [1, 8, 12, 14]) ∧
      (byteAt data 0 = 2 → u.isStandby = true → byteAt data 1 = 1 → ∃ t, exec (.mirror f) s = .next t ∧ t.twn.recopy = [] ∧ 3 ∉ t.twn.joining ∧
        (t.regN Reg.TWN_CLASS_STALE).testBit 3 = false ∧ t.blocksBut s [8, 14] ∧ t.mem = s.mem) ∧
      (byteAt data 0 = 3 → le data 1 8 = u.deadCrc → exec (.mirror f) s = .next u) ∧
      (byteAt data 0 = 3 → le data 1 8 ≠ u.deadCrc → u.isActive = false → ∃ t, exec (.mirror f) s = .next t ∧ t.twn.recopyDead = true ∧ t.bytesKept s ∧
        t.blocksBut s [1, 12, 14]) ∧
      (byteAt data 0 = 4 → u.isStandby = true → ∃ t, exec (.mirror f) s = .next t ∧
        t.mem = (u.deadBits (byteAt data 1 == 1) (byteAt data 2) (bits (byteAt data 3) 0 3) (le data 4 4) (le data 8 4)).2.mem))) ∧
  (∀ (cls : Nat) (s : State),
    (s.twn.classes.find? (fun c => c.cls == cls) = none ∨ s.isActive = false ∨ s.linkUp = false → exec (.classCopy cls) s = .next s) ∧
    (∀ c, s.twn.classes.find? (fun c => c.cls == cls) = some c → s.isActive = true → s.linkUp = true →
      (s.peerHas c.tag = false → exec (.classCopy cls) s = .next s) ∧
      (s.peerHas c.tag = true → ∃ t, exec (.classCopy cls) s = .next t ∧ s.out <+: t.out ∧ t.bytesKept s ∧ t.blocksBut s [1, 12, 14]) ∧
      (∀ bs, s.peerHas c.tag = true → s.linkReady 5 = true → s.levelFree 5 = true → cls < 16 → c.size ≤ 2040 → (s.readMem 14 c.base c.size).1 = .data bs →
        ∃ t, exec (.classCopy cls) s = .next t ∧ Out.twin s.twn.lane (s.linkBytes 5 (mirrorBytes cls 0 bs)) ∈ t.out ∧ t.twn.queue = [])) ∧
    (s.isStandby = false ∨ 16 ≤ cls → exec (.classStale cls) s = .next s) ∧
    (s.isStandby = true → cls < 16 → ∃ t, exec (.classStale cls) s = .next t ∧ (t.regN Reg.TWN_CLASS_STALE).testBit cls = true ∧
      t.flag F.TWN_INT_STAT_class_stale = true ∧ t.flag F.TWN_STATUS_synced = false ∧
      t.regsBut s [Reg.TWN_CLASS_STALE, Reg.TWN_INT_STAT, Reg.TWN_SYNC_WHY, Reg.TWN_STATUS] ∧ { t with regs := s.regs } = s) ∧
    (s.isActive = false ∨ s.linkUp = false → exec .deadMapCrcSend s = .next s) ∧
    (s.isActive = true → s.linkUp = true → (∃ t, exec .deadMapCrcSend s = .next t ∧ s.out <+: t.out ∧ t.bytesKept s ∧ t.blocksBut s [1, 12, 14]) ∧
      (s.linkReady 5 = true → ∃ t, exec .deadMapCrcSend s = .next t ∧
        t.out = s.out ++ [.twin s.twn.lane (s.linkBytes 5 (mirrorBytes 4 aboutClass (natLE 1 3 ++ natLE 8 s.deadCrc)))] ∧ t.regsBut s [] ∧ t.mem = s.mem)))

/-- R261 to R266, R273, R276, R278, R280 to R287 and R360. -/
def Obligations.OwnershipIsClaimedAndHandedOver : Prop :=
  (∀ s : State,
    (s.powered 25 = false → exec .peerClaimReleased s = .next s ∧ exec .claimFault s = .next s ∧ exec .healthLost s = .next s) ∧
    (s.powered 25 = true →
      (∃ t, exec .peerClaimReleased s = .next t ∧ t.flag F.TWN_STATUS_peer_claim = false ∧ t.flag F.TWN_STATUS_claim_fault = false ∧
        t.twn.peerLines = 0 ∧ t.role = (if s.releasedEarly = true then 3 else s.role) ∧ (s.releasedEarly = true → t.twn.handIn = none) ∧
        t.twn.takeover = (if (s.role = 3 ∨ s.releasedEarly = true) ∧ s.twn.watching = false ∧ s.twn.takeover = none ∧ s.healthy = true ∧
            (s.flag F.TWN_STATUS_synced = true ∨ s.flag F.TWN_CFG_takeover_unsync = true)
          then some (s.boundaryOr (s.wall + 3000 * ns)) else s.twn.takeover) ∧
        t.regsBut s [Reg.TWN_STATUS, Reg.TWN_INT_STAT] ∧ { t with regs := s.regs, twn := s.twn } = s) ∧
      (∃ t, exec .claimFault s = .next t ∧ t.flag F.TWN_STATUS_claim_fault = true ∧ t.flag F.TWN_STATUS_peer_claim = false ∧ t.twn.peerLines = 2 ∧
        (s.flag F.TWN_STATUS_claim_fault = false → t.flag F.TWN_INT_STAT_claim_fault = true) ∧
        t.regsBut s [Reg.TWN_STATUS, Reg.TWN_INT_STAT] ∧ { t with regs := s.regs, counts := s.counts, twn := s.twn } = s) ∧
      (∃ t, exec .healthLost s = .next t ∧ t.regN Reg.TWN_HEALTH_WHY = s.healthWhy ∧ t.healthy = (s.healthWhy == 0) ∧
        (s.healthWhy = 0 ∨ s.isActive = false → t.regsBut s [Reg.TWN_STATUS, Reg.TWN_HEALTH_WHY] ∧ t.role = s.role ∧ { t with regs := s.regs } = s) ∧
        (s.healthWhy ≠ 0 → s.isActive = true → t.role = 3 ∧ t.flag F.TWN_STATUS_own_claim = false ∧ t.drives = false ∧ t.twn.handOut = none ∧
          Out.pin "TWN_CLAIM" false ∈ t.out ∧ Out.pin "TWN_CLAIM_N" true ∈ t.out ∧ t.blocksBut s [0, 1, 8, 12, 14]))) ∧
    (∃ t, exec .claimKeeperExpiry s = .next t ∧ t.drives = false ∧ t.flag F.TWN_STATUS_own_claim = false ∧ t.twn.takeover = none ∧
      t.twn.handOut = none ∧ t.role = (if s.isActive = true then 3 else s.role) ∧ Out.pin "TWN_CLAIM" false ∈ t.out ∧
      t.blocksBut s [0, 1, 8, 12, 14]) ∧
    (s.fld F.TWN_CFG_wdog_ms = 0 → exec .hostWatchdogExpiry s = .next s) ∧
    (s.fld F.TWN_CFG_wdog_ms ≠ 0 → ∃ t, exec .hostWatchdogExpiry s = .next t ∧ t.twn.wdogOut = true ∧ (s.powered 25 = true → t.healthy = false) ∧
      t.blocksBut s [0, 1, 8, 12, 14]) ∧
    (∀ (ini : Nat) (w : Word), s.reaches ini Reg.TWN_WDOG = true → fieldOf F.TWN_WDOG_kick w = 1 →
      ∃ t, exec (.watchdogKick ini w) s = .next t ∧ t.twn.wdogOut = false ∧ t.blocksBut s [0, 1, 8, 12, 14])) ∧
  (∀ (peer : Nat) (s : State),
    (¬ (s.role = 1 ∧ s.healthy = true ∧ s.powered 25 = true) → exec (.electionWaitExpiry peer) s = .next s) ∧
    (s.role = 1 → s.healthy = true → s.powered 25 = true → ∃ t, exec (.electionWaitExpiry peer) s = .next t ∧
      t.flag F.TWN_STATUS_own_claim = (if peer = 0 then true else s.flag F.TWN_STATUS_own_claim) ∧ t.role = (if peer = 0 then 1 else 3) ∧
      t.flag F.TWN_STATUS_peer_claim = (peer == 1) ∧ t.twn.drive = s.twn.drive ∧ t.regsBut s [Reg.TWN_STATUS, Reg.TWN_INT_STAT] ∧ t.mem = s.mem) ∧
    ((s.role = 1 ∨ s.role = 3) → s.flag F.TWN_STATUS_own_claim = true → s.twn.drive = false → s.healthy = true →
      (peer ≠ 0 → s.slotB = true → ∃ t, exec (.electionSettle peer) s = .next t ∧ t.role = 3 ∧ t.flag F.TWN_STATUS_own_claim = false ∧
        t.twn.drive = false ∧ t.regsBut s [Reg.TWN_STATUS, Reg.TWN_INT_STAT] ∧ t.mem = s.mem) ∧
      ((peer = 0 ∨ s.slotB = false) → ∃ t, exec (.electionSettle peer) s = .next t ∧ t.role = 2 ∧ t.flag F.TWN_STATUS_own_claim = true ∧
        t.twn.drive = true ∧ t.flag F.TWN_INT_STAT_became_active = true ∧ t.reg Reg.TWN_DELTA = 0 ∧
        (∀ i, i < 4 → t.reg (0x800040 + 4 * i) = BitVec.ofNat 32 (nth (wallWords s.wrap s.wall) i 0)) ∧ t.blocksBut s [8, 14] ∧ t.mem = s.mem)) ∧
    (s.flag F.TWN_STATUS_own_claim = false ∨ s.twn.drive = true ∨ s.healthy = false ∨ (s.role ≠ 1 ∧ s.role ≠ 3) →
      exec (.electionSettle peer) s = .next s) ∧
    (peer ≠ 0 ∨ s.healthy = false ∨ s.flag F.TWN_STATUS_own_claim = true ∨ (s.role ≠ 1 ∧ s.role ≠ 3) ∨
      (s.role = 3 ∧ s.twn.lostSynced = false ∧ s.flag F.TWN_CFG_takeover_unsync = false) → exec (.timedClaim peer) s = .next s) ∧
    ((s.role = 1 ∨ (s.role = 3 ∧ (s.twn.lostSynced = true ∨ s.flag F.TWN_CFG_takeover_unsync = true))) → s.powered 25 = true → s.healthy = true →
      peer = 0 → s.flag F.TWN_STATUS_own_claim = false → s.twn.takeover = none → ∃ t, exec (.timedClaim peer) s = .next t ∧
        t.flag F.TWN_STATUS_own_claim = true ∧ t.role = s.role ∧ t.twn.drive = s.twn.drive ∧ Out.pin "TWN_CLAIM_N" false ∈ t.out ∧
        t.regsBut s [Reg.TWN_STATUS] ∧ t.mem = s.mem)) ∧
  (∀ (peer : Nat) (s : State), (s.twn.takeover = none → exec (.takeoverDrive peer) s = .next s) ∧
    (∀ k j, s.twn.takeover = some (k, j) →
      (s.healthy = false ∨ peer ≠ 0 → ∃ t, exec (.takeoverDrive peer) s = .next t ∧ t.twn.takeover = none ∧ t.role = s.role ∧ t.twn.drive = s.twn.drive ∧
        t.flag F.TWN_STATUS_own_claim = s.flag F.TWN_STATUS_own_claim ∧ t.regsBut s [Reg.TWN_STATUS, Reg.TWN_INT_STAT] ∧
        { t with regs := s.regs, counts := s.counts, twn := s.twn } = s) ∧
      (s.healthy = true → peer = 0 → ∃ t, exec (.takeoverDrive peer) s = .next t ∧ t.role = 2 ∧ t.flag F.TWN_STATUS_own_claim = true ∧ t.twn.drive = true ∧
        t.twn.takeover = none ∧ t.twn.firstShow = some (if j = 0 then k else k + 1) ∧ t.wall = (s.reach ((s.setBegins k j).1 - 2000 * ns)).wall ∧
        t.flag F.TWN_INT_STAT_became_active = (s.flag F.TWN_INT_STAT_became_active || s.role != 2) ∧ t.reg Reg.TWN_DELTA = 0 ∧
        (∀ i, i < 4 → t.reg (0x800040 + 4 * i) = BitVec.ofNat 32 (nth (wallWords s.wrap (s.boundaryTime k j)) i 0)) ∧
        (∀ p ∈ s.runPorts, s.grid ≠ none → s.chainOf p ≠ none → (t.port p).reqFrom = s.boundaryTime k j + 2000 * ns) ∧ t.twn.passSlot = none ∧
        t.blocksBut s [0, 1, 8, 12, 14] ∧ (s.twn.passSlot = none → t.mem = s.mem)))) ∧
  (∀ (s v : State) (slot : Nat) (desc : List Byte), s.taken 0x80 = some (slot, desc, v) →
    (byteAt desc 0 = 1 →
      (v.twn.handOut ≠ none ∨ v.twn.handIn ≠ none ∨ v.twn.takeover ≠ none ∨ v.twn.passSlot ≠ none →
        exec .switch s = .next ((v.finish 0x80 slot { status := Status.busy }).settle 0x80)) ∧
      (v.twn.handOut = none → v.twn.handIn = none → v.twn.takeover = none → v.twn.passSlot = none →
        (v.isActive = true → v.peerSynced = true → ∃ t, exec .switch s = .next t ∧ t = v.startHandoff (some slot) false false ∧
          t.twn.handOut = some { k := (v.boundaryOr (v.wall + 100000 * ns)).1, j := (v.boundaryOr (v.wall + 100000 * ns)).2, slot := some slot } ∧
          t.bytesKept v ∧ t.blocksBut v [1, 12, 14]) ∧
        (v.isActive = true → v.peerSynced = false → exec .switch s = .next ((v.finish 0x80 slot { status := Status.refused }).settle 0x80)) ∧
        (v.isActive = false → v.isStandby = true → v.flag F.TWN_STATUS_synced = true →
          exec .switch s = .next ((v.modTwn fun t => { t with passSlot := some slot, passTaken := false }).linkSend 6 (zeros 10))) ∧
        (v.isActive = false → v.isStandby = true → v.flag F.TWN_STATUS_synced = false →
          exec .switch s = .next ((v.finish 0x80 slot { status := Status.refused }).settle 0x80)) ∧
        (v.isActive = false → v.isStandby = false → exec .switch s = .next ((v.finish 0x80 slot refusedState).settle 0x80)))) ∧
    (byteAt desc 0 = 3 →
      (byteAt desc 1 < 5 ∨ 15 < byteAt desc 1 → exec .classRelease s = .next ((v.finish 0x80 slot (badField 0x81)).settle 0x80)) ∧
      (5 ≤ byteAt desc 1 → byteAt desc 1 ≤ 15 →
        ((v.regN Reg.TWN_CLASS_REG).testBit (byteAt desc 1) = false →
          exec .classRelease s = .next ((v.finish 0x80 slot { status := Status.notFound }).settle 0x80)) ∧
        ((v.regN Reg.TWN_CLASS_REG).testBit (byteAt desc 1) = true →
          ∃ u : State, exec .classRelease s = .next ((u.finish 0x80 slot okCpl).settle 0x80) ∧
            (∀ i, i < 16 → (u.regN Reg.TWN_CLASS_REG).testBit i = ((v.regN Reg.TWN_CLASS_REG).testBit i && i != byteAt desc 1)) ∧
            (u.twn.classes = v.twn.classes.filter fun x => x.cls != byteAt desc 1) ∧
            byteAt desc 1 ∉ u.rad.mirror ∧ u.bytesKept v ∧ u.blocksBut v [1, 8, 12, 14]))) ∧
    (byteAt desc 0 = 4 →
      (v.isStandby = false → exec .resync s = .next ((v.finish 0x80 slot refusedState).settle 0x80)) ∧
      (v.isStandby = true → ∃ u : State, exec .resync s = .next ((u.finish 0x80 slot okCpl).settle 0x80) ∧
        u.twn.joining = [3, 4] ++ (v.twn.classes.filter fun c => v.peerHas c.tag).map (·.cls) ∧ u.flag F.TWN_STATUS_synced = false ∧
        u.bytesKept v ∧ u.blocksBut v [1, 8, 12, 14]))) ∧
  (∀ (s v : State) (slot : Nat) (desc b : List Byte), s.takenBlock 0x80 = some (slot, desc, b, v) → byteAt desc 0 = 2 →
    (∀ o, v.classBad b = some o → exec .classRegister s = .next ((v.finish 0x80 slot (badField o)).settle 0x80)) ∧
    (v.classBad b = none → v.freeClass = none → exec .classRegister s = .next ((v.finish 0x80 slot { status := Status.tableFull }).settle 0x80)) ∧
    (∀ c, v.classBad b = none → v.freeClass = some c →
      (5 ≤ c ∧ c < 16 ∧ (v.regN Reg.TWN_CLASS_REG).testBit c = false ∧ ∀ i, 5 ≤ i → i < c → (v.regN Reg.TWN_CLASS_REG).testBit i = true) ∧
      ∃ u : State, exec .classRegister s = .next ((u.finish 0x80 slot { status := Status.ok, w1 := c * 256 }).settle 0x80) ∧
        (u.regN Reg.TWN_CLASS_REG).testBit c = true ∧
        u.twn.classes = v.twn.classes ++ [{ cls := c, tag := le b 0 2, ms := le b 4 4, base := le b 8 8, size := le b 16 4 }] ∧
        (∀ i, i ≠ c → (u.regN Reg.TWN_CLASS_REG).testBit i = (v.regN Reg.TWN_CLASS_REG).testBit i) ∧ u.bytesKept v ∧ u.blocksBut v [1, 8, 12, 14])) ∧
  (∀ (f b : List Byte) (s u : State),
    (s.linkAccept 6 f = (some b, u) → (byteAt f 1).testBit 0 = true → u.twn.passSlot = none →
      ((u.role ≠ 3 ∨ u.twn.takeover ≠ none) → exec (.handoff f) s = .next (u.linkSend 7 [2])) ∧
      (u.role = 3 → u.twn.takeover = none → u.flag F.TWN_STATUS_synced = false → exec (.handoff f) s = .next (u.linkSend 7 [1])) ∧
      (u.role = 3 → u.twn.takeover = none → u.flag F.TWN_STATUS_synced = true → ∃ t, exec (.handoff f) s = .next t ∧ t.role = 4 ∧
        t.twn.handIn = some { k := le b 0 8, j := le b 8 2 } ∧ t.out = (u.linkSend 7 [0]).out ∧ t.bytesKept s ∧ t.blocksBut s [1, 8, 12, 14])) ∧
    (s.linkAccept 6 f = (some b, u) → (byteAt f 1).testBit 0 = true → u.twn.passSlot ≠ none → u.twn.passTaken = false →
      ∃ t, exec (.handoff f) s = .next t ∧ t.twn.passSlot = none ∧ t.blocksBut s [0, 1, 8, 12, 14]) ∧
    (s.linkAccept 6 f = (some b, u) → (byteAt f 1).testBit 0 = false →
      (u.isActive = false ∨ u.twn.handOut ≠ none → exec (.handoff f) s = .next u) ∧
      (u.isActive = true → u.twn.handOut = none → u.twn.takeover ≠ none → exec (.handoff f) s = .next (u.linkSend 7 [2])) ∧
      (u.isActive = true → u.twn.handOut = none → u.twn.takeover = none → u.peerSynced = false → exec (.handoff f) s = .next (u.linkSend 7 [1])) ∧
      (u.isActive = true → u.twn.handOut = none → u.twn.takeover = none → u.peerSynced = true → ∃ t, exec (.handoff f) s = .next t ∧
        t = (u.linkSend 7 [0]).startHandoff none false true ∧ t.twn.handOut = some { k := (u.boundaryOr (u.wall + 100000 * ns)).1, j := (u.boundaryOr (u.wall + 100000 * ns)).2, slot := none, byTwin := true } ∧
        t.bytesKept s ∧ t.blocksBut s [1, 12, 14])) ∧
    (s.linkAccept 7 f = (some b, u) →
      (u.twn.handOut = none → u.isStandby = false → exec (.ack f) s = .next u) ∧
      (u.twn.handOut = none → u.isStandby = true →
        (byteAt b 0 = 0 → ∃ t, exec (.ack f) s = .next t ∧ t.twn = { u.twn with passTaken := u.twn.passSlot.isSome } ∧ t.regsBut s [] ∧ t.mem = s.mem) ∧
        (byteAt b 0 = 2 → u.twn.handIn ≠ none → ∃ t, exec (.ack f) s = .next t ∧ t.twn.handIn = none ∧ t.role = 3 ∧ t.blocksBut s [0, 1, 8, 12, 14]) ∧
        (∀ n, byteAt b 0 = 1 → u.twn.passSlot = some n → ∃ v : State, exec (.ack f) s = .next ((v.finish 0x80 n { status := Status.refused }).settle 0x80) ∧
          v.twn.passSlot = none ∧ v.regsBut s [] ∧ v.mem = s.mem)) ∧
      (∀ h, u.twn.handOut = some h → (h.acked = true → exec (.ack f) s = .next u) ∧
        (h.acked = false → byteAt b 0 = 0 → ∃ t, exec (.ack f) s = .next t ∧ t.role = 4 ∧
          t.twn = { u.twn with handOut := some { h with acked := true } } ∧ t.regsBut s [Reg.TWN_STATUS] ∧ t.mem = s.mem) ∧
        (h.acked = false → byteAt b 0 ≠ 0 → h.slot = none → ∃ t, exec (.ack f) s = .next t ∧ t.role = 2 ∧ t.twn = { u.twn with handOut := none } ∧
          t.regsBut s [Reg.TWN_STATUS, Reg.TWN_INT_STAT] ∧ t.mem = s.mem) ∧
        (∀ n, h.acked = false → byteAt b 0 ≠ 0 → h.slot = some n → ∃ v : State, exec (.ack f) s = .next ((v.finish 0x80 n { status := if byteAt b 0 = 1 then Status.refused else Status.busy }).settle 0x80) ∧
          v.role = 2 ∧ v.twn = { u.twn with handOut := none } ∧ v.regsBut s [Reg.TWN_STATUS, Reg.TWN_INT_STAT] ∧ v.mem = s.mem)))) ∧
  (∀ s : State,
    (s.twn.handOut = none → exec .handoffAckTimeout s = .next s) ∧
    (∀ h, s.twn.handOut = some h → (h.acked = true → exec .handoffAckTimeout s = .next s) ∧
      (h.acked = false → h.slot = none → ∃ t, exec .handoffAckTimeout s = .next t ∧ t.role = 2 ∧ t.twn.handOut = none ∧
        t.out = (s.linkSend 7 [2]).out ∧ t.bytesKept s ∧ t.blocksBut s [1, 8, 12, 14]) ∧
      (∀ n, h.acked = false → h.slot = some n → ∃ u : State,
        exec .handoffAckTimeout s = .next ((u.finish 0x80 n { status := Status.timeout }).settle 0x80) ∧ u.role = 2 ∧
        u.twn.handOut = none ∧ u.out = (s.linkSend 7 [2]).out ∧ u.bytesKept s ∧ u.blocksBut s [1, 8, 12, 14])) ∧
    (s.twn.watching = false → exec .handoffAbort s = .next s) ∧
    (s.twn.watching = true → ∃ t, exec .handoffAbort s = .next t ∧ t.twn.watching = false ∧ t.flag F.TWN_INT_STAT_handoff_aborted = true ∧
      t.twn.takeover = (if s.healthy = true then some (s.boundaryOr (s.wall + 3000 * ns)) else s.twn.takeover) ∧ t.role = s.role ∧
      t.blocksBut s [8, 12, 14] ∧ t.mem = s.mem) ∧
    (∀ peer, s.twn.handOut = none → s.twn.handIn = none → exec (.handoffBoundary peer) s = .next s) ∧
    (∀ peer h, s.twn.handOut = some h → (h.acked = false → exec (.handoffBoundary peer) s = .next s) ∧
      (h.acked = true → ∃ t, exec (.handoffBoundary peer) s = .next t ∧ t.role = 3 ∧ t.flag F.TWN_STATUS_own_claim = false ∧ t.twn.drive = false ∧
        t.twn.handOut = none ∧ t.twn.watching = (peer != 1) ∧ t.wall = (s.reach ((s.setBegins h.k h.j).2 + 100 * ns)).wall ∧ t.flag F.TWN_STATUS_peer_claim = (peer == 1) ∧
        (s.grid ≠ none → ∀ i, i < 4 → t.reg (0x800040 + 4 * i) = BitVec.ofNat 32 (nth (wallWords s.wrap (s.boundaryTime h.k h.j)) i 0)) ∧
        t.blocksBut s [0, 1, 8, 12, 14])) ∧
    (∀ peer h, s.twn.handOut = none → s.twn.handIn = some h →
      (s.healthy = false → ∃ t, exec (.handoffBoundary peer) s = .next t ∧ t.role = 3 ∧ t.twn.handIn = none ∧ t.twn.drive = s.twn.drive ∧
        t.flag F.TWN_STATUS_own_claim = s.flag F.TWN_STATUS_own_claim ∧ t.blocksBut s [0, 1, 8, 12, 14]) ∧
      (s.healthy = true → ∃ t, exec (.handoffBoundary peer) s = .next t ∧ t.role = 2 ∧
        t.flag F.TWN_STATUS_own_claim = true ∧ t.twn.drive = true ∧ t.twn.handIn = none ∧ t.wall = (s.reach ((s.setBegins h.k h.j).1 - 100 * ns)).wall ∧
        t.reg Reg.TWN_DELTA = 0 ∧ (s.grid ≠ none → ∀ i, i < 4 → t.reg (0x800040 + 4 * i) = BitVec.ofNat 32 (nth (wallWords s.wrap (s.boundaryTime h.k h.j)) i 0)) ∧
        (∀ p ∈ s.runPorts, (s.grid.all fun g => (s.chainOf p).all fun c => (t.port p).reqFrom == s.subfBegin p g c h.k h.j + 2000 * ns) = true) ∧
        t.blocksBut s [0, 1, 8, 12, 14])))

/-- R428, R429, R432 to R438, R443, R446 to R448. -/
def Obligations.EnergyIsMeteredAndBurstsAreJudged : Prop :=
  (∀ (c : Nat) (s : State),
    (7 ≤ c ∨ s.powered 3 = false ∨ s.flag F.MTR_CFG_enable = false ∨ (s.fld F.MTR_STATUS_ch_fault).testBit c = true →
      exec (.meterChannelFault c) s = .next s) ∧
    (c < 7 → s.powered 3 = true → s.flag F.MTR_CFG_enable = true → (s.fld F.MTR_STATUS_ch_fault).testBit c = false →
      ∃ t, exec (.meterChannelFault c) s = .next t ∧ (∀ i, (t.fld F.MTR_STATUS_ch_fault).testBit i = ((s.fld F.MTR_STATUS_ch_fault).testBit i || i == c)) ∧
        t.flag F.MTR_INT_STAT_ch_fault = true ∧ t.mtr = { s.mtr with faulted := true } ∧ t.regsBut s [Reg.MTR_STATUS, Reg.MTR_INT_STAT] ∧
        { t with regs := s.regs, counts := s.counts, mtr := s.mtr } = s) ∧
    (7 ≤ c ∨ (s.fld F.MTR_STATUS_ch_fault).testBit c = false → exec (.meterChannelRecovered c) s = .next s) ∧
    (c < 7 → (s.fld F.MTR_STATUS_ch_fault).testBit c = true →
      ∃ t, exec (.meterChannelRecovered c) s = .next t ∧ (∀ i, (t.fld F.MTR_STATUS_ch_fault).testBit i = ((s.fld F.MTR_STATUS_ch_fault).testBit i && i != c)) ∧
        t.mtr.dead.testBit c = false ∧ t.regsBut s [Reg.MTR_STATUS] ∧ { t with regs := s.regs, mtr := s.mtr } = s)) ∧
  (∀ (g a i : Nat) (p q : Int) (s : State), s.mtr.acc.length = 28 → g < 4 →
    nth (s.accGroup g p q a).mtr.acc i 0 = nth s.mtr.acc i 0 + (if i = 7 * g + (if 0 ≤ p then 0 else 1) then s.energy p.natAbs else 0) +
      (if q ≠ 0 ∧ i = 7 * g + (if 0 < q then (if 0 ≤ p then 2 else 3) else (if p < 0 then 4 else 5)) then s.energy q.natAbs else 0) +
      (if i = 7 * g + 6 then s.energy a else 0)) ∧
  (∀ (x : List (List Int)) (cycles dur : Nat) (s : State), s.mtr.restored = true →
    (s.powered 3 = false ∨ s.flag F.MTR_CFG_enable = false ∨ nth x 0 [] = [] ∨ dur = 0 → exec (.meterBlock x cycles dur) s = .next s) ∧
    (∀ n y, s.powered 3 = true → s.flag F.MTR_CFG_enable = true → n = (nth x 0 []).length → n ≠ 0 → dur ≠ 0 → x.length = 7 → s.mtr.dead = 0 →
      y = s.highPass x →
      (s.flag F.MTR_CFG_hpf_en = false → y = x) ∧ (∀ c, c < 7 → (nth y c []).length = (nth x c []).length) ∧
      ∃ t, exec (.meterBlock x cycles dur) s = .next t ∧ t.mtr.acc = (s.addEnergy y n dur).mtr.acc ∧
        t.reg Reg.MTR_FREQ = BitVec.ofNat 32 (s.blockFreq cycles dur) ∧
        t.flag F.MTR_STATUS_freq_valid = (45000 ≤ s.blockFreq cycles dur && s.blockFreq cycles dur ≤ 66000 && s.fld F.MTR_STATUS_ref < 3) ∧
        (s.mtr.dspOut = 0 → (∀ p, p < 3 → (t.fld F.MTR_STATUS_present).testBit p = s.voltagePresent y p n) ∧
          t.fld F.MTR_STATUS_ref = (lowestBit 3 (t.fld F.MTR_STATUS_present)).getD 3) ∧
        (s.mtr.dspOut ≠ 0 → t.fld F.MTR_STATUS_present = s.fld F.MTR_STATUS_present ∧ t.fld F.MTR_STATUS_ref = s.fld F.MTR_STATUS_ref ∧ t.mtr.thd = s.mtr.thd) ∧
        (overrangeOf x ≠ [] → t.flag F.MTR_INT_STAT_overrange = true) ∧
        (s.mtr.sum.blocks + 1 < max 1 (s.fld F.MTR_RES_INTERVAL_blocks) → t.mtr.resSeq = s.mtr.resSeq ∧
          t.mtr.sum.blocks = s.mtr.sum.blocks + 1 ∧ t.mtr.sum.samples = s.mtr.sum.samples + n ∧ t.mtr.sum.dur = s.mtr.sum.dur + dur) ∧
        (max 1 (s.fld F.MTR_RES_INTERVAL_blocks) ≤ s.mtr.sum.blocks + 1 → t.mtr.sum = {} ∧ t.mtr.resSeq = (s.mtr.resSeq + 1) % 65536) ∧
        (s.flag F.MTR_STATUS_cal_pending = false → t.mtr.active = s.mtr.active) ∧
        (s.flag F.MTR_STATUS_cal_pending = true → t.flag F.MTR_STATUS_cal_pending = false →
          t.flag F.MTR_INT_STAT_cal_applied = true ∧ ∀ a, a ∈ shadowRegs → Sparse.get Reg.resetVal t.mtr.active a = s.reg a) ∧
        t.mtr.fmod = s.mtr.fmod ∧ t.blocksBut s [1, 9, 12, 13, 14])) ∧
  (∀ s : State, s.mtr.restored = false → s.powered 3 = true → s.flag F.REC_STATUS_loaded = true → s.recd.img.meterValid = true →
    ∃ t, exec (.meterBlock [] 0 0) s = .next t ∧ t.mtr = { s.mtr with acc := s.recd.img.meterCopy.map Int.toNat, restored := true } ∧
      { t with mtr := s.mtr } = s) ∧
  (∀ s : State, (s.powered 3 = true → s.powered 11 = true → s.mtr.restored = true → ∃ t, exec .meterSave s = .next t ∧
      t.recd.img = { s.recd.img with meterCopy := s.mtr.acc.map Int.ofNat, meterValid := true } ∧ { t with recd := s.recd } = s) ∧
    (s.powered 3 = false ∨ s.powered 11 = false ∨ s.mtr.restored = false → exec .meterSave s = .next s)) ∧
  (∀ (f : Nat) (s : State), (s.powered 3 = false ∨ s.flag F.MTR_CFG_enable = false → exec (.fmodMeasure f) s = .next s) ∧
    (s.powered 3 = true → s.flag F.MTR_CFG_enable = true → ∃ t, exec (.fmodMeasure f) s = .next t ∧ t.mtr = { s.mtr with fmod := f } ∧
      t.reg Reg.MTR_FMOD = BitVec.ofNat 32 (min (rne f 1000) (2 ^ 32 - 1)) ∧ t.regsBut s [Reg.MTR_FMOD] ∧ { t with regs := s.regs, mtr := s.mtr } = s)) ∧
  (∀ (ini : Nat) (w : Word) (s : State), s.reaches ini Reg.MTR_CAL_APPLY = true → fieldOf F.MTR_CAL_APPLY_go w = 1 →
    ∃ t, exec (.calApply ini w) s = .next t ∧ t.flag F.MTR_STATUS_cal_pending = true ∧ t.mtr = { s.mtr with calBy := ini } ∧
      t.regsBut s [Reg.MTR_STATUS] ∧ { t with regs := s.regs, mtr := s.mtr, answer := s.answer } = s) ∧
  (∀ (rms : List Nat) (moved : Bool) (s : State),
    (s.powered 0 = false ∨ s.flag F.MTR_BAT_CFG_en = false ∨ s.powered 3 = true → exec (.batteryBurst rms moved) s = .next s) ∧
    (s.powered 0 = true → s.flag F.MTR_BAT_CFG_en = true → s.powered 3 = false →
      (s.flag F.BLW_STATUS_vbat_low = true → s.flag F.BLW_STATUS_vin_ok = false → ∃ t, exec (.batteryBurst rms moved) s = .next t ∧
        t.flag F.MTR_BAT_STATUS_low_batt = true ∧ t.fld F.MTR_BAT_CNT_skips = min (s.fld F.MTR_BAT_CNT_skips + 1) 65535 ∧
        t.regsBut s [Reg.MTR_BAT_STATUS, Reg.MTR_BAT_CNT] ∧ { t with regs := s.regs } = s) ∧
      (s.flag F.BLW_STATUS_vbat_low = false ∨ s.flag F.BLW_STATUS_vin_ok = true →
        (moved = false → ∃ t, exec (.batteryBurst rms moved) s = .next t ∧ t.flag F.MTR_BAT_STATUS_fe_fault = true ∧
          t.regN Reg.MTR_BAT_BURSTS = min (s.regN Reg.MTR_BAT_BURSTS + 1) (2 ^ 32 - 1) ∧
          t.regsBut s [Reg.MTR_BAT_STATUS, Reg.MTR_BAT_BURSTS] ∧ { t with regs := s.regs } = s) ∧
        (moved = true → ∃ t, exec (.batteryBurst rms moved) s = .next t ∧
          (∀ c v, c < 4 → v = nth rms c 0 →
            ((s.fld F.MTR_BAT_CFG_ch_mask).testBit c = true → t.regN (Reg.MTR_BAT_LAST c) = min v (2 ^ 32 - 1) ∧
              t.regN (Reg.MTR_BAT_MAX c) = min (max v (s.regN (Reg.MTR_BAT_MAX c))) (2 ^ 32 - 1) ∧
              t.regN (Reg.MTR_BAT_CHARGE c) = min (s.regN (Reg.MTR_BAT_CHARGE c) + rne (v * s.fld F.MTR_BAT_CFG_interval_s) 1000) (2 ^ 32 - 1) ∧
              (t.fld F.MTR_BAT_STATUS_over).testBit c = decide (s.regN (Reg.MTR_BAT_THRESH c) ≤ v)) ∧
            ((s.fld F.MTR_BAT_CFG_ch_mask).testBit c = false → t.reg (Reg.MTR_BAT_LAST c) = s.reg (Reg.MTR_BAT_LAST c) ∧
              t.reg (Reg.MTR_BAT_MAX c) = s.reg (Reg.MTR_BAT_MAX c) ∧ t.reg (Reg.MTR_BAT_CHARGE c) = s.reg (Reg.MTR_BAT_CHARGE c) ∧
              (t.fld F.MTR_BAT_STATUS_over).testBit c = false)) ∧
          ((s.regN Reg.BLW_WAKE_EN).testBit 9 = false → t.blocksBut s [9] ∧ { t with regs := s.regs, bat := s.bat } = s)) ∧
        (∀ c, moved = true → s.bat.run.length = 4 → s.bat.held = false → c < 4 → (s.fld F.MTR_BAT_CFG_ch_mask).testBit c = true →
          s.regN (Reg.MTR_BAT_THRESH c) ≤ nth rms c 0 → s.fld F.MTR_BAT_CFG_n_consec ≤ nth s.bat.run c 0 + 1 →
          ∃ t, exec (.batteryBurst rms moved) s = .next t ∧ t.flag F.MTR_BAT_STATUS_theft = true ∧ t.bat.held = true ∧
            t.fld F.MTR_BAT_CNT_theft_events = min (s.fld F.MTR_BAT_CNT_theft_events + 1) 65535 ∧
            ((s.regN Reg.BLW_WAKE_EN).testBit 9 = true → (t.regN Reg.BLW_WAKE_CAUSE).testBit 9 = true)))))

/-- R451 to R469, R471 to R473, R475 and R478 to R482. -/
def Obligations.PolledNodesAreReadAndKept : Prop :=
  (∀ s : State, (s.powered 2 = false ∨ s.acting = 0 ∨ s.radSlot = 0 → exec .pollSlot s = .next s) ∧
    (s.powered 2 = false ∨ s.acting = 0 ∨ s.radSlot ≠ 0 → exec .beaconSlot s = .next s) ∧
    (s.powered 2 = true → s.acting ≠ 0 → s.radSlot ≠ 0 → s.rad.polled = none → s.rad.evict = [] → s.rad.buffer = [] →
      (s.slotNode = none → ∃ t, exec .pollSlot s = .next t ∧ t.rad = { s.rad with asked := none } ∧ t.flag F.RAD_STATUS_tcxo_wait = s.radStopped ∧
        t.regsBut s [Reg.RAD_STATUS] ∧ { t with regs := s.regs, rad := s.rad } = s) ∧
      (∀ i n, s.slotNode = some (i, n) → s.node i = some n →
        (s.acting = 1 → s.wantedRole = 1 → s.radStopped = false → n.nextCtr < 0xFFFFFFFF → s.dutyAllows 35 = true → ∃ t, exec .pollSlot s = .next t ∧ t.rad.polled = some i ∧
          t.out = s.out ++ [.radio 2 (i + 1) n.nextCtr 5 (s.linkKey n.eui n.gen) ([s.radCycle % 2 ^ 32, n.lastSeq, b2n (needsRekey n)] ++
            (match n.down with | some (_, b, _) => b.length :: b.map BitVec.toNat | none => [0]))] ∧
          t.node i = some { n with nextCtr := n.nextCtr + 1, rekeying := needsRekey n, down := n.down.map fun x => (x.1, x.2.1, true) } ∧
          (∀ j, j ≠ i → t.node j = s.node j) ∧ t.blocksBut s [10, 14] ∧ t.mem = s.mem) ∧
        (s.acting = 1 → s.wantedRole = 1 → s.radStopped = false → n.nextCtr < 0xFFFFFFFF → s.dutyAllows 35 = false → ∃ t m, exec .pollSlot s = .next t ∧ t.rad.polled = none ∧
          t.flag F.RAD_INT_STAT_duty_skip = true ∧ t.node i = some m ∧ m.miss = min (n.miss + 1) 255 ∧ m.nextCtr = n.nextCtr) ∧
        ((s.acting = 1 ∧ s.wantedRole = 1 ∧ (s.radStopped = true ∨ 0xFFFFFFFF ≤ n.nextCtr)) ∨ (s.acting = 2 ∧ s.wantedRole = 1) →
          ∃ t m, exec .pollSlot s = .next t ∧ t.rad.polled = none ∧ t.node i = some m ∧ m.miss = min (n.miss + 1) 255 ∧ t.rad.sent = s.rad.sent) ∧
        (s.wantedRole ≠ 1 → ∃ t, exec .pollSlot s = .next t ∧ t.rad = { s.rad with asked := none } ∧ t.out = s.out))) ∧
    (s.powered 2 = true → s.acting = 1 → s.radSlot = 0 → s.rad.polled = none → s.rad.evict = [] → s.rad.buffer = [] →
      ∃ t, exec .beaconSlot s = .next t ∧ t.rad.judged = false ∧ t.rad.resp = none ∧ t.rad.nodes.map (·.1) = s.rad.nodes.map (·.1) ∧
        t.fld F.RAD_JOIN_open_cycles = (if s.fld F.RAD_JOIN_open_cycles = 0 ∨ s.fld F.RAD_JOIN_open_cycles = 0xFFFF then s.fld F.RAD_JOIN_open_cycles
          else s.fld F.RAD_JOIN_open_cycles - 1) ∧ t.flag F.RAD_STATUS_join_open = (t.fld F.RAD_JOIN_open_cycles != 0) ∧
        (s.maySend = false → t.out = s.out ∧ t.rad.beaconCtr = s.rad.beaconCtr ∧ t.rad.nodes = s.rad.nodes) ∧
        (s.maySend = true → s.rad.resp = none → s.rad.beaconCtr < 0xFFFFFFFF → s.dutyAllows 27 = true → t.rad.beaconCtr = s.rad.beaconCtr + 1 ∧
          t.out = s.out ++ [.radio 0 0xFFFF s.rad.beaconCtr 1 s.groupKey [s.radCycle % 2 ^ 32, b2n (t.flag F.RAD_STATUS_join_open)]] ∧ t.rad.nodes = s.rad.nodes) ∧
        ((s.rad.resp.all fun r => r.2.2.all fun i => (s.node i).all fun n =>
            !(s.maySend && s.fld F.RAD_PHY_CFG_duty_pm == 0 && s.nodeByEui r.1 == some (i, n) && Nat.blt n.nextCtr 0xFFFFFFFF) ||
              (t.out.contains (.radio 1 r.1 n.nextCtr 5 (s.linkKey r.1 n.gen) ([r.2.1, i + 1, n.e, n.slot, n.phase] ++ s.groupKey.map BitVec.toNat)) &&
                t.node i == some { n with nextCtr := n.nextCtr + 1 })) = true) ∧
        t.blocksBut s [10, 13, 14] ∧ t.mem = s.mem)) ∧
  (∀ s : State, (s.rad.polled = none → exec .dataTimeout s = .next s ∧ ∀ d, exec (.data d) s = .next s) ∧
    (∀ i n, s.rad.polled = some i → s.node i = some n →
      ∃ t m, exec .dataTimeout s = .next t ∧ t.rad.polled = none ∧ t.node i = some m ∧ m.miss = min (n.miss + 1) 255 ∧
        m.missed = min (n.missed + 1) (2 ^ 32 - 1) ∧ m.st = (if s.fld F.RAD_SCHED_CFG2_m_lost ≤ min (n.miss + 1) 255 ∧ n.st ≠ 3 then 3 else if n.miss + 1 = 2 then 2 else n.st) ∧
        (n.miss + 1 = 2 → t.flag F.RAD_INT_STAT_node_missing = true) ∧
        (s.fld F.RAD_SCHED_CFG2_m_lost ≤ min (n.miss + 1) 255 → n.st ≠ 3 → t.flag F.RAD_INT_STAT_node_lost = true ∧ m.down = none ∧ m.rekey = none) ∧
        (∀ j, j ≠ i → t.node j = s.node j) ∧ t.blocksBut s [0, 1, 10, 12, 14]) ∧
    (∀ (d : RadData) (i : Nat), s.rad.polled = some i → (s.coordinating = false ∨ s.radStopped = true) → exec (.data d) s = .next s)) ∧
  (∀ (d : RadData) (i : Nat) (n : RadNode) (c : Instr) (s : State), s.radStopped = false → d.addr = i + 1 → s.node i = some n →
    ((c = .data d ∧ s.coordinating = true ∧ s.rad.polled = some i) ∨ (c = .heardFrame (.data d) ∧ s.powered 2 = true ∧ s.acting = 2)) →
    d.gen = some n.gen → n.lastCtr < d.counter →
    (d.leave = false → ∃ t m, exec c s = .next t ∧ t.rad.polled = none ∧ t.node i = some m ∧ m.st = 1 ∧ m.miss = 0 ∧ m.lastCtr = d.counter ∧
      m.accepted = min (n.accepted + 1) (2 ^ 32 - 1) ∧ m.lastSeq = d.seq ∧ m.rssi = d.rssi ∧ m.contact = s.rtc.count ∧ m.nextCtr = n.nextCtr ∧ m.gen = n.gen ∧
      (∀ j, j ≠ i → t.node j = s.node j) ∧
      (∀ k v, d.readings = [(k, v)] → 1 ≤ k → k ≤ 15 → s.radRing = false → s.rad.buffer.length < 256 → n.down = none →
        t.rad.buffer = s.rad.buffer ++ [{ kind := k, addr := i + 1, value := v, ticks := s.rtc.count, heard := s.acting == 2, urgent := d.urgent, rssi := d.rssi }]) ∧
      (s.marksWake d = false → t.blocksBut s [0, 1, 10, 12, 14])) ∧
    (d.leave = true → ∃ t, exec c s = .next t ∧ t.node i = none ∧ (∀ j, j ≠ i → t.node j = s.node j))) ∧
  (∀ (d : RadData) (i : Nat) (n : RadNode) (s : State), s.rad.polled = some i → s.coordinating = true → s.radStopped = false → s.node i = some n →
    (d.addr = i + 1 → d.gen = some n.gen → d.counter ≤ n.lastCtr → ∃ t m, exec (.data d) s = .next t ∧ t.flag F.RAD_INT_STAT_replay = true ∧
      t.rad.polled = none ∧ t.node i = some m ∧ m.miss = min (n.miss + 1) 255 ∧ m.lastCtr = n.lastCtr) ∧
    (d.addr ≠ i + 1 ∨ d.gen = none → ∃ t m, exec (.data d) s = .next t ∧ t.flag F.RAD_INT_STAT_auth_fail = true ∧
      t.rad.polled = none ∧ t.node i = some m ∧ m.miss = min (n.miss + 1) 255 ∧ m.lastCtr = n.lastCtr) ∧
    (d.addr = i + 1 → n.rekeying = true → d.gen = some ((n.gen + 1) % 256) → d.gen ≠ some n.gen → d.leave = false →
      ∃ t m, exec (.data d) s = .next t ∧ t.flag F.RAD_INT_STAT_rekey = true ∧ t.node i = some m ∧ m.gen = (n.gen + 1) % 256 ∧ m.nextCtr = 0 ∧
        m.lastCtr = d.counter ∧ m.rekeying = false)) ∧
  (∀ (j : RadJoin) (s : State), (s.coordinating = false ∨ s.radSlot ≠ 0 ∨ s.radStopped = true → exec (.joinReq j) s = .next s) ∧
    (s.coordinating = true → s.radSlot = 0 → s.radStopped = false →
      (j.good = false → ∃ t, exec (.joinReq j) s = .next t ∧ t.flag F.RAD_INT_STAT_auth_fail = true ∧ t.regsBut s [Reg.RAD_INT_STAT] ∧
        { t with regs := s.regs, counts := s.counts } = s) ∧
      (j.good = true → s.rad.judged = true → ∃ t, exec (.joinReq j) s = .next t ∧ t.regsBut s [] ∧ { t with regs := s.regs, counts := s.counts } = s) ∧
      (j.good = true → s.rad.judged = false → s.rad.evict = [] →
        (∀ st, (st = 3 ∧ s.fld F.RAD_JOIN_open_cycles = 0) ∨ (st = 1 ∧ s.fld F.RAD_JOIN_open_cycles ≠ 0 ∧ s.nodeByEui j.eui = none ∧ 1024 ≤ s.rad.nodes.length) ∨
            (st = 2 ∧ s.fld F.RAD_JOIN_open_cycles ≠ 0 ∧ s.nodeByEui j.eui = none ∧ s.rad.nodes.length < 1024 ∧ (s.assignExp j).bind s.findSlot = none) →
          ∃ t, exec (.joinReq j) s = .next t ∧ t.flag F.RAD_INT_STAT_join_refused = true ∧ t.rad.resp = some (j.eui, st, none) ∧
            t.rad.judged = true ∧ t.rad.nodes = s.rad.nodes ∧ t.blocksBut s [1, 10, 12, 14]) ∧
        (∀ i n, s.fld F.RAD_JOIN_open_cycles ≠ 0 → s.nodeByEui j.eui = some (i, n) → s.node i = some n →
          ∃ t, exec (.joinReq j) s = .next t ∧ t.flag F.RAD_INT_STAT_joined = true ∧ t.rad.resp = some (j.eui, 0, some i) ∧
            t.node i = some { n with gen := 0, lastCtr := j.counter, nextCtr := 0, rekeying := false, rssi := j.rssi, lqi := j.lqi, contact := s.rtc.count } ∧
            (∀ k, k ≠ i → t.node k = s.node k) ∧ t.blocksBut s [1, 10, 12, 14]) ∧
        (∀ e k p i, s.fld F.RAD_JOIN_open_cycles ≠ 0 → s.nodeByEui j.eui = none → s.rad.nodes.length < 1024 → s.assignExp j = some e → s.findSlot e = some (k, p) →
          (List.range 1024).find? (fun i => (s.node i).isNone) = some i →
          ∃ t, exec (.joinReq j) s = .next t ∧ t.flag F.RAD_INT_STAT_joined = true ∧ t.rad.resp = some (j.eui, 0, some i) ∧
            t.node i = some { eui := j.eui, e := e, slot := k, phase := p, drift := j.drift, kinds := j.kinds, rssi := j.rssi, lqi := j.lqi, contact := s.rtc.count, lastCtr := j.counter } ∧
            (∀ x, x ≠ i → t.node x = s.node x) ∧ t.fld F.RAD_STATUS_nodes = t.rad.nodes.length ∧ t.blocksBut s [1, 10, 12, 14])))) ∧
  (∀ (h : RadHeard) (s : State), (s.powered 2 = false ∨ s.acting ≠ 2 ∨ s.radStopped = true → exec (.heardFrame h) s = .next s) ∧
    (s.powered 2 = true → s.acting = 2 → s.radStopped = false →
      (∀ a ctr n, h = .poll (a + 1) ctr true → s.rad.polled = none → s.node a = some n →
        (n.nextCtr ≤ ctr → ∃ t, exec (.heardFrame h) s = .next t ∧ t.rad.polled = some a ∧ t.node a = some { n with nextCtr := ctr + 1 } ∧
          (∀ k, k ≠ a → t.node k = s.node k) ∧ { t with rad := s.rad } = s) ∧
        (ctr < n.nextCtr → ∃ t, exec (.heardFrame h) s = .next t ∧ t.flag F.RAD_INT_STAT_replay = true ∧ t.rad = s.rad ∧ t.regsBut s [Reg.RAD_INT_STAT])) ∧
      (∀ eui i e slot phase drift kinds ctr, h = .join eui i e slot phase drift kinds ctr true →
        ∃ t, exec (.heardFrame h) s = .next t ∧
          (s.hasEui eui i = false → t.node i = some { eui := eui, e := e, slot := slot, phase := phase, drift := drift, kinds := kinds, nextCtr := ctr + 1, contact := s.rtc.count }) ∧
          (s.hasEui eui i = true → t.node i = (s.node i).map fun n => { n with gen := 0, lastCtr := 0, nextCtr := ctr + 1, rekeying := false, contact := s.rtc.count }) ∧
          (∀ k, k ≠ i → t.node k = s.node k) ∧ t.regsBut s [Reg.RAD_STATUS] ∧ { t with regs := s.regs, rad := s.rad } = s) ∧
      (∀ a ctr, h = .poll a ctr false → ∃ t, exec (.heardFrame h) s = .next t ∧ t.flag F.RAD_INT_STAT_auth_fail = true ∧ t.rad = s.rad ∧
        t.regsBut s [Reg.RAD_INT_STAT]))) ∧
  (∀ (ini : Nat) (w : Word) (s : State), s.reaches ini Reg.RAD_CTRL = true →
    ((fieldOf F.RAD_CTRL_role w = 3 ∨ (fieldOf F.RAD_CTRL_enable w = 1 ∧ s.flag F.RAD_CTRL_enable = false ∧ s.scheduleFits = false)) →
      ∃ t, exec (.radioEnable ini w) s = .next t ∧ t.flag F.RAD_INT_STAT_cfg_refused = true ∧ t.regsBut s [Reg.RAD_INT_STAT] ∧ t.rad = s.rad) ∧
    (∀ k u, fieldOf F.RAD_CTRL_role w ≠ 3 → fieldOf F.RAD_CTRL_enable w = 1 → s.flag F.RAD_CTRL_enable = false → s.scheduleFits = true →
      ((s.answerWith .ok).setReg Reg.RAD_CTRL (w &&& 0xE#32)).keyRequest 3 (s.fld F.RAD_CFG_key_slot) [3] [11] = (.key k, u) →
      ∃ t, exec (.radioEnable ini w) s = .next t ∧ t.flag F.RAD_CTRL_enable = true ∧ t.rad.master = k ∧ t.acting = t.wantedRole ∧ t.rad.nodes = s.rad.nodes) ∧
    (fieldOf F.RAD_CTRL_role w ≠ 3 → fieldOf F.RAD_CTRL_enable w = 0 → ∃ t, exec (.radioEnable ini w) s = .next t ∧
      t.flag F.RAD_CTRL_enable = false ∧ t.rad.master = [] ∧ t.acting = 0 ∧ t.rad.evict = [] ∧ t.rad.mirror = none)) ∧
  (∀ s : State, (s.powered 2 = false ∨ s.wantedRole = s.acting ∨ (s.acting = 2 ∧ s.wantedRole = 1 ∧ s.radSlot ≠ 0) → exec .radioRoleChange s = .next s) ∧
    (s.powered 2 = true → s.wantedRole ≠ s.acting → (s.acting ≠ 2 ∨ s.wantedRole ≠ 1 ∨ s.radSlot = 0) → ∃ t, exec .radioRoleChange s = .next t ∧ t.acting = s.wantedRole ∧
      t.flag F.RAD_INT_STAT_role_change = true ∧ t.rad.polled = none ∧ t.rad.resp = none ∧ (s.acting ≠ 2 ∨ s.wantedRole ≠ 1 → t.rad.nodes = s.rad.nodes) ∧
      (s.acting = 2 → s.wantedRole = 1 → s.rad.mirror = none →
        ∀ i, i < 1024 → t.node i = (s.node i).map fun n => { n with nextCtr := min (n.nextCtr + 2 ^ 20) (2 ^ 32 - 1) })) ∧
    (s.coordinating = false ∨ s.rad.mirror = none → exec .radioMirrorWrite s = .next s) ∧
    (s.coordinating = true → s.rad.mirror ≠ none → ∃ t, exec .radioMirrorWrite s = .next t ∧ t.rad = { s.rad with mirrorGen := s.rad.mirrorGen + 1 } ∧
      t.mem = (s.writeMem 18 s.mirrorBase (((List.range 1024).flatMap fun i => match s.node i with | some n => nodeBytes i n | none => zeros 64) ++
        zeros 56 ++ natLE 8 (s.rad.mirrorGen + 1))).2.mem)) ∧
  (∀ (s v : State) (slot : Nat) (desc : List Byte), s.taken 0xA0 = some (slot, desc, v) →
    (∀ op c, (op, c) ∈ [(1, Instr.nodeEvict), (2, .nodeRead), (3, .downlink), (4, .rekey)] → byteAt desc 0 = op →
      (le desc 2 2 = 0 ∨ v.node (le desc 2 2 - 1) = none) → exec c s = .next ((v.finish 0xA0 slot { status := Status.notFound }).settle 0xA0)) ∧
    (∀ i n, le desc 2 2 = i + 1 → v.node i = some n →
      (byteAt desc 0 = 1 → (v.acting ≠ 0 → exec .nodeEvict s = .next (v.modRad fun r => { r with evict := r.evict ++ [(slot, i)] })) ∧
        (v.acting = 0 → ∃ u : State, exec .nodeEvict s = .next ((u.finish 0xA0 slot okCpl).settle 0xA0) ∧ u.node i = none ∧
          (∀ j, j ≠ i → u.node j = v.node j))) ∧
      (byteAt desc 0 = 2 → (le desc 8 8 % 64 ≠ 0 ∨ 2 ^ 40 ≤ le desc 8 8 → exec .nodeRead s = .next ((v.finish 0xA0 slot (badField 0x88)).settle 0xA0)) ∧
        (∀ a w, le desc 8 8 % 64 = 0 → le desc 8 8 < 2 ^ 40 → v.writeMem 18 (le desc 8 8) (nodeBytes i n) = (a, w) →
          exec .nodeRead s = .next ((w.finish 0xA0 slot { status := match a with
            | .data _ => Status.ok | .denied => Status.accessDenied | .error => Status.memoryError }).settle 0xA0))) ∧
      (byteAt desc 0 = 3 → (byteAt desc 4 = 0 ∨ 8 < byteAt desc 4 → exec .downlink s = .next ((v.finish 0xA0 slot (badField 0x84)).settle 0xA0)) ∧
        (1 ≤ byteAt desc 4 → byteAt desc 4 ≤ 8 → n.down ≠ none → exec .downlink s = .next ((v.finish 0xA0 slot { status := Status.busy }).settle 0xA0)) ∧
        (1 ≤ byteAt desc 4 → byteAt desc 4 ≤ 8 → n.down = none → ∃ t, exec .downlink s = .next t ∧
          t.node i = some { n with down := some (slot, sliceB desc 16 (byteAt desc 4), false) } ∧ (∀ j, j ≠ i → t.node j = v.node j) ∧ { t with rad := v.rad } = v)) ∧
      (byteAt desc 0 = 4 → (n.rekey ≠ none → exec .rekey s = .next ((v.finish 0xA0 slot { status := Status.busy }).settle 0xA0)) ∧
        (n.rekey = none → ∃ t, exec .rekey s = .next t ∧ t.node i = some { n with rekey := some slot } ∧ (∀ j, j ≠ i → t.node j = v.node j) ∧
          { t with rad := v.rad } = v))))

/-- R368, R484, R487 to R497, R499 to R504. -/
def Obligations.CabinetFramesAreSentAndReceived : Prop :=
  (∀ (n : Nat) (f : CanFrame) (s : State), (s.canOnBus n = false ∨ s.fld (F.CAB_CFG_mode n) = 2 → exec (.canFrameReceived n f) s = .next s) ∧
    (s.canOnBus n = true → s.fld (F.CAB_CFG_mode n) ≠ 2 →
      (f.fd = true → s.flag (F.CAB_CFG_fd_en n) = false → ∃ t, exec (.canFrameReceived n f) s = .next t ∧ t.fld (F.CAB_STATUS_lec n) = 2 ∧
        t.fld (F.CAB_STATUS_rec n) = min (s.fld (F.CAB_STATUS_rec n) + 1) 255 ∧ t.cab = s.cab ∧ t.blocksBut s [1, 11, 12, 14]) ∧
      ((f.fd = false ∨ s.flag (F.CAB_CFG_fd_en n) = true) → f.remote = true → ∃ t, exec (.canFrameReceived n f) s = .next t ∧ t.regsBut s [] ∧
        { t with regs := s.regs, counts := s.counts } = s) ∧
      ((f.fd = false ∨ s.flag (F.CAB_CFG_fd_en n) = true) → f.remote = false →
        (∀ o x, s.takingObj n f = some (o, x) → ∃ t, exec (.canFrameReceived n f) s = .next t ∧
          t.cabObj n o = some { x with new := true, overrun := x.overrun || x.new, live := some (f, shortForm s.wall) } ∧
          (∀ m p, p < 32 → (m ≠ n ∨ p ≠ o) → t.cabObj m p = s.cabObj m p) ∧ t.cab.sends = s.cab.sends ∧
          (x.new = true → (t.regN Reg.CAB_INT_STAT).testBit (8 * n + 1) = true) ∧
          t.fld (F.CAB_STATUS_rec n) = recAfter (s.fld (F.CAB_STATUS_rec n)) ∧ t.fld (F.CAB_STATUS_tec n) = s.fld (F.CAB_STATUS_tec n) ∧
          t.blocksBut s [1, 2, 11, 12, 14]) ∧
        (s.takingObj n f = none → ∃ t, exec (.canFrameReceived n f) s = .next t ∧ t.cab = s.cab) ∧
        (∀ g r, s.blw.rails = [(g, r)] → g < 16 → byteAt r.block 2 = n → le r.block 4 4 % 2 ^ 29 = f.id → (byteAt r.block 7).testBit 5 = f.ext →
          s.fld F.TWN_STATUS_role = 3 → ∃ t, exec (.canFrameReceived n f) s = .next t ∧
            t.rail g = some { r with fine := 100 * le f.data 0 2 } ∧ t.railTarget g = le f.data 0 2)))) ∧
  (∀ (n lec tec rec' : Nat) (sender exempt heavy : Bool) (s : State), (s.canOnBus n = false → exec (.canBusError n lec sender exempt heavy) s = .next s) ∧
    (s.canOnBus n = true → tec = s.fld (F.CAB_STATUS_tec n) + (if sender && !exempt then 8 else 0) →
      rec' = s.fld (F.CAB_STATUS_rec n) + (if sender then 0 else if heavy then 8 else 1) →
      (tec ≤ 255 → ∃ t, exec (.canBusError n lec sender exempt heavy) s = .next t ∧ t.fld (F.CAB_STATUS_tec n) = tec ∧
        t.fld (F.CAB_STATUS_rec n) = min rec' 255 ∧ t.fld (F.CAB_STATUS_lec n) = lec % 8 ∧
        t.flag (F.CAB_STATUS_warning n) = (96 ≤ tec || 96 ≤ rec') ∧ t.canState n = (if 128 ≤ tec ∨ 128 ≤ rec' then 2 else 1) ∧
        t.cab = s.cab ∧ t.blocksBut s [1, 11, 12, 14]) ∧
      (255 < tec → ∃ t, exec (.canBusError n lec sender exempt heavy) s = .next t ∧ t.canState n = 3 ∧ t.fld (F.CAB_STATUS_tec n) = 255 ∧
        (t.regN Reg.CAB_INT_STAT).testBit (8 * n + 3) = true ∧ t.cab.sends = s.cab.sends.filter (fun x => x.chan != n) ∧
        t.blocksBut s [0, 1, 11, 12, 14]))) ∧
  (∀ (ini n o : Nat) (s : State), (2 ≤ n → exec (.recover ini n) s = .next s ∧ exec (.canSleep ini n) s = .next s ∧
      exec (.canWakeWrite ini n) s = .next s ∧ exec (.objectRead ini n o) s = .next s ∧ exec (.busOffRecovered n) s = .next s) ∧
    (n < 2 → s.reaches ini (Reg.CAB_CTRL n) = true →
      (∃ t, exec (.recover ini n) s = .next t ∧ t.canState n = (if s.canState n = 3 then 4 else s.canState n) ∧ t.regsBut s [Reg.CAB_STATUS n] ∧
        { t with regs := s.regs, answer := s.answer } = s) ∧
      (s.canState n = 5 → exec (.canSleep ini n) s = .next (s.answerWith .ok)) ∧
      (s.canState n ≠ 5 → s.railUses n = true → ∃ t, exec (.canSleep ini n) s = .next t ∧ (t.regN Reg.CAB_INT_STAT).testBit (8 * n + 7) = true ∧
        t.regsBut s [Reg.CAB_INT_STAT] ∧ { t with regs := s.regs, answer := s.answer } = s) ∧
      (s.canState n ≠ 5 → s.railUses n = false → (s.cab.sends.any fun x => x.chan == n && x.onBus) = false → ∃ t, exec (.canSleep ini n) s = .next t ∧
        t.canState n = 5 ∧ t.cab.sends = s.cab.sends.filter (fun x => x.chan != n) ∧ t.cab.asleep.find? (fun p => p.1 == n) = some (n, s.xcvr n) ∧
        t.cab.objs = s.cab.objs ∧ t.blocksBut s [0, 1, 11, 12, 14]) ∧
      (s.canState n ≠ 5 → s.railUses n = false → (s.cab.sends.any fun x => x.chan == n && x.onBus) = true → ∃ t, exec (.canSleep ini n) s = .next t ∧
        t.canState n = s.canState n ∧ t.cab.sends = s.cab.sends.filter (fun x => !(x.chan == n && !x.onBus)) ∧ n ∈ t.cab.sleepReq) ∧
      (s.canState n ≠ 5 → exec (.canWakeWrite ini n) s = .next (s.answerWith .ok)) ∧
      (s.canState n = 5 → ∃ t, exec (.canWakeWrite ini n) s = .next t ∧ t.canState n = b2n (s.flag (F.CAB_CFG_enable n)) ∧
        t.cab.asleep.find? (fun p => p.1 == n) = none ∧ t.cab.objs = s.cab.objs)) ∧
    (n < 2 → (s.powered 24 = false ∨ s.canState n ≠ 4 → exec (.busOffRecovered n) s = .next s) ∧
      (s.powered 24 = true → s.canState n = 4 → ∃ t, exec (.busOffRecovered n) s = .next t ∧ t.fld (F.CAB_STATUS_tec n) = 0 ∧
        t.fld (F.CAB_STATUS_rec n) = 0 ∧ t.canState n = b2n (s.flag (F.CAB_CFG_enable n)) ∧ (t.regN Reg.CAB_INT_STAT).testBit (8 * n + 4) = true ∧
        t.cab.objs = s.cab.objs)) ∧
    (n < 2 → o < 32 → s.reaches ini (cabObjAddr n o) = true → ∃ t, exec (.objectRead ini n o) s = .next t ∧
      t.answer = .word (BitVec.ofNat 32 (s.objWords n o)) ∧ t.cabObj n o = (s.cabObj n o).map (fun x => { x with new := false, overrun := false }) ∧
      (∀ m p, p < 32 → (m ≠ n ∨ p ≠ o) → t.cabObj m p = s.cabObj m p) ∧ t.cab.sends = s.cab.sends ∧ t.regs = s.regs ∧ t.mem = s.mem)) ∧
  (∀ (n : Nat) (f : Option CanFrame) (s : State),
    (s.cab.asleep.find? (fun p => p.1 == n) = none ∨ 2 ≤ n → exec (.canWake n f) s = .next s) ∧
    (∀ x, n < 2 → s.cab.asleep.find? (fun p => p.1 == n) = some (n, x) → (x.wakes f = false → exec (.canWake n f) s = .next s) ∧
      (x.wakes f = true →
        ((s.regN Reg.BLW_WAKE_EN).testBit (2 + n) = true → ∃ t, exec (.canWake n f) s = .next t ∧ (t.regN Reg.BLW_WAKE_CAUSE).testBit (2 + n) = true) ∧
        ((s.regN Reg.BLW_WAKE_EN).testBit (2 + n) = false → ∃ t, exec (.canWake n f) s = .next t ∧ t.cab = s.cab ∧
          (s.powered 24 = true → (t.regN Reg.CAB_INT_STAT).testBit (8 * n + 5) = true) ∧ t.blocksBut s [1, 11, 12, 14])))) ∧
  (∀ (n out : Nat) (s : State), (s.cab.sends.find? (fun x => x.chan == n && x.onBus) = none ∨ 2 < out → exec (.canFrameSent n out) s = .next s) ∧
    (∀ x, n < 2 → s.cab.sends.find? (fun x => x.chan == n && x.onBus) = some x → s.cabOwner = true →
      (out = 0 → s.fld (F.CAB_CFG_mode n) = 2 → ∃ t, exec (.canFrameSent n out) s = .next t ∧ t.out.countP (· matches .can ..) = s.out.countP (· matches .can ..) ∧
        (s.takingObj n x.frame).all (fun o => t.cabObj n o.1 == some { o.2 with new := true, overrun := o.2.overrun || o.2.new, live := some (x.frame, shortForm s.wall) }) = true) ∧
      (out = 0 → s.fld (F.CAB_CFG_mode n) ≠ 2 → s.cab.sleepReq.contains n = false → ∃ t, exec (.canFrameSent n out) s = .next t ∧ t.cab.sends.length + 1 = s.cab.sends.length ∧
        Out.can n x.frame.id x.frame.ext x.frame.fd x.frame.brs x.frame.data ∈ t.out ∧ t.fld (F.CAB_STATUS_tec n) = s.fld (F.CAB_STATUS_tec n) - 1 ∧
        t.cab.objs = s.cab.objs ∧ t.blocksBut s [0, 1, 11, 12, 14]) ∧
      ((out = 1 ∨ out = 2) → x.oneShot = true → s.cab.sleepReq.contains n = false → ∃ t, exec (.canFrameSent n out) s = .next t ∧ t.cab.sends.length + 1 = s.cab.sends.length ∧
        (x.obj < 32 → (t.regN Reg.CAB_INT_STAT).testBit (8 * n) = true) ∧ t.cab.objs = s.cab.objs ∧ t.blocksBut s [0, 1, 11, 12, 14]) ∧
      ((out = 1 ∨ out = 2) → x.oneShot = false → s.cab.sleepReq.contains n = false → s.flag (F.CAB_CFG_enable n) = true →
        (32 ≤ x.obj → ((s.cab.sends.erase x).any fun y => y.obj == x.obj) = true → ∃ t, exec (.canFrameSent n out) s = .next t ∧
          t.cab.sends.length + 1 = s.cab.sends.length ∧ t.cab.objs = s.cab.objs ∧ t.regsBut s []) ∧
        (x.obj < 32 ∨ ((s.cab.sends.erase x).any fun y => y.obj == x.obj) = false → ∃ t, exec (.canFrameSent n out) s = .next t ∧ t.cab.sends.length = s.cab.sends.length ∧
          (∃ y, y ∈ t.cab.sends ∧ y.chan = n ∧ y.obj = x.obj ∧ y.slot = x.slot) ∧ t.cab.objs = s.cab.objs ∧ t.regsBut s [])))) ∧
  (∀ (n o : Nat) (s : State),
    (s.cabObj n o = none ∨ s.canOnBus n = false ∨ s.fld (F.CAB_CFG_mode n) = 1 → exec (.periodicSend n o) s = .next s) ∧
    (∀ x, s.cabObj n o = some x → (x.rx = true ∨ x.period = 0 ∨ (x.ownerOnly = true ∧ s.cabOwner = false) → exec (.periodicSend n o) s = .next s) ∧
      (x.rx = false → x.period ≠ 0 → s.canOnBus n = true → s.fld (F.CAB_CFG_mode n) ≠ 1 → (x.ownerOnly = false ∨ s.cabOwner = true) →
        ∃ t, exec (.periodicSend n o) s = .next t ∧ (∃ y, y ∈ t.cab.sends ∧ y.chan = n ∧ y.obj = o ∧ y.slot = none ∧ y.oneShot = x.oneShot) ∧
          t.cab.objs = s.cab.objs ∧ t.blocksBut s [0, 1, 11, 12, 14]))) ∧
  (∀ (g : Nat) (s : State), (s.rail g = none ∨ s.cabOwner = false → exec (.railSetpointMessage g) s = .next s) ∧
    (∀ r, s.rail g = some r → (s.canOnBus (byteAt r.block 2) = false → exec (.railSetpointMessage g) s = .next s) ∧
      (s.cabOwner = true → s.canOnBus (byteAt r.block 2) = true → ∃ t, exec (.railSetpointMessage g) s = .next t ∧
        (∃ y, y ∈ t.cab.sends ∧ y.obj = 32 + g ∧ y.frame = s.railFrame g (nth s.cab.railSeq g 0) r) ∧ t.regsBut s [] ∧ t.mem = s.mem))) ∧
  (∀ (s v : State) (slot : Nat) (desc : List Byte), s.taken 0xB0 = some (slot, desc, v) →
    (∀ op c, (op, c) ∈ [(1, Instr.objSet), (2, .txLoad), (3, .txAbort)] → byteAt desc 0 = op →
      (2 ≤ byteAt desc 1 → exec c s = .next ((v.finish 0xB0 slot (badField 0x81)).settle 0xB0)) ∧
      (byteAt desc 1 < 2 → 32 ≤ byteAt desc 2 → exec c s = .next ((v.finish 0xB0 slot (badField 0x82)).settle 0xB0))) ∧
    (byteAt desc 0 = 3 → byteAt desc 1 < 2 → byteAt desc 2 < 32 → ∃ u : State, exec .txAbort s = .next ((u.finish 0xB0 slot okCpl).settle 0xB0) ∧
      u.cab.sends = v.cab.sends.filter (fun x => !(x.chan == byteAt desc 1 && x.obj == byteAt desc 2 && !x.onBus)) ∧ u.cab.objs = v.cab.objs ∧
      u.blocksBut v [0, 1, 11, 12, 14])) ∧
  (∀ (s v : State) (slot n o : Nat) (desc b : List Byte), s.takenBlock 0xB0 = some (slot, desc, b, v) → byteAt desc 1 = n → byteAt desc 2 = o → n < 2 → o < 32 →
    (byteAt desc 0 = 1 →
      (∀ a, v.objBad n (objOfBlock b) = some a → exec .objSet s = .next ((v.finish 0xB0 slot (badField a)).settle 0xB0)) ∧
      (v.objBad n (objOfBlock b) = none → (v.cab.sends.any fun y => y.chan == n && y.obj == o) = true →
        exec .objSet s = .next ((v.finish 0xB0 slot { status := Status.busy }).settle 0xB0)) ∧
      (v.objBad n (objOfBlock b) = none → (v.cab.sends.any fun y => y.chan == n && y.obj == o) = false →
        ∃ u : State, exec .objSet s = .next ((u.finish 0xB0 slot okCpl).settle 0xB0) ∧
          u.cabObj n o = (if (byteAt b 3).testBit 7 then some (objOfBlock b) else none) ∧
          (∀ m p, p < 32 → (m ≠ n ∨ p ≠ o) → u.cabObj m p = v.cabObj m p) ∧ { u with cab := v.cab } = v)) ∧
    (byteAt desc 0 = 2 →
      (v.cabObj n o = none → exec .txLoad s = .next ((v.finish 0xB0 slot refusedState).settle 0xB0)) ∧
      (∀ x, v.cabObj n o = some x →
        ((x.rx = true ∨ ((byteAt desc 3).testBit 0 = true ∧ (v.flag (F.CAB_CFG_enable n) = false ∨ v.fld (F.CAB_CFG_mode n) = 1 ∨ v.canState n = 5))) →
          exec .txLoad s = .next ((v.finish 0xB0 slot refusedState).settle 0xB0)) ∧
        (x.rx = false → (byteAt desc 3).testBit 0 = false → ∃ u : State, exec .txLoad s = .next ((u.finish 0xB0 slot okCpl).settle 0xB0) ∧
          u.cabObj n o = some { x with data := b } ∧ (∀ m p, p < 32 → (m ≠ n ∨ p ≠ o) → u.cabObj m p = v.cabObj m p) ∧ { u with cab := v.cab } = v) ∧
        (x.rx = false → (byteAt desc 3).testBit 0 = true → v.flag (F.CAB_CFG_enable n) = true → v.fld (F.CAB_CFG_mode n) ≠ 1 →
          (v.canState n = 3 → ∃ u : State, exec .txLoad s = .next ((u.finish 0xB0 slot { status := Status.refused, w1 := 0x300 }).settle 0xB0) ∧
            u.cab.sends = v.cab.sends ∧ (u.regN Reg.CAB_INT_STAT).testBit (8 * n) = true) ∧
          (v.canState n ≠ 3 → v.canState n ≠ 5 → x.ownerOnly = true → v.cabOwner = false →
            ∃ u : State, exec .txLoad s = .next ((u.finish 0xB0 slot { status := Status.refused, w1 := 0x500 }).settle 0xB0) ∧ u.cab.sends = v.cab.sends) ∧
          (v.canState n ≠ 3 → v.canState n ≠ 5 → (x.ownerOnly = false ∨ v.cabOwner = true) → x.period = 0 →
            ∃ t, exec .txLoad s = .next t ∧ t.cabObj n o = some { x with data := b } ∧
              (∃ y, y ∈ t.cab.sends ∧ y.chan = n ∧ y.obj = o ∧ y.slot = some slot ∧ y.oneShot = x.oneShot)) ∧
          (v.canState n ≠ 3 → v.canState n ≠ 5 → (x.ownerOnly = false ∨ v.cabOwner = true) → x.period ≠ 0 →
            ∃ u : State, exec .txLoad s = .next ((u.finish 0xB0 slot okCpl).settle 0xB0) ∧ u.cabObj n o = some { x with data := b } ∧
              (∃ y, y ∈ u.cab.sends ∧ y.chan = n ∧ y.obj = o ∧ y.slot = none ∧ y.oneShot = x.oneShot))))))

/-- R507 to R510, R513 to R537, R564 and R568. -/
def Obligations.KeysAreFilledUsedAndFenced : Prop :=
  (∀ (s v : State) (slot op : Nat) (desc b : List Byte) (c : Instr) (rb : Bool) (types : List Nat),
    s.takenBlock 8 = some (slot, desc, b, v) → s.auditRoom = true → byteAt desc 0 = op →
    (op, c, types) ∈ [(1, Instr.keyWrite rb, [1, 2, 3, 4, 5]), (2, .keyGenerate rb, [1, 2, 3, 4]), (3, .keyDeriveHkdf rb, [1, 2, 3, 4]),
      (4, .keyDerive108 rb, [1, 2, 3, 4])] →
    (∀ st off n, ((st = Status.formatError ∧ off = 0 ∧ n = byteAt desc 1 ∧ (7 ≤ keyType (le b 0 4) ∨ (keyType (le b 0 4) ∉ types ∧ op ≤ 2) ∨
          (keyType (le b 0 4) ∈ types ∧ attrGood (attrWord (le b 0 4)) = false))) ∨
        (st = Status.refused ∧ off = 0xFF ∧ n = byteAt desc 1 ∧ keyType (le b 0 4) ∈ [0, 5, 6] ∧ 3 ≤ op) ∨
        (st = Status.refused ∧ off = 0xFF ∧ keyType (le b 0 4) ∈ types ∧ attrGood (attrWord (le b 0 4)) = true ∧ v.keyDest (byteAt desc 1) = some n ∧
          ((v.keySlot n).attr.testBit 19 = true ∨ v.flag F.KEY_STATUS_rng_ok = false))) →
      exec c s = .next ((v.finish 8 slot (v.keyCpl n st off)).settle 8)) ∧
    (keyType (le b 0 4) ∈ types → attrGood (attrWord (le b 0 4)) = true → v.keyDest (byteAt desc 1) = none →
      exec c s = .next ((v.finish 8 slot { status := Status.tableFull }).settle 8)) ∧
    (∀ (dest len n : Nat) (key kek bs : List Byte) (w x : State), keyType (le b 0 4) ∈ types → attrGood (attrWord (le b 0 4)) = true →
      v.keyDest (byteAt desc 1) = some dest → (v.keySlot dest).attr.testBit 19 = false → v.flag F.KEY_STATUS_rng_ok = true →
      len = keyLength (keyType (le b 0 4)) → n = le b 32 4 →
      ((op = 1 ∧ (byteAt b 8).testBit 1 = false ∧ le b 16 8 < 2 ^ 40 ∧ n = len ∧ v.keyData (le b 16 8) n = some (key, w)) ∨
        (op = 1 ∧ (byteAt b 8).testBit 1 = true ∧ le b 16 8 < 2 ^ 40 ∧ n = len + 28 ∧ v.keyRequest 6 (byteAt desc 2) [1] [15] = (.key kek, x) ∧
          x.keyData (le b 16 8) n = some (bs, w) ∧
          Crypto.gcmOpen kek (bs.take 12) (natLE 4 (le b 0 4)) (sliceB bs 12 len) (bs.drop (12 + len)) = some key) ∨
        (op = 2 ∧ v.random len = (key, w)) ∨
        (3 ≤ op ∧ (v.keySlot (byteAt desc 2)).damaged = false ∧ (v.keySlot (byteAt desc 2)).attr.testBit 14 = true ∧ le b 16 8 < 2 ^ 40 ∧
          le b 10 2 ≤ 256 ∧ le b 12 2 ≤ 256 ∧ n = le b 10 2 + le b 12 2 ∧ v.keyData (le b 16 8) n = some (bs, w) ∧
          ((op = 3 ∧ (bs.drop (le b 10 2)).take 8 ≠ ascii "CSG-4810" ∧
              key = Crypto.hkdf (v.keySlot (byteAt desc 2)).key (bs.take (le b 10 2)) (bs.drop (le b 10 2)) len) ∨
            (op = 4 ∧ (bs.take (le b 10 2)).take 8 ≠ ascii "CSG-4810" ∧
              key = Crypto.kdf108 (v.keySlot (byteAt desc 2)).key (bs.take (le b 10 2)) (bs.drop (le b 10 2)) len)))) →
      (rb = false → exec c s = .next ((w.finish 8 slot (w.keyCpl dest Status.memoryError 0)).settle 8)) ∧
      (rb = true → (byteAt b 8).testBit 0 = true → kcv { attr := attrWord (le b 0 4), key := key } ≠ le b 4 4 →
        ∃ u : State, exec c s = .next ((u.finish 8 slot (u.keyCpl dest Status.authFailed 0)).settle 8) ∧ u.key = w.key ∧ u.regsBut w [] ∧ u.mem = w.mem) ∧
      (rb = true → ((byteAt b 8).testBit 0 = false ∨ kcv { attr := attrWord (le b 0 4), key := key } = le b 4 4) →
        ∃ u : State, exec c s = .next ((u.finish 8 slot (u.keyCpl dest Status.ok 0)).settle 8) ∧
          u.keySlot dest = { attr := attrWord (le b 0 4), key := key, gen := ((v.keySlot dest).gen + 1) % 2 ^ 16 } ∧
          (∀ j, j ≠ dest → u.keySlot j = v.keySlot j) ∧ u.fld F.KEY_FENCE_gen = (v.fld F.KEY_FENCE_gen + 1) % 2 ^ 16 ∧
          u.flag F.KEY_FENCE_drained = false ∧ u.flag F.KEY_INT_STAT_commit = true ∧ u.blocksBut w [12, 14] ∧ u.mem = w.mem))) ∧
  (∀ (s v : State) (slot : Nat) (desc b : List Byte), s.takenBlock 8 = some (slot, desc, b, v) → s.auditRoom = true → byteAt desc 0 = 5 →
    (∀ st off, ((st = Status.refused ∧ off = 0xFF ∧ (byteAt desc 1 = 0 ∨ (v.keySlot (byteAt desc 1)).attr.testBit 19 = true)) ∨
        (byteAt desc 1 ≠ 0 ∧ (v.keySlot (byteAt desc 1)).attr.testBit 19 = false ∧ off = 0 ∧
          ((st = Status.memoryError ∧ (v.keySlot (byteAt desc 1)).damaged = true) ∨
           (st = Status.notFound ∧ (v.keySlot (byteAt desc 1)).damaged = false ∧ keyType (v.keySlot (byteAt desc 1)).attr = 0) ∨
           (st = Status.formatError ∧ (v.keySlot (byteAt desc 1)).damaged = false ∧ keyType (v.keySlot (byteAt desc 1)).attr ≠ 0 ∧
             (keyType (le b 0 4) ≠ keyType (v.keySlot (byteAt desc 1)).attr ∨ attrGood (attrWord (le b 0 4)) = false))))) →
      exec .keyAttr s = .next ((v.finish 8 slot (v.keyCpl (byteAt desc 1) st off)).settle 8)) ∧
    (∀ k, k = v.keySlot (byteAt desc 1) → byteAt desc 1 ≠ 0 → k.attr.testBit 19 = false → k.damaged = false → keyType k.attr ≠ 0 →
      keyType (le b 0 4) = keyType k.attr → attrGood (attrWord (le b 0 4)) = true →
      ∃ u : State, exec .keyAttr s = .next ((u.finish 8 slot (u.keyCpl (byteAt desc 1) Status.ok 0)).settle 8) ∧
        u.keySlot (byteAt desc 1) = { k with attr := attrWord (le b 0 4), gen := (k.gen + 1) % 2 ^ 16 } ∧
        (∀ j, j ≠ byteAt desc 1 → u.keySlot j = v.keySlot j) ∧ u.fld F.KEY_FENCE_gen = (v.fld F.KEY_FENCE_gen + 1) % 2 ^ 16 ∧
        u.flag F.KEY_FENCE_drained = false ∧ u.flag F.KEY_INT_STAT_commit = true ∧ u.blocksBut v [12, 14] ∧ u.mem = v.mem)) ∧
  (∀ (s v : State) (slot : Nat) (desc : List Byte), s.taken 8 = some (slot, desc, v) →
    (byteAt desc 0 = 6 → s.auditRoom = true →
      ((byteAt desc 1 = 0 ∨ (v.keySlot (byteAt desc 1)).attr.testBit 19 = true) →
        exec .keyErase s = .next ((v.finish 8 slot (v.keyCpl (byteAt desc 1) Status.refused 0xFF)).settle 8)) ∧
      (byteAt desc 1 ≠ 0 → (v.keySlot (byteAt desc 1)).attr.testBit 19 = false →
        ∃ u : State, exec .keyErase s = .next ((u.finish 8 slot (u.keyCpl (byteAt desc 1) Status.ok 0)).settle 8) ∧
          u.keySlot (byteAt desc 1) = { gen := ((v.keySlot (byteAt desc 1)).gen + 1) % 2 ^ 16 } ∧ (∀ j, j ≠ byteAt desc 1 → u.keySlot j = v.keySlot j) ∧
          u.fld F.KEY_FENCE_gen = (v.fld F.KEY_FENCE_gen + 1) % 2 ^ 16 ∧ u.flag F.KEY_FENCE_drained = false ∧ u.blocksBut v [12, 14] ∧ u.mem = v.mem)) ∧
    (byteAt desc 0 = 7 → exec (.keyInfo false) s = .next (((if (v.keySlot (byteAt desc 1)).damaged then { v with draws := v.draws + 1 } else v).finish 8 slot
        (v.keyCpl (byteAt desc 1) Status.ok 0)).settle 8) ∧
      (byteAt desc 1 = 0 → exec (.keyInfo true) s = exec (.keyInfo false) s) ∧
      (byteAt desc 1 ≠ 0 → ∃ u w : State, exec (.keyInfo true) s = .next ((w.finish 8 slot (u.keyCpl (byteAt desc 1) Status.ok 0)).settle 8) ∧
        u.keySlot (byteAt desc 1) = { v.keySlot (byteAt desc 1) with damaged := true } ∧ (∀ j, j ≠ byteAt desc 1 → u.keySlot j = v.keySlot j) ∧
        u.flag F.KEY_INT_STAT_storage_error = true ∧ u.regsBut v [Reg.KEY_INT_STAT] ∧ u.mem = v.mem ∧ w = { u with draws := u.draws + 1 }))) ∧
  (∀ (s : State) (rb : Bool) (c : Instr), s.auditRoom = false →
    (c = .keyWrite rb ∨ c = .keyGenerate rb ∨ c = .keyDeriveHkdf rb ∨ c = .keyDerive108 rb ∨ c = .keyAttr ∨ c = .keyErase) →
    ∃ t, exec c s = .next t ∧ t.key.slots = s.key.slots ∧ t.fld F.KEY_FENCE_gen = s.fld F.KEY_FENCE_gen) ∧
  (∀ (s v : State) (slot op : Nat) (desc b : List Byte) (c : Instr) (bad : Bool) (types : List Nat),
    s.takenBlock 9 = some (slot, desc, b, v) → byteAt desc 0 = op →
    (op, c, types) ∈ [(0x11, Instr.hmacGen bad, [4]), (0x12, .hmacVerify bad, [4]), (0x13, .gcmSeal bad, [1, 2]), (0x14, .gcmOpen bad, [1, 2]),
      (0x15, .ecdsaVerify bad, [5])] →
    (∀ off, ((off = 16 ∧ 2 ^ 40 ≤ le b 16 8) ∨ (off = 24 ∧ le b 16 8 < 2 ^ 40 ∧ 2 ^ 40 ≤ le b 24 8) ∨
        (off = 32 ∧ le b 16 8 < 2 ^ 40 ∧ le b 24 8 < 2 ^ 40 ∧ 16777216 < le b 32 4) ∨
        (off = 36 ∧ le b 16 8 < 2 ^ 40 ∧ le b 24 8 < 2 ^ 40 ∧ le b 32 4 ≤ 16777216 ∧ le b 32 4 < le b 36 4 ∧ (op = 0x13 ∨ op = 0x14))) →
      exec c s = .next (((v.bump 15 3).finish 9 slot (serviceCpl desc Status.formatError off)).settle 9)) ∧
    (le b 16 8 < 2 ^ 40 → le b 24 8 < 2 ^ 40 → le b 32 4 ≤ 16777216 → (le b 36 4 ≤ le b 32 4 ∨ op ∈ [0x11, 0x12, 0x15]) →
      (bad = true → byteAt desc 1 ≠ 0 → v.powered 10 = true →
        ∃ u : State, exec c s = .next ((u.finish 9 slot (serviceCpl desc Status.memoryError 0)).settle 9) ∧
          u.keySlot (byteAt desc 1) = { v.keySlot (byteAt desc 1) with damaged := true } ∧ (∀ j, j ≠ byteAt desc 1 → u.keySlot j = v.keySlot j) ∧
          u.flag F.KEY_INT_STAT_storage_error = true ∧ u.regsBut v [Reg.KEY_INT_STAT, Reg.KEY_LAST_REFUSED] ∧ u.mem = v.mem) ∧
      (∀ a w st, (bad = false ∨ byteAt desc 1 = 0) → v.keyRequest 7 (byteAt desc 1) types [16] = (a, w) →
        (a = .refused ∧ st = Status.keyRefused) ∨ (a = .memoryError ∧ st = Status.memoryError) →
        exec c s = .next (((w.bump 15 3).finish 9 slot (serviceCpl desc st 0)).settle 9)) ∧
      (∀ (key data : List Byte) (w x : State), bad = false → v.keyRequest 7 (byteAt desc 1) types [16] = (.key key, x) → x.keyData (le b 16 8) (le b 32 4) = some (data, w) →
        (∀ st y, op = 0x11 → w.keyStore (le b 24 8) (Crypto.hmac key data) = (st, y) →
          exec c s = .next (((y.bump 15 3).finish 9 slot (serviceCpl desc st 0)).settle 9)) ∧
        (∀ tag y good, ((op = 0x12 ∧ w.keyData (le b 24 8) 32 = some (tag, y) ∧ good = (tag == Crypto.hmac key data)) ∨
            (op = 0x15 ∧ w.keyData (le b 24 8) 96 = some (tag, y) ∧ good = Crypto.ecdsaVerify key data tag)) →
          ∃ u : State, exec c s = .next ((u.finish 9 slot (serviceCpl desc (if good then Status.ok else Status.authFailed) 0)).settle 9) ∧
            u.key = y.key ∧ u.regsBut y [] ∧ u.mem = y.mem) ∧
        (op = 0x13 → w.flag F.KEY_STATUS_rng_ok = false →
          exec c s = .next (((w.bump 15 3).finish 9 slot (serviceCpl desc Status.refused 0xFF)).settle 9)) ∧
        (op = 0x13 → w.flag F.KEY_STATUS_rng_ok = true →
          ∃ (st : Nat) (r : List Byte) (y z : State), r.length = 4 ∧ exec c s = .next (((z.bump 15 3).finish 9 slot (serviceCpl desc st 0)).settle 9) ∧
            y.keySlot (byteAt desc 1) = { w.keySlot (byteAt desc 1) with counter := ((w.keySlot (byteAt desc 1)).counter + 1) % 2 ^ 64 } ∧
            (∀ j, j ≠ byteAt desc 1 → y.keySlot j = w.keySlot j) ∧ y.regs = w.regs ∧ y.mem = w.mem ∧ y.draws = w.draws + 1 ∧
            y.keyStore (le b 24 8) (r ++ natBE 8 (y.keySlot (byteAt desc 1)).counter ++
              (Crypto.gcmSeal key (r ++ natBE 8 (y.keySlot (byteAt desc 1)).counter) (data.take (le b 36 4)) (data.drop (le b 36 4))).1 ++
              (Crypto.gcmSeal key (r ++ natBE 8 (y.keySlot (byteAt desc 1)).counter) (data.take (le b 36 4)) (data.drop (le b 36 4))).2) = (st, z)) ∧
        (op = 0x14 → data.length < 28 + le b 36 4 →
          exec c s = .next (((w.bump 15 3).finish 9 slot (serviceCpl desc Status.formatError 32)).settle 9)) ∧
        (∀ r, op = 0x14 → 28 + le b 36 4 ≤ data.length → Crypto.gcmOpen key (data.take 12) (sliceB data 12 (le b 36 4))
            (sliceB data (12 + le b 36 4) (data.length - 28 - le b 36 4)) (data.drop (data.length - 16)) = r →
          (r = none → ∃ u : State, exec c s = .next ((u.finish 9 slot (serviceCpl desc Status.authFailed 0)).settle 9) ∧
            u.key = w.key ∧ u.regsBut w [] ∧ u.mem = w.mem) ∧
          (r = some [] → exec c s = .next (((w.bump 15 3).finish 9 slot (serviceCpl desc Status.ok 0)).settle 9)) ∧
          (∀ pt st y, r = some pt → pt ≠ [] → w.keyStore (le b 24 8) pt = (st, y) →
            exec c s = .next (((y.bump 15 3).finish 9 slot (serviceCpl desc st 0)).settle 9)))))) ∧
  (∀ (s v : State) (slot : Nat) (desc b : List Byte), s.takenBlock 9 = some (slot, desc, b, v) → byteAt desc 0 = 0x16 →
    (∀ st off, ((st = Status.formatError ∧ off = 24 ∧ 2 ^ 40 ≤ le b 24 8) ∨
        (st = Status.formatError ∧ off = 32 ∧ le b 24 8 < 2 ^ 40 ∧ (le b 32 4 = 0 ∨ 4096 < le b 32 4)) ∨
        (st = Status.refused ∧ off = 0xFF ∧ le b 24 8 < 2 ^ 40 ∧ 0 < le b 32 4 ∧ le b 32 4 ≤ 4096 ∧ v.flag F.KEY_STATUS_rng_ok = false)) →
      exec .random s = .next (((v.bump 15 3).finish 9 slot (serviceCpl desc st off)).settle 9)) ∧
    (∀ r w st x, le b 24 8 < 2 ^ 40 → 0 < le b 32 4 → le b 32 4 ≤ 4096 → v.flag F.KEY_STATUS_rng_ok = true → v.random (le b 32 4) = (r, w) →
      w.keyStore (le b 24 8) r = (st, x) → exec .random s = .next (((x.bump 15 3).finish 9 slot (serviceCpl desc st 0)).settle 9))) ∧
  (∀ (s : State) (requester slot : Nat) (clear : Bool) (n : List Nat × List Nat), requesterNeeds requester clear = n →
    (s.powered 10 = false → ∃ t, exec (.keyRequest requester slot clear false) s = .next t ∧ t.out = s.out ++ [.keyPath requester slot false] ∧
      t.key = { s.key with offRefusal := some (requester + slot * 2 ^ 8 + 4 * 2 ^ 16), offCount := s.key.offCount + 1 } ∧ t.regs = s.regs ∧ t.mem = s.mem) ∧
    (s.powered 10 = true → keyRefusal (s.keySlot slot) n.1 n.2 = none →
      ∃ t, exec (.keyRequest requester slot clear false) s = .next t ∧ t.out = s.out ++ [.keyPath requester slot true] ∧ t.key = s.key ∧
        t.regsBut s [] ∧ t.mem = s.mem) ∧
    (∀ r, s.powered 10 = true → keyRefusal (s.keySlot slot) n.1 n.2 = some r →
      ∃ t, exec (.keyRequest requester slot clear false) s = .next t ∧ t.out = s.out ++ [.keyPath requester slot false] ∧ t.key = s.key ∧
        t.regN Reg.KEY_LAST_REFUSED = (requester + slot * 2 ^ 8 + 2 ^ 16 * r) % 2 ^ 32 ∧ t.flag F.KEY_INT_STAT_refused = true ∧
        t.regsBut s [Reg.KEY_LAST_REFUSED, Reg.KEY_INT_STAT] ∧ t.mem = s.mem) ∧
    (s.powered 10 = false ∨ slot = 0 → exec (.keyRequest requester slot clear true) s = exec (.keyRequest requester slot clear false) s) ∧
    (s.powered 10 = true → slot ≠ 0 → ∃ t, exec (.keyRequest requester slot clear true) s = .next t ∧ t.out = s.out ++ [.keyPath requester slot false] ∧
      t.keySlot slot = { s.keySlot slot with damaged := true } ∧ (∀ j, j ≠ slot → t.keySlot j = s.keySlot j) ∧
      t.regN Reg.KEY_LAST_REFUSED = (requester + slot * 2 ^ 8 + 2 ^ 16 * 3) % 2 ^ 32 ∧ t.flag F.KEY_INT_STAT_storage_error = true)) ∧
  (∀ (s : State) (bad : Bool),
    (s.powered 10 = false ∨ s.fld F.KEY_CFG_remask_s = 0 ∨ s.slotInUse s.key.remaskNext = none → exec (.remask bad) s = .next s) ∧
    (∀ n, s.powered 10 = true → s.fld F.KEY_CFG_remask_s ≠ 0 → s.slotInUse s.key.remaskNext = some n →
      ∃ t, exec (.remask bad) s = .next t ∧ t.key.remaskNext = n + 1 ∧ (∀ j, j ≠ n → t.keySlot j = s.keySlot j) ∧
        t.keySlot n = (if bad then { s.keySlot n with damaged := true } else s.keySlot n) ∧
        t.fld F.KEY_FENCE_gen = s.fld F.KEY_FENCE_gen ∧ t.regsBut s (if bad then [Reg.KEY_INT_STAT] else []) ∧ t.mem = s.mem)) ∧
  (∀ s : State, (s.powered 10 = false → exec .keyFenceDrained s = .next s) ∧ (s.powered 10 = true → ∃ t, exec .keyFenceDrained s = .next t ∧ t.flag F.KEY_FENCE_drained = true ∧ t.fld F.KEY_FENCE_gen = s.fld F.KEY_FENCE_gen ∧
      t.regsBut s [Reg.KEY_FENCE] ∧ { t with regs := s.regs } = s) ∧
    (s.powered 10 = false → exec .rngHealthFail s = .next s ∧ exec .rngRecovered s = .next s) ∧
    (s.powered 10 = true → (∃ t, exec .rngHealthFail s = .next t ∧ t.flag F.KEY_STATUS_rng_ok = false ∧ t.flag F.KEY_INT_STAT_rng_fail = true ∧
        t.regsBut s [Reg.KEY_STATUS, Reg.KEY_INT_STAT] ∧ { t with regs := s.regs, counts := s.counts } = s) ∧
      (∃ t, exec .rngRecovered s = .next t ∧ t.flag F.KEY_STATUS_rng_ok = true ∧ t.regsBut s [Reg.KEY_STATUS] ∧ { t with regs := s.regs } = s))) ∧
  (∀ (ini : Nat) (w : Word) (s : State),
    (fieldOf F.KEY_CFG_lock w = 0 → exec (.keyLock ini w) s = .next s) ∧
    (fieldOf F.KEY_CFG_lock w = 1 → s.reaches ini Reg.KEY_CFG = true →
      ∃ t, exec (.keyLock ini w) s = .next t ∧ t.fld F.KEY_CFG_remask_s = fieldOf F.KEY_CFG_remask_s w ∧
        t.flag F.KEY_CFG_lock = (s.flag F.KEY_CFG_lock || s.auditRoom) ∧ (s.flag F.KEY_CFG_lock = true → t.regsBut s [Reg.KEY_CFG]) ∧
        t.blocksBut s [12, 14] ∧ t.key.slots = s.key.slots ∧ t.mem = s.mem))

/-- R538, R539, R543 to R546, R548, R549, R552, R553 and R568. -/
def Obligations.UpdatesAreWrittenCheckedAndConfirmed : Prop :=
  (∀ (s v : State) (slot : Nat) (desc : List Byte) (c : Instr), s.taken 0x50 = some (slot, desc, v) → s.auditRoom = true →
    ((byteAt desc 0, c) ∈ [(1, Instr.updWrite), (2, .updCheck), (3, .updActivate), (4, .updCancel)] ∧ 3 ≤ byteAt desc 1) ∨
      (byteAt desc 0 = 6 ∧ c = .updProcSwap ∧ 2 ≤ byteAt desc 1) →
    exec c s = .next ((v.finish 0x50 slot (badField 0x81)).settle 0x50)) ∧
  (∀ (s v : State) (slot t off a len : Nat) (desc : List Byte), s.taken 0x50 = some (slot, desc, v) → byteAt desc 0 = 1 → byteAt desc 1 = t → t < 3 →
    le desc 4 4 = off → le desc 8 8 = a → le desc 16 4 = len → v.boot.ctl.slots.length = 2 →
    (∀ bad, ((bad = 0x84 ∧ off % 4096 ≠ 0) ∨ (bad = 0x88 ∧ off % 4096 = 0 ∧ 2 ^ 40 ≤ a) ∨
        (bad = 0x90 ∧ off % 4096 = 0 ∧ a < 2 ^ 40 ∧ (len < 4096 ∨ 16777216 < len ∨ len % 4096 ≠ 0 ∨ (if t < 2 then 0x6000000 else 0x3000000) < off + len))) →
      exec .updWrite s = .next ((v.finish 0x50 slot (badField bad)).settle 0x50)) ∧
    (off % 4096 = 0 → a < 2 ^ 40 → 4096 ≤ len → len ≤ 16777216 → len % 4096 = 0 → off + len ≤ (if t < 2 then 0x6000000 else 0x3000000) →
      ((t < 2 ∧ (t = v.runSlot ∨ v.updState t = 4 ∨ v.updState t = 5)) ∨ v.updState t = 7 →
        exec .updWrite s = .next ((v.finish 0x50 slot refusedState).settle 0x50)) ∧
      ((2 ≤ t ∨ (t ≠ v.runSlot ∧ v.updState t ≠ 4 ∧ v.updState t ≠ 5)) → v.updState t ≠ 7 →
        (∀ bs w, v.readMem 20 a len = (.data bs, w) → ∃ u : State, exec .updWrite s = .next ((u.finish 0x50 slot okCpl).settle 0x50) ∧
          u.mem = w.mem.putBytes ((if t < 2 then 0x200000000 + 0x6000000 * t else 0x20C000000) + off) bs ∧
          u.updState t = (if off = 0 ∨ v.updState t ∈ [1, 2, 3] then 1 else v.updState t) ∧ (∀ j, j ≠ t → j < 3 → u.updState j = v.updState j) ∧
          u.blocksBut w [13, 14]) ∧
        (∀ r w st, v.readMem 20 a len = (r, w) → (r = .error ∧ st = Status.memoryError) ∨ (r = .denied ∧ st = Status.accessDenied) →
          exec .updWrite s = .next ((w.finish 0x50 slot { status := st }).settle 0x50))))) ∧
  (∀ (s v w : State) (slot t : Nat) (desc : List Byte) (d : Option Nat), s.taken 0x50 = some (slot, desc, v) → byteAt desc 0 = 2 → byteAt desc 1 = t → t < 3 →
    (if t < 2 then v.imageCheck (updBase t) true else v.packageCheck) = (d, w) →
    ∃ u : State, u.updState t = (if v.updState t ∈ [1, 2, 3, 6] then (if d = none then 3 else 2) else v.updState t) ∧
      (∀ j, j ≠ t → j < 3 → u.updState j = v.updState j) ∧ u.mem = w.mem ∧
      exec .updCheck s = .next ((u.finish 0x50 slot (match d with | none => u.updCpl t Status.ok 0 | some n => u.failCpl t n)).settle 0x50) ∧
      (d ≠ none → u.flag F.UPD_INT_STAT_check_failed = true) ∧ u.blocksBut w [13, 14]) ∧
  (∀ (s : State) (a : Nat), s.fld F.UPD_CFG_owner_slot = 0 →
    s.imageCheck a true = (match s.firstEight a with | some d => some d | none => if s.imgSecurity a < s.boot.ctl.floor then some 10 else none, s)) ∧
  (∀ (s v : State) (slot t : Nat) (desc : List Byte), s.taken 0x50 = some (slot, desc, v) → s.auditRoom = true → byteAt desc 1 = t → t < 3 →
    (byteAt desc 0 = 3 →
      (v.updState t ≠ 3 ∨ v.boot.ctl.stage = 7 ∨ v.boot.ctl.trial ≠ none → exec .updActivate s = .next ((v.finish 0x50 slot refusedState).settle 0x50)) ∧
      (v.updState t = 3 → v.boot.ctl.stage ≠ 7 → v.boot.ctl.trial = none →
        ∃ u : State, exec .updActivate s = .next ((u.finish 0x50 slot (v.updCpl t Status.ok 0)).settle 0x50) ∧
          u.updState t = (if t < 2 then 4 else 7) ∧ (∀ j, j ≠ t → j < 3 → u.updState j = v.updState j) ∧ (t < 2 → u.boot.ctl.count = 0) ∧
          u.flag F.UPD_STATUS_pending = true ∧ u.boot.ctl.floor = v.boot.ctl.floor ∧ u.blocksBut v [12, 13, 14] ∧ u.mem = v.mem)) ∧
    (byteAt desc 0 = 4 →
      (v.updState t ≠ 7 → (v.updState t ≠ 4 ∨ v.boot.ctl.count ≠ 0) → exec .updCancel s = .next ((v.finish 0x50 slot refusedState).settle 0x50)) ∧
      (v.updState t = 7 ∨ (v.updState t = 4 ∧ v.boot.ctl.count = 0) →
        ∃ u : State, exec .updCancel s = .next ((u.finish 0x50 slot (v.updCpl t Status.ok 0)).settle 0x50) ∧
          u.updState t = 3 ∧ (∀ j, j ≠ t → j < 3 → u.updState j = v.updState j) ∧ u.boot.ctl.floor = v.boot.ctl.floor ∧
          u.blocksBut v [12, 13, 14] ∧ u.mem = v.mem))) ∧
  (∀ (s v : State) (slot : Nat) (desc : List Byte), s.taken 0x50 = some (slot, desc, v) → s.auditRoom = true → byteAt desc 0 = 5 →
    (v.boot.window = none → exec .updConfirm s = .next ((v.finish 0x50 slot refusedState).settle 0x50)) ∧
    (v.boot.window ≠ none → v.boot.ctl.slots.length = 2 →
      ∃ u : State, exec .updConfirm s = .next ((u.finish 0x50 slot (v.updCpl v.runSlot Status.ok 0)).settle 0x50) ∧
        u.updState v.runSlot = 5 ∧ u.updState (1 - v.runSlot) = (if v.updState (1 - v.runSlot) = 5 then 3 else v.updState (1 - v.runSlot)) ∧
        u.boot.ctl.stage = v.boot.ctl.stage ∧ u.boot.ctl.floor = max v.boot.ctl.floor (v.imgSecurity (updBase v.runSlot)) ∧
        u.boot.ctl.halves = v.boot.ctl.halves.set (1 - v.runSlot) none ∧ u.boot.window = none ∧ u.flag F.UPD_STATUS_trial = false ∧
        u.blocksBut v [12, 13, 14] ∧ u.mem = v.mem)) ∧
  (∀ (s v : State) (slot t p : Nat) (desc : List Byte), s.taken 0x50 = some (slot, desc, v) → s.auditRoom = true → byteAt desc 0 = 6 → byteAt desc 1 = t →
    t < 2 → byteAt desc 2 = p →
    (5 ≤ p → exec .updProcSwap s = .next ((v.finish 0x50 slot (badField 0x82)).settle 0x50)) ∧
    (p < 5 → (p < 2 ∨ (p = 2 ∧ v.anyStarted = true) ∨ v.updState t ∉ [3, 4, 5] ∨ v.boot.swap ≠ none) →
      exec .updProcSwap s = .next ((v.finish 0x50 slot refusedState).settle 0x50)) ∧
    (∀ d e, 2 ≤ p → p < 5 → (p ≠ 2 ∨ v.anyStarted = false) → v.updState t ∈ [3, 4, 5] → v.boot.swap = none →
      ((d = 1 ∧ v.sectionOf t p = none) ∨ (v.sectionOf t p = some e ∧ ((d = 6 ∧ v.sectionGood (updBase t) e = false) ∨
        (d = 7 ∧ v.sectionGood (updBase t) e = true ∧ ∃ q, q < 5 ∧ q ≠ p ∧ (secAccepts e q (v.fld (F.UPD_RUN_IFV_ifv q)) = false ∨
          secAccepts (nth v.boot.loaded q []) p (secVersion e) = false))))) →
      exec .updProcSwap s = .next ((v.finish 0x50 slot (v.failCpl t d)).settle 0x50)) ∧
    (∀ e, 2 ≤ p → p < 5 → (p ≠ 2 ∨ v.anyStarted = false) → v.updState t ∈ [3, 4, 5] → v.boot.swap = none → v.sectionOf t p = some e → v.sectionGood (updBase t) e = true →
      (∀ q, q < 5 → q ≠ p → secAccepts e q (v.fld (F.UPD_RUN_IFV_ifv q)) = true ∧ secAccepts (nth v.boot.loaded q []) p (secVersion e) = true) →
      ∃ u : State, exec .updProcSwap s = .next ((u.finish 0x50 slot (v.updCpl t Status.ok 0)).settle 0x50) ∧
        (v.swapWaits p = true → u.boot.swap = some (p, e) ∧ u.boot.loaded = v.boot.loaded ∧ u.reg (Reg.UPD_RUN_IFV p) = v.reg (Reg.UPD_RUN_IFV p)) ∧
        (v.swapWaits p = false → u.boot.swap = none ∧ nth u.boot.loaded p [] = e ∧ u.fld (F.UPD_RUN_IFV_ifv p) = secVersion e ∧
          u.flag (F.UPD_RUN_IFV_swapped p) = true) ∧
        (∀ q, q < 5 → q ≠ p → nth u.boot.loaded q [] = nth v.boot.loaded q []) ∧ u.boot.ctl = v.boot.ctl ∧ u.blocksBut v [12, 13, 14] ∧ u.mem = v.mem)) ∧
  (∀ (s : State) (c : Instr), s.auditRoom = false → s.powered 11 = true → c ∈ [Instr.updActivate, .updCancel, .updConfirm, .updProcSwap] →
    ∃ t, exec c s = .next t ∧ t.boot = s.boot) ∧
  (∀ s : State,
    (s.boot.window = none → exec .windowWarn s = .next s ∧ exec .confirmationWindowEnd s = .next s) ∧
    (∀ e, s.boot.window = some e →
      (∃ t, exec .windowWarn s = .next t ∧ t.clock = (s.reach (s.wall + ns * (e - 60000000000 - s.clock))).clock ∧ (s.powered 27 = true → t.flag F.UPD_INT_STAT_window_warn = true) ∧
        t.regsBut s (if s.powered 27 then [Reg.UPD_INT_STAT] else []) ∧ { t with regs := s.regs, wall := s.wall, clock := s.clock } = s) ∧
      (s.auditRoom = false → ∃ t, exec .confirmationWindowEnd s = .next t ∧ t.boot = s.boot ∧ t.regsBut s [Reg.REC_STATUS, Reg.REC_INT_STAT] ∧ t.mem = s.mem) ∧
      (s.auditRoom = true → s.fld F.BOOT_STATUS_phase ≠ 15 → s.boot.ctl.slots.length = 2 →
        ∃ t, exec .confirmationWindowEnd s = .next t ∧ t.updState s.runSlot = 6 ∧ (∀ j, j ≠ s.runSlot → j < 3 → t.updState j = s.updState j) ∧
          t.boot.window = none ∧ t.boot.owed = s.boot.owed ++ [(0x0108, [BitVec.ofNat 8 s.runSlot, 0])] ∧ t.reg Reg.BLW_DOM_ON = 3 ∧
          t.fld F.BOOT_CAUSE_cause = 5 ∧ t.fld F.BOOT_STATUS_phase = 0 ∧ t.clock = 0 ∧ t.rtc = s.rtc ∧ s.out <+: t.out)))

/-- R555 to R560, R566, R568 to R570, R572, R575 to R578 and R581. -/
def Obligations.RecordsAreFlushedAndSampled : Prop :=
  (∀ (s v w : State) (slot : Nat) (desc : List Byte) (c : Instr),
    (c = .recFlush ∧ s.taken 0x58 = some (slot, desc, v) ∧ byteAt desc 0 = 1 ∧ w = v.modRec fun r => { r with waitNext := r.waitNext ++ [slot] }) ∨
      (c = .flushTimer ∧ (s.recd.merged = true ∨ 60 * s.fld F.REC_CFG_flush_min ≤ s.recd.sinceFlush) ∧ w = s) → w.powered 11 = true →
    (w.flag F.REC_STATUS_loaded = false → exec c s = .next w) ∧
    (w.flag F.REC_STATUS_loaded = true → w.recd.flush ≠ none →
      ∃ t, exec c s = .next t ∧ t.recd = { w.recd with again := true } ∧ { t with recd := w.recd } = w) ∧
    (∀ key k u, w.flag F.REC_STATUS_loaded = true → w.recd.flush = none →
      ((key = none ∧ w.fld F.REC_CFG_seal_slot = 0) ∨ (w.fld F.REC_CFG_seal_slot ≠ 0 ∧ key = some k ∧
        w.keyRequest 5 (w.fld F.REC_CFG_seal_slot) [4] [13, 17] = (.key k, u))) →
      ∃ t, exec c s = .next t ∧ t.recd = { w.recd with
          flush := some { pass := 0, bank := 1 - w.fld F.REC_STATUS_bank, image := w.recd.img, faults := w.recd.faultBuf, audits := w.recd.auditBuf, sealKey := key }
          faultBuf := [], auditBuf := [], again := false, merged := false, lastBegun := some w.clock, sinceFlush := 0
          waitNow := w.recd.waitNow ++ w.recd.waitNext, waitNext := [] } ∧
        t.flag F.REC_STATUS_flushing = true ∧ t.flag F.REC_STATUS_audit_wait = false ∧ t.fld F.REC_STATUS_audit_count = 0 ∧
        t.fld F.REC_STATUS_detail_count = 0 ∧ t.regsBut w [Reg.REC_STATUS] ∧ t.mem = w.mem) ∧
    (∀ u a, w.flag F.REC_STATUS_loaded = true → w.recd.flush = none → w.fld F.REC_CFG_seal_slot ≠ 0 →
      w.keyRequest 5 (w.fld F.REC_CFG_seal_slot) [4] [13, 17] = (a, u) → (a = .refused ∨ a = .memoryError) →
      ∃ t f, exec c s = .next t ∧ t.recd.flush = some f ∧ f.sealKey = none ∧ f.pass = 0 ∧ f.bank = 1 - w.fld F.REC_STATUS_bank ∧
        t.flag F.REC_INT_STAT_seal_refused = true ∧ t.regsBut u [Reg.REC_STATUS, Reg.REC_INT_STAT] ∧ t.mem = w.mem)) ∧
  (∀ s : State, (s.powered 11 = false ∨ (s.recd.merged = false ∧ s.recd.sinceFlush < 60 * s.fld F.REC_CFG_flush_min) → exec .flushTimer s = .next s) ∧
    (s.powered 11 = false ∨ s.recd.flush = none → exec .flushDone s = .next s)) ∧
  (∀ (s : State) (f : Flush), (s.flushWrite f).recd.img.flushSeq = s.recd.img.flushSeq + 1 ∧ (s.flushWrite f).fld F.REC_STATUS_bank = f.bank % 2 ∧
    (s.flushWrite f).reg Reg.REC_SEQ_LO = BitVec.ofNat 32 (s.recd.img.flushSeq + 1) ∧
    (s.flushWrite f).reg Reg.REC_SEQ_HI = BitVec.ofNat 32 ((s.recd.img.flushSeq + 1) / 2 ^ 32)) ∧
  (∀ (s : State) (f : Flush), s.powered 11 = true → s.recd.flush = some f →
    (∀ (n : Nat), s.mem.flips = [] → s.mem.poison = [] → ((f.pass = 0 ∧ s.flag F.FWL_COMMIT_go = false ∧ n = 1) ∨
        (f.pass = 1 ∧ s.recd.pfCommit = false ∧ s.flag F.BLW_STATUS_pf_warn = false ∧ n = 1) ∨ (f.pass = 3 ∧ n = 0)) →
      (s.recd.again = false → s.recd.waitNow = [] → ∃ t, exec .flushDone s = .next t ∧
        t.recd = { s.recd with flush := none, img := { s.recd.img with flushSeq := s.recd.img.flushSeq + n } } ∧
        (f.faults = [] → f.audits = [] → t.mem = (if n = 0 then s.mem else (s.storeBytes 16 (0x181E00000 + 0x40000 * f.bank)
          ({ f.image with flushSeq := s.recd.img.flushSeq + 1 }.bytes f.sealKey s.wrap)).2.mem)) ∧
        t.fld F.REC_STATUS_bank = (if n = 0 then s.fld F.REC_STATUS_bank else f.bank % 2) ∧
        t.flag F.REC_INT_STAT_flush_done = true ∧ t.flag F.REC_STATUS_flushing = false ∧ (f.pass ≠ 0 → t.flag F.REC_STATUS_pf_flush = false) ∧
        t.regsBut s [Reg.REC_STATUS, Reg.REC_INT_STAT, Reg.REC_SEQ_LO, Reg.REC_SEQ_HI] ∧
        { t with regs := s.regs, counts := s.counts, recd := s.recd, mem := s.mem } = s) ∧
      (∀ slot, s.recd.again = false → s.recd.waitNow = [slot] → ∃ u : State, exec .flushDone s = .next (u.finish 0x58 slot okCpl) ∧
        u.recd = { s.recd with flush := none, waitNow := [], img := { s.recd.img with flushSeq := s.recd.img.flushSeq + n } } ∧
        u.flag F.REC_INT_STAT_flush_done = true ∧
        (∀ i, i ∈ s.hrt.inflight → i.ring = 0x58 → i.slot = slot → byteAt i.desc 0 = 2 → u.flag F.REC_INT_STAT_clear_done = true) ∧
        u.regsBut s [Reg.REC_STATUS, Reg.REC_INT_STAT, Reg.REC_SEQ_LO, Reg.REC_SEQ_HI]) ∧
      (s.recd.again = true → s.recd.waitNow = [] → ∃ t g, exec .flushDone s = .next t ∧ t.recd.flush = some g ∧ g.pass = 0 ∧
        g.bank = (if n = 0 then 1 - s.fld F.REC_STATUS_bank else 1 - f.bank % 2) ∧ g.faults = s.recd.faultBuf ∧ g.audits = s.recd.auditBuf ∧
        t.recd.again = false ∧ t.recd.faultBuf = [] ∧ t.recd.auditBuf = [])) ∧
    (f.pass = 1 → s.recd.pfCommit = true → s.mem.flips = [] → s.mem.poison = [] → ∃ t g, exec .flushDone s = .next t ∧ t.recd.flush = some g ∧ g.pass = 2 ∧
      g.bank = 1 - f.bank ∧ g.sealKey = f.sealKey ∧ g.faults = s.recd.faultBuf ∧ g.audits = s.recd.auditBuf ∧ t.recd.faultBuf = [] ∧ t.recd.auditBuf = [] ∧
      t.regsBut s [Reg.REC_STATUS, Reg.REC_SEQ_LO, Reg.REC_SEQ_HI]) ∧
    (f.pass = 1 → s.recd.pfCommit = false → s.flag F.BLW_STATUS_pf_warn = true → exec .flushDone s = .next ((s.flushWrite f).modRec fun r =>
      { r with flush := some { f with pass := 4 } })) ∧
    (f.pass = 2 → exec .flushDone s = .next ((s.flushWrite f).modRec fun r => { r with flush := some { f with pass := 3 } })) ∧
    (4 ≤ f.pass → exec .flushDone s = .next s)) ∧
  (∀ (s v : State) (slot scope : Nat) (desc b : List Byte), s.takenBlock 0x58 = some (slot, desc, b, v) → byteAt desc 0 = 2 → byteAt b 12 = scope →
    (∀ i, ((i = 12 ∧ (scope = 0 ∨ 16 ≤ scope)) ∨ (0 < scope ∧ scope < 16 ∧ 13 ≤ i ∧ i < 32 ∧ byteAt b i ≠ 0 ∧ (∀ j, j < i → 13 ≤ j → byteAt b j = 0))) →
      ∃ u : State, exec .recClear s = .next ((u.finish 0x58 slot (badField i)).settle 0x58) ∧ u.flag F.REC_INT_STAT_clear_refused = true ∧
        u.regsBut v [Reg.REC_INT_STAT] ∧ u.recd = v.recd ∧ u.mem = v.mem) ∧
    (0 < scope → scope < 16 → (∀ j, j < 32 → 13 ≤ j → byteAt b j = 0) →
      (∀ st w, ((st = Status.keyRefused ∧ v.fld F.REC_CFG_clear_slot = 0 ∧ w = v) ∨ (v.fld F.REC_CFG_clear_slot ≠ 0 ∧
          ((v.keyRequest 5 (v.fld F.REC_CFG_clear_slot) [4] [13, 18] = (.refused, w) ∧ st = Status.keyRefused) ∨
            (v.keyRequest 5 (v.fld F.REC_CFG_clear_slot) [4] [13, 18] = (.memoryError, w) ∧ st = Status.memoryError)))) →
        ∃ u : State, exec .recClear s = .next ((u.finish 0x58 slot { status := st }).settle 0x58) ∧ u.flag F.REC_INT_STAT_clear_refused = true ∧
          u.regsBut w [Reg.REC_INT_STAT] ∧ u.recd = w.recd ∧ u.mem = v.mem) ∧
      (∀ key w, v.fld F.REC_CFG_clear_slot ≠ 0 → v.keyRequest 5 (v.fld F.REC_CFG_clear_slot) [4] [13, 18] = (.key key, w) →
        (∀ st off, ((st = Status.authFailed ∧ off = 0 ∧ Crypto.hmac key (b.take 32) ≠ b.drop 32) ∨
            (st = Status.refused ∧ off = 0xFF ∧ Crypto.hmac key (b.take 32) = b.drop 32 ∧
              (b.take 8 ≠ v.unitSerial ∨ le b 8 4 ≠ (v.recd.img.clearSeq + 1) % 2 ^ 32))) →
          ∃ u : State, exec .recClear s = .next ((u.finish 0x58 slot { status := st, w1 := off }).settle 0x58) ∧
            u.flag F.REC_INT_STAT_clear_refused = true ∧ u.regsBut w [Reg.REC_INT_STAT] ∧ u.recd = w.recd ∧ u.mem = v.mem) ∧
        (s.auditRoom = true → Crypto.hmac key (b.take 32) = b.drop 32 → b.take 8 = v.unitSerial → le b 8 4 = (v.recd.img.clearSeq + 1) % 2 ^ 32 →
          ∃ t, exec .recClear s = .next t ∧ t.recd.img.clearSeq = (v.recd.img.clearSeq + 1) % 2 ^ 32 ∧
            t.reg Reg.REC_CLEAR_SEQ = BitVec.ofNat 32 ((v.recd.img.clearSeq + 1) % 2 ^ 32) ∧ slot ∈ t.recd.waitNow ++ t.recd.waitNext ∧
            t.recd.img.hist = (if scope.testBit 0 then [] else v.recd.img.hist) ∧
            t.recd.img.extremes = (if scope.testBit 1 then (List.range 16).map Extreme.start else v.recd.img.extremes) ∧
            t.recd.img.nextFault = (if scope.testBit 3 then v.recd.faultBuf.length else v.recd.img.nextFault) ∧ t.recd.img.cycles = v.recd.img.cycles ∧
            (v.flag F.REC_STATUS_loaded = true → t.recd.flush ≠ none) ∧ t.hrt = v.hrt ∧ t.blocksBut v [12, 14] ∧ t.mem = v.mem)))) ∧
  (∀ s : State, s.auditRoom = false → ∃ t, exec .recClear s = .next t ∧ t.recd.img.clearSeq = s.recd.img.clearSeq) ∧
  (∀ (temps : List Int) (vin vbat store : Nat) (s : State),
    (s.powered 11 = false ∨ s.released = false → exec (.histogramSample temps vin vbat store) s = .next s) ∧
    (s.powered 11 = true → s.released = true → s.recd.img.extremes.length = 16 →
      ∃ t, exec (.histogramSample temps vin vbat store) s = .next t ∧ t.fld F.BLW_MON_vin = vin % 65536 ∧ t.fld F.BLW_MON_vbat = vbat % 65536 ∧
        t.fld F.BLW_STORE_mv = store % 65536 ∧ t.flag F.BLW_STATUS_vin_ok = decide (2700 ≤ vin ∧ vin ≤ 5500) ∧
        t.flag F.BLW_STATUS_vbat_low = decide (vbat < 2200) ∧ t.recd.sinceFlush = s.recd.sinceFlush + 1 ∧
        (s.recd.img.hourSec + 1 < 360 → t.recd.img.hourSec = s.recd.img.hourSec + 1 ∧ t.recd.img.hours = s.recd.img.hours) ∧
        (360 ≤ s.recd.img.hourSec + 1 → t.recd.img.hourSec = 0 ∧ t.recd.img.hours = (s.recd.img.hours + 1) % 2 ^ 32) ∧
        (nth t.recd.img.extremes 2 {}).value = max (nth s.recd.img.extremes 2 {}).value vin ∧
        (s.flag F.BLW_STATUS_pf_warn = false → (nth t.recd.img.extremes 3 {}).value = min (nth s.recd.img.extremes 3 {}).value vin) ∧
        (nth t.recd.img.extremes 4 {}).value = min (nth s.recd.img.extremes 4 {}).value vbat ∧
        Sparse.get (fun _ => 0) t.recd.img.hist (0x2C0 + 4 * vinBin vin) = min (Sparse.get (fun _ => 0) s.recd.img.hist (0x2C0 + 4 * vinBin vin) + 1) (2 ^ 32 - 1) ∧
        t.regsBut s [Reg.BLW_MON, Reg.BLW_STORE, Reg.BLW_STATUS, Reg.BLW_THERM] ∧ { t with regs := s.regs, recd := s.recd } = s)) ∧
  (∀ (ini : Nat) (w : Word) (c : Instr) (s : State),
    (fieldOf F.PMC_CTRL_zero w = 0 → exec (.pmcZero ini w) s = .next s) ∧
    (c = .pmcRun ini w ∨ (c = .pmcZero ini w ∧ fieldOf F.PMC_CTRL_zero w = 1) → s.reaches ini Reg.PMC_CTRL = true →
      ∃ t, exec c s = .next t ∧ t.fld F.PMC_CTRL_run = fieldOf F.PMC_CTRL_run w ∧
        (∀ i, i < 64 → t.count (0xE08200 + 8 * i) = (if fieldOf F.PMC_CTRL_zero w = 1 then 0 else s.count (0xE08200 + 8 * i))) ∧
        t.countsBut s [] ∧ t.regsBut s [Reg.PMC_CTRL] ∧ { t with regs := s.regs, counts := s.counts } = s.answerWith .ok))
end

