-- ==== Sys2Proof/Laws/Sparse.lean ====
section
/-! SUPPORT. Laws of the sparse tables: a read after a write, and that every operation keeps the canonical form. -/

namespace Sys2Proof.Machine

variable {β : Type} {d : Nat → β} {l : List (Nat × β)} {k k' : Nat} {v : β}

theorem Sparse.get_cons {p : Nat × β} : Sparse.get d (p :: l) k = if p.1 = k then p.2 else Sparse.get d l k := by
  unfold Sparse.get
  by_cases h : p.1 = k
  · simp [h]
  · simp [List.find?, h, beq_eq_false_iff_ne.2 h]

@[simp] theorem Sparse.get_nil : Sparse.get d [] k = d k := rfl

theorem Sparse.get_put : Sparse.get d (Sparse.put l k v) k' = if k' = k then v else Sparse.get d l k' := by
  induction l with
  | nil => simp [Sparse.put, Sparse.get_cons, eq_comm]
  | cons p l ih =>
    obtain ⟨a, x⟩ := p
    unfold Sparse.put
    split
    · simp [Sparse.get_cons, eq_comm]
    · split
      · subst_vars; simp only [Sparse.get_cons, eq_comm]; split <;> simp_all
      · simp only [Sparse.get_cons, ih]; split <;> split <;> simp_all

theorem Sparse.get_del : Sparse.get d (Sparse.del l k) k' = if k' = k then d k else Sparse.get d l k' := by
  induction l with
  | nil => simp only [Sparse.del, List.filter_nil, Sparse.get_nil]; split <;> simp_all
  | cons p l ih =>
    obtain ⟨a, x⟩ := p
    have e : Sparse.del ((a, x) :: l) k = if a = k then Sparse.del l k else (a, x) :: Sparse.del l k := by
      by_cases h : a = k <;> simp [Sparse.del, h]
    rw [e]
    split
    · subst_vars; rw [ih]; simp only [Sparse.get_cons]; split <;> simp_all [eq_comm]
    · simp only [Sparse.get_cons, ih]; split <;> split <;> simp_all

variable [DecidableEq β]

/-- A read after a write: the key written holds the value, every other key is as before. -/
theorem Sparse.get_set : Sparse.get d (Sparse.set d l k v) k' = if k' = k then v else Sparse.get d l k' := by
  unfold Sparse.set
  split
  · rename_i h; rw [Sparse.get_del, h]
  · exact Sparse.get_put

@[simp] theorem Sparse.get_set_same : Sparse.get d (Sparse.set d l k v) k = v := by simp [Sparse.get_set]

theorem Sparse.get_set_other (h : k' ≠ k) : Sparse.get d (Sparse.set d l k v) k' = Sparse.get d l k' := by
  simp [Sparse.get_set, h]

/-- The canonical form, as a property of the list: keys rise and no value is the default. -/
theorem Sparse.wf_iff : Sparse.wf d l = true ↔ l.Pairwise (fun p q => p.1 < q.1) ∧ ∀ p ∈ l, p.2 ≠ d p.1 := by
  induction l with
  | nil => simp [Sparse.wf]
  | cons p l ih =>
    obtain ⟨a, x⟩ := p
    cases l with
    | nil => simp [Sparse.wf]
    | cons q l =>
      obtain ⟨b, y⟩ := q
      simp only [Sparse.wf, Bool.and_eq_true, decide_eq_true_eq, ih]
      constructor
      · rintro ⟨⟨hx, hab⟩, hp, hd⟩
        refine ⟨List.pairwise_cons.2 ⟨?_, hp⟩, ?_⟩
        · intro r hr
          rcases List.mem_cons.1 hr with rfl | hr
          · exact hab
          · exact lt_trans hab ((List.pairwise_cons.1 hp).1 r hr)
        · intro r hr
          rcases List.mem_cons.1 hr with rfl | hr
          · exact hx
          · exact hd r hr
      · rintro ⟨hp, hd⟩
        exact ⟨⟨hd (a, x) (by simp), (List.pairwise_cons.1 hp).1 (b, y) (by simp)⟩, (List.pairwise_cons.1 hp).2,
          fun r hr => hd r (List.mem_cons_of_mem _ hr)⟩

omit [DecidableEq β] in
theorem Sparse.wf_nil [DecidableEq β] : Sparse.wf d ([] : List (Nat × β)) = true := rfl

/-- A filter keeps the canonical form. -/
theorem Sparse.wf_filter (f : Nat × β → Bool) (h : Sparse.wf d l = true) : Sparse.wf d (l.filter f) = true := by
  rw [Sparse.wf_iff] at *
  exact ⟨h.1.filter _, fun p hp => h.2 p (List.mem_of_mem_filter hp)⟩

@[simp] theorem Sparse.wf_del (h : Sparse.wf d l = true) : Sparse.wf d (Sparse.del l k) = true := Sparse.wf_filter _ h

omit [DecidableEq β] in
theorem Sparse.mem_put {p : Nat × β} (h : p ∈ Sparse.put l k v) : p = (k, v) ∨ p ∈ l := by
  induction l with
  | nil => simpa [Sparse.put] using h
  | cons q l ih =>
    obtain ⟨a, x⟩ := q
    unfold Sparse.put at h
    split at h
    · simpa using h
    · split at h
      · rcases List.mem_cons.1 h with h | h <;> simp [h]
      · rcases List.mem_cons.1 h with h | h
        · simp [h]
        · rcases ih h with h | h <;> simp [h]

/-- Insertion of a value that is not the default keeps the canonical form. -/
theorem Sparse.wf_put (hv : v ≠ d k) (h : Sparse.wf d l = true) : Sparse.wf d (Sparse.put l k v) = true := by
  induction l with
  | nil => simp [Sparse.put, Sparse.wf, hv]
  | cons q l ih =>
    obtain ⟨a, x⟩ := q
    have hl : Sparse.wf d l = true := by
      rw [Sparse.wf_iff] at *
      exact ⟨(List.pairwise_cons.1 h.1).2, fun p hp => h.2 p (List.mem_cons_of_mem _ hp)⟩
    have ih := ih hl
    rw [Sparse.wf_iff] at *
    obtain ⟨hp, hd⟩ := h
    unfold Sparse.put
    split
    · rename_i hka
      refine ⟨List.pairwise_cons.2 ⟨?_, hp⟩, ?_⟩
      · intro r hr
        rcases List.mem_cons.1 hr with rfl | hr
        · exact hka
        · exact lt_trans hka ((List.pairwise_cons.1 hp).1 r hr)
      · intro r hr
        rcases List.mem_cons.1 hr with rfl | hr
        · exact hv
        · exact hd r hr
    · split
      · rename_i _ hka
        subst hka
        refine ⟨List.pairwise_cons.2 (List.pairwise_cons.1 hp), ?_⟩
        intro r hr
        rcases List.mem_cons.1 hr with rfl | hr
        · exact hv
        · exact hd r (List.mem_cons_of_mem _ hr)
      · rename_i h1 h2
        refine ⟨List.pairwise_cons.2 ⟨?_, ih.1⟩, ?_⟩
        · intro r hr
          rcases Sparse.mem_put hr with rfl | hr
          · simp only; omega
          · exact (List.pairwise_cons.1 hp).1 r hr
        · intro r hr
          rcases List.mem_cons.1 hr with rfl | hr
          · exact hd _ (by simp)
          · exact ih.2 r hr

/-- Writing keeps the canonical form. -/
@[simp] theorem Sparse.wf_set (h : Sparse.wf d l = true) : Sparse.wf d (Sparse.set d l k v) = true := by
  unfold Sparse.set
  split
  · exact Sparse.wf_del h
  · exact Sparse.wf_put ‹_› h

/-- Two canonical lists that answer every read alike are equal: equal memories are equal data. -/
theorem Sparse.ext {l' : List (Nat × β)} (h : Sparse.wf d l = true) (h' : Sparse.wf d l' = true)
    (e : ∀ k, Sparse.get d l k = Sparse.get d l' k) : l = l' := by
  have low : ∀ {m : List (Nat × β)} {a : Nat}, (∀ p ∈ m, a < p.1) → Sparse.get d m a = d a := by
    intro m a hm
    induction m with
    | nil => rfl
    | cons p m ih =>
      have := hm p (by simp)
      rw [Sparse.get_cons, if_neg (by omega)]
      exact ih fun q hq => hm q (List.mem_cons_of_mem _ hq)
  rw [Sparse.wf_iff] at h h'
  induction l generalizing l' with
  | nil =>
    cases l' with
    | nil => rfl
    | cons q l' =>
      have := e q.1
      rw [Sparse.get_cons] at this
      simp only [Sparse.get_nil, ite_true] at this
      exact absurd this.symm (h'.2 q (by simp))
  | cons p l ih =>
    cases l' with
    | nil =>
      have := e p.1
      rw [Sparse.get_cons] at this
      simp only [Sparse.get_nil, ite_true] at this
      exact absurd this (h.2 p (by simp))
    | cons q l' =>
      have hp := List.pairwise_cons.1 h.1
      have hq := List.pairwise_cons.1 h'.1
      have key : p.1 = q.1 := by
        rcases lt_trichotomy p.1 q.1 with hlt | heq | hgt
        · have := e p.1
          rw [Sparse.get_cons, if_pos rfl, Sparse.get_cons, if_neg (by omega),
            low (fun r hr => by have := hq.1 r hr; omega)] at this
          exact absurd this (h.2 p (by simp))
        · exact heq
        · have := e q.1
          rw [Sparse.get_cons, if_neg (by omega), Sparse.get_cons, if_pos rfl,
            low (fun r hr => by have := hp.1 r hr; omega)] at this
          exact absurd this.symm (h'.2 q (by simp))
      have val : p.2 = q.2 := by
        have := e p.1
        rwa [Sparse.get_cons, if_pos rfl, Sparse.get_cons, if_pos key.symm] at this
      have rest : l = l' := by
        apply ih ⟨hp.2, fun r hr => h.2 r (List.mem_cons_of_mem _ hr)⟩
          (h' := ⟨hq.2, fun r hr => h'.2 r (List.mem_cons_of_mem _ hr)⟩)
        intro k
        have ek := e k
        rw [Sparse.get_cons, Sparse.get_cons] at ek
        by_cases hk : p.1 = k
        · subst hk
          rw [low hp.1, low (fun r hr => by have := hq.1 r hr; omega)]
        · rwa [if_neg hk, if_neg (by omega)] at ek
      exact congrArg₂ _ (Prod.ext key val) rest

end Sys2Proof.Machine
end

