-- ==== Sys2Proof/Laws/State.lean ====
section
/-! SUPPORT. Every field of State after every named update: the field that the update writes has the value written, every other
field is as it was. Each is true by definition. -/

namespace Sys2Proof.Machine

variable (s : State)

section
variable (a : Nat) (w : Word)
@[simp] theorem State.setReg_pending : (s.setReg a w).pending = s.pending := rfl
@[simp] theorem State.setReg_regs : (s.setReg a w).regs = Sparse.set Reg.resetVal s.regs a w := rfl
@[simp] theorem State.setReg_counts : (s.setReg a w).counts = s.counts := rfl
@[simp] theorem State.setReg_snaps : (s.setReg a w).snaps = s.snaps := rfl
@[simp] theorem State.setReg_answer : (s.setReg a w).answer = s.answer := rfl
@[simp] theorem State.setReg_out : (s.setReg a w).out = s.out := rfl
@[simp] theorem State.setReg_wall : (s.setReg a w).wall = s.wall := rfl
@[simp] theorem State.setReg_clock : (s.setReg a w).clock = s.clock := rfl
@[simp] theorem State.setReg_pll : (s.setReg a w).pll = s.pll := rfl
@[simp] theorem State.setReg_draws : (s.setReg a w).draws = s.draws := rfl
@[simp] theorem State.setReg_mem : (s.setReg a w).mem = s.mem := rfl
@[simp] theorem State.setReg_hrt : (s.setReg a w).hrt = s.hrt := rfl
@[simp] theorem State.setReg_tmk : (s.setReg a w).tmk = s.tmk := rfl
@[simp] theorem State.setReg_net : (s.setReg a w).net = s.net := rfl
@[simp] theorem State.setReg_mtr : (s.setReg a w).mtr = s.mtr := rfl
@[simp] theorem State.setReg_bat : (s.setReg a w).bat = s.bat := rfl
@[simp] theorem State.setReg_rad : (s.setReg a w).rad = s.rad := rfl
@[simp] theorem State.setReg_blw : (s.setReg a w).blw = s.blw := rfl
@[simp] theorem State.setReg_rtc : (s.setReg a w).rtc = s.rtc := rfl
@[simp] theorem State.setReg_anv : (s.setReg a w).anv = s.anv := rfl
@[simp] theorem State.setReg_scn : (s.setReg a w).scn = s.scn := rfl
@[simp] theorem State.setReg_twn : (s.setReg a w).twn = s.twn := rfl
@[simp] theorem State.setReg_recd : (s.setReg a w).recd = s.recd := rfl
@[simp] theorem State.setReg_key : (s.setReg a w).key = s.key := rfl
@[simp] theorem State.setReg_cab : (s.setReg a w).cab = s.cab := rfl
@[simp] theorem State.setReg_boot : (s.setReg a w).boot = s.boot := rfl
end

section
variable (f : Field) (v : Nat)
@[simp] theorem State.setFld_pending : (s.setFld f v).pending = s.pending := rfl
@[simp] theorem State.setFld_regs : (s.setFld f v).regs = Sparse.set Reg.resetVal s.regs f.addr (BitVec.ofNat 32 (setBits (s.regN f.addr) f.lo f.width v)) := rfl
@[simp] theorem State.setFld_counts : (s.setFld f v).counts = s.counts := rfl
@[simp] theorem State.setFld_snaps : (s.setFld f v).snaps = s.snaps := rfl
@[simp] theorem State.setFld_answer : (s.setFld f v).answer = s.answer := rfl
@[simp] theorem State.setFld_out : (s.setFld f v).out = s.out := rfl
@[simp] theorem State.setFld_wall : (s.setFld f v).wall = s.wall := rfl
@[simp] theorem State.setFld_clock : (s.setFld f v).clock = s.clock := rfl
@[simp] theorem State.setFld_pll : (s.setFld f v).pll = s.pll := rfl
@[simp] theorem State.setFld_draws : (s.setFld f v).draws = s.draws := rfl
@[simp] theorem State.setFld_mem : (s.setFld f v).mem = s.mem := rfl
@[simp] theorem State.setFld_hrt : (s.setFld f v).hrt = s.hrt := rfl
@[simp] theorem State.setFld_tmk : (s.setFld f v).tmk = s.tmk := rfl
@[simp] theorem State.setFld_net : (s.setFld f v).net = s.net := rfl
@[simp] theorem State.setFld_mtr : (s.setFld f v).mtr = s.mtr := rfl
@[simp] theorem State.setFld_bat : (s.setFld f v).bat = s.bat := rfl
@[simp] theorem State.setFld_rad : (s.setFld f v).rad = s.rad := rfl
@[simp] theorem State.setFld_blw : (s.setFld f v).blw = s.blw := rfl
@[simp] theorem State.setFld_rtc : (s.setFld f v).rtc = s.rtc := rfl
@[simp] theorem State.setFld_anv : (s.setFld f v).anv = s.anv := rfl
@[simp] theorem State.setFld_scn : (s.setFld f v).scn = s.scn := rfl
@[simp] theorem State.setFld_twn : (s.setFld f v).twn = s.twn := rfl
@[simp] theorem State.setFld_recd : (s.setFld f v).recd = s.recd := rfl
@[simp] theorem State.setFld_key : (s.setFld f v).key = s.key := rfl
@[simp] theorem State.setFld_cab : (s.setFld f v).cab = s.cab := rfl
@[simp] theorem State.setFld_boot : (s.setFld f v).boot = s.boot := rfl
end

section
variable (f : Field)
@[simp] theorem State.raise_pending : (s.raise f).pending = s.pending := rfl
@[simp] theorem State.raise_counts : (s.raise f).counts = s.counts := rfl
@[simp] theorem State.raise_snaps : (s.raise f).snaps = s.snaps := rfl
@[simp] theorem State.raise_answer : (s.raise f).answer = s.answer := rfl
@[simp] theorem State.raise_out : (s.raise f).out = s.out := rfl
@[simp] theorem State.raise_wall : (s.raise f).wall = s.wall := rfl
@[simp] theorem State.raise_clock : (s.raise f).clock = s.clock := rfl
@[simp] theorem State.raise_pll : (s.raise f).pll = s.pll := rfl
@[simp] theorem State.raise_draws : (s.raise f).draws = s.draws := rfl
@[simp] theorem State.raise_mem : (s.raise f).mem = s.mem := rfl
@[simp] theorem State.raise_hrt : (s.raise f).hrt = s.hrt := rfl
@[simp] theorem State.raise_tmk : (s.raise f).tmk = s.tmk := rfl
@[simp] theorem State.raise_net : (s.raise f).net = s.net := rfl
@[simp] theorem State.raise_mtr : (s.raise f).mtr = s.mtr := rfl
@[simp] theorem State.raise_bat : (s.raise f).bat = s.bat := rfl
@[simp] theorem State.raise_rad : (s.raise f).rad = s.rad := rfl
@[simp] theorem State.raise_blw : (s.raise f).blw = s.blw := rfl
@[simp] theorem State.raise_rtc : (s.raise f).rtc = s.rtc := rfl
@[simp] theorem State.raise_anv : (s.raise f).anv = s.anv := rfl
@[simp] theorem State.raise_scn : (s.raise f).scn = s.scn := rfl
@[simp] theorem State.raise_twn : (s.raise f).twn = s.twn := rfl
@[simp] theorem State.raise_recd : (s.raise f).recd = s.recd := rfl
@[simp] theorem State.raise_key : (s.raise f).key = s.key := rfl
@[simp] theorem State.raise_cab : (s.raise f).cab = s.cab := rfl
@[simp] theorem State.raise_boot : (s.raise f).boot = s.boot := rfl
end

section
variable (f : Field)
@[simp] theorem State.lower_pending : (s.lower f).pending = s.pending := rfl
@[simp] theorem State.lower_counts : (s.lower f).counts = s.counts := rfl
@[simp] theorem State.lower_snaps : (s.lower f).snaps = s.snaps := rfl
@[simp] theorem State.lower_answer : (s.lower f).answer = s.answer := rfl
@[simp] theorem State.lower_out : (s.lower f).out = s.out := rfl
@[simp] theorem State.lower_wall : (s.lower f).wall = s.wall := rfl
@[simp] theorem State.lower_clock : (s.lower f).clock = s.clock := rfl
@[simp] theorem State.lower_pll : (s.lower f).pll = s.pll := rfl
@[simp] theorem State.lower_draws : (s.lower f).draws = s.draws := rfl
@[simp] theorem State.lower_mem : (s.lower f).mem = s.mem := rfl
@[simp] theorem State.lower_hrt : (s.lower f).hrt = s.hrt := rfl
@[simp] theorem State.lower_tmk : (s.lower f).tmk = s.tmk := rfl
@[simp] theorem State.lower_net : (s.lower f).net = s.net := rfl
@[simp] theorem State.lower_mtr : (s.lower f).mtr = s.mtr := rfl
@[simp] theorem State.lower_bat : (s.lower f).bat = s.bat := rfl
@[simp] theorem State.lower_rad : (s.lower f).rad = s.rad := rfl
@[simp] theorem State.lower_blw : (s.lower f).blw = s.blw := rfl
@[simp] theorem State.lower_rtc : (s.lower f).rtc = s.rtc := rfl
@[simp] theorem State.lower_anv : (s.lower f).anv = s.anv := rfl
@[simp] theorem State.lower_scn : (s.lower f).scn = s.scn := rfl
@[simp] theorem State.lower_twn : (s.lower f).twn = s.twn := rfl
@[simp] theorem State.lower_recd : (s.lower f).recd = s.recd := rfl
@[simp] theorem State.lower_key : (s.lower f).key = s.key := rfl
@[simp] theorem State.lower_cab : (s.lower f).cab = s.cab := rfl
@[simp] theorem State.lower_boot : (s.lower f).boot = s.boot := rfl
end

section
variable (f : Field)
@[simp] theorem State.incFld_pending : (s.incFld f).pending = s.pending := rfl
@[simp] theorem State.incFld_counts : (s.incFld f).counts = s.counts := rfl
@[simp] theorem State.incFld_snaps : (s.incFld f).snaps = s.snaps := rfl
@[simp] theorem State.incFld_answer : (s.incFld f).answer = s.answer := rfl
@[simp] theorem State.incFld_out : (s.incFld f).out = s.out := rfl
@[simp] theorem State.incFld_wall : (s.incFld f).wall = s.wall := rfl
@[simp] theorem State.incFld_clock : (s.incFld f).clock = s.clock := rfl
@[simp] theorem State.incFld_pll : (s.incFld f).pll = s.pll := rfl
@[simp] theorem State.incFld_draws : (s.incFld f).draws = s.draws := rfl
@[simp] theorem State.incFld_mem : (s.incFld f).mem = s.mem := rfl
@[simp] theorem State.incFld_hrt : (s.incFld f).hrt = s.hrt := rfl
@[simp] theorem State.incFld_tmk : (s.incFld f).tmk = s.tmk := rfl
@[simp] theorem State.incFld_net : (s.incFld f).net = s.net := rfl
@[simp] theorem State.incFld_mtr : (s.incFld f).mtr = s.mtr := rfl
@[simp] theorem State.incFld_bat : (s.incFld f).bat = s.bat := rfl
@[simp] theorem State.incFld_rad : (s.incFld f).rad = s.rad := rfl
@[simp] theorem State.incFld_blw : (s.incFld f).blw = s.blw := rfl
@[simp] theorem State.incFld_rtc : (s.incFld f).rtc = s.rtc := rfl
@[simp] theorem State.incFld_anv : (s.incFld f).anv = s.anv := rfl
@[simp] theorem State.incFld_scn : (s.incFld f).scn = s.scn := rfl
@[simp] theorem State.incFld_twn : (s.incFld f).twn = s.twn := rfl
@[simp] theorem State.incFld_recd : (s.incFld f).recd = s.recd := rfl
@[simp] theorem State.incFld_key : (s.incFld f).key = s.key := rfl
@[simp] theorem State.incFld_cab : (s.incFld f).cab = s.cab := rfl
@[simp] theorem State.incFld_boot : (s.incFld f).boot = s.boot := rfl
end

section
variable (f : Field)
@[simp] theorem State.wrapFld_pending : (s.wrapFld f).pending = s.pending := rfl
@[simp] theorem State.wrapFld_counts : (s.wrapFld f).counts = s.counts := rfl
@[simp] theorem State.wrapFld_snaps : (s.wrapFld f).snaps = s.snaps := rfl
@[simp] theorem State.wrapFld_answer : (s.wrapFld f).answer = s.answer := rfl
@[simp] theorem State.wrapFld_out : (s.wrapFld f).out = s.out := rfl
@[simp] theorem State.wrapFld_wall : (s.wrapFld f).wall = s.wall := rfl
@[simp] theorem State.wrapFld_clock : (s.wrapFld f).clock = s.clock := rfl
@[simp] theorem State.wrapFld_pll : (s.wrapFld f).pll = s.pll := rfl
@[simp] theorem State.wrapFld_draws : (s.wrapFld f).draws = s.draws := rfl
@[simp] theorem State.wrapFld_mem : (s.wrapFld f).mem = s.mem := rfl
@[simp] theorem State.wrapFld_hrt : (s.wrapFld f).hrt = s.hrt := rfl
@[simp] theorem State.wrapFld_tmk : (s.wrapFld f).tmk = s.tmk := rfl
@[simp] theorem State.wrapFld_net : (s.wrapFld f).net = s.net := rfl
@[simp] theorem State.wrapFld_mtr : (s.wrapFld f).mtr = s.mtr := rfl
@[simp] theorem State.wrapFld_bat : (s.wrapFld f).bat = s.bat := rfl
@[simp] theorem State.wrapFld_rad : (s.wrapFld f).rad = s.rad := rfl
@[simp] theorem State.wrapFld_blw : (s.wrapFld f).blw = s.blw := rfl
@[simp] theorem State.wrapFld_rtc : (s.wrapFld f).rtc = s.rtc := rfl
@[simp] theorem State.wrapFld_anv : (s.wrapFld f).anv = s.anv := rfl
@[simp] theorem State.wrapFld_scn : (s.wrapFld f).scn = s.scn := rfl
@[simp] theorem State.wrapFld_twn : (s.wrapFld f).twn = s.twn := rfl
@[simp] theorem State.wrapFld_recd : (s.wrapFld f).recd = s.recd := rfl
@[simp] theorem State.wrapFld_key : (s.wrapFld f).key = s.key := rfl
@[simp] theorem State.wrapFld_cab : (s.wrapFld f).cab = s.cab := rfl
@[simp] theorem State.wrapFld_boot : (s.wrapFld f).boot = s.boot := rfl
end

section
variable (p : Nat → Bool)
@[simp] theorem State.resetRegs_pending : (s.resetRegs p).pending = s.pending := rfl
@[simp] theorem State.resetRegs_regs : (s.resetRegs p).regs = s.regs.filter fun r => !p r.1 := rfl
@[simp] theorem State.resetRegs_counts : (s.resetRegs p).counts = s.counts := rfl
@[simp] theorem State.resetRegs_snaps : (s.resetRegs p).snaps = s.snaps := rfl
@[simp] theorem State.resetRegs_answer : (s.resetRegs p).answer = s.answer := rfl
@[simp] theorem State.resetRegs_out : (s.resetRegs p).out = s.out := rfl
@[simp] theorem State.resetRegs_wall : (s.resetRegs p).wall = s.wall := rfl
@[simp] theorem State.resetRegs_clock : (s.resetRegs p).clock = s.clock := rfl
@[simp] theorem State.resetRegs_pll : (s.resetRegs p).pll = s.pll := rfl
@[simp] theorem State.resetRegs_draws : (s.resetRegs p).draws = s.draws := rfl
@[simp] theorem State.resetRegs_mem : (s.resetRegs p).mem = s.mem := rfl
@[simp] theorem State.resetRegs_hrt : (s.resetRegs p).hrt = s.hrt := rfl
@[simp] theorem State.resetRegs_tmk : (s.resetRegs p).tmk = s.tmk := rfl
@[simp] theorem State.resetRegs_net : (s.resetRegs p).net = s.net := rfl
@[simp] theorem State.resetRegs_mtr : (s.resetRegs p).mtr = s.mtr := rfl
@[simp] theorem State.resetRegs_bat : (s.resetRegs p).bat = s.bat := rfl
@[simp] theorem State.resetRegs_rad : (s.resetRegs p).rad = s.rad := rfl
@[simp] theorem State.resetRegs_blw : (s.resetRegs p).blw = s.blw := rfl
@[simp] theorem State.resetRegs_rtc : (s.resetRegs p).rtc = s.rtc := rfl
@[simp] theorem State.resetRegs_anv : (s.resetRegs p).anv = s.anv := rfl
@[simp] theorem State.resetRegs_scn : (s.resetRegs p).scn = s.scn := rfl
@[simp] theorem State.resetRegs_twn : (s.resetRegs p).twn = s.twn := rfl
@[simp] theorem State.resetRegs_recd : (s.resetRegs p).recd = s.recd := rfl
@[simp] theorem State.resetRegs_key : (s.resetRegs p).key = s.key := rfl
@[simp] theorem State.resetRegs_cab : (s.resetRegs p).cab = s.cab := rfl
@[simp] theorem State.resetRegs_boot : (s.resetRegs p).boot = s.boot := rfl
end

section
variable (a v : Nat)
@[simp] theorem State.setCount_pending : (s.setCount a v).pending = s.pending := rfl
@[simp] theorem State.setCount_regs : (s.setCount a v).regs = s.regs := rfl
@[simp] theorem State.setCount_counts : (s.setCount a v).counts = Sparse.set (fun _ => 0) s.counts a v := rfl
@[simp] theorem State.setCount_snaps : (s.setCount a v).snaps = s.snaps := rfl
@[simp] theorem State.setCount_answer : (s.setCount a v).answer = s.answer := rfl
@[simp] theorem State.setCount_out : (s.setCount a v).out = s.out := rfl
@[simp] theorem State.setCount_wall : (s.setCount a v).wall = s.wall := rfl
@[simp] theorem State.setCount_clock : (s.setCount a v).clock = s.clock := rfl
@[simp] theorem State.setCount_pll : (s.setCount a v).pll = s.pll := rfl
@[simp] theorem State.setCount_draws : (s.setCount a v).draws = s.draws := rfl
@[simp] theorem State.setCount_mem : (s.setCount a v).mem = s.mem := rfl
@[simp] theorem State.setCount_hrt : (s.setCount a v).hrt = s.hrt := rfl
@[simp] theorem State.setCount_tmk : (s.setCount a v).tmk = s.tmk := rfl
@[simp] theorem State.setCount_net : (s.setCount a v).net = s.net := rfl
@[simp] theorem State.setCount_mtr : (s.setCount a v).mtr = s.mtr := rfl
@[simp] theorem State.setCount_bat : (s.setCount a v).bat = s.bat := rfl
@[simp] theorem State.setCount_rad : (s.setCount a v).rad = s.rad := rfl
@[simp] theorem State.setCount_blw : (s.setCount a v).blw = s.blw := rfl
@[simp] theorem State.setCount_rtc : (s.setCount a v).rtc = s.rtc := rfl
@[simp] theorem State.setCount_anv : (s.setCount a v).anv = s.anv := rfl
@[simp] theorem State.setCount_scn : (s.setCount a v).scn = s.scn := rfl
@[simp] theorem State.setCount_twn : (s.setCount a v).twn = s.twn := rfl
@[simp] theorem State.setCount_recd : (s.setCount a v).recd = s.recd := rfl
@[simp] theorem State.setCount_key : (s.setCount a v).key = s.key := rfl
@[simp] theorem State.setCount_cab : (s.setCount a v).cab = s.cab := rfl
@[simp] theorem State.setCount_boot : (s.setCount a v).boot = s.boot := rfl
end

section
variable (p : Nat → Bool)
@[simp] theorem State.resetCounts_pending : (s.resetCounts p).pending = s.pending := rfl
@[simp] theorem State.resetCounts_regs : (s.resetCounts p).regs = s.regs := rfl
@[simp] theorem State.resetCounts_counts : (s.resetCounts p).counts = s.counts.filter fun c => !p c.1 := rfl
@[simp] theorem State.resetCounts_snaps : (s.resetCounts p).snaps = s.snaps := rfl
@[simp] theorem State.resetCounts_answer : (s.resetCounts p).answer = s.answer := rfl
@[simp] theorem State.resetCounts_out : (s.resetCounts p).out = s.out := rfl
@[simp] theorem State.resetCounts_wall : (s.resetCounts p).wall = s.wall := rfl
@[simp] theorem State.resetCounts_clock : (s.resetCounts p).clock = s.clock := rfl
@[simp] theorem State.resetCounts_pll : (s.resetCounts p).pll = s.pll := rfl
@[simp] theorem State.resetCounts_draws : (s.resetCounts p).draws = s.draws := rfl
@[simp] theorem State.resetCounts_mem : (s.resetCounts p).mem = s.mem := rfl
@[simp] theorem State.resetCounts_hrt : (s.resetCounts p).hrt = s.hrt := rfl
@[simp] theorem State.resetCounts_tmk : (s.resetCounts p).tmk = s.tmk := rfl
@[simp] theorem State.resetCounts_net : (s.resetCounts p).net = s.net := rfl
@[simp] theorem State.resetCounts_mtr : (s.resetCounts p).mtr = s.mtr := rfl
@[simp] theorem State.resetCounts_bat : (s.resetCounts p).bat = s.bat := rfl
@[simp] theorem State.resetCounts_rad : (s.resetCounts p).rad = s.rad := rfl
@[simp] theorem State.resetCounts_blw : (s.resetCounts p).blw = s.blw := rfl
@[simp] theorem State.resetCounts_rtc : (s.resetCounts p).rtc = s.rtc := rfl
@[simp] theorem State.resetCounts_anv : (s.resetCounts p).anv = s.anv := rfl
@[simp] theorem State.resetCounts_scn : (s.resetCounts p).scn = s.scn := rfl
@[simp] theorem State.resetCounts_twn : (s.resetCounts p).twn = s.twn := rfl
@[simp] theorem State.resetCounts_recd : (s.resetCounts p).recd = s.recd := rfl
@[simp] theorem State.resetCounts_key : (s.resetCounts p).key = s.key := rfl
@[simp] theorem State.resetCounts_cab : (s.resetCounts p).cab = s.cab := rfl
@[simp] theorem State.resetCounts_boot : (s.resetCounts p).boot = s.boot := rfl
end

section
variable (ini b : Nat) (ws : List Word)
@[simp] theorem State.setHolder_pending : (s.setHolder ini b ws).pending = s.pending := rfl
@[simp] theorem State.setHolder_regs : (s.setHolder ini b ws).regs = s.regs := rfl
@[simp] theorem State.setHolder_counts : (s.setHolder ini b ws).counts = s.counts := rfl
@[simp] theorem State.setHolder_answer : (s.setHolder ini b ws).answer = s.answer := rfl
@[simp] theorem State.setHolder_out : (s.setHolder ini b ws).out = s.out := rfl
@[simp] theorem State.setHolder_wall : (s.setHolder ini b ws).wall = s.wall := rfl
@[simp] theorem State.setHolder_clock : (s.setHolder ini b ws).clock = s.clock := rfl
@[simp] theorem State.setHolder_pll : (s.setHolder ini b ws).pll = s.pll := rfl
@[simp] theorem State.setHolder_draws : (s.setHolder ini b ws).draws = s.draws := rfl
@[simp] theorem State.setHolder_mem : (s.setHolder ini b ws).mem = s.mem := rfl
@[simp] theorem State.setHolder_hrt : (s.setHolder ini b ws).hrt = s.hrt := rfl
@[simp] theorem State.setHolder_tmk : (s.setHolder ini b ws).tmk = s.tmk := rfl
@[simp] theorem State.setHolder_net : (s.setHolder ini b ws).net = s.net := rfl
@[simp] theorem State.setHolder_mtr : (s.setHolder ini b ws).mtr = s.mtr := rfl
@[simp] theorem State.setHolder_bat : (s.setHolder ini b ws).bat = s.bat := rfl
@[simp] theorem State.setHolder_rad : (s.setHolder ini b ws).rad = s.rad := rfl
@[simp] theorem State.setHolder_blw : (s.setHolder ini b ws).blw = s.blw := rfl
@[simp] theorem State.setHolder_rtc : (s.setHolder ini b ws).rtc = s.rtc := rfl
@[simp] theorem State.setHolder_anv : (s.setHolder ini b ws).anv = s.anv := rfl
@[simp] theorem State.setHolder_scn : (s.setHolder ini b ws).scn = s.scn := rfl
@[simp] theorem State.setHolder_twn : (s.setHolder ini b ws).twn = s.twn := rfl
@[simp] theorem State.setHolder_recd : (s.setHolder ini b ws).recd = s.recd := rfl
@[simp] theorem State.setHolder_key : (s.setHolder ini b ws).key = s.key := rfl
@[simp] theorem State.setHolder_cab : (s.setHolder ini b ws).cab = s.cab := rfl
@[simp] theorem State.setHolder_boot : (s.setHolder ini b ws).boot = s.boot := rfl
end

section
variable (p : Snap → Bool)
@[simp] theorem State.keepSnaps_pending : (s.keepSnaps p).pending = s.pending := rfl
@[simp] theorem State.keepSnaps_regs : (s.keepSnaps p).regs = s.regs := rfl
@[simp] theorem State.keepSnaps_counts : (s.keepSnaps p).counts = s.counts := rfl
@[simp] theorem State.keepSnaps_snaps : (s.keepSnaps p).snaps = s.snaps.filter p := rfl
@[simp] theorem State.keepSnaps_answer : (s.keepSnaps p).answer = s.answer := rfl
@[simp] theorem State.keepSnaps_out : (s.keepSnaps p).out = s.out := rfl
@[simp] theorem State.keepSnaps_wall : (s.keepSnaps p).wall = s.wall := rfl
@[simp] theorem State.keepSnaps_clock : (s.keepSnaps p).clock = s.clock := rfl
@[simp] theorem State.keepSnaps_pll : (s.keepSnaps p).pll = s.pll := rfl
@[simp] theorem State.keepSnaps_draws : (s.keepSnaps p).draws = s.draws := rfl
@[simp] theorem State.keepSnaps_mem : (s.keepSnaps p).mem = s.mem := rfl
@[simp] theorem State.keepSnaps_hrt : (s.keepSnaps p).hrt = s.hrt := rfl
@[simp] theorem State.keepSnaps_tmk : (s.keepSnaps p).tmk = s.tmk := rfl
@[simp] theorem State.keepSnaps_net : (s.keepSnaps p).net = s.net := rfl
@[simp] theorem State.keepSnaps_mtr : (s.keepSnaps p).mtr = s.mtr := rfl
@[simp] theorem State.keepSnaps_bat : (s.keepSnaps p).bat = s.bat := rfl
@[simp] theorem State.keepSnaps_rad : (s.keepSnaps p).rad = s.rad := rfl
@[simp] theorem State.keepSnaps_blw : (s.keepSnaps p).blw = s.blw := rfl
@[simp] theorem State.keepSnaps_rtc : (s.keepSnaps p).rtc = s.rtc := rfl
@[simp] theorem State.keepSnaps_anv : (s.keepSnaps p).anv = s.anv := rfl
@[simp] theorem State.keepSnaps_scn : (s.keepSnaps p).scn = s.scn := rfl
@[simp] theorem State.keepSnaps_twn : (s.keepSnaps p).twn = s.twn := rfl
@[simp] theorem State.keepSnaps_recd : (s.keepSnaps p).recd = s.recd := rfl
@[simp] theorem State.keepSnaps_key : (s.keepSnaps p).key = s.key := rfl
@[simp] theorem State.keepSnaps_cab : (s.keepSnaps p).cab = s.cab := rfl
@[simp] theorem State.keepSnaps_boot : (s.keepSnaps p).boot = s.boot := rfl
end

section
variable (t : Nat)
@[simp] theorem State.setWall_pending : (s.setWall t).pending = s.pending := rfl
@[simp] theorem State.setWall_regs : (s.setWall t).regs = s.regs := rfl
@[simp] theorem State.setWall_counts : (s.setWall t).counts = s.counts := rfl
@[simp] theorem State.setWall_snaps : (s.setWall t).snaps = s.snaps := rfl
@[simp] theorem State.setWall_answer : (s.setWall t).answer = s.answer := rfl
@[simp] theorem State.setWall_out : (s.setWall t).out = s.out := rfl
@[simp] theorem State.setWall_wall : (s.setWall t).wall = t := rfl
@[simp] theorem State.setWall_clock : (s.setWall t).clock = s.clock := rfl
@[simp] theorem State.setWall_pll : (s.setWall t).pll = s.pll := rfl
@[simp] theorem State.setWall_draws : (s.setWall t).draws = s.draws := rfl
@[simp] theorem State.setWall_mem : (s.setWall t).mem = s.mem := rfl
@[simp] theorem State.setWall_hrt : (s.setWall t).hrt = s.hrt := rfl
@[simp] theorem State.setWall_tmk : (s.setWall t).tmk = s.tmk := rfl
@[simp] theorem State.setWall_net : (s.setWall t).net = s.net := rfl
@[simp] theorem State.setWall_mtr : (s.setWall t).mtr = s.mtr := rfl
@[simp] theorem State.setWall_bat : (s.setWall t).bat = s.bat := rfl
@[simp] theorem State.setWall_rad : (s.setWall t).rad = s.rad := rfl
@[simp] theorem State.setWall_blw : (s.setWall t).blw = s.blw := rfl
@[simp] theorem State.setWall_rtc : (s.setWall t).rtc = s.rtc := rfl
@[simp] theorem State.setWall_anv : (s.setWall t).anv = s.anv := rfl
@[simp] theorem State.setWall_scn : (s.setWall t).scn = s.scn := rfl
@[simp] theorem State.setWall_twn : (s.setWall t).twn = s.twn := rfl
@[simp] theorem State.setWall_recd : (s.setWall t).recd = s.recd := rfl
@[simp] theorem State.setWall_key : (s.setWall t).key = s.key := rfl
@[simp] theorem State.setWall_cab : (s.setWall t).cab = s.cab := rfl
@[simp] theorem State.setWall_boot : (s.setWall t).boot = s.boot := rfl
end

section
variable (t : Nat)
@[simp] theorem State.setClock_pending : (s.setClock t).pending = s.pending := rfl
@[simp] theorem State.setClock_regs : (s.setClock t).regs = s.regs := rfl
@[simp] theorem State.setClock_counts : (s.setClock t).counts = s.counts := rfl
@[simp] theorem State.setClock_snaps : (s.setClock t).snaps = s.snaps := rfl
@[simp] theorem State.setClock_answer : (s.setClock t).answer = s.answer := rfl
@[simp] theorem State.setClock_out : (s.setClock t).out = s.out := rfl
@[simp] theorem State.setClock_wall : (s.setClock t).wall = s.wall := rfl
@[simp] theorem State.setClock_clock : (s.setClock t).clock = t := rfl
@[simp] theorem State.setClock_pll : (s.setClock t).pll = s.pll := rfl
@[simp] theorem State.setClock_draws : (s.setClock t).draws = s.draws := rfl
@[simp] theorem State.setClock_mem : (s.setClock t).mem = s.mem := rfl
@[simp] theorem State.setClock_hrt : (s.setClock t).hrt = s.hrt := rfl
@[simp] theorem State.setClock_tmk : (s.setClock t).tmk = s.tmk := rfl
@[simp] theorem State.setClock_net : (s.setClock t).net = s.net := rfl
@[simp] theorem State.setClock_mtr : (s.setClock t).mtr = s.mtr := rfl
@[simp] theorem State.setClock_bat : (s.setClock t).bat = s.bat := rfl
@[simp] theorem State.setClock_rad : (s.setClock t).rad = s.rad := rfl
@[simp] theorem State.setClock_blw : (s.setClock t).blw = s.blw := rfl
@[simp] theorem State.setClock_rtc : (s.setClock t).rtc = s.rtc := rfl
@[simp] theorem State.setClock_anv : (s.setClock t).anv = s.anv := rfl
@[simp] theorem State.setClock_scn : (s.setClock t).scn = s.scn := rfl
@[simp] theorem State.setClock_twn : (s.setClock t).twn = s.twn := rfl
@[simp] theorem State.setClock_recd : (s.setClock t).recd = s.recd := rfl
@[simp] theorem State.setClock_key : (s.setClock t).key = s.key := rfl
@[simp] theorem State.setClock_cab : (s.setClock t).cab = s.cab := rfl
@[simp] theorem State.setClock_boot : (s.setClock t).boot = s.boot := rfl
end

section
variable (o : Out)
@[simp] theorem State.emit_pending : (s.emit o).pending = s.pending := rfl
@[simp] theorem State.emit_regs : (s.emit o).regs = s.regs := rfl
@[simp] theorem State.emit_counts : (s.emit o).counts = s.counts := rfl
@[simp] theorem State.emit_snaps : (s.emit o).snaps = s.snaps := rfl
@[simp] theorem State.emit_answer : (s.emit o).answer = s.answer := rfl
@[simp] theorem State.emit_out : (s.emit o).out = s.out ++ [o] := rfl
@[simp] theorem State.emit_wall : (s.emit o).wall = s.wall := rfl
@[simp] theorem State.emit_clock : (s.emit o).clock = s.clock := rfl
@[simp] theorem State.emit_pll : (s.emit o).pll = s.pll := rfl
@[simp] theorem State.emit_draws : (s.emit o).draws = s.draws := rfl
@[simp] theorem State.emit_mem : (s.emit o).mem = s.mem := rfl
@[simp] theorem State.emit_hrt : (s.emit o).hrt = s.hrt := rfl
@[simp] theorem State.emit_tmk : (s.emit o).tmk = s.tmk := rfl
@[simp] theorem State.emit_net : (s.emit o).net = s.net := rfl
@[simp] theorem State.emit_mtr : (s.emit o).mtr = s.mtr := rfl
@[simp] theorem State.emit_bat : (s.emit o).bat = s.bat := rfl
@[simp] theorem State.emit_rad : (s.emit o).rad = s.rad := rfl
@[simp] theorem State.emit_blw : (s.emit o).blw = s.blw := rfl
@[simp] theorem State.emit_rtc : (s.emit o).rtc = s.rtc := rfl
@[simp] theorem State.emit_anv : (s.emit o).anv = s.anv := rfl
@[simp] theorem State.emit_scn : (s.emit o).scn = s.scn := rfl
@[simp] theorem State.emit_twn : (s.emit o).twn = s.twn := rfl
@[simp] theorem State.emit_recd : (s.emit o).recd = s.recd := rfl
@[simp] theorem State.emit_key : (s.emit o).key = s.key := rfl
@[simp] theorem State.emit_cab : (s.emit o).cab = s.cab := rfl
@[simp] theorem State.emit_boot : (s.emit o).boot = s.boot := rfl
end

section
variable (x : Answer)
@[simp] theorem State.answerWith_pending : (s.answerWith x).pending = s.pending := rfl
@[simp] theorem State.answerWith_regs : (s.answerWith x).regs = s.regs := rfl
@[simp] theorem State.answerWith_counts : (s.answerWith x).counts = s.counts := rfl
@[simp] theorem State.answerWith_snaps : (s.answerWith x).snaps = s.snaps := rfl
@[simp] theorem State.answerWith_answer : (s.answerWith x).answer = x := rfl
@[simp] theorem State.answerWith_out : (s.answerWith x).out = s.out := rfl
@[simp] theorem State.answerWith_wall : (s.answerWith x).wall = s.wall := rfl
@[simp] theorem State.answerWith_clock : (s.answerWith x).clock = s.clock := rfl
@[simp] theorem State.answerWith_pll : (s.answerWith x).pll = s.pll := rfl
@[simp] theorem State.answerWith_draws : (s.answerWith x).draws = s.draws := rfl
@[simp] theorem State.answerWith_mem : (s.answerWith x).mem = s.mem := rfl
@[simp] theorem State.answerWith_hrt : (s.answerWith x).hrt = s.hrt := rfl
@[simp] theorem State.answerWith_tmk : (s.answerWith x).tmk = s.tmk := rfl
@[simp] theorem State.answerWith_net : (s.answerWith x).net = s.net := rfl
@[simp] theorem State.answerWith_mtr : (s.answerWith x).mtr = s.mtr := rfl
@[simp] theorem State.answerWith_bat : (s.answerWith x).bat = s.bat := rfl
@[simp] theorem State.answerWith_rad : (s.answerWith x).rad = s.rad := rfl
@[simp] theorem State.answerWith_blw : (s.answerWith x).blw = s.blw := rfl
@[simp] theorem State.answerWith_rtc : (s.answerWith x).rtc = s.rtc := rfl
@[simp] theorem State.answerWith_anv : (s.answerWith x).anv = s.anv := rfl
@[simp] theorem State.answerWith_scn : (s.answerWith x).scn = s.scn := rfl
@[simp] theorem State.answerWith_twn : (s.answerWith x).twn = s.twn := rfl
@[simp] theorem State.answerWith_recd : (s.answerWith x).recd = s.recd := rfl
@[simp] theorem State.answerWith_key : (s.answerWith x).key = s.key := rfl
@[simp] theorem State.answerWith_cab : (s.answerWith x).cab = s.cab := rfl
@[simp] theorem State.answerWith_boot : (s.answerWith x).boot = s.boot := rfl
end

@[simp] theorem State.drawn_pending : (s.drawn).pending = s.pending := rfl
@[simp] theorem State.drawn_regs : (s.drawn).regs = s.regs := rfl
@[simp] theorem State.drawn_counts : (s.drawn).counts = s.counts := rfl
@[simp] theorem State.drawn_snaps : (s.drawn).snaps = s.snaps := rfl
@[simp] theorem State.drawn_answer : (s.drawn).answer = s.answer := rfl
@[simp] theorem State.drawn_out : (s.drawn).out = s.out := rfl
@[simp] theorem State.drawn_wall : (s.drawn).wall = s.wall := rfl
@[simp] theorem State.drawn_clock : (s.drawn).clock = s.clock := rfl
@[simp] theorem State.drawn_pll : (s.drawn).pll = s.pll := rfl
@[simp] theorem State.drawn_draws : (s.drawn).draws = s.draws + 1 := rfl
@[simp] theorem State.drawn_mem : (s.drawn).mem = s.mem := rfl
@[simp] theorem State.drawn_hrt : (s.drawn).hrt = s.hrt := rfl
@[simp] theorem State.drawn_tmk : (s.drawn).tmk = s.tmk := rfl
@[simp] theorem State.drawn_net : (s.drawn).net = s.net := rfl
@[simp] theorem State.drawn_mtr : (s.drawn).mtr = s.mtr := rfl
@[simp] theorem State.drawn_bat : (s.drawn).bat = s.bat := rfl
@[simp] theorem State.drawn_rad : (s.drawn).rad = s.rad := rfl
@[simp] theorem State.drawn_blw : (s.drawn).blw = s.blw := rfl
@[simp] theorem State.drawn_rtc : (s.drawn).rtc = s.rtc := rfl
@[simp] theorem State.drawn_anv : (s.drawn).anv = s.anv := rfl
@[simp] theorem State.drawn_scn : (s.drawn).scn = s.scn := rfl
@[simp] theorem State.drawn_twn : (s.drawn).twn = s.twn := rfl
@[simp] theorem State.drawn_recd : (s.drawn).recd = s.recd := rfl
@[simp] theorem State.drawn_key : (s.drawn).key = s.key := rfl
@[simp] theorem State.drawn_cab : (s.drawn).cab = s.cab := rfl
@[simp] theorem State.drawn_boot : (s.drawn).boot = s.boot := rfl

section
variable (f : Mem → Mem)
@[simp] theorem State.modMem_pending : (s.modMem f).pending = s.pending := rfl
@[simp] theorem State.modMem_regs : (s.modMem f).regs = s.regs := rfl
@[simp] theorem State.modMem_counts : (s.modMem f).counts = s.counts := rfl
@[simp] theorem State.modMem_snaps : (s.modMem f).snaps = s.snaps := rfl
@[simp] theorem State.modMem_answer : (s.modMem f).answer = s.answer := rfl
@[simp] theorem State.modMem_out : (s.modMem f).out = s.out := rfl
@[simp] theorem State.modMem_wall : (s.modMem f).wall = s.wall := rfl
@[simp] theorem State.modMem_clock : (s.modMem f).clock = s.clock := rfl
@[simp] theorem State.modMem_pll : (s.modMem f).pll = s.pll := rfl
@[simp] theorem State.modMem_draws : (s.modMem f).draws = s.draws := rfl
@[simp] theorem State.modMem_mem : (s.modMem f).mem = f s.mem := rfl
@[simp] theorem State.modMem_hrt : (s.modMem f).hrt = s.hrt := rfl
@[simp] theorem State.modMem_tmk : (s.modMem f).tmk = s.tmk := rfl
@[simp] theorem State.modMem_net : (s.modMem f).net = s.net := rfl
@[simp] theorem State.modMem_mtr : (s.modMem f).mtr = s.mtr := rfl
@[simp] theorem State.modMem_bat : (s.modMem f).bat = s.bat := rfl
@[simp] theorem State.modMem_rad : (s.modMem f).rad = s.rad := rfl
@[simp] theorem State.modMem_blw : (s.modMem f).blw = s.blw := rfl
@[simp] theorem State.modMem_rtc : (s.modMem f).rtc = s.rtc := rfl
@[simp] theorem State.modMem_anv : (s.modMem f).anv = s.anv := rfl
@[simp] theorem State.modMem_scn : (s.modMem f).scn = s.scn := rfl
@[simp] theorem State.modMem_twn : (s.modMem f).twn = s.twn := rfl
@[simp] theorem State.modMem_recd : (s.modMem f).recd = s.recd := rfl
@[simp] theorem State.modMem_key : (s.modMem f).key = s.key := rfl
@[simp] theorem State.modMem_cab : (s.modMem f).cab = s.cab := rfl
@[simp] theorem State.modMem_boot : (s.modMem f).boot = s.boot := rfl
end

section
variable (f : Hrt → Hrt)
@[simp] theorem State.modHrt_pending : (s.modHrt f).pending = s.pending := rfl
@[simp] theorem State.modHrt_regs : (s.modHrt f).regs = s.regs := rfl
@[simp] theorem State.modHrt_counts : (s.modHrt f).counts = s.counts := rfl
@[simp] theorem State.modHrt_snaps : (s.modHrt f).snaps = s.snaps := rfl
@[simp] theorem State.modHrt_answer : (s.modHrt f).answer = s.answer := rfl
@[simp] theorem State.modHrt_out : (s.modHrt f).out = s.out := rfl
@[simp] theorem State.modHrt_wall : (s.modHrt f).wall = s.wall := rfl
@[simp] theorem State.modHrt_clock : (s.modHrt f).clock = s.clock := rfl
@[simp] theorem State.modHrt_pll : (s.modHrt f).pll = s.pll := rfl
@[simp] theorem State.modHrt_draws : (s.modHrt f).draws = s.draws := rfl
@[simp] theorem State.modHrt_mem : (s.modHrt f).mem = s.mem := rfl
@[simp] theorem State.modHrt_hrt : (s.modHrt f).hrt = f s.hrt := rfl
@[simp] theorem State.modHrt_tmk : (s.modHrt f).tmk = s.tmk := rfl
@[simp] theorem State.modHrt_net : (s.modHrt f).net = s.net := rfl
@[simp] theorem State.modHrt_mtr : (s.modHrt f).mtr = s.mtr := rfl
@[simp] theorem State.modHrt_bat : (s.modHrt f).bat = s.bat := rfl
@[simp] theorem State.modHrt_rad : (s.modHrt f).rad = s.rad := rfl
@[simp] theorem State.modHrt_blw : (s.modHrt f).blw = s.blw := rfl
@[simp] theorem State.modHrt_rtc : (s.modHrt f).rtc = s.rtc := rfl
@[simp] theorem State.modHrt_anv : (s.modHrt f).anv = s.anv := rfl
@[simp] theorem State.modHrt_scn : (s.modHrt f).scn = s.scn := rfl
@[simp] theorem State.modHrt_twn : (s.modHrt f).twn = s.twn := rfl
@[simp] theorem State.modHrt_recd : (s.modHrt f).recd = s.recd := rfl
@[simp] theorem State.modHrt_key : (s.modHrt f).key = s.key := rfl
@[simp] theorem State.modHrt_cab : (s.modHrt f).cab = s.cab := rfl
@[simp] theorem State.modHrt_boot : (s.modHrt f).boot = s.boot := rfl
end

section
variable (f : Tmk → Tmk)
@[simp] theorem State.modTmk_pending : (s.modTmk f).pending = s.pending := rfl
@[simp] theorem State.modTmk_regs : (s.modTmk f).regs = s.regs := rfl
@[simp] theorem State.modTmk_counts : (s.modTmk f).counts = s.counts := rfl
@[simp] theorem State.modTmk_snaps : (s.modTmk f).snaps = s.snaps := rfl
@[simp] theorem State.modTmk_answer : (s.modTmk f).answer = s.answer := rfl
@[simp] theorem State.modTmk_out : (s.modTmk f).out = s.out := rfl
@[simp] theorem State.modTmk_wall : (s.modTmk f).wall = s.wall := rfl
@[simp] theorem State.modTmk_clock : (s.modTmk f).clock = s.clock := rfl
@[simp] theorem State.modTmk_pll : (s.modTmk f).pll = s.pll := rfl
@[simp] theorem State.modTmk_draws : (s.modTmk f).draws = s.draws := rfl
@[simp] theorem State.modTmk_mem : (s.modTmk f).mem = s.mem := rfl
@[simp] theorem State.modTmk_hrt : (s.modTmk f).hrt = s.hrt := rfl
@[simp] theorem State.modTmk_tmk : (s.modTmk f).tmk = f s.tmk := rfl
@[simp] theorem State.modTmk_net : (s.modTmk f).net = s.net := rfl
@[simp] theorem State.modTmk_mtr : (s.modTmk f).mtr = s.mtr := rfl
@[simp] theorem State.modTmk_bat : (s.modTmk f).bat = s.bat := rfl
@[simp] theorem State.modTmk_rad : (s.modTmk f).rad = s.rad := rfl
@[simp] theorem State.modTmk_blw : (s.modTmk f).blw = s.blw := rfl
@[simp] theorem State.modTmk_rtc : (s.modTmk f).rtc = s.rtc := rfl
@[simp] theorem State.modTmk_anv : (s.modTmk f).anv = s.anv := rfl
@[simp] theorem State.modTmk_scn : (s.modTmk f).scn = s.scn := rfl
@[simp] theorem State.modTmk_twn : (s.modTmk f).twn = s.twn := rfl
@[simp] theorem State.modTmk_recd : (s.modTmk f).recd = s.recd := rfl
@[simp] theorem State.modTmk_key : (s.modTmk f).key = s.key := rfl
@[simp] theorem State.modTmk_cab : (s.modTmk f).cab = s.cab := rfl
@[simp] theorem State.modTmk_boot : (s.modTmk f).boot = s.boot := rfl
end

section
variable (f : Net → Net)
@[simp] theorem State.modNet_pending : (s.modNet f).pending = s.pending := rfl
@[simp] theorem State.modNet_regs : (s.modNet f).regs = s.regs := rfl
@[simp] theorem State.modNet_counts : (s.modNet f).counts = s.counts := rfl
@[simp] theorem State.modNet_snaps : (s.modNet f).snaps = s.snaps := rfl
@[simp] theorem State.modNet_answer : (s.modNet f).answer = s.answer := rfl
@[simp] theorem State.modNet_out : (s.modNet f).out = s.out := rfl
@[simp] theorem State.modNet_wall : (s.modNet f).wall = s.wall := rfl
@[simp] theorem State.modNet_clock : (s.modNet f).clock = s.clock := rfl
@[simp] theorem State.modNet_pll : (s.modNet f).pll = s.pll := rfl
@[simp] theorem State.modNet_draws : (s.modNet f).draws = s.draws := rfl
@[simp] theorem State.modNet_mem : (s.modNet f).mem = s.mem := rfl
@[simp] theorem State.modNet_hrt : (s.modNet f).hrt = s.hrt := rfl
@[simp] theorem State.modNet_tmk : (s.modNet f).tmk = s.tmk := rfl
@[simp] theorem State.modNet_net : (s.modNet f).net = f s.net := rfl
@[simp] theorem State.modNet_mtr : (s.modNet f).mtr = s.mtr := rfl
@[simp] theorem State.modNet_bat : (s.modNet f).bat = s.bat := rfl
@[simp] theorem State.modNet_rad : (s.modNet f).rad = s.rad := rfl
@[simp] theorem State.modNet_blw : (s.modNet f).blw = s.blw := rfl
@[simp] theorem State.modNet_rtc : (s.modNet f).rtc = s.rtc := rfl
@[simp] theorem State.modNet_anv : (s.modNet f).anv = s.anv := rfl
@[simp] theorem State.modNet_scn : (s.modNet f).scn = s.scn := rfl
@[simp] theorem State.modNet_twn : (s.modNet f).twn = s.twn := rfl
@[simp] theorem State.modNet_recd : (s.modNet f).recd = s.recd := rfl
@[simp] theorem State.modNet_key : (s.modNet f).key = s.key := rfl
@[simp] theorem State.modNet_cab : (s.modNet f).cab = s.cab := rfl
@[simp] theorem State.modNet_boot : (s.modNet f).boot = s.boot := rfl
end

section
variable (f : Mtr → Mtr)
@[simp] theorem State.modMtr_pending : (s.modMtr f).pending = s.pending := rfl
@[simp] theorem State.modMtr_regs : (s.modMtr f).regs = s.regs := rfl
@[simp] theorem State.modMtr_counts : (s.modMtr f).counts = s.counts := rfl
@[simp] theorem State.modMtr_snaps : (s.modMtr f).snaps = s.snaps := rfl
@[simp] theorem State.modMtr_answer : (s.modMtr f).answer = s.answer := rfl
@[simp] theorem State.modMtr_out : (s.modMtr f).out = s.out := rfl
@[simp] theorem State.modMtr_wall : (s.modMtr f).wall = s.wall := rfl
@[simp] theorem State.modMtr_clock : (s.modMtr f).clock = s.clock := rfl
@[simp] theorem State.modMtr_pll : (s.modMtr f).pll = s.pll := rfl
@[simp] theorem State.modMtr_draws : (s.modMtr f).draws = s.draws := rfl
@[simp] theorem State.modMtr_mem : (s.modMtr f).mem = s.mem := rfl
@[simp] theorem State.modMtr_hrt : (s.modMtr f).hrt = s.hrt := rfl
@[simp] theorem State.modMtr_tmk : (s.modMtr f).tmk = s.tmk := rfl
@[simp] theorem State.modMtr_net : (s.modMtr f).net = s.net := rfl
@[simp] theorem State.modMtr_mtr : (s.modMtr f).mtr = f s.mtr := rfl
@[simp] theorem State.modMtr_bat : (s.modMtr f).bat = s.bat := rfl
@[simp] theorem State.modMtr_rad : (s.modMtr f).rad = s.rad := rfl
@[simp] theorem State.modMtr_blw : (s.modMtr f).blw = s.blw := rfl
@[simp] theorem State.modMtr_rtc : (s.modMtr f).rtc = s.rtc := rfl
@[simp] theorem State.modMtr_anv : (s.modMtr f).anv = s.anv := rfl
@[simp] theorem State.modMtr_scn : (s.modMtr f).scn = s.scn := rfl
@[simp] theorem State.modMtr_twn : (s.modMtr f).twn = s.twn := rfl
@[simp] theorem State.modMtr_recd : (s.modMtr f).recd = s.recd := rfl
@[simp] theorem State.modMtr_key : (s.modMtr f).key = s.key := rfl
@[simp] theorem State.modMtr_cab : (s.modMtr f).cab = s.cab := rfl
@[simp] theorem State.modMtr_boot : (s.modMtr f).boot = s.boot := rfl
end

section
variable (f : Rad → Rad)
@[simp] theorem State.modRad_pending : (s.modRad f).pending = s.pending := rfl
@[simp] theorem State.modRad_regs : (s.modRad f).regs = s.regs := rfl
@[simp] theorem State.modRad_counts : (s.modRad f).counts = s.counts := rfl
@[simp] theorem State.modRad_snaps : (s.modRad f).snaps = s.snaps := rfl
@[simp] theorem State.modRad_answer : (s.modRad f).answer = s.answer := rfl
@[simp] theorem State.modRad_out : (s.modRad f).out = s.out := rfl
@[simp] theorem State.modRad_wall : (s.modRad f).wall = s.wall := rfl
@[simp] theorem State.modRad_clock : (s.modRad f).clock = s.clock := rfl
@[simp] theorem State.modRad_pll : (s.modRad f).pll = s.pll := rfl
@[simp] theorem State.modRad_draws : (s.modRad f).draws = s.draws := rfl
@[simp] theorem State.modRad_mem : (s.modRad f).mem = s.mem := rfl
@[simp] theorem State.modRad_hrt : (s.modRad f).hrt = s.hrt := rfl
@[simp] theorem State.modRad_tmk : (s.modRad f).tmk = s.tmk := rfl
@[simp] theorem State.modRad_net : (s.modRad f).net = s.net := rfl
@[simp] theorem State.modRad_mtr : (s.modRad f).mtr = s.mtr := rfl
@[simp] theorem State.modRad_bat : (s.modRad f).bat = s.bat := rfl
@[simp] theorem State.modRad_rad : (s.modRad f).rad = f s.rad := rfl
@[simp] theorem State.modRad_blw : (s.modRad f).blw = s.blw := rfl
@[simp] theorem State.modRad_rtc : (s.modRad f).rtc = s.rtc := rfl
@[simp] theorem State.modRad_anv : (s.modRad f).anv = s.anv := rfl
@[simp] theorem State.modRad_scn : (s.modRad f).scn = s.scn := rfl
@[simp] theorem State.modRad_twn : (s.modRad f).twn = s.twn := rfl
@[simp] theorem State.modRad_recd : (s.modRad f).recd = s.recd := rfl
@[simp] theorem State.modRad_key : (s.modRad f).key = s.key := rfl
@[simp] theorem State.modRad_cab : (s.modRad f).cab = s.cab := rfl
@[simp] theorem State.modRad_boot : (s.modRad f).boot = s.boot := rfl
end

section
variable (f : Cab → Cab)
@[simp] theorem State.modCab_pending : (s.modCab f).pending = s.pending := rfl
@[simp] theorem State.modCab_regs : (s.modCab f).regs = s.regs := rfl
@[simp] theorem State.modCab_counts : (s.modCab f).counts = s.counts := rfl
@[simp] theorem State.modCab_snaps : (s.modCab f).snaps = s.snaps := rfl
@[simp] theorem State.modCab_answer : (s.modCab f).answer = s.answer := rfl
@[simp] theorem State.modCab_out : (s.modCab f).out = s.out := rfl
@[simp] theorem State.modCab_wall : (s.modCab f).wall = s.wall := rfl
@[simp] theorem State.modCab_clock : (s.modCab f).clock = s.clock := rfl
@[simp] theorem State.modCab_pll : (s.modCab f).pll = s.pll := rfl
@[simp] theorem State.modCab_draws : (s.modCab f).draws = s.draws := rfl
@[simp] theorem State.modCab_mem : (s.modCab f).mem = s.mem := rfl
@[simp] theorem State.modCab_hrt : (s.modCab f).hrt = s.hrt := rfl
@[simp] theorem State.modCab_tmk : (s.modCab f).tmk = s.tmk := rfl
@[simp] theorem State.modCab_net : (s.modCab f).net = s.net := rfl
@[simp] theorem State.modCab_mtr : (s.modCab f).mtr = s.mtr := rfl
@[simp] theorem State.modCab_bat : (s.modCab f).bat = s.bat := rfl
@[simp] theorem State.modCab_rad : (s.modCab f).rad = s.rad := rfl
@[simp] theorem State.modCab_blw : (s.modCab f).blw = s.blw := rfl
@[simp] theorem State.modCab_rtc : (s.modCab f).rtc = s.rtc := rfl
@[simp] theorem State.modCab_anv : (s.modCab f).anv = s.anv := rfl
@[simp] theorem State.modCab_scn : (s.modCab f).scn = s.scn := rfl
@[simp] theorem State.modCab_twn : (s.modCab f).twn = s.twn := rfl
@[simp] theorem State.modCab_recd : (s.modCab f).recd = s.recd := rfl
@[simp] theorem State.modCab_key : (s.modCab f).key = s.key := rfl
@[simp] theorem State.modCab_cab : (s.modCab f).cab = f s.cab := rfl
@[simp] theorem State.modCab_boot : (s.modCab f).boot = s.boot := rfl
end

section
variable (f : Boot → Boot)
@[simp] theorem State.modBoot_pending : (s.modBoot f).pending = s.pending := rfl
@[simp] theorem State.modBoot_regs : (s.modBoot f).regs = s.regs := rfl
@[simp] theorem State.modBoot_counts : (s.modBoot f).counts = s.counts := rfl
@[simp] theorem State.modBoot_snaps : (s.modBoot f).snaps = s.snaps := rfl
@[simp] theorem State.modBoot_answer : (s.modBoot f).answer = s.answer := rfl
@[simp] theorem State.modBoot_out : (s.modBoot f).out = s.out := rfl
@[simp] theorem State.modBoot_wall : (s.modBoot f).wall = s.wall := rfl
@[simp] theorem State.modBoot_clock : (s.modBoot f).clock = s.clock := rfl
@[simp] theorem State.modBoot_pll : (s.modBoot f).pll = s.pll := rfl
@[simp] theorem State.modBoot_draws : (s.modBoot f).draws = s.draws := rfl
@[simp] theorem State.modBoot_mem : (s.modBoot f).mem = s.mem := rfl
@[simp] theorem State.modBoot_hrt : (s.modBoot f).hrt = s.hrt := rfl
@[simp] theorem State.modBoot_tmk : (s.modBoot f).tmk = s.tmk := rfl
@[simp] theorem State.modBoot_net : (s.modBoot f).net = s.net := rfl
@[simp] theorem State.modBoot_mtr : (s.modBoot f).mtr = s.mtr := rfl
@[simp] theorem State.modBoot_bat : (s.modBoot f).bat = s.bat := rfl
@[simp] theorem State.modBoot_rad : (s.modBoot f).rad = s.rad := rfl
@[simp] theorem State.modBoot_blw : (s.modBoot f).blw = s.blw := rfl
@[simp] theorem State.modBoot_rtc : (s.modBoot f).rtc = s.rtc := rfl
@[simp] theorem State.modBoot_anv : (s.modBoot f).anv = s.anv := rfl
@[simp] theorem State.modBoot_scn : (s.modBoot f).scn = s.scn := rfl
@[simp] theorem State.modBoot_twn : (s.modBoot f).twn = s.twn := rfl
@[simp] theorem State.modBoot_recd : (s.modBoot f).recd = s.recd := rfl
@[simp] theorem State.modBoot_key : (s.modBoot f).key = s.key := rfl
@[simp] theorem State.modBoot_cab : (s.modBoot f).cab = s.cab := rfl
@[simp] theorem State.modBoot_boot : (s.modBoot f).boot = f s.boot := rfl
end

section
variable (f : Recorder → Recorder)
@[simp] theorem State.modRec_pending : (s.modRec f).pending = s.pending := rfl
@[simp] theorem State.modRec_regs : (s.modRec f).regs = s.regs := rfl
@[simp] theorem State.modRec_counts : (s.modRec f).counts = s.counts := rfl
@[simp] theorem State.modRec_snaps : (s.modRec f).snaps = s.snaps := rfl
@[simp] theorem State.modRec_answer : (s.modRec f).answer = s.answer := rfl
@[simp] theorem State.modRec_out : (s.modRec f).out = s.out := rfl
@[simp] theorem State.modRec_wall : (s.modRec f).wall = s.wall := rfl
@[simp] theorem State.modRec_clock : (s.modRec f).clock = s.clock := rfl
@[simp] theorem State.modRec_pll : (s.modRec f).pll = s.pll := rfl
@[simp] theorem State.modRec_draws : (s.modRec f).draws = s.draws := rfl
@[simp] theorem State.modRec_mem : (s.modRec f).mem = s.mem := rfl
@[simp] theorem State.modRec_hrt : (s.modRec f).hrt = s.hrt := rfl
@[simp] theorem State.modRec_tmk : (s.modRec f).tmk = s.tmk := rfl
@[simp] theorem State.modRec_net : (s.modRec f).net = s.net := rfl
@[simp] theorem State.modRec_mtr : (s.modRec f).mtr = s.mtr := rfl
@[simp] theorem State.modRec_bat : (s.modRec f).bat = s.bat := rfl
@[simp] theorem State.modRec_rad : (s.modRec f).rad = s.rad := rfl
@[simp] theorem State.modRec_blw : (s.modRec f).blw = s.blw := rfl
@[simp] theorem State.modRec_rtc : (s.modRec f).rtc = s.rtc := rfl
@[simp] theorem State.modRec_anv : (s.modRec f).anv = s.anv := rfl
@[simp] theorem State.modRec_scn : (s.modRec f).scn = s.scn := rfl
@[simp] theorem State.modRec_twn : (s.modRec f).twn = s.twn := rfl
@[simp] theorem State.modRec_recd : (s.modRec f).recd = f s.recd := rfl
@[simp] theorem State.modRec_key : (s.modRec f).key = s.key := rfl
@[simp] theorem State.modRec_cab : (s.modRec f).cab = s.cab := rfl
@[simp] theorem State.modRec_boot : (s.modRec f).boot = s.boot := rfl
end

section
variable (f : Blw → Blw)
@[simp] theorem State.modBlw_pending : (s.modBlw f).pending = s.pending := rfl
@[simp] theorem State.modBlw_regs : (s.modBlw f).regs = s.regs := rfl
@[simp] theorem State.modBlw_counts : (s.modBlw f).counts = s.counts := rfl
@[simp] theorem State.modBlw_snaps : (s.modBlw f).snaps = s.snaps := rfl
@[simp] theorem State.modBlw_answer : (s.modBlw f).answer = s.answer := rfl
@[simp] theorem State.modBlw_out : (s.modBlw f).out = s.out := rfl
@[simp] theorem State.modBlw_wall : (s.modBlw f).wall = s.wall := rfl
@[simp] theorem State.modBlw_clock : (s.modBlw f).clock = s.clock := rfl
@[simp] theorem State.modBlw_pll : (s.modBlw f).pll = s.pll := rfl
@[simp] theorem State.modBlw_draws : (s.modBlw f).draws = s.draws := rfl
@[simp] theorem State.modBlw_mem : (s.modBlw f).mem = s.mem := rfl
@[simp] theorem State.modBlw_hrt : (s.modBlw f).hrt = s.hrt := rfl
@[simp] theorem State.modBlw_tmk : (s.modBlw f).tmk = s.tmk := rfl
@[simp] theorem State.modBlw_net : (s.modBlw f).net = s.net := rfl
@[simp] theorem State.modBlw_mtr : (s.modBlw f).mtr = s.mtr := rfl
@[simp] theorem State.modBlw_bat : (s.modBlw f).bat = s.bat := rfl
@[simp] theorem State.modBlw_rad : (s.modBlw f).rad = s.rad := rfl
@[simp] theorem State.modBlw_blw : (s.modBlw f).blw = f s.blw := rfl
@[simp] theorem State.modBlw_rtc : (s.modBlw f).rtc = s.rtc := rfl
@[simp] theorem State.modBlw_anv : (s.modBlw f).anv = s.anv := rfl
@[simp] theorem State.modBlw_scn : (s.modBlw f).scn = s.scn := rfl
@[simp] theorem State.modBlw_twn : (s.modBlw f).twn = s.twn := rfl
@[simp] theorem State.modBlw_recd : (s.modBlw f).recd = s.recd := rfl
@[simp] theorem State.modBlw_key : (s.modBlw f).key = s.key := rfl
@[simp] theorem State.modBlw_cab : (s.modBlw f).cab = s.cab := rfl
@[simp] theorem State.modBlw_boot : (s.modBlw f).boot = s.boot := rfl
end

section
variable (f : Anv → Anv)
@[simp] theorem State.modAnv_pending : (s.modAnv f).pending = s.pending := rfl
@[simp] theorem State.modAnv_regs : (s.modAnv f).regs = s.regs := rfl
@[simp] theorem State.modAnv_counts : (s.modAnv f).counts = s.counts := rfl
@[simp] theorem State.modAnv_snaps : (s.modAnv f).snaps = s.snaps := rfl
@[simp] theorem State.modAnv_answer : (s.modAnv f).answer = s.answer := rfl
@[simp] theorem State.modAnv_out : (s.modAnv f).out = s.out := rfl
@[simp] theorem State.modAnv_wall : (s.modAnv f).wall = s.wall := rfl
@[simp] theorem State.modAnv_clock : (s.modAnv f).clock = s.clock := rfl
@[simp] theorem State.modAnv_pll : (s.modAnv f).pll = s.pll := rfl
@[simp] theorem State.modAnv_draws : (s.modAnv f).draws = s.draws := rfl
@[simp] theorem State.modAnv_mem : (s.modAnv f).mem = s.mem := rfl
@[simp] theorem State.modAnv_hrt : (s.modAnv f).hrt = s.hrt := rfl
@[simp] theorem State.modAnv_tmk : (s.modAnv f).tmk = s.tmk := rfl
@[simp] theorem State.modAnv_net : (s.modAnv f).net = s.net := rfl
@[simp] theorem State.modAnv_mtr : (s.modAnv f).mtr = s.mtr := rfl
@[simp] theorem State.modAnv_bat : (s.modAnv f).bat = s.bat := rfl
@[simp] theorem State.modAnv_rad : (s.modAnv f).rad = s.rad := rfl
@[simp] theorem State.modAnv_blw : (s.modAnv f).blw = s.blw := rfl
@[simp] theorem State.modAnv_rtc : (s.modAnv f).rtc = s.rtc := rfl
@[simp] theorem State.modAnv_anv : (s.modAnv f).anv = f s.anv := rfl
@[simp] theorem State.modAnv_scn : (s.modAnv f).scn = s.scn := rfl
@[simp] theorem State.modAnv_twn : (s.modAnv f).twn = s.twn := rfl
@[simp] theorem State.modAnv_recd : (s.modAnv f).recd = s.recd := rfl
@[simp] theorem State.modAnv_key : (s.modAnv f).key = s.key := rfl
@[simp] theorem State.modAnv_cab : (s.modAnv f).cab = s.cab := rfl
@[simp] theorem State.modAnv_boot : (s.modAnv f).boot = s.boot := rfl
end

section
variable (f : Scn → Scn)
@[simp] theorem State.modScn_pending : (s.modScn f).pending = s.pending := rfl
@[simp] theorem State.modScn_regs : (s.modScn f).regs = s.regs := rfl
@[simp] theorem State.modScn_counts : (s.modScn f).counts = s.counts := rfl
@[simp] theorem State.modScn_snaps : (s.modScn f).snaps = s.snaps := rfl
@[simp] theorem State.modScn_answer : (s.modScn f).answer = s.answer := rfl
@[simp] theorem State.modScn_out : (s.modScn f).out = s.out := rfl
@[simp] theorem State.modScn_wall : (s.modScn f).wall = s.wall := rfl
@[simp] theorem State.modScn_clock : (s.modScn f).clock = s.clock := rfl
@[simp] theorem State.modScn_pll : (s.modScn f).pll = s.pll := rfl
@[simp] theorem State.modScn_draws : (s.modScn f).draws = s.draws := rfl
@[simp] theorem State.modScn_mem : (s.modScn f).mem = s.mem := rfl
@[simp] theorem State.modScn_hrt : (s.modScn f).hrt = s.hrt := rfl
@[simp] theorem State.modScn_tmk : (s.modScn f).tmk = s.tmk := rfl
@[simp] theorem State.modScn_net : (s.modScn f).net = s.net := rfl
@[simp] theorem State.modScn_mtr : (s.modScn f).mtr = s.mtr := rfl
@[simp] theorem State.modScn_bat : (s.modScn f).bat = s.bat := rfl
@[simp] theorem State.modScn_rad : (s.modScn f).rad = s.rad := rfl
@[simp] theorem State.modScn_blw : (s.modScn f).blw = s.blw := rfl
@[simp] theorem State.modScn_rtc : (s.modScn f).rtc = s.rtc := rfl
@[simp] theorem State.modScn_anv : (s.modScn f).anv = s.anv := rfl
@[simp] theorem State.modScn_scn : (s.modScn f).scn = f s.scn := rfl
@[simp] theorem State.modScn_twn : (s.modScn f).twn = s.twn := rfl
@[simp] theorem State.modScn_recd : (s.modScn f).recd = s.recd := rfl
@[simp] theorem State.modScn_key : (s.modScn f).key = s.key := rfl
@[simp] theorem State.modScn_cab : (s.modScn f).cab = s.cab := rfl
@[simp] theorem State.modScn_boot : (s.modScn f).boot = s.boot := rfl
end

section
variable (f : Twn → Twn)
@[simp] theorem State.modTwn_pending : (s.modTwn f).pending = s.pending := rfl
@[simp] theorem State.modTwn_regs : (s.modTwn f).regs = s.regs := rfl
@[simp] theorem State.modTwn_counts : (s.modTwn f).counts = s.counts := rfl
@[simp] theorem State.modTwn_snaps : (s.modTwn f).snaps = s.snaps := rfl
@[simp] theorem State.modTwn_answer : (s.modTwn f).answer = s.answer := rfl
@[simp] theorem State.modTwn_out : (s.modTwn f).out = s.out := rfl
@[simp] theorem State.modTwn_wall : (s.modTwn f).wall = s.wall := rfl
@[simp] theorem State.modTwn_clock : (s.modTwn f).clock = s.clock := rfl
@[simp] theorem State.modTwn_pll : (s.modTwn f).pll = s.pll := rfl
@[simp] theorem State.modTwn_draws : (s.modTwn f).draws = s.draws := rfl
@[simp] theorem State.modTwn_mem : (s.modTwn f).mem = s.mem := rfl
@[simp] theorem State.modTwn_hrt : (s.modTwn f).hrt = s.hrt := rfl
@[simp] theorem State.modTwn_tmk : (s.modTwn f).tmk = s.tmk := rfl
@[simp] theorem State.modTwn_net : (s.modTwn f).net = s.net := rfl
@[simp] theorem State.modTwn_mtr : (s.modTwn f).mtr = s.mtr := rfl
@[simp] theorem State.modTwn_bat : (s.modTwn f).bat = s.bat := rfl
@[simp] theorem State.modTwn_rad : (s.modTwn f).rad = s.rad := rfl
@[simp] theorem State.modTwn_blw : (s.modTwn f).blw = s.blw := rfl
@[simp] theorem State.modTwn_rtc : (s.modTwn f).rtc = s.rtc := rfl
@[simp] theorem State.modTwn_anv : (s.modTwn f).anv = s.anv := rfl
@[simp] theorem State.modTwn_scn : (s.modTwn f).scn = s.scn := rfl
@[simp] theorem State.modTwn_twn : (s.modTwn f).twn = f s.twn := rfl
@[simp] theorem State.modTwn_recd : (s.modTwn f).recd = s.recd := rfl
@[simp] theorem State.modTwn_key : (s.modTwn f).key = s.key := rfl
@[simp] theorem State.modTwn_cab : (s.modTwn f).cab = s.cab := rfl
@[simp] theorem State.modTwn_boot : (s.modTwn f).boot = s.boot := rfl
end

section
variable (f : Battery → Battery)
@[simp] theorem State.modBat_pending : (s.modBat f).pending = s.pending := rfl
@[simp] theorem State.modBat_regs : (s.modBat f).regs = s.regs := rfl
@[simp] theorem State.modBat_counts : (s.modBat f).counts = s.counts := rfl
@[simp] theorem State.modBat_snaps : (s.modBat f).snaps = s.snaps := rfl
@[simp] theorem State.modBat_answer : (s.modBat f).answer = s.answer := rfl
@[simp] theorem State.modBat_out : (s.modBat f).out = s.out := rfl
@[simp] theorem State.modBat_wall : (s.modBat f).wall = s.wall := rfl
@[simp] theorem State.modBat_clock : (s.modBat f).clock = s.clock := rfl
@[simp] theorem State.modBat_pll : (s.modBat f).pll = s.pll := rfl
@[simp] theorem State.modBat_draws : (s.modBat f).draws = s.draws := rfl
@[simp] theorem State.modBat_mem : (s.modBat f).mem = s.mem := rfl
@[simp] theorem State.modBat_hrt : (s.modBat f).hrt = s.hrt := rfl
@[simp] theorem State.modBat_tmk : (s.modBat f).tmk = s.tmk := rfl
@[simp] theorem State.modBat_net : (s.modBat f).net = s.net := rfl
@[simp] theorem State.modBat_mtr : (s.modBat f).mtr = s.mtr := rfl
@[simp] theorem State.modBat_bat : (s.modBat f).bat = f s.bat := rfl
@[simp] theorem State.modBat_rad : (s.modBat f).rad = s.rad := rfl
@[simp] theorem State.modBat_blw : (s.modBat f).blw = s.blw := rfl
@[simp] theorem State.modBat_rtc : (s.modBat f).rtc = s.rtc := rfl
@[simp] theorem State.modBat_anv : (s.modBat f).anv = s.anv := rfl
@[simp] theorem State.modBat_scn : (s.modBat f).scn = s.scn := rfl
@[simp] theorem State.modBat_twn : (s.modBat f).twn = s.twn := rfl
@[simp] theorem State.modBat_recd : (s.modBat f).recd = s.recd := rfl
@[simp] theorem State.modBat_key : (s.modBat f).key = s.key := rfl
@[simp] theorem State.modBat_cab : (s.modBat f).cab = s.cab := rfl
@[simp] theorem State.modBat_boot : (s.modBat f).boot = s.boot := rfl
end

section
variable (f : Rtc → Rtc)
@[simp] theorem State.modRtc_pending : (s.modRtc f).pending = s.pending := rfl
@[simp] theorem State.modRtc_regs : (s.modRtc f).regs = s.regs := rfl
@[simp] theorem State.modRtc_counts : (s.modRtc f).counts = s.counts := rfl
@[simp] theorem State.modRtc_snaps : (s.modRtc f).snaps = s.snaps := rfl
@[simp] theorem State.modRtc_answer : (s.modRtc f).answer = s.answer := rfl
@[simp] theorem State.modRtc_out : (s.modRtc f).out = s.out := rfl
@[simp] theorem State.modRtc_wall : (s.modRtc f).wall = s.wall := rfl
@[simp] theorem State.modRtc_clock : (s.modRtc f).clock = s.clock := rfl
@[simp] theorem State.modRtc_pll : (s.modRtc f).pll = s.pll := rfl
@[simp] theorem State.modRtc_draws : (s.modRtc f).draws = s.draws := rfl
@[simp] theorem State.modRtc_mem : (s.modRtc f).mem = s.mem := rfl
@[simp] theorem State.modRtc_hrt : (s.modRtc f).hrt = s.hrt := rfl
@[simp] theorem State.modRtc_tmk : (s.modRtc f).tmk = s.tmk := rfl
@[simp] theorem State.modRtc_net : (s.modRtc f).net = s.net := rfl
@[simp] theorem State.modRtc_mtr : (s.modRtc f).mtr = s.mtr := rfl
@[simp] theorem State.modRtc_bat : (s.modRtc f).bat = s.bat := rfl
@[simp] theorem State.modRtc_rad : (s.modRtc f).rad = s.rad := rfl
@[simp] theorem State.modRtc_blw : (s.modRtc f).blw = s.blw := rfl
@[simp] theorem State.modRtc_rtc : (s.modRtc f).rtc = f s.rtc := rfl
@[simp] theorem State.modRtc_anv : (s.modRtc f).anv = s.anv := rfl
@[simp] theorem State.modRtc_scn : (s.modRtc f).scn = s.scn := rfl
@[simp] theorem State.modRtc_twn : (s.modRtc f).twn = s.twn := rfl
@[simp] theorem State.modRtc_recd : (s.modRtc f).recd = s.recd := rfl
@[simp] theorem State.modRtc_key : (s.modRtc f).key = s.key := rfl
@[simp] theorem State.modRtc_cab : (s.modRtc f).cab = s.cab := rfl
@[simp] theorem State.modRtc_boot : (s.modRtc f).boot = s.boot := rfl
end

section
variable (f : Keystore → Keystore)
@[simp] theorem State.modKey_pending : (s.modKey f).pending = s.pending := rfl
@[simp] theorem State.modKey_regs : (s.modKey f).regs = s.regs := rfl
@[simp] theorem State.modKey_counts : (s.modKey f).counts = s.counts := rfl
@[simp] theorem State.modKey_snaps : (s.modKey f).snaps = s.snaps := rfl
@[simp] theorem State.modKey_answer : (s.modKey f).answer = s.answer := rfl
@[simp] theorem State.modKey_out : (s.modKey f).out = s.out := rfl
@[simp] theorem State.modKey_wall : (s.modKey f).wall = s.wall := rfl
@[simp] theorem State.modKey_clock : (s.modKey f).clock = s.clock := rfl
@[simp] theorem State.modKey_pll : (s.modKey f).pll = s.pll := rfl
@[simp] theorem State.modKey_draws : (s.modKey f).draws = s.draws := rfl
@[simp] theorem State.modKey_mem : (s.modKey f).mem = s.mem := rfl
@[simp] theorem State.modKey_hrt : (s.modKey f).hrt = s.hrt := rfl
@[simp] theorem State.modKey_tmk : (s.modKey f).tmk = s.tmk := rfl
@[simp] theorem State.modKey_net : (s.modKey f).net = s.net := rfl
@[simp] theorem State.modKey_mtr : (s.modKey f).mtr = s.mtr := rfl
@[simp] theorem State.modKey_bat : (s.modKey f).bat = s.bat := rfl
@[simp] theorem State.modKey_rad : (s.modKey f).rad = s.rad := rfl
@[simp] theorem State.modKey_blw : (s.modKey f).blw = s.blw := rfl
@[simp] theorem State.modKey_rtc : (s.modKey f).rtc = s.rtc := rfl
@[simp] theorem State.modKey_anv : (s.modKey f).anv = s.anv := rfl
@[simp] theorem State.modKey_scn : (s.modKey f).scn = s.scn := rfl
@[simp] theorem State.modKey_twn : (s.modKey f).twn = s.twn := rfl
@[simp] theorem State.modKey_recd : (s.modKey f).recd = s.recd := rfl
@[simp] theorem State.modKey_key : (s.modKey f).key = f s.key := rfl
@[simp] theorem State.modKey_cab : (s.modKey f).cab = s.cab := rfl
@[simp] theorem State.modKey_boot : (s.modKey f).boot = s.boot := rfl
end

section
variable (f : TimePll → TimePll)
@[simp] theorem State.modPll_pending : (s.modPll f).pending = s.pending := rfl
@[simp] theorem State.modPll_regs : (s.modPll f).regs = s.regs := rfl
@[simp] theorem State.modPll_counts : (s.modPll f).counts = s.counts := rfl
@[simp] theorem State.modPll_snaps : (s.modPll f).snaps = s.snaps := rfl
@[simp] theorem State.modPll_answer : (s.modPll f).answer = s.answer := rfl
@[simp] theorem State.modPll_out : (s.modPll f).out = s.out := rfl
@[simp] theorem State.modPll_wall : (s.modPll f).wall = s.wall := rfl
@[simp] theorem State.modPll_clock : (s.modPll f).clock = s.clock := rfl
@[simp] theorem State.modPll_pll : (s.modPll f).pll = f s.pll := rfl
@[simp] theorem State.modPll_draws : (s.modPll f).draws = s.draws := rfl
@[simp] theorem State.modPll_mem : (s.modPll f).mem = s.mem := rfl
@[simp] theorem State.modPll_hrt : (s.modPll f).hrt = s.hrt := rfl
@[simp] theorem State.modPll_tmk : (s.modPll f).tmk = s.tmk := rfl
@[simp] theorem State.modPll_net : (s.modPll f).net = s.net := rfl
@[simp] theorem State.modPll_mtr : (s.modPll f).mtr = s.mtr := rfl
@[simp] theorem State.modPll_bat : (s.modPll f).bat = s.bat := rfl
@[simp] theorem State.modPll_rad : (s.modPll f).rad = s.rad := rfl
@[simp] theorem State.modPll_blw : (s.modPll f).blw = s.blw := rfl
@[simp] theorem State.modPll_rtc : (s.modPll f).rtc = s.rtc := rfl
@[simp] theorem State.modPll_anv : (s.modPll f).anv = s.anv := rfl
@[simp] theorem State.modPll_scn : (s.modPll f).scn = s.scn := rfl
@[simp] theorem State.modPll_twn : (s.modPll f).twn = s.twn := rfl
@[simp] theorem State.modPll_recd : (s.modPll f).recd = s.recd := rfl
@[simp] theorem State.modPll_key : (s.modPll f).key = s.key := rfl
@[simp] theorem State.modPll_cab : (s.modPll f).cab = s.cab := rfl
@[simp] theorem State.modPll_boot : (s.modPll f).boot = s.boot := rfl
end

section
variable (f : RecImage → RecImage)
@[simp] theorem State.modImg_pending : (s.modImg f).pending = s.pending := rfl
@[simp] theorem State.modImg_regs : (s.modImg f).regs = s.regs := rfl
@[simp] theorem State.modImg_counts : (s.modImg f).counts = s.counts := rfl
@[simp] theorem State.modImg_snaps : (s.modImg f).snaps = s.snaps := rfl
@[simp] theorem State.modImg_answer : (s.modImg f).answer = s.answer := rfl
@[simp] theorem State.modImg_out : (s.modImg f).out = s.out := rfl
@[simp] theorem State.modImg_wall : (s.modImg f).wall = s.wall := rfl
@[simp] theorem State.modImg_clock : (s.modImg f).clock = s.clock := rfl
@[simp] theorem State.modImg_pll : (s.modImg f).pll = s.pll := rfl
@[simp] theorem State.modImg_draws : (s.modImg f).draws = s.draws := rfl
@[simp] theorem State.modImg_mem : (s.modImg f).mem = s.mem := rfl
@[simp] theorem State.modImg_hrt : (s.modImg f).hrt = s.hrt := rfl
@[simp] theorem State.modImg_tmk : (s.modImg f).tmk = s.tmk := rfl
@[simp] theorem State.modImg_net : (s.modImg f).net = s.net := rfl
@[simp] theorem State.modImg_mtr : (s.modImg f).mtr = s.mtr := rfl
@[simp] theorem State.modImg_bat : (s.modImg f).bat = s.bat := rfl
@[simp] theorem State.modImg_rad : (s.modImg f).rad = s.rad := rfl
@[simp] theorem State.modImg_blw : (s.modImg f).blw = s.blw := rfl
@[simp] theorem State.modImg_rtc : (s.modImg f).rtc = s.rtc := rfl
@[simp] theorem State.modImg_anv : (s.modImg f).anv = s.anv := rfl
@[simp] theorem State.modImg_scn : (s.modImg f).scn = s.scn := rfl
@[simp] theorem State.modImg_twn : (s.modImg f).twn = s.twn := rfl
@[simp] theorem State.modImg_key : (s.modImg f).key = s.key := rfl
@[simp] theorem State.modImg_cab : (s.modImg f).cab = s.cab := rfl
@[simp] theorem State.modImg_boot : (s.modImg f).boot = s.boot := rfl
end

/-- Registers read alike where the register lists are equal. -/
theorem State.reg_congr {t : State} (h : t.regs = s.regs) (a : Nat) : t.reg a = s.reg a := by unfold State.reg; rw [h]

theorem State.count_congr {t : State} (h : t.counts = s.counts) (a : Nat) : t.count a = s.count a := by
  unfold State.count; rw [h]

end Sys2Proof.Machine
end

