-- ==== Sys2Proof/Laws/Regs.lean ====
section
/-! SUPPORT. Laws of the registers: a word, a field, a flag and a counter after a write of the same or of another one. -/

namespace Sys2Proof.Machine

/-! ## Bit fields -/

theorem testBit_bits (v lo n i : Nat) : (bits v lo n).testBit i = (decide (i < n) && v.testBit (lo + i)) := by
  simp [bits, Nat.testBit_mod_two_pow, Nat.testBit_shiftRight]

theorem bits_lt (v lo n : Nat) : bits v lo n < 2 ^ n := Nat.mod_lt _ (by positivity)

/-- A number with a field replaced, as its three parts. -/
theorem setBits_parts (v lo n x : Nat) :
    setBits v lo n x = v % 2 ^ lo + 2 ^ lo * (x % 2 ^ n) + 2 ^ (lo + n) * (v / 2 ^ (lo + n)) := by
  have h1 : v = v % 2 ^ lo + 2 ^ lo * (v / 2 ^ lo) := (Nat.mod_add_div v (2 ^ lo)).symm
  have h2 : v / 2 ^ lo = v / 2 ^ lo % 2 ^ n + 2 ^ n * (v / 2 ^ lo / 2 ^ n) := (Nat.mod_add_div _ _).symm
  have h3 : v / 2 ^ lo / 2 ^ n = v / 2 ^ (lo + n) := by rw [Nat.div_div_eq_div_mul, ← pow_add]
  have e : v = v % 2 ^ lo + 2 ^ lo * (v / 2 ^ lo % 2 ^ n) + 2 ^ (lo + n) * (v / 2 ^ (lo + n)) := by
    rw [← h3, pow_add, mul_assoc, add_assoc, ← mul_add, ← h2]; exact h1
  unfold setBits bits
  rw [Nat.shiftRight_eq_div_pow, mul_comm (v / 2 ^ lo % 2 ^ n), mul_comm (x % 2 ^ n)]
  omega

theorem testBit_setBits (v lo n x i : Nat) :
    (setBits v lo n x).testBit i = if lo ≤ i ∧ i < lo + n then x.testBit (i - lo) else v.testBit i := by
  rw [setBits_parts, add_assoc, add_comm (v % 2 ^ lo), pow_add, mul_assoc, ← mul_add]
  have hlo : v % 2 ^ lo < 2 ^ lo := Nat.mod_lt _ (by positivity)
  have hx : x % 2 ^ n < 2 ^ n := Nat.mod_lt _ (by positivity)
  rw [Nat.testBit_two_pow_mul_add _ hlo]
  split
  · rename_i h; rw [if_neg (by omega), Nat.testBit_mod_two_pow]; simp [h]
  · rw [add_comm, Nat.testBit_two_pow_mul_add _ hx]
    split
    · rw [if_pos (by omega), Nat.testBit_mod_two_pow]; simp_all
    · rw [if_neg (by omega), ← pow_add, ← Nat.shiftRight_eq_div_pow, Nat.testBit_shiftRight]; congr 1; omega

theorem bits_setBits_same (v lo n x : Nat) : bits (setBits v lo n x) lo n = x % 2 ^ n := by
  apply Nat.eq_of_testBit_eq; intro i
  rw [testBit_bits, testBit_setBits, Nat.testBit_mod_two_pow]
  by_cases h : i < n <;> simp [h]

theorem bits_setBits_other {v lo n x lo' n' : Nat} (h : lo' + n' ≤ lo ∨ lo + n ≤ lo') :
    bits (setBits v lo n x) lo' n' = bits v lo' n' := by
  apply Nat.eq_of_testBit_eq; intro i
  rw [testBit_bits, testBit_bits, testBit_setBits]
  by_cases hi : i < n'
  · rw [if_neg (by omega)]
  · simp [hi]

theorem setBits_lt {v lo n x m : Nat} (hv : v < 2 ^ m) (h : lo + n ≤ m) : setBits v lo n x < 2 ^ m := by
  apply Nat.lt_pow_two_of_testBit
  intro i hi
  rw [testBit_setBits, if_neg (by omega)]
  exact Nat.testBit_lt_two_pow (lt_of_lt_of_le hv (Nat.pow_le_pow_right (by norm_num) hi))

/-! ## Words -/

variable {s : State} {a b : Nat} {w : Word} {f g : Field} {v : Nat}

theorem reg_setReg : (s.setReg a w).reg b = if b = a then w else s.reg b := Sparse.get_set

@[simp] theorem reg_setReg_same : (s.setReg a w).reg a = w := Sparse.get_set_same

theorem reg_setReg_other (h : b ≠ a) : (s.setReg a w).reg b = s.reg b := Sparse.get_set_other h

@[simp] theorem regN_setReg_same : (s.setReg a w).regN a = w.toNat := by simp [State.regN]

theorem regN_setReg_other (h : b ≠ a) : (s.setReg a w).regN b = s.regN b := by simp [State.regN, reg_setReg_other h]

theorem regN_lt : s.regN a < 2 ^ 32 := (s.reg a).isLt

theorem reg_setFld_other (h : b ≠ f.addr) : (s.setFld f v).reg b = s.reg b := reg_setReg_other h

theorem regN_setFld_same (h : f.lo + f.width ≤ 32) :
    (s.setFld f v).regN f.addr = setBits (s.regN f.addr) f.lo f.width v := by
  unfold State.setFld
  rw [regN_setReg_same, BitVec.toNat_ofNat]
  exact Nat.mod_eq_of_lt (setBits_lt regN_lt h)

/-! ## Fields -/

/-- A field holds the low bits of the value written to it. -/
theorem fld_setFld_same (h : f.lo + f.width ≤ 32) : (s.setFld f v).fld f = v % 2 ^ f.width := by
  rw [State.fld, regN_setFld_same h, bits_setBits_same]

/-- A write of a field leaves a field of another register, or other bits of the same register, as they are. -/
theorem fld_setFld_other (h : f.lo + f.width ≤ 32) (d : g.addr ≠ f.addr ∨ g.lo + g.width ≤ f.lo ∨ f.lo + f.width ≤ g.lo) :
    (s.setFld f v).fld g = s.fld g := by
  by_cases e : g.addr = f.addr
  · rw [State.fld, e, regN_setFld_same h, bits_setBits_other (by omega), ← e]; rfl
  · rw [State.fld, State.regN, reg_setFld_other e]; rfl

theorem fld_setReg_other (h : g.addr ≠ a) : (s.setReg a w).fld g = s.fld g := by
  simp only [State.fld, regN_setReg_other h]

theorem flag_raise (h : f.lo + f.width ≤ 32) (hw : f.width = 1) : (s.raise f).flag f = true := by
  simp [State.flag, State.raise, fld_setFld_same h, hw]

theorem flag_lower (h : f.lo + f.width ≤ 32) : (s.lower f).flag f = false := by
  simp [State.flag, State.lower, fld_setFld_same h]

theorem fld_raise (h : f.lo + f.width ≤ 32) (hw : f.width = 1) : (s.raise f).fld f = 1 := by
  simp [State.raise, fld_setFld_same h, hw]

theorem fld_lower (h : f.lo + f.width ≤ 32) : (s.lower f).fld f = 0 := by simp [State.lower, fld_setFld_same h]

/-! ## Counters -/

theorem count_setCount : (s.setCount a v).count b = if b = a then v else s.count b := Sparse.get_set

@[simp] theorem count_setCount_same : (s.setCount a v).count a = v := Sparse.get_set_same

theorem count_setCount_other (h : b ≠ a) : (s.setCount a v).count b = s.count b := Sparse.get_set_other h

@[simp] theorem reg_setCount : (s.setCount a v).reg b = s.reg b := rfl
@[simp] theorem count_setReg : (s.setReg a w).count b = s.count b := rfl

end Sys2Proof.Machine
end

