-- ==== Sys2Proof/Laws/Keeps.lean ====
section
/-! SUPPORT. What every operation keeps: the queue of waiting commands, the canonical form, what has been sent out, and the free values
that have been drawn. `Keeps s t` says so of a state `t` that operations have made from `s`; each operation has one lemma. -/

namespace Sys2Proof.Machine

/-- Operations that lead from `s` to `t` have not touched the queue, nor broken the canonical form, nor taken anything back. -/
structure Keeps (s t : State) : Prop where
  pending : t.pending = s.pending
  wf      : s.wf = true → t.wf = true
  follows : t.follows s

/-- Every next state that a result answers. -/
def KeepsR (s : State) (r : Result) : Prop := ∀ t, r = .next t → Keeps s t

theorem Keeps.refl (s : State) : Keeps s s := ⟨rfl, id, List.prefix_refl _, le_refl _⟩

theorem Keeps.trans {s t u : State} (h : Keeps s t) (k : Keeps t u) : Keeps s u :=
  ⟨k.pending.trans h.pending, fun w => k.wf (h.wf w), h.follows.1.trans k.follows.1, h.follows.2.trans k.follows.2⟩

variable {s0 s t : State}

theorem wf_parts : s.wf = true ↔ Sparse.wf Reg.resetVal s.regs = true ∧ Sparse.wf (fun _ => 0) s.counts = true ∧ s.mem.wf = true := by
  simp [State.wf, and_assoc]

/-- A state that agrees in the queue, the registers, the counters and the memory, and has taken nothing back. -/
theorem Keeps.same (h : Keeps s0 s) (hp : t.pending = s.pending) (hr : t.regs = s.regs) (hc : t.counts = s.counts)
    (hm : t.mem = s.mem) (ho : s.out <+: t.out) (hd : s.draws ≤ t.draws) : Keeps s0 t :=
  h.trans ⟨hp, fun w => by rw [wf_parts] at *; rwa [hr, hc, hm], ho, hd⟩

theorem Keeps.regs (h : Keeps s0 s) (hp : t.pending = s.pending)
    (hr : Sparse.wf Reg.resetVal s.regs = true → Sparse.wf Reg.resetVal t.regs = true) (hc : t.counts = s.counts)
    (hm : t.mem = s.mem) (ho : s.out <+: t.out) (hd : s.draws ≤ t.draws) : Keeps s0 t :=
  h.trans ⟨hp, fun w => by rw [wf_parts] at *; rw [hc, hm]; exact ⟨hr w.1, w.2⟩, ho, hd⟩

/-! ## Primitives -/

theorem keeps_setReg {a : Nat} {w : Word} (h : Keeps s0 s) : Keeps s0 (s.setReg a w) :=
  h.regs rfl (fun w => Sparse.wf_set w) rfl rfl (List.prefix_refl _) (le_refl _)

theorem keeps_setFld {f : Field} {v : Nat} (h : Keeps s0 s) : Keeps s0 (s.setFld f v) := keeps_setReg h
theorem keeps_raise {f : Field} (h : Keeps s0 s) : Keeps s0 (s.raise f) := keeps_setFld h
theorem keeps_lower {f : Field} (h : Keeps s0 s) : Keeps s0 (s.lower f) := keeps_setFld h
theorem keeps_incFld {f : Field} (h : Keeps s0 s) : Keeps s0 (s.incFld f) := keeps_setFld h
theorem keeps_wrapFld {f : Field} (h : Keeps s0 s) : Keeps s0 (s.wrapFld f) := keeps_setFld h

theorem keeps_resetRegs {p : Nat → Bool} (h : Keeps s0 s) : Keeps s0 (s.resetRegs p) :=
  h.regs rfl (fun w => Sparse.wf_filter _ w) rfl rfl (List.prefix_refl _) (le_refl _)

theorem keeps_setCount {a v : Nat} (h : Keeps s0 s) : Keeps s0 (s.setCount a v) :=
  h.trans ⟨rfl, fun w => by rw [wf_parts] at *; exact ⟨w.1, Sparse.wf_set w.2.1, w.2.2⟩, List.prefix_refl _, le_refl _⟩

theorem keeps_resetCounts {p : Nat → Bool} (h : Keeps s0 s) : Keeps s0 (s.resetCounts p) :=
  h.trans ⟨rfl, fun w => by rw [wf_parts] at *; exact ⟨w.1, Sparse.wf_filter _ w.2.1, w.2.2⟩, List.prefix_refl _, le_refl _⟩

theorem keeps_modMem {f : Mem → Mem} (hf : s.mem.wf = true → (f s.mem).wf = true) (h : Keeps s0 s) : Keeps s0 (s.modMem f) :=
  h.trans ⟨rfl, fun w => by rw [wf_parts] at *; exact ⟨w.1, w.2.1, hf w.2.2⟩, List.prefix_refl _, le_refl _⟩

theorem keeps_emit {o : Out} (h : Keeps s0 s) : Keeps s0 (s.emit o) :=
  h.same rfl rfl rfl rfl (List.prefix_append _ _) (le_refl _)

theorem keeps_drawn (h : Keeps s0 s) : Keeps s0 s.drawn :=
  h.same rfl rfl rfl rfl (List.prefix_refl _) (Nat.le_succ _)

theorem keeps_setHolder {ini b : Nat} {ws : List Word} (h : Keeps s0 s) : Keeps s0 (s.setHolder ini b ws) :=
  h.same rfl rfl rfl rfl (List.prefix_refl _) (le_refl _)
theorem keeps_answerWith {a : Answer} (h : Keeps s0 s) : Keeps s0 (s.answerWith a) :=
  h.same rfl rfl rfl rfl (List.prefix_refl _) (le_refl _)
theorem keeps_keepSnaps {p : Snap → Bool} (h : Keeps s0 s) : Keeps s0 (s.keepSnaps p) :=
  h.same rfl rfl rfl rfl (List.prefix_refl _) (le_refl _)
theorem keeps_setWall {v : Nat} (h : Keeps s0 s) : Keeps s0 (s.setWall v) :=
  h.same rfl rfl rfl rfl (List.prefix_refl _) (le_refl _)
theorem keeps_setClock {v : Nat} (h : Keeps s0 s) : Keeps s0 (s.setClock v) :=
  h.same rfl rfl rfl rfl (List.prefix_refl _) (le_refl _)
theorem keeps_modBat {f : Battery → Battery} (h : Keeps s0 s) : Keeps s0 (s.modBat f) :=
  h.same rfl rfl rfl rfl (List.prefix_refl _) (le_refl _)
theorem keeps_modHrt {f : Hrt → Hrt} (h : Keeps s0 s) : Keeps s0 (s.modHrt f) :=
  h.same rfl rfl rfl rfl (List.prefix_refl _) (le_refl _)
theorem keeps_modTmk {f : Tmk → Tmk} (h : Keeps s0 s) : Keeps s0 (s.modTmk f) :=
  h.same rfl rfl rfl rfl (List.prefix_refl _) (le_refl _)
theorem keeps_modNet {f : Net → Net} (h : Keeps s0 s) : Keeps s0 (s.modNet f) :=
  h.same rfl rfl rfl rfl (List.prefix_refl _) (le_refl _)
theorem keeps_modMtr {f : Mtr → Mtr} (h : Keeps s0 s) : Keeps s0 (s.modMtr f) :=
  h.same rfl rfl rfl rfl (List.prefix_refl _) (le_refl _)
theorem keeps_modRad {f : Rad → Rad} (h : Keeps s0 s) : Keeps s0 (s.modRad f) :=
  h.same rfl rfl rfl rfl (List.prefix_refl _) (le_refl _)
theorem keeps_modCab {f : Cab → Cab} (h : Keeps s0 s) : Keeps s0 (s.modCab f) :=
  h.same rfl rfl rfl rfl (List.prefix_refl _) (le_refl _)
theorem keeps_modBoot {f : Boot → Boot} (h : Keeps s0 s) : Keeps s0 (s.modBoot f) :=
  h.same rfl rfl rfl rfl (List.prefix_refl _) (le_refl _)
theorem keeps_modRec {f : Recorder → Recorder} (h : Keeps s0 s) : Keeps s0 (s.modRec f) :=
  h.same rfl rfl rfl rfl (List.prefix_refl _) (le_refl _)
theorem keeps_modImg {f : RecImage → RecImage} (h : Keeps s0 s) : Keeps s0 (s.modImg f) :=
  h.same rfl rfl rfl rfl (List.prefix_refl _) (le_refl _)
theorem keeps_modBlw {f : Blw → Blw} (h : Keeps s0 s) : Keeps s0 (s.modBlw f) :=
  h.same rfl rfl rfl rfl (List.prefix_refl _) (le_refl _)
theorem keeps_modAnv {f : Anv → Anv} (h : Keeps s0 s) : Keeps s0 (s.modAnv f) :=
  h.same rfl rfl rfl rfl (List.prefix_refl _) (le_refl _)
theorem keeps_modScn {f : Scn → Scn} (h : Keeps s0 s) : Keeps s0 (s.modScn f) :=
  h.same rfl rfl rfl rfl (List.prefix_refl _) (le_refl _)
theorem keeps_modTwn {f : Twn → Twn} (h : Keeps s0 s) : Keeps s0 (s.modTwn f) :=
  h.same rfl rfl rfl rfl (List.prefix_refl _) (le_refl _)
theorem keeps_modRtc {f : Rtc → Rtc} (h : Keeps s0 s) : Keeps s0 (s.modRtc f) :=
  h.same rfl rfl rfl rfl (List.prefix_refl _) (le_refl _)
theorem keeps_modPll {f : TimePll → TimePll} (h : Keeps s0 s) : Keeps s0 (s.modPll f) :=
  h.same rfl rfl rfl rfl (List.prefix_refl _) (le_refl _)
theorem keeps_modKey {f : Keystore → Keystore} (h : Keeps s0 s) : Keeps s0 (s.modKey f) :=
  h.same rfl rfl rfl rfl (List.prefix_refl _) (le_refl _)

/-! ## Control -/

theorem keepsR_done (h : Keeps s0 s) : KeepsR s0 (done s) := by
  intro t e; cases e; exact h

theorem keepsR_fault {f : Fault} : KeepsR s0 (.fault f) := by intro t e; cases e

theorem keeps_ite {c : Prop} [Decidable c] {a b : State} (ha : c → Keeps s0 a) (hb : ¬c → Keeps s0 b) :
    Keeps s0 (if c then a else b) := by split <;> simp_all

theorem keepsR_ite {c : Prop} [Decidable c] {a b : Result} (ha : c → KeepsR s0 a) (hb : ¬c → KeepsR s0 b) :
    KeepsR s0 (if c then a else b) := by split <;> simp_all

theorem keeps_ite2 {α : Type} {c : Prop} [Decidable c] {a b : α × State} (ha : c → Keeps s0 a.2) (hb : ¬c → Keeps s0 b.2) :
    Keeps s0 (if c then a else b).2 := by split <;> simp_all

theorem keeps_ite3 {α β : Type} {c : Prop} [Decidable c] {a b : α × β × State} (ha : c → Keeps s0 a.2.2)
    (hb : ¬c → Keeps s0 b.2.2) : Keeps s0 (if c then a else b).2.2 := by split <;> simp_all

theorem keeps_mk2 {α : Type} {a : α} (h : Keeps s0 s) : Keeps s0 (a, s).2 := h

theorem keeps_mk3 {α β : Type} {a : α} {b : β} (h : Keeps s0 s) : Keeps s0 (a, b, s).2.2 := h

theorem keeps_foldl {α : Type} {l : List α} {k : State → α → State} (hk : ∀ s a, Keeps s0 s → Keeps s0 (k s a))
    (h : Keeps s0 s) : Keeps s0 (l.foldl k s) := by
  induction l generalizing s with
  | nil => exact h
  | cons a l ih => exact ih (hk _ _ h)

theorem keeps_foldl_pair {α β : Type} {l : List α} {k : β × State → α → β × State} {x : β × State}
    (hk : ∀ x a, Keeps s0 x.2 → Keeps s0 (k x a).2) (h : Keeps s0 x.2) : Keeps s0 (l.foldl k x).2 := by
  induction l generalizing x with
  | nil => exact h
  | cons a l ih => exact ih (hk _ _ h)

theorem keeps_foldl_triple {α β γ : Type} {l : List α} {k : β × γ × State → α → β × γ × State} {x : β × γ × State}
    (hk : ∀ x a, Keeps s0 x.2.2 → Keeps s0 (k x a).2.2) (h : Keeps s0 x.2.2) : Keeps s0 (l.foldl k x).2.2 :=
  List.foldlRecOn (motive := fun x => Keeps s0 x.2.2) l k h fun x h a _ => hk x a h

theorem keeps_of_eq {α : Type} {e : α × State} {a : α} (heq : e = (a, t)) (h : Keeps s0 e.2) : Keeps s0 t := by
  rw [heq] at h; exact h

theorem keeps_of_eq3 {α β : Type} {e : α × β × State} {a : α} {b : β} (heq : e = (a, b, t)) (h : Keeps s0 e.2.2) : Keeps s0 t := by
  rw [heq] at h; exact h

end Sys2Proof.Machine
end

