-- ==== Sys2Proof/Laws/KeepsState.lean ====
section
/-! SUPPORT. What the operations of Machine/State.lean keep. -/

set_option linter.unusedTactic false
set_option linter.unreachableTactic false

namespace Sys2Proof.Machine

variable {s0 s : State}

theorem keeps_reset (_ : Keeps s0 s) : Keeps State.reset State.reset := Keeps.refl _


end Sys2Proof.Machine
end

