-- ==== Sys2Proof/Laws/KeepsOps.lean ====
section
/-! SUPPORT. What the operations of Machine/Ops.lean keep. -/

set_option linter.unusedTactic false
set_option linter.unreachableTactic false

namespace Sys2Proof.Machine

variable {s0 s : State}

theorem keeps_pmcAdd {i : Nat} {n : Nat} (h0 : Keeps s0 s) : Keeps s0 (State.pmcAdd s i n) := by
  unfold State.pmcAdd
  try dsimp -iota -proj only
  repeat' with_reducible (first
    | assumption | apply keeps_raise | apply keeps_setCount | apply keeps_ite | apply keeps_ite2 | intro _ | split | dsimp only)


theorem keeps_pmc {src : Nat} {ev : Nat} {inst : Nat} {n : Nat} (h0 : Keeps s0 s) : Keeps s0 (State.pmc s src ev inst n) := by
  unfold State.pmc
  repeat' with_reducible (first
    | assumption | apply keeps_pmcAdd | apply keeps_ite | apply keeps_ite2 | apply keeps_foldl | apply keeps_foldl_pair | intro _
      | split | dsimp only)


theorem keeps_bump {src : Nat} {i : Nat} {inst : Nat} {n : Nat} (h0 : Keeps s0 s) : Keeps s0 (State.bump s src i inst n) := by
  unfold State.bump
  try dsimp -iota -proj only
  repeat' with_reducible (first
    | assumption | apply keeps_pmc | apply keeps_raise | apply keeps_setCount | apply keeps_ite | apply keeps_ite2 | intro _
      | split | dsimp only)


theorem keeps_snapshot {ini : Nat} {a : Nat} {v : Nat} {words : Nat} (h0 : Keeps s0 s) : Keeps s0 (State.snapshot s ini a v words) := by
  unfold State.snapshot
  repeat' with_reducible (first
    | assumption | apply keeps_answerWith | apply keeps_setHolder | intro _ | dsimp only)


theorem keeps_runSection {p : Nat} {e : List Byte} {swapped : Bool} (h0 : Keeps s0 s) : Keeps s0 (State.runSection s p e swapped) := by
  unfold State.runSection
  try dsimp -iota -proj only
  repeat' with_reducible (first
    | assumption | apply keeps_modBoot | apply keeps_setFld | intro _ | dsimp only)


theorem keeps_takeSwap {p : Nat} (h0 : Keeps s0 s) : Keeps s0 (State.takeSwap s p) := by
  unfold State.takeSwap
  try dsimp -iota -proj only
  repeat' with_reducible (first
    | assumption | apply keeps_modBoot | apply keeps_runSection | apply keeps_ite | apply keeps_ite2 | intro _ | split
      | exact keeps_of_eq (by assumption) (by assumption) | (refine keeps_of_eq (by assumption) ?_)
      | (refine keeps_of_eq3 (by assumption) ?_) | dsimp only)


theorem keeps_slewOn {n : Nat} (h0 : Keeps s0 s) : Keeps s0 (State.slewOn s n) := by
  unfold State.slewOn
  try dsimp -iota -proj only
  repeat' with_reducible (first
    | assumption | apply keeps_modPll | apply keeps_ite | apply keeps_ite2 | intro _ | split | dsimp only)


theorem keeps_pllRun {n : Nat} (h0 : Keeps s0 s) : Keeps s0 (State.pllRun s n) := by
  unfold State.pllRun
  try dsimp -iota -proj only
  repeat' with_reducible (first
    | assumption | apply keeps_modPll | apply keeps_setWall | apply keeps_slewOn | intro _ | dsimp only)


theorem keeps_reach {t : Nat} (h0 : Keeps s0 s) : Keeps s0 (State.reach s t) := by
  unfold State.reach
  try dsimp -iota -proj only
  repeat' with_reducible (first
    | assumption | apply keeps_setClock | apply keeps_setWall | apply keeps_slewOn | apply keeps_ite | apply keeps_ite2 | intro _
      | split | dsimp only)


theorem keeps_judgeDisc (h0 : Keeps s0 s) : Keeps s0 (State.judgeDisc s) := by
  unfold State.judgeDisc
  try dsimp -iota -proj only
  repeat' with_reducible (first
    | assumption | apply keeps_modRtc | apply keeps_ite | apply keeps_ite2 | intro _ | split | dsimp only)


end Sys2Proof.Machine
end

