-- ==== Sys2Proof/Laws/KeepsKeyPath.lean ====
section
/-! SUPPORT. What the operations of Machine/KeyPath.lean keep. -/

set_option linter.unusedTactic false
set_option linter.unreachableTactic false

namespace Sys2Proof.Machine

variable {s0 s : State}

theorem keeps_setKeySlot {n : Nat} {k : KeySlot} (h0 : Keeps s0 s) : Keeps s0 (State.setKeySlot s n k) := by
  unfold State.setKeySlot
  try dsimp -iota -proj only
  repeat' with_reducible (first
    | assumption | apply keeps_modKey | intro _ | dsimp only)


theorem keeps_keyRefused {requester : Nat} {slot : Nat} {reason : Nat} (h0 : Keeps s0 s) : Keeps s0 (State.keyRefused s requester slot reason) := by
  unfold State.keyRefused
  repeat' with_reducible (first
    | assumption | apply keeps_bump | apply keeps_raise | apply keeps_setReg | intro _ | dsimp only)


theorem keeps_life {i : Nat} {n : Nat} (h0 : Keeps s0 s) : Keeps s0 (State.life s i n) := by
  unfold State.life
  try dsimp -iota -proj only
  repeat' with_reducible (first
    | assumption | apply keeps_modImg | apply keeps_ite | apply keeps_ite2 | intro _ | split | dsimp only)


theorem keeps_keyRequest {requester : Nat} {slot : Nat} {types : List Nat} {needs : List Nat} (h0 : Keeps s0 s) : Keeps s0 (State.keyRequest s requester slot types needs).2 := by
  unfold State.keyRequest
  try dsimp -iota -proj only
  repeat' with_reducible (first
    | assumption | apply keeps_bump | apply keeps_keyRefused | apply keeps_life | apply keeps_modKey | apply keeps_ite
      | apply keeps_ite2 | intro _ | split | exact keeps_of_eq (by assumption) (by assumption)
      | (refine keeps_of_eq (by assumption) ?_) | (refine keeps_of_eq3 (by assumption) ?_) | apply keeps_mk2 | dsimp only)


end Sys2Proof.Machine
end

