-- ==== Sys2Proof/Laws/KeepsReports.lean ====
section
/-! SUPPORT. What the operations of Machine/Reports.lean keep. -/

set_option linter.unusedTactic false
set_option linter.unreachableTactic false

namespace Sys2Proof.Machine

variable {s0 s : State}

theorem keeps_hist {off : Nat} (h0 : Keeps s0 s) : Keeps s0 (State.hist s off) := by
  unfold State.hist
  try dsimp -iota -proj only
  repeat' with_reducible (first
    | assumption | apply keeps_modImg | apply keeps_ite | apply keeps_ite2 | intro _ | split | dsimp only)


theorem keeps_extreme {e : Nat} {v : Int} {qual : Nat} (h0 : Keeps s0 s) : Keeps s0 (State.extreme s e v qual) := by
  unfold State.extreme
  try dsimp -iota -proj only
  repeat' with_reducible (first
    | assumption | apply keeps_modImg | apply keeps_ite | apply keeps_ite2 | intro _ | split | dsimp only)


theorem keeps_flushBegin {pass : Nat} (h0 : Keeps s0 s) : Keeps s0 (State.flushBegin s pass) := by
  unfold State.flushBegin
  try dsimp -iota -proj only
  repeat' with_reducible (first
    | assumption | apply keeps_bump | apply keeps_keyRequest | apply keeps_lower | apply keeps_modRec | apply keeps_raise
      | apply keeps_setFld | apply keeps_ite | apply keeps_ite2 | intro _ | split
      | exact keeps_of_eq (by assumption) (by assumption) | (refine keeps_of_eq (by assumption) ?_)
      | (refine keeps_of_eq3 (by assumption) ?_) | dsimp only)


theorem keeps_flushTrigger (h0 : Keeps s0 s) : Keeps s0 (State.flushTrigger s) := by
  unfold State.flushTrigger
  try dsimp -iota -proj only
  repeat' with_reducible (first
    | assumption | apply keeps_flushBegin | apply keeps_modRec | apply keeps_ite | apply keeps_ite2 | intro _ | split | dsimp only)


theorem keeps_flushSoon (h0 : Keeps s0 s) : Keeps s0 (State.flushSoon s) := by
  unfold State.flushSoon
  try dsimp -iota -proj only
  repeat' with_reducible (first
    | assumption | apply keeps_flushTrigger | apply keeps_modRec | apply keeps_ite | apply keeps_ite2 | intro _ | split
      | exact keeps_of_eq (by assumption) (by assumption) | (refine keeps_of_eq (by assumption) ?_)
      | (refine keeps_of_eq3 (by assumption) ?_) | dsimp only)


theorem keeps_faultEntry {type : Nat} {origin : Nat} {content : List Byte} (h0 : Keeps s0 s) : Keeps s0 (State.faultEntry s type origin content) := by
  unfold State.faultEntry
  try dsimp -iota -proj only
  repeat' with_reducible (first
    | assumption | apply keeps_bump | apply keeps_flushTrigger | apply keeps_life | apply keeps_modRec | apply keeps_raise
      | apply keeps_setFld | apply keeps_ite | apply keeps_ite2 | intro _ | split | dsimp only)


theorem keeps_audit {type : Nat} {origin : Nat} {content : List Byte} (h0 : Keeps s0 s) : Keeps s0 (State.audit s type origin content) := by
  unfold State.audit
  try dsimp -iota -proj only
  repeat' with_reducible (first
    | assumption | apply keeps_bump | apply keeps_flushTrigger | apply keeps_modRec | apply keeps_setFld | apply keeps_ite
      | apply keeps_ite2 | intro _ | split | dsimp only)


theorem keeps_auditWait (h0 : Keeps s0 s) : Keeps s0 (State.auditWait s) := by
  unfold State.auditWait
  repeat' with_reducible (first
    | assumption | apply keeps_bump | apply keeps_raise | apply keeps_ite | apply keeps_ite2 | intro _ | split | dsimp only)


end Sys2Proof.Machine
end

