-- ==== Sys2Proof/Laws/Memory.lean ====
section
/-! SUPPORT. Laws of memory: a byte read after a write, and that every operation keeps the canonical form. -/

namespace Sys2Proof.Machine

variable {m : Mem} {a b : Nat} {x : Byte} {bs : List Byte}

theorem Mem.wf_iff : m.wf = true ↔ Sparse.wf emptyByte m.cells = true ∧ Sparse.wf emptyByte m.tcm = true ∧
    Sparse.wf (fun _ => 0) m.flips = true ∧ Sparse.wf (fun _ => false) m.poison = true := by
  simp [Mem.wf, and_assoc]

/-- A memory each part of which is canonical if the part of a canonical one is. -/
theorem Mem.wf_of {m' : Mem} (h : m.wf = true)
    (hc : Sparse.wf emptyByte m.cells = true → Sparse.wf emptyByte m'.cells = true)
    (ht : Sparse.wf emptyByte m.tcm = true → Sparse.wf emptyByte m'.tcm = true)
    (hf : Sparse.wf (fun _ => 0) m.flips = true → Sparse.wf (fun _ => 0) m'.flips = true)
    (hp : Sparse.wf (fun _ => false) m.poison = true → Sparse.wf (fun _ => false) m'.poison = true) : m'.wf = true := by
  rw [Mem.wf_iff] at *
  exact ⟨hc h.1, ht h.2.1, hf h.2.2.1, hp h.2.2.2⟩

theorem Mem.wf_put (h : m.wf = true) : (m.put a x).wf = true := by
  rw [Mem.wf_iff] at *
  exact ⟨Sparse.wf_set h.1, h.2⟩

theorem Mem.wf_putBytes (h : m.wf = true) : (m.putBytes a bs).wf = true := by
  induction bs generalizing m a with
  | nil => exact h
  | cons x bs ih => exact ih (Mem.wf_put h)

theorem Sparse.wf_foldl {α β : Type} [DecidableEq β] {d : Nat → β} {l : List α} {k : List (Nat × β) → α → List (Nat × β)}
    {c : List (Nat × β)} (hk : ∀ c a, Sparse.wf d c = true → Sparse.wf d (k c a) = true) (h : Sparse.wf d c = true) :
    Sparse.wf d (l.foldl k c) = true := by
  induction l generalizing c with
  | nil => exact h
  | cons a l ih => exact ih (hk _ _ h)

/-- A byte read after a byte written: the address written holds it, every other address reads as before. -/
theorem Mem.byte_put : (m.put a x).byte b = if b = a then x else m.byte b := Sparse.get_set

theorem Mem.byte_putBytes_other (h : b < a ∨ a + bs.length ≤ b) : (m.putBytes a bs).byte b = m.byte b := by
  induction bs generalizing m a with
  | nil => rfl
  | cons x bs ih =>
    rw [Mem.putBytes, ih (by simp only [List.length_cons] at h; omega), Mem.byte_put, if_neg]
    simp only [List.length_cons] at h; omega

/-- Bytes written are read back, byte by byte. -/
theorem Mem.byte_putBytes (i : Nat) (h : i < bs.length) : (m.putBytes a bs).byte (a + i) = bs[i] := by
  induction bs generalizing m a i with
  | nil => simp at h
  | cons x bs ih =>
    rw [Mem.putBytes]
    cases i with
    | zero => rw [Mem.byte_putBytes_other (by omega), Mem.byte_put]; simp
    | succ i =>
      have := ih (m := m.put a x) (a := a + 1) i (by simpa using h)
      rw [show a + (i + 1) = a + 1 + i by omega, this]; rfl

/-- An address that no cell lists reads as an empty byte. -/
theorem Mem.byte_unlisted (h : ∀ c, c ∈ m.cells → c.1 ≠ a) : m.byte a = emptyByte a := by
  unfold Mem.byte
  revert h
  generalize m.cells = l
  intro h
  induction l with
  | nil => rfl
  | cons c l ih =>
    rw [Sparse.get_cons, if_neg (h c (by simp))]
    exact ih fun c hc => h c (by simp [hc])

/-- A slice of the bytes from `a` are the bytes from its place. -/
theorem Mem.sliceB_bytes {n o k : Nat} (h : o + k ≤ n) : sliceB (m.bytes a n) o k = m.bytes (a + o) k := by
  apply List.ext_getElem
  · simp [sliceB, Mem.bytes]; omega
  · intro i h1 h2
    simp [sliceB, Mem.bytes, Nat.add_assoc]

/-- Two runs of bytes, one after the other. -/
theorem Mem.bytes_append {n k : Nat} : m.bytes a n ++ m.bytes (a + n) k = m.bytes a (n + k) := by
  apply List.ext_getElem
  · simp [Mem.bytes]
  · intro i h1 h2
    simp only [Mem.bytes, List.getElem_append, List.length_map, List.length_range, List.getElem_map, List.getElem_range]
    split
    · rfl
    · congr 1; omega

/-- Without errors in the codewords, a read that the firewall grants answers the bytes stored, and changes nothing. -/
theorem readMem_clean {s : State} {ini len : Nat} (hj : s.judge ini a len false = none) (ho : s.memOn a len = true)
    (hf : s.mem.flips = []) (hp : s.mem.poison = []) (ha : a % 8 = 0) (hl : len % 8 = 0) :
    s.readMem ini a len = (.data (s.mem.bytes a len), s) := by
  have hv : ∀ w, s.mem.verdict w = .good := by
    intro w
    have h0 : popCount 72 0 = 0 := by decide
    simp [Mem.verdict, Mem.flipMask, hf, hp, Sparse.get, h0]
  have hr : ∀ l : List Nat, s.readWords l (memIndex a) ini = (true, s) := by
    intro l
    unfold State.readWords
    induction l with
    | nil => rfl
    | cons w l ih => simp only [List.foldl_cons, State.readWord, hv, Bool.true_and]; exact ih
  have hw : ∀ w, s.mem.wordBytes w = s.mem.bytes w 8 := by intro w; simp only [Mem.wordBytes, Mem.seen, hv]
  have hb : ∀ n, ((List.range n).map fun i => a / 8 * 8 + 8 * i).flatMap s.mem.wordBytes = s.mem.bytes a (8 * n) := by
    intro n
    induction n with
    | zero => rfl
    | succ n ih =>
      rw [List.range_succ, List.map_append, List.flatMap_append, ih]
      simp only [List.map_cons, List.map_nil, List.flatMap_cons, List.flatMap_nil, List.append_nil, hw]
      rw [show a / 8 * 8 + 8 * n = a + 8 * n by omega, Mem.bytes_append]
      congr 1
  have hwo : (wordsOf a len).flatMap s.mem.wordBytes = s.mem.bytes a len := by
    unfold wordsOf
    rw [hb]
    congr 1
    omega
  unfold State.readMem
  rw [hj]
  simp only [ho, Bool.not_true, Bool.false_eq_true, if_false]
  rw [hr]
  simp only [if_true, bytesOfWords, hwo, ha, List.drop_zero]
  congr 1
  congr 1
  rw [List.take_of_length_le]
  simp [Mem.bytes]

end Sys2Proof.Machine
end

