-- ==== Sys2Proof/Laws/KeepsMemory.lean ====
section
/-! SUPPORT. What the operations of Machine/Memory.lean keep. -/

set_option linter.unusedTactic false
set_option linter.unreachableTactic false

namespace Sys2Proof.Machine

variable {s0 s : State}

theorem keeps_deny {ini : Nat} {a : Nat} {rule : Nat} {write : Bool} (h0 : Keeps s0 s) : Keeps s0 (State.deny s ini a rule write) := by
  unfold State.deny
  try dsimp -iota -proj only
  repeat' with_reducible (first
    | assumption | apply keeps_bump | apply keeps_faultEntry | apply keeps_life | apply keeps_raise | apply keeps_setReg
      | apply keeps_ite | apply keeps_ite2 | intro _ | split | dsimp only)


theorem keeps_eccLast {w : Nat} {x : Nat} {ini : Nat} {mask : Nat} {ue : Bool} {scrub : Bool} (h0 : Keeps s0 s) : Keeps s0 (State.eccLast s w x ini mask ue scrub) := by
  unfold State.eccLast
  try dsimp -iota -proj only
  repeat' with_reducible (first
    | assumption | apply keeps_setReg | apply keeps_ite | apply keeps_ite2 | intro _ | split | dsimp only)


theorem keeps_eccCorrected {w : Nat} {x : Nat} {ini : Nat} {mask : Nat} {scrub : Bool} (h0 : Keeps s0 s) : Keeps s0 (State.eccCorrected s w x ini mask scrub) := by
  unfold State.eccCorrected
  try dsimp -iota -proj only
  repeat' with_reducible (first
    | assumption | apply keeps_bump | apply keeps_eccLast | apply keeps_life | apply keeps_pmc | apply keeps_raise
      | apply keeps_ite | apply keeps_ite2 | intro _ | split | dsimp only)


theorem keeps_eccUncorrectable {w : Nat} {x : Nat} {ini : Nat} {mask : Nat} {scrub : Bool} (h0 : Keeps s0 s) : Keeps s0 (State.eccUncorrectable s w x ini mask scrub) := by
  unfold State.eccUncorrectable
  try dsimp -iota -proj only
  repeat' with_reducible (first
    | assumption | apply keeps_bump | apply keeps_eccLast | apply keeps_faultEntry | apply keeps_flushSoon | apply keeps_life
      | apply keeps_raise | intro _ | dsimp only)


theorem keeps_readWord {w : Nat} {x : Nat} {ini : Nat} {scrub : Bool} (h0 : Keeps s0 s) : Keeps s0 (State.readWord s w x ini scrub).2 := by
  unfold State.readWord
  try dsimp -iota -proj only
  repeat' with_reducible (first
    | assumption | apply keeps_eccCorrected | apply keeps_eccUncorrectable | apply keeps_modMem | apply keeps_verdict
      | apply keeps_ite | apply keeps_ite2 | apply Mem.wf_putBytes | apply Sparse.wf_set | apply Sparse.wf_del
      | apply Sparse.wf_filter | exact Sparse.wf_nil | apply Sparse.wf_foldl | (apply Mem.wf_of; assumption) | intro _ | split
      | exact keeps_of_eq (by assumption) (by assumption) | (refine keeps_of_eq (by assumption) ?_)
      | (refine keeps_of_eq3 (by assumption) ?_) | apply keeps_mk2 | dsimp only)


theorem keeps_readWords {l : List Nat} {x : Nat} {ini : Nat} (h0 : Keeps s0 s) : Keeps s0 (State.readWords s l x ini).2 := by
  unfold State.readWords
  try dsimp -iota -proj only
  repeat' with_reducible (first
    | assumption | apply keeps_readWord | apply keeps_foldl | apply keeps_foldl_pair | intro _ | split
      | exact keeps_of_eq (by assumption) (by assumption) | (refine keeps_of_eq (by assumption) ?_)
      | (refine keeps_of_eq3 (by assumption) ?_) | apply keeps_mk2 | dsimp only)


theorem keeps_readMem {ini : Nat} {a : Nat} {len : Nat} (h0 : Keeps s0 s) : Keeps s0 (State.readMem s ini a len).2 := by
  unfold State.readMem
  try dsimp -iota -proj only
  repeat' with_reducible (first
    | assumption | apply keeps_deny | apply keeps_readWords | apply keeps_ite | apply keeps_ite2 | intro _ | split
      | exact keeps_of_eq (by assumption) (by assumption) | (refine keeps_of_eq (by assumption) ?_)
      | (refine keeps_of_eq3 (by assumption) ?_) | apply keeps_mk2 | dsimp only)


theorem keeps_storeWord {w : Nat} (h0 : Keeps s0 s) : Keeps s0 (State.storeWord s w) := by
  unfold State.storeWord
  try dsimp -iota -proj only
  repeat' with_reducible (first
    | assumption | apply keeps_lower | apply keeps_modMem | apply keeps_raise | apply keeps_ite | apply keeps_ite2
      | apply Mem.wf_putBytes | apply Sparse.wf_set | apply Sparse.wf_del | apply Sparse.wf_filter | exact Sparse.wf_nil
      | apply Sparse.wf_foldl | (apply Mem.wf_of; assumption) | intro _ | split | dsimp only)


theorem keeps_writeWord {ini : Nat} {a : Nat} {bs : List Byte} {w : Nat} (h0 : Keeps s0 s) : Keeps s0 (State.writeWord s ini a bs w).2 := by
  unfold State.writeWord
  try dsimp -iota -proj only
  repeat' with_reducible (first
    | assumption | apply keeps_bump | apply keeps_modMem | apply keeps_readWord | apply keeps_storeWord | apply keeps_ite
      | apply keeps_ite2 | apply Mem.wf_putBytes | apply Sparse.wf_set | apply Sparse.wf_del | apply Sparse.wf_filter
      | exact Sparse.wf_nil | apply Sparse.wf_foldl | (apply Mem.wf_of; assumption) | intro _ | split
      | exact keeps_of_eq (by assumption) (by assumption) | (refine keeps_of_eq (by assumption) ?_)
      | (refine keeps_of_eq3 (by assumption) ?_) | apply keeps_mk2 | dsimp only)


theorem keeps_storeBytes {ini : Nat} {a : Nat} {bs : List Byte} (h0 : Keeps s0 s) : Keeps s0 (State.storeBytes s ini a bs).2 := by
  unfold State.storeBytes
  try dsimp -iota -proj only
  repeat' with_reducible (first
    | assumption | apply keeps_writeWord | apply keeps_foldl | apply keeps_foldl_pair | intro _ | split
      | exact keeps_of_eq (by assumption) (by assumption) | (refine keeps_of_eq (by assumption) ?_)
      | (refine keeps_of_eq3 (by assumption) ?_) | apply keeps_mk2 | dsimp only)


theorem keeps_writeMem {ini : Nat} {a : Nat} {bs : List Byte} (h0 : Keeps s0 s) : Keeps s0 (State.writeMem s ini a bs).2 := by
  unfold State.writeMem
  try dsimp -iota -proj only
  repeat' with_reducible (first
    | assumption | apply keeps_deny | apply keeps_storeBytes | apply keeps_ite | apply keeps_ite2 | intro _ | split
      | exact keeps_of_eq (by assumption) (by assumption) | (refine keeps_of_eq (by assumption) ?_)
      | (refine keeps_of_eq3 (by assumption) ?_) | apply keeps_mk2 | dsimp only)


theorem keeps_poisonWords {a : Nat} {len : Nat} (h0 : Keeps s0 s) : Keeps s0 (State.poisonWords s a len) := by
  unfold State.poisonWords
  try dsimp -iota -proj only
  repeat' with_reducible (first
    | assumption | apply keeps_modMem | apply keeps_foldl | apply keeps_foldl_pair | apply Mem.wf_putBytes | apply Sparse.wf_set
      | apply Sparse.wf_del | apply Sparse.wf_filter | exact Sparse.wf_nil | apply Sparse.wf_foldl | (apply Mem.wf_of; assumption)
      | intro _ | dsimp only)


theorem keeps_upset {w : Nat} {mask : Nat} (h0 : Keeps s0 s) : Keeps s0 (State.upset s w mask) := by
  unfold State.upset
  try dsimp -iota -proj only
  repeat' with_reducible (first
    | assumption | apply keeps_modMem | apply Mem.wf_putBytes | apply Sparse.wf_set | apply Sparse.wf_del | apply Sparse.wf_filter
      | exact Sparse.wf_nil | apply Sparse.wf_foldl | (apply Mem.wf_of; assumption) | intro _ | dsimp only)


theorem keeps_displayLatency {ns : Nat} (h0 : Keeps s0 s) : Keeps s0 (State.displayLatency s ns) := by
  unfold State.displayLatency
  try dsimp -iota -proj only
  repeat' with_reducible (first
    | assumption | apply keeps_extreme | apply keeps_pmc | apply keeps_setReg | apply keeps_ite | apply keeps_ite2 | intro _
      | split | dsimp only)


theorem keeps_lockstepError (h0 : Keeps s0 s) : Keeps s0 (State.lockstepError s) := by
  unfold State.lockstepError
  try dsimp -iota -proj only
  repeat' with_reducible (first
    | assumption | apply keeps_bump | apply keeps_faultEntry | apply keeps_flushSoon | apply keeps_life | apply keeps_modHrt
      | apply keeps_raise | intro _ | dsimp only)


theorem keepsR_execMemoryRead {ini : Nat} {tcm : Bool} {addr : Nat} {len : Nat} {l2 : Bool} {upset : Nat} {latency : Nat} (h0 : Keeps s0 s) : KeepsR s0 (execMemoryRead ini tcm addr len l2 upset latency s) := by
  unfold execMemoryRead
  try dsimp -iota -proj only
  repeat' with_reducible (first
    | assumption | apply keeps_answerWith | apply keeps_deny | apply keeps_displayLatency | apply keeps_lockstepError
      | apply keeps_readMem | apply keeps_readWords | apply keeps_upset | apply keepsR_done | apply keepsR_ite | apply keeps_ite
      | apply keeps_ite2 | apply keepsR_done | apply keepsR_fault | intro _ | split
      | exact keeps_of_eq (by assumption) (by assumption) | (refine keeps_of_eq (by assumption) ?_)
      | (refine keeps_of_eq3 (by assumption) ?_) | dsimp only)


theorem keeps_writeTcmWord {a : Nat} {bs : List Byte} {w : Nat} (h0 : Keeps s0 s) : Keeps s0 (State.writeTcmWord s a bs w).2 := by
  unfold State.writeTcmWord
  try dsimp -iota -proj only
  repeat' with_reducible (first
    | assumption | apply keeps_modMem | apply keeps_readWord | apply keeps_ite | apply keeps_ite2 | apply keeps_foldl
      | apply keeps_foldl_pair | apply Mem.wf_putBytes | apply Sparse.wf_set | apply Sparse.wf_del | apply Sparse.wf_filter
      | exact Sparse.wf_nil | apply Sparse.wf_foldl | (apply Mem.wf_of; assumption) | intro _ | split
      | exact keeps_of_eq (by assumption) (by assumption) | (refine keeps_of_eq (by assumption) ?_)
      | (refine keeps_of_eq3 (by assumption) ?_) | apply keeps_mk2 | dsimp only)


theorem keeps_writeTcm {a : Nat} {bs : List Byte} (h0 : Keeps s0 s) : Keeps s0 (State.writeTcm s a bs) := by
  unfold State.writeTcm
  try dsimp -iota -proj only
  repeat' with_reducible (first
    | assumption | apply keeps_answerWith | apply keeps_lockstepError | apply keeps_writeTcmWord | apply keeps_ite
      | apply keeps_ite2 | apply keeps_foldl | apply keeps_foldl_pair | intro _ | split
      | exact keeps_of_eq (by assumption) (by assumption) | (refine keeps_of_eq (by assumption) ?_)
      | (refine keeps_of_eq3 (by assumption) ?_) | dsimp only)


theorem keepsR_execMemoryWrite {ini : Nat} {tcm : Bool} {addr : Nat} {data : List Byte} {poisoned : Bool} (h0 : Keeps s0 s) : KeepsR s0 (execMemoryWrite ini tcm addr data poisoned s) := by
  unfold execMemoryWrite
  try dsimp -iota -proj only
  repeat' with_reducible (first
    | assumption | apply keeps_answerWith | apply keeps_poisonWords | apply keeps_writeMem | apply keeps_writeTcm
      | apply keepsR_done | apply keepsR_ite | apply keeps_ite | apply keeps_ite2 | apply keepsR_done | apply keepsR_fault
      | intro _ | split | exact keeps_of_eq (by assumption) (by assumption) | (refine keeps_of_eq (by assumption) ?_)
      | (refine keeps_of_eq3 (by assumption) ?_) | dsimp only)


theorem keepsR_execScrubRead {x : Nat} {upset : Nat} (h0 : Keeps s0 s) : KeepsR s0 (execScrubRead x upset s) := by
  unfold execScrubRead
  try dsimp -iota -proj only
  repeat' with_reducible (first
    | assumption | apply keeps_bump | apply keeps_modMem | apply keeps_readWord | apply keeps_upset | apply keepsR_done
      | apply keepsR_ite | apply keeps_ite | apply keeps_ite2 | apply Mem.wf_putBytes | apply Sparse.wf_set | apply Sparse.wf_del
      | apply Sparse.wf_filter | exact Sparse.wf_nil | apply Sparse.wf_foldl | (apply Mem.wf_of; assumption) | apply keepsR_done
      | apply keepsR_fault | intro _ | split | exact keeps_of_eq (by assumption) (by assumption)
      | (refine keeps_of_eq (by assumption) ?_) | (refine keeps_of_eq3 (by assumption) ?_) | dsimp only)


theorem keeps_fwlActivate (h0 : Keeps s0 s) : Keeps s0 (State.fwlActivate s) := by
  unfold State.fwlActivate
  try dsimp -iota -proj only
  repeat' with_reducible (first
    | assumption | apply keeps_setReg | apply keeps_foldl | apply keeps_foldl_pair | intro _ | dsimp only)


theorem keeps_commitRefused {e : Nat} (h0 : Keeps s0 s) : Keeps s0 (State.commitRefused s e) := by
  unfold State.commitRefused
  repeat' with_reducible (first
    | assumption | apply keeps_bump | apply keeps_lower | apply keeps_raise | apply keeps_setFld | intro _ | dsimp only)


theorem keeps_fwlCommit {ini : Nat} (h0 : Keeps s0 s) : Keeps s0 (State.fwlCommit s ini) := by
  unfold State.fwlCommit
  try dsimp -iota -proj only
  repeat' with_reducible (first
    | assumption | apply keeps_audit | apply keeps_auditWait | apply keeps_bump | apply keeps_commitRefused
      | apply keeps_fwlActivate | apply keeps_lower | apply keeps_raise | apply keeps_wrapFld | apply keeps_ite | apply keeps_ite2
      | intro _ | split | exact keeps_of_eq (by assumption) (by assumption) | (refine keeps_of_eq (by assumption) ?_)
      | (refine keeps_of_eq3 (by assumption) ?_) | dsimp only)


theorem keeps_fwlLock {ini : Nat} {w : Word} (h0 : Keeps s0 s) : Keeps s0 (State.fwlLock s ini w) := by
  unfold State.fwlLock
  repeat' with_reducible (first
    | assumption | apply keeps_audit | apply keeps_auditWait | apply keeps_raise | apply keeps_ite | apply keeps_ite2 | intro _
      | split | dsimp only)


theorem keeps_setupAccess {ini : Nat} {a : Nat} {write : Bool} {k : State → State} (hk : ∀  u, Keeps s0 u → Keeps s0 (k u)) (h0 : Keeps s0 s) : Keeps s0 (State.setupAccess s ini a write k) := by
  unfold State.setupAccess
  repeat' with_reducible (first
    | assumption | apply keeps_answerWith | apply keeps_deny | apply hk | apply keeps_ite | apply keeps_ite2 | intro _ | split
      | dsimp only)


theorem keeps_fwlCommitWrite {ini : Nat} {w : Word} (h0 : Keeps s0 s) : Keeps s0 (State.fwlCommitWrite s ini w) := by
  unfold State.fwlCommitWrite
  repeat' with_reducible (first
    | assumption | apply keeps_deny | apply keeps_fwlCommit | apply keeps_ite | apply keeps_ite2 | intro _ | split | dsimp only)


theorem keepsR_execFwlCommit {ini : Nat} {w : Word} (h0 : Keeps s0 s) : KeepsR s0 (execFwlCommit ini w s) := by
  unfold execFwlCommit
  repeat' with_reducible (first
    | assumption | apply keeps_fwlCommitWrite | apply keeps_setupAccess | apply keepsR_done | apply keepsR_done
      | apply keepsR_fault | intro _ | dsimp only)


theorem keepsR_execFwlFenceDrained (h0 : Keeps s0 s) : KeepsR s0 (execFwlFenceDrained s) := by
  unfold execFwlFenceDrained
  repeat' with_reducible (first
    | assumption | apply keeps_raise | apply keepsR_done | apply keepsR_done | apply keepsR_fault | intro _ | dsimp only)


theorem keepsR_execFwlLock {ini : Nat} {w : Word} (h0 : Keeps s0 s) : KeepsR s0 (execFwlLock ini w s) := by
  unfold execFwlLock
  repeat' with_reducible (first
    | assumption | apply keeps_fwlLock | apply keeps_setupAccess | apply keepsR_done | apply keepsR_done | apply keepsR_fault
      | intro _ | dsimp only)


theorem keeps_dispLatRead (h0 : Keeps s0 s) : Keeps s0 (State.dispLatRead s) := by
  unfold State.dispLatRead
  repeat' with_reducible (first
    | assumption | apply keeps_answerWith | apply keeps_setReg | intro _ | dsimp only)


theorem keepsR_execDispLatRead {ini : Nat} (h0 : Keeps s0 s) : KeepsR s0 (execDispLatRead ini s) := by
  unfold execDispLatRead
  repeat' with_reducible (first
    | assumption | apply keeps_dispLatRead | apply keeps_setupAccess | apply keepsR_done | apply keepsR_done | apply keepsR_fault
      | intro _ | dsimp only)


end Sys2Proof.Machine
end

