-- ==== Sys2Proof/Laws/KeepsRings.lean ====
section
/-! SUPPORT. What the operations of Machine/Rings.lean keep. -/

set_option linter.unusedTactic false
set_option linter.unreachableTactic false

namespace Sys2Proof.Machine

variable {s0 s : State}

theorem keeps_writeCpl {n : Nat} {slot : Nat} {c : Cpl} (h0 : Keeps s0 s) : Keeps s0 (State.writeCpl s n slot c) := by
  unfold State.writeCpl
  try dsimp -iota -proj only
  repeat' with_reducible (first
    | assumption | apply keeps_setReg | apply keeps_writeMem | intro _ | dsimp only)


theorem keeps_descError (h0 : Keeps s0 s) : Keeps s0 (State.descError s) := by
  unfold State.descError
  repeat' with_reducible (first
    | assumption | apply keeps_bump | apply keeps_raise | intro _ | dsimp only)


theorem keeps_drainCpl {n : Nat} {l : List Inflight} (h : Keeps s0 s) : Keeps s0 (State.drainCpl n l s).2 := by
  induction l generalizing s with
  | nil => exact h
  | cons i l ih =>
    unfold State.drainCpl
    split
    · split
      · exact ih (keeps_writeCpl h)
      · exact h
    · exact ih h


theorem keeps_finish {n : Nat} {slot : Nat} {c : Cpl} (h0 : Keeps s0 s) : Keeps s0 (State.finish s n slot c) := by
  unfold State.finish
  try dsimp -iota -proj only
  repeat' with_reducible (first
    | assumption | apply keeps_descError | apply keeps_drainCpl | apply keeps_modHrt | apply keeps_ite | apply keeps_ite2
      | intro _ | split | exact keeps_of_eq (by assumption) (by assumption) | (refine keeps_of_eq (by assumption) ?_)
      | (refine keeps_of_eq3 (by assumption) ?_) | dsimp only)


theorem keeps_cplStall {n : Nat} (h0 : Keeps s0 s) : Keeps s0 (State.cplStall s n) := by
  unfold State.cplStall
  try dsimp -iota -proj only
  repeat' with_reducible (first
    | assumption | apply keeps_bump | apply keeps_modHrt | apply keeps_raise | apply keeps_ite | apply keeps_ite2 | intro _
      | split | dsimp only)


theorem keeps_takeHead {n : Nat} {desc : List Byte} (h0 : Keeps s0 s) : Keeps s0 (State.takeHead s n desc) := by
  unfold State.takeHead
  try dsimp -iota -proj only
  repeat' with_reducible (first
    | assumption | apply keeps_modHrt | apply keeps_setReg | intro _ | dsimp only)


theorem keeps_readHead {n : Nat} (h0 : Keeps s0 s) : Keeps s0 (State.readHead s n).2 := by
  unfold State.readHead
  try dsimp -iota -proj only
  repeat' with_reducible (first
    | assumption | apply keeps_descError | apply keeps_finish | apply keeps_readMem | apply keeps_takeHead | intro _ | split
      | exact keeps_of_eq (by assumption) (by assumption) | (refine keeps_of_eq (by assumption) ?_)
      | (refine keeps_of_eq3 (by assumption) ?_) | apply keeps_mk2 | dsimp only)


theorem keeps_settleHead {n fuel : Nat} (h : Keeps s0 s) : Keeps s0 (State.settleHead n fuel s) := by
  induction fuel generalizing s with
  | zero => exact h
  | succ fuel ih =>
    unfold State.settleHead
    dsimp -iota -proj only
    repeat' with_reducible (first
      | assumption | apply keeps_cplStall | apply keeps_ite | apply ih | apply keeps_finish | apply keeps_takeHead | intro _ | split
      | exact keeps_of_eq (by assumption) (keeps_readHead (by assumption))
      | (refine keeps_of_eq (by assumption) ?_))


theorem keeps_settle {n : Nat} (h0 : Keeps s0 s) : Keeps s0 (State.settle s n) := by
  unfold State.settle
  repeat' with_reducible (first
    | assumption | apply keeps_settleHead | intro _ | dsimp only)


theorem keeps_takeCommand {n : Nat} {op : Nat} {k : Nat → List Byte → State → Option Cpl × State} (hk : ∀ x0 x1 u, Keeps s0 u → Keeps s0 (k x0 x1 u).2) (h0 : Keeps s0 s) : Keeps s0 (State.takeCommand s n op k) := by
  unfold State.takeCommand
  try dsimp -iota -proj only
  repeat' with_reducible (first
    | assumption | apply keeps_finish | apply keeps_readHead | apply keeps_settle | apply keeps_takeHead | apply hk
      | apply keeps_ite | apply keeps_ite2 | intro _ | split | exact keeps_of_eq (by assumption) (by assumption)
      | (refine keeps_of_eq (by assumption) ?_) | (refine keeps_of_eq3 (by assumption) ?_) | dsimp only)


theorem keeps_readBlock {n : Nat} {desc : List Byte} {len : Nat} (h0 : Keeps s0 s) : Keeps s0 (State.readBlock s n desc len).2 := by
  unfold State.readBlock
  try dsimp -iota -proj only
  repeat' with_reducible (first
    | assumption | apply keeps_readMem | apply keeps_ite | apply keeps_ite2 | intro _ | split
      | exact keeps_of_eq (by assumption) (by assumption) | (refine keeps_of_eq (by assumption) ?_)
      | (refine keeps_of_eq3 (by assumption) ?_) | apply keeps_mk2 | dsimp only)


theorem keeps_withBlock {n : Nat} {desc : List Byte} {k : List Byte → State → Option Cpl × State} {len : Nat} (hk : ∀ x0 u, Keeps s0 u → Keeps s0 (k x0 u).2) (h0 : Keeps s0 s) : Keeps s0 (State.withBlock s n desc k len).2 := by
  unfold State.withBlock
  repeat' with_reducible (first
    | assumption | apply keeps_readBlock | apply hk | intro _ | split | exact keeps_of_eq (by assumption) (by assumption)
      | (refine keeps_of_eq (by assumption) ?_) | (refine keeps_of_eq3 (by assumption) ?_) | apply keeps_mk2 | dsimp only)


theorem keeps_report {b : Nat} {ini : Nat} {entry : List Byte} (h0 : Keeps s0 s) : Keeps s0 (State.report s b ini entry).2 := by
  unfold State.report
  try dsimp -iota -proj only
  repeat' with_reducible (first
    | assumption | apply keeps_setReg | apply keeps_writeMem | apply keeps_ite | apply keeps_ite2 | intro _ | split
      | exact keeps_of_eq (by assumption) (by assumption) | (refine keeps_of_eq (by assumption) ?_)
      | (refine keeps_of_eq3 (by assumption) ?_) | apply keeps_mk2 | dsimp only)


end Sys2Proof.Machine
end

