-- ==== Sys2Proof/Laws/KeepsRails.lean ====
section
/-! SUPPORT. What the operations of Machine/Rails.lean keep. -/

set_option linter.unusedTactic false
set_option linter.unreachableTactic false

namespace Sys2Proof.Machine

variable {s0 s : State}

theorem keeps_setRail {g : Nat} {r : Rail} (h0 : Keeps s0 s) : Keeps s0 (State.setRail s g r) := by
  unfold State.setRail
  try dsimp -iota -proj only
  repeat' with_reducible (first
    | assumption | apply keeps_modBlw | intro _ | dsimp only)


theorem keeps_showRail {g : Nat} {r : Rail} {target : Nat} (h0 : Keeps s0 s) : Keeps s0 (State.showRail s g r target) := by
  unfold State.showRail
  try dsimp -iota -proj only
  repeat' with_reducible (first
    | assumption | apply keeps_setFld | apply keeps_setRail | apply keeps_setReg | intro _ | dsimp only)


theorem keeps_railOff {g : Nat} (h0 : Keeps s0 s) : Keeps s0 (State.railOff s g) := by
  unfold State.railOff
  try dsimp -iota -proj only
  repeat' with_reducible (first
    | assumption | apply keeps_modBlw | apply keeps_setReg | intro _ | dsimp only)


theorem keeps_railsOff (h0 : Keeps s0 s) : Keeps s0 (State.railsOff s) := by
  unfold State.railsOff
  repeat' with_reducible (first
    | assumption | apply keeps_railOff | apply keeps_foldl | apply keeps_foldl_pair | intro _ | dsimp only)


theorem keeps_railCfg {b : List Byte} (h0 : Keeps s0 s) : Keeps s0 (State.railCfg s b) := by
  unfold State.railCfg
  try dsimp -iota -proj only
  repeat' with_reducible (first
    | assumption | apply keeps_lower | apply keeps_railOff | apply keeps_setFld | apply keeps_showRail | apply keeps_ite
      | apply keeps_ite2 | intro _ | split | exact keeps_of_eq (by assumption) (by assumption)
      | (refine keeps_of_eq (by assumption) ?_) | (refine keeps_of_eq3 (by assumption) ?_) | dsimp only)


theorem keepsR_execRailCfg (h0 : Keeps s0 s) : KeepsR s0 (execRailCfg s) := by
  unfold execRailCfg
  repeat' with_reducible (first
    | assumption | apply keeps_railCfg | apply keeps_takeCommand | apply keeps_withBlock | apply keepsR_done | apply keepsR_ite
      | apply keeps_ite | apply keeps_ite2 | apply keepsR_done | apply keepsR_fault | intro _ | split
      | exact keeps_of_eq (by assumption) (by assumption) | (refine keeps_of_eq (by assumption) ?_)
      | (refine keeps_of_eq3 (by assumption) ?_) | dsimp only)


theorem keepsR_execRailSet (h0 : Keeps s0 s) : KeepsR s0 (execRailSet s) := by
  unfold execRailSet
  try dsimp -iota -proj only
  repeat' with_reducible (first
    | assumption | apply keeps_setRail | apply keeps_showRail | apply keeps_takeCommand | apply keepsR_done | apply keepsR_ite
      | apply keeps_ite | apply keeps_ite2 | apply keepsR_done | apply keepsR_fault | intro _ | split
      | exact keeps_of_eq (by assumption) (by assumption) | (refine keeps_of_eq (by assumption) ?_)
      | (refine keeps_of_eq3 (by assumption) ?_) | dsimp only)


theorem keepsR_execTrackingRound {g : Nat} (h0 : Keeps s0 s) : KeepsR s0 (execTrackingRound g s) := by
  unfold execTrackingRound
  try dsimp -iota -proj only
  repeat' with_reducible (first
    | assumption | apply keeps_lower | apply keeps_raise | apply keeps_showRail | apply keepsR_done | apply keepsR_ite
      | apply keeps_ite | apply keeps_ite2 | apply keepsR_done | apply keepsR_fault | intro _ | split
      | exact keeps_of_eq (by assumption) (by assumption) | (refine keeps_of_eq (by assumption) ?_)
      | (refine keeps_of_eq3 (by assumption) ?_) | dsimp only)


theorem keeps_railRegLost {g : Nat} (h0 : Keeps s0 s) : Keeps s0 (State.railRegLost s g) := by
  unfold State.railRegLost
  try dsimp -iota -proj only
  repeat' with_reducible (first
    | assumption | apply keeps_bump | apply keeps_raise | apply keeps_showRail | apply keeps_ite | apply keeps_ite2 | intro _
      | split | exact keeps_of_eq (by assumption) (by assumption) | (refine keeps_of_eq (by assumption) ?_)
      | (refine keeps_of_eq3 (by assumption) ?_) | dsimp only)


theorem keepsR_execHoldoffExpiry {g : Nat} (h0 : Keeps s0 s) : KeepsR s0 (execHoldoffExpiry g s) := by
  unfold execHoldoffExpiry
  repeat' with_reducible (first
    | assumption | apply keeps_lower | apply keepsR_done | apply keepsR_ite | apply keeps_ite | apply keeps_ite2
      | apply keepsR_done | apply keepsR_fault | intro _ | split | dsimp only)


theorem keeps_slewRail {g : Nat} (h0 : Keeps s0 s) : Keeps s0 (State.slewRail s g) := by
  unfold State.slewRail
  try dsimp -iota -proj only
  repeat' with_reducible (first
    | assumption | apply keeps_showRail | apply keeps_ite | apply keeps_ite2 | intro _ | split
      | exact keeps_of_eq (by assumption) (by assumption) | (refine keeps_of_eq (by assumption) ?_)
      | (refine keeps_of_eq3 (by assumption) ?_) | dsimp only)


theorem keepsR_execSetpointSlew (h0 : Keeps s0 s) : KeepsR s0 (execSetpointSlew s) := by
  unfold execSetpointSlew
  repeat' with_reducible (first
    | assumption | apply keeps_slewRail | apply keepsR_done | apply keeps_foldl | apply keeps_foldl_pair | apply keepsR_done
      | apply keepsR_fault | intro _ | dsimp only)


end Sys2Proof.Machine
end

