-- ==== Sys2Proof/Laws/KeepsTongs.lean ====
section
/-! SUPPORT. What the operations of Machine/Tongs.lean keep. -/

set_option linter.unusedTactic false
set_option linter.unreachableTactic false

namespace Sys2Proof.Machine

variable {s0 s : State}

theorem keeps_setRole {r : Nat} (h0 : Keeps s0 s) : Keeps s0 (State.setRole s r) := by
  unfold State.setRole
  try dsimp -iota -proj only
  repeat' with_reducible (first
    | assumption | apply keeps_raise | apply keeps_setFld | apply keeps_ite | apply keeps_ite2 | intro _ | split | dsimp only)


theorem keeps_setClaim {on : Bool} (h0 : Keeps s0 s) : Keeps s0 (State.setClaim s on) := by
  unfold State.setClaim
  repeat' with_reducible (first
    | assumption | apply keeps_emit | apply keeps_setFld | intro _ | dsimp only)


theorem keeps_dropClaim (h0 : Keeps s0 s) : Keeps s0 (State.dropClaim s) := by
  unfold State.dropClaim
  try dsimp -iota -proj only
  repeat' with_reducible (first
    | assumption | apply keeps_modTwn | apply keeps_setClaim | intro _ | dsimp only)


theorem keeps_seePeerClaim {lines : Nat} (h0 : Keeps s0 s) : Keeps s0 (State.seePeerClaim s lines) := by
  unfold State.seePeerClaim
  try dsimp -iota -proj only
  repeat' with_reducible (first
    | assumption | apply keeps_bump | apply keeps_modTwn | apply keeps_raise | apply keeps_setFld | apply keeps_ite
      | apply keeps_ite2 | intro _ | split | dsimp only)


theorem keeps_lastChange {t : Nat} (h0 : Keeps s0 s) : Keeps s0 (State.lastChange s t) := by
  unfold State.lastChange
  repeat' with_reducible (first
    | assumption | apply keeps_setReg | apply keeps_foldl | apply keeps_foldl_pair | intro _ | dsimp only)


theorem keeps_ownershipEvent {event : Nat} (h0 : Keeps s0 s) : Keeps s0 (State.ownershipEvent s event) := by
  unfold State.ownershipEvent
  repeat' with_reducible (first
    | assumption | apply keeps_faultEntry | apply keeps_flushSoon | intro _ | dsimp only)


theorem keeps_dropHandoff (h0 : Keeps s0 s) : Keeps s0 (State.dropHandoff s) := by
  unfold State.dropHandoff
  try dsimp -iota -proj only
  repeat' with_reducible (first
    | assumption | apply keeps_finish | apply keeps_modTwn | intro _ | split | exact keeps_of_eq (by assumption) (by assumption)
      | (refine keeps_of_eq (by assumption) ?_) | (refine keeps_of_eq3 (by assumption) ?_) | dsimp only)


theorem keeps_judgeHealth (h0 : Keeps s0 s) : Keeps s0 (State.judgeHealth s) := by
  unfold State.judgeHealth
  try dsimp -iota -proj only
  repeat' with_reducible (first
    | assumption | apply keeps_dropClaim | apply keeps_dropHandoff | apply keeps_setFld | apply keeps_setReg | apply keeps_setRole
      | apply keeps_ite | apply keeps_ite2 | intro _ | split | dsimp only)


theorem keeps_judgeSync (h0 : Keeps s0 s) : Keeps s0 (State.judgeSync s) := by
  unfold State.judgeSync
  try dsimp -iota -proj only
  repeat' with_reducible (first
    | assumption | apply keeps_raise | apply keeps_setFld | apply keeps_setReg | apply keeps_ite | apply keeps_ite2 | intro _
      | split | dsimp only)


end Sys2Proof.Machine
end

