-- ==== Sys2Proof/Laws/KeepsLink.lean ====
section
/-! SUPPORT. What the operations of Machine/Link.lean keep. -/

set_option linter.unusedTactic false
set_option linter.unreachableTactic false

namespace Sys2Proof.Machine

variable {s0 s : State}

theorem keeps_linkFrame {type : Nat} {payload : List Byte} (h0 : Keeps s0 s) : Keeps s0 (State.linkFrame s type payload) := by
  unfold State.linkFrame
  try dsimp -iota -proj only
  repeat' with_reducible (first
    | assumption | apply keeps_bump | apply keeps_emit | apply keeps_modTwn | apply keeps_ite | apply keeps_ite2 | intro _ | split
      | dsimp only)


theorem keeps_ageRecord {t : TemperSet} {n : Nat} (h0 : Keeps s0 s) : Keeps s0 (State.ageRecord s t n).2 := by
  unfold State.ageRecord
  try dsimp -iota -proj only
  repeat' with_reducible (first
    | assumption | apply keeps_readMem | intro _ | split | exact keeps_of_eq (by assumption) (by assumption)
      | (refine keeps_of_eq (by assumption) ?_) | (refine keeps_of_eq3 (by assumption) ?_) | apply keeps_mk2 | dsimp only)


theorem keeps_charge {level : Nat} {n : Nat} (h0 : Keeps s0 s) : Keeps s0 (State.charge s level n) := by
  unfold State.charge
  try dsimp -iota -proj only
  repeat' with_reducible (first
    | assumption | apply keeps_modTwn | intro _ | split | exact keeps_of_eq (by assumption) (by assumption)
      | (refine keeps_of_eq (by assumption) ?_) | (refine keeps_of_eq3 (by assumption) ?_) | dsimp only)


theorem keeps_linkPiece {j : LinkJob} (h0 : Keeps s0 s) : Keeps s0 (State.linkPiece s j).2.2 := by
  unfold State.linkPiece
  try dsimp -iota -proj only
  repeat' with_reducible (first
    | assumption | apply keeps_ageRecord | apply keeps_bump | apply keeps_modTwn | apply keeps_readMem | apply keeps_ite
      | apply keeps_ite2 | apply keeps_ite3 | apply keeps_foldl | apply keeps_foldl_pair | intro _ | split
      | exact keeps_of_eq (by assumption) (by assumption) | (refine keeps_of_eq (by assumption) ?_)
      | (refine keeps_of_eq3 (by assumption) ?_) | apply keeps_mk3 | dsimp only)


theorem keeps_linkPump (h0 : Keeps s0 s) : Keeps s0 (State.linkPump s) := by
  unfold State.linkPump
  try dsimp -iota -proj only
  repeat' with_reducible (first
    | assumption | apply keeps_charge | apply keeps_linkFrame | apply keeps_linkPiece | apply keeps_modTwn | apply keeps_ite
      | apply keeps_ite2 | intro _ | split | exact keeps_of_eq (by assumption) (by assumption)
      | (refine keeps_of_eq (by assumption) ?_) | (refine keeps_of_eq3 (by assumption) ?_) | dsimp only)


theorem keeps_linkQueue {j : LinkJob} (h0 : Keeps s0 s) : Keeps s0 (State.linkQueue s j) := by
  unfold State.linkQueue
  try dsimp -iota -proj only
  repeat' with_reducible (first
    | assumption | apply keeps_linkPump | apply keeps_modTwn | intro _ | dsimp only)


theorem keeps_linkSend {type : Nat} {payload : List Byte} (h0 : Keeps s0 s) : Keeps s0 (State.linkSend s type payload) := by
  unfold State.linkSend
  try dsimp -iota -proj only
  repeat' with_reducible (first
    | assumption | apply keeps_linkQueue | apply keeps_ite | apply keeps_ite2 | intro _ | split | dsimp only)


theorem keeps_mirrorSend {cls : Nat} {off : Nat} {data : List Byte} (h0 : Keeps s0 s) : Keeps s0 (State.mirrorSend s cls off data) := by
  unfold State.mirrorSend
  try dsimp -iota -proj only
  repeat' with_reducible (first
    | assumption | apply keeps_linkQueue | apply keeps_ite | apply keeps_ite2 | intro _ | split | dsimp only)


theorem keeps_mirror {cls : Nat} {off : Nat} {data : List Byte} (h0 : Keeps s0 s) : Keeps s0 (State.mirror s cls off data) := by
  unfold State.mirror
  repeat' with_reducible (first
    | assumption | apply keeps_mirrorSend | apply keeps_ite | apply keeps_ite2 | intro _ | split | dsimp only)


theorem keeps_linkCopy {level : Nat} {cls : Nat} {w : LinkWork} (h0 : Keeps s0 s) : Keeps s0 (State.linkCopy s level cls w) := by
  unfold State.linkCopy
  try dsimp -iota -proj only
  repeat' with_reducible (first
    | assumption | apply keeps_linkQueue | apply keeps_ite | apply keeps_ite2 | intro _ | split | dsimp only)


theorem keeps_linkAccept {type : Nat} {f : List Byte} (h0 : Keeps s0 s) : Keeps s0 (State.linkAccept s type f).2 := by
  unfold State.linkAccept
  try dsimp -iota -proj only
  repeat' with_reducible (first
    | assumption | apply keeps_bump | apply keeps_modTwn | apply keeps_raise | apply keeps_ite | apply keeps_ite2 | intro _
      | split | exact keeps_of_eq (by assumption) (by assumption) | (refine keeps_of_eq (by assumption) ?_)
      | (refine keeps_of_eq3 (by assumption) ?_) | apply keeps_mk2 | dsimp only)


theorem keeps_startHandoff {slot : Option Nat} {byPower : Bool} {byTwin : Bool} (h0 : Keeps s0 s) : Keeps s0 (State.startHandoff s slot byPower byTwin) := by
  unfold State.startHandoff
  try dsimp -iota -proj only
  repeat' with_reducible (first
    | assumption | apply keeps_linkSend | apply keeps_modTwn | intro _ | split | exact keeps_of_eq (by assumption) (by assumption)
      | (refine keeps_of_eq (by assumption) ?_) | (refine keeps_of_eq3 (by assumption) ?_) | dsimp only)


end Sys2Proof.Machine
end

