-- ==== Sys2Proof/Laws/KeepsGreyFigures.lean ====
section
/-! SUPPORT. What the operations of Machine/GreyFigures.lean keep. -/

set_option linter.unusedTactic false
set_option linter.unreachableTactic false

namespace Sys2Proof.Machine

variable {s0 s : State}

theorem keeps_greyFigures (h0 : Keeps s0 s) : Keeps s0 (State.greyFigures s) := by
  unfold State.greyFigures
  try dsimp -iota -proj only
  repeat' with_reducible (first
    | assumption | apply keeps_setReg | apply keeps_ite | apply keeps_ite2 | intro _ | split
      | exact keeps_of_eq (by assumption) (by assumption) | (refine keeps_of_eq (by assumption) ?_)
      | (refine keeps_of_eq3 (by assumption) ?_) | dsimp only)


end Sys2Proof.Machine
end

