-- ==== Sys2Proof/Laws/KeepsLanes.lean ====
section
/-! SUPPORT. What the operations of Machine/Lanes.lean keep. -/

set_option linter.unusedTactic false
set_option linter.unreachableTactic false

namespace Sys2Proof.Machine

variable {s0 s : State}

theorem keeps_modPort {p : Nat} {f : ScnPort → ScnPort} (h0 : Keeps s0 s) : Keeps s0 (State.modPort s p f) := by
  unfold State.modPort
  try dsimp -iota -proj only
  repeat' with_reducible (first
    | assumption | apply keeps_modScn | intro _ | dsimp only)


theorem keeps_setTrim {p : Nat} {t : Nat × Nat} (h0 : Keeps s0 s) : Keeps s0 (State.setTrim s p t) := by
  unfold State.setTrim
  repeat' with_reducible (first
    | assumption | apply keeps_setFld | intro _ | dsimp only)


theorem keeps_addIdle {p : Nat} {n : Int} (h0 : Keeps s0 s) : Keeps s0 (State.addIdle s p n) := by
  unfold State.addIdle
  try dsimp -iota -proj only
  repeat' with_reducible (first
    | assumption | apply keeps_modPort | intro _ | dsimp only)


theorem keeps_fineStep {p : Nat} (h0 : Keeps s0 s) : Keeps s0 (State.fineStep s p) := by
  unfold State.fineStep
  try dsimp -iota -proj only
  repeat' with_reducible (first
    | assumption | apply keeps_addIdle | apply keeps_bump | apply keeps_pmc | apply keeps_setTrim | apply keeps_ite
      | apply keeps_ite2 | intro _ | split | exact keeps_of_eq (by assumption) (by assumption)
      | (refine keeps_of_eq (by assumption) ?_) | (refine keeps_of_eq3 (by assumption) ?_) | dsimp only)


theorem keeps_shiftStep {p : Nat} (h0 : Keeps s0 s) : Keeps s0 (State.shiftStep s p) := by
  unfold State.shiftStep
  try dsimp -iota -proj only
  repeat' with_reducible (first
    | assumption | apply keeps_modPort | apply keeps_ite | apply keeps_ite2 | intro _ | split | dsimp only)


theorem keeps_sckSend {p : Nat} {c : List Byte} {begin : Nat} {cs : List LaneChar} (h0 : Keeps s0 s) : Keeps s0 (State.sckSend s p c begin cs) := by
  unfold State.sckSend
  try dsimp -iota -proj only
  repeat' with_reducible (first
    | assumption | apply keeps_emit | apply keeps_modPort | apply keeps_ite | apply keeps_ite2 | intro _ | split
      | exact keeps_of_eq (by assumption) (by assumption) | (refine keeps_of_eq (by assumption) ?_)
      | (refine keeps_of_eq3 (by assumption) ?_) | dsimp only)


theorem keeps_sdtSend {p : Nat} {c : List Byte} {begin : Nat} {cs : List LaneChar} (h0 : Keeps s0 s) : Keeps s0 (State.sdtSend s p c begin cs) := by
  unfold State.sdtSend
  try dsimp -iota -proj only
  repeat' with_reducible (first
    | assumption | apply keeps_emit | apply keeps_modPort | apply keeps_ite | apply keeps_ite2 | intro _ | split
      | exact keeps_of_eq (by assumption) (by assumption) | (refine keeps_of_eq (by assumption) ?_)
      | (refine keeps_of_eq3 (by assumption) ?_) | dsimp only)


theorem keeps_sendBlanks {p n : Nat} {c : List Byte} (h : Keeps s0 s) : Keeps s0 (State.sendBlanks s p c n) := by
  induction n generalizing s with
  | zero => exact h
  | succ n ih =>
    unfold State.sendBlanks
    try dsimp -iota -proj only
    repeat' with_reducible (first
      | assumption | apply ih | apply keeps_modPort | apply keeps_sckSend | apply keeps_ite | intro _ | split | dsimp only)


theorem keeps_sendReq {p : Nat} {c : List Byte} {begin : Nat} {q : ScnReq} (h0 : Keeps s0 s) : Keeps s0 (State.sendReq s p c begin q) := by
  unfold State.sendReq
  try dsimp -iota -proj only
  repeat' with_reducible (first
    | assumption | apply keeps_bump | apply keeps_modPort | apply keeps_replied | apply keeps_sckSend | apply keeps_ite
      | apply keeps_ite2 | intro _ | split | dsimp only)


theorem keeps_offerStep {p : Nat} {c : List Byte} (h0 : Keeps s0 s) : Keeps s0 (State.offerStep s p c) := by
  unfold State.offerStep
  try dsimp -iota -proj only
  repeat' with_reducible (first
    | assumption | apply keeps_sendReq | apply keeps_ite | apply keeps_ite2 | intro _ | split
      | exact keeps_of_eq (by assumption) (by assumption) | (refine keeps_of_eq (by assumption) ?_)
      | (refine keeps_of_eq3 (by assumption) ?_) | dsimp only)


theorem keeps_pump {p : Nat} (h0 : Keeps s0 s) : Keeps s0 (State.pump s p) := by
  unfold State.pump
  repeat' with_reducible (first
    | assumption | apply keeps_offerStep | apply keeps_sendBlanks | intro _ | split
      | exact keeps_of_eq (by assumption) (by assumption) | (refine keeps_of_eq (by assumption) ?_)
      | (refine keeps_of_eq3 (by assumption) ?_) | dsimp only)


theorem keeps_offer {p : Nat} {qs : List ScnReq} (h0 : Keeps s0 s) : Keeps s0 (State.offer s p qs) := by
  unfold State.offer
  try dsimp -iota -proj only
  repeat' with_reducible (first
    | assumption | apply keeps_modPort | apply keeps_pump | intro _ | dsimp only)


end Sys2Proof.Machine
end

