-- ==== Sys2Proof/Laws/KeepsScanPort.lean ====
section
/-! SUPPORT. What the operations of Machine/ScanPort.lean keep. -/

set_option linter.unusedTactic false
set_option linter.unreachableTactic false

namespace Sys2Proof.Machine

variable {s0 s : State}

theorem keeps_scanReport {kind : Nat} {p : Nat} {d : Nat} {ch : Nat} {line : Nat} {m : Nat} {arg : Nat} (h0 : Keeps s0 s) : Keeps s0 (State.scanReport s kind p d ch line m arg) := by
  unfold State.scanReport
  try dsimp -iota -proj only
  repeat' with_reducible (first
    | assumption | apply keeps_bump | apply keeps_faultEntry | apply keeps_raise | apply keeps_report | apply keeps_ite
      | apply keeps_ite2 | intro _ | split | exact keeps_of_eq (by assumption) (by assumption)
      | (refine keeps_of_eq (by assumption) ?_) | (refine keeps_of_eq3 (by assumption) ?_) | dsimp only)


theorem keeps_mirrorPort {p : Nat} (h0 : Keeps s0 s) : Keeps s0 (State.mirrorPort s p) := by
  unfold State.mirrorPort
  try dsimp -iota -proj only
  repeat' with_reducible (first
    | assumption | apply keeps_judgeSync | apply keeps_mirror | apply keeps_ite | apply keeps_ite2 | apply keeps_foldl
      | apply keeps_foldl_pair | intro _ | split | dsimp only)


theorem keeps_blank {p : Nat} (h0 : Keeps s0 s) : Keeps s0 (State.blank s p) := by
  unfold State.blank
  try dsimp -iota -proj only
  repeat' with_reducible (first
    | assumption | apply keeps_modPort | apply keeps_pump | intro _ | dsimp only)


theorem keeps_blankLast {p : Nat} (h0 : Keeps s0 s) : Keeps s0 (State.blankLast s p) := by
  unfold State.blankLast
  try dsimp -iota -proj only
  repeat' with_reducible (first
    | assumption | apply keeps_blank | apply keeps_modPort | apply keeps_sckSend | intro _ | split
      | exact keeps_of_eq (by assumption) (by assumption) | (refine keeps_of_eq (by assumption) ?_)
      | (refine keeps_of_eq3 (by assumption) ?_) | dsimp only)


theorem keeps_sourceRisen {p : Nat} (h0 : Keeps s0 s) : Keeps s0 (State.sourceRisen s p) := by
  unfold State.sourceRisen
  try dsimp -iota -proj only
  repeat' with_reducible (first
    | assumption | apply keeps_blank | apply keeps_bump | apply keeps_life | apply keeps_mirrorPort | apply keeps_modPort
      | apply keeps_raise | apply keeps_scanReport | apply keeps_setFld | apply keeps_ite | apply keeps_ite2 | intro _ | split
      | dsimp only)


theorem keeps_assertSrc {p : Nat} {b : Nat} (h0 : Keeps s0 s) : Keeps s0 (State.assertSrc s p b) := by
  unfold State.assertSrc
  try dsimp -iota -proj only
  repeat' with_reducible (first
    | assumption | apply keeps_setFld | apply keeps_sourceRisen | apply keeps_ite | apply keeps_ite2 | intro _ | split
      | dsimp only)


theorem keeps_clearSrc {p : Nat} {b : Nat} (h0 : Keeps s0 s) : Keeps s0 (State.clearSrc s p b) := by
  unfold State.clearSrc
  try dsimp -iota -proj only
  repeat' with_reducible (first
    | assumption | apply keeps_setFld | apply keeps_ite | apply keeps_ite2 | intro _ | split | dsimp only)


theorem keeps_moduleQuench {b : Nat} (h0 : Keeps s0 s) : Keeps s0 (State.moduleQuench s b) := by
  unfold State.moduleQuench
  try dsimp -iota -proj only
  repeat' with_reducible (first
    | assumption | apply keeps_judgeHealth | apply keeps_modScn | apply keeps_sourceRisen | apply keeps_ite | apply keeps_ite2
      | apply keeps_foldl | apply keeps_foldl_pair | intro _ | split | dsimp only)


theorem keeps_moduleRelease {b : Nat} (h0 : Keeps s0 s) : Keeps s0 (State.moduleRelease s b) := by
  unfold State.moduleRelease
  try dsimp -iota -proj only
  repeat' with_reducible (first
    | assumption | apply keeps_judgeHealth | apply keeps_modScn | apply keeps_ite | apply keeps_ite2 | intro _ | split
      | dsimp only)


theorem keeps_endReload {n : Nat} {c : Cpl} (h0 : Keeps s0 s) : Keeps s0 (State.endReload s n c) := by
  unfold State.endReload
  try dsimp -iota -proj only
  repeat' with_reducible (first
    | assumption | apply keeps_finish | apply keeps_modScn | intro _ | dsimp only)


theorem keeps_abandonPort {p : Nat} {w2 : Nat} (h0 : Keeps s0 s) : Keeps s0 (State.abandonPort s p w2) := by
  unfold State.abandonPort
  try dsimp -iota -proj only
  repeat' with_reducible (first
    | assumption | apply keeps_endReload | apply keeps_finish | apply keeps_modPort | apply keeps_foldl | apply keeps_foldl_pair
      | intro _ | dsimp only)


theorem keeps_portFault {p : Nat} {code : Nat} (h0 : Keeps s0 s) : Keeps s0 (State.portFault s p code) := by
  unfold State.portFault
  try dsimp -iota -proj only
  repeat' with_reducible (first
    | assumption | apply keeps_abandonPort | apply keeps_blankLast | apply keeps_lower | apply keeps_mirrorPort
      | apply keeps_raise | apply keeps_scanReport | apply keeps_setFld | intro _ | dsimp only)


theorem keeps_leaveFault {p : Nat} (h0 : Keeps s0 s) : Keeps s0 (State.leaveFault s p) := by
  unfold State.leaveFault
  repeat' with_reducible (first
    | assumption | apply keeps_clearSrc | apply keeps_setFld | intro _ | dsimp only)


theorem keeps_portRun {p : Nat} (h0 : Keeps s0 s) : Keeps s0 (State.portRun s p) := by
  unfold State.portRun
  try dsimp -iota -proj only
  repeat' with_reducible (first
    | assumption | apply keeps_lower | apply keeps_mirrorPort | apply keeps_modPort | apply keeps_scanReport | apply keeps_setFld
      | apply keeps_sourceRisen | apply keeps_ite | apply keeps_ite2 | intro _ | split | dsimp only)


theorem keeps_gridChanged (h0 : Keeps s0 s) : Keeps s0 (State.gridChanged s) := by
  unfold State.gridChanged
  try dsimp -iota -proj only
  repeat' with_reducible (first
    | assumption | apply keeps_modPort | apply keeps_ite | apply keeps_ite2 | apply keeps_foldl | apply keeps_foldl_pair | intro _
      | split | exact keeps_of_eq (by assumption) (by assumption) | (refine keeps_of_eq (by assumption) ?_)
      | (refine keeps_of_eq3 (by assumption) ?_) | dsimp only)


theorem keeps_portStepped {d : Int} {p : Nat} (h0 : Keeps s0 s) : Keeps s0 (State.portStepped d s p) := by
  unfold State.portStepped
  try dsimp -iota -proj only
  repeat' with_reducible (first
    | assumption | apply keeps_modPort | intro _ | split | exact keeps_of_eq (by assumption) (by assumption)
      | (refine keeps_of_eq (by assumption) ?_) | (refine keeps_of_eq3 (by assumption) ?_) | dsimp only)


theorem keeps_markDead {m : Nat} (h0 : Keeps s0 s) : Keeps s0 (State.markDead s m) := by
  unfold State.markDead
  try dsimp -iota -proj only
  repeat' with_reducible (first
    | assumption | apply keeps_bump | apply keeps_raise | apply keeps_readMem | apply keeps_writeMem | apply keeps_ite
      | apply keeps_ite2 | intro _ | split | exact keeps_of_eq (by assumption) (by assumption)
      | (refine keeps_of_eq (by assumption) ?_) | (refine keeps_of_eq3 (by assumption) ?_) | dsimp only)


end Sys2Proof.Machine
end

