-- ==== Sys2Proof/Laws/KeepsSets.lean ====
section
/-! SUPPORT. What the operations of Machine/Sets.lean keep. -/

set_option linter.unusedTactic false
set_option linter.unreachableTactic false

namespace Sys2Proof.Machine

variable {s0 s : State}

theorem keeps_sendSet {p : Nat} {k : Nat} {slot : Nat} {g : Grid} {start : LaneChar} {b3 : Nat} {b4 : Nat} (h0 : Keeps s0 s) : Keeps s0 (State.sendSet s p k slot g start b3 b4) := by
  unfold State.sendSet
  try dsimp -iota -proj only
  repeat' with_reducible (first
    | assumption | apply keeps_bump | apply keeps_fineStep | apply keeps_pump | apply keeps_reach | apply keeps_sckSend
      | apply keeps_shiftStep | apply keeps_ite | apply keeps_ite2 | intro _ | split
      | exact keeps_of_eq (by assumption) (by assumption) | (refine keeps_of_eq (by assumption) ?_)
      | (refine keeps_of_eq3 (by assumption) ?_) | dsimp only)


theorem keepsR_execLineSet {p : Nat} {k : Nat} {j : Nat} {i : Nat} {l : Nat} (h0 : Keeps s0 s) : KeepsR s0 (execLineSet p k j i l s) := by
  unfold execLineSet
  repeat' with_reducible (first
    | assumption | apply keeps_sendSet | apply keepsR_done | apply keepsR_ite | apply keeps_ite | apply keeps_ite2
      | apply keepsR_done | apply keepsR_fault | intro _ | split | exact keeps_of_eq (by assumption) (by assumption)
      | (refine keeps_of_eq (by assumption) ?_) | (refine keeps_of_eq3 (by assumption) ?_) | dsimp only)


theorem keeps_portCommand {p : Nat} {k : Nat} {g : Grid} (h0 : Keeps s0 s) : Keeps s0 (State.portCommand s p k g).2 := by
  unfold State.portCommand
  try dsimp -iota -proj only
  repeat' with_reducible (first
    | assumption | apply keeps_bump | apply keeps_lower | apply keeps_mirrorPort | apply keeps_modPort | apply keeps_raise
      | apply keeps_scanReport | apply keeps_setFld | apply keeps_ite | apply keeps_ite2 | intro _ | split | apply keeps_mk2
      | dsimp only)


theorem keeps_changeGrid {p : Nat} {k : Nat} (h0 : Keeps s0 s) : Keeps s0 (State.changeGrid s p k) := by
  unfold State.changeGrid
  try dsimp -iota -proj only
  repeat' with_reducible (first
    | assumption | apply keeps_modPort | apply keeps_portFault | apply keeps_ite | apply keeps_ite2 | intro _ | split
      | exact keeps_of_eq (by assumption) (by assumption) | (refine keeps_of_eq (by assumption) ?_)
      | (refine keeps_of_eq3 (by assumption) ?_) | dsimp only)


theorem keeps_sendSubf {p : Nat} {k : Nat} {j : Nat} {g : Grid} (h0 : Keeps s0 s) : Keeps s0 (State.sendSubf s p k j g) := by
  unfold State.sendSubf
  try dsimp -iota -proj only
  repeat' with_reducible (first
    | assumption | apply keeps_blank | apply keeps_bump | apply keeps_modPort | apply keeps_portCommand | apply keeps_sendSet
      | apply keeps_ite | apply keeps_ite2 | intro _ | split | exact keeps_of_eq (by assumption) (by assumption)
      | (refine keeps_of_eq (by assumption) ?_) | (refine keeps_of_eq3 (by assumption) ?_) | dsimp only)


theorem keepsR_execSubfSet {p : Nat} {k : Nat} {j : Nat} (h0 : Keeps s0 s) : KeepsR s0 (execSubfSet p k j s) := by
  unfold execSubfSet
  try dsimp -iota -proj only
  repeat' with_reducible (first
    | assumption | apply keeps_changeGrid | apply keeps_sendSubf | apply keepsR_done | apply keepsR_ite | apply keeps_ite
      | apply keeps_ite2 | apply keepsR_done | apply keepsR_fault | intro _ | split
      | exact keeps_of_eq (by assumption) (by assumption) | (refine keeps_of_eq (by assumption) ?_)
      | (refine keeps_of_eq3 (by assumption) ?_) | dsimp only)


theorem keeps_armGrid {k : Nat} {p : Nat} (h0 : Keeps s0 s) : Keeps s0 (State.armGrid k s p) := by
  unfold State.armGrid
  try dsimp -iota -proj only
  repeat' with_reducible (first
    | assumption | apply keeps_modPort | apply keeps_offer | apply keeps_reach | apply keeps_ite | apply keeps_ite2 | intro _
      | split | exact keeps_of_eq (by assumption) (by assumption) | (refine keeps_of_eq (by assumption) ?_)
      | (refine keeps_of_eq3 (by assumption) ?_) | dsimp only)


theorem keepsR_execGridChangeApply {k : Nat} (h0 : Keeps s0 s) : KeepsR s0 (execGridChangeApply k s) := by
  unfold execGridChangeApply
  repeat' with_reducible (first
    | assumption | apply keeps_armGrid | apply keepsR_done | apply keeps_foldl | apply keeps_foldl_pair | apply keepsR_done
      | apply keepsR_fault | intro _ | dsimp only)


theorem keepsR_execLoadCellSend {p : Nat} (h0 : Keeps s0 s) : KeepsR s0 (execLoadCellSend p s) := by
  unfold execLoadCellSend
  try dsimp -iota -proj only
  repeat' with_reducible (first
    | assumption | apply keeps_bump | apply keeps_modPort | apply keeps_reach | apply keeps_sdtSend | apply keepsR_done
      | apply keepsR_ite | apply keeps_ite | apply keeps_ite2 | apply keeps_foldl | apply keeps_foldl_pair | apply keepsR_done
      | apply keepsR_fault | intro _ | split | exact keeps_of_eq (by assumption) (by assumption)
      | (refine keeps_of_eq (by assumption) ?_) | (refine keeps_of_eq3 (by assumption) ?_) | dsimp only)


theorem keepsR_execStandbyCellObserved {p : Nat} (h0 : Keeps s0 s) : KeepsR s0 (execStandbyCellObserved p s) := by
  unfold execStandbyCellObserved
  try dsimp -iota -proj only
  repeat' with_reducible (first
    | assumption | apply keeps_modPort | apply keepsR_done | apply keepsR_ite | apply keeps_ite | apply keeps_ite2
      | apply keepsR_done | apply keepsR_fault | intro _ | split | exact keeps_of_eq (by assumption) (by assumption)
      | (refine keeps_of_eq (by assumption) ?_) | (refine keeps_of_eq3 (by assumption) ?_) | dsimp only)


end Sys2Proof.Machine
end

