-- ==== Sys2Proof/Laws/KeepsScan.lean ====
section
/-! SUPPORT. What the operations of Machine/Scan.lean keep. -/

set_option linter.unusedTactic false
set_option linter.unreachableTactic false

namespace Sys2Proof.Machine

variable {s0 s : State}

theorem keeps_scanCommand {op : Nat} {all : Bool} {k : Nat → Nat → List Byte → State → Option Cpl × State} (hk : ∀ x0 x1 x2 u, Keeps s0 u → Keeps s0 (k x0 x1 x2 u).2) (h0 : Keeps s0 s) : Keeps s0 (State.scanCommand s op all k) := by
  unfold State.scanCommand
  try dsimp -iota -proj only
  repeat' with_reducible (first
    | assumption | apply keeps_takeCommand | apply hk | apply keeps_ite | apply keeps_ite2 | intro _ | split | dsimp only)


theorem keepsR_execChainSet (h0 : Keeps s0 s) : KeepsR s0 (execChainSet s) := by
  unfold execChainSet
  try dsimp -iota -proj only
  repeat' with_reducible (first
    | assumption | apply keeps_greyFigures | apply keeps_judgeSync | apply keeps_modPort | apply keeps_raise
      | apply keeps_scanCommand | apply keeps_withBlock | apply keepsR_done | apply keepsR_ite | apply keeps_ite
      | apply keeps_ite2 | apply keepsR_done | apply keepsR_fault | intro _ | split
      | exact keeps_of_eq (by assumption) (by assumption) | (refine keeps_of_eq (by assumption) ?_)
      | (refine keeps_of_eq3 (by assumption) ?_) | dsimp only)


theorem keeps_startFromTwin {p : Nat} {t : TwinPort} (h0 : Keeps s0 s) : Keeps s0 (State.startFromTwin s p t) := by
  unfold State.startFromTwin
  try dsimp -iota -proj only
  repeat' with_reducible (first
    | assumption | apply keeps_modPort | apply keeps_setFld | apply keeps_setReg | intro _ | dsimp only)


theorem keeps_startTraining {p : Nat} (h0 : Keeps s0 s) : Keeps s0 (State.startTraining s p) := by
  unfold State.startTraining
  try dsimp -iota -proj only
  repeat' with_reducible (first
    | assumption | apply keeps_emit | apply keeps_mirrorPort | apply keeps_setFld | apply keeps_ite | apply keeps_ite2 | intro _
      | split | dsimp only)


theorem keepsR_execPortStart (h0 : Keeps s0 s) : KeepsR s0 (execPortStart s) := by
  unfold execPortStart
  try dsimp -iota -proj only
  repeat' with_reducible (first
    | assumption | apply keeps_leaveFault | apply keeps_modPort | apply keeps_scanCommand | apply keeps_startFromTwin
      | apply keeps_startTraining | apply keepsR_done | apply keepsR_ite | apply keeps_ite | apply keeps_ite2 | apply keepsR_done
      | apply keepsR_fault | intro _ | split | exact keeps_of_eq (by assumption) (by assumption)
      | (refine keeps_of_eq (by assumption) ?_) | (refine keeps_of_eq3 (by assumption) ?_) | dsimp only)


theorem keeps_lanesOut {p : Nat} (h0 : Keeps s0 s) : Keeps s0 (State.lanesOut s p) := by
  unfold State.lanesOut
  repeat' with_reducible (first
    | assumption | apply keeps_reach | intro _ | split | exact keeps_of_eq (by assumption) (by assumption)
      | (refine keeps_of_eq (by assumption) ?_) | (refine keeps_of_eq3 (by assumption) ?_) | dsimp only)


theorem keepsR_execPortStop (h0 : Keeps s0 s) : KeepsR s0 (execPortStop s) := by
  unfold execPortStop
  try dsimp -iota -proj only
  repeat' with_reducible (first
    | assumption | apply keeps_abandonPort | apply keeps_blankLast | apply keeps_lanesOut | apply keeps_leaveFault
      | apply keeps_lower | apply keeps_mirrorPort | apply keeps_scanCommand | apply keeps_setFld | apply keepsR_done
      | apply keepsR_ite | apply keeps_ite | apply keeps_ite2 | apply keepsR_done | apply keepsR_fault | intro _ | split
      | dsimp only)


theorem keepsR_execQuenchSet (h0 : Keeps s0 s) : KeepsR s0 (execQuenchSet s) := by
  unfold execQuenchSet
  repeat' with_reducible (first
    | assumption | apply keeps_assertSrc | apply keeps_mirrorPort | apply keeps_moduleQuench | apply keeps_scanCommand
      | apply keepsR_done | apply keepsR_ite | apply keeps_ite | apply keeps_ite2 | apply keepsR_done | apply keepsR_fault
      | intro _ | split | dsimp only)


theorem keeps_hostResume {p : Nat} (h0 : Keeps s0 s) : Keeps s0 (State.hostResume s p) := by
  unfold State.hostResume
  try dsimp -iota -proj only
  repeat' with_reducible (first
    | assumption | apply keeps_clearSrc | apply keeps_mirrorPort | apply keeps_modPort | intro _ | dsimp only)


theorem keepsR_execQuenchResume (h0 : Keeps s0 s) : KeepsR s0 (execQuenchResume s) := by
  unfold execQuenchResume
  try dsimp -iota -proj only
  repeat' with_reducible (first
    | assumption | apply keeps_hostResume | apply keeps_moduleRelease | apply keeps_scanCommand | apply keepsR_done
      | apply keepsR_ite | apply keeps_ite | apply keeps_ite2 | apply keeps_foldl | apply keeps_foldl_pair | apply keepsR_done
      | apply keepsR_fault | intro _ | split | dsimp only)


theorem keepsR_execDkAccess (h0 : Keeps s0 s) : KeepsR s0 (execDkAccess s) := by
  unfold execDkAccess
  try dsimp -iota -proj only
  repeat' with_reducible (first
    | assumption | apply keeps_offer | apply keeps_scanCommand | apply keepsR_done | apply keepsR_ite | apply keeps_ite
      | apply keeps_ite2 | apply keepsR_done | apply keepsR_fault | intro _ | split | dsimp only)


theorem keepsR_execDkReload (h0 : Keeps s0 s) : KeepsR s0 (execDkReload s) := by
  unfold execDkReload
  try dsimp -iota -proj only
  repeat' with_reducible (first
    | assumption | apply keeps_modPort | apply keeps_scanCommand | apply keepsR_done | apply keepsR_ite | apply keeps_ite
      | apply keeps_ite2 | apply keeps_foldl | apply keeps_foldl_pair | apply keepsR_done | apply keepsR_fault | intro _ | split
      | dsimp only)


theorem keeps_startSweep {p : Nat} (h0 : Keeps s0 s) : Keeps s0 (State.startSweep s p) := by
  unfold State.startSweep
  try dsimp -iota -proj only
  repeat' with_reducible (first
    | assumption | apply keeps_modPort | apply keeps_offer | intro _ | dsimp only)


theorem keeps_startCable {p : Nat} (h0 : Keeps s0 s) : Keeps s0 (State.startCable s p) := by
  unfold State.startCable
  repeat' with_reducible (first
    | assumption | apply keeps_offer | apply keeps_ite | apply keeps_ite2 | intro _ | split | dsimp only)


theorem keepsR_execRemeasure (h0 : Keeps s0 s) : KeepsR s0 (execRemeasure s) := by
  unfold execRemeasure
  try dsimp -iota -proj only
  repeat' with_reducible (first
    | assumption | apply keeps_modPort | apply keeps_scanCommand | apply keeps_startCable | apply keeps_startSweep
      | apply keepsR_done | apply keepsR_ite | apply keeps_ite | apply keeps_ite2 | apply keepsR_done | apply keepsR_fault
      | intro _ | split | dsimp only)


theorem keeps_startEnum {p : Nat} (h0 : Keeps s0 s) : Keeps s0 (State.startEnum s p) := by
  unfold State.startEnum
  try dsimp -iota -proj only
  repeat' with_reducible (first
    | assumption | apply keeps_drawn | apply keeps_modPort | apply keeps_offer | apply keeps_setFld | intro _ | split
      | exact keeps_of_eq (by assumption) (by assumption) | (refine keeps_of_eq (by assumption) ?_)
      | (refine keeps_of_eq3 (by assumption) ?_) | dsimp only)


theorem keeps_startIdentity {p : Nat} {n : Nat} (h0 : Keeps s0 s) : Keeps s0 (State.startIdentity s p n) := by
  unfold State.startIdentity
  try dsimp -iota -proj only
  repeat' with_reducible (first
    | assumption | apply keeps_modPort | apply keeps_offer | intro _ | dsimp only)


theorem keeps_startMeasured {p : Nat} (h0 : Keeps s0 s) : Keeps s0 (State.startMeasured s p) := by
  unfold State.startMeasured
  try dsimp -iota -proj only
  repeat' with_reducible (first
    | assumption | apply keeps_modPort | apply keeps_setFld | apply keeps_setReg | apply keeps_setTrim | apply keeps_ite
      | apply keeps_ite2 | intro _ | split | dsimp only)


theorem keeps_startDone {p : Nat} (h0 : Keeps s0 s) : Keeps s0 (State.startDone s p) := by
  unfold State.startDone
  try dsimp -iota -proj only
  repeat' with_reducible (first
    | assumption | apply keeps_finish | apply keeps_modPort | apply keeps_portRun | intro _ | split
      | exact keeps_of_eq (by assumption) (by assumption) | (refine keeps_of_eq (by assumption) ?_)
      | (refine keeps_of_eq3 (by assumption) ?_) | dsimp only)


theorem keeps_startGeometry {p : Nat} {g : Grid} (h0 : Keeps s0 s) : Keeps s0 (State.startGeometry s p g) := by
  unfold State.startGeometry
  try dsimp -iota -proj only
  repeat' with_reducible (first
    | assumption | apply keeps_modPort | apply keeps_offer | apply keeps_ite | apply keeps_ite2 | intro _ | split
      | exact keeps_of_eq (by assumption) (by assumption) | (refine keeps_of_eq (by assumption) ?_)
      | (refine keeps_of_eq3 (by assumption) ?_) | dsimp only)


theorem keeps_startImages {p : Nat} (h0 : Keeps s0 s) : Keeps s0 (State.startImages s p) := by
  unfold State.startImages
  try dsimp -iota -proj only
  repeat' with_reducible (first
    | assumption | apply keeps_modPort | apply keeps_offer | apply keeps_ite | apply keeps_ite2 | intro _ | split | dsimp only)


theorem keepsR_execPortStartStepDone {p : Nat} (h0 : Keeps s0 s) : KeepsR s0 (execPortStartStepDone p s) := by
  unfold execPortStartStepDone
  try dsimp -iota -proj only
  repeat' with_reducible (first
    | assumption | apply keeps_mirrorPort | apply keeps_modPort | apply keeps_portFault | apply keeps_setFld
      | apply keeps_startDone | apply keeps_startEnum | apply keeps_startGeometry | apply keeps_startIdentity
      | apply keeps_startImages | apply keeps_startMeasured | apply keeps_startSweep | apply keepsR_done | apply keepsR_ite
      | apply keeps_ite | apply keeps_ite2 | apply keepsR_done | apply keepsR_fault | intro _ | split
      | exact keeps_of_eq (by assumption) (by assumption) | (refine keeps_of_eq (by assumption) ?_)
      | (refine keeps_of_eq3 (by assumption) ?_) | dsimp only)


theorem keepsR_execTrainTimeout {p : Nat} (h0 : Keeps s0 s) : KeepsR s0 (execTrainTimeout p s) := by
  unfold execTrainTimeout
  repeat' with_reducible (first
    | assumption | apply keeps_portFault | apply keepsR_done | apply keepsR_ite | apply keeps_ite | apply keeps_ite2
      | apply keepsR_done | apply keepsR_fault | intro _ | split | dsimp only)


theorem keeps_writeImages {p base n d : Nat} (h : Keeps s0 s) : Keeps s0 (State.writeImages p base n d s).2 := by
  induction n generalizing d s with
  | zero => exact h
  | succ n ih =>
    unfold State.writeImages
    split
    · exact ih (keeps_offer (keeps_of_eq (by assumption) (keeps_readMem h)))
    · exact keeps_readMem h


theorem keeps_imagesDone {p : Nat} (h0 : Keeps s0 s) : Keeps s0 (State.imagesDone s p) := by
  unfold State.imagesDone
  try dsimp -iota -proj only
  repeat' with_reducible (first
    | assumption | apply keeps_finish | apply keeps_modPort | apply keeps_ite | apply keeps_ite2 | apply keeps_foldl
      | apply keeps_foldl_pair | intro _ | split | dsimp only)


theorem keeps_imagesFailed {p : Nat} {c : Cpl} (h0 : Keeps s0 s) : Keeps s0 (State.imagesFailed s p c) := by
  unfold State.imagesFailed
  try dsimp -iota -proj only
  repeat' with_reducible (first
    | assumption | apply keeps_endReload | apply keeps_modPort | apply keeps_portFault | apply keeps_ite | apply keeps_ite2
      | apply keeps_foldl | apply keeps_foldl_pair | intro _ | split | dsimp only)


theorem keepsR_execImageChunkRead {n : Nat} (h0 : Keeps s0 s) : KeepsR s0 (execImageChunkRead n s) := by
  unfold execImageChunkRead
  try dsimp -iota -proj only
  repeat' with_reducible (first
    | assumption | apply keeps_imagesFailed | apply keeps_modPort | apply keeps_modScn | apply keeps_writeImages
      | apply keepsR_done | apply keepsR_ite | apply keeps_ite | apply keeps_ite2 | apply keepsR_done | apply keepsR_fault
      | intro _ | split | exact keeps_of_eq (by assumption) (by assumption) | (refine keeps_of_eq (by assumption) ?_)
      | (refine keeps_of_eq3 (by assumption) ?_) | dsimp only)


theorem keeps_remeasured {p : Nat} (h0 : Keeps s0 s) : Keeps s0 (State.remeasured s p) := by
  unfold State.remeasured
  try dsimp -iota -proj only
  repeat' with_reducible (first
    | assumption | apply keeps_finish | apply keeps_modPort | apply keeps_ite | apply keeps_ite2 | apply keeps_foldl
      | apply keeps_foldl_pair | intro _ | split | dsimp only)


theorem keeps_newRt0 {p : Nat} {rt : Nat} (h0 : Keeps s0 s) : Keeps s0 (State.newRt0 s p rt) := by
  unfold State.newRt0
  try dsimp -iota -proj only
  repeat' with_reducible (first
    | assumption | apply keeps_bump | apply keeps_mirrorPort | apply keeps_modPort | apply keeps_pmc | apply keeps_raise
      | apply keeps_remeasured | apply keeps_scanReport | apply keeps_setReg | apply keeps_startCable | apply keeps_ite
      | apply keeps_ite2 | intro _ | split | exact keeps_of_eq (by assumption) (by assumption)
      | (refine keeps_of_eq (by assumption) ?_) | (refine keeps_of_eq3 (by assumption) ?_) | dsimp only)


theorem keeps_newOffsets {p : Nat} (h0 : Keeps s0 s) : Keeps s0 (State.newOffsets s p) := by
  unfold State.newOffsets
  try dsimp -iota -proj only
  repeat' with_reducible (first
    | assumption | apply keeps_mirrorPort | apply keeps_modPort | apply keeps_offer | apply keeps_remeasured | apply keeps_setFld
      | intro _ | dsimp only)


theorem keeps_sweepReply {p : Nat} {d : Nat} {rt : Nat} (h0 : Keeps s0 s) : Keeps s0 (State.sweepReply s p d rt) := by
  unfold State.sweepReply
  try dsimp -iota -proj only
  repeat' with_reducible (first
    | assumption | apply keeps_modPort | apply keeps_newOffsets | apply keeps_ite | apply keeps_ite2 | intro _ | split
      | dsimp only)


theorem keeps_endMeasures {p : Nat} (h0 : Keeps s0 s) : Keeps s0 (State.endMeasures s p) := by
  unfold State.endMeasures
  try dsimp -iota -proj only
  repeat' with_reducible (first
    | assumption | apply keeps_finish | apply keeps_modPort | apply keeps_foldl | apply keeps_foldl_pair | intro _ | dsimp only)


theorem keepsR_execCableRemeasure {p : Nat} (h0 : Keeps s0 s) : KeepsR s0 (execCableRemeasure p s) := by
  unfold execCableRemeasure
  repeat' with_reducible (first
    | assumption | apply keeps_endMeasures | apply keeps_startCable | apply keepsR_done | apply keepsR_ite | apply keeps_ite
      | apply keeps_ite2 | apply keepsR_done | apply keepsR_fault | intro _ | split | dsimp only)


theorem keepsR_execChainOffsetMeasure {p : Nat} (h0 : Keeps s0 s) : KeepsR s0 (execChainOffsetMeasure p s) := by
  unfold execChainOffsetMeasure
  repeat' with_reducible (first
    | assumption | apply keeps_endMeasures | apply keeps_startSweep | apply keepsR_done | apply keepsR_ite | apply keeps_ite
      | apply keeps_ite2 | apply keepsR_done | apply keepsR_fault | intro _ | split | dsimp only)


theorem keeps_badReturn {p : Nat} (h0 : Keeps s0 s) : Keeps s0 (State.badReturn s p) := by
  unfold State.badReturn
  repeat' with_reducible (first
    | assumption | apply keeps_bump | intro _ | dsimp only)


theorem keeps_markSeen {p : Nat} {d : Nat} {b : Nat} (h0 : Keeps s0 s) : Keeps s0 (State.markSeen s p d b) := by
  unfold State.markSeen
  try dsimp -iota -proj only
  repeat' with_reducible (first
    | assumption | apply keeps_modPort | intro _ | dsimp only)


theorem keeps_channelAlert {code : Nat} {p : Nat} {d : Nat} {ch : Nat} {line : Nat} (h0 : Keeps s0 s) : Keeps s0 (State.channelAlert s code p d ch line) := by
  unfold State.channelAlert
  try dsimp -iota -proj only
  repeat' with_reducible (first
    | assumption | apply keeps_bump | apply keeps_life | apply keeps_markDead | apply keeps_markSeen | apply keeps_raise
      | apply keeps_scanReport | apply keeps_ite | apply keeps_ite2 | intro _ | split
      | exact keeps_of_eq (by assumption) (by assumption) | (refine keeps_of_eq (by assumption) ?_)
      | (refine keeps_of_eq3 (by assumption) ?_) | dsimp only)


theorem keeps_shutdownAlert {p : Nat} {d : Nat} {temp : Nat} (h0 : Keeps s0 s) : Keeps s0 (State.shutdownAlert s p d temp) := by
  unfold State.shutdownAlert
  try dsimp -iota -proj only
  repeat' with_reducible (first
    | assumption | apply keeps_assertSrc | apply keeps_bump | apply keeps_life | apply keeps_markSeen | apply keeps_raise
      | apply keeps_scanReport | intro _ | dsimp only)


theorem keeps_plainAlert {code : Nat} {p : Nat} {d : Nat} (h0 : Keeps s0 s) : Keeps s0 (State.plainAlert s code p d) := by
  unfold State.plainAlert
  try dsimp -iota -proj only
  repeat' with_reducible (first
    | assumption | apply keeps_bump | apply keeps_markSeen | apply keeps_raise | apply keeps_scanReport | apply keeps_ite
      | apply keeps_ite2 | intro _ | split | dsimp only)


theorem keeps_regLostAlert {p : Nat} {d : Nat} {ch : Nat} {line : Nat} (h0 : Keeps s0 s) : Keeps s0 (State.regLostAlert s p d ch line) := by
  unfold State.regLostAlert
  try dsimp -iota -proj only
  repeat' with_reducible (first
    | assumption | apply keeps_bump | apply keeps_markSeen | apply keeps_railRegLost | apply keeps_raise | apply keeps_scanReport
      | apply keeps_ite | apply keeps_ite2 | intro _ | split | exact keeps_of_eq (by assumption) (by assumption)
      | (refine keeps_of_eq (by assumption) ?_) | (refine keeps_of_eq3 (by assumption) ?_) | dsimp only)


theorem keeps_alertSet {p : Nat} {bad : Bool} {k : State → State} (hk : ∀  u, Keeps s0 u → Keeps s0 (k u)) (h0 : Keeps s0 s) : Keeps s0 (State.alertSet s p bad k) := by
  unfold State.alertSet
  repeat' with_reducible (first
    | assumption | apply keeps_badReturn | apply hk | apply keeps_ite | apply keeps_ite2 | intro _ | split | dsimp only)


theorem keepsR_execOpen {p : Nat} {d : Nat} {ch : Nat} {line : Nat} {bad : Bool} (h0 : Keeps s0 s) : KeepsR s0 (execOpen p d ch line bad s) := by
  unfold execOpen
  repeat' with_reducible (first
    | assumption | apply keeps_alertSet | apply keeps_channelAlert | apply keepsR_done | apply keepsR_done | apply keepsR_fault
      | intro _ | dsimp only)


theorem keepsR_execShort {p : Nat} {d : Nat} {ch : Nat} {line : Nat} {bad : Bool} (h0 : Keeps s0 s) : KeepsR s0 (execShort p d ch line bad s) := by
  unfold execShort
  repeat' with_reducible (first
    | assumption | apply keeps_alertSet | apply keeps_channelAlert | apply keepsR_done | apply keepsR_done | apply keepsR_fault
      | intro _ | dsimp only)


theorem keepsR_execShutdown {p : Nat} {d : Nat} {temp : Nat} {bad : Bool} (h0 : Keeps s0 s) : KeepsR s0 (execShutdown p d temp bad s) := by
  unfold execShutdown
  repeat' with_reducible (first
    | assumption | apply keeps_alertSet | apply keeps_shutdownAlert | apply keepsR_done | apply keepsR_done | apply keepsR_fault
      | intro _ | dsimp only)


theorem keepsR_execDamaged {p : Nat} {d : Nat} {bad : Bool} (h0 : Keeps s0 s) : KeepsR s0 (execDamaged p d bad s) := by
  unfold execDamaged
  repeat' with_reducible (first
    | assumption | apply keeps_alertSet | apply keeps_plainAlert | apply keepsR_done | apply keepsR_done | apply keepsR_fault
      | intro _ | dsimp only)


theorem keepsR_execLostInput {p : Nat} {d : Nat} {bad : Bool} (h0 : Keeps s0 s) : KeepsR s0 (execLostInput p d bad s) := by
  unfold execLostInput
  repeat' with_reducible (first
    | assumption | apply keeps_alertSet | apply keeps_plainAlert | apply keepsR_done | apply keepsR_done | apply keepsR_fault
      | intro _ | dsimp only)


theorem keepsR_execRegLost {p : Nat} {d : Nat} {ch : Nat} {line : Nat} {bad : Bool} (h0 : Keeps s0 s) : KeepsR s0 (execRegLost p d ch line bad s) := by
  unfold execRegLost
  repeat' with_reducible (first
    | assumption | apply keeps_alertSet | apply keeps_regLostAlert | apply keepsR_done | apply keepsR_done | apply keepsR_fault
      | intro _ | dsimp only)


theorem keepsR_execPollRequest {p : Nat} (h0 : Keeps s0 s) : KeepsR s0 (execPollRequest p s) := by
  unfold execPollRequest
  try dsimp -iota -proj only
  repeat' with_reducible (first
    | assumption | apply keeps_modPort | apply keeps_offer | apply keepsR_done | apply keepsR_ite | apply keeps_ite
      | apply keeps_ite2 | apply keepsR_done | apply keepsR_fault | intro _ | split | dsimp only)


theorem keeps_showHeadroom {g : Nat} (h0 : Keeps s0 s) : Keeps s0 (State.showHeadroom s g) := by
  unfold State.showHeadroom
  repeat' with_reducible (first
    | assumption | apply keeps_extreme | apply keeps_setReg | intro _ | split | exact keeps_of_eq (by assumption) (by assumption)
      | (refine keeps_of_eq (by assumption) ?_) | (refine keeps_of_eq3 (by assumption) ?_) | dsimp only)


theorem keeps_pollRoundDone {p : Nat} (h0 : Keeps s0 s) : Keeps s0 (State.pollRoundDone s p) := by
  unfold State.pollRoundDone
  try dsimp -iota -proj only
  repeat' with_reducible (first
    | assumption | apply keeps_clearSrc | apply keeps_extreme | apply keeps_modPort | apply keeps_setReg
      | apply keeps_showHeadroom | apply keeps_ite | apply keeps_ite2 | apply keeps_foldl | apply keeps_foldl_pair | intro _
      | split | exact keeps_of_eq (by assumption) (by assumption) | (refine keeps_of_eq (by assumption) ?_)
      | (refine keeps_of_eq3 (by assumption) ?_) | dsimp only)


theorem keeps_pollCheck {p : Nat} (h0 : Keeps s0 s) : Keeps s0 (State.pollCheck s p) := by
  unfold State.pollCheck
  try dsimp -iota -proj only
  repeat' with_reducible (first
    | assumption | apply keeps_pollRoundDone | apply keeps_ite | apply keeps_ite2 | intro _ | split | dsimp only)


theorem keeps_statusBit {p : Nat} {d : Nat} {data : Nat} {b : Nat} (h0 : Keeps s0 s) : Keeps s0 (State.statusBit s p d data b) := by
  unfold State.statusBit
  try dsimp -iota -proj only
  repeat' with_reducible (first
    | assumption | apply keeps_channelAlert | apply keeps_drawn | apply keeps_modPort | apply keeps_plainAlert
      | apply keeps_regLostAlert | apply keeps_shutdownAlert | apply keeps_ite | apply keeps_ite2 | intro _ | split
      | exact keeps_of_eq (by assumption) (by assumption) | (refine keeps_of_eq (by assumption) ?_)
      | (refine keeps_of_eq3 (by assumption) ?_) | dsimp only)


theorem keeps_pollReply {p : Nat} {d : Nat} {reg : Nat} {data : Nat} (h0 : Keeps s0 s) : Keeps s0 (State.pollReply s p d reg data) := by
  unfold State.pollReply
  try dsimp -iota -proj only
  repeat' with_reducible (first
    | assumption | apply keeps_modPort | apply keeps_statusBit | apply keeps_ite | apply keeps_ite2 | apply keeps_foldl
      | apply keeps_foldl_pair | intro _ | split | exact keeps_of_eq (by assumption) (by assumption)
      | (refine keeps_of_eq (by assumption) ?_) | (refine keeps_of_eq3 (by assumption) ?_) | dsimp only)


theorem keeps_replied {p : Nat} {d : Nat} {status : Nat} {held : Bool} {data : Nat} {rt : Nat} {q : ScnReq} (h0 : Keeps s0 s) : Keeps s0 (State.replied s p d status held data rt q) := by
  unfold State.replied
  try dsimp -iota -proj only
  repeat' with_reducible (first
    | assumption | apply keeps_finish | apply keeps_modPort | apply keeps_newRt0 | apply keeps_offer | apply keeps_pollCheck
      | apply keeps_pollReply | apply keeps_setFld | apply keeps_sweepReply | apply keeps_ite | apply keeps_ite2 | intro _ | split
      | exact keeps_of_eq (by assumption) (by assumption) | (refine keeps_of_eq (by assumption) ?_)
      | (refine keeps_of_eq3 (by assumption) ?_) | dsimp only)


theorem keepsR_execRepReceived {p : Nat} {d : Nat} {status : Nat} {held : Bool} {opcode : Nat} {reg : Nat} {data : Nat} {rt : Nat} {bad : Bool} (h0 : Keeps s0 s) : KeepsR s0 (execRepReceived p d status held opcode reg data rt bad s) := by
  unfold execRepReceived
  try dsimp -iota -proj only
  repeat' with_reducible (first
    | assumption | apply keeps_alertSet | apply keeps_imagesDone | apply keeps_modPort | apply keeps_pollReply
      | apply keeps_pollRoundDone | apply keeps_pump | apply keeps_replied | apply keepsR_done | apply keepsR_ite
      | apply keeps_ite | apply keeps_ite2 | apply keepsR_done | apply keepsR_fault | intro _ | split
      | exact keeps_of_eq (by assumption) (by assumption) | (refine keeps_of_eq (by assumption) ?_)
      | (refine keeps_of_eq3 (by assumption) ?_) | dsimp only)


theorem keeps_retry {p : Nat} {q : ScnReq} (h0 : Keeps s0 s) : Keeps s0 (State.retry s p q) := by
  unfold State.retry
  try dsimp -iota -proj only
  repeat' with_reducible (first
    | assumption | apply keeps_finish | apply keeps_modPort | apply keeps_portFault | apply keeps_ite | apply keeps_ite2 | intro _
      | split | exact keeps_of_eq (by assumption) (by assumption) | (refine keeps_of_eq (by assumption) ?_)
      | (refine keeps_of_eq3 (by assumption) ?_) | dsimp only)


theorem keepsR_execRequestTimeout {p : Nat} {d : Nat} (h0 : Keeps s0 s) : KeepsR s0 (execRequestTimeout p d s) := by
  unfold execRequestTimeout
  try dsimp -iota -proj only
  repeat' with_reducible (first
    | assumption | apply keeps_assertSrc | apply keeps_bump | apply keeps_modPort | apply keeps_pump | apply keeps_retry
      | apply keepsR_done | apply keepsR_ite | apply keeps_ite | apply keeps_ite2 | apply keepsR_done | apply keepsR_fault
      | intro _ | split | exact keeps_of_eq (by assumption) (by assumption) | (refine keeps_of_eq (by assumption) ?_)
      | (refine keeps_of_eq3 (by assumption) ?_) | dsimp only)


theorem keepsR_execReturnLaneLost {p : Nat} (h0 : Keeps s0 s) : KeepsR s0 (execReturnLaneLost p s) := by
  unfold execReturnLaneLost
  repeat' with_reducible (first
    | assumption | apply keeps_assertSrc | apply keeps_bump | apply keeps_life | apply keepsR_done | apply keepsR_ite
      | apply keeps_ite | apply keeps_ite2 | apply keepsR_done | apply keepsR_fault | intro _ | split | dsimp only)


theorem keepsR_execReturnLaneRelocked {p : Nat} (h0 : Keeps s0 s) : KeepsR s0 (execReturnLaneRelocked p s) := by
  unfold execReturnLaneRelocked
  repeat' with_reducible (first
    | assumption | apply keeps_clearSrc | apply keepsR_done | apply keepsR_ite | apply keeps_ite | apply keeps_ite2
      | apply keepsR_done | apply keepsR_fault | intro _ | split | dsimp only)


theorem keepsR_execModuleQuench {on : Bool} (h0 : Keeps s0 s) : KeepsR s0 (execModuleQuench on s) := by
  unfold execModuleQuench
  repeat' with_reducible (first
    | assumption | apply keeps_moduleQuench | apply keeps_moduleRelease | apply keepsR_done | apply keepsR_ite | apply keeps_ite
      | apply keeps_ite2 | apply keepsR_done | apply keepsR_fault | intro _ | split | dsimp only)


end Sys2Proof.Machine
end

