-- ==== Sys2Proof/Laws/KeepsIngest.lean ====
section
/-! SUPPORT. What the operations of Machine/Ingest.lean keep. -/

set_option linter.unusedTactic false
set_option linter.unreachableTactic false

namespace Sys2Proof.Machine

variable {s0 s : State}

theorem keeps_newCanvas {b : List Byte} (h0 : Keeps s0 s) : Keeps s0 (State.newCanvas s b) := by
  unfold State.newCanvas
  try dsimp -iota -proj only
  repeat' with_reducible (first
    | assumption | apply keeps_greyFigures | apply keeps_gridChanged | apply keeps_judgeSync | apply keeps_modAnv
      | apply keeps_modScn | apply keeps_setFld | intro _ | dsimp only)


theorem keepsR_execCanvasSet (h0 : Keeps s0 s) : KeepsR s0 (execCanvasSet s) := by
  unfold execCanvasSet
  repeat' with_reducible (first
    | assumption | apply keeps_newCanvas | apply keeps_takeCommand | apply keeps_withBlock | apply keepsR_done | apply keepsR_done
      | apply keepsR_fault | intro _ | split | exact keeps_of_eq (by assumption) (by assumption)
      | (refine keeps_of_eq (by assumption) ?_) | (refine keeps_of_eq3 (by assumption) ?_) | dsimp only)


theorem keeps_streamCommand {op : Nat} {k : Nat → List Byte → State → Option Cpl × State} (hk : ∀ x0 x1 u, Keeps s0 u → Keeps s0 (k x0 x1 u).2) (h0 : Keeps s0 s) : Keeps s0 (State.streamCommand s op k) := by
  unfold State.streamCommand
  repeat' with_reducible (first
    | assumption | apply keeps_takeCommand | apply hk | apply keeps_ite | apply keeps_ite2 | intro _ | split | dsimp only)


theorem keepsR_execStreamSet (h0 : Keeps s0 s) : KeepsR s0 (execStreamSet s) := by
  unfold execStreamSet
  try dsimp -iota -proj only
  repeat' with_reducible (first
    | assumption | apply keeps_judgeSync | apply keeps_modAnv | apply keeps_streamCommand | apply keeps_withBlock
      | apply keepsR_done | apply keepsR_ite | apply keeps_ite | apply keeps_ite2 | apply keepsR_done | apply keepsR_fault
      | intro _ | split | exact keeps_of_eq (by assumption) (by assumption) | (refine keeps_of_eq (by assumption) ?_)
      | (refine keeps_of_eq3 (by assumption) ?_) | dsimp only)


theorem keepsR_execStreamStart (h0 : Keeps s0 s) : KeepsR s0 (execStreamStart s) := by
  unfold execStreamStart
  try dsimp -iota -proj only
  repeat' with_reducible (first
    | assumption | apply keeps_judgeSync | apply keeps_modAnv | apply keeps_setFld | apply keeps_streamCommand | apply keepsR_done
      | apply keepsR_ite | apply keeps_ite | apply keeps_ite2 | apply keepsR_done | apply keepsR_fault | intro _ | split
      | exact keeps_of_eq (by assumption) (by assumption) | (refine keeps_of_eq (by assumption) ?_)
      | (refine keeps_of_eq3 (by assumption) ?_) | dsimp only)


theorem keeps_modFrame {k : Nat} {f : FrameRec → FrameRec} (h0 : Keeps s0 s) : Keeps s0 (State.modFrame s k f) := by
  unfold State.modFrame
  try dsimp -iota -proj only
  repeat' with_reducible (first
    | assumption | apply keeps_modAnv | apply keeps_ite | apply keeps_ite2 | intro _ | split | dsimp only)


theorem keeps_countSlots (h0 : Keeps s0 s) : Keeps s0 (State.countSlots s) := by
  unfold State.countSlots
  repeat' with_reducible (first
    | assumption | apply keeps_setFld | intro _ | dsimp only)


theorem keeps_ingestReport {g : Grid} {k : Nat} {code : Nat} {shown : Nat} {slack : Int} (h0 : Keeps s0 s) : Keeps s0 (State.ingestReport s g k code shown slack) := by
  unfold State.ingestReport
  try dsimp -iota -proj only
  repeat' with_reducible (first
    | assumption | apply keeps_bump | apply keeps_faultEntry | apply keeps_raise | apply keeps_report | apply keeps_ite
      | apply keeps_ite2 | intro _ | split | exact keeps_of_eq (by assumption) (by assumption)
      | (refine keeps_of_eq (by assumption) ?_) | (refine keeps_of_eq3 (by assumption) ?_) | dsimp only)


theorem keeps_countDecision {code : Nat} (h0 : Keeps s0 s) : Keeps s0 (State.countDecision s code) := by
  unfold State.countDecision
  try dsimp -iota -proj only
  repeat' with_reducible (first
    | assumption | apply keeps_bump | apply keeps_hist | apply keeps_life | apply keeps_raise | apply keeps_setFld
      | apply keeps_ite | apply keeps_ite2 | intro _ | split | dsimp only)


theorem keeps_countMissing {k : Nat} (h0 : Keeps s0 s) : Keeps s0 (State.countMissing s k) := by
  unfold State.countMissing
  repeat' with_reducible (first
    | assumption | apply keeps_bump | apply keeps_ite | apply keeps_ite2 | apply keeps_foldl | apply keeps_foldl_pair | intro _
      | split | exact keeps_of_eq (by assumption) (by assumption) | (refine keeps_of_eq (by assumption) ?_)
      | (refine keeps_of_eq3 (by assumption) ?_) | dsimp only)


theorem keeps_noteSlack {k : Nat} {v : Int} (h0 : Keeps s0 s) : Keeps s0 (State.noteSlack s k v) := by
  unfold State.noteSlack
  try dsimp -iota -proj only
  repeat' with_reducible (first
    | assumption | apply keeps_extreme | apply keeps_hist | apply keeps_setReg | apply keeps_ite | apply keeps_ite2 | intro _
      | split | dsimp only)


theorem keeps_decide {g : Grid} {k : Nat} {code : Nat} (h0 : Keeps s0 s) : Keeps s0 (State.decide s g k code) := by
  unfold State.decide
  try dsimp -iota -proj only
  repeat' with_reducible (first
    | assumption | apply keeps_countDecision | apply keeps_countMissing | apply keeps_countSlots | apply keeps_ingestReport
      | apply keeps_linkSend | apply keeps_modAnv | apply keeps_modFrame | apply keeps_noteSlack | apply keeps_ite
      | apply keeps_ite2 | intro _ | split | dsimp only)


theorem keeps_duplicate {g : Grid} {k : Nat} (h0 : Keeps s0 s) : Keeps s0 (State.duplicate s g k) := by
  unfold State.duplicate
  repeat' with_reducible (first
    | assumption | apply keeps_countDecision | apply keeps_ingestReport | intro _ | dsimp only)


theorem keeps_lateReport {g : Grid} {k : Nat} (h0 : Keeps s0 s) : Keeps s0 (State.lateReport s g k) := by
  unfold State.lateReport
  try dsimp -iota -proj only
  repeat' with_reducible (first
    | assumption | apply keeps_ingestReport | apply keeps_modAnv | apply keeps_ite | apply keeps_ite2 | intro _ | split
      | dsimp only)


theorem keeps_stopFrames {g : Grid} {x : Stream} (h0 : Keeps s0 s) : Keeps s0 (State.stopFrames s g x) := by
  unfold State.stopFrames
  repeat' with_reducible (first
    | assumption | apply keeps_decide | apply keeps_foldl | apply keeps_foldl_pair | intro _ | dsimp only)


theorem keepsR_execStreamStop (h0 : Keeps s0 s) : KeepsR s0 (execStreamStop s) := by
  unfold execStreamStop
  try dsimp -iota -proj only
  repeat' with_reducible (first
    | assumption | apply keeps_judgeSync | apply keeps_modAnv | apply keeps_setFld | apply keeps_stopFrames
      | apply keeps_streamCommand | apply keepsR_done | apply keepsR_ite | apply keeps_ite | apply keeps_ite2 | apply keepsR_done
      | apply keepsR_fault | intro _ | split | exact keeps_of_eq (by assumption) (by assumption)
      | (refine keeps_of_eq (by assumption) ?_) | (refine keeps_of_eq3 (by assumption) ?_) | dsimp only)


theorem keeps_slackReset {w : Word} (h0 : Keeps s0 s) : Keeps s0 (State.slackReset s w) := by
  unfold State.slackReset
  repeat' with_reducible (first
    | assumption | apply keeps_setReg | apply keeps_ite | apply keeps_ite2 | intro _ | split | dsimp only)


theorem keepsR_execSlackReset {ini : Nat} {w : Word} (h0 : Keeps s0 s) : KeepsR s0 (execSlackReset ini w s) := by
  unfold execSlackReset
  repeat' with_reducible (first
    | assumption | apply keeps_setupAccess | apply keeps_slackReset | apply keepsR_done | apply keepsR_done | apply keepsR_fault
      | intro _ | dsimp only)


theorem keeps_admitIfComplete {g : Grid} {k : Nat} (h0 : Keeps s0 s) : Keeps s0 (State.admitIfComplete s g k) := by
  unfold State.admitIfComplete
  repeat' with_reducible (first
    | assumption | apply keeps_decide | apply keeps_ite | apply keeps_ite2 | intro _ | split | dsimp only)


theorem keeps_countTaken {port : Nat} {stream : Nat} (h0 : Keeps s0 s) : Keeps s0 (State.countTaken s port stream) := by
  unfold State.countTaken
  repeat' with_reducible (first
    | assumption | apply keeps_bump | apply keeps_ite | apply keeps_ite2 | intro _ | split | dsimp only)


theorem keeps_takePacket {g : Grid} {c : List Byte} {st : List Byte} {port : Nat} {slice : Nat} {n : Nat} {k : Nat} {p : PacketIn} (h0 : Keeps s0 s) : Keeps s0 (State.takePacket s g c st port slice n k p) := by
  unfold State.takePacket
  try dsimp -iota -proj only
  repeat' with_reducible (first
    | assumption | apply keeps_admitIfComplete | apply keeps_bump | apply keeps_countTaken | apply keeps_decide
      | apply keeps_modFrame | apply keeps_ite | apply keeps_ite2 | intro _ | split
      | exact keeps_of_eq (by assumption) (by assumption) | (refine keeps_of_eq (by assumption) ?_)
      | (refine keeps_of_eq3 (by assumption) ?_) | dsimp only)


theorem keeps_openFrame {g : Grid} {c : List Byte} {st : List Byte} {port : Nat} {slice : Nat} {n : Nat} {k : Nat} {p : PacketIn} (h0 : Keeps s0 s) : Keeps s0 (State.openFrame s g c st port slice n k p) := by
  unfold State.openFrame
  try dsimp -iota -proj only
  repeat' with_reducible (first
    | assumption | apply keeps_countSlots | apply keeps_countTaken | apply keeps_decide | apply keeps_modAnv
      | apply keeps_modFrame | apply keeps_takePacket | intro _ | split | exact keeps_of_eq (by assumption) (by assumption)
      | (refine keeps_of_eq (by assumption) ?_) | (refine keeps_of_eq3 (by assumption) ?_) | dsimp only)


theorem keeps_setStaging {slice : Nat} {n : Nat} {v : Nat} (h0 : Keeps s0 s) : Keeps s0 (State.setStaging s slice n v) := by
  unfold State.setStaging
  try dsimp -iota -proj only
  repeat' with_reducible (first
    | assumption | apply keeps_modAnv | intro _ | dsimp only)


theorem keeps_drainStaging {slice : Nat} {n : Nat} (h0 : Keeps s0 s) : Keeps s0 (State.drainStaging s slice n) := by
  unfold State.drainStaging
  repeat' with_reducible (first
    | assumption | apply keeps_drawn | apply keeps_setStaging | apply keeps_ite | apply keeps_ite2 | intro _ | split | dsimp only)


theorem keeps_ifRoom {st : List Byte} {slice : Nat} {n : Nat} {len : Nat} {take : State → State} (htake : ∀  u, Keeps s0 u → Keeps s0 (take u)) (h0 : Keeps s0 s) : Keeps s0 (State.ifRoom s st slice n len take).2 := by
  unfold State.ifRoom
  try dsimp -iota -proj only
  repeat' with_reducible (first
    | assumption | apply keeps_bump | apply keeps_drainStaging | apply keeps_setStaging | apply htake | apply keeps_ite
      | apply keeps_ite2 | intro _ | split | apply keeps_mk2 | dsimp only)


theorem keeps_placePacket {g : Grid} {c : List Byte} {st : List Byte} {x : Stream} {port : Nat} {slice : Nat} {n : Nat} {len : Nat} {k : Nat} {p : PacketIn} (h0 : Keeps s0 s) : Keeps s0 (State.placePacket s g c st x port slice n len k p).2 := by
  unfold State.placePacket
  try dsimp -iota -proj only
  repeat' with_reducible (first
    | assumption | apply keeps_bump | apply keeps_countTaken | apply keeps_duplicate | apply keeps_ifRoom | apply keeps_modAnv
      | apply keeps_openFrame | apply keeps_takePacket | apply keeps_ite | apply keeps_ite2 | intro _ | split
      | exact keeps_of_eq (by assumption) (by assumption) | (refine keeps_of_eq (by assumption) ?_)
      | (refine keeps_of_eq3 (by assumption) ?_) | apply keeps_mk2 | dsimp only)


theorem keeps_ingest {port : Nat} {slice : Nat} {n : Nat} {cls : Nat} {b : List Byte} {len : Nat} (h0 : Keeps s0 s) : Keeps s0 (State.ingest s port slice n cls b len).2 := by
  unfold State.ingest
  try dsimp -iota -proj only
  repeat' with_reducible (first
    | assumption | apply keeps_bump | apply keeps_placePacket | apply keeps_ite | apply keeps_ite2 | intro _ | split
      | exact keeps_of_eq (by assumption) (by assumption) | (refine keeps_of_eq (by assumption) ?_)
      | (refine keeps_of_eq3 (by assumption) ?_) | apply keeps_mk2 | dsimp only)


theorem keepsR_execAdmissionDeadline {k : Nat} (h0 : Keeps s0 s) : KeepsR s0 (execAdmissionDeadline k s) := by
  unfold execAdmissionDeadline
  try dsimp -iota -proj only
  repeat' with_reducible (first
    | assumption | apply keeps_decide | apply keeps_lateReport | apply keeps_modTwn | apply keeps_reach | apply keepsR_done
      | apply keepsR_ite | apply keeps_ite | apply keeps_ite2 | apply keepsR_done | apply keepsR_fault | intro _ | split
      | exact keeps_of_eq (by assumption) (by assumption) | (refine keeps_of_eq (by assumption) ?_)
      | (refine keeps_of_eq3 (by assumption) ?_) | dsimp only)


theorem keeps_withdraw {g : Grid} {k : Nat} (h0 : Keeps s0 s) : Keeps s0 (State.withdraw s g k) := by
  unfold State.withdraw
  try dsimp -iota -proj only
  repeat' with_reducible (first
    | assumption | apply keeps_bump | apply keeps_countSlots | apply keeps_hist | apply keeps_ingestReport | apply keeps_life
      | apply keeps_modAnv | apply keeps_raise | intro _ | dsimp only)


theorem keeps_wallStepped {d : Int} (h0 : Keeps s0 s) : Keeps s0 (State.wallStepped s d) := by
  unfold State.wallStepped
  try dsimp -iota -proj only
  repeat' with_reducible (first
    | assumption | apply keeps_bump | apply keeps_decide | apply keeps_modAnv | apply keeps_portStepped | apply keeps_raise
      | apply keeps_withdraw | apply keeps_ite | apply keeps_ite2 | apply keeps_foldl | apply keeps_foldl_pair | intro _ | split
      | exact keeps_of_eq (by assumption) (by assumption) | (refine keeps_of_eq (by assumption) ?_)
      | (refine keeps_of_eq3 (by assumption) ?_) | dsimp only)


end Sys2Proof.Machine
end

