-- ==== Sys2Proof/Laws/KeepsGrade.lean ====
section
/-! SUPPORT. What the operations of Machine/Grade.lean keep. -/

set_option linter.unusedTactic false
set_option linter.unreachableTactic false

namespace Sys2Proof.Machine

variable {s0 s : State}

theorem keeps_readCal {t : TemperSet} {n : Nat} (h0 : Keeps s0 s) : Keeps s0 (State.readCal s t n).2 := by
  unfold State.readCal
  repeat' with_reducible (first
    | assumption | apply keeps_pmc | apply keeps_readMem | apply keeps_ite | apply keeps_ite2 | intro _ | split
      | exact keeps_of_eq (by assumption) (by assumption) | (refine keeps_of_eq (by assumption) ?_)
      | (refine keeps_of_eq3 (by assumption) ?_) | apply keeps_mk2 | dsimp only)


theorem keeps_readAge {t : TemperSet} {n : Nat} (h0 : Keeps s0 s) : Keeps s0 (State.readAge s t n).2 := by
  unfold State.readAge
  repeat' with_reducible (first
    | assumption | apply keeps_readMem | apply keeps_ite | apply keeps_ite2 | intro _ | split
      | exact keeps_of_eq (by assumption) (by assumption) | (refine keeps_of_eq (by assumption) ?_)
      | (refine keeps_of_eq3 (by assumption) ?_) | apply keeps_mk2 | dsimp only)


theorem keeps_readDead (h0 : Keeps s0 s) : Keeps s0 (State.readDead s).2 := by
  unfold State.readDead
  repeat' with_reducible (first
    | assumption | apply keeps_readMem | apply keeps_foldl | apply keeps_foldl_pair | intro _ | split
      | exact keeps_of_eq (by assumption) (by assumption) | (refine keeps_of_eq (by assumption) ?_)
      | (refine keeps_of_eq3 (by assumption) ?_) | apply keeps_mk2 | dsimp only)


theorem keeps_tellRamp {k : Nat} {b : Nat} (h0 : Keeps s0 s) : Keeps s0 (State.tellRamp s k b) := by
  unfold State.tellRamp
  try dsimp -iota -proj only
  repeat' with_reducible (first
    | assumption | apply keeps_modAnv | apply keeps_raise | intro _ | split | exact keeps_of_eq (by assumption) (by assumption)
      | (refine keeps_of_eq (by assumption) ?_) | (refine keeps_of_eq3 (by assumption) ?_) | dsimp only)


theorem keeps_beginGrading {t : TemperSet} {k : Nat} (h0 : Keeps s0 s) : Keeps s0 (State.beginGrading s t k) := by
  unfold State.beginGrading
  try dsimp -iota -proj only
  repeat' with_reducible (first
    | assumption | apply keeps_modAnv | apply keeps_modFrame | apply keeps_readDead | apply keeps_setFld | apply keeps_tellRamp
      | intro _ | split | exact keeps_of_eq (by assumption) (by assumption) | (refine keeps_of_eq (by assumption) ?_)
      | (refine keeps_of_eq3 (by assumption) ?_) | dsimp only)


theorem keeps_gradeOne {g : Grid} {c : List Byte} {t : TemperSet} {k : Nat} {px : ChainPixel} (h0 : Keeps s0 s) : Keeps s0 (State.gradeOne g c t k s px) := by
  unfold State.gradeOne
  try dsimp -iota -proj only
  repeat' with_reducible (first
    | assumption | apply keeps_bump | apply keeps_modFrame | apply keeps_raise | apply keeps_readAge | apply keeps_readCal
      | apply keeps_ite | apply keeps_ite2 | intro _ | split | exact keeps_of_eq (by assumption) (by assumption)
      | (refine keeps_of_eq (by assumption) ?_) | (refine keeps_of_eq3 (by assumption) ?_) | dsimp only)


theorem keeps_releaseOne {grey : List Byte} {t : TemperSet} {comp : Bool} {k : Nat} {px : ChainPixel} {c : Nat} (h0 : Keeps s0 s) : Keeps s0 (State.releaseOne grey t comp k px s c) := by
  unfold State.releaseOne
  try dsimp -iota -proj only
  repeat' with_reducible (first
    | assumption | apply keeps_bump | apply keeps_modFrame | apply keeps_raise | apply keeps_ite | apply keeps_ite2 | intro _
      | split | exact keeps_of_eq (by assumption) (by assumption) | (refine keeps_of_eq (by assumption) ?_)
      | (refine keeps_of_eq3 (by assumption) ?_) | dsimp only)


theorem keeps_releasePart {g : Grid} {c : List Byte} {grey : List Byte} {t : TemperSet} {k : Nat} {part : Nat × Nat} (h0 : Keeps s0 s) : Keeps s0 (State.releasePart g c grey t k s part) := by
  unfold State.releasePart
  try dsimp -iota -proj only
  repeat' with_reducible (first
    | assumption | apply keeps_modFrame | apply keeps_releaseOne | apply keeps_ite | apply keeps_ite2 | apply keeps_foldl
      | apply keeps_foldl_pair | intro _ | split | exact keeps_of_eq (by assumption) (by assumption)
      | (refine keeps_of_eq (by assumption) ?_) | (refine keeps_of_eq3 (by assumption) ?_) | dsimp only)


theorem keeps_gradePart {g : Grid} {c : List Byte} {grey : List Byte} {t : TemperSet} {k : Nat} {port : Nat} {band : Nat} (h0 : Keeps s0 s) : Keeps s0 (State.gradePart s g c grey t k port band) := by
  unfold State.gradePart
  try dsimp -iota -proj only
  repeat' with_reducible (first
    | assumption | apply keeps_bump | apply keeps_gradeOne | apply keeps_modFrame | apply keeps_pmc | apply keeps_releasePart
      | apply keeps_ite | apply keeps_ite2 | apply keeps_foldl | apply keeps_foldl_pair | intro _ | split
      | exact keeps_of_eq (by assumption) (by assumption) | (refine keeps_of_eq (by assumption) ?_)
      | (refine keeps_of_eq3 (by assumption) ?_) | dsimp only)


theorem keepsR_execBandGraded {k : Nat} {port : Nat} {band : Nat} (h0 : Keeps s0 s) : KeepsR s0 (execBandGraded k port band s) := by
  unfold execBandGraded
  try dsimp -iota -proj only
  repeat' with_reducible (first
    | assumption | apply keeps_beginGrading | apply keeps_gradePart | apply keepsR_done | apply keepsR_ite | apply keeps_ite
      | apply keeps_ite2 | apply keepsR_done | apply keepsR_fault | intro _ | split
      | exact keeps_of_eq (by assumption) (by assumption) | (refine keeps_of_eq (by assumption) ?_)
      | (refine keeps_of_eq3 (by assumption) ?_) | dsimp only)


end Sys2Proof.Machine
end

