-- ==== Sys2Proof/Laws/KeepsAgeing.lean ====
section
/-! SUPPORT. What the operations of Machine/Ageing.lean keep. -/

set_option linter.unusedTactic false
set_option linter.unreachableTactic false

namespace Sys2Proof.Machine

variable {s0 s : State}

theorem keeps_readInt {ini : Nat} {t : TemperSet} {n : Nat} {c : Nat} (h0 : Keeps s0 s) : Keeps s0 (State.readInt s ini t n c).2.2 := by
  unfold State.readInt
  try dsimp -iota -proj only
  repeat' with_reducible (first
    | assumption | apply keeps_drawn | apply keeps_readMem | intro _ | split | exact keeps_of_eq (by assumption) (by assumption)
      | (refine keeps_of_eq (by assumption) ?_) | (refine keeps_of_eq3 (by assumption) ?_) | apply keeps_mk3 | dsimp only)


theorem keeps_updatePixel {ini : Nat} {t : TemperSet} {n : Nat} {new : Nat → Nat → Nat} (h0 : Keeps s0 s) : Keeps s0 (State.updatePixel s ini t n new) := by
  unfold State.updatePixel
  try dsimp -iota -proj only
  repeat' with_reducible (first
    | assumption | apply keeps_bump | apply keeps_readInt | apply keeps_writeMem | apply keeps_ite | apply keeps_ite2
      | apply keeps_foldl | apply keeps_foldl_pair | intro _ | split | exact keeps_of_eq (by assumption) (by assumption)
      | (refine keeps_of_eq (by assumption) ?_) | (refine keeps_of_eq3 (by assumption) ?_) | dsimp only)


theorem keeps_integrate {g : Grid} {k : Nat} (h0 : Keeps s0 s) : Keeps s0 (State.integrate s g k) := by
  unfold State.integrate
  try dsimp -iota -proj only
  repeat' with_reducible (first
    | assumption | apply keeps_linkSend | apply keeps_modTwn | apply keeps_updatePixel | apply keeps_ite | apply keeps_ite2
      | apply keeps_foldl | apply keeps_foldl_pair | intro _ | split | exact keeps_of_eq (by assumption) (by assumption)
      | (refine keeps_of_eq (by assumption) ?_) | (refine keeps_of_eq3 (by assumption) ?_) | dsimp only)


theorem keeps_readInts {st ini n : Nat} {t : TemperSet} (h : Keeps s0 s) : Keeps s0 (State.readInts st s ini t n).2.2 :=
  keeps_foldl_triple (fun _ _ h => keeps_readInt h) h


theorem keeps_recodePixel {st ini n : Nat} {t : TemperSet} (h : Keeps s0 s) : Keeps s0 (State.recodePixel st s ini t n).2 :=
  keeps_writeMem (keeps_readInts h)


theorem keeps_recodeAll {t : TemperSet} {ini : Nat → Nat} (h : Keeps s0 s) : Keeps s0 (State.recodeAll s t ini).2 := by
  unfold State.recodeAll
  generalize List.range 4194304 = l
  exact keeps_foldl_pair (fun _ _ h => keeps_recodePixel h) h


theorem keepsR_execRecodePassDone (h0 : Keeps s0 s) : KeepsR s0 (execRecodePassDone s) := by
  unfold execRecodePassDone
  repeat' with_reducible (first
    | assumption | apply keeps_lower | apply keeps_raise | apply keeps_recodeAll | apply keepsR_done | apply keepsR_ite
      | apply keeps_ite | apply keeps_ite2 | apply keepsR_done | apply keepsR_fault | intro _ | split
      | exact keeps_of_eq (by assumption) (by assumption) | (refine keeps_of_eq (by assumption) ?_)
      | (refine keeps_of_eq3 (by assumption) ?_) | dsimp only)


theorem keeps_carry {st : Nat} {src : Nat} {n : Nat} {dst : Nat} {f : Nat → List Byte} (h0 : Keeps s0 s) : Keeps s0 (State.carry st s src n dst f).2 := by
  unfold State.carry
  try dsimp -iota -proj only
  repeat' with_reducible (first
    | assumption | apply keeps_readMem | apply keeps_writeMem | intro _ | split
      | exact keeps_of_eq (by assumption) (by assumption) | (refine keeps_of_eq (by assumption) ?_)
      | (refine keeps_of_eq3 (by assumption) ?_) | apply keeps_mk2 | dsimp only)


theorem keeps_ckptSave {t : TemperSet} (h : Keeps s0 s) : Keeps s0 (State.ckptSave s t).2 := by
  unfold State.ckptSave
  generalize List.range (3 * 4194304) = l
  exact keeps_foldl_pair (fun _ _ h => keeps_carry h) h


theorem keeps_ckptLoad {t : TemperSet} (h : Keeps s0 s) : Keeps s0 (State.ckptLoad s t).2 := by
  unfold State.ckptLoad
  generalize List.range (3 * 4194304) = l
  apply keeps_mk2
  apply keeps_recodeAll
  exact keeps_foldl_pair (fun _ _ h => keeps_carry h) h


theorem keeps_ckptBegin {op : Nat} {slot : Option Nat} (h0 : Keeps s0 s) : Keeps s0 (State.ckptBegin s op slot) := by
  unfold State.ckptBegin
  try dsimp -iota -proj only
  repeat' with_reducible (first
    | assumption | apply keeps_modAnv | apply keeps_raise | intro _ | dsimp only)


theorem keepsR_execAgeCkptSave (h0 : Keeps s0 s) : KeepsR s0 (execAgeCkptSave s) := by
  unfold execAgeCkptSave
  repeat' with_reducible (first
    | assumption | apply keeps_ckptBegin | apply keeps_takeCommand | apply keepsR_done | apply keepsR_ite | apply keeps_ite
      | apply keeps_ite2 | apply keepsR_done | apply keepsR_fault | intro _ | split | dsimp only)


theorem keepsR_execAgeCkptLoad (h0 : Keeps s0 s) : KeepsR s0 (execAgeCkptLoad s) := by
  unfold execAgeCkptLoad
  repeat' with_reducible (first
    | assumption | apply keeps_ckptBegin | apply keeps_takeCommand | apply keepsR_done | apply keepsR_ite | apply keeps_ite
      | apply keeps_ite2 | apply keepsR_done | apply keepsR_fault | intro _ | split | dsimp only)


theorem keepsR_execAgeCheckpointTimer (h0 : Keeps s0 s) : KeepsR s0 (execAgeCheckpointTimer s) := by
  unfold execAgeCheckpointTimer
  repeat' with_reducible (first
    | assumption | apply keeps_ckptBegin | apply keepsR_done | apply keepsR_ite | apply keeps_ite | apply keeps_ite2
      | apply keepsR_done | apply keepsR_fault | intro _ | split | dsimp only)


theorem keepsR_execCheckpointComplete (h0 : Keeps s0 s) : KeepsR s0 (execCheckpointComplete s) := by
  unfold execCheckpointComplete
  try dsimp -iota -proj only
  repeat' with_reducible (first
    | assumption | apply keeps_ckptLoad | apply keeps_ckptSave | apply keeps_finish | apply keeps_lower | apply keeps_modAnv
      | apply keeps_raise | apply keeps_settle | apply keepsR_done | apply keepsR_ite | apply keeps_ite | apply keeps_ite2
      | apply keepsR_done | apply keepsR_fault | intro _ | split | exact keeps_of_eq (by assumption) (by assumption)
      | (refine keeps_of_eq (by assumption) ?_) | (refine keeps_of_eq3 (by assumption) ?_) | dsimp only)


theorem keeps_countPeriod {show_ : Nat} (h0 : Keeps s0 s) : Keeps s0 (State.countPeriod s show_) := by
  unfold State.countPeriod
  try dsimp -iota -proj only
  repeat' with_reducible (first
    | assumption | apply keeps_bump | apply keeps_life | apply keeps_raise | apply keeps_ite | apply keeps_ite2 | intro _ | split
      | dsimp only)


theorem keeps_lightPeriod {k : Nat} {show_ : Nat} (h0 : Keeps s0 s) : Keeps s0 (State.lightPeriod s k show_) := by
  unfold State.lightPeriod
  try dsimp -iota -proj only
  repeat' with_reducible (first
    | assumption | apply keeps_countSlots | apply keeps_modAnv | apply keeps_ite | apply keeps_ite2 | intro _ | split | dsimp only)


theorem keeps_endStale {k : Nat} (h0 : Keeps s0 s) : Keeps s0 (State.endStale s k) := by
  unfold State.endStale
  try dsimp -iota -proj only
  repeat' with_reducible (first
    | assumption | apply keeps_judgeSync | apply keeps_modTwn | apply keeps_setFld | apply keeps_ite | apply keeps_ite2 | intro _
      | split | dsimp only)


theorem keepsR_execPresentationTime {k : Nat} (h0 : Keeps s0 s) : KeepsR s0 (execPresentationTime k s) := by
  unfold execPresentationTime
  try dsimp -iota -proj only
  repeat' with_reducible (first
    | assumption | apply keeps_countPeriod | apply keeps_endStale | apply keeps_integrate | apply keeps_lightPeriod
      | apply keeps_modTwn | apply keeps_reach | apply keeps_setFld | apply keeps_setReg | apply keepsR_done | apply keepsR_ite
      | apply keeps_ite | apply keeps_ite2 | apply keepsR_done | apply keepsR_fault | intro _ | split
      | exact keeps_of_eq (by assumption) (by assumption) | (refine keeps_of_eq (by assumption) ?_)
      | (refine keeps_of_eq3 (by assumption) ?_) | dsimp only)


end Sys2Proof.Machine
end

