-- ==== Sys2Proof/Laws/KeepsAnvil.lean ====
section
/-! SUPPORT. What the operations of Machine/Anvil.lean keep. -/

set_option linter.unusedTactic false
set_option linter.unreachableTactic false

namespace Sys2Proof.Machine

variable {s0 s : State}

theorem keeps_anvilRead {a : Nat} {len : Nat} (h0 : Keeps s0 s) : Keeps s0 (State.anvilRead s a len).2 := by
  unfold State.anvilRead
  repeat' with_reducible (first
    | assumption | apply keeps_readMem | intro _ | split | exact keeps_of_eq (by assumption) (by assumption)
      | (refine keeps_of_eq (by assumption) ?_) | (refine keeps_of_eq3 (by assumption) ?_) | apply keeps_mk2 | dsimp only)


theorem keeps_commitDone (h0 : Keeps s0 s) : Keeps s0 (State.commitDone s) := by
  unfold State.commitDone
  try dsimp -iota -proj only
  repeat' with_reducible (first
    | assumption | apply keeps_lower | apply keeps_modAnv | apply keeps_raise | apply keeps_wrapFld | intro _ | dsimp only)


theorem keeps_loadCurves {curves : List Byte} (h0 : Keeps s0 s) : Keeps s0 (State.loadCurves s curves) := by
  unfold State.loadCurves
  try dsimp -iota -proj only
  repeat' with_reducible (first
    | assumption | apply keeps_modAnv | apply keeps_raise | apply keeps_setFld | intro _ | dsimp only)


theorem keeps_activateSet {slot : Nat} {t : TemperSet} {newCurves : Bool} (h0 : Keeps s0 s) : Keeps s0 (State.activateSet s slot t newCurves).2 := by
  unfold State.activateSet
  try dsimp -iota -proj only
  repeat' with_reducible (first
    | assumption | apply keeps_bump | apply keeps_commitDone | apply keeps_judgeSync | apply keeps_loadCurves | apply keeps_modAnv
      | apply keeps_raise | apply keeps_ite | apply keeps_ite2 | intro _ | split | apply keeps_mk2 | dsimp only)


theorem keeps_checkSet {slot : Nat} {d : List Byte} {g : List Byte} {es : List (List Byte)} (h0 : Keeps s0 s) : Keeps s0 (State.checkSet s slot d g es).2 := by
  unfold State.checkSet
  try dsimp -iota -proj only
  repeat' with_reducible (first
    | assumption | apply keeps_activateSet | apply keeps_ite | apply keeps_ite2 | intro _ | split
      | exact keeps_of_eq (by assumption) (by assumption) | (refine keeps_of_eq (by assumption) ?_)
      | (refine keeps_of_eq3 (by assumption) ?_) | apply keeps_mk2 | dsimp only)


theorem keeps_readSet {slot : Nat} {d : List Byte} (h0 : Keeps s0 s) : Keeps s0 (State.readSet s slot d).2 := by
  unfold State.readSet
  try dsimp -iota -proj only
  repeat' with_reducible (first
    | assumption | apply keeps_anvilRead | apply keeps_checkSet | apply keeps_ite | apply keeps_ite2 | intro _ | split
      | exact keeps_of_eq (by assumption) (by assumption) | (refine keeps_of_eq (by assumption) ?_)
      | (refine keeps_of_eq3 (by assumption) ?_) | apply keeps_mk2 | dsimp only)


theorem keepsR_execTemperCommit (h0 : Keeps s0 s) : KeepsR s0 (execTemperCommit s) := by
  unfold execTemperCommit
  repeat' with_reducible (first
    | assumption | apply keeps_readSet | apply keeps_takeCommand | apply keeps_withBlock | apply keepsR_done | apply keepsR_ite
      | apply keeps_ite | apply keeps_ite2 | apply keepsR_done | apply keepsR_fault | intro _ | split
      | exact keeps_of_eq (by assumption) (by assumption) | (refine keeps_of_eq (by assumption) ?_)
      | (refine keeps_of_eq3 (by assumption) ?_) | dsimp only)


theorem keepsR_execTemperCommitDrained (h0 : Keeps s0 s) : KeepsR s0 (execTemperCommitDrained s) := by
  unfold execTemperCommitDrained
  repeat' with_reducible (first
    | assumption | apply keeps_commitDone | apply keeps_finish | apply keeps_settle | apply keepsR_done | apply keepsR_ite
      | apply keeps_ite | apply keeps_ite2 | apply keepsR_done | apply keepsR_fault | intro _ | split
      | exact keeps_of_eq (by assumption) (by assumption) | (refine keeps_of_eq (by assumption) ?_)
      | (refine keeps_of_eq3 (by assumption) ?_) | dsimp only)


theorem keeps_setBright {b1 : Nat} {r : Nat} {k0 : Nat} (h0 : Keeps s0 s) : Keeps s0 (State.setBright s b1 r k0) := by
  unfold State.setBright
  try dsimp -iota -proj only
  repeat' with_reducible (first
    | assumption | apply keeps_modAnv | intro _ | dsimp only)


theorem keepsR_execBrightness (h0 : Keeps s0 s) : KeepsR s0 (execBrightness s) := by
  unfold execBrightness
  try dsimp -iota -proj only
  repeat' with_reducible (first
    | assumption | apply keeps_mirror | apply keeps_setBright | apply keeps_takeCommand | apply keeps_withBlock
      | apply keepsR_done | apply keepsR_ite | apply keeps_ite | apply keeps_ite2 | apply keepsR_done | apply keepsR_fault
      | intro _ | split | exact keeps_of_eq (by assumption) (by assumption) | (refine keeps_of_eq (by assumption) ?_)
      | (refine keeps_of_eq3 (by assumption) ?_) | dsimp only)


theorem keeps_deadWord {st : Nat} {on : Bool} {mask : Nat} {w : Nat} (h0 : Keeps s0 s) : Keeps s0 (State.deadWord st s on mask w).2 := by
  unfold State.deadWord
  try dsimp -iota -proj only
  repeat' with_reducible (first
    | assumption | apply keeps_readMem | apply keeps_writeMem | apply keeps_ite | apply keeps_ite2 | intro _ | split
      | exact keeps_of_eq (by assumption) (by assumption) | (refine keeps_of_eq (by assumption) ?_)
      | (refine keeps_of_eq3 (by assumption) ?_) | apply keeps_mk2 | dsimp only)


theorem keeps_deadBits {on : Bool} {port : Nat} {mask : Nat} {first : Nat} {count : Nat} (h0 : Keeps s0 s) : Keeps s0 (State.deadBits s on port mask first count).2 := by
  unfold State.deadBits
  try dsimp -iota -proj only
  repeat' with_reducible (first
    | assumption | apply keeps_deadWord | apply keeps_foldl | apply keeps_foldl_pair | intro _ | apply keeps_mk2 | dsimp only)


theorem keeps_deadCommand {op : Nat} {on : Bool} (h0 : Keeps s0 s) : Keeps s0 (State.deadCommand s op on) := by
  unfold State.deadCommand
  try dsimp -iota -proj only
  repeat' with_reducible (first
    | assumption | apply keeps_deadBits | apply keeps_mirror | apply keeps_takeCommand | apply keeps_withBlock | apply keeps_ite
      | apply keeps_ite2 | intro _ | split | exact keeps_of_eq (by assumption) (by assumption)
      | (refine keeps_of_eq (by assumption) ?_) | (refine keeps_of_eq3 (by assumption) ?_) | dsimp only)


theorem keepsR_execDeadSet (h0 : Keeps s0 s) : KeepsR s0 (execDeadSet s) := by
  unfold execDeadSet
  repeat' with_reducible (first
    | assumption | apply keeps_deadCommand | apply keepsR_done | apply keepsR_done | apply keepsR_fault | intro _ | dsimp only)


theorem keepsR_execDeadClear (h0 : Keeps s0 s) : KeepsR s0 (execDeadClear s) := by
  unfold execDeadClear
  repeat' with_reducible (first
    | assumption | apply keeps_deadCommand | apply keepsR_done | apply keepsR_done | apply keepsR_fault | intro _ | dsimp only)


theorem keepsR_execGreySet (h0 : Keeps s0 s) : KeepsR s0 (execGreySet s) := by
  unfold execGreySet
  try dsimp -iota -proj only
  repeat' with_reducible (first
    | assumption | apply keeps_greyFigures | apply keeps_gridChanged | apply keeps_judgeSync | apply keeps_modAnv
      | apply keeps_takeCommand | apply keeps_withBlock | apply keepsR_done | apply keepsR_ite | apply keeps_ite
      | apply keeps_ite2 | apply keepsR_done | apply keepsR_fault | intro _ | split
      | exact keeps_of_eq (by assumption) (by assumption) | (refine keeps_of_eq (by assumption) ?_)
      | (refine keeps_of_eq3 (by assumption) ?_) | dsimp only)


end Sys2Proof.Machine
end

