-- ==== Sys2Proof/Laws/KeepsKeystore.lean ====
section
/-! SUPPORT. What the operations of Machine/Keystore.lean keep. -/

set_option linter.unusedTactic false
set_option linter.unreachableTactic false

namespace Sys2Proof.Machine

variable {s0 s : State}

theorem keeps_random {n : Nat} (h0 : Keeps s0 s) : Keeps s0 (State.random s n).2 := by
  unfold State.random
  repeat' with_reducible (first
    | assumption | apply keeps_drawn | intro _ | apply keeps_mk2 | dsimp only)


theorem keeps_keyCount (h0 : Keeps s0 s) : Keeps s0 (State.keyCount s) := by
  unfold State.keyCount
  repeat' with_reducible (first
    | assumption | apply keeps_setFld | intro _ | dsimp only)


theorem keeps_keyCommit {slot : Nat} {attr : Nat} {key : List Byte} {counter : Nat} (h0 : Keeps s0 s) : Keeps s0 (State.keyCommit s slot attr key counter) := by
  unfold State.keyCommit
  try dsimp -iota -proj only
  repeat' with_reducible (first
    | assumption | apply keeps_audit | apply keeps_bump | apply keeps_keyCount | apply keeps_lower | apply keeps_raise
      | apply keeps_setKeySlot | apply keeps_wrapFld | intro _ | dsimp only)


theorem keeps_keyDamage {slot : Nat} (h0 : Keeps s0 s) : Keeps s0 (State.keyDamage s slot) := by
  unfold State.keyDamage
  try dsimp -iota -proj only
  repeat' with_reducible (first
    | assumption | apply keeps_bump | apply keeps_raise | apply keeps_setKeySlot | apply keeps_ite | apply keeps_ite2 | intro _
      | split | dsimp only)


theorem keeps_keyAuthFailed (h0 : Keeps s0 s) : Keeps s0 (State.keyAuthFailed s) := by
  unfold State.keyAuthFailed
  repeat' with_reducible (first
    | assumption | apply keeps_bump | apply keeps_life | intro _ | dsimp only)


theorem keeps_keyGuard {f : State → State} (hf : ∀  u, Keeps s0 u → Keeps s0 (f u)) (h0 : Keeps s0 s) : Keeps s0 (State.keyGuard s f) := by
  unfold State.keyGuard
  try dsimp -iota -proj only
  repeat' with_reducible (first
    | assumption | apply keeps_auditWait | apply hf | apply keeps_ite | apply keeps_ite2 | intro _ | split | dsimp only)


theorem keeps_keyRead {a : Nat} {len : Nat} (h0 : Keeps s0 s) : Keeps s0 (State.keyRead s a len).2 := by
  unfold State.keyRead
  try dsimp -iota -proj only
  repeat' with_reducible (first
    | assumption | apply keeps_readMem | apply keeps_ite | apply keeps_ite2 | intro _ | split
      | exact keeps_of_eq (by assumption) (by assumption) | (refine keeps_of_eq (by assumption) ?_)
      | (refine keeps_of_eq3 (by assumption) ?_) | apply keeps_mk2 | dsimp only)


theorem keeps_keyStore {a : Nat} {bs : List Byte} (h0 : Keeps s0 s) : Keeps s0 (State.keyStore s a bs).2 := by
  unfold State.keyStore
  try dsimp -iota -proj only
  repeat' with_reducible (first
    | assumption | apply keeps_writeMem | intro _ | split | exact keeps_of_eq (by assumption) (by assumption)
      | (refine keeps_of_eq (by assumption) ?_) | (refine keeps_of_eq3 (by assumption) ?_) | apply keeps_mk2 | dsimp only)


theorem keeps_keyFill {dest : Nat} {attr : Nat} {blk : List Byte} {key : List Byte} {readback : Bool} (h0 : Keeps s0 s) : Keeps s0 (State.keyFill s dest attr blk key readback).2 := by
  unfold State.keyFill
  try dsimp -iota -proj only
  repeat' with_reducible (first
    | assumption | apply keeps_keyAuthFailed | apply keeps_keyCommit | apply keeps_ite | apply keeps_ite2 | intro _ | split
      | apply keeps_mk2 | dsimp only)


theorem keeps_keyFillCommand {op : Nat} {types : List Nat} {wrong : Nat × Nat} {readback : Bool} {obtain_ : List Byte → List Byte → Nat → State → Except (Nat × Nat) (List Byte) × State} (hobtain_ : ∀ x0 x1 x2 u, Keeps s0 u → Keeps s0 (obtain_ x0 x1 x2 u).2) (h0 : Keeps s0 s) : Keeps s0 (State.keyFillCommand s op types wrong readback obtain_) := by
  unfold State.keyFillCommand
  try dsimp -iota -proj only
  repeat' with_reducible (first
    | assumption | apply keeps_keyFill | apply keeps_keyGuard | apply keeps_takeCommand | apply keeps_withBlock | apply hobtain_
      | apply keeps_ite | apply keeps_ite2 | intro _ | split | exact keeps_of_eq (by assumption) (by assumption)
      | (refine keeps_of_eq (by assumption) ?_) | (refine keeps_of_eq3 (by assumption) ?_) | dsimp only)


theorem keeps_keyWriteData {desc : List Byte} {blk : List Byte} {len : Nat} (h0 : Keeps s0 s) : Keeps s0 (State.keyWriteData desc blk len s).2 := by
  unfold State.keyWriteData
  try dsimp -iota -proj only
  repeat' with_reducible (first
    | assumption | apply keeps_keyAuthFailed | apply keeps_keyRead | apply keeps_keyRefused | apply keeps_keyRequest
      | apply keeps_ite | apply keeps_ite2 | intro _ | split | exact keeps_of_eq (by assumption) (by assumption)
      | (refine keeps_of_eq (by assumption) ?_) | (refine keeps_of_eq3 (by assumption) ?_) | apply keeps_mk2 | dsimp only)


theorem keeps_deriveData {desc : List Byte} {blk : List Byte} {hkdf : Bool} (h0 : Keeps s0 s) : Keeps s0 (State.deriveData desc blk hkdf s).2 := by
  unfold State.deriveData
  try dsimp -iota -proj only
  repeat' with_reducible (first
    | assumption | apply keeps_keyRead | apply keeps_ite | apply keeps_ite2 | intro _ | split
      | exact keeps_of_eq (by assumption) (by assumption) | (refine keeps_of_eq (by assumption) ?_)
      | (refine keeps_of_eq3 (by assumption) ?_) | apply keeps_mk2 | dsimp only)


theorem keepsR_execKeyWrite {readback : Bool} (h0 : Keeps s0 s) : KeepsR s0 (execKeyWrite readback s) := by
  unfold execKeyWrite
  repeat' with_reducible (first
    | assumption | apply keeps_keyFillCommand | apply keeps_keyWriteData | apply keepsR_done | apply keepsR_done
      | apply keepsR_fault | intro _ | dsimp only)


theorem keepsR_execKeyGenerate {readback : Bool} (h0 : Keeps s0 s) : KeepsR s0 (execKeyGenerate readback s) := by
  unfold execKeyGenerate
  try dsimp -iota -proj only
  repeat' with_reducible (first
    | assumption | apply keeps_keyFillCommand | apply keeps_random | apply keepsR_done | apply keepsR_done | apply keepsR_fault
      | intro _ | split | exact keeps_of_eq (by assumption) (by assumption) | (refine keeps_of_eq (by assumption) ?_)
      | (refine keeps_of_eq3 (by assumption) ?_) | dsimp only)


theorem keepsR_execKeyDeriveHkdf {readback : Bool} (h0 : Keeps s0 s) : KeepsR s0 (execKeyDeriveHkdf readback s) := by
  unfold execKeyDeriveHkdf
  repeat' with_reducible (first
    | assumption | apply keeps_deriveData | apply keeps_keyFillCommand | apply keepsR_done | apply keepsR_done
      | apply keepsR_fault | intro _ | split | exact keeps_of_eq (by assumption) (by assumption)
      | (refine keeps_of_eq (by assumption) ?_) | (refine keeps_of_eq3 (by assumption) ?_) | dsimp only)


theorem keepsR_execKeyDerive108 {readback : Bool} (h0 : Keeps s0 s) : KeepsR s0 (execKeyDerive108 readback s) := by
  unfold execKeyDerive108
  repeat' with_reducible (first
    | assumption | apply keeps_deriveData | apply keeps_keyFillCommand | apply keepsR_done | apply keepsR_done
      | apply keepsR_fault | intro _ | split | exact keeps_of_eq (by assumption) (by assumption)
      | (refine keeps_of_eq (by assumption) ?_) | (refine keeps_of_eq3 (by assumption) ?_) | dsimp only)


theorem keepsR_execKeyAttr (h0 : Keeps s0 s) : KeepsR s0 (execKeyAttr s) := by
  unfold execKeyAttr
  try dsimp -iota -proj only
  repeat' with_reducible (first
    | assumption | apply keeps_keyCommit | apply keeps_keyGuard | apply keeps_takeCommand | apply keeps_withBlock
      | apply keepsR_done | apply keepsR_ite | apply keeps_ite | apply keeps_ite2 | apply keepsR_done | apply keepsR_fault
      | intro _ | split | dsimp only)


theorem keepsR_execKeyErase (h0 : Keeps s0 s) : KeepsR s0 (execKeyErase s) := by
  unfold execKeyErase
  try dsimp -iota -proj only
  repeat' with_reducible (first
    | assumption | apply keeps_keyCommit | apply keeps_keyGuard | apply keeps_takeCommand | apply keepsR_done | apply keepsR_ite
      | apply keeps_ite | apply keeps_ite2 | apply keepsR_done | apply keepsR_fault | intro _ | split | dsimp only)


theorem keepsR_execKeyInfo {bad : Bool} (h0 : Keeps s0 s) : KeepsR s0 (execKeyInfo bad s) := by
  unfold execKeyInfo
  try dsimp -iota -proj only
  repeat' with_reducible (first
    | assumption | apply keeps_drawn | apply keeps_keyDamage | apply keeps_takeCommand | apply keepsR_done | apply keepsR_ite
      | apply keeps_ite | apply keeps_ite2 | apply keepsR_done | apply keepsR_fault | intro _ | split | dsimp only)


theorem keeps_service {op : Nat} {types : List Nat} {bad : Bool} {run : List Byte → List Byte → List Byte → List Byte → State → Nat × Nat × State} (hrun : ∀ x0 x1 x2 x3 u, Keeps s0 u → Keeps s0 (run x0 x1 x2 x3 u).2.2) (h0 : Keeps s0 s) : Keeps s0 (State.service s op types bad run) := by
  unfold State.service
  try dsimp -iota -proj only
  repeat' with_reducible (first
    | assumption | apply keeps_bump | apply keeps_keyDamage | apply keeps_keyRead | apply keeps_keyRefused
      | apply keeps_keyRequest | apply keeps_takeCommand | apply keeps_withBlock | apply hrun | apply keeps_ite | apply keeps_ite2
      | intro _ | split | exact keeps_of_eq (by assumption) (by assumption) | (refine keeps_of_eq (by assumption) ?_)
      | (refine keeps_of_eq3 (by assumption) ?_) | dsimp only)


theorem keepsR_execHmacGen {bad : Bool} (h0 : Keeps s0 s) : KeepsR s0 (execHmacGen bad s) := by
  unfold execHmacGen
  try dsimp -iota -proj only
  repeat' with_reducible (first
    | assumption | apply keeps_keyStore | apply keeps_service | apply keepsR_done | apply keepsR_done | apply keepsR_fault
      | intro _ | split | exact keeps_of_eq (by assumption) (by assumption) | (refine keeps_of_eq (by assumption) ?_)
      | (refine keeps_of_eq3 (by assumption) ?_) | dsimp only)


theorem keeps_verdict {ok : Bool} (h0 : Keeps s0 s) : Keeps s0 (State.verdict s ok).2.2 := by
  unfold State.verdict
  repeat' with_reducible (first
    | assumption | apply keeps_keyAuthFailed | apply keeps_ite | apply keeps_ite2 | apply keeps_ite3 | intro _ | split
      | apply keeps_mk3 | dsimp only)


theorem keepsR_execHmacVerify {bad : Bool} (h0 : Keeps s0 s) : KeepsR s0 (execHmacVerify bad s) := by
  unfold execHmacVerify
  repeat' with_reducible (first
    | assumption | apply keeps_keyRead | apply keeps_service | apply keeps_verdict | apply keepsR_done | apply keepsR_done
      | apply keepsR_fault | intro _ | split | exact keeps_of_eq (by assumption) (by assumption)
      | (refine keeps_of_eq (by assumption) ?_) | (refine keeps_of_eq3 (by assumption) ?_) | dsimp only)


theorem keepsR_execGcmSeal {bad : Bool} (h0 : Keeps s0 s) : KeepsR s0 (execGcmSeal bad s) := by
  unfold execGcmSeal
  try dsimp -iota -proj only
  repeat' with_reducible (first
    | assumption | apply keeps_keyStore | apply keeps_random | apply keeps_service | apply keeps_setKeySlot | apply keepsR_done
      | apply keepsR_ite | apply keeps_ite | apply keeps_ite2 | apply keepsR_done | apply keepsR_fault | intro _ | split
      | exact keeps_of_eq (by assumption) (by assumption) | (refine keeps_of_eq (by assumption) ?_)
      | (refine keeps_of_eq3 (by assumption) ?_) | dsimp only)


theorem keepsR_execGcmOpen {bad : Bool} (h0 : Keeps s0 s) : KeepsR s0 (execGcmOpen bad s) := by
  unfold execGcmOpen
  try dsimp -iota -proj only
  repeat' with_reducible (first
    | assumption | apply keeps_keyAuthFailed | apply keeps_keyStore | apply keeps_service | apply keepsR_done | apply keepsR_ite
      | apply keeps_ite | apply keeps_ite2 | apply keepsR_done | apply keepsR_fault | intro _ | split
      | exact keeps_of_eq (by assumption) (by assumption) | (refine keeps_of_eq (by assumption) ?_)
      | (refine keeps_of_eq3 (by assumption) ?_) | dsimp only)


theorem keepsR_execEcdsaVerify {bad : Bool} (h0 : Keeps s0 s) : KeepsR s0 (execEcdsaVerify bad s) := by
  unfold execEcdsaVerify
  repeat' with_reducible (first
    | assumption | apply keeps_keyRead | apply keeps_service | apply keeps_verdict | apply keepsR_done | apply keepsR_done
      | apply keepsR_fault | intro _ | split | exact keeps_of_eq (by assumption) (by assumption)
      | (refine keeps_of_eq (by assumption) ?_) | (refine keeps_of_eq3 (by assumption) ?_) | dsimp only)


theorem keepsR_execRandom (h0 : Keeps s0 s) : KeepsR s0 (execRandom s) := by
  unfold execRandom
  try dsimp -iota -proj only
  repeat' with_reducible (first
    | assumption | apply keeps_bump | apply keeps_keyStore | apply keeps_random | apply keeps_takeCommand | apply keeps_withBlock
      | apply keepsR_done | apply keepsR_ite | apply keeps_ite | apply keeps_ite2 | apply keepsR_done | apply keepsR_fault
      | intro _ | split | exact keeps_of_eq (by assumption) (by assumption) | (refine keeps_of_eq (by assumption) ?_)
      | (refine keeps_of_eq3 (by assumption) ?_) | dsimp only)


theorem keepsR_execKeyRequest {requester : Nat} {slot : Nat} {clear : Bool} {bad : Bool} (h0 : Keeps s0 s) : KeepsR s0 (execKeyRequest requester slot clear bad s) := by
  unfold execKeyRequest
  try dsimp -iota -proj only
  repeat' with_reducible (first
    | assumption | apply keeps_emit | apply keeps_keyDamage | apply keeps_keyRequest | apply keepsR_done | apply keepsR_ite
      | apply keeps_ite | apply keeps_ite2 | apply keepsR_done | apply keepsR_fault | intro _ | split
      | exact keeps_of_eq (by assumption) (by assumption) | (refine keeps_of_eq (by assumption) ?_)
      | (refine keeps_of_eq3 (by assumption) ?_) | dsimp only)


theorem keepsR_execRemask {bad : Bool} (h0 : Keeps s0 s) : KeepsR s0 (execRemask bad s) := by
  unfold execRemask
  try dsimp -iota -proj only
  repeat' with_reducible (first
    | assumption | apply keeps_bump | apply keeps_drawn | apply keeps_keyDamage | apply keeps_modKey | apply keepsR_done
      | apply keepsR_ite | apply keeps_ite | apply keeps_ite2 | apply keepsR_done | apply keepsR_fault | intro _ | split
      | exact keeps_of_eq (by assumption) (by assumption) | (refine keeps_of_eq (by assumption) ?_)
      | (refine keeps_of_eq3 (by assumption) ?_) | dsimp only)


theorem keepsR_execKeyFenceDrained (h0 : Keeps s0 s) : KeepsR s0 (execKeyFenceDrained s) := by
  unfold execKeyFenceDrained
  repeat' with_reducible (first
    | assumption | apply keeps_raise | apply keepsR_done | apply keepsR_ite | apply keeps_ite | apply keeps_ite2
      | apply keepsR_done | apply keepsR_fault | intro _ | split | dsimp only)


theorem keeps_keyCfgWrite {ini : Nat} {w : Word} (h0 : Keeps s0 s) : Keeps s0 (State.keyCfgWrite s ini w) := by
  unfold State.keyCfgWrite
  try dsimp -iota -proj only
  repeat' with_reducible (first
    | assumption | apply keeps_audit | apply keeps_auditWait | apply keeps_raise | apply keeps_setFld | apply keeps_ite
      | apply keeps_ite2 | intro _ | split | dsimp only)


theorem keepsR_execKeyLock {ini : Nat} {w : Word} (h0 : Keeps s0 s) : KeepsR s0 (execKeyLock ini w s) := by
  unfold execKeyLock
  repeat' with_reducible (first
    | assumption | apply keeps_keyCfgWrite | apply keeps_setupAccess | apply keepsR_done | apply keepsR_ite | apply keeps_ite
      | apply keeps_ite2 | apply keepsR_done | apply keepsR_fault | intro _ | split | dsimp only)


theorem keepsR_execRngHealthFail (h0 : Keeps s0 s) : KeepsR s0 (execRngHealthFail s) := by
  unfold execRngHealthFail
  repeat' with_reducible (first
    | assumption | apply keeps_bump | apply keeps_lower | apply keeps_raise | apply keepsR_done | apply keepsR_ite
      | apply keeps_ite | apply keeps_ite2 | apply keepsR_done | apply keepsR_fault | intro _ | split | dsimp only)


theorem keepsR_execRngRecovered (h0 : Keeps s0 s) : KeepsR s0 (execRngRecovered s) := by
  unfold execRngRecovered
  repeat' with_reducible (first
    | assumption | apply keeps_raise | apply keepsR_done | apply keepsR_ite | apply keeps_ite | apply keeps_ite2
      | apply keepsR_done | apply keepsR_fault | intro _ | split | dsimp only)


end Sys2Proof.Machine
end

