-- ==== Sys2Proof/Laws/KeepsTwin.lean ====
section
/-! SUPPORT. What the operations of Machine/Twin.lean keep. -/

set_option linter.unusedTactic false
set_option linter.unreachableTactic false

namespace Sys2Proof.Machine

variable {s0 s : State}

theorem keeps_answerSwitch {slot : Option Nat} {c : Cpl} (h0 : Keeps s0 s) : Keeps s0 (State.answerSwitch s slot c) := by
  unfold State.answerSwitch
  repeat' with_reducible (first
    | assumption | apply keeps_finish | apply keeps_settle | intro _ | split | exact keeps_of_eq (by assumption) (by assumption)
      | (refine keeps_of_eq (by assumption) ?_) | (refine keeps_of_eq3 (by assumption) ?_) | dsimp only)


theorem keeps_endPass {c : Cpl} (h0 : Keeps s0 s) : Keeps s0 (State.endPass s c) := by
  unfold State.endPass
  try dsimp -iota -proj only
  repeat' with_reducible (first
    | assumption | apply keeps_answerSwitch | apply keeps_modTwn | intro _ | dsimp only)


theorem keeps_linkLost (h0 : Keeps s0 s) : Keeps s0 (State.linkLost s) := by
  unfold State.linkLost
  try dsimp -iota -proj only
  repeat' with_reducible (first
    | assumption | apply keeps_bump | apply keeps_endPass | apply keeps_judgeSync | apply keeps_lower | apply keeps_modTwn
      | apply keeps_raise | intro _ | dsimp only)


theorem keepsR_execTwinLinkTimeout (h0 : Keeps s0 s) : KeepsR s0 (execTwinLinkTimeout s) := by
  unfold execTwinLinkTimeout
  repeat' with_reducible (first
    | assumption | apply keeps_linkLost | apply keepsR_done | apply keepsR_ite | apply keeps_ite | apply keeps_ite2
      | apply keepsR_done | apply keepsR_fault | intro _ | split | dsimp only)


theorem keeps_sendHello (h0 : Keeps s0 s) : Keeps s0 (State.sendHello s) := by
  unfold State.sendHello
  try dsimp -iota -proj only
  repeat' with_reducible (first
    | assumption | apply keeps_linkQueue | apply keeps_modTwn | apply keeps_random | apply keeps_ite | apply keeps_ite2 | intro _
      | split | exact keeps_of_eq (by assumption) (by assumption) | (refine keeps_of_eq (by assumption) ?_)
      | (refine keeps_of_eq3 (by assumption) ?_) | dsimp only)


theorem keepsR_execTwinLinkTrained {ok : Bool} (h0 : Keeps s0 s) : KeepsR s0 (execTwinLinkTrained ok s) := by
  unfold execTwinLinkTrained
  try dsimp -iota -proj only
  repeat' with_reducible (first
    | assumption | apply keeps_linkLost | apply keeps_sendHello | apply keepsR_done | apply keepsR_ite | apply keeps_ite
      | apply keeps_ite2 | apply keepsR_done | apply keepsR_fault | intro _ | split | dsimp only)


theorem keeps_join (h0 : Keeps s0 s) : Keeps s0 (State.join s) := by
  unfold State.join
  try dsimp -iota -proj only
  repeat' with_reducible (first
    | assumption | apply keeps_modTwn | intro _ | dsimp only)


theorem keeps_sendJoin (h0 : Keeps s0 s) : Keeps s0 (State.sendJoin s) := by
  unfold State.sendJoin
  try dsimp -iota -proj only
  repeat' with_reducible (first
    | assumption | apply keeps_linkCopy | apply keeps_foldl | apply keeps_foldl_pair | intro _ | dsimp only)


theorem keeps_tellClass {kind : Nat} {cls : Nat} {tag : Option Nat} (h0 : Keeps s0 s) : Keeps s0 (State.tellClass s kind cls tag) := by
  unfold State.tellClass
  repeat' with_reducible (first
    | assumption | apply keeps_mirrorSend | intro _ | split | exact keeps_of_eq (by assumption) (by assumption)
      | (refine keeps_of_eq (by assumption) ?_) | (refine keeps_of_eq3 (by assumption) ?_) | dsimp only)


theorem keeps_tellSession (h0 : Keeps s0 s) : Keeps s0 (State.tellSession s) := by
  unfold State.tellSession
  try dsimp -iota -proj only
  repeat' with_reducible (first
    | assumption | apply keeps_mirrorPort | apply keeps_tellClass | apply keeps_ite | apply keeps_ite2 | apply keeps_foldl
      | apply keeps_foldl_pair | intro _ | split | dsimp only)


theorem keeps_meetRole {was : Nat} {now : Nat} (h0 : Keeps s0 s) : Keeps s0 (State.meetRole s was now) := by
  unfold State.meetRole
  repeat' with_reducible (first
    | assumption | apply keeps_join | apply keeps_sendJoin | apply keeps_ite | apply keeps_ite2 | intro _ | split | dsimp only)


theorem keeps_meetPeer {b : List Byte} (h0 : Keeps s0 s) : Keeps s0 (State.meetPeer s b) := by
  unfold State.meetPeer
  try dsimp -iota -proj only
  repeat' with_reducible (first
    | assumption | apply keeps_meetRole | apply keeps_modTwn | apply keeps_setReg | apply keeps_tellSession | intro _ | dsimp only)


theorem keepsR_execHello {f : List Byte} (h0 : Keeps s0 s) : KeepsR s0 (execHello f s) := by
  unfold execHello
  try dsimp -iota -proj only
  repeat' with_reducible (first
    | assumption | apply keeps_bump | apply keeps_judgeSync | apply keeps_keyRequest | apply keeps_linkAccept
      | apply keeps_meetPeer | apply keeps_modTwn | apply keeps_raise | apply keepsR_done | apply keepsR_ite | apply keeps_ite
      | apply keeps_ite2 | apply keepsR_done | apply keepsR_fault | intro _ | split
      | exact keeps_of_eq (by assumption) (by assumption) | (refine keeps_of_eq (by assumption) ?_)
      | (refine keeps_of_eq3 (by assumption) ?_) | dsimp only)


theorem keeps_onFrame {type : Nat} {f : List Byte} {k : List Byte → State → State} (hk : ∀ x0 u, Keeps s0 u → Keeps s0 (k x0 u)) (h0 : Keeps s0 s) : Keeps s0 (State.onFrame s type f k) := by
  unfold State.onFrame
  repeat' with_reducible (first
    | assumption | apply keeps_linkAccept | apply hk | intro _ | split | exact keeps_of_eq (by assumption) (by assumption)
      | (refine keeps_of_eq (by assumption) ?_) | (refine keeps_of_eq3 (by assumption) ?_) | dsimp only)


theorem keeps_heartbeat {b : List Byte} (h0 : Keeps s0 s) : Keeps s0 (State.heartbeat s b) := by
  unfold State.heartbeat
  try dsimp -iota -proj only
  repeat' with_reducible (first
    | assumption | apply keeps_judgeSync | apply keeps_meetRole | apply keeps_modTwn | intro _ | dsimp only)


theorem keepsR_execHeartbeat {f : List Byte} {lines : Nat} (h0 : Keeps s0 s) : KeepsR s0 (execHeartbeat f lines s) := by
  unfold execHeartbeat
  try dsimp -iota -proj only
  repeat' with_reducible (first
    | assumption | apply keeps_heartbeat | apply keeps_onFrame | apply keeps_seePeerClaim | apply keepsR_done | apply keepsR_ite
      | apply keeps_ite | apply keeps_ite2 | apply keepsR_done | apply keepsR_fault | intro _ | split | dsimp only)


theorem keepsR_execHeartbeatSend (h0 : Keeps s0 s) : KeepsR s0 (execHeartbeatSend s) := by
  unfold execHeartbeatSend
  repeat' with_reducible (first
    | assumption | apply keeps_linkSend | apply keepsR_done | apply keepsR_done | apply keepsR_fault | intro _ | dsimp only)


theorem keepsR_execTimecmpSend (h0 : Keeps s0 s) : KeepsR s0 (execTimecmpSend s) := by
  unfold execTimecmpSend
  try dsimp -iota -proj only
  repeat' with_reducible (first
    | assumption | apply keeps_linkQueue | apply keepsR_done | apply keepsR_ite | apply keeps_ite | apply keeps_ite2
      | apply keepsR_done | apply keepsR_fault | intro _ | split | dsimp only)


theorem keeps_newDelta {t1 : Nat} {t2 : Nat} {t3 : Nat} {t4 : Nat} (h0 : Keeps s0 s) : Keeps s0 (State.newDelta s t1 t2 t3 t4) := by
  unfold State.newDelta
  try dsimp -iota -proj only
  repeat' with_reducible (first
    | assumption | apply keeps_extreme | apply keeps_judgeSync | apply keeps_modTwn | apply keeps_setReg | apply keeps_ite
      | apply keeps_ite2 | intro _ | split | dsimp only)


theorem keepsR_execTimecmp {f : List Byte} {stamp : Nat} {far : Nat} (h0 : Keeps s0 s) : KeepsR s0 (execTimecmp f stamp far s) := by
  unfold execTimecmp
  repeat' with_reducible (first
    | assumption | apply keeps_linkSend | apply keeps_newDelta | apply keeps_onFrame | apply keepsR_done | apply keepsR_ite
      | apply keeps_ite | apply keeps_ite2 | apply keepsR_done | apply keepsR_fault | intro _ | split
      | exact keeps_of_eq (by assumption) (by assumption) | (refine keeps_of_eq (by assumption) ?_)
      | (refine keeps_of_eq3 (by assumption) ?_) | dsimp only)


theorem keeps_freshClass {c : Nat} (h0 : Keeps s0 s) : Keeps s0 (State.freshClass s c) := by
  unfold State.freshClass
  try dsimp -iota -proj only
  repeat' with_reducible (first
    | assumption | apply keeps_modTwn | apply keeps_setFld | intro _ | dsimp only)


theorem keeps_takeDecision {k : Nat} {code : Nat} (h0 : Keeps s0 s) : Keeps s0 (State.takeDecision s k code) := by
  unfold State.takeDecision
  try dsimp -iota -proj only
  repeat' with_reducible (first
    | assumption | apply keeps_admitIfComplete | apply keeps_bump | apply keeps_decide | apply keeps_freshClass
      | apply keeps_judgeSync | apply keeps_modTwn | apply keeps_ite | apply keeps_ite2 | intro _ | split
      | exact keeps_of_eq (by assumption) (by assumption) | (refine keeps_of_eq (by assumption) ?_)
      | (refine keeps_of_eq3 (by assumption) ?_) | dsimp only)


theorem keepsR_execDecision {f : List Byte} (h0 : Keeps s0 s) : KeepsR s0 (execDecision f s) := by
  unfold execDecision
  repeat' with_reducible (first
    | assumption | apply keeps_onFrame | apply keeps_takeDecision | apply keepsR_done | apply keepsR_ite | apply keeps_ite
      | apply keeps_ite2 | apply keepsR_done | apply keepsR_fault | intro _ | split | dsimp only)


theorem keepsR_execStandbyDecisionTimeout {k : Nat} (h0 : Keeps s0 s) : KeepsR s0 (execStandbyDecisionTimeout k s) := by
  unfold execStandbyDecisionTimeout
  try dsimp -iota -proj only
  repeat' with_reducible (first
    | assumption | apply keeps_bump | apply keeps_decide | apply keeps_raise | apply keeps_reach | apply keepsR_done
      | apply keepsR_ite | apply keeps_ite | apply keeps_ite2 | apply keepsR_done | apply keepsR_fault | intro _ | split
      | exact keeps_of_eq (by assumption) (by assumption) | (refine keeps_of_eq (by assumption) ?_)
      | (refine keeps_of_eq3 (by assumption) ?_) | dsimp only)


theorem keeps_staleClass {c : Nat} (h0 : Keeps s0 s) : Keeps s0 (State.staleClass s c) := by
  unfold State.staleClass
  repeat' with_reducible (first
    | assumption | apply keeps_judgeSync | apply keeps_raise | apply keeps_setFld | intro _ | dsimp only)


theorem keepsR_execClassStale {cls : Nat} (h0 : Keeps s0 s) : KeepsR s0 (execClassStale cls s) := by
  unfold execClassStale
  repeat' with_reducible (first
    | assumption | apply keeps_staleClass | apply keepsR_done | apply keepsR_ite | apply keeps_ite | apply keeps_ite2
      | apply keepsR_done | apply keepsR_fault | intro _ | split | dsimp only)


theorem keeps_mirrorBright {b1 : Nat} {r : Nat} {k0 : Nat} (h0 : Keeps s0 s) : Keeps s0 (State.mirrorBright s b1 r k0) := by
  unfold State.mirrorBright
  try dsimp -iota -proj only
  repeat' with_reducible (first
    | assumption | apply keeps_modTwn | apply keeps_setBright | apply keeps_staleClass | apply keeps_ite | apply keeps_ite2
      | intro _ | split | dsimp only)


theorem keeps_followPort {p : Nat} {t : TwinPort} (h0 : Keeps s0 s) : Keeps s0 (State.followPort s p t) := by
  unfold State.followPort
  try dsimp -iota -proj only
  repeat' with_reducible (first
    | assumption | apply keeps_modPort | apply keeps_setFld | apply keeps_setReg | apply keeps_ite | apply keeps_ite2 | intro _
      | split | dsimp only)


theorem keeps_mirrorIn {off : Nat} {data : List Byte} (h0 : Keeps s0 s) : Keeps s0 (State.mirrorIn s off data) := by
  unfold State.mirrorIn
  try dsimp -iota -proj only
  repeat' with_reducible (first
    | assumption | apply keeps_assertSrc | apply keeps_clearSrc | apply keeps_followPort | apply keeps_freshClass
      | apply keeps_judgeSync | apply keeps_modTwn | apply keeps_ite | apply keeps_ite2 | intro _ | split | dsimp only)


theorem keeps_mirrorPixel {t : TemperSet} {b : List Byte} (h0 : Keeps s0 s) : Keeps s0 (State.mirrorPixel t s b) := by
  unfold State.mirrorPixel
  try dsimp -iota -proj only
  repeat' with_reducible (first
    | assumption | apply keeps_modTwn | apply keeps_writeMem | intro _ | dsimp only)


theorem keeps_mirrorAge {data : List Byte} (h0 : Keeps s0 s) : Keeps s0 (State.mirrorAge s data) := by
  unfold State.mirrorAge
  repeat' with_reducible (first
    | assumption | apply keeps_mirrorPixel | apply keeps_foldl | apply keeps_foldl_pair | intro _ | split
      | exact keeps_of_eq (by assumption) (by assumption) | (refine keeps_of_eq (by assumption) ?_)
      | (refine keeps_of_eq3 (by assumption) ?_) | dsimp only)


theorem keeps_ageCopied {join : Bool} {k : Nat} (h0 : Keeps s0 s) : Keeps s0 (State.ageCopied s join k) := by
  unfold State.ageCopied
  try dsimp -iota -proj only
  repeat' with_reducible (first
    | assumption | apply keeps_bump | apply keeps_freshClass | apply keeps_judgeSync | apply keeps_modTwn | apply keeps_ite
      | apply keeps_ite2 | intro _ | split | dsimp only)


theorem keeps_mirrorMap {off : Nat} {data : List Byte} (h0 : Keeps s0 s) : Keeps s0 (State.mirrorMap s off data) := by
  unfold State.mirrorMap
  try dsimp -iota -proj only
  repeat' with_reducible (first
    | assumption | apply keeps_freshClass | apply keeps_judgeSync | apply keeps_modTwn | apply keeps_writeMem | apply keeps_ite
      | apply keeps_ite2 | intro _ | split | dsimp only)


theorem keeps_mirrorDead {b : List Byte} (h0 : Keeps s0 s) : Keeps s0 (State.mirrorDead s b) := by
  unfold State.mirrorDead
  try dsimp -iota -proj only
  repeat' with_reducible (first
    | assumption | apply keeps_deadBits | apply keeps_freshClass | apply keeps_judgeSync | apply keeps_ite | apply keeps_ite2
      | intro _ | split | dsimp only)


theorem keeps_mirrorRegion {c : TwinClass} {off : Nat} {data : List Byte} (h0 : Keeps s0 s) : Keeps s0 (State.mirrorRegion s c off data) := by
  unfold State.mirrorRegion
  try dsimp -iota -proj only
  repeat' with_reducible (first
    | assumption | apply keeps_bump | apply keeps_freshClass | apply keeps_judgeSync | apply keeps_modTwn | apply keeps_writeMem
      | apply keeps_ite | apply keeps_ite2 | intro _ | split | dsimp only)


theorem keeps_askCopy {cls : Nat} (h0 : Keeps s0 s) : Keeps s0 (State.askCopy s cls) := by
  unfold State.askCopy
  repeat' with_reducible (first
    | assumption | apply keeps_mirrorSend | intro _ | dsimp only)


theorem keeps_sendCopy {cls : Nat} (h0 : Keeps s0 s) : Keeps s0 (State.sendCopy s cls) := by
  unfold State.sendCopy
  repeat' with_reducible (first
    | assumption | apply keeps_linkCopy | intro _ | split | exact keeps_of_eq (by assumption) (by assumption)
      | (refine keeps_of_eq (by assumption) ?_) | (refine keeps_of_eq3 (by assumption) ?_) | dsimp only)


theorem keeps_deadCrcSeen {crc : Nat} (h0 : Keeps s0 s) : Keeps s0 (State.deadCrcSeen s crc) := by
  unfold State.deadCrcSeen
  try dsimp -iota -proj only
  repeat' with_reducible (first
    | assumption | apply keeps_linkCopy | apply keeps_mirrorSend | apply keeps_modTwn | apply keeps_ite | apply keeps_ite2
      | intro _ | split | dsimp only)


theorem keeps_classTold {joins : Bool} {cls : Nat} {tag : Option Nat} (h0 : Keeps s0 s) : Keeps s0 (State.classTold s joins cls tag) := by
  unfold State.classTold
  try dsimp -iota -proj only
  repeat' with_reducible (first
    | assumption | apply keeps_judgeSync | apply keeps_linkCopy | apply keeps_modTwn | apply keeps_ite | apply keeps_ite2
      | intro _ | split | exact keeps_of_eq (by assumption) (by assumption) | (refine keeps_of_eq (by assumption) ?_)
      | (refine keeps_of_eq3 (by assumption) ?_) | dsimp only)


theorem keeps_mirrorAbout {cls : Nat} {data : List Byte} (h0 : Keeps s0 s) : Keeps s0 (State.mirrorAbout s cls data) := by
  unfold State.mirrorAbout
  try dsimp -iota -proj only
  repeat' with_reducible (first
    | assumption | apply keeps_ageCopied | apply keeps_classTold | apply keeps_deadCrcSeen | apply keeps_mirrorDead
      | apply keeps_sendCopy | apply keeps_ite | apply keeps_ite2 | intro _ | split
      | exact keeps_of_eq (by assumption) (by assumption) | (refine keeps_of_eq (by assumption) ?_)
      | (refine keeps_of_eq3 (by assumption) ?_) | dsimp only)


theorem keeps_mirrored {cls : Nat} {off : Nat} {data : List Byte} (h0 : Keeps s0 s) : Keeps s0 (State.mirrored s cls off data) := by
  unfold State.mirrored
  repeat' with_reducible (first
    | assumption | apply keeps_mirrorAbout | apply keeps_mirrorAge | apply keeps_mirrorBright | apply keeps_mirrorIn
      | apply keeps_mirrorMap | apply keeps_mirrorRegion | apply keeps_ite | apply keeps_ite2 | intro _ | split
      | exact keeps_of_eq (by assumption) (by assumption) | (refine keeps_of_eq (by assumption) ?_)
      | (refine keeps_of_eq3 (by assumption) ?_) | dsimp only)


theorem keepsR_execMirror {f : List Byte} (h0 : Keeps s0 s) : KeepsR s0 (execMirror f s) := by
  unfold execMirror
  repeat' with_reducible (first
    | assumption | apply keeps_mirrored | apply keeps_onFrame | apply keepsR_done | apply keepsR_done | apply keepsR_fault
      | intro _ | dsimp only)


theorem keepsR_execDigest {f : List Byte} (h0 : Keeps s0 s) : KeepsR s0 (execDigest f s) := by
  unfold execDigest
  try dsimp -iota -proj only
  repeat' with_reducible (first
    | assumption | apply keeps_linkCopy | apply keeps_linkSend | apply keeps_modTwn | apply keeps_onFrame | apply keepsR_done
      | apply keepsR_ite | apply keeps_ite | apply keeps_ite2 | apply keepsR_done | apply keepsR_fault | intro _ | split
      | exact keeps_of_eq (by assumption) (by assumption) | (refine keeps_of_eq (by assumption) ?_)
      | (refine keeps_of_eq3 (by assumption) ?_) | dsimp only)


theorem keepsR_execClassCopy {cls : Nat} (h0 : Keeps s0 s) : KeepsR s0 (execClassCopy cls s) := by
  unfold execClassCopy
  repeat' with_reducible (first
    | assumption | apply keeps_linkCopy | apply keepsR_done | apply keepsR_ite | apply keeps_ite | apply keeps_ite2
      | apply keepsR_done | apply keepsR_fault | intro _ | split | exact keeps_of_eq (by assumption) (by assumption)
      | (refine keeps_of_eq (by assumption) ?_) | (refine keeps_of_eq3 (by assumption) ?_) | dsimp only)


theorem keepsR_execDeadMapCrcSend (h0 : Keeps s0 s) : KeepsR s0 (execDeadMapCrcSend s) := by
  unfold execDeadMapCrcSend
  repeat' with_reducible (first
    | assumption | apply keeps_mirror | apply keepsR_done | apply keepsR_done | apply keepsR_fault | intro _ | dsimp only)


theorem keeps_becomeActive {at_ : Nat} (h0 : Keeps s0 s) : Keeps s0 (State.becomeActive s at_) := by
  unfold State.becomeActive
  try dsimp -iota -proj only
  repeat' with_reducible (first
    | assumption | apply keeps_lastChange | apply keeps_modTwn | apply keeps_setClaim | apply keeps_setReg | apply keeps_setRole
      | intro _ | dsimp only)


theorem keeps_takeLanes {k : Nat} {j : Nat} {from_ : Nat → Nat} (h0 : Keeps s0 s) : Keeps s0 (State.takeLanes s k j from_) := by
  unfold State.takeLanes
  try dsimp -iota -proj only
  repeat' with_reducible (first
    | assumption | apply keeps_modPort | apply keeps_foldl | apply keeps_foldl_pair | intro _ | split
      | exact keeps_of_eq (by assumption) (by assumption) | (refine keeps_of_eq (by assumption) ?_)
      | (refine keeps_of_eq3 (by assumption) ?_) | dsimp only)


theorem keeps_chooseTakeover (h0 : Keeps s0 s) : Keeps s0 (State.chooseTakeover s) := by
  unfold State.chooseTakeover
  try dsimp -iota -proj only
  repeat' with_reducible (first
    | assumption | apply keeps_modTwn | intro _ | dsimp only)


theorem keepsR_execPeerClaimReleased (h0 : Keeps s0 s) : KeepsR s0 (execPeerClaimReleased s) := by
  unfold execPeerClaimReleased
  try dsimp -iota -proj only
  repeat' with_reducible (first
    | assumption | apply keeps_chooseTakeover | apply keeps_modTwn | apply keeps_seePeerClaim | apply keeps_setRole
      | apply keepsR_done | apply keepsR_ite | apply keeps_ite | apply keeps_ite2 | apply keepsR_done | apply keepsR_fault
      | intro _ | split | dsimp only)


theorem keepsR_execClaimFault (h0 : Keeps s0 s) : KeepsR s0 (execClaimFault s) := by
  unfold execClaimFault
  repeat' with_reducible (first
    | assumption | apply keeps_seePeerClaim | apply keepsR_done | apply keepsR_ite | apply keeps_ite | apply keeps_ite2
      | apply keepsR_done | apply keepsR_fault | intro _ | split | dsimp only)


theorem keepsR_execClaimKeeperExpiry (h0 : Keeps s0 s) : KeepsR s0 (execClaimKeeperExpiry s) := by
  unfold execClaimKeeperExpiry
  try dsimp -iota -proj only
  repeat' with_reducible (first
    | assumption | apply keeps_dropClaim | apply keeps_dropHandoff | apply keeps_modTwn | apply keeps_setRole | apply keepsR_done
      | apply keepsR_ite | apply keeps_ite | apply keeps_ite2 | apply keepsR_done | apply keepsR_fault | intro _ | split
      | dsimp only)


theorem keepsR_execHealthLost (h0 : Keeps s0 s) : KeepsR s0 (execHealthLost s) := by
  unfold execHealthLost
  repeat' with_reducible (first
    | assumption | apply keeps_judgeHealth | apply keepsR_done | apply keepsR_done | apply keepsR_fault | intro _ | dsimp only)


theorem keepsR_execHostWatchdogExpiry (h0 : Keeps s0 s) : KeepsR s0 (execHostWatchdogExpiry s) := by
  unfold execHostWatchdogExpiry
  try dsimp -iota -proj only
  repeat' with_reducible (first
    | assumption | apply keeps_judgeHealth | apply keeps_modTwn | apply keepsR_done | apply keepsR_ite | apply keeps_ite
      | apply keeps_ite2 | apply keepsR_done | apply keepsR_fault | intro _ | split | dsimp only)


theorem keeps_kick {w : Word} (h0 : Keeps s0 s) : Keeps s0 (State.kick s w) := by
  unfold State.kick
  try dsimp -iota -proj only
  repeat' with_reducible (first
    | assumption | apply keeps_judgeHealth | apply keeps_modTwn | apply keeps_ite | apply keeps_ite2 | intro _ | split
      | dsimp only)


theorem keepsR_execWatchdogKick {ini : Nat} {w : Word} (h0 : Keeps s0 s) : KeepsR s0 (execWatchdogKick ini w s) := by
  unfold execWatchdogKick
  repeat' with_reducible (first
    | assumption | apply keeps_kick | apply keeps_setupAccess | apply keepsR_done | apply keepsR_done | apply keepsR_fault
      | intro _ | dsimp only)


theorem keepsR_execElectionWaitExpiry {peer : Nat} (h0 : Keeps s0 s) : KeepsR s0 (execElectionWaitExpiry peer s) := by
  unfold execElectionWaitExpiry
  try dsimp -iota -proj only
  repeat' with_reducible (first
    | assumption | apply keeps_seePeerClaim | apply keeps_setClaim | apply keeps_setRole | apply keepsR_done | apply keepsR_ite
      | apply keeps_ite | apply keeps_ite2 | apply keepsR_done | apply keepsR_fault | intro _ | split | dsimp only)


theorem keepsR_execElectionSettle {peer : Nat} (h0 : Keeps s0 s) : KeepsR s0 (execElectionSettle peer s) := by
  unfold execElectionSettle
  try dsimp -iota -proj only
  repeat' with_reducible (first
    | assumption | apply keeps_becomeActive | apply keeps_seePeerClaim | apply keeps_setClaim | apply keeps_setRole
      | apply keepsR_done | apply keepsR_ite | apply keeps_ite | apply keeps_ite2 | apply keepsR_done | apply keepsR_fault
      | intro _ | split | dsimp only)


theorem keepsR_execTimedClaim {peer : Nat} (h0 : Keeps s0 s) : KeepsR s0 (execTimedClaim peer s) := by
  unfold execTimedClaim
  try dsimp -iota -proj only
  repeat' with_reducible (first
    | assumption | apply keeps_seePeerClaim | apply keeps_setClaim | apply keepsR_done | apply keepsR_ite | apply keeps_ite
      | apply keeps_ite2 | apply keepsR_done | apply keepsR_fault | intro _ | split | dsimp only)


theorem keepsR_execTakeoverDrive {peer : Nat} (h0 : Keeps s0 s) : KeepsR s0 (execTakeoverDrive peer s) := by
  unfold execTakeoverDrive
  try dsimp -iota -proj only
  repeat' with_reducible (first
    | assumption | apply keeps_becomeActive | apply keeps_bump | apply keeps_endPass | apply keeps_life | apply keeps_modTwn
      | apply keeps_ownershipEvent | apply keeps_reach | apply keeps_seePeerClaim | apply keeps_takeLanes | apply keepsR_done
      | apply keepsR_ite | apply keeps_ite | apply keeps_ite2 | apply keepsR_done | apply keepsR_fault | intro _ | split
      | exact keeps_of_eq (by assumption) (by assumption) | (refine keeps_of_eq (by assumption) ?_)
      | (refine keeps_of_eq3 (by assumption) ?_) | dsimp only)


theorem keepsR_execSwitch (h0 : Keeps s0 s) : KeepsR s0 (execSwitch s) := by
  unfold execSwitch
  try dsimp -iota -proj only
  repeat' with_reducible (first
    | assumption | apply keeps_linkSend | apply keeps_modTwn | apply keeps_startHandoff | apply keeps_takeCommand
      | apply keepsR_done | apply keepsR_ite | apply keeps_ite | apply keeps_ite2 | apply keepsR_done | apply keepsR_fault
      | intro _ | split | dsimp only)


theorem keeps_handoffTaken {b : List Byte} (h0 : Keeps s0 s) : Keeps s0 (State.handoffTaken s b) := by
  unfold State.handoffTaken
  try dsimp -iota -proj only
  repeat' with_reducible (first
    | assumption | apply keeps_endPass | apply keeps_linkSend | apply keeps_modTwn | apply keeps_setRole | apply keeps_ite
      | apply keeps_ite2 | intro _ | split | dsimp only)


theorem keeps_switchPassed (h0 : Keeps s0 s) : Keeps s0 (State.switchPassed s) := by
  unfold State.switchPassed
  repeat' with_reducible (first
    | assumption | apply keeps_linkSend | apply keeps_startHandoff | apply keeps_ite | apply keeps_ite2 | intro _ | split
      | dsimp only)


theorem keepsR_execHandoff {f : List Byte} (h0 : Keeps s0 s) : KeepsR s0 (execHandoff f s) := by
  unfold execHandoff
  repeat' with_reducible (first
    | assumption | apply keeps_handoffTaken | apply keeps_onFrame | apply keeps_switchPassed | apply keepsR_done
      | apply keepsR_ite | apply keeps_ite | apply keeps_ite2 | apply keepsR_done | apply keepsR_fault | intro _ | split
      | dsimp only)


theorem keeps_abandonHandoff {c : Cpl} (h0 : Keeps s0 s) : Keeps s0 (State.abandonHandoff s c) := by
  unfold State.abandonHandoff
  try dsimp -iota -proj only
  repeat' with_reducible (first
    | assumption | apply keeps_answerSwitch | apply keeps_modTwn | apply keeps_setRole | intro _ | split
      | exact keeps_of_eq (by assumption) (by assumption) | (refine keeps_of_eq (by assumption) ?_)
      | (refine keeps_of_eq3 (by assumption) ?_) | dsimp only)


theorem keeps_passAnswered {result : Nat} (h0 : Keeps s0 s) : Keeps s0 (State.passAnswered s result) := by
  unfold State.passAnswered
  try dsimp -iota -proj only
  repeat' with_reducible (first
    | assumption | apply keeps_endPass | apply keeps_modTwn | apply keeps_setRole | apply keeps_ite | apply keeps_ite2 | intro _
      | split | exact keeps_of_eq (by assumption) (by assumption) | (refine keeps_of_eq (by assumption) ?_)
      | (refine keeps_of_eq3 (by assumption) ?_) | dsimp only)


theorem keepsR_execAck {f : List Byte} (h0 : Keeps s0 s) : KeepsR s0 (execAck f s) := by
  unfold execAck
  try dsimp -iota -proj only
  repeat' with_reducible (first
    | assumption | apply keeps_abandonHandoff | apply keeps_modTwn | apply keeps_onFrame | apply keeps_passAnswered
      | apply keeps_setRole | apply keepsR_done | apply keepsR_ite | apply keeps_ite | apply keeps_ite2 | apply keepsR_done
      | apply keepsR_fault | intro _ | split | exact keeps_of_eq (by assumption) (by assumption)
      | (refine keeps_of_eq (by assumption) ?_) | (refine keeps_of_eq3 (by assumption) ?_) | dsimp only)


theorem keepsR_execHandoffAckTimeout (h0 : Keeps s0 s) : KeepsR s0 (execHandoffAckTimeout s) := by
  unfold execHandoffAckTimeout
  try dsimp -iota -proj only
  repeat' with_reducible (first
    | assumption | apply keeps_abandonHandoff | apply keeps_linkSend | apply keepsR_done | apply keepsR_ite | apply keeps_ite
      | apply keeps_ite2 | apply keepsR_done | apply keepsR_fault | intro _ | split
      | exact keeps_of_eq (by assumption) (by assumption) | (refine keeps_of_eq (by assumption) ?_)
      | (refine keeps_of_eq3 (by assumption) ?_) | dsimp only)


theorem keeps_handAway {h : Handoff} (h0 : Keeps s0 s) : Keeps s0 (State.handAway s h) := by
  unfold State.handAway
  try dsimp -iota -proj only
  repeat' with_reducible (first
    | assumption | apply keeps_answerSwitch | apply keeps_bump | apply keeps_dropClaim | apply keeps_judgeHealth
      | apply keeps_lastChange | apply keeps_life | apply keeps_modTwn | apply keeps_ownershipEvent | apply keeps_reach
      | apply keeps_setRole | intro _ | dsimp only)


theorem keeps_takeHand {h : Handoff} (h0 : Keeps s0 s) : Keeps s0 (State.takeHand s h) := by
  unfold State.takeHand
  try dsimp -iota -proj only
  repeat' with_reducible (first
    | assumption | apply keeps_becomeActive | apply keeps_bump | apply keeps_endPass | apply keeps_life | apply keeps_modTwn
      | apply keeps_ownershipEvent | apply keeps_reach | apply keeps_setRole | apply keeps_takeLanes | apply keeps_ite
      | apply keeps_ite2 | intro _ | split | dsimp only)


theorem keepsR_execHandoffBoundary {peer : Nat} (h0 : Keeps s0 s) : KeepsR s0 (execHandoffBoundary peer s) := by
  unfold execHandoffBoundary
  repeat' with_reducible (first
    | assumption | apply keeps_handAway | apply keeps_seePeerClaim | apply keeps_takeHand | apply keepsR_done | apply keepsR_ite
      | apply keeps_ite | apply keeps_ite2 | apply keepsR_done | apply keepsR_fault | intro _ | split
      | exact keeps_of_eq (by assumption) (by assumption) | (refine keeps_of_eq (by assumption) ?_)
      | (refine keeps_of_eq3 (by assumption) ?_) | dsimp only)


theorem keepsR_execHandoffAbort (h0 : Keeps s0 s) : KeepsR s0 (execHandoffAbort s) := by
  unfold execHandoffAbort
  try dsimp -iota -proj only
  repeat' with_reducible (first
    | assumption | apply keeps_bump | apply keeps_chooseTakeover | apply keeps_modTwn | apply keeps_ownershipEvent
      | apply keeps_raise | apply keepsR_done | apply keepsR_ite | apply keeps_ite | apply keeps_ite2 | apply keepsR_done
      | apply keepsR_fault | intro _ | split | dsimp only)


theorem keeps_addClass {cls : Nat} {tag : Nat} {ms : Nat} {base : Nat} {size : Nat} (h0 : Keeps s0 s) : Keeps s0 (State.addClass s cls tag ms base size) := by
  unfold State.addClass
  try dsimp -iota -proj only
  repeat' with_reducible (first
    | assumption | apply keeps_modTwn | apply keeps_setFld | apply keeps_tellClass | intro _ | dsimp only)


theorem keeps_dropClass {cls : Nat} (h0 : Keeps s0 s) : Keeps s0 (State.dropClass s cls) := by
  unfold State.dropClass
  try dsimp -iota -proj only
  repeat' with_reducible (first
    | assumption | apply keeps_freshClass | apply keeps_judgeSync | apply keeps_mirror | apply keeps_modRad | apply keeps_modTwn
      | apply keeps_setFld | apply keeps_tellClass | intro _ | dsimp only)


theorem keepsR_execClassRegister (h0 : Keeps s0 s) : KeepsR s0 (execClassRegister s) := by
  unfold execClassRegister
  try dsimp -iota -proj only
  repeat' with_reducible (first
    | assumption | apply keeps_addClass | apply keeps_takeCommand | apply keeps_withBlock | apply keepsR_done | apply keepsR_done
      | apply keepsR_fault | intro _ | split | exact keeps_of_eq (by assumption) (by assumption)
      | (refine keeps_of_eq (by assumption) ?_) | (refine keeps_of_eq3 (by assumption) ?_) | dsimp only)


theorem keepsR_execClassRelease (h0 : Keeps s0 s) : KeepsR s0 (execClassRelease s) := by
  unfold execClassRelease
  try dsimp -iota -proj only
  repeat' with_reducible (first
    | assumption | apply keeps_dropClass | apply keeps_takeCommand | apply keepsR_done | apply keepsR_ite | apply keeps_ite
      | apply keeps_ite2 | apply keepsR_done | apply keepsR_fault | intro _ | split | dsimp only)


theorem keepsR_execResync (h0 : Keeps s0 s) : KeepsR s0 (execResync s) := by
  unfold execResync
  try dsimp -iota -proj only
  repeat' with_reducible (first
    | assumption | apply keeps_askCopy | apply keeps_join | apply keeps_judgeSync | apply keeps_takeCommand | apply keepsR_done
      | apply keepsR_ite | apply keeps_ite | apply keeps_ite2 | apply keeps_foldl | apply keeps_foldl_pair | apply keepsR_done
      | apply keepsR_fault | intro _ | split | dsimp only)


end Sys2Proof.Machine
end

