-- ==== Sys2Proof/Laws/KeepsWake.lean ====
section
/-! SUPPORT. What the operations of Machine/Wake.lean keep. -/

set_option linter.unusedTactic false
set_option linter.unreachableTactic false

namespace Sys2Proof.Machine

variable {s0 s : State}

theorem keeps_beginTransition {st : Nat} {byHost : Bool} (h0 : Keeps s0 s) : Keeps s0 (State.beginTransition s st byHost) := by
  unfold State.beginTransition
  try dsimp -iota -proj only
  repeat' with_reducible (first
    | assumption | apply keeps_bump | apply keeps_lower | apply keeps_modBlw | apply keeps_raise | apply keeps_setFld
      | apply keeps_ite | apply keeps_ite2 | intro _ | split | dsimp only)


theorem keeps_leaveDark (h0 : Keeps s0 s) : Keeps s0 (State.leaveDark s) := by
  unfold State.leaveDark
  try dsimp -iota -proj only
  repeat' with_reducible (first
    | assumption | apply keeps_beginTransition | apply keeps_bump | apply keeps_modBlw | apply keeps_raise | intro _ | dsimp only)


theorem keeps_wake {n : Nat} (h0 : Keeps s0 s) : Keeps s0 (State.wake s n) := by
  unfold State.wake
  try dsimp -iota -proj only
  repeat' with_reducible (first
    | assumption | apply keeps_leaveDark | apply keeps_modBlw | apply keeps_setFld | apply keeps_ite | apply keeps_ite2 | intro _
      | split | dsimp only)


end Sys2Proof.Machine
end

