-- ==== Sys2Proof/Laws/KeepsCabinet.lean ====
section
/-! SUPPORT. What the operations of Machine/Cabinet.lean keep. -/

set_option linter.unusedTactic false
set_option linter.unreachableTactic false

namespace Sys2Proof.Machine

variable {s0 s : State}

theorem keeps_cabRaise {n : Nat} {b : Nat} (h0 : Keeps s0 s) : Keeps s0 (State.cabRaise s n b) := by
  unfold State.cabRaise
  repeat' with_reducible (first
    | assumption | apply keeps_raise | intro _ | dsimp only)


theorem keeps_cabRefused {n : Nat} (h0 : Keeps s0 s) : Keeps s0 (State.cabRefused s n) := by
  unfold State.cabRefused
  repeat' with_reducible (first
    | assumption | apply keeps_cabRaise | intro _ | dsimp only)


theorem keeps_canReport {n : Nat} {kind : Nat} {obj : Nat} {w1 : Nat} {f : CanFrame} (h0 : Keeps s0 s) : Keeps s0 (State.canReport s n kind obj w1 f) := by
  unfold State.canReport
  try dsimp -iota -proj only
  repeat' with_reducible (first
    | assumption | apply keeps_bump | apply keeps_cabRaise | apply keeps_report | intro _ | split
      | exact keeps_of_eq (by assumption) (by assumption) | (refine keeps_of_eq (by assumption) ?_)
      | (refine keeps_of_eq3 (by assumption) ?_) | dsimp only)


theorem keeps_canEvent {n : Nat} {kind : Nat} (h0 : Keeps s0 s) : Keeps s0 (State.canEvent s n kind) := by
  unfold State.canEvent
  repeat' with_reducible (first
    | assumption | apply keeps_canReport | intro _ | dsimp only)


theorem keeps_sendEnds {x : CanSend} {detail : Nat} (h0 : Keeps s0 s) : Keeps s0 (State.sendEnds s x detail) := by
  unfold State.sendEnds
  try dsimp -iota -proj only
  repeat' with_reducible (first
    | assumption | apply keeps_cabRaise | apply keeps_canReport | apply keeps_finish | apply keeps_settle | apply keeps_ite
      | apply keeps_ite2 | intro _ | split | exact keeps_of_eq (by assumption) (by assumption)
      | (refine keeps_of_eq (by assumption) ?_) | (refine keeps_of_eq3 (by assumption) ?_) | dsimp only)


theorem keeps_endSends {p : CanSend → Bool} {detail : Nat} (h0 : Keeps s0 s) : Keeps s0 (State.endSends s p detail) := by
  unfold State.endSends
  try dsimp -iota -proj only
  repeat' with_reducible (first
    | assumption | apply keeps_modCab | apply keeps_sendEnds | apply keeps_foldl | apply keeps_foldl_pair | intro _ | dsimp only)


theorem keeps_setObj {n : Nat} {o : Nat} {x : CabObj} (h0 : Keeps s0 s) : Keeps s0 (State.setObj s n o x) := by
  unfold State.setObj
  try dsimp -iota -proj only
  repeat' with_reducible (first
    | assumption | apply keeps_modCab | intro _ | dsimp only)


theorem keeps_arbitrate {n : Nat} (h0 : Keeps s0 s) : Keeps s0 (State.arbitrate s n) := by
  unfold State.arbitrate
  try dsimp -iota -proj only
  repeat' with_reducible (first
    | assumption | apply keeps_endSends | apply keeps_modCab | apply keeps_ite | apply keeps_ite2 | intro _ | split
      | exact keeps_of_eq (by assumption) (by assumption) | (refine keeps_of_eq (by assumption) ?_)
      | (refine keeps_of_eq3 (by assumption) ?_) | dsimp only)


theorem keeps_queueSend {x : CanSend} (h0 : Keeps s0 s) : Keeps s0 (State.queueSend s x) := by
  unfold State.queueSend
  try dsimp -iota -proj only
  repeat' with_reducible (first
    | assumption | apply keeps_arbitrate | apply keeps_modCab | intro _ | dsimp only)


theorem keeps_xcvrSleep {n : Nat} (h0 : Keeps s0 s) : Keeps s0 (State.xcvrSleep s n) := by
  unfold State.xcvrSleep
  try dsimp -iota -proj only
  repeat' with_reducible (first
    | assumption | apply keeps_modCab | apply keeps_setFld | intro _ | dsimp only)


theorem keeps_busQuiet {n : Nat} (h0 : Keeps s0 s) : Keeps s0 (State.busQuiet s n) := by
  unfold State.busQuiet
  repeat' with_reducible (first
    | assumption | apply keeps_endSends | apply keeps_setFld | apply keeps_xcvrSleep | apply keeps_ite | apply keeps_ite2
      | intro _ | split | dsimp only)


theorem keeps_canSleep {n : Nat} (h0 : Keeps s0 s) : Keeps s0 (State.canSleep s n) := by
  unfold State.canSleep
  try dsimp -iota -proj only
  repeat' with_reducible (first
    | assumption | apply keeps_busQuiet | apply keeps_cabRefused | apply keeps_endSends | apply keeps_modCab | apply keeps_ite
      | apply keeps_ite2 | intro _ | split | dsimp only)


theorem keeps_canWakeUp {n : Nat} (h0 : Keeps s0 s) : Keeps s0 (State.canWakeUp s n) := by
  unfold State.canWakeUp
  try dsimp -iota -proj only
  repeat' with_reducible (first
    | assumption | apply keeps_arbitrate | apply keeps_modCab | apply keeps_setFld | apply keeps_ite | apply keeps_ite2 | intro _
      | split | dsimp only)


theorem keeps_canBusOff {n : Nat} (h0 : Keeps s0 s) : Keeps s0 (State.canBusOff s n) := by
  unfold State.canBusOff
  try dsimp -iota -proj only
  repeat' with_reducible (first
    | assumption | apply keeps_bump | apply keeps_cabRaise | apply keeps_canEvent | apply keeps_endSends | apply keeps_raise
      | apply keeps_setFld | intro _ | dsimp only)


theorem keeps_canConfine {n : Nat} {tec : Nat} {rec : Nat} (h0 : Keeps s0 s) : Keeps s0 (State.canConfine s n tec rec) := by
  unfold State.canConfine
  try dsimp -iota -proj only
  repeat' with_reducible (first
    | assumption | apply keeps_bump | apply keeps_cabRaise | apply keeps_canBusOff | apply keeps_canEvent | apply keeps_setFld
      | apply keeps_ite | apply keeps_ite2 | intro _ | split | dsimp only)


theorem keeps_canError {n : Nat} {lec : Nat} {sender : Bool} {exempt : Bool} {heavy : Bool} (h0 : Keeps s0 s) : Keeps s0 (State.canError s n lec sender exempt heavy) := by
  unfold State.canError
  try dsimp -iota -proj only
  repeat' with_reducible (first
    | assumption | apply keeps_bump | apply keeps_canConfine | apply keeps_setFld | apply keeps_ite | apply keeps_ite2 | intro _
      | split | dsimp only)


theorem keepsR_execCanBusError {n : Nat} {lec : Nat} {sender : Bool} {exempt : Bool} {heavy : Bool} (h0 : Keeps s0 s) : KeepsR s0 (execCanBusError n lec sender exempt heavy s) := by
  unfold execCanBusError
  repeat' with_reducible (first
    | assumption | apply keeps_canError | apply keepsR_done | apply keepsR_ite | apply keeps_ite | apply keeps_ite2
      | apply keepsR_done | apply keepsR_fault | intro _ | split | dsimp only)


theorem keeps_canRecover {n : Nat} (h0 : Keeps s0 s) : Keeps s0 (State.canRecover s n) := by
  unfold State.canRecover
  repeat' with_reducible (first
    | assumption | apply keeps_setFld | apply keeps_ite | apply keeps_ite2 | intro _ | split | dsimp only)


theorem keepsR_execRecover {ini : Nat} {n : Nat} (h0 : Keeps s0 s) : KeepsR s0 (execRecover ini n s) := by
  unfold execRecover
  repeat' with_reducible (first
    | assumption | apply keeps_canRecover | apply keeps_setupAccess | apply keepsR_done | apply keepsR_ite | apply keeps_ite
      | apply keeps_ite2 | apply keepsR_done | apply keepsR_fault | intro _ | split | dsimp only)


theorem keepsR_execBusOffRecovered {n : Nat} (h0 : Keeps s0 s) : KeepsR s0 (execBusOffRecovered n s) := by
  unfold execBusOffRecovered
  try dsimp -iota -proj only
  repeat' with_reducible (first
    | assumption | apply keeps_arbitrate | apply keeps_cabRaise | apply keeps_canEvent | apply keeps_lower | apply keeps_setFld
      | apply keepsR_done | apply keepsR_ite | apply keeps_ite | apply keeps_ite2 | apply keepsR_done | apply keepsR_fault
      | intro _ | split | dsimp only)


theorem keeps_objTakes {n : Nat} {o : Nat} {x : CabObj} {f : CanFrame} (h0 : Keeps s0 s) : Keeps s0 (State.objTakes s n o x f) := by
  unfold State.objTakes
  try dsimp -iota -proj only
  repeat' with_reducible (first
    | assumption | apply keeps_bump | apply keeps_cabRaise | apply keeps_canReport | apply keeps_setObj | apply keeps_ite
      | apply keeps_ite2 | intro _ | split | dsimp only)


theorem keeps_observeRail {n : Nat} {f : CanFrame} {g : Nat} {r : Rail} (h0 : Keeps s0 s) : Keeps s0 (State.observeRail s n f g r) := by
  unfold State.observeRail
  try dsimp -iota -proj only
  repeat' with_reducible (first
    | assumption | apply keeps_showRail | apply keeps_ite | apply keeps_ite2 | intro _ | split | dsimp only)


theorem keeps_canReceive {n : Nat} {f : CanFrame} (h0 : Keeps s0 s) : Keeps s0 (State.canReceive s n f) := by
  unfold State.canReceive
  try dsimp -iota -proj only
  repeat' with_reducible (first
    | assumption | apply keeps_bump | apply keeps_canReport | apply keeps_objTakes | apply keeps_observeRail | apply keeps_ite
      | apply keeps_ite2 | apply keeps_foldl | apply keeps_foldl_pair | intro _ | split
      | exact keeps_of_eq (by assumption) (by assumption) | (refine keeps_of_eq (by assumption) ?_)
      | (refine keeps_of_eq3 (by assumption) ?_) | dsimp only)


theorem keepsR_execCanFrameReceived {n : Nat} {f : CanFrame} (h0 : Keeps s0 s) : KeepsR s0 (execCanFrameReceived n f s) := by
  unfold execCanFrameReceived
  repeat' with_reducible (first
    | assumption | apply keeps_bump | apply keeps_canConfine | apply keeps_canError | apply keeps_canReceive | apply keepsR_done
      | apply keepsR_ite | apply keeps_ite | apply keeps_ite2 | apply keepsR_done | apply keepsR_fault | intro _ | split
      | dsimp only)


theorem keeps_objectRead {ini : Nat} {n : Nat} {o : Nat} (h0 : Keeps s0 s) : Keeps s0 (State.objectRead s ini n o) := by
  unfold State.objectRead
  try dsimp -iota -proj only
  repeat' with_reducible (first
    | assumption | apply keeps_setObj | apply keeps_snapshot | intro _ | split | exact keeps_of_eq (by assumption) (by assumption)
      | (refine keeps_of_eq (by assumption) ?_) | (refine keeps_of_eq3 (by assumption) ?_) | dsimp only)


theorem keepsR_execObjectRead {ini : Nat} {n : Nat} {o : Nat} (h0 : Keeps s0 s) : KeepsR s0 (execObjectRead ini n o s) := by
  unfold execObjectRead
  repeat' with_reducible (first
    | assumption | apply keeps_objectRead | apply keeps_setupAccess | apply keepsR_done | apply keepsR_ite | apply keeps_ite
      | apply keeps_ite2 | apply keepsR_done | apply keepsR_fault | intro _ | split | dsimp only)


theorem keeps_canSent {x : CanSend} (h0 : Keeps s0 s) : Keeps s0 (State.canSent s x) := by
  unfold State.canSent
  try dsimp -iota -proj only
  repeat' with_reducible (first
    | assumption | apply keeps_bump | apply keeps_canConfine | apply keeps_canReceive | apply keeps_emit | apply keeps_sendEnds
      | apply keeps_ite | apply keeps_ite2 | intro _ | split | dsimp only)


theorem keeps_canMissed {x : CanSend} {why : Nat} (h0 : Keeps s0 s) : Keeps s0 (State.canMissed s x why) := by
  unfold State.canMissed
  try dsimp -iota -proj only
  repeat' with_reducible (first
    | assumption | apply keeps_bump | apply keeps_modCab | apply keeps_sendEnds | apply keeps_ite | apply keeps_ite2 | intro _
      | split | dsimp only)


theorem keepsR_execCanFrameSent {n : Nat} {outcome : Nat} (h0 : Keeps s0 s) : KeepsR s0 (execCanFrameSent n outcome s) := by
  unfold execCanFrameSent
  try dsimp -iota -proj only
  repeat' with_reducible (first
    | assumption | apply keeps_arbitrate | apply keeps_busQuiet | apply keeps_canMissed | apply keeps_canSent | apply keeps_modCab
      | apply keepsR_done | apply keepsR_ite | apply keeps_ite | apply keeps_ite2 | apply keepsR_done | apply keepsR_fault
      | intro _ | split | exact keeps_of_eq (by assumption) (by assumption) | (refine keeps_of_eq (by assumption) ?_)
      | (refine keeps_of_eq3 (by assumption) ?_) | dsimp only)


theorem keepsR_execPeriodicSend {n : Nat} {o : Nat} (h0 : Keeps s0 s) : KeepsR s0 (execPeriodicSend n o s) := by
  unfold execPeriodicSend
  repeat' with_reducible (first
    | assumption | apply keeps_queueSend | apply keepsR_done | apply keepsR_ite | apply keeps_ite | apply keeps_ite2
      | apply keepsR_done | apply keepsR_fault | intro _ | split | exact keeps_of_eq (by assumption) (by assumption)
      | (refine keeps_of_eq (by assumption) ?_) | (refine keeps_of_eq3 (by assumption) ?_) | dsimp only)


theorem keeps_railMessage {g : Nat} {r : Rail} (h0 : Keeps s0 s) : Keeps s0 (State.railMessage s g r) := by
  unfold State.railMessage
  try dsimp -iota -proj only
  repeat' with_reducible (first
    | assumption | apply keeps_bump | apply keeps_modCab | apply keeps_queueSend | apply keeps_ite | apply keeps_ite2 | intro _
      | split | dsimp only)


theorem keepsR_execRailSetpointMessage {g : Nat} (h0 : Keeps s0 s) : KeepsR s0 (execRailSetpointMessage g s) := by
  unfold execRailSetpointMessage
  repeat' with_reducible (first
    | assumption | apply keeps_railMessage | apply keepsR_done | apply keepsR_ite | apply keeps_ite | apply keeps_ite2
      | apply keepsR_done | apply keepsR_fault | intro _ | split | exact keeps_of_eq (by assumption) (by assumption)
      | (refine keeps_of_eq (by assumption) ?_) | (refine keeps_of_eq3 (by assumption) ?_) | dsimp only)


theorem keepsR_execCanSleep {ini : Nat} {n : Nat} (h0 : Keeps s0 s) : KeepsR s0 (execCanSleep ini n s) := by
  unfold execCanSleep
  repeat' with_reducible (first
    | assumption | apply keeps_canSleep | apply keeps_setupAccess | apply keepsR_done | apply keepsR_ite | apply keeps_ite
      | apply keeps_ite2 | apply keepsR_done | apply keepsR_fault | intro _ | split | dsimp only)


theorem keepsR_execCanWakeWrite {ini : Nat} {n : Nat} (h0 : Keeps s0 s) : KeepsR s0 (execCanWakeWrite ini n s) := by
  unfold execCanWakeWrite
  repeat' with_reducible (first
    | assumption | apply keeps_canWakeUp | apply keeps_setupAccess | apply keepsR_done | apply keepsR_ite | apply keeps_ite
      | apply keeps_ite2 | apply keepsR_done | apply keepsR_fault | intro _ | split | dsimp only)


theorem keepsR_execCanWake {n : Nat} {f : Option CanFrame} (h0 : Keeps s0 s) : KeepsR s0 (execCanWake n f s) := by
  unfold execCanWake
  try dsimp -iota -proj only
  repeat' with_reducible (first
    | assumption | apply keeps_bump | apply keeps_cabRaise | apply keeps_canEvent | apply keeps_wake | apply keepsR_done
      | apply keepsR_ite | apply keeps_ite | apply keeps_ite2 | apply keepsR_done | apply keepsR_fault | intro _ | split
      | exact keeps_of_eq (by assumption) (by assumption) | (refine keeps_of_eq (by assumption) ?_)
      | (refine keeps_of_eq3 (by assumption) ?_) | dsimp only)


theorem keeps_cabDown (h0 : Keeps s0 s) : Keeps s0 (State.cabDown s) := by
  unfold State.cabDown
  try dsimp -iota -proj only
  repeat' with_reducible (first
    | assumption | apply keeps_endSends | apply keeps_modCab | apply keeps_railsOff | apply keeps_ite | apply keeps_ite2
      | apply keeps_foldl | apply keeps_foldl_pair | intro _ | split | dsimp only)


theorem keeps_cabUp (h0 : Keeps s0 s) : Keeps s0 (State.cabUp s) := by
  unfold State.cabUp
  repeat' with_reducible (first
    | assumption | apply keeps_setFld | apply keeps_foldl | apply keeps_foldl_pair | intro _ | dsimp only)


theorem keeps_cabCommand {op : Nat} {k : Nat → Nat → Nat → List Byte → State → Option Cpl × State} (hk : ∀ x0 x1 x2 x3 u, Keeps s0 u → Keeps s0 (k x0 x1 x2 x3 u).2) (h0 : Keeps s0 s) : Keeps s0 (State.cabCommand s op k) := by
  unfold State.cabCommand
  repeat' with_reducible (first
    | assumption | apply keeps_takeCommand | apply hk | apply keeps_ite | apply keeps_ite2 | intro _ | split | dsimp only)


theorem keepsR_execObjSet (h0 : Keeps s0 s) : KeepsR s0 (execObjSet s) := by
  unfold execObjSet
  try dsimp -iota -proj only
  repeat' with_reducible (first
    | assumption | apply keeps_cabCommand | apply keeps_modCab | apply keeps_setObj | apply keeps_withBlock | apply keepsR_done
      | apply keepsR_ite | apply keeps_ite | apply keeps_ite2 | apply keepsR_done | apply keepsR_fault | intro _ | split
      | exact keeps_of_eq (by assumption) (by assumption) | (refine keeps_of_eq (by assumption) ?_)
      | (refine keeps_of_eq3 (by assumption) ?_) | dsimp only)


theorem keeps_loadSend {n : Nat} {o : Nat} {slot : Nat} {x : CabObj} (h0 : Keeps s0 s) : Keeps s0 (State.loadSend s n o slot x).2 := by
  unfold State.loadSend
  repeat' with_reducible (first
    | assumption | apply keeps_cabRaise | apply keeps_queueSend | apply keeps_ite | apply keeps_ite2 | intro _ | split
      | apply keeps_mk2 | dsimp only)


theorem keepsR_execTxLoad (h0 : Keeps s0 s) : KeepsR s0 (execTxLoad s) := by
  unfold execTxLoad
  try dsimp -iota -proj only
  repeat' with_reducible (first
    | assumption | apply keeps_cabCommand | apply keeps_loadSend | apply keeps_setObj | apply keeps_withBlock | apply keepsR_done
      | apply keepsR_ite | apply keeps_ite | apply keeps_ite2 | apply keepsR_done | apply keepsR_fault | intro _ | split
      | exact keeps_of_eq (by assumption) (by assumption) | (refine keeps_of_eq (by assumption) ?_)
      | (refine keeps_of_eq3 (by assumption) ?_) | dsimp only)


theorem keepsR_execTxAbort (h0 : Keeps s0 s) : KeepsR s0 (execTxAbort s) := by
  unfold execTxAbort
  repeat' with_reducible (first
    | assumption | apply keeps_cabCommand | apply keeps_endSends | apply keepsR_done | apply keepsR_done | apply keepsR_fault
      | intro _ | dsimp only)


theorem keeps_cabCfgWrite {n : Nat} {w : Word} (h0 : Keeps s0 s) : Keeps s0 (State.cabCfgWrite s n w) := by
  unfold State.cabCfgWrite
  try dsimp -iota -proj only
  repeat' with_reducible (first
    | assumption | apply keeps_arbitrate | apply keeps_busQuiet | apply keeps_cabRefused | apply keeps_endSends
      | apply keeps_setFld | apply keeps_setReg | apply keeps_ite | apply keeps_ite2 | intro _ | split | dsimp only)


theorem keeps_cabTimingWrite {n : Nat} {data : Bool} {w : Word} (h0 : Keeps s0 s) : Keeps s0 (State.cabTimingWrite s n data w) := by
  unfold State.cabTimingWrite
  try dsimp -iota -proj only
  repeat' with_reducible (first
    | assumption | apply keeps_cabRefused | apply keeps_setReg | apply keeps_ite | apply keeps_ite2 | intro _ | split | dsimp only)


end Sys2Proof.Machine
end

