-- ==== Sys2Proof/Laws/KeepsCage.lean ====
section
/-! SUPPORT. What the operations of Machine/Cage.lean keep. -/

set_option linter.unusedTactic false
set_option linter.unreachableTactic false

namespace Sys2Proof.Machine

variable {s0 s : State}

theorem keeps_cageMgmtWrite {c : Nat} {w : Word} (h0 : Keeps s0 s) : Keeps s0 (State.cageMgmtWrite s c w) := by
  unfold State.cageMgmtWrite
  try dsimp -iota -proj only
  repeat' with_reducible (first
    | assumption | apply keeps_emit | apply keeps_raise | apply keeps_setFld | apply keeps_ite | apply keeps_ite2 | intro _
      | split | dsimp only)


theorem keepsR_execCageMgmtTransfer {ini : Nat} {c : Nat} {w : Word} (h0 : Keeps s0 s) : KeepsR s0 (execCageMgmtTransfer ini c w s) := by
  unfold execCageMgmtTransfer
  repeat' with_reducible (first
    | assumption | apply keeps_cageMgmtWrite | apply keeps_setupAccess | apply keepsR_done | apply keepsR_ite | apply keeps_ite
      | apply keeps_ite2 | apply keepsR_done | apply keepsR_fault | intro _ | split | dsimp only)


theorem keepsR_execCageMgmtComplete {c : Nat} {ack : Bool} {data : Nat} (h0 : Keeps s0 s) : KeepsR s0 (execCageMgmtComplete c ack data s) := by
  unfold execCageMgmtComplete
  try dsimp -iota -proj only
  repeat' with_reducible (first
    | assumption | apply keeps_lower | apply keeps_setFld | apply keepsR_done | apply keepsR_ite | apply keeps_ite
      | apply keeps_ite2 | apply keepsR_done | apply keepsR_fault | intro _ | split | dsimp only)


theorem keepsR_execCageOvercurrent {c : Nat} (h0 : Keeps s0 s) : KeepsR s0 (execCageOvercurrent c s) := by
  unfold execCageOvercurrent
  repeat' with_reducible (first
    | assumption | apply keeps_raise | apply keepsR_done | apply keepsR_ite | apply keeps_ite | apply keeps_ite2
      | apply keepsR_done | apply keepsR_fault | intro _ | split | dsimp only)


theorem keeps_cageWrite {c : Nat} {w : Word} (h0 : Keeps s0 s) : Keeps s0 (State.cageWrite s c w) := by
  unfold State.cageWrite
  try dsimp -iota -proj only
  repeat' with_reducible (first
    | assumption | apply keeps_lower | apply keeps_setReg | apply keeps_ite | apply keeps_ite2 | intro _ | split | dsimp only)


end Sys2Proof.Machine
end

