-- ==== Sys2Proof/Laws/KeepsTimekeeper.lean ====
section
/-! SUPPORT. What the operations of Machine/Timekeeper.lean keep. -/

set_option linter.unusedTactic false
set_option linter.unreachableTactic false

namespace Sys2Proof.Machine

variable {s0 s : State}

theorem keeps_modTport {p : Nat} {f : TmkPort → TmkPort} (h0 : Keeps s0 s) : Keeps s0 (State.modTport s p f) := by
  unfold State.modTport
  try dsimp -iota -proj only
  repeat' with_reducible (first
    | assumption | apply keeps_modTmk | intro _ | dsimp only)


theorem keeps_setCand {p : Nat} {v : Nat} (h0 : Keeps s0 s) : Keeps s0 (State.setCand s p v) := by
  unfold State.setCand
  repeat' with_reducible (first
    | assumption | apply keeps_setFld | intro _ | dsimp only)


theorem keeps_refEvent {event : Nat} (h0 : Keeps s0 s) : Keeps s0 (State.refEvent s event) := by
  unfold State.refEvent
  repeat' with_reducible (first
    | assumption | apply keeps_faultEntry | intro _ | dsimp only)


theorem keeps_holdPhase (h0 : Keeps s0 s) : Keeps s0 (State.holdPhase s) := by
  unfold State.holdPhase
  try dsimp -iota -proj only
  repeat' with_reducible (first
    | assumption | apply keeps_modPll | intro _ | dsimp only)


theorem keeps_pllEnter {v : Nat} (h0 : Keeps s0 s) : Keeps s0 (State.pllEnter s v) := by
  unfold State.pllEnter
  try dsimp -iota -proj only
  repeat' with_reducible (first
    | assumption | apply keeps_holdPhase | apply keeps_modPll | intro _ | split
      | exact keeps_of_eq (by assumption) (by assumption) | (refine keeps_of_eq (by assumption) ?_)
      | (refine keeps_of_eq3 (by assumption) ?_) | dsimp only)


theorem keeps_setServo {v : Nat} (h0 : Keeps s0 s) : Keeps s0 (State.setServo s v) := by
  unfold State.setServo
  try dsimp -iota -proj only
  repeat' with_reducible (first
    | assumption | apply keeps_extreme | apply keeps_judgeDisc | apply keeps_judgeSync | apply keeps_life | apply keeps_modTmk
      | apply keeps_pllEnter | apply keeps_raise | apply keeps_refEvent | apply keeps_setFld | apply keeps_setReg
      | apply keeps_ite | apply keeps_ite2 | intro _ | split | dsimp only)


theorem keeps_showHops (h0 : Keeps s0 s) : Keeps s0 (State.showHops s) := by
  unfold State.showHops
  try dsimp -iota -proj only
  repeat' with_reducible (first
    | assumption | apply keeps_raise | apply keeps_setFld | apply keeps_ite | apply keeps_ite2 | intro _ | split
      | exact keeps_of_eq (by assumption) (by assumption) | (refine keeps_of_eq (by assumption) ?_)
      | (refine keeps_of_eq3 (by assumption) ?_) | dsimp only)


theorem keeps_showStatus (h0 : Keeps s0 s) : Keeps s0 (State.showStatus s) := by
  unfold State.showStatus
  try dsimp -iota -proj only
  repeat' with_reducible (first
    | assumption | apply keeps_setFld | apply keeps_showHops | intro _ | split | exact keeps_of_eq (by assumption) (by assumption)
      | (refine keeps_of_eq (by assumption) ?_) | (refine keeps_of_eq3 (by assumption) ?_) | dsimp only)


theorem keeps_setSel {v : Nat} (h0 : Keeps s0 s) : Keeps s0 (State.setSel s v) := by
  unfold State.setSel
  repeat' with_reducible (first
    | assumption | apply keeps_setFld | intro _ | dsimp only)


theorem keeps_unselect (h0 : Keeps s0 s) : Keeps s0 (State.unselect s) := by
  unfold State.unselect
  repeat' with_reducible (first
    | assumption | apply keeps_setCand | apply keeps_ite | apply keeps_ite2 | intro _ | split
      | exact keeps_of_eq (by assumption) (by assumption) | (refine keeps_of_eq (by assumption) ?_)
      | (refine keeps_of_eq3 (by assumption) ?_) | dsimp only)


theorem keeps_servoFollow (h0 : Keeps s0 s) : Keeps s0 (State.servoFollow s) := by
  unfold State.servoFollow
  try dsimp -iota -proj only
  repeat' with_reducible (first
    | assumption | apply keeps_modTmk | apply keeps_setServo | apply keeps_ite | apply keeps_ite2 | intro _ | split | dsimp only)


theorem keeps_track {p : Nat} (h0 : Keeps s0 s) : Keeps s0 (State.track s p) := by
  unfold State.track
  try dsimp -iota -proj only
  repeat' with_reducible (first
    | assumption | apply keeps_modTmk | apply keeps_servoFollow | apply keeps_setCand | apply keeps_setSel | apply keeps_unselect
      | intro _ | dsimp only)


theorem keeps_enterHoldover (h0 : Keeps s0 s) : Keeps s0 (State.enterHoldover s) := by
  unfold State.enterHoldover
  try dsimp -iota -proj only
  repeat' with_reducible (first
    | assumption | apply keeps_flushSoon | apply keeps_life | apply keeps_modTmk | apply keeps_raise | apply keeps_refEvent
      | apply keeps_setSel | apply keeps_setServo | apply keeps_showStatus | apply keeps_unselect | apply keeps_ite
      | apply keeps_ite2 | intro _ | split | dsimp only)


theorem keeps_bridge {q : Nat} {lost : Option Nat} (h0 : Keeps s0 s) : Keeps s0 (State.bridge s q lost) := by
  unfold State.bridge
  try dsimp -iota -proj only
  repeat' with_reducible (first
    | assumption | apply keeps_holdPhase | apply keeps_modTmk | apply keeps_setSel | intro _ | split
      | exact keeps_of_eq (by assumption) (by assumption) | (refine keeps_of_eq (by assumption) ?_)
      | (refine keeps_of_eq3 (by assumption) ?_) | dsimp only)


theorem keeps_selectTrack {p : Nat} (h0 : Keeps s0 s) : Keeps s0 (State.selectTrack s p) := by
  unfold State.selectTrack
  repeat' with_reducible (first
    | assumption | apply keeps_bridge | apply keeps_enterHoldover | apply keeps_ite | apply keeps_ite2 | intro _ | split
      | exact keeps_of_eq (by assumption) (by assumption) | (refine keeps_of_eq (by assumption) ?_)
      | (refine keeps_of_eq3 (by assumption) ?_) | dsimp only)


theorem keeps_selectBridge {q : Nat} (h0 : Keeps s0 s) : Keeps s0 (State.selectBridge s q) := by
  unfold State.selectBridge
  try dsimp -iota -proj only
  repeat' with_reducible (first
    | assumption | apply keeps_enterHoldover | apply keeps_modTmk | apply keeps_ite | apply keeps_ite2 | intro _ | split
      | exact keeps_of_eq (by assumption) (by assumption) | (refine keeps_of_eq (by assumption) ?_)
      | (refine keeps_of_eq3 (by assumption) ?_) | dsimp only)


theorem keeps_select (h0 : Keeps s0 s) : Keeps s0 (State.select s) := by
  unfold State.select
  try dsimp -iota -proj only
  repeat' with_reducible (first
    | assumption | apply keeps_enterHoldover | apply keeps_selectBridge | apply keeps_selectTrack | apply keeps_showStatus
      | apply keeps_track | apply keeps_ite | apply keeps_ite2 | intro _ | split
      | exact keeps_of_eq (by assumption) (by assumption) | (refine keeps_of_eq (by assumption) ?_)
      | (refine keeps_of_eq3 (by assumption) ?_) | dsimp only)


theorem keeps_judgeCand {p : Nat} (h0 : Keeps s0 s) : Keeps s0 (State.judgeCand s p) := by
  unfold State.judgeCand
  repeat' with_reducible (first
    | assumption | apply keeps_setCand | apply keeps_ite | apply keeps_ite2 | intro _ | split | dsimp only)


theorem keeps_reassess (h0 : Keeps s0 s) : Keeps s0 (State.reassess s) := by
  unfold State.reassess
  repeat' with_reducible (first
    | assumption | apply keeps_judgeCand | apply keeps_select | intro _ | dsimp only)


theorem keeps_stepWall {off : Int} (h0 : Keeps s0 s) : Keeps s0 (State.stepWall s off) := by
  unfold State.stepWall
  try dsimp -iota -proj only
  repeat' with_reducible (first
    | assumption | apply keeps_holdPhase | apply keeps_lower | apply keeps_modNet | apply keeps_modTmk | apply keeps_setWall
      | apply keeps_wallStepped | intro _ | dsimp only)


theorem keeps_stepIfFar {off : Int} (h0 : Keeps s0 s) : Keeps s0 (State.stepIfFar s off) := by
  unfold State.stepIfFar
  repeat' with_reducible (first
    | assumption | apply keeps_lower | apply keeps_raise | apply keeps_stepWall | apply keeps_ite | apply keeps_ite2 | intro _
      | split | dsimp only)


theorem keeps_steerPll {off : Int} {offs : List Int} (h0 : Keeps s0 s) : Keeps s0 (State.steerPll s off offs) := by
  unfold State.steerPll
  try dsimp -iota -proj only
  repeat' with_reducible (first
    | assumption | apply keeps_modPll | apply keeps_ite | apply keeps_ite2 | intro _ | split | dsimp only)


theorem keeps_pullUpdate {filt : Int} (h0 : Keeps s0 s) : Keeps s0 (State.pullUpdate s filt) := by
  unfold State.pullUpdate
  try dsimp -iota -proj only
  repeat' with_reducible (first
    | assumption | apply keeps_modTmk | apply keeps_setServo | apply keeps_ite | apply keeps_ite2 | intro _ | split | dsimp only)


theorem keeps_lockedUpdate {filt : Int} (h0 : Keeps s0 s) : Keeps s0 (State.lockedUpdate s filt) := by
  unfold State.lockedUpdate
  try dsimp -iota -proj only
  repeat' with_reducible (first
    | assumption | apply keeps_modPll | apply keeps_modTmk | apply keeps_setServo | apply keeps_ite | apply keeps_ite2 | intro _
      | split | dsimp only)


theorem keeps_acquireUpdate {offs : List Int} (h0 : Keeps s0 s) : Keeps s0 (State.acquireUpdate s offs) := by
  unfold State.acquireUpdate
  try dsimp -iota -proj only
  repeat' with_reducible (first
    | assumption | apply keeps_modTmk | apply keeps_setServo | apply keeps_ite | apply keeps_ite2 | intro _ | split | dsimp only)


theorem keeps_servoUpdate {p : Nat} (h0 : Keeps s0 s) : Keeps s0 (State.servoUpdate s p) := by
  unfold State.servoUpdate
  try dsimp -iota -proj only
  repeat' with_reducible (first
    | assumption | apply keeps_acquireUpdate | apply keeps_extreme | apply keeps_lockedUpdate | apply keeps_pmc
      | apply keeps_pullUpdate | apply keeps_setReg | apply keeps_showStatus | apply keeps_steerPll | apply keeps_stepIfFar
      | apply keeps_ite | apply keeps_ite2 | intro _ | split | exact keeps_of_eq (by assumption) (by assumption)
      | (refine keeps_of_eq (by assumption) ?_) | (refine keeps_of_eq3 (by assumption) ?_) | dsimp only)


theorem keeps_lostUpdate {p : Nat} {off : Int} (h0 : Keeps s0 s) : Keeps s0 (State.lostUpdate s p off) := by
  unfold State.lostUpdate
  try dsimp -iota -proj only
  repeat' with_reducible (first
    | assumption | apply keeps_incFld | apply keeps_modTmk | apply keeps_setCand | apply keeps_setSel | apply keeps_showStatus
      | apply keeps_ite | apply keeps_ite2 | intro _ | split | dsimp only)


theorem keeps_judgeSpread {p : Nat} (h0 : Keeps s0 s) : Keeps s0 (State.judgeSpread s p) := by
  unfold State.judgeSpread
  repeat' with_reducible (first
    | assumption | apply keeps_setCand | apply keeps_ite | apply keeps_ite2 | intro _ | split | dsimp only)


theorem keeps_takeOffset {p : Nat} {raw2 : Nat} {t1 : Nat} {corr : Int} (h0 : Keeps s0 s) : Keeps s0 (State.takeOffset s p raw2 t1 corr) := by
  unfold State.takeOffset
  try dsimp -iota -proj only
  repeat' with_reducible (first
    | assumption | apply keeps_judgeSpread | apply keeps_lostUpdate | apply keeps_modTport | apply keeps_servoUpdate
      | apply keeps_ite | apply keeps_ite2 | intro _ | split | exact keeps_of_eq (by assumption) (by assumption)
      | (refine keeps_of_eq (by assumption) ?_) | (refine keeps_of_eq3 (by assumption) ?_) | dsimp only)


theorem keeps_ptpTake {p : Nat} {domain : Nat} {k : State → State} (hk : ∀  u, Keeps s0 u → Keeps s0 (k u)) (h0 : Keeps s0 s) : Keeps s0 (State.ptpTake s p domain k) := by
  unfold State.ptpTake
  repeat' with_reducible (first
    | assumption | apply keeps_bump | apply hk | apply keeps_ite | apply keeps_ite2 | intro _ | split | dsimp only)


theorem keepsR_execSync {p : Nat} {m : PtpMsg} {stamp : Nat} (h0 : Keeps s0 s) : KeepsR s0 (execSync p m stamp s) := by
  unfold execSync
  try dsimp -iota -proj only
  repeat' with_reducible (first
    | assumption | apply keeps_bump | apply keeps_modTport | apply keeps_ptpTake | apply keeps_reach | apply keeps_reassess
      | apply keeps_takeOffset | apply keepsR_done | apply keepsR_ite | apply keeps_ite | apply keeps_ite2 | apply keepsR_done
      | apply keepsR_fault | intro _ | split | dsimp only)


theorem keepsR_execFollowUp {p : Nat} {m : PtpMsg} (h0 : Keeps s0 s) : KeepsR s0 (execFollowUp p m s) := by
  unfold execFollowUp
  try dsimp -iota -proj only
  repeat' with_reducible (first
    | assumption | apply keeps_modTport | apply keeps_ptpTake | apply keeps_takeOffset | apply keepsR_done | apply keepsR_ite
      | apply keeps_ite | apply keeps_ite2 | apply keepsR_done | apply keepsR_fault | intro _ | split
      | exact keeps_of_eq (by assumption) (by assumption) | (refine keeps_of_eq (by assumption) ?_)
      | (refine keeps_of_eq3 (by assumption) ?_) | dsimp only)


theorem keepsR_execDelayResp {p : Nat} {m : PtpMsg} (h0 : Keeps s0 s) : KeepsR s0 (execDelayResp p m s) := by
  unfold execDelayResp
  try dsimp -iota -proj only
  repeat' with_reducible (first
    | assumption | apply keeps_modTport | apply keeps_ptpTake | apply keepsR_done | apply keepsR_ite | apply keeps_ite
      | apply keeps_ite2 | apply keepsR_done | apply keepsR_fault | intro _ | split
      | exact keeps_of_eq (by assumption) (by assumption) | (refine keeps_of_eq (by assumption) ?_)
      | (refine keeps_of_eq3 (by assumption) ?_) | dsimp only)


theorem keepsR_execAnnounce {p : Nat} {a : Announce} (h0 : Keeps s0 s) : KeepsR s0 (execAnnounce p a s) := by
  unfold execAnnounce
  try dsimp -iota -proj only
  repeat' with_reducible (first
    | assumption | apply keeps_bump | apply keeps_modTport | apply keeps_ptpTake | apply keeps_reassess | apply keepsR_done
      | apply keepsR_ite | apply keeps_ite | apply keeps_ite2 | apply keepsR_done | apply keepsR_fault | intro _ | split
      | dsimp only)


theorem keepsR_execAnnounceTimeout {p : Nat} (h0 : Keeps s0 s) : KeepsR s0 (execAnnounceTimeout p s) := by
  unfold execAnnounceTimeout
  try dsimp -iota -proj only
  repeat' with_reducible (first
    | assumption | apply keeps_modTport | apply keeps_reassess | apply keepsR_done | apply keepsR_done | apply keepsR_fault
      | intro _ | dsimp only)


theorem keepsR_execSyncTimeout {p : Nat} (h0 : Keeps s0 s) : KeepsR s0 (execSyncTimeout p s) := by
  unfold execSyncTimeout
  try dsimp -iota -proj only
  repeat' with_reducible (first
    | assumption | apply keeps_modTport | apply keeps_reassess | apply keepsR_done | apply keepsR_done | apply keepsR_fault
      | intro _ | dsimp only)


theorem keepsR_execCandidateQualified {p : Nat} (h0 : Keeps s0 s) : KeepsR s0 (execCandidateQualified p s) := by
  unfold execCandidateQualified
  repeat' with_reducible (first
    | assumption | apply keeps_select | apply keeps_setCand | apply keepsR_done | apply keepsR_ite | apply keeps_ite
      | apply keeps_ite2 | apply keepsR_done | apply keepsR_fault | intro _ | split | dsimp only)


theorem keeps_demote {p : Nat} (h0 : Keeps s0 s) : Keeps s0 (State.demote s p) := by
  unfold State.demote
  repeat' with_reducible (first
    | assumption | apply keeps_setCand | apply keeps_ite | apply keeps_ite2 | intro _ | split | dsimp only)


theorem keepsR_execBridgeCommit (h0 : Keeps s0 s) : KeepsR s0 (execBridgeCommit s) := by
  unfold execBridgeCommit
  try dsimp -iota -proj only
  repeat' with_reducible (first
    | assumption | apply keeps_demote | apply keeps_incFld | apply keeps_life | apply keeps_modPll | apply keeps_modTmk
      | apply keeps_raise | apply keeps_refEvent | apply keeps_servoFollow | apply keeps_setCand | apply keeps_setSel
      | apply keeps_showStatus | apply keepsR_done | apply keepsR_ite | apply keeps_ite | apply keeps_ite2 | apply keepsR_done
      | apply keepsR_fault | intro _ | split | exact keeps_of_eq (by assumption) (by assumption)
      | (refine keeps_of_eq (by assumption) ?_) | (refine keeps_of_eq3 (by assumption) ?_) | dsimp only)


theorem keepsR_execLaneSkewMeasured {p : Nat} {skew : Int} (h0 : Keeps s0 s) : KeepsR s0 (execLaneSkewMeasured p skew s) := by
  unfold execLaneSkewMeasured
  try dsimp -iota -proj only
  repeat' with_reducible (first
    | assumption | apply keeps_modTport | apply keeps_raise | apply keeps_reassess | apply keepsR_done | apply keepsR_ite
      | apply keeps_ite | apply keeps_ite2 | apply keepsR_done | apply keepsR_fault | intro _ | split | dsimp only)


theorem keepsR_execPpsEdge {sec : Nat} (h0 : Keeps s0 s) : KeepsR s0 (execPpsEdge sec s) := by
  unfold execPpsEdge
  try dsimp -iota -proj only
  repeat' with_reducible (first
    | assumption | apply keeps_emit | apply keeps_modTmk | apply keeps_reach | apply keepsR_done | apply keepsR_ite
      | apply keeps_ite | apply keeps_ite2 | apply keepsR_done | apply keepsR_fault | intro _ | split | dsimp only)


theorem keeps_tsqAdd {e : TsEntry} (h0 : Keeps s0 s) : Keeps s0 (State.tsqAdd s e) := by
  unfold State.tsqAdd
  try dsimp -iota -proj only
  repeat' with_reducible (first
    | assumption | apply keeps_modTmk | apply keeps_ite | apply keeps_ite2 | intro _ | split
      | exact keeps_of_eq (by assumption) (by assumption) | (refine keeps_of_eq (by assumption) ?_)
      | (refine keeps_of_eq3 (by assumption) ?_) | dsimp only)


theorem keeps_tsqPush {ident : Nat} {port : Nat} {stamp : Nat} (h0 : Keeps s0 s) : Keeps s0 (State.tsqPush s ident port stamp) := by
  unfold State.tsqPush
  try dsimp -iota -proj only
  repeat' with_reducible (first
    | assumption | apply keeps_incFld | apply keeps_pmc | apply keeps_raise | apply keeps_setFld | apply keeps_tsqAdd
      | apply keeps_ite | apply keeps_ite2 | intro _ | split | dsimp only)


theorem keeps_tsqPop {w : Word} (h0 : Keeps s0 s) : Keeps s0 (State.tsqPop s w) := by
  unfold State.tsqPop
  try dsimp -iota -proj only
  repeat' with_reducible (first
    | assumption | apply keeps_modTmk | apply keeps_setFld | apply keeps_ite | apply keeps_ite2 | intro _ | split | dsimp only)


theorem keepsR_execTsqPop {ini : Nat} {w : Word} (h0 : Keeps s0 s) : KeepsR s0 (execTsqPop ini w s) := by
  unfold execTsqPop
  repeat' with_reducible (first
    | assumption | apply keeps_setupAccess | apply keeps_tsqPop | apply keepsR_done | apply keepsR_done | apply keepsR_fault
      | intro _ | dsimp only)


theorem keeps_tmkRefused (h0 : Keeps s0 s) : Keeps s0 (State.tmkRefused s) := by
  unfold State.tmkRefused
  repeat' with_reducible (first
    | assumption | apply keeps_raise | intro _ | dsimp only)


theorem keeps_tmkStop (h0 : Keeps s0 s) : Keeps s0 (State.tmkStop s) := by
  unfold State.tmkStop
  try dsimp -iota -proj only
  repeat' with_reducible (first
    | assumption | apply keeps_judgeCand | apply keeps_modTmk | apply keeps_setSel | apply keeps_setServo | apply keeps_unselect
      | intro _ | dsimp only)


theorem keeps_tmkCfgWrite {w : Word} (h0 : Keeps s0 s) : Keeps s0 (State.tmkCfgWrite s w) := by
  unfold State.tmkCfgWrite
  try dsimp -iota -proj only
  repeat' with_reducible (first
    | assumption | apply keeps_reassess | apply keeps_setReg | apply keeps_setWall | apply keeps_tmkRefused | apply keeps_tmkStop
      | apply keeps_ite | apply keeps_ite2 | intro _ | split | dsimp only)


theorem keepsR_execTmkCfgWrite {ini : Nat} {w : Word} (h0 : Keeps s0 s) : KeepsR s0 (execTmkCfgWrite ini w s) := by
  unfold execTmkCfgWrite
  repeat' with_reducible (first
    | assumption | apply keeps_setupAccess | apply keeps_tmkCfgWrite | apply keepsR_done | apply keepsR_done | apply keepsR_fault
      | intro _ | dsimp only)


theorem keepsR_execExtInputQualified (h0 : Keeps s0 s) : KeepsR s0 (execExtInputQualified s) := by
  unfold execExtInputQualified
  try dsimp -iota -proj only
  repeat' with_reducible (first
    | assumption | apply keeps_raise | apply keeps_setFld | apply keepsR_done | apply keepsR_ite | apply keeps_ite
      | apply keeps_ite2 | apply keepsR_done | apply keepsR_fault | intro _ | split | dsimp only)


theorem keeps_timeUnlock (h0 : Keeps s0 s) : Keeps s0 (State.timeUnlock s) := by
  unfold State.timeUnlock
  repeat' with_reducible (first
    | assumption | apply keeps_judgeHealth | apply keeps_lower | apply keeps_raise | apply keeps_ite | apply keeps_ite2 | intro _
      | split | dsimp only)


theorem keeps_timeInput (h0 : Keeps s0 s) : Keeps s0 (State.timeInput s) := by
  unfold State.timeInput
  repeat' with_reducible (first
    | assumption | apply keeps_timeUnlock | apply keeps_ite | apply keeps_ite2 | intro _ | split | dsimp only)


end Sys2Proof.Machine
end

