-- ==== Sys2Proof/Laws/KeepsSteering.lean ====
section
/-! SUPPORT. What the operations of Machine/Steering.lean keep. -/

set_option linter.unusedTactic false
set_option linter.unreachableTactic false

namespace Sys2Proof.Machine

variable {s0 s : State}

theorem keeps_settleChange {slot : Nat} {c : Cpl} (h0 : Keeps s0 s) : Keeps s0 (State.settleChange s slot c).2 := by
  unfold State.settleChange
  try dsimp -iota -proj only
  repeat' with_reducible (first
    | assumption | apply keeps_modNet | apply keeps_ite | apply keeps_ite2 | intro _ | split | apply keeps_mk2 | dsimp only)


theorem keeps_settled (h0 : Keeps s0 s) : Keeps s0 (State.settled s) := by
  unfold State.settled
  try dsimp -iota -proj only
  repeat' with_reducible (first
    | assumption | apply keeps_finish | apply keeps_modNet | apply keeps_foldl | apply keeps_foldl_pair | intro _ | dsimp only)


theorem keepsR_execRuleWrite (h0 : Keeps s0 s) : KeepsR s0 (execRuleWrite s) := by
  unfold execRuleWrite
  try dsimp -iota -proj only
  repeat' with_reducible (first
    | assumption | apply keeps_modNet | apply keeps_settleChange | apply keeps_takeCommand | apply keeps_withBlock
      | apply keepsR_done | apply keepsR_ite | apply keeps_ite | apply keeps_ite2 | apply keepsR_done | apply keepsR_fault
      | intro _ | split | dsimp only)


theorem keeps_putGroup {n : Nat} {b : List Byte} (h0 : Keeps s0 s) : Keeps s0 (State.putGroup s n b) := by
  unfold State.putGroup
  try dsimp -iota -proj only
  repeat' with_reducible (first
    | assumption | apply keeps_modNet | intro _ | dsimp only)


theorem keepsR_execGroupAdd (h0 : Keeps s0 s) : KeepsR s0 (execGroupAdd s) := by
  unfold execGroupAdd
  try dsimp -iota -proj only
  repeat' with_reducible (first
    | assumption | apply keeps_putGroup | apply keeps_settleChange | apply keeps_takeCommand | apply keeps_withBlock
      | apply keepsR_done | apply keepsR_ite | apply keeps_ite | apply keeps_ite2 | apply keepsR_done | apply keepsR_fault
      | intro _ | split | exact keeps_of_eq (by assumption) (by assumption) | (refine keeps_of_eq (by assumption) ?_)
      | (refine keeps_of_eq3 (by assumption) ?_) | dsimp only)


theorem keepsR_execGroupDelete (h0 : Keeps s0 s) : KeepsR s0 (execGroupDelete s) := by
  unfold execGroupDelete
  try dsimp -iota -proj only
  repeat' with_reducible (first
    | assumption | apply keeps_modNet | apply keeps_settleChange | apply keeps_takeCommand | apply keeps_withBlock
      | apply keepsR_done | apply keepsR_ite | apply keeps_ite | apply keeps_ite2 | apply keepsR_done | apply keepsR_fault
      | intro _ | split | exact keeps_of_eq (by assumption) (by assumption) | (refine keeps_of_eq (by assumption) ?_)
      | (refine keeps_of_eq3 (by assumption) ?_) | dsimp only)


end Sys2Proof.Machine
end

