-- ==== Sys2Proof/Laws/KeepsMacsec.lean ====
section
/-! SUPPORT. What the operations of Machine/Macsec.lean keep. -/

set_option linter.unusedTactic false
set_option linter.unreachableTactic false

namespace Sys2Proof.Machine

variable {s0 s : State}

theorem keeps_advanceRx {ch : Nat} {an : Nat} {pn : Nat} {window : Nat} (h0 : Keeps s0 s) : Keeps s0 (State.advanceRx s ch an pn window) := by
  unfold State.advanceRx
  try dsimp -iota -proj only
  repeat' with_reducible (first
    | assumption | apply keeps_modNet | apply keeps_ite | apply keeps_ite2 | intro _ | split | dsimp only)


theorem keeps_macsecOpen {p : Nat} {f : List Byte} (h0 : Keeps s0 s) : Keeps s0 (State.macsecOpen s p f).2 := by
  unfold State.macsecOpen
  try dsimp -iota -proj only
  repeat' with_reducible (first
    | assumption | apply keeps_advanceRx | apply keeps_ite | apply keeps_ite2 | intro _ | split
      | exact keeps_of_eq (by assumption) (by assumption) | (refine keeps_of_eq (by assumption) ?_)
      | (refine keeps_of_eq3 (by assumption) ?_) | apply keeps_mk2 | dsimp only)


theorem keeps_macsecIn {p : Nat} {f : List Byte} (h0 : Keeps s0 s) : Keeps s0 (State.macsecIn s p f).2 := by
  unfold State.macsecIn
  repeat' with_reducible (first
    | assumption | apply keeps_bump | apply keeps_macsecOpen | apply keeps_ite | apply keeps_ite2 | intro _ | split
      | exact keeps_of_eq (by assumption) (by assumption) | (refine keeps_of_eq (by assumption) ?_)
      | (refine keeps_of_eq3 (by assumption) ?_) | apply keeps_mk2 | dsimp only)


theorem keeps_pnThreshold {p : Nat} {next : Nat} (h0 : Keeps s0 s) : Keeps s0 (State.pnThreshold s p next) := by
  unfold State.pnThreshold
  repeat' with_reducible (first
    | assumption | apply keeps_raise | apply keeps_ite | apply keeps_ite2 | intro _ | split | dsimp only)


theorem keeps_pnCheck {p : Nat} (h0 : Keeps s0 s) : Keeps s0 (State.pnCheck s p) := by
  unfold State.pnCheck
  repeat' with_reducible (first
    | assumption | apply keeps_pnThreshold | intro _ | split | exact keeps_of_eq (by assumption) (by assumption)
      | (refine keeps_of_eq (by assumption) ?_) | (refine keeps_of_eq3 (by assumption) ?_) | dsimp only)


theorem keeps_takePn {p : Nat} (h0 : Keeps s0 s) : Keeps s0 (State.takePn s p).2 := by
  unfold State.takePn
  try dsimp -iota -proj only
  repeat' with_reducible (first
    | assumption | apply keeps_bump | apply keeps_modNet | apply keeps_pnThreshold | apply keeps_raise | apply keeps_ite
      | apply keeps_ite2 | intro _ | split | exact keeps_of_eq (by assumption) (by assumption)
      | (refine keeps_of_eq (by assumption) ?_) | (refine keeps_of_eq3 (by assumption) ?_) | apply keeps_mk2 | dsimp only)


theorem keeps_macsecOut {p : Nat} {f : List Byte} (h0 : Keeps s0 s) : Keeps s0 (State.macsecOut s p f).2 := by
  unfold State.macsecOut
  try dsimp -iota -proj only
  repeat' with_reducible (first
    | assumption | apply keeps_takePn | apply keeps_ite | apply keeps_ite2 | intro _ | split
      | exact keeps_of_eq (by assumption) (by assumption) | (refine keeps_of_eq (by assumption) ?_)
      | (refine keeps_of_eq3 (by assumption) ?_) | apply keeps_mk2 | dsimp only)


theorem keeps_putSa {p : Nat} {an : Nat} {byte3 : Nat} {sci : List Byte} {a : NetSa} (h0 : Keeps s0 s) : Keeps s0 (State.putSa s p an byte3 sci a) := by
  unfold State.putSa
  try dsimp -iota -proj only
  repeat' with_reducible (first
    | assumption | apply keeps_modNet | apply keeps_ite | apply keeps_ite2 | intro _ | split | dsimp only)


theorem keepsR_execSaInstall (h0 : Keeps s0 s) : KeepsR s0 (execSaInstall s) := by
  unfold execSaInstall
  try dsimp -iota -proj only
  repeat' with_reducible (first
    | assumption | apply keeps_keyRefused | apply keeps_keyRequest | apply keeps_pnCheck | apply keeps_putSa
      | apply keeps_takeCommand | apply keeps_withBlock | apply keepsR_done | apply keepsR_ite | apply keeps_ite
      | apply keeps_ite2 | apply keepsR_done | apply keepsR_fault | intro _ | split
      | exact keeps_of_eq (by assumption) (by assumption) | (refine keeps_of_eq (by assumption) ?_)
      | (refine keeps_of_eq3 (by assumption) ?_) | dsimp only)


theorem keepsR_execSaActivateTx (h0 : Keeps s0 s) : KeepsR s0 (execSaActivateTx s) := by
  unfold execSaActivateTx
  try dsimp -iota -proj only
  repeat' with_reducible (first
    | assumption | apply keeps_modNet | apply keeps_pnCheck | apply keeps_takeCommand | apply keepsR_done | apply keepsR_ite
      | apply keeps_ite | apply keeps_ite2 | apply keepsR_done | apply keepsR_fault | intro _ | split | dsimp only)


theorem keeps_dropSa {p : Nat} {an : Nat} {byte3 : Nat} (h0 : Keeps s0 s) : Keeps s0 (State.dropSa s p an byte3) := by
  unfold State.dropSa
  try dsimp -iota -proj only
  repeat' with_reducible (first
    | assumption | apply keeps_modNet | apply keeps_ite | apply keeps_ite2 | intro _ | split | dsimp only)


theorem keepsR_execSaDelete (h0 : Keeps s0 s) : KeepsR s0 (execSaDelete s) := by
  unfold execSaDelete
  try dsimp -iota -proj only
  repeat' with_reducible (first
    | assumption | apply keeps_dropSa | apply keeps_takeCommand | apply keepsR_done | apply keepsR_ite | apply keeps_ite
      | apply keeps_ite2 | apply keepsR_done | apply keepsR_fault | intro _ | split | dsimp only)


end Sys2Proof.Machine
end

