-- ==== Sys2Proof/Laws/KeepsMeter.lean ====
section
/-! SUPPORT. What the operations of Machine/Meter.lean keep. -/

set_option linter.unusedTactic false
set_option linter.unreachableTactic false

namespace Sys2Proof.Machine

variable {s0 s : State}

theorem keeps_accAdd {g : Nat} {k : Nat} {v : Nat} (h0 : Keeps s0 s) : Keeps s0 (State.accAdd s g k v) := by
  unfold State.accAdd
  try dsimp -iota -proj only
  repeat' with_reducible (first
    | assumption | apply keeps_modMtr | intro _ | dsimp only)


theorem keeps_accGroup {g : Nat} {p : Int} {q : Int} {a : Nat} (h0 : Keeps s0 s) : Keeps s0 (State.accGroup s g p q a) := by
  unfold State.accGroup
  try dsimp -iota -proj only
  repeat' with_reducible (first
    | assumption | apply keeps_accAdd | apply keeps_ite | apply keeps_ite2 | intro _ | split | dsimp only)


theorem keeps_meterRestore (h0 : Keeps s0 s) : Keeps s0 (State.meterRestore s) := by
  unfold State.meterRestore
  try dsimp -iota -proj only
  repeat' with_reducible (first
    | assumption | apply keeps_audit | apply keeps_auditWait | apply keeps_modMtr | apply keeps_raise | apply keeps_ite
      | apply keeps_ite2 | intro _ | split | dsimp only)


theorem keeps_meterSave (h0 : Keeps s0 s) : Keeps s0 (State.meterSave s) := by
  unfold State.meterSave
  try dsimp -iota -proj only
  repeat' with_reducible (first
    | assumption | apply keeps_modImg | apply keeps_ite | apply keeps_ite2 | intro _ | split | dsimp only)


theorem keepsR_execMeterSave (h0 : Keeps s0 s) : KeepsR s0 (execMeterSave s) := by
  unfold execMeterSave
  repeat' with_reducible (first
    | assumption | apply keeps_meterSave | apply keepsR_done | apply keepsR_done | apply keepsR_fault | intro _ | dsimp only)


theorem keeps_judgePresence {x : List (List Int)} {n : Nat} (h0 : Keeps s0 s) : Keeps s0 (State.judgePresence s x n) := by
  unfold State.judgePresence
  try dsimp -iota -proj only
  repeat' with_reducible (first
    | assumption | apply keeps_raise | apply keeps_setFld | apply keeps_ite | apply keeps_ite2 | apply keeps_foldl
      | apply keeps_foldl_pair | intro _ | split | dsimp only)


theorem keeps_judgeFreq {f : Nat} (h0 : Keeps s0 s) : Keeps s0 (State.judgeFreq s f) := by
  unfold State.judgeFreq
  try dsimp -iota -proj only
  repeat' with_reducible (first
    | assumption | apply keeps_raise | apply keeps_setFld | apply keeps_setReg | apply keeps_ite | apply keeps_ite2 | intro _
      | split | dsimp only)


theorem keeps_judgeSeq {v : Nat} (h0 : Keeps s0 s) : Keeps s0 (State.judgeSeq s v) := by
  unfold State.judgeSeq
  try dsimp -iota -proj only
  repeat' with_reducible (first
    | assumption | apply keeps_bump | apply keeps_modMtr | apply keeps_raise | apply keeps_setFld | apply keeps_ite
      | apply keeps_ite2 | intro _ | split | dsimp only)


theorem keeps_judgeNeutral {v0 : Nat} (h0 : Keeps s0 s) : Keeps s0 (State.judgeNeutral s v0) := by
  unfold State.judgeNeutral
  try dsimp -iota -proj only
  repeat' with_reducible (first
    | assumption | apply keeps_bump | apply keeps_lower | apply keeps_modMtr | apply keeps_raise | apply keeps_ite
      | apply keeps_ite2 | intro _ | split | dsimp only)


theorem keeps_harmonicBlock {x : List (List Int)} {cycles : Nat} {dur : Nat} {freq : Nat} {exceeds : Bool} (h0 : Keeps s0 s) : Keeps s0 (State.harmonicBlock s x cycles dur freq exceeds) := by
  unfold State.harmonicBlock
  try dsimp -iota -proj only
  repeat' with_reducible (first
    | assumption | apply keeps_bump | apply keeps_modMtr | apply keeps_raise | apply keeps_report | intro _ | split
      | exact keeps_of_eq (by assumption) (by assumption) | (refine keeps_of_eq (by assumption) ?_)
      | (refine keeps_of_eq3 (by assumption) ?_) | dsimp only)


theorem keeps_judgeHarmonics {x : List (List Int)} {cycles : Nat} {dur : Nat} {freq : Nat} {exceeds : Bool} (h0 : Keeps s0 s) : Keeps s0 (State.judgeHarmonics s x cycles dur freq exceeds) := by
  unfold State.judgeHarmonics
  try dsimp -iota -proj only
  repeat' with_reducible (first
    | assumption | apply keeps_harmonicBlock | apply keeps_modMtr | apply keeps_ite | apply keeps_ite2 | intro _ | split
      | dsimp only)


theorem keeps_resultExtremes {m : MtrSum} (h0 : Keeps s0 s) : Keeps s0 (State.resultExtremes s m) := by
  unfold State.resultExtremes
  try dsimp -iota -proj only
  repeat' with_reducible (first
    | assumption | apply keeps_extreme | apply keeps_ite | apply keeps_ite2 | apply keeps_foldl | apply keeps_foldl_pair | intro _
      | split | dsimp only)


theorem keeps_judgeInterval (h0 : Keeps s0 s) : Keeps s0 (State.judgeInterval s) := by
  unfold State.judgeInterval
  try dsimp -iota -proj only
  repeat' with_reducible (first
    | assumption | apply keeps_bump | apply keeps_modMtr | apply keeps_raise | apply keeps_report | apply keeps_resultExtremes
      | apply keeps_ite | apply keeps_ite2 | intro _ | split | exact keeps_of_eq (by assumption) (by assumption)
      | (refine keeps_of_eq (by assumption) ?_) | (refine keeps_of_eq3 (by assumption) ?_) | dsimp only)


theorem keeps_addToInterval {x : List (List Int)} {n : Nat} {dur : Nat} {freq : Nat} {exceeds : Bool} (h0 : Keeps s0 s) : Keeps s0 (State.addToInterval s x n dur freq exceeds) := by
  unfold State.addToInterval
  try dsimp -iota -proj only
  repeat' with_reducible (first
    | assumption | apply keeps_modMtr | intro _ | dsimp only)


theorem keeps_addEnergy {x : List (List Int)} {n : Nat} {dur : Nat} (h0 : Keeps s0 s) : Keeps s0 (State.addEnergy s x n dur) := by
  unfold State.addEnergy
  try dsimp -iota -proj only
  repeat' with_reducible (first
    | assumption | apply keeps_accGroup | intro _ | dsimp only)


theorem keeps_judgePhasors {x : List (List Int)} {cycles : Nat} {dur : Nat} (h0 : Keeps s0 s) : Keeps s0 (State.judgePhasors s x cycles dur) := by
  unfold State.judgePhasors
  try dsimp -iota -proj only
  repeat' with_reducible (first
    | assumption | apply keeps_judgeNeutral | apply keeps_judgeSeq | apply keeps_modMtr | apply keeps_ite | apply keeps_ite2
      | intro _ | split | dsimp only)


theorem keeps_calLoad (h0 : Keeps s0 s) : Keeps s0 (State.calLoad s) := by
  unfold State.calLoad
  try dsimp -iota -proj only
  repeat' with_reducible (first
    | assumption | apply keeps_modMtr | apply keeps_foldl | apply keeps_foldl_pair | intro _ | dsimp only)


theorem keeps_applyCal (h0 : Keeps s0 s) : Keeps s0 (State.applyCal s) := by
  unfold State.applyCal
  try dsimp -iota -proj only
  repeat' with_reducible (first
    | assumption | apply keeps_audit | apply keeps_auditWait | apply keeps_bump | apply keeps_calLoad | apply keeps_lower
      | apply keeps_raise | apply keeps_ite | apply keeps_ite2 | intro _ | split | dsimp only)


theorem keeps_dspSwap (h0 : Keeps s0 s) : Keeps s0 (State.dspSwap s) := by
  unfold State.dspSwap
  try dsimp -iota -proj only
  repeat' with_reducible (first
    | assumption | apply keeps_drawn | apply keeps_modMtr | apply keeps_takeSwap | intro _ | split
      | exact keeps_of_eq (by assumption) (by assumption) | (refine keeps_of_eq (by assumption) ?_)
      | (refine keeps_of_eq3 (by assumption) ?_) | dsimp only)


theorem keepsR_execMeterBlock {x : List (List Int)} {cycles : Nat} {dur : Nat} (h0 : Keeps s0 s) : KeepsR s0 (execMeterBlock x cycles dur s) := by
  unfold execMeterBlock
  try dsimp -iota -proj only
  repeat' with_reducible (first
    | assumption | apply keeps_addEnergy | apply keeps_addToInterval | apply keeps_applyCal | apply keeps_bump | apply keeps_drawn
      | apply keeps_dspSwap | apply keeps_judgeFreq | apply keeps_judgeHarmonics | apply keeps_judgeInterval
      | apply keeps_judgePhasors | apply keeps_judgePresence | apply keeps_meterRestore | apply keeps_modMtr | apply keeps_raise
      | apply keepsR_done | apply keepsR_ite | apply keeps_ite | apply keeps_ite2 | apply keeps_foldl | apply keeps_foldl_pair
      | apply keepsR_done | apply keepsR_fault | intro _ | split | dsimp only)


theorem keepsR_execMeterChannelFault {c : Nat} (h0 : Keeps s0 s) : KeepsR s0 (execMeterChannelFault c s) := by
  unfold execMeterChannelFault
  try dsimp -iota -proj only
  repeat' with_reducible (first
    | assumption | apply keeps_bump | apply keeps_modMtr | apply keeps_raise | apply keeps_setFld | apply keepsR_done
      | apply keepsR_ite | apply keeps_ite | apply keeps_ite2 | apply keepsR_done | apply keepsR_fault | intro _ | split
      | dsimp only)


theorem keepsR_execMeterChannelRecovered {c : Nat} (h0 : Keeps s0 s) : KeepsR s0 (execMeterChannelRecovered c s) := by
  unfold execMeterChannelRecovered
  try dsimp -iota -proj only
  repeat' with_reducible (first
    | assumption | apply keeps_modMtr | apply keeps_setFld | apply keepsR_done | apply keepsR_ite | apply keeps_ite
      | apply keeps_ite2 | apply keepsR_done | apply keepsR_fault | intro _ | split | dsimp only)


theorem keeps_calApply {ini : Nat} {w : Word} (h0 : Keeps s0 s) : Keeps s0 (State.calApply s ini w) := by
  unfold State.calApply
  try dsimp -iota -proj only
  repeat' with_reducible (first
    | assumption | apply keeps_modMtr | apply keeps_raise | apply keeps_ite | apply keeps_ite2 | intro _ | split | dsimp only)


theorem keepsR_execCalApply {ini : Nat} {w : Word} (h0 : Keeps s0 s) : KeepsR s0 (execCalApply ini w s) := by
  unfold execCalApply
  repeat' with_reducible (first
    | assumption | apply keeps_calApply | apply keeps_setupAccess | apply keepsR_done | apply keepsR_done | apply keepsR_fault
      | intro _ | dsimp only)


theorem keepsR_execFmodMeasure {f : Nat} (h0 : Keeps s0 s) : KeepsR s0 (execFmodMeasure f s) := by
  unfold execFmodMeasure
  try dsimp -iota -proj only
  repeat' with_reducible (first
    | assumption | apply keeps_modMtr | apply keeps_setReg | apply keepsR_done | apply keepsR_ite | apply keeps_ite
      | apply keeps_ite2 | apply keepsR_done | apply keepsR_fault | intro _ | split | dsimp only)


theorem keeps_burstChannel {c : Nat} {v : Nat} (h0 : Keeps s0 s) : Keeps s0 (State.burstChannel s c v) := by
  unfold State.burstChannel
  try dsimp -iota -proj only
  repeat' with_reducible (first
    | assumption | apply keeps_modBat | apply keeps_setFld | apply keeps_setReg | apply keeps_ite | apply keeps_ite2 | intro _
      | split | dsimp only)


theorem keeps_burstSkips {c : Nat} (h0 : Keeps s0 s) : Keeps s0 (State.burstSkips s c) := by
  unfold State.burstSkips
  try dsimp -iota -proj only
  repeat' with_reducible (first
    | assumption | apply keeps_modBat | apply keeps_setFld | intro _ | dsimp only)


theorem keeps_judgeTheft (h0 : Keeps s0 s) : Keeps s0 (State.judgeTheft s) := by
  unfold State.judgeTheft
  try dsimp -iota -proj only
  repeat' with_reducible (first
    | assumption | apply keeps_incFld | apply keeps_modBat | apply keeps_raise | apply keeps_wake | apply keeps_ite
      | apply keeps_ite2 | intro _ | split | dsimp only)


theorem keepsR_execBatteryBurst {rms : List Nat} {moved : Bool} (h0 : Keeps s0 s) : KeepsR s0 (execBatteryBurst rms moved s) := by
  unfold execBatteryBurst
  try dsimp -iota -proj only
  repeat' with_reducible (first
    | assumption | apply keeps_burstChannel | apply keeps_burstSkips | apply keeps_incFld | apply keeps_judgeTheft
      | apply keeps_raise | apply keepsR_done | apply keepsR_ite | apply keeps_ite | apply keeps_ite2 | apply keeps_foldl
      | apply keeps_foldl_pair | apply keepsR_done | apply keepsR_fault | intro _ | split | dsimp only)


end Sys2Proof.Machine
end

