-- ==== Sys2Proof/Laws/KeepsNetRx.lean ====
section
/-! SUPPORT. What the operations of Machine/NetRx.lean keep. -/

set_option linter.unusedTactic false
set_option linter.unreachableTactic false

namespace Sys2Proof.Machine

variable {s0 s : State}

theorem keepsR_execLinkUp {p : Nat} (h0 : Keeps s0 s) : KeepsR s0 (execLinkUp p s) := by
  unfold execLinkUp
  try dsimp -iota -proj only
  repeat' with_reducible (first
    | assumption | apply keeps_raise | apply keeps_reassess | apply keepsR_done | apply keepsR_ite | apply keeps_ite
      | apply keeps_ite2 | apply keepsR_done | apply keepsR_fault | intro _ | split | dsimp only)


theorem keeps_portLinkLost {p : Nat} (h0 : Keeps s0 s) : Keeps s0 (State.portLinkLost s p) := by
  unfold State.portLinkLost
  try dsimp -iota -proj only
  repeat' with_reducible (first
    | assumption | apply keeps_bump | apply keeps_lower | apply keeps_raise | apply keeps_reassess | apply keeps_timeInput
      | apply keeps_ite | apply keeps_ite2 | intro _ | split | dsimp only)


theorem keepsR_execLinkDown {p : Nat} (h0 : Keeps s0 s) : KeepsR s0 (execLinkDown p s) := by
  unfold execLinkDown
  repeat' with_reducible (first
    | assumption | apply keeps_portLinkLost | apply keepsR_done | apply keepsR_ite | apply keeps_ite | apply keeps_ite2
      | apply keepsR_done | apply keepsR_fault | intro _ | split | dsimp only)


theorem keeps_maxChanged {p : Nat} {old : Nat} (h0 : Keeps s0 s) : Keeps s0 (State.maxChanged s p old) := by
  unfold State.maxChanged
  try dsimp -iota -proj only
  repeat' with_reducible (first
    | assumption | apply keeps_modNet | apply keeps_ite | apply keeps_ite2 | intro _ | split | dsimp only)


theorem keeps_countPcs {p : Nat} {pcs : Nat} {fec : Nat} {fecBad : Nat} (h0 : Keeps s0 s) : Keeps s0 (State.countPcs s p pcs fec fecBad) := by
  unfold State.countPcs
  try dsimp -iota -proj only
  repeat' with_reducible (first
    | assumption | apply keeps_bump | apply keeps_ite | apply keeps_ite2 | intro _ | split | dsimp only)


theorem keeps_takenIn {p : Nat} {f : List Byte} {len : Nat} (h0 : Keeps s0 s) : Keeps s0 (State.takenIn s p f len) := by
  unfold State.takenIn
  try dsimp -iota -proj only
  repeat' with_reducible (first
    | assumption | apply keeps_bump | apply keeps_ite | apply keeps_ite2 | intro _ | split | dsimp only)


theorem keeps_buffer {r : RxFrame} (h0 : Keeps s0 s) : Keeps s0 (State.buffer s r) := by
  unfold State.buffer
  try dsimp -iota -proj only
  repeat' with_reducible (first
    | assumption | apply keeps_modNet | intro _ | dsimp only)


theorem keeps_parseAndSteer {p : Nat} {f : List Byte} {len : Nat} {stamp : Option Nat} (h0 : Keeps s0 s) : Keeps s0 (State.parseAndSteer s p f len stamp) := by
  unfold State.parseAndSteer
  try dsimp -iota -proj only
  repeat' with_reducible (first
    | assumption | apply keeps_buffer | apply keeps_bump | apply keeps_pmc | apply keeps_takenIn | apply keeps_ite
      | apply keeps_ite2 | intro _ | split | exact keeps_of_eq (by assumption) (by assumption)
      | (refine keeps_of_eq (by assumption) ?_) | (refine keeps_of_eq3 (by assumption) ?_) | dsimp only)


theorem keeps_frameIn {p : Nat} {f : List Byte} {good : Bool} {stamp : Nat} (h0 : Keeps s0 s) : Keeps s0 (State.frameIn s p f good stamp) := by
  unfold State.frameIn
  try dsimp -iota -proj only
  repeat' with_reducible (first
    | assumption | apply keeps_bump | apply keeps_macsecIn | apply keeps_parseAndSteer | apply keeps_reach | apply keeps_ite
      | apply keeps_ite2 | intro _ | split | exact keeps_of_eq (by assumption) (by assumption)
      | (refine keeps_of_eq (by assumption) ?_) | (refine keeps_of_eq3 (by assumption) ?_) | dsimp only)


theorem keepsR_execFrameReceived {p : Nat} {f : List Byte} {fcsOk : Bool} {pcs : Nat} {pcsIdle : Nat} {fec : Nat} {fecBad : Nat} {stamp : Nat} (h0 : Keeps s0 s) : KeepsR s0 (execFrameReceived p f fcsOk pcs pcsIdle fec fecBad stamp s) := by
  unfold execFrameReceived
  repeat' with_reducible (first
    | assumption | apply keeps_countPcs | apply keeps_frameIn | apply keepsR_done | apply keepsR_ite | apply keeps_ite
      | apply keeps_ite2 | apply keepsR_done | apply keepsR_fault | intro _ | split | dsimp only)


theorem keeps_fillBuffers {n fuel : Nat} {bs : List Byte} {acc : List RxPart} (h : Keeps s0 s) :
    Keeps s0 (State.fillBuffers n fuel bs acc s).2.2 := by
  induction fuel generalizing bs acc s with
  | zero => exact h
  | succ fuel ih =>
    unfold State.fillBuffers
    try dsimp -iota -proj only
    repeat' with_reducible (first
      | assumption | apply ih | apply keeps_takeHead | apply keeps_ite3 | intro _ | split
      | exact keeps_of_eq (by assumption) (keeps_readMem (by assumption))
      | (refine keeps_of_eq (by assumption) (keeps_writeMem ?_)) | (refine keeps_of_eq (by assumption) (keeps_readMem ?_))
      | apply keeps_mk3)


theorem keeps_rxComplete {n : Nat} {q : Nat} {r : RxFrame} {ok : Bool} {parts : List RxPart} (h0 : Keeps s0 s) : Keeps s0 (State.rxComplete s n q r ok parts) := by
  unfold State.rxComplete
  try dsimp -iota -proj only
  repeat' with_reducible (first
    | assumption | apply keeps_descError | apply keeps_finish | apply keeps_ite | apply keeps_ite2 | apply keeps_foldl
      | apply keeps_foldl_pair | intro _ | split | dsimp only)


theorem keeps_toQueue {q : Nat} {r : RxFrame} (h0 : Keeps s0 s) : Keeps s0 (State.toQueue s q r) := by
  unfold State.toQueue
  try dsimp -iota -proj only
  repeat' with_reducible (first
    | assumption | apply keeps_bump | apply keeps_fillBuffers | apply keeps_pmc | apply keeps_raise | apply keeps_rxComplete
      | intro _ | split | exact keeps_of_eq (by assumption) (by assumption) | (refine keeps_of_eq (by assumption) ?_)
      | (refine keeps_of_eq3 (by assumption) ?_) | dsimp only)


theorem keeps_toSlice {n : Nat} {r : RxFrame} (h0 : Keeps s0 s) : Keeps s0 (State.toSlice s n r) := by
  unfold State.toSlice
  repeat' with_reducible (first
    | assumption | apply keeps_bump | apply keeps_ingest | apply keeps_pmc | apply keeps_raise | intro _ | split
      | exact keeps_of_eq (by assumption) (by assumption) | (refine keeps_of_eq (by assumption) ?_)
      | (refine keeps_of_eq3 (by assumption) ?_) | dsimp only)


theorem keepsR_execFrameCopyDeliver {dest : Nat} (h0 : Keeps s0 s) : KeepsR s0 (execFrameCopyDeliver dest s) := by
  unfold execFrameCopyDeliver
  try dsimp -iota -proj only
  repeat' with_reducible (first
    | assumption | apply keeps_modNet | apply keeps_settled | apply keeps_toQueue | apply keeps_toSlice | apply keepsR_done
      | apply keepsR_ite | apply keeps_ite | apply keeps_ite2 | apply keepsR_done | apply keepsR_fault | intro _ | split
      | exact keeps_of_eq (by assumption) (by assumption) | (refine keeps_of_eq (by assumption) ?_)
      | (refine keeps_of_eq3 (by assumption) ?_) | dsimp only)


end Sys2Proof.Machine
end

