-- ==== Sys2Proof/Laws/KeepsRadio.lean ====
section
/-! SUPPORT. What the operations of Machine/Radio.lean keep. -/

set_option linter.unusedTactic false
set_option linter.unreachableTactic false

namespace Sys2Proof.Machine

variable {s0 s : State}

theorem keeps_showTcxo (h0 : Keeps s0 s) : Keeps s0 (State.showTcxo s) := by
  unfold State.showTcxo
  repeat' with_reducible (first
    | assumption | apply keeps_setFld | apply keeps_ite | apply keeps_ite2 | intro _ | split | dsimp only)


theorem keeps_radRefused (h0 : Keeps s0 s) : Keeps s0 (State.radRefused s) := by
  unfold State.radRefused
  repeat' with_reducible (first
    | assumption | apply keeps_raise | intro _ | dsimp only)


theorem keeps_showJoinOpen (h0 : Keeps s0 s) : Keeps s0 (State.showJoinOpen s) := by
  unfold State.showJoinOpen
  repeat' with_reducible (first
    | assumption | apply keeps_setFld | intro _ | dsimp only)


theorem keeps_radWrite {x : RadEntry} {buffered : Bool} (h0 : Keeps s0 s) : Keeps s0 (State.radWrite s x buffered).2 := by
  unfold State.radWrite
  repeat' with_reducible (first
    | assumption | apply keeps_bump | apply keeps_raise | apply keeps_report | intro _ | split
      | exact keeps_of_eq (by assumption) (by assumption) | (refine keeps_of_eq (by assumption) ?_)
      | (refine keeps_of_eq3 (by assumption) ?_) | apply keeps_mk2 | dsimp only)


theorem keeps_radFlush (h0 : Keeps s0 s) : Keeps s0 (State.radFlush s) := by
  unfold State.radFlush
  try dsimp -iota -proj only
  repeat' with_reducible (first
    | assumption | apply keeps_buffer | apply keeps_modRad | apply keeps_radWrite | apply keeps_ite | apply keeps_ite2
      | apply keeps_foldl | apply keeps_foldl_pair | intro _ | split | dsimp only)


theorem keeps_radPut {x : RadEntry} (h0 : Keeps s0 s) : Keeps s0 (State.radPut s x).2 := by
  unfold State.radPut
  try dsimp -iota -proj only
  repeat' with_reducible (first
    | assumption | apply keeps_buffer | apply keeps_bump | apply keeps_modRad | apply keeps_radFlush | apply keeps_radWrite
      | apply keeps_raise | apply keeps_ite | apply keeps_ite2 | intro _ | split | apply keeps_mk2 | dsimp only)


theorem keeps_radReport {kind : Nat} {addr : Nat} {value : Nat} {rssi : Nat} (h0 : Keeps s0 s) : Keeps s0 (State.radReport s kind addr value rssi) := by
  unfold State.radReport
  try dsimp -iota -proj only
  repeat' with_reducible (first
    | assumption | apply keeps_radPut | intro _ | dsimp only)


theorem keeps_modNode {i : Nat} {f : RadNode → RadNode} (h0 : Keeps s0 s) : Keeps s0 (State.modNode s i f) := by
  unfold State.modNode
  try dsimp -iota -proj only
  repeat' with_reducible (first
    | assumption | apply keeps_modRad | apply keeps_ite | apply keeps_ite2 | intro _ | split | dsimp only)


theorem keeps_showNodes (h0 : Keeps s0 s) : Keeps s0 (State.showNodes s) := by
  unfold State.showNodes
  repeat' with_reducible (first
    | assumption | apply keeps_setFld | intro _ | dsimp only)


theorem keeps_freeNode {i : Nat} (h0 : Keeps s0 s) : Keeps s0 (State.freeNode s i) := by
  unfold State.freeNode
  try dsimp -iota -proj only
  repeat' with_reducible (first
    | assumption | apply keeps_modRad | apply keeps_showNodes | apply keeps_ite | apply keeps_ite2 | intro _ | split | dsimp only)


theorem keeps_endCommand {slot : Option Nat} {c : Cpl} (h0 : Keeps s0 s) : Keeps s0 (State.endCommand s slot c) := by
  unfold State.endCommand
  repeat' with_reducible (first
    | assumption | apply keeps_finish | apply keeps_settle | intro _ | split | exact keeps_of_eq (by assumption) (by assumption)
      | (refine keeps_of_eq (by assumption) ?_) | (refine keeps_of_eq3 (by assumption) ?_) | dsimp only)


theorem keeps_nodeTimeouts {i : Nat} (h0 : Keeps s0 s) : Keeps s0 (State.nodeTimeouts s i) := by
  unfold State.nodeTimeouts
  try dsimp -iota -proj only
  repeat' with_reducible (first
    | assumption | apply keeps_endCommand | apply keeps_modNode | intro _ | split
      | exact keeps_of_eq (by assumption) (by assumption) | (refine keeps_of_eq (by assumption) ?_)
      | (refine keeps_of_eq3 (by assumption) ?_) | dsimp only)


theorem keeps_evictNode {x : Nat × Nat} (h0 : Keeps s0 s) : Keeps s0 (State.evictNode s x) := by
  unfold State.evictNode
  try dsimp -iota -proj only
  repeat' with_reducible (first
    | assumption | apply keeps_endCommand | apply keeps_freeNode | apply keeps_nodeTimeouts | apply keeps_ite | apply keeps_ite2
      | intro _ | split | dsimp only)


theorem keeps_applyEvictions {p : Nat → Bool} (h0 : Keeps s0 s) : Keeps s0 (State.applyEvictions s p) := by
  unfold State.applyEvictions
  try dsimp -iota -proj only
  repeat' with_reducible (first
    | assumption | apply keeps_evictNode | apply keeps_modRad | apply keeps_foldl | apply keeps_foldl_pair | intro _ | dsimp only)


theorem keeps_missNode {i : Nat} (h0 : Keeps s0 s) : Keeps s0 (State.missNode s i) := by
  unfold State.missNode
  try dsimp -iota -proj only
  repeat' with_reducible (first
    | assumption | apply keeps_bump | apply keeps_modNode | apply keeps_modRad | apply keeps_nodeTimeouts | apply keeps_radReport
      | apply keeps_raise | apply keeps_ite | apply keeps_ite2 | intro _ | split
      | exact keeps_of_eq (by assumption) (by assumption) | (refine keeps_of_eq (by assumption) ?_)
      | (refine keeps_of_eq3 (by assumption) ?_) | dsimp only)


theorem keeps_radSend {frame : Nat} {dst : Nat} {counter : Nat} {n : Nat} {level : Nat} {key : List Byte} {content : List Nat} (h0 : Keeps s0 s) : Keeps s0 (State.radSend s frame dst counter n level key content) := by
  unfold State.radSend
  try dsimp -iota -proj only
  repeat' with_reducible (first
    | assumption | apply keeps_emit | apply keeps_modRad | intro _ | dsimp only)


theorem keeps_dutySkip (h0 : Keeps s0 s) : Keeps s0 (State.dutySkip s) := by
  unfold State.dutySkip
  repeat' with_reducible (first
    | assumption | apply keeps_bump | apply keeps_raise | intro _ | dsimp only)


theorem keeps_showLux (h0 : Keeps s0 s) : Keeps s0 (State.showLux s) := by
  unfold State.showLux
  try dsimp -iota -proj only
  repeat' with_reducible (first
    | assumption | apply keeps_setFld | apply keeps_setReg | apply keeps_ite | apply keeps_ite2 | apply keeps_foldl
      | apply keeps_foldl_pair | intro _ | split | dsimp only)


theorem keeps_takeReading {i : Nat} {d : RadData} {x : Nat × Nat} (h0 : Keeps s0 s) : Keeps s0 (State.takeReading s i d x) := by
  unfold State.takeReading
  try dsimp -iota -proj only
  repeat' with_reducible (first
    | assumption | apply keeps_bump | apply keeps_modNode | apply keeps_radPut | apply keeps_showLux | apply keeps_ite
      | apply keeps_ite2 | intro _ | split | exact keeps_of_eq (by assumption) (by assumption)
      | (refine keeps_of_eq (by assumption) ?_) | (refine keeps_of_eq3 (by assumption) ?_) | dsimp only)


theorem keeps_acceptData {i : Nat} {d : RadData} (h0 : Keeps s0 s) : Keeps s0 (State.acceptData s i d) := by
  unfold State.acceptData
  try dsimp -iota -proj only
  repeat' with_reducible (first
    | assumption | apply keeps_bump | apply keeps_freeNode | apply keeps_modNode | apply keeps_modRad | apply keeps_nodeTimeouts
      | apply keeps_radReport | apply keeps_takeReading | apply keeps_wake | apply keeps_ite | apply keeps_ite2
      | apply keeps_foldl | apply keeps_foldl_pair | intro _ | split | dsimp only)


theorem keeps_commitRekey {i : Nat} (h0 : Keeps s0 s) : Keeps s0 (State.commitRekey s i) := by
  unfold State.commitRekey
  try dsimp -iota -proj only
  repeat' with_reducible (first
    | assumption | apply keeps_bump | apply keeps_endCommand | apply keeps_modNode | apply keeps_raise | intro _ | split
      | exact keeps_of_eq (by assumption) (by assumption) | (refine keeps_of_eq (by assumption) ?_)
      | (refine keeps_of_eq3 (by assumption) ?_) | dsimp only)


theorem keeps_downlinkDone {i : Nat} (h0 : Keeps s0 s) : Keeps s0 (State.downlinkDone s i) := by
  unfold State.downlinkDone
  try dsimp -iota -proj only
  repeat' with_reducible (first
    | assumption | apply keeps_endCommand | apply keeps_modNode | intro _ | split
      | exact keeps_of_eq (by assumption) (by assumption) | (refine keeps_of_eq (by assumption) ?_)
      | (refine keeps_of_eq3 (by assumption) ?_) | dsimp only)


theorem keeps_dropData {counter : Nat} {flag : Field} {missed : Option Nat} (h0 : Keeps s0 s) : Keeps s0 (State.dropData s counter flag missed) := by
  unfold State.dropData
  try dsimp -iota -proj only
  repeat' with_reducible (first
    | assumption | apply keeps_bump | apply keeps_missNode | apply keeps_raise | intro _ | split
      | exact keeps_of_eq (by assumption) (by assumption) | (refine keeps_of_eq (by assumption) ?_)
      | (refine keeps_of_eq3 (by assumption) ?_) | dsimp only)


theorem keeps_judgeData {i : Nat} {n : RadNode} {d : RadData} {missed : Option Nat} (h0 : Keeps s0 s) : Keeps s0 (State.judgeData s i n d missed) := by
  unfold State.judgeData
  repeat' with_reducible (first
    | assumption | apply keeps_acceptData | apply keeps_commitRekey | apply keeps_downlinkDone | apply keeps_dropData
      | apply keeps_ite | apply keeps_ite2 | intro _ | split | dsimp only)


theorem keepsR_execData {d : RadData} (h0 : Keeps s0 s) : KeepsR s0 (execData d s) := by
  unfold execData
  repeat' with_reducible (first
    | assumption | apply keeps_dropData | apply keeps_judgeData | apply keepsR_done | apply keepsR_ite | apply keeps_ite
      | apply keeps_ite2 | apply keepsR_done | apply keepsR_fault | intro _ | split
      | exact keeps_of_eq (by assumption) (by assumption) | (refine keeps_of_eq (by assumption) ?_)
      | (refine keeps_of_eq3 (by assumption) ?_) | dsimp only)


theorem keepsR_execDataTimeout (h0 : Keeps s0 s) : KeepsR s0 (execDataTimeout s) := by
  unfold execDataTimeout
  repeat' with_reducible (first
    | assumption | apply keeps_missNode | apply keepsR_done | apply keepsR_done | apply keepsR_fault | intro _ | split
      | exact keeps_of_eq (by assumption) (by assumption) | (refine keeps_of_eq (by assumption) ?_)
      | (refine keeps_of_eq3 (by assumption) ?_) | dsimp only)


theorem keeps_sendPoll {i : Nat} {n : RadNode} (h0 : Keeps s0 s) : Keeps s0 (State.sendPoll s i n) := by
  unfold State.sendPoll
  try dsimp -iota -proj only
  repeat' with_reducible (first
    | assumption | apply keeps_bump | apply keeps_modNode | apply keeps_modRad | apply keeps_radSend | intro _ | split
      | exact keeps_of_eq (by assumption) (by assumption) | (refine keeps_of_eq (by assumption) ?_)
      | (refine keeps_of_eq3 (by assumption) ?_) | dsimp only)


theorem keeps_refuseJoin {j : RadJoin} {status : Nat} {counter : Nat} (h0 : Keeps s0 s) : Keeps s0 (State.refuseJoin s j status counter) := by
  unfold State.refuseJoin
  try dsimp -iota -proj only
  repeat' with_reducible (first
    | assumption | apply keeps_bump | apply keeps_modRad | apply keeps_radReport | apply keeps_raise | intro _ | split
      | exact keeps_of_eq (by assumption) (by assumption) | (refine keeps_of_eq (by assumption) ?_)
      | (refine keeps_of_eq3 (by assumption) ?_) | dsimp only)


theorem keeps_acceptJoin {j : RadJoin} {i : Nat} (h0 : Keeps s0 s) : Keeps s0 (State.acceptJoin s j i) := by
  unfold State.acceptJoin
  try dsimp -iota -proj only
  repeat' with_reducible (first
    | assumption | apply keeps_modRad | apply keeps_radReport | apply keeps_raise | intro _ | dsimp only)


theorem keeps_rejoin {j : RadJoin} {i : Nat} (h0 : Keeps s0 s) : Keeps s0 (State.rejoin s j i) := by
  unfold State.rejoin
  try dsimp -iota -proj only
  repeat' with_reducible (first
    | assumption | apply keeps_acceptJoin | apply keeps_modNode | intro _ | dsimp only)


theorem keeps_addNode {j : RadJoin} {e : Nat} {at_ : Nat × Nat} (h0 : Keeps s0 s) : Keeps s0 (State.addNode s j e at_) := by
  unfold State.addNode
  try dsimp -iota -proj only
  repeat' with_reducible (first
    | assumption | apply keeps_acceptJoin | apply keeps_modRad | apply keeps_showNodes | intro _ | split
      | exact keeps_of_eq (by assumption) (by assumption) | (refine keeps_of_eq (by assumption) ?_)
      | (refine keeps_of_eq3 (by assumption) ?_) | dsimp only)


theorem keeps_judgeJoin {j : RadJoin} (h0 : Keeps s0 s) : Keeps s0 (State.judgeJoin s j) := by
  unfold State.judgeJoin
  repeat' with_reducible (first
    | assumption | apply keeps_addNode | apply keeps_refuseJoin | apply keeps_rejoin | apply keeps_ite | apply keeps_ite2
      | intro _ | split | exact keeps_of_eq (by assumption) (by assumption) | (refine keeps_of_eq (by assumption) ?_)
      | (refine keeps_of_eq3 (by assumption) ?_) | dsimp only)


theorem keepsR_execJoinReq {j : RadJoin} (h0 : Keeps s0 s) : KeepsR s0 (execJoinReq j s) := by
  unfold execJoinReq
  try dsimp -iota -proj only
  repeat' with_reducible (first
    | assumption | apply keeps_applyEvictions | apply keeps_bump | apply keeps_judgeJoin | apply keeps_modRad | apply keeps_raise
      | apply keepsR_done | apply keepsR_ite | apply keeps_ite | apply keeps_ite2 | apply keepsR_done | apply keepsR_fault
      | intro _ | split | dsimp only)


theorem keeps_slotBoundary (h0 : Keeps s0 s) : Keeps s0 (State.slotBoundary s) := by
  unfold State.slotBoundary
  try dsimp -iota -proj only
  repeat' with_reducible (first
    | assumption | apply keeps_applyEvictions | apply keeps_judgeJoin | apply keeps_missNode | apply keeps_modRad
      | apply keeps_radFlush | apply keeps_showTcxo | intro _ | split | exact keeps_of_eq (by assumption) (by assumption)
      | (refine keeps_of_eq (by assumption) ?_) | (refine keeps_of_eq3 (by assumption) ?_) | dsimp only)


theorem keepsR_execPollSlot (h0 : Keeps s0 s) : KeepsR s0 (execPollSlot s) := by
  unfold execPollSlot
  try dsimp -iota -proj only
  repeat' with_reducible (first
    | assumption | apply keeps_dutySkip | apply keeps_missNode | apply keeps_sendPoll | apply keeps_slotBoundary
      | apply keepsR_done | apply keepsR_ite | apply keeps_ite | apply keeps_ite2 | apply keepsR_done | apply keepsR_fault
      | intro _ | split | exact keeps_of_eq (by assumption) (by assumption) | (refine keeps_of_eq (by assumption) ?_)
      | (refine keeps_of_eq3 (by assumption) ?_) | dsimp only)


theorem keeps_countJoin (h0 : Keeps s0 s) : Keeps s0 (State.countJoin s) := by
  unfold State.countJoin
  try dsimp -iota -proj only
  repeat' with_reducible (first
    | assumption | apply keeps_setFld | apply keeps_showJoinOpen | apply keeps_ite | apply keeps_ite2 | intro _ | split
      | dsimp only)


theorem keeps_sendBeacon (h0 : Keeps s0 s) : Keeps s0 (State.sendBeacon s) := by
  unfold State.sendBeacon
  try dsimp -iota -proj only
  repeat' with_reducible (first
    | assumption | apply keeps_bump | apply keeps_dutySkip | apply keeps_modRad | apply keeps_radSend | apply keeps_ite
      | apply keeps_ite2 | intro _ | split | dsimp only)


theorem keeps_respCounter {eui : Nat} (h0 : Keeps s0 s) : Keeps s0 (State.respCounter s eui).2 := by
  unfold State.respCounter
  try dsimp -iota -proj only
  repeat' with_reducible (first
    | assumption | apply keeps_drawn | apply keeps_modNode | intro _ | split | exact keeps_of_eq (by assumption) (by assumption)
      | (refine keeps_of_eq (by assumption) ?_) | (refine keeps_of_eq3 (by assumption) ?_) | apply keeps_mk2 | dsimp only)


theorem keeps_sendJoinResp {r : Nat × Nat × Option Nat} (h0 : Keeps s0 s) : Keeps s0 (State.sendJoinResp s r) := by
  unfold State.sendJoinResp
  try dsimp -iota -proj only
  repeat' with_reducible (first
    | assumption | apply keeps_dutySkip | apply keeps_radSend | apply keeps_respCounter | apply keeps_ite | apply keeps_ite2
      | intro _ | split | exact keeps_of_eq (by assumption) (by assumption) | (refine keeps_of_eq (by assumption) ?_)
      | (refine keeps_of_eq3 (by assumption) ?_) | dsimp only)


theorem keepsR_execBeaconSlot (h0 : Keeps s0 s) : KeepsR s0 (execBeaconSlot s) := by
  unfold execBeaconSlot
  try dsimp -iota -proj only
  repeat' with_reducible (first
    | assumption | apply keeps_countJoin | apply keeps_modRad | apply keeps_sendBeacon | apply keeps_sendJoinResp
      | apply keeps_showLux | apply keeps_slotBoundary | apply keeps_takeSwap | apply keepsR_done | apply keepsR_ite
      | apply keeps_ite | apply keeps_ite2 | apply keepsR_done | apply keepsR_fault | intro _ | split
      | exact keeps_of_eq (by assumption) (by assumption) | (refine keeps_of_eq (by assumption) ?_)
      | (refine keeps_of_eq3 (by assumption) ?_) | dsimp only)


theorem keeps_heardJoin {eui : Nat} {i : Nat} {counter : Nat} {new : RadNode} (h0 : Keeps s0 s) : Keeps s0 (State.heardJoin s eui i counter new) := by
  unfold State.heardJoin
  try dsimp -iota -proj only
  repeat' with_reducible (first
    | assumption | apply keeps_modRad | apply keeps_showNodes | apply keeps_ite | apply keeps_ite2 | intro _ | split | dsimp only)


theorem keeps_heardPoll {i : Nat} {ctr : Nat} {n : RadNode} (h0 : Keeps s0 s) : Keeps s0 (State.heardPoll s i ctr n) := by
  unfold State.heardPoll
  try dsimp -iota -proj only
  repeat' with_reducible (first
    | assumption | apply keeps_dropData | apply keeps_missNode | apply keeps_modNode | apply keeps_modRad | apply keeps_ite
      | apply keeps_ite2 | intro _ | split | exact keeps_of_eq (by assumption) (by assumption)
      | (refine keeps_of_eq (by assumption) ?_) | (refine keeps_of_eq3 (by assumption) ?_) | dsimp only)


theorem keepsR_execHeardFrame {h : RadHeard} (h0 : Keeps s0 s) : KeepsR s0 (execHeardFrame h s) := by
  unfold execHeardFrame
  try dsimp -iota -proj only
  repeat' with_reducible (first
    | assumption | apply keeps_dropData | apply keeps_heardJoin | apply keeps_heardPoll | apply keeps_join | apply keeps_judgeData
      | apply keeps_modNode | apply keepsR_done | apply keepsR_ite | apply keeps_ite | apply keeps_ite2 | apply keepsR_done
      | apply keepsR_fault | intro _ | split | exact keeps_of_eq (by assumption) (by assumption)
      | (refine keeps_of_eq (by assumption) ?_) | (refine keeps_of_eq3 (by assumption) ?_) | dsimp only)


theorem keeps_mirrorRegister (h0 : Keeps s0 s) : Keeps s0 (State.mirrorRegister s) := by
  unfold State.mirrorRegister
  try dsimp -iota -proj only
  repeat' with_reducible (first
    | assumption | apply keeps_addClass | apply keeps_mirror | apply keeps_modRad | apply keeps_raise | apply keeps_ite
      | apply keeps_ite2 | intro _ | split | exact keeps_of_eq (by assumption) (by assumption)
      | (refine keeps_of_eq (by assumption) ?_) | (refine keeps_of_eq3 (by assumption) ?_) | dsimp only)


theorem keepsR_execRadioMirrorWrite (h0 : Keeps s0 s) : KeepsR s0 (execRadioMirrorWrite s) := by
  unfold execRadioMirrorWrite
  try dsimp -iota -proj only
  repeat' with_reducible (first
    | assumption | apply keeps_mirror | apply keeps_modRad | apply keeps_writeMem | apply keepsR_done | apply keepsR_ite
      | apply keeps_ite | apply keeps_ite2 | apply keepsR_done | apply keepsR_fault | intro _ | split
      | exact keeps_of_eq (by assumption) (by assumption) | (refine keeps_of_eq (by assumption) ?_)
      | (refine keeps_of_eq3 (by assumption) ?_) | dsimp only)


theorem keeps_readMirror (h0 : Keeps s0 s) : Keeps s0 (State.readMirror s).2 := by
  unfold State.readMirror
  try dsimp -iota -proj only
  repeat' with_reducible (first
    | assumption | apply keeps_readMem | apply keeps_ite | apply keeps_ite2 | apply keeps_foldl | apply keeps_foldl_pair | intro _
      | split | exact keeps_of_eq (by assumption) (by assumption) | (refine keeps_of_eq (by assumption) ?_)
      | (refine keeps_of_eq3 (by assumption) ?_) | apply keeps_mk2 | dsimp only)


theorem keeps_mergeMirror (h0 : Keeps s0 s) : Keeps s0 (State.mergeMirror s) := by
  unfold State.mergeMirror
  try dsimp -iota -proj only
  repeat' with_reducible (first
    | assumption | apply keeps_mirror | apply keeps_modRad | apply keeps_readMirror | apply keeps_showNodes | apply keeps_ite
      | apply keeps_ite2 | intro _ | split | exact keeps_of_eq (by assumption) (by assumption)
      | (refine keeps_of_eq (by assumption) ?_) | (refine keeps_of_eq3 (by assumption) ?_) | dsimp only)


theorem keeps_setActing {r : Nat} (h0 : Keeps s0 s) : Keeps s0 (State.setActing s r) := by
  unfold State.setActing
  try dsimp -iota -proj only
  repeat' with_reducible (first
    | assumption | apply keeps_modRad | apply keeps_raise | apply keeps_setFld | apply keeps_showTcxo | apply keeps_takeSwap
      | apply keeps_ite | apply keeps_ite2 | intro _ | split | dsimp only)


theorem keepsR_execRadioRoleChange (h0 : Keeps s0 s) : KeepsR s0 (execRadioRoleChange s) := by
  unfold execRadioRoleChange
  repeat' with_reducible (first
    | assumption | apply keeps_mergeMirror | apply keeps_setActing | apply keepsR_done | apply keepsR_ite | apply keeps_ite
      | apply keeps_ite2 | apply keepsR_done | apply keepsR_fault | intro _ | split | dsimp only)


theorem keeps_radEnable {w : Word} (h0 : Keeps s0 s) : Keeps s0 (State.radEnable s w) := by
  unfold State.radEnable
  try dsimp -iota -proj only
  repeat' with_reducible (first
    | assumption | apply keeps_keyRequest | apply keeps_mirrorRegister | apply keeps_modRad | apply keeps_radRefused
      | apply keeps_raise | apply keeps_setActing | apply keeps_setReg | apply keeps_ite | apply keeps_ite2 | intro _ | split
      | exact keeps_of_eq (by assumption) (by assumption) | (refine keeps_of_eq (by assumption) ?_)
      | (refine keeps_of_eq3 (by assumption) ?_) | dsimp only)


theorem keeps_mirrorRelease (h0 : Keeps s0 s) : Keeps s0 (State.mirrorRelease s) := by
  unfold State.mirrorRelease
  repeat' with_reducible (first
    | assumption | apply keeps_dropClass | apply keeps_mirror | intro _ | split
      | exact keeps_of_eq (by assumption) (by assumption) | (refine keeps_of_eq (by assumption) ?_)
      | (refine keeps_of_eq3 (by assumption) ?_) | dsimp only)


theorem keeps_radDisable {w : Word} (h0 : Keeps s0 s) : Keeps s0 (State.radDisable s w) := by
  unfold State.radDisable
  try dsimp -iota -proj only
  repeat' with_reducible (first
    | assumption | apply keeps_applyEvictions | apply keeps_mirrorRelease | apply keeps_modRad | apply keeps_setActing
      | apply keeps_setReg | intro _ | dsimp only)


theorem keeps_radCtrlWrite {w : Word} (h0 : Keeps s0 s) : Keeps s0 (State.radCtrlWrite s w) := by
  unfold State.radCtrlWrite
  try dsimp -iota -proj only
  repeat' with_reducible (first
    | assumption | apply keeps_mirrorRegister | apply keeps_mirrorRelease | apply keeps_radDisable | apply keeps_radEnable
      | apply keeps_radRefused | apply keeps_setReg | apply keeps_ite | apply keeps_ite2 | intro _ | split | dsimp only)


theorem keepsR_execRadioEnable {ini : Nat} {w : Word} (h0 : Keeps s0 s) : KeepsR s0 (execRadioEnable ini w s) := by
  unfold execRadioEnable
  repeat' with_reducible (first
    | assumption | apply keeps_radCtrlWrite | apply keeps_setupAccess | apply keepsR_done | apply keepsR_done | apply keepsR_fault
      | intro _ | dsimp only)


theorem keeps_nodeCommand {op : Nat} {k : Nat → List Byte → Nat → RadNode → State → Option Cpl × State} (hk : ∀ x0 x1 x2 x3 u, Keeps s0 u → Keeps s0 (k x0 x1 x2 x3 u).2) (h0 : Keeps s0 s) : Keeps s0 (State.nodeCommand s op k) := by
  unfold State.nodeCommand
  try dsimp -iota -proj only
  repeat' with_reducible (first
    | assumption | apply keeps_takeCommand | apply hk | apply keeps_ite | apply keeps_ite2 | intro _ | split
      | exact keeps_of_eq (by assumption) (by assumption) | (refine keeps_of_eq (by assumption) ?_)
      | (refine keeps_of_eq3 (by assumption) ?_) | dsimp only)


theorem keepsR_execNodeEvict (h0 : Keeps s0 s) : KeepsR s0 (execNodeEvict s) := by
  unfold execNodeEvict
  try dsimp -iota -proj only
  repeat' with_reducible (first
    | assumption | apply keeps_freeNode | apply keeps_modRad | apply keeps_nodeCommand | apply keeps_nodeTimeouts
      | apply keepsR_done | apply keepsR_ite | apply keeps_ite | apply keeps_ite2 | apply keepsR_done | apply keepsR_fault
      | intro _ | split | dsimp only)


theorem keepsR_execNodeRead (h0 : Keeps s0 s) : KeepsR s0 (execNodeRead s) := by
  unfold execNodeRead
  try dsimp -iota -proj only
  repeat' with_reducible (first
    | assumption | apply keeps_nodeCommand | apply keeps_writeMem | apply keepsR_done | apply keepsR_ite | apply keeps_ite
      | apply keeps_ite2 | apply keepsR_done | apply keepsR_fault | intro _ | split
      | exact keeps_of_eq (by assumption) (by assumption) | (refine keeps_of_eq (by assumption) ?_)
      | (refine keeps_of_eq3 (by assumption) ?_) | dsimp only)


theorem keepsR_execDownlink (h0 : Keeps s0 s) : KeepsR s0 (execDownlink s) := by
  unfold execDownlink
  try dsimp -iota -proj only
  repeat' with_reducible (first
    | assumption | apply keeps_modNode | apply keeps_nodeCommand | apply keepsR_done | apply keepsR_ite | apply keeps_ite
      | apply keeps_ite2 | apply keepsR_done | apply keepsR_fault | intro _ | split | dsimp only)


theorem keepsR_execRekey (h0 : Keeps s0 s) : KeepsR s0 (execRekey s) := by
  unfold execRekey
  try dsimp -iota -proj only
  repeat' with_reducible (first
    | assumption | apply keeps_modNode | apply keeps_nodeCommand | apply keepsR_done | apply keepsR_ite | apply keeps_ite
      | apply keeps_ite2 | apply keepsR_done | apply keepsR_fault | intro _ | split | dsimp only)


end Sys2Proof.Machine
end

