-- ==== Sys2Proof/Laws/KeepsHearth.lean ====
section
/-! SUPPORT. What the operations of Machine/Hearth.lean keep. -/

set_option linter.unusedTactic false
set_option linter.unreachableTactic false

namespace Sys2Proof.Machine

variable {s0 s : State}

theorem keeps_hrtRefused (h0 : Keeps s0 s) : Keeps s0 (State.hrtRefused s) := by
  unfold State.hrtRefused
  repeat' with_reducible (first
    | assumption | apply keeps_raise | intro _ | dsimp only)


theorem keeps_doorbellBad {w : Word} {unknown : Bool} (h0 : Keeps s0 s) : Keeps s0 (State.doorbellBad s w unknown) := by
  unfold State.doorbellBad
  try dsimp -iota -proj only
  repeat' with_reducible (first
    | assumption | apply keeps_bump | apply keeps_raise | apply keeps_setReg | apply keeps_ite | apply keeps_ite2 | intro _
      | split | dsimp only)


theorem keeps_doorbell {ini : Nat} {w : Word} (h0 : Keeps s0 s) : Keeps s0 (State.doorbell s ini w) := by
  unfold State.doorbell
  try dsimp -iota -proj only
  repeat' with_reducible (first
    | assumption | apply keeps_bump | apply keeps_doorbellBad | apply keeps_modBoot | apply keeps_modKey | apply keeps_modRec
      | apply keeps_raise | apply keeps_setReg | apply keeps_settle | apply keeps_ite | apply keeps_ite2 | intro _ | split
      | dsimp only)


theorem keeps_ringCfgWrite {n : Nat} {w : Word} (h0 : Keeps s0 s) : Keeps s0 (State.ringCfgWrite s n w) := by
  unfold State.ringCfgWrite
  try dsimp -iota -proj only
  repeat' with_reducible (first
    | assumption | apply keeps_hrtRefused | apply keeps_modHrt | apply keeps_raise | apply keeps_setFld | apply keeps_setReg
      | apply keeps_ite | apply keeps_ite2 | intro _ | split | dsimp only)


theorem keepsR_execRingCfgWrite {ini : Nat} {n : Nat} {w : Word} (h0 : Keeps s0 s) : KeepsR s0 (execRingCfgWrite ini n w s) := by
  unfold execRingCfgWrite
  repeat' with_reducible (first
    | assumption | apply keeps_ringCfgWrite | apply keeps_setupAccess | apply keepsR_done | apply keepsR_done | apply keepsR_fault
      | intro _ | dsimp only)


theorem keepsR_execRingDrainDone {n : Nat} (h0 : Keeps s0 s) : KeepsR s0 (execRingDrainDone n s) := by
  unfold execRingDrainDone
  repeat' with_reducible (first
    | assumption | apply keeps_lower | apply keepsR_done | apply keepsR_ite | apply keeps_ite | apply keeps_ite2
      | apply keepsR_done | apply keepsR_fault | intro _ | split | dsimp only)


theorem keeps_cplTailWrite {n : Nat} {w : Word} (h0 : Keeps s0 s) : Keeps s0 (State.cplTailWrite s n w) := by
  unfold State.cplTailWrite
  try dsimp -iota -proj only
  repeat' with_reducible (first
    | assumption | apply keeps_hrtRefused | apply keeps_modHrt | apply keeps_setReg | apply keeps_settle | apply keeps_ite
      | apply keeps_ite2 | intro _ | split | dsimp only)


theorem keepsR_execCplTailWrite {ini : Nat} {n : Nat} {w : Word} (h0 : Keeps s0 s) : KeepsR s0 (execCplTailWrite ini n w s) := by
  unfold execCplTailWrite
  repeat' with_reducible (first
    | assumption | apply keeps_cplTailWrite | apply keeps_setupAccess | apply keepsR_done | apply keepsR_done | apply keepsR_fault
      | intro _ | dsimp only)


theorem keepsR_execCoalesceTimer {n : Nat} (h0 : Keeps s0 s) : KeepsR s0 (execCoalesceTimer n s) := by
  unfold execCoalesceTimer
  try dsimp -iota -proj only
  repeat' with_reducible (first
    | assumption | apply keeps_modHrt | apply keepsR_done | apply keepsR_ite | apply keeps_ite | apply keeps_ite2
      | apply keepsR_done | apply keepsR_fault | intro _ | split | dsimp only)


theorem keeps_irqClaim {c : Nat} (h0 : Keeps s0 s) : Keeps s0 (State.irqClaim s c) := by
  unfold State.irqClaim
  try dsimp -iota -proj only
  repeat' with_reducible (first
    | assumption | apply keeps_answerWith | apply keeps_modHrt | apply keeps_pmc | intro _ | split
      | exact keeps_of_eq (by assumption) (by assumption) | (refine keeps_of_eq (by assumption) ?_)
      | (refine keeps_of_eq3 (by assumption) ?_) | dsimp only)


theorem keepsR_execIrqClaim {ini : Nat} {c : Nat} (h0 : Keeps s0 s) : KeepsR s0 (execIrqClaim ini c s) := by
  unfold execIrqClaim
  repeat' with_reducible (first
    | assumption | apply keeps_irqClaim | apply keeps_setupAccess | apply keepsR_done | apply keepsR_done | apply keepsR_fault
      | intro _ | dsimp only)


theorem keeps_irqEoi {c : Nat} {w : Word} (h0 : Keeps s0 s) : Keeps s0 (State.irqEoi s c w) := by
  unfold State.irqEoi
  try dsimp -iota -proj only
  repeat' with_reducible (first
    | assumption | apply keeps_modHrt | intro _ | dsimp only)


theorem keepsR_execIrqEoi {ini : Nat} {c : Nat} {w : Word} (h0 : Keeps s0 s) : KeepsR s0 (execIrqEoi ini c w s) := by
  unfold execIrqEoi
  repeat' with_reducible (first
    | assumption | apply keeps_irqEoi | apply keeps_setupAccess | apply keepsR_done | apply keepsR_done | apply keepsR_fault
      | intro _ | dsimp only)


theorem keeps_swiSet {w : Word} (h0 : Keeps s0 s) : Keeps s0 (State.swiSet s w) := by
  unfold State.swiSet
  repeat' with_reducible (first
    | assumption | apply keeps_setReg | intro _ | dsimp only)


theorem keepsR_execSwiSet {ini : Nat} {w : Word} (h0 : Keeps s0 s) : KeepsR s0 (execSwiSet ini w s) := by
  unfold execSwiSet
  repeat' with_reducible (first
    | assumption | apply keeps_setupAccess | apply keeps_swiSet | apply keepsR_done | apply keepsR_done | apply keepsR_fault
      | intro _ | dsimp only)


theorem keeps_setMailbox {q : Nat} {m : Mailbox} (h0 : Keeps s0 s) : Keeps s0 (State.setMailbox s q m) := by
  unfold State.setMailbox
  try dsimp -iota -proj only
  repeat' with_reducible (first
    | assumption | apply keeps_modHrt | intro _ | dsimp only)


theorem keeps_mbxForeign (h0 : Keeps s0 s) : Keeps s0 (State.mbxForeign s) := by
  unfold State.mbxForeign
  repeat' with_reducible (first
    | assumption | apply keeps_bump | apply keeps_raise | intro _ | dsimp only)


theorem keeps_mbxArrive {q : Nat} {d : BitVec 64} (h0 : Keeps s0 s) : Keeps s0 (State.mbxArrive s q d) := by
  unfold State.mbxArrive
  try dsimp -iota -proj only
  repeat' with_reducible (first
    | assumption | apply keeps_bump | apply keeps_pmc | apply keeps_setMailbox | apply keeps_ite | apply keeps_ite2 | intro _
      | split | dsimp only)


theorem keeps_mbxLo {ini : Nat} {w : Word} (h0 : Keeps s0 s) : Keeps s0 (State.mbxLo s ini w) := by
  unfold State.mbxLo
  try dsimp -iota -proj only
  repeat' with_reducible (first
    | assumption | apply keeps_modHrt | intro _ | dsimp only)


theorem keepsR_execMbxWdataLoWrite {ini : Nat} {q : Nat} {w : Word} (h0 : Keeps s0 s) : KeepsR s0 (execMbxWdataLoWrite ini q w s) := by
  unfold execMbxWdataLoWrite
  repeat' with_reducible (first
    | assumption | apply keeps_mbxLo | apply keeps_setupAccess | apply keepsR_done | apply keepsR_done | apply keepsR_fault
      | intro _ | dsimp only)


theorem keeps_mbxOffer {ini : Nat} {q : Nat} {w : Word} (h0 : Keeps s0 s) : Keeps s0 (State.mbxOffer s ini q w) := by
  unfold State.mbxOffer
  try dsimp -iota -proj only
  repeat' with_reducible (first
    | assumption | apply keeps_answerWith | apply keeps_mbxArrive | apply keeps_mbxForeign | apply keeps_setMailbox
      | apply keeps_ite | apply keeps_ite2 | intro _ | split | dsimp only)


theorem keeps_mbxUnhold {q : Nat} (h0 : Keeps s0 s) : Keeps s0 (State.mbxUnhold s q) := by
  unfold State.mbxUnhold
  try dsimp -iota -proj only
  repeat' with_reducible (first
    | assumption | apply keeps_answerWith | apply keeps_mbxArrive | apply keeps_setMailbox | apply keeps_ite | apply keeps_ite2
      | intro _ | split | exact keeps_of_eq (by assumption) (by assumption) | (refine keeps_of_eq (by assumption) ?_)
      | (refine keeps_of_eq3 (by assumption) ?_) | dsimp only)


theorem keeps_mbxHi {ini : Nat} {q : Nat} {w : Word} (h0 : Keeps s0 s) : Keeps s0 (State.mbxHi s ini q w) := by
  unfold State.mbxHi
  repeat' with_reducible (first
    | assumption | apply keeps_mbxOffer | apply keeps_mbxUnhold | intro _ | dsimp only)


theorem keepsR_execMbxWdataHiWrite {ini : Nat} {q : Nat} {w : Word} (h0 : Keeps s0 s) : KeepsR s0 (execMbxWdataHiWrite ini q w s) := by
  unfold execMbxWdataHiWrite
  repeat' with_reducible (first
    | assumption | apply keeps_mbxHi | apply keeps_setupAccess | apply keepsR_done | apply keepsR_done | apply keepsR_fault
      | intro _ | dsimp only)


theorem keepsR_execMbxHeldWriteQueued {q : Nat} (h0 : Keeps s0 s) : KeepsR s0 (execMbxHeldWriteQueued q s) := by
  unfold execMbxHeldWriteQueued
  repeat' with_reducible (first
    | assumption | apply keeps_mbxUnhold | apply keepsR_done | apply keepsR_done | apply keepsR_fault | intro _ | dsimp only)


theorem keeps_mbxRead {ini : Nat} {q : Nat} {upset : Nat} (h0 : Keeps s0 s) : Keeps s0 (State.mbxRead s ini q upset) := by
  unfold State.mbxRead
  try dsimp -iota -proj only
  repeat' with_reducible (first
    | assumption | apply keeps_answerWith | apply keeps_bump | apply keeps_mbxForeign | apply keeps_pmc | apply keeps_raise
      | apply keeps_setHolder | apply keeps_setMailbox | apply keeps_ite | apply keeps_ite2 | intro _ | split
      | exact keeps_of_eq (by assumption) (by assumption) | (refine keeps_of_eq (by assumption) ?_)
      | (refine keeps_of_eq3 (by assumption) ?_) | dsimp only)


theorem keepsR_execMbxRdataLoRead {ini : Nat} {q : Nat} {upset : Nat} (h0 : Keeps s0 s) : KeepsR s0 (execMbxRdataLoRead ini q upset s) := by
  unfold execMbxRdataLoRead
  repeat' with_reducible (first
    | assumption | apply keeps_mbxRead | apply keeps_setupAccess | apply keepsR_done | apply keepsR_done | apply keepsR_fault
      | intro _ | dsimp only)


theorem keeps_mbxEmpty {q : Nat} (h0 : Keeps s0 s) : Keeps s0 (State.mbxEmpty s q) := by
  unfold State.mbxEmpty
  try dsimp -iota -proj only
  repeat' with_reducible (first
    | assumption | apply keeps_setMailbox | intro _ | dsimp only)


theorem keeps_mbxDisable {q : Nat} (h0 : Keeps s0 s) : Keeps s0 (State.mbxDisable s q) := by
  unfold State.mbxDisable
  try dsimp -iota -proj only
  repeat' with_reducible (first
    | assumption | apply keeps_answerWith | apply keeps_mbxEmpty | apply keeps_mbxForeign | apply keeps_setMailbox
      | apply keeps_ite | apply keeps_ite2 | intro _ | split | dsimp only)


theorem keeps_mbxDrop {q : Nat} (h0 : Keeps s0 s) : Keeps s0 (State.mbxDrop s q) := by
  unfold State.mbxDrop
  try dsimp -iota -proj only
  repeat' with_reducible (first
    | assumption | apply keeps_bump | apply keeps_setMailbox | apply keeps_ite | apply keeps_ite2 | intro _ | split | dsimp only)


theorem keeps_mbxCtrl {ini : Nat} {q : Nat} {w : Word} (h0 : Keeps s0 s) : Keeps s0 (State.mbxCtrl s ini q w) := by
  unfold State.mbxCtrl
  try dsimp -iota -proj only
  repeat' with_reducible (first
    | assumption | apply keeps_mbxDrop | apply keeps_mbxEmpty | apply keeps_ite | apply keeps_ite2 | intro _ | split | dsimp only)


theorem keepsR_execMbxFlush {ini : Nat} {q : Nat} {w : Word} (h0 : Keeps s0 s) : KeepsR s0 (execMbxFlush ini q w s) := by
  unfold execMbxFlush
  repeat' with_reducible (first
    | assumption | apply keeps_mbxCtrl | apply keeps_setupAccess | apply keepsR_done | apply keepsR_ite | apply keeps_ite
      | apply keeps_ite2 | apply keepsR_done | apply keepsR_fault | intro _ | split | dsimp only)


theorem keepsR_execMbxDropPkt {ini : Nat} {q : Nat} {w : Word} (h0 : Keeps s0 s) : KeepsR s0 (execMbxDropPkt ini q w s) := by
  unfold execMbxDropPkt
  repeat' with_reducible (first
    | assumption | apply keeps_mbxCtrl | apply keeps_setupAccess | apply keepsR_done | apply keepsR_ite | apply keeps_ite
      | apply keeps_ite2 | apply keepsR_done | apply keepsR_fault | intro _ | split | dsimp only)


theorem keepsR_execLockstepMismatch (h0 : Keeps s0 s) : KeepsR s0 (execLockstepMismatch s) := by
  unfold execLockstepMismatch
  repeat' with_reducible (first
    | assumption | apply keeps_lockstepError | apply keepsR_done | apply keepsR_ite | apply keeps_ite | apply keeps_ite2
      | apply keepsR_done | apply keepsR_fault | intro _ | split | dsimp only)


theorem keepsR_execLockstepRestart (h0 : Keeps s0 s) : KeepsR s0 (execLockstepRestart s) := by
  unfold execLockstepRestart
  repeat' with_reducible (first
    | assumption | apply keeps_lower | apply keepsR_done | apply keepsR_done | apply keepsR_fault | intro _ | dsimp only)


end Sys2Proof.Machine
end

