-- ==== Sys2Proof/Laws/KeepsNetTx.lean ====
section
/-! SUPPORT. What the operations of Machine/NetTx.lean keep. -/

set_option linter.unusedTactic false
set_option linter.unreachableTactic false

namespace Sys2Proof.Machine

variable {s0 s : State}

theorem keeps_modTxq {p : Nat} {q : Nat} {f : TxQ → TxQ} (h0 : Keeps s0 s) : Keeps s0 (State.modTxq s p q f) := by
  unfold State.modTxq
  try dsimp -iota -proj only
  repeat' with_reducible (first
    | assumption | apply keeps_modNet | intro _ | dsimp only)


theorem keeps_txPmc {p : Nat} {q : Nat} {t : Nat} (h0 : Keeps s0 s) : Keeps s0 (State.txPmc s p q t) := by
  unfold State.txPmc
  try dsimp -iota -proj only
  repeat' with_reducible (first
    | assumption | apply keeps_pmc | apply keeps_ite | apply keeps_ite2 | intro _ | split
      | exact keeps_of_eq (by assumption) (by assumption) | (refine keeps_of_eq (by assumption) ?_)
      | (refine keeps_of_eq3 (by assumption) ?_) | dsimp only)


theorem keeps_txAdvance {p : Nat} {t : Nat} (h0 : Keeps s0 s) : Keeps s0 (State.txAdvance s p t) := by
  unfold State.txAdvance
  try dsimp -iota -proj only
  repeat' with_reducible (first
    | assumption | apply keeps_modTxq | apply keeps_txPmc | apply keeps_ite | apply keeps_ite2 | apply keeps_foldl
      | apply keeps_foldl_pair | intro _ | split | dsimp only)


theorem keeps_readTx {n fuel i : Nat} {acc : List (List Byte)} (h : Keeps s0 s) :
    Keeps s0 (State.readTx n fuel i acc s).2 := by
  induction fuel generalizing i acc s with
  | zero => exact h
  | succ fuel ih =>
    unfold State.readTx
    try dsimp -iota -proj only
    repeat' with_reducible (first
      | assumption | apply ih | apply keeps_ite2 | intro _ | split
      | (refine keeps_of_eq (by assumption) (keeps_readMem ?_)) | apply keeps_mk2)


theorem keeps_readBuffers {l : List (List Byte)} {acc : List Byte} (h : Keeps s0 s) :
    Keeps s0 (State.readBuffers l acc s).2 := by
  induction l generalizing acc s with
  | nil => exact h
  | cons d l ih =>
    unfold State.readBuffers
    try dsimp -iota -proj only
    repeat' with_reducible (first
      | assumption | apply ih | intro _ | split
      | (refine keeps_of_eq (by assumption) (keeps_readMem ?_)) | apply keeps_mk2)


theorem keeps_txDone {n : Nat} {slot : Nat} {c : Cpl} (h0 : Keeps s0 s) : Keeps s0 (State.txDone s n slot c) := by
  unfold State.txDone
  repeat' with_reducible (first
    | assumption | apply keeps_descError | apply keeps_finish | apply keeps_ite | apply keeps_ite2 | intro _ | split | dsimp only)


theorem keeps_txLate {p : Nat} {q : Nat} {h : TxHead} (h0 : Keeps s0 s) : Keeps s0 (State.txLate s p q h) := by
  unfold State.txLate
  try dsimp -iota -proj only
  repeat' with_reducible (first
    | assumption | apply keeps_bump | apply keeps_finish | apply keeps_modTxq | apply keeps_raise | apply keeps_ite
      | apply keeps_ite2 | intro _ | split | dsimp only)


theorem keeps_txHold {p : Nat} {q : Nat} {slot : Nat} {ds : List (List Byte)} {bytes : List Byte} (h0 : Keeps s0 s) : Keeps s0 (State.txHold s p q slot ds bytes) := by
  unfold State.txHold
  try dsimp -iota -proj only
  repeat' with_reducible (first
    | assumption | apply keeps_finish | apply keeps_modTxq | apply keeps_txLate | apply keeps_ite | apply keeps_ite2 | intro _
      | split | exact keeps_of_eq (by assumption) (by assumption) | (refine keeps_of_eq (by assumption) ?_)
      | (refine keeps_of_eq3 (by assumption) ?_) | dsimp only)


theorem keeps_takeFrame {n : Nat} {k : Nat} {slot : Nat} {d : List Byte} (h0 : Keeps s0 s) : Keeps s0 (State.takeFrame s n k slot d) := by
  unfold State.takeFrame
  try dsimp -iota -proj only
  repeat' with_reducible (first
    | assumption | apply keeps_modHrt | apply keeps_setReg | intro _ | dsimp only)


theorem keeps_txTake {p q fuel : Nat} (h : Keeps s0 s) : Keeps s0 (State.txTake p q fuel s) := by
  induction fuel generalizing s with
  | zero => exact h
  | succ fuel ih =>
    unfold State.txTake
    try dsimp -iota -proj only
    repeat' with_reducible (first
      | assumption | apply ih | apply keeps_txDone | apply keeps_takeFrame | apply keeps_finish | apply keeps_txHold
      | apply keeps_bump | apply keeps_cplStall | apply keeps_ite | intro _ | split
      | (refine keeps_of_eq (by assumption) (keeps_readTx ?_)) | (refine keeps_of_eq (by assumption) (keeps_readBuffers ?_)))


theorem keeps_txFill {p : Nat} (h0 : Keeps s0 s) : Keeps s0 (State.txFill s p) := by
  unfold State.txFill
  repeat' with_reducible (first
    | assumption | apply keeps_txTake | apply keeps_foldl | apply keeps_foldl_pair | intro _ | dsimp only)


theorem keeps_spend {p : Nat} {q : Nat} {n : Nat} (h0 : Keeps s0 s) : Keeps s0 (State.spend s p q n) := by
  unfold State.spend
  try dsimp -iota -proj only
  repeat' with_reducible (first
    | assumption | apply keeps_modTxq | apply keeps_ite | apply keeps_ite2 | intro _ | split | dsimp only)


theorem keeps_frameOut {p : Nat} {t : Nat} {w : List Byte} (h0 : Keeps s0 s) : Keeps s0 (State.frameOut s p t w) := by
  unfold State.frameOut
  repeat' with_reducible (first
    | assumption | apply keeps_emit | apply keeps_frameIn | apply keeps_ite | apply keeps_ite2 | intro _ | split | dsimp only)


theorem keeps_txStart {p : Nat} {q : Nat} {t : Nat} {h : TxHead} (h0 : Keeps s0 s) : Keeps s0 (State.txStart s p q t h) := by
  unfold State.txStart
  try dsimp -iota -proj only
  repeat' with_reducible (first
    | assumption | apply keeps_bump | apply keeps_finish | apply keeps_frameOut | apply keeps_keyRefused | apply keeps_macsecOut
      | apply keeps_modNet | apply keeps_modTxq | apply keeps_pmc | apply keeps_spend | apply keeps_tsqPush | apply keeps_ite
      | apply keeps_ite2 | intro _ | split | exact keeps_of_eq (by assumption) (by assumption)
      | (refine keeps_of_eq (by assumption) ?_) | (refine keeps_of_eq3 (by assumption) ?_) | dsimp only)


theorem keeps_txConflicts {p : Nat} (h0 : Keeps s0 s) : Keeps s0 (State.txConflicts s p) := by
  unfold State.txConflicts
  repeat' with_reducible (first
    | assumption | apply keeps_txLate | apply keeps_ite | apply keeps_ite2 | apply keeps_foldl | apply keeps_foldl_pair | intro _
      | split | exact keeps_of_eq (by assumption) (by assumption) | (refine keeps_of_eq (by assumption) ?_)
      | (refine keeps_of_eq3 (by assumption) ?_) | dsimp only)


theorem keeps_txOverdue {p : Nat} (h0 : Keeps s0 s) : Keeps s0 (State.txOverdue s p) := by
  unfold State.txOverdue
  repeat' with_reducible (first
    | assumption | apply keeps_txLate | apply keeps_ite | apply keeps_ite2 | apply keeps_foldl | apply keeps_foldl_pair | intro _
      | split | exact keeps_of_eq (by assumption) (by assumption) | (refine keeps_of_eq (by assumption) ?_)
      | (refine keeps_of_eq3 (by assumption) ?_) | dsimp only)


theorem keepsR_execTxFrameSend {p : Nat} {t : Nat} (h0 : Keeps s0 s) : KeepsR s0 (execTxFrameSend p t s) := by
  unfold execTxFrameSend
  try dsimp -iota -proj only
  repeat' with_reducible (first
    | assumption | apply keeps_reach | apply keeps_txAdvance | apply keeps_txConflicts | apply keeps_txFill
      | apply keeps_txOverdue | apply keeps_txStart | apply keepsR_done | apply keepsR_ite | apply keeps_ite | apply keeps_ite2
      | apply keepsR_done | apply keepsR_fault | intro _ | split | exact keeps_of_eq (by assumption) (by assumption)
      | (refine keeps_of_eq (by assumption) ?_) | (refine keeps_of_eq3 (by assumption) ?_) | dsimp only)


theorem keepsR_execLaunchTimeReached {p : Nat} {q : Nat} (h0 : Keeps s0 s) : KeepsR s0 (execLaunchTimeReached p q s) := by
  unfold execLaunchTimeReached
  try dsimp -iota -proj only
  repeat' with_reducible (first
    | assumption | apply keeps_reach | apply keeps_txAdvance | apply keeps_txConflicts | apply keeps_txFill | apply keeps_txLate
      | apply keeps_txStart | apply keepsR_done | apply keepsR_ite | apply keeps_ite | apply keeps_ite2 | apply keepsR_done
      | apply keepsR_fault | intro _ | split | exact keeps_of_eq (by assumption) (by assumption)
      | (refine keeps_of_eq (by assumption) ?_) | (refine keeps_of_eq3 (by assumption) ?_) | dsimp only)


theorem keeps_dblWrite {ini : Nat} {w : Word} (h0 : Keeps s0 s) : Keeps s0 (State.dblWrite s ini w) := by
  unfold State.dblWrite
  try dsimp -iota -proj only
  repeat' with_reducible (first
    | assumption | apply keeps_doorbell | apply keeps_txAdvance | apply keeps_txFill | apply keeps_ite | apply keeps_ite2
      | intro _ | split | dsimp only)


theorem keepsR_execDoorbell {ini : Nat} {w : Word} (h0 : Keeps s0 s) : KeepsR s0 (execDoorbell ini w s) := by
  unfold execDoorbell
  repeat' with_reducible (first
    | assumption | apply keeps_dblWrite | apply keeps_setupAccess | apply keepsR_done | apply keepsR_done | apply keepsR_fault
      | intro _ | dsimp only)


end Sys2Proof.Machine
end

