-- ==== Sys2Proof/Laws/KeepsRegRules.lean ====
section
/-! SUPPORT. What the operations of Machine/RegRules.lean keep. -/

set_option linter.unusedTactic false
set_option linter.unreachableTactic false

namespace Sys2Proof.Machine

variable {s0 s : State}

theorem keeps_writeDiscarded {a : Nat} (h0 : Keeps s0 s) : Keeps s0 (State.writeDiscarded s a) := by
  unfold State.writeDiscarded
  repeat' with_reducible (first
    | assumption | apply keeps_cabRefused | apply keeps_raise | apply keeps_tmkRefused | apply keeps_ite | apply keeps_ite2
      | intro _ | split | exact keeps_of_eq (by assumption) (by assumption) | (refine keeps_of_eq (by assumption) ?_)
      | (refine keeps_of_eq3 (by assumption) ?_) | dsimp only)


end Sys2Proof.Machine
end

