-- ==== Sys2Proof/Laws/KeepsRecorder.lean ====
section
/-! SUPPORT. What the operations of Machine/Recorder.lean keep. -/

set_option linter.unusedTactic false
set_option linter.unreachableTactic false

namespace Sys2Proof.Machine

variable {s0 s : State}

theorem keeps_flushWrite {f : Flush} (h0 : Keeps s0 s) : Keeps s0 (State.flushWrite s f) := by
  unfold State.flushWrite
  try dsimp -iota -proj only
  repeat' with_reducible (first
    | assumption | apply keeps_modImg | apply keeps_setFld | apply keeps_setReg | apply keeps_storeBytes | apply keeps_foldl
      | apply keeps_foldl_pair | intro _ | dsimp only)


theorem keeps_flushTorn (h0 : Keeps s0 s) : Keeps s0 (State.flushTorn s) := by
  unfold State.flushTorn
  repeat' with_reducible (first
    | assumption | apply keeps_drawn | apply keeps_modMem | apply keeps_ite | apply keeps_ite2 | apply Mem.wf_putBytes
      | apply Sparse.wf_set | apply Sparse.wf_del | apply Sparse.wf_filter | exact Sparse.wf_nil | apply Sparse.wf_foldl
      | (apply Mem.wf_of; assumption) | intro _ | split | exact keeps_of_eq (by assumption) (by assumption)
      | (refine keeps_of_eq (by assumption) ?_) | (refine keeps_of_eq3 (by assumption) ?_) | dsimp only)


theorem keeps_flushAnswer (h0 : Keeps s0 s) : Keeps s0 (State.flushAnswer s) := by
  unfold State.flushAnswer
  try dsimp -iota -proj only
  repeat' with_reducible (first
    | assumption | apply keeps_finish | apply keeps_modRec | apply keeps_raise | apply keeps_ite | apply keeps_ite2
      | apply keeps_foldl | apply keeps_foldl_pair | intro _ | split | dsimp only)


theorem keeps_flushEnd (h0 : Keeps s0 s) : Keeps s0 (State.flushEnd s) := by
  unfold State.flushEnd
  try dsimp -iota -proj only
  repeat' with_reducible (first
    | assumption | apply keeps_bump | apply keeps_flushAnswer | apply keeps_flushBegin | apply keeps_lower | apply keeps_modRec
      | apply keeps_raise | apply keeps_ite | apply keeps_ite2 | intro _ | split | dsimp only)


theorem keeps_pfPass2 {f : Flush} (h0 : Keeps s0 s) : Keeps s0 (State.pfPass2 s f) := by
  unfold State.pfPass2
  try dsimp -iota -proj only
  repeat' with_reducible (first
    | assumption | apply keeps_extreme | apply keeps_modRec | apply keeps_setFld | intro _ | dsimp only)


theorem keeps_pfFlushEnd (h0 : Keeps s0 s) : Keeps s0 (State.pfFlushEnd s) := by
  unfold State.pfFlushEnd
  repeat' with_reducible (first
    | assumption | apply keeps_bump | apply keeps_flushEnd | apply keeps_lower | intro _ | dsimp only)


theorem keeps_pfFlushBegin (h0 : Keeps s0 s) : Keeps s0 (State.pfFlushBegin s) := by
  unfold State.pfFlushBegin
  try dsimp -iota -proj only
  repeat' with_reducible (first
    | assumption | apply keeps_flushBegin | apply keeps_modRec | apply keeps_raise | apply keeps_ite | apply keeps_ite2 | intro _
      | split | exact keeps_of_eq (by assumption) (by assumption) | (refine keeps_of_eq (by assumption) ?_)
      | (refine keeps_of_eq3 (by assumption) ?_) | dsimp only)


theorem keeps_pfFlushCommit (h0 : Keeps s0 s) : Keeps s0 (State.pfFlushCommit s) := by
  unfold State.pfFlushCommit
  try dsimp -iota -proj only
  repeat' with_reducible (first
    | assumption | apply keeps_modRec | apply keeps_pfPass2 | apply keeps_ite | apply keeps_ite2 | intro _ | split
      | exact keeps_of_eq (by assumption) (by assumption) | (refine keeps_of_eq (by assumption) ?_)
      | (refine keeps_of_eq3 (by assumption) ?_) | dsimp only)


theorem keeps_pfFlushWithdraw (h0 : Keeps s0 s) : Keeps s0 (State.pfFlushWithdraw s) := by
  unfold State.pfFlushWithdraw
  repeat' with_reducible (first
    | assumption | apply keeps_pfFlushEnd | apply keeps_ite | apply keeps_ite2 | intro _ | split
      | exact keeps_of_eq (by assumption) (by assumption) | (refine keeps_of_eq (by assumption) ?_)
      | (refine keeps_of_eq3 (by assumption) ?_) | dsimp only)


theorem keeps_resumeHeld (h0 : Keeps s0 s) : Keeps s0 (State.resumeHeld s) := by
  unfold State.resumeHeld
  repeat' with_reducible (first
    | assumption | apply keeps_fwlCommit | apply keeps_ite | apply keeps_ite2 | intro _ | split | dsimp only)


theorem keepsR_execFlushDone (h0 : Keeps s0 s) : KeepsR s0 (execFlushDone s) := by
  unfold execFlushDone
  try dsimp -iota -proj only
  repeat' with_reducible (first
    | assumption | apply keeps_flushEnd | apply keeps_flushWrite | apply keeps_modRec | apply keeps_pfFlushEnd
      | apply keeps_pfPass2 | apply keeps_resumeHeld | apply keepsR_done | apply keepsR_ite | apply keeps_ite | apply keeps_ite2
      | apply keepsR_done | apply keepsR_fault | intro _ | split | exact keeps_of_eq (by assumption) (by assumption)
      | (refine keeps_of_eq (by assumption) ?_) | (refine keeps_of_eq3 (by assumption) ?_) | dsimp only)


theorem keepsR_execFlushTimer (h0 : Keeps s0 s) : KeepsR s0 (execFlushTimer s) := by
  unfold execFlushTimer
  repeat' with_reducible (first
    | assumption | apply keeps_flushTrigger | apply keepsR_done | apply keepsR_ite | apply keeps_ite | apply keeps_ite2
      | apply keepsR_done | apply keepsR_fault | intro _ | split | dsimp only)


theorem keepsR_execRecFlush (h0 : Keeps s0 s) : KeepsR s0 (execRecFlush s) := by
  unfold execRecFlush
  try dsimp -iota -proj only
  repeat' with_reducible (first
    | assumption | apply keeps_flushTrigger | apply keeps_modRec | apply keeps_takeCommand | apply keepsR_done | apply keepsR_done
      | apply keepsR_fault | intro _ | dsimp only)


theorem keeps_clearRefused {c : Cpl} (h0 : Keeps s0 s) : Keeps s0 (State.clearRefused s c).2 := by
  unfold State.clearRefused
  repeat' with_reducible (first
    | assumption | apply keeps_bump | apply keeps_raise | intro _ | apply keeps_mk2 | dsimp only)


theorem keeps_reindexFaults {scope : Nat} (h0 : Keeps s0 s) : Keeps s0 (State.reindexFaults s scope) := by
  unfold State.reindexFaults
  try dsimp -iota -proj only
  repeat' with_reducible (first
    | assumption | apply keeps_modRec | apply keeps_ite | apply keeps_ite2 | intro _ | split | dsimp only)


theorem keepsR_execRecClear (h0 : Keeps s0 s) : KeepsR s0 (execRecClear s) := by
  unfold execRecClear
  try dsimp -iota -proj only
  repeat' with_reducible (first
    | assumption | apply keeps_audit | apply keeps_auditWait | apply keeps_bump | apply keeps_clearRefused
      | apply keeps_flushTrigger | apply keeps_keyRefused | apply keeps_keyRequest | apply keeps_life | apply keeps_modImg
      | apply keeps_modRec | apply keeps_reindexFaults | apply keeps_setReg | apply keeps_takeCommand | apply keeps_withBlock
      | apply keepsR_done | apply keepsR_ite | apply keeps_ite | apply keeps_ite2 | apply keepsR_done | apply keepsR_fault
      | intro _ | split | exact keeps_of_eq (by assumption) (by assumption) | (refine keeps_of_eq (by assumption) ?_)
      | (refine keeps_of_eq3 (by assumption) ?_) | dsimp only)


theorem keeps_recTake {pick : Option (Nat × List Byte)} (h0 : Keeps s0 s) : Keeps s0 (State.recTake s pick) := by
  unfold State.recTake
  try dsimp -iota -proj only
  repeat' with_reducible (first
    | assumption | apply keeps_audit | apply keeps_bump | apply keeps_keyRequest | apply keeps_life | apply keeps_modImg
      | apply keeps_raise | apply keeps_setFld | apply keeps_setReg | apply keeps_ite | apply keeps_ite2 | intro _ | split
      | exact keeps_of_eq (by assumption) (by assumption) | (refine keeps_of_eq (by assumption) ?_)
      | (refine keeps_of_eq3 (by assumption) ?_) | dsimp only)


theorem keeps_recLoad (h0 : Keeps s0 s) : Keeps s0 (State.recLoad s) := by
  unfold State.recLoad
  repeat' with_reducible (first
    | assumption | apply keeps_recTake | intro _ | dsimp only)


theorem keeps_recFold (h0 : Keeps s0 s) : Keeps s0 (State.recFold s) := by
  unfold State.recFold
  try dsimp -iota -proj only
  repeat' with_reducible (first
    | assumption | apply keeps_life | apply keeps_modImg | apply keeps_ite | apply keeps_ite2 | apply keeps_foldl
      | apply keeps_foldl_pair | intro _ | split | dsimp only)


theorem keeps_sampleSupplies {temps : List Int} {vin : Nat} {vbat : Nat} {store : Nat} (h0 : Keeps s0 s) : Keeps s0 (State.sampleSupplies s temps vin vbat store) := by
  unfold State.sampleSupplies
  try dsimp -iota -proj only
  repeat' with_reducible (first
    | assumption | apply keeps_extreme | apply keeps_hist | apply keeps_setFld | apply keeps_ite | apply keeps_ite2 | intro _
      | split | exact keeps_of_eq (by assumption) (by assumption) | (refine keeps_of_eq (by assumption) ?_)
      | (refine keeps_of_eq3 (by assumption) ?_) | dsimp only)


theorem keeps_sampleTiming (h0 : Keeps s0 s) : Keeps s0 (State.sampleTiming s) := by
  unfold State.sampleTiming
  try dsimp -iota -proj only
  repeat' with_reducible (first
    | assumption | apply keeps_extreme | apply keeps_hist | apply keeps_ite | apply keeps_ite2 | intro _ | split | dsimp only)


theorem keeps_sampleChains (h0 : Keeps s0 s) : Keeps s0 (State.sampleChains s) := by
  unfold State.sampleChains
  repeat' with_reducible (first
    | assumption | apply keeps_hist | apply keeps_foldl | apply keeps_foldl_pair | intro _ | split
      | exact keeps_of_eq (by assumption) (by assumption) | (refine keeps_of_eq (by assumption) ?_)
      | (refine keeps_of_eq3 (by assumption) ?_) | dsimp only)


theorem keeps_sampleRails (h0 : Keeps s0 s) : Keeps s0 (State.sampleRails s) := by
  unfold State.sampleRails
  repeat' with_reducible (first
    | assumption | apply keeps_extreme | apply keeps_hist | apply keeps_ite | apply keeps_ite2 | apply keeps_foldl
      | apply keeps_foldl_pair | intro _ | split | dsimp only)


theorem keeps_sampleRest (h0 : Keeps s0 s) : Keeps s0 (State.sampleRest s) := by
  unfold State.sampleRest
  try dsimp -iota -proj only
  repeat' with_reducible (first
    | assumption | apply keeps_extreme | apply keeps_hist | apply keeps_life | apply keeps_ite | apply keeps_ite2 | intro _
      | split | dsimp only)


theorem keepsR_execHistogramSample {temps : List Int} {vin : Nat} {vbat : Nat} {store : Nat} (h0 : Keeps s0 s) : KeepsR s0 (execHistogramSample temps vin vbat store s) := by
  unfold execHistogramSample
  try dsimp -iota -proj only
  repeat' with_reducible (first
    | assumption | apply keeps_modImg | apply keeps_modRec | apply keeps_sampleChains | apply keeps_sampleRails
      | apply keeps_sampleRest | apply keeps_sampleSupplies | apply keeps_sampleTiming | apply keepsR_done | apply keepsR_ite
      | apply keeps_ite | apply keeps_ite2 | apply keepsR_done | apply keepsR_fault | intro _ | split | dsimp only)


theorem keeps_pmcCtrl {w : Word} (h0 : Keeps s0 s) : Keeps s0 (State.pmcCtrl s w) := by
  unfold State.pmcCtrl
  try dsimp -iota -proj only
  repeat' with_reducible (first
    | assumption | apply keeps_setCount | apply keeps_setFld | apply keeps_ite | apply keeps_ite2 | apply keeps_foldl
      | apply keeps_foldl_pair | intro _ | split | dsimp only)


theorem keepsR_execPmcRun {ini : Nat} {w : Word} (h0 : Keeps s0 s) : KeepsR s0 (execPmcRun ini w s) := by
  unfold execPmcRun
  repeat' with_reducible (first
    | assumption | apply keeps_pmcCtrl | apply keeps_setupAccess | apply keepsR_done | apply keepsR_done | apply keepsR_fault
      | intro _ | dsimp only)


theorem keepsR_execPmcZero {ini : Nat} {w : Word} (h0 : Keeps s0 s) : KeepsR s0 (execPmcZero ini w s) := by
  unfold execPmcZero
  repeat' with_reducible (first
    | assumption | apply keeps_pmcCtrl | apply keeps_setupAccess | apply keepsR_done | apply keepsR_ite | apply keeps_ite
      | apply keeps_ite2 | apply keepsR_done | apply keepsR_fault | intro _ | split | dsimp only)


end Sys2Proof.Machine
end

