-- ==== Sys2Proof/Laws/KeepsUpdate.lean ====
section
/-! SUPPORT. What the operations of Machine/Update.lean keep. -/

set_option linter.unusedTactic false
set_option linter.unreachableTactic false

namespace Sys2Proof.Machine

variable {s0 s : State}

theorem keeps_setUpdState {t : Nat} {v : Nat} (h0 : Keeps s0 s) : Keeps s0 (State.setUpdState s t v) := by
  unfold State.setUpdState
  try dsimp -iota -proj only
  repeat' with_reducible (first
    | assumption | apply keeps_modBoot | intro _ | dsimp only)


theorem keeps_modCtl {f : UpdCtl → UpdCtl} (h0 : Keeps s0 s) : Keeps s0 (State.modCtl s f) := by
  unfold State.modCtl
  try dsimp -iota -proj only
  repeat' with_reducible (first
    | assumption | apply keeps_modBoot | intro _ | dsimp only)


theorem keeps_showSlot {n : Nat} (h0 : Keeps s0 s) : Keeps s0 (State.showSlot s n) := by
  unfold State.showSlot
  try dsimp -iota -proj only
  repeat' with_reducible (first
    | assumption | apply keeps_setReg | apply keeps_ite | apply keeps_ite2 | intro _ | split | dsimp only)


theorem keeps_showSettings (h0 : Keeps s0 s) : Keeps s0 (State.showSettings s) := by
  unfold State.showSettings
  try dsimp -iota -proj only
  repeat' with_reducible (first
    | assumption | apply keeps_setFld | apply keeps_ite | apply keeps_ite2 | intro _ | split | dsimp only)


theorem keeps_showUpd (h0 : Keeps s0 s) : Keeps s0 (State.showUpd s) := by
  unfold State.showUpd
  try dsimp -iota -proj only
  repeat' with_reducible (first
    | assumption | apply keeps_setFld | apply keeps_setReg | apply keeps_showSettings | apply keeps_showSlot | intro _
      | dsimp only)


theorem keeps_ownerGood {a : Nat} (h0 : Keeps s0 s) : Keeps s0 (State.ownerGood s a).2 := by
  unfold State.ownerGood
  try dsimp -iota -proj only
  repeat' with_reducible (first
    | assumption | apply keeps_keyRequest | apply keeps_ite | apply keeps_ite2 | intro _ | split
      | exact keeps_of_eq (by assumption) (by assumption) | (refine keeps_of_eq (by assumption) ?_)
      | (refine keeps_of_eq3 (by assumption) ?_) | apply keeps_mk2 | dsimp only)


theorem keeps_imageCheck {a : Nat} {owner : Bool} (h0 : Keeps s0 s) : Keeps s0 (State.imageCheck s a owner).2 := by
  unfold State.imageCheck
  try dsimp -iota -proj only
  repeat' with_reducible (first
    | assumption | apply keeps_ownerGood | apply keeps_ite | apply keeps_ite2 | intro _ | split
      | exact keeps_of_eq (by assumption) (by assumption) | (refine keeps_of_eq (by assumption) ?_)
      | (refine keeps_of_eq3 (by assumption) ?_) | apply keeps_mk2 | dsimp only)


theorem keeps_packageCheck (h0 : Keeps s0 s) : Keeps s0 (State.packageCheck s).2 := by
  unfold State.packageCheck
  try dsimp -iota -proj only
  repeat' with_reducible (first
    | assumption | apply keeps_imageCheck | apply keeps_ite | apply keeps_ite2 | intro _ | split | apply keeps_mk2 | dsimp only)


theorem keeps_auditGuard {f : State → State} (hf : ∀  u, Keeps s0 u → Keeps s0 (f u)) (h0 : Keeps s0 s) : Keeps s0 (State.auditGuard s f) := by
  unfold State.auditGuard
  try dsimp -iota -proj only
  repeat' with_reducible (first
    | assumption | apply keeps_auditWait | apply hf | apply keeps_ite | apply keeps_ite2 | intro _ | split | dsimp only)


theorem keeps_updCommand {op : Nat} {n : Nat} {k : Nat → List Byte → State → Option Cpl × State} (hk : ∀ x0 x1 u, Keeps s0 u → Keeps s0 (k x0 x1 u).2) (h0 : Keeps s0 s) : Keeps s0 (State.updCommand s op n k) := by
  unfold State.updCommand
  repeat' with_reducible (first
    | assumption | apply keeps_takeCommand | apply hk | apply keeps_ite | apply keeps_ite2 | intro _ | split | dsimp only)


theorem keeps_program {t : Nat} {off : Nat} {bs : List Byte} (h0 : Keeps s0 s) : Keeps s0 (State.program s t off bs) := by
  unfold State.program
  try dsimp -iota -proj only
  repeat' with_reducible (first
    | assumption | apply keeps_bump | apply keeps_modMem | apply keeps_setUpdState | apply keeps_showUpd | apply keeps_ite
      | apply keeps_ite2 | apply Mem.wf_putBytes | apply Sparse.wf_set | apply Sparse.wf_del | apply Sparse.wf_filter
      | exact Sparse.wf_nil | apply Sparse.wf_foldl | (apply Mem.wf_of; assumption) | intro _ | split | dsimp only)


theorem keepsR_execUpdWrite (h0 : Keeps s0 s) : KeepsR s0 (execUpdWrite s) := by
  unfold execUpdWrite
  try dsimp -iota -proj only
  repeat' with_reducible (first
    | assumption | apply keeps_program | apply keeps_readMem | apply keeps_updCommand | apply keepsR_done | apply keepsR_ite
      | apply keeps_ite | apply keeps_ite2 | apply keepsR_done | apply keepsR_fault | intro _ | split
      | exact keeps_of_eq (by assumption) (by assumption) | (refine keeps_of_eq (by assumption) ?_)
      | (refine keeps_of_eq3 (by assumption) ?_) | dsimp only)


theorem keeps_checked {t : Nat} {pass : Bool} (h0 : Keeps s0 s) : Keeps s0 (State.checked s t pass) := by
  unfold State.checked
  repeat' with_reducible (first
    | assumption | apply keeps_setUpdState | apply keeps_showUpd | apply keeps_ite | apply keeps_ite2 | intro _ | split
      | dsimp only)


theorem keepsR_execUpdCheck (h0 : Keeps s0 s) : KeepsR s0 (execUpdCheck s) := by
  unfold execUpdCheck
  try dsimp -iota -proj only
  repeat' with_reducible (first
    | assumption | apply keeps_bump | apply keeps_checked | apply keeps_imageCheck | apply keeps_packageCheck | apply keeps_raise
      | apply keeps_updCommand | apply keepsR_done | apply keepsR_ite | apply keeps_ite | apply keeps_ite2 | apply keepsR_done
      | apply keepsR_fault | intro _ | split | exact keeps_of_eq (by assumption) (by assumption)
      | (refine keeps_of_eq (by assumption) ?_) | (refine keeps_of_eq3 (by assumption) ?_) | dsimp only)


theorem keeps_auditActivation {t : Nat} {cancel : Nat} (h0 : Keeps s0 s) : Keeps s0 (State.auditActivation s t cancel) := by
  unfold State.auditActivation
  repeat' with_reducible (first
    | assumption | apply keeps_audit | intro _ | dsimp only)


theorem keeps_activate {t : Nat} (h0 : Keeps s0 s) : Keeps s0 (State.activate s t) := by
  unfold State.activate
  try dsimp -iota -proj only
  repeat' with_reducible (first
    | assumption | apply keeps_auditActivation | apply keeps_bump | apply keeps_modCtl | apply keeps_setUpdState
      | apply keeps_showUpd | apply keeps_ite | apply keeps_ite2 | intro _ | split | dsimp only)


theorem keepsR_execUpdActivate (h0 : Keeps s0 s) : KeepsR s0 (execUpdActivate s) := by
  unfold execUpdActivate
  repeat' with_reducible (first
    | assumption | apply keeps_activate | apply keeps_auditGuard | apply keeps_updCommand | apply keepsR_done | apply keepsR_ite
      | apply keeps_ite | apply keeps_ite2 | apply keepsR_done | apply keepsR_fault | intro _ | split | dsimp only)


theorem keepsR_execUpdCancel (h0 : Keeps s0 s) : KeepsR s0 (execUpdCancel s) := by
  unfold execUpdCancel
  repeat' with_reducible (first
    | assumption | apply keeps_auditActivation | apply keeps_auditGuard | apply keeps_setUpdState | apply keeps_showUpd
      | apply keeps_updCommand | apply keepsR_done | apply keepsR_ite | apply keeps_ite | apply keeps_ite2 | apply keepsR_done
      | apply keepsR_fault | intro _ | split | dsimp only)


theorem keeps_confirm {r : Nat} (h0 : Keeps s0 s) : Keeps s0 (State.confirm s r) := by
  unfold State.confirm
  try dsimp -iota -proj only
  repeat' with_reducible (first
    | assumption | apply keeps_audit | apply keeps_bump | apply keeps_modBoot | apply keeps_modCtl | apply keeps_showUpd
      | apply keeps_ite | apply keeps_ite2 | intro _ | split | dsimp only)


theorem keepsR_execUpdConfirm (h0 : Keeps s0 s) : KeepsR s0 (execUpdConfirm s) := by
  unfold execUpdConfirm
  repeat' with_reducible (first
    | assumption | apply keeps_auditGuard | apply keeps_confirm | apply keeps_takeCommand | apply keepsR_done | apply keepsR_ite
      | apply keeps_ite | apply keeps_ite2 | apply keepsR_done | apply keepsR_fault | intro _ | split | dsimp only)


theorem keeps_swapTo {p : Nat} {e : List Byte} (h0 : Keeps s0 s) : Keeps s0 (State.swapTo s p e) := by
  unfold State.swapTo
  try dsimp -iota -proj only
  repeat' with_reducible (first
    | assumption | apply keeps_modBoot | apply keeps_runSection | apply keeps_ite | apply keeps_ite2 | intro _ | split
      | dsimp only)


theorem keepsR_execUpdProcSwap (h0 : Keeps s0 s) : KeepsR s0 (execUpdProcSwap s) := by
  unfold execUpdProcSwap
  try dsimp -iota -proj only
  repeat' with_reducible (first
    | assumption | apply keeps_audit | apply keeps_auditGuard | apply keeps_bump | apply keeps_swapTo | apply keeps_updCommand
      | apply keepsR_done | apply keepsR_ite | apply keeps_ite | apply keeps_ite2 | apply keepsR_done | apply keepsR_fault
      | intro _ | split | exact keeps_of_eq (by assumption) (by assumption) | (refine keeps_of_eq (by assumption) ?_)
      | (refine keeps_of_eq3 (by assumption) ?_) | dsimp only)


theorem keepsR_execWindowWarn (h0 : Keeps s0 s) : KeepsR s0 (execWindowWarn s) := by
  unfold execWindowWarn
  try dsimp -iota -proj only
  repeat' with_reducible (first
    | assumption | apply keeps_raise | apply keeps_reach | apply keepsR_done | apply keepsR_ite | apply keeps_ite
      | apply keeps_ite2 | apply keepsR_done | apply keepsR_fault | intro _ | split
      | exact keeps_of_eq (by assumption) (by assumption) | (refine keeps_of_eq (by assumption) ?_)
      | (refine keeps_of_eq3 (by assumption) ?_) | dsimp only)


end Sys2Proof.Machine
end

