-- ==== Sys2Proof/Laws/KeepsDomains.lean ====
section
/-! SUPPORT. What the operations of Machine/Domains.lean keep. -/

set_option linter.unusedTactic false
set_option linter.unreachableTactic false

namespace Sys2Proof.Machine

variable {s0 s : State}

theorem keeps_clearRegs {p : Nat → Bool} (h0 : Keeps s0 s) : Keeps s0 (State.clearRegs s p) := by
  unfold State.clearRegs
  repeat' with_reducible (first
    | assumption | apply keeps_resetCounts | apply keeps_resetRegs | intro _ | dsimp only)


theorem keeps_memLost {lo : Nat} {hi : Nat} (h0 : Keeps s0 s) : Keeps s0 (State.memLost s lo hi) := by
  unfold State.memLost
  try dsimp -iota -proj only
  repeat' with_reducible (first
    | assumption | apply keeps_modMem | apply Mem.wf_putBytes | apply Sparse.wf_set | apply Sparse.wf_del | apply Sparse.wf_filter
      | exact Sparse.wf_nil | apply Sparse.wf_foldl | (apply Mem.wf_of; assumption) | intro _ | dsimp only)


theorem keeps_hearthLost (h0 : Keeps s0 s) : Keeps s0 (State.hearthLost s) := by
  unfold State.hearthLost
  try dsimp -iota -proj only
  repeat' with_reducible (first
    | assumption | apply keeps_memLost | apply keeps_modHrt | apply keeps_modMem | apply Mem.wf_putBytes | apply Sparse.wf_set
      | apply Sparse.wf_del | apply Sparse.wf_filter | exact Sparse.wf_nil | apply Sparse.wf_foldl | (apply Mem.wf_of; assumption)
      | intro _ | dsimp only)


theorem keeps_netPortGone {p : Nat} (h0 : Keeps s0 s) : Keeps s0 (State.netPortGone s p) := by
  unfold State.netPortGone
  try dsimp -iota -proj only
  repeat' with_reducible (first
    | assumption | apply keeps_modNet | apply keeps_portLinkLost | apply keeps_ite | apply keeps_ite2 | intro _ | split
      | dsimp only)


theorem keeps_netGone {d : Nat} {p : Nat} (h0 : Keeps s0 s) : Keeps s0 (State.netGone s d p) := by
  unfold State.netGone
  try dsimp -iota -proj only
  repeat' with_reducible (first
    | assumption | apply keeps_modNet | apply keeps_netPortGone | apply keeps_settled | apply keeps_ite | apply keeps_ite2
      | intro _ | split | dsimp only)


theorem keeps_scanGroupGone {g : Nat} (h0 : Keeps s0 s) : Keeps s0 (State.scanGroupGone s g) := by
  unfold State.scanGroupGone
  try dsimp -iota -proj only
  repeat' with_reducible (first
    | assumption | apply keeps_abandonPort | apply keeps_greyFigures | apply keeps_modScn | apply keeps_ite | apply keeps_ite2
      | apply keeps_foldl | apply keeps_foldl_pair | intro _ | split | dsimp only)


theorem keeps_tongsGone (h0 : Keeps s0 s) : Keeps s0 (State.tongsGone s) := by
  unfold State.tongsGone
  try dsimp -iota -proj only
  repeat' with_reducible (first
    | assumption | apply keeps_dropClaim | apply keeps_modRad | apply keeps_modTwn | intro _ | dsimp only)


theorem keeps_coreGone {c : Nat} (h0 : Keeps s0 s) : Keeps s0 (State.coreGone s c) := by
  unfold State.coreGone
  try dsimp -iota -proj only
  repeat' with_reducible (first
    | assumption | apply keeps_modHrt | intro _ | dsimp only)


theorem keeps_keystoreGone (h0 : Keeps s0 s) : Keeps s0 (State.keystoreGone s) := by
  unfold State.keystoreGone
  try dsimp -iota -proj only
  repeat' with_reducible (first
    | assumption | apply keeps_modKey | apply keeps_setKeySlot | intro _ | dsimp only)


theorem keeps_timeGone (h0 : Keeps s0 s) : Keeps s0 (State.timeGone s) := by
  unfold State.timeGone
  repeat' with_reducible (first
    | assumption | apply keeps_modPll | apply keeps_modTmk | apply keeps_setWall | intro _ | dsimp only)


theorem keeps_backupGone (h0 : Keeps s0 s) : Keeps s0 (State.backupGone s) := by
  unfold State.backupGone
  repeat' with_reducible (first
    | assumption | apply keeps_modBat | apply keeps_modRtc | intro _ | dsimp only)


theorem keeps_domainState {d : Nat} (h0 : Keeps s0 s) : Keeps s0 (State.domainState s d) := by
  unfold State.domainState
  try dsimp -iota -proj only
  repeat' with_reducible (first
    | assumption | apply keeps_backupGone | apply keeps_cabDown | apply keeps_coreGone | apply keeps_flushTorn
      | apply keeps_hearthLost | apply keeps_keystoreGone | apply keeps_memLost | apply keeps_modAnv | apply keeps_modHrt
      | apply keeps_modMtr | apply keeps_modRad | apply keeps_modRec | apply keeps_netGone | apply keeps_scanGroupGone
      | apply keeps_takeSwap | apply keeps_timeGone | apply keeps_tongsGone | apply keeps_ite | apply keeps_ite2 | intro _ | split
      | exact keeps_of_eq (by assumption) (by assumption) | (refine keeps_of_eq (by assumption) ?_)
      | (refine keeps_of_eq3 (by assumption) ?_) | dsimp only)


theorem keeps_domainDown {d : Nat} (h0 : Keeps s0 s) : Keeps s0 (State.domainDown s d) := by
  unfold State.domainDown
  try dsimp -iota -proj only
  repeat' with_reducible (first
    | assumption | apply keeps_clearRegs | apply keeps_domainState | apply keeps_judgeHealth | apply keeps_judgeSync
      | apply keeps_keepSnaps | apply keeps_modHrt | apply keeps_setFld | apply keeps_showTcxo | apply keeps_ite
      | apply keeps_ite2 | intro _ | split | dsimp only)


theorem keeps_showSpares (h0 : Keeps s0 s) : Keeps s0 (State.showSpares s) := by
  unfold State.showSpares
  repeat' with_reducible (first
    | assumption | apply keeps_setFld | intro _ | dsimp only)


theorem keeps_restoreRegs {p : Nat → Bool} (h0 : Keeps s0 s) : Keeps s0 (State.restoreRegs s p) := by
  unfold State.restoreRegs
  try dsimp -iota -proj only
  repeat' with_reducible (first
    | assumption | apply keeps_setReg | apply keeps_ite | apply keeps_ite2 | apply keeps_foldl | apply keeps_foldl_pair | intro _
      | split | dsimp only)


theorem keeps_clocksUp (h0 : Keeps s0 s) : Keeps s0 (State.clocksUp s) := by
  unfold State.clocksUp
  try dsimp -iota -proj only
  repeat' with_reducible (first
    | assumption | apply keeps_raise | apply keeps_setFld | intro _ | dsimp only)


theorem keeps_keystoreUp (h0 : Keeps s0 s) : Keeps s0 (State.keystoreUp s) := by
  unfold State.keystoreUp
  try dsimp -iota -proj only
  repeat' with_reducible (first
    | assumption | apply keeps_bump | apply keeps_keyCount | apply keeps_modKey | apply keeps_raise | apply keeps_setReg | intro _
      | split | exact keeps_of_eq (by assumption) (by assumption) | (refine keeps_of_eq (by assumption) ?_)
      | (refine keeps_of_eq3 (by assumption) ?_) | dsimp only)


theorem keeps_domainStart {d : Nat} (h0 : Keeps s0 s) : Keeps s0 (State.domainStart s d) := by
  unfold State.domainStart
  repeat' with_reducible (first
    | assumption | apply keeps_cabUp | apply keeps_calLoad | apply keeps_clocksUp | apply keeps_keystoreUp
      | apply keeps_meterRestore | apply keeps_mirrorRegister | apply keeps_radFlush | apply keeps_recLoad
      | apply keeps_seePeerClaim | apply keeps_setFld | apply keeps_setRole | apply keeps_showSpares | apply keeps_showTcxo
      | apply keeps_showUpd | apply keeps_ite | apply keeps_ite2 | intro _ | split
      | exact keeps_of_eq (by assumption) (by assumption) | (refine keeps_of_eq (by assumption) ?_)
      | (refine keeps_of_eq3 (by assumption) ?_) | dsimp only)


theorem keeps_domainUp {d : Nat} (h0 : Keeps s0 s) : Keeps s0 (State.domainUp s d) := by
  unfold State.domainUp
  try dsimp -iota -proj only
  repeat' with_reducible (first
    | assumption | apply keeps_domainStart | apply keeps_judgeHealth | apply keeps_restoreRegs | apply keeps_setFld
      | apply keeps_ite | apply keeps_ite2 | intro _ | split | dsimp only)


end Sys2Proof.Machine
end

