-- ==== Sys2Proof/Laws/KeepsRtc.lean ====
section
/-! SUPPORT. What the operations of Machine/Rtc.lean keep. -/

set_option linter.unusedTactic false
set_option linter.unreachableTactic false

namespace Sys2Proof.Machine

variable {s0 s : State}

theorem keeps_rtcRefused (h0 : Keeps s0 s) : Keeps s0 (State.rtcRefused s) := by
  unfold State.rtcRefused
  repeat' with_reducible (first
    | assumption | apply keeps_raise | intro _ | dsimp only)


theorem keeps_rtcRead {ini : Nat} (h0 : Keeps s0 s) : Keeps s0 (State.rtcRead s ini) := by
  unfold State.rtcRead
  try dsimp -iota -proj only
  repeat' with_reducible (first
    | assumption | apply keeps_answerWith | apply keeps_setHolder | intro _ | dsimp only)


theorem keeps_rtcAdjusted {d : Int} (h0 : Keeps s0 s) : Keeps s0 (State.rtcAdjusted s d) := by
  unfold State.rtcAdjusted
  try dsimp -iota -proj only
  repeat' with_reducible (first
    | assumption | apply keeps_lower | apply keeps_modRtc | apply keeps_raise | intro _ | dsimp only)


theorem keeps_rtcAdjustStep (h0 : Keeps s0 s) : Keeps s0 (State.rtcAdjustStep s) := by
  unfold State.rtcAdjustStep
  try dsimp -iota -proj only
  repeat' with_reducible (first
    | assumption | apply keeps_lower | apply keeps_modRtc | apply keeps_rtcAdjusted | apply keeps_ite | apply keeps_ite2 | intro _
      | split | dsimp only)


theorem keeps_rtcTrimStep (h0 : Keeps s0 s) : Keeps s0 (State.rtcTrimStep s) := by
  unfold State.rtcTrimStep
  try dsimp -iota -proj only
  repeat' with_reducible (first
    | assumption | apply keeps_modRtc | apply keeps_ite | apply keeps_ite2 | intro _ | split | dsimp only)


theorem keeps_rtcLeapStep (h0 : Keeps s0 s) : Keeps s0 (State.rtcLeapStep s) := by
  unfold State.rtcLeapStep
  try dsimp -iota -proj only
  repeat' with_reducible (first
    | assumption | apply keeps_lower | apply keeps_raise | apply keeps_setFld | apply keeps_ite | apply keeps_ite2 | intro _
      | split | dsimp only)


theorem keeps_alarmStep {a : Nat} (h0 : Keeps s0 s) : Keeps s0 (State.alarmStep s a) := by
  unfold State.alarmStep
  try dsimp -iota -proj only
  repeat' with_reducible (first
    | assumption | apply keeps_lower | apply keeps_raise | apply keeps_wake | apply keeps_ite | apply keeps_ite2 | intro _ | split
      | dsimp only)


theorem keepsR_execRtcTick (h0 : Keeps s0 s) : KeepsR s0 (execRtcTick s) := by
  unfold execRtcTick
  try dsimp -iota -proj only
  repeat' with_reducible (first
    | assumption | apply keeps_alarmStep | apply keeps_rtcAdjustStep | apply keeps_rtcLeapStep | apply keeps_rtcTrimStep
      | apply keeps_setFld | apply keepsR_done | apply keepsR_ite | apply keeps_ite | apply keeps_ite2 | apply keepsR_done
      | apply keepsR_fault | intro _ | split | dsimp only)


theorem keeps_rtcWrite {k : State → State} (hk : ∀  u, Keeps s0 u → Keeps s0 (k u)) (h0 : Keeps s0 s) : Keeps s0 (State.rtcWrite s k) := by
  unfold State.rtcWrite
  repeat' with_reducible (first
    | assumption | apply keeps_raise | apply hk | apply keeps_ite | apply keeps_ite2 | intro _ | split | dsimp only)


theorem keeps_adjCtrlWrite {w : Word} (h0 : Keeps s0 s) : Keeps s0 (State.adjCtrlWrite s w) := by
  unfold State.adjCtrlWrite
  repeat' with_reducible (first
    | assumption | apply keeps_raise | apply keeps_rtcRefused | apply keeps_rtcWrite | apply keeps_setFld | apply keeps_ite
      | apply keeps_ite2 | intro _ | split | dsimp only)


theorem keepsR_execRtcAdjust {ini : Nat} {w : Word} (h0 : Keeps s0 s) : KeepsR s0 (execRtcAdjust ini w s) := by
  unfold execRtcAdjust
  repeat' with_reducible (first
    | assumption | apply keeps_adjCtrlWrite | apply keeps_setupAccess | apply keepsR_done | apply keepsR_done | apply keepsR_fault
      | intro _ | dsimp only)


theorem keeps_alarmArm {a : Nat} {w : Word} (h0 : Keeps s0 s) : Keeps s0 (State.alarmArm s a w) := by
  unfold State.alarmArm
  repeat' with_reducible (first
    | assumption | apply keeps_rtcWrite | apply keeps_setReg | intro _ | dsimp only)


theorem keepsR_execAlarmArm {ini : Nat} {a : Nat} {w : Word} (h0 : Keeps s0 s) : KeepsR s0 (execAlarmArm ini a w s) := by
  unfold execAlarmArm
  repeat' with_reducible (first
    | assumption | apply keeps_alarmArm | apply keeps_setupAccess | apply keepsR_done | apply keepsR_ite | apply keeps_ite
      | apply keeps_ite2 | apply keepsR_done | apply keepsR_fault | intro _ | split | dsimp only)


theorem keeps_leapWrite {hi : Bool} {w : Word} (h0 : Keeps s0 s) : Keeps s0 (State.leapWrite s hi w) := by
  unfold State.leapWrite
  try dsimp -iota -proj only
  repeat' with_reducible (first
    | assumption | apply keeps_rtcRefused | apply keeps_rtcWrite | apply keeps_setReg | apply keeps_ite | apply keeps_ite2
      | intro _ | split | dsimp only)


theorem keepsR_execLeapSchedule {ini : Nat} {hi : Bool} {w : Word} (h0 : Keeps s0 s) : KeepsR s0 (execLeapSchedule ini hi w s) := by
  unfold execLeapSchedule
  repeat' with_reducible (first
    | assumption | apply keeps_leapWrite | apply keeps_setupAccess | apply keepsR_done | apply keepsR_ite | apply keeps_ite
      | apply keeps_ite2 | apply keepsR_done | apply keepsR_fault | intro _ | split | dsimp only)


theorem keeps_discWindowEnd {e : Int} (h0 : Keeps s0 s) : Keeps s0 (State.discWindowEnd s e) := by
  unfold State.discWindowEnd
  try dsimp -iota -proj only
  repeat' with_reducible (first
    | assumption | apply keeps_modRtc | apply keeps_setFld | apply keeps_setReg | apply keeps_ite | apply keeps_ite2 | intro _
      | split | dsimp only)


theorem keepsR_execDisciplineSecond {edge : Nat} (h0 : Keeps s0 s) : KeepsR s0 (execDisciplineSecond edge s) := by
  unfold execDisciplineSecond
  try dsimp -iota -proj only
  repeat' with_reducible (first
    | assumption | apply keeps_discWindowEnd | apply keeps_modRtc | apply keeps_raise | apply keeps_reach | apply keepsR_done
      | apply keepsR_ite | apply keeps_ite | apply keeps_ite2 | apply keepsR_done | apply keepsR_fault | intro _ | split
      | exact keeps_of_eq (by assumption) (by assumption) | (refine keeps_of_eq (by assumption) ?_)
      | (refine keeps_of_eq3 (by assumption) ?_) | dsimp only)


theorem keepsR_execRtcOscStopped (h0 : Keeps s0 s) : KeepsR s0 (execRtcOscStopped s) := by
  unfold execRtcOscStopped
  repeat' with_reducible (first
    | assumption | apply keeps_lower | apply keeps_raise | apply keepsR_done | apply keepsR_ite | apply keeps_ite
      | apply keeps_ite2 | apply keepsR_done | apply keepsR_fault | intro _ | split | dsimp only)


theorem keeps_seedWall (h0 : Keeps s0 s) : Keeps s0 (State.seedWall s) := by
  unfold State.seedWall
  try dsimp -iota -proj only
  repeat' with_reducible (first
    | assumption | apply keeps_setWall | apply keeps_ite | apply keeps_ite2 | intro _ | split | dsimp only)


end Sys2Proof.Machine
end

