-- ==== Sys2Proof/Laws/KeepsStart.lean ====
section
/-! SUPPORT. What the operations of Machine/Start.lean keep. -/

set_option linter.unusedTactic false
set_option linter.unreachableTactic false

namespace Sys2Proof.Machine

variable {s0 s : State}

theorem keeps_allDown (h0 : Keeps s0 s) : Keeps s0 (State.allDown s) := by
  unfold State.allDown
  repeat' with_reducible (first
    | assumption | apply keeps_domainDown | apply keeps_foldl | apply keeps_foldl_pair | intro _ | dsimp only)


theorem keeps_applyChanges {l : List (Nat × Bool)} (h0 : Keeps s0 s) : Keeps s0 (State.applyChanges s l) := by
  unfold State.applyChanges
  repeat' with_reducible (first
    | assumption | apply keeps_domainDown | apply keeps_domainUp | apply keeps_ite | apply keeps_ite2 | apply keeps_foldl
      | apply keeps_foldl_pair | intro _ | split | dsimp only)


theorem keeps_failStart {code : Nat} (h0 : Keeps s0 s) : Keeps s0 (State.failStart s code) := by
  unfold State.failStart
  try dsimp -iota -proj only
  repeat' with_reducible (first
    | assumption | apply keeps_applyChanges | apply keeps_audit | apply keeps_life | apply keeps_modBoot | apply keeps_recLoad
      | apply keeps_setFld | apply keeps_foldl | apply keeps_foldl_pair | intro _ | dsimp only)


theorem keeps_startClean (h0 : Keeps s0 s) : Keeps s0 (State.startClean s) := by
  unfold State.startClean
  try dsimp -iota -proj only
  repeat' with_reducible (first
    | assumption | apply keeps_memLost | apply keeps_modBlw | apply keeps_modBoot | apply keeps_modNet | apply keeps_modScn
      | intro _ | dsimp only)


theorem keeps_restart {causes : Nat} {dom : Nat} (h0 : Keeps s0 s) : Keeps s0 (State.restart s causes dom) := by
  unfold State.restart
  try dsimp -iota -proj only
  repeat' with_reducible (first
    | assumption | apply keeps_allDown | apply keeps_clearRegs | apply keeps_emit | apply keeps_failStart | apply keeps_keepSnaps
      | apply keeps_lower | apply keeps_raise | apply keeps_setClock | apply keeps_setFld | apply keeps_setReg
      | apply keeps_startClean | apply keeps_ite | apply keeps_ite2 | intro _ | split | dsimp only)


theorem keepsR_execPowerOnReset {causes : Nat} {dom : Nat} (h0 : Keeps s0 s) : KeepsR s0 (execPowerOnReset causes dom s) := by
  unfold execPowerOnReset
  repeat' with_reducible (first
    | assumption | apply keeps_restart | apply keepsR_done | apply keepsR_ite | apply keeps_ite | apply keeps_ite2
      | apply keepsR_done | apply keepsR_fault | intro _ | split | dsimp only)


theorem keeps_fuseDone (h0 : Keeps s0 s) : Keeps s0 (State.fuseDone s) := by
  unfold State.fuseDone
  try dsimp -iota -proj only
  repeat' with_reducible (first
    | assumption | apply keeps_domainUp | apply keeps_failStart | apply keeps_setFld | apply keeps_foldl | apply keeps_foldl_pair
      | intro _ | split | exact keeps_of_eq (by assumption) (by assumption) | (refine keeps_of_eq (by assumption) ?_)
      | (refine keeps_of_eq3 (by assumption) ?_) | dsimp only)


theorem keeps_retain {a : Nat} {v : Nat} (h0 : Keeps s0 s) : Keeps s0 (State.retain s a v) := by
  unfold State.retain
  try dsimp -iota -proj only
  repeat' with_reducible (first
    | assumption | apply keeps_modBoot | apply keeps_setReg | apply keeps_ite | apply keeps_ite2 | intro _ | split | dsimp only)


theorem keeps_applyRecord {r : Nat × List Byte} (h0 : Keeps s0 s) : Keeps s0 (State.applyRecord s r) := by
  unfold State.applyRecord
  repeat' with_reducible (first
    | assumption | apply keeps_incFld | apply keeps_retain | apply keeps_ite | apply keeps_ite2 | intro _ | split
      | exact keeps_of_eq (by assumption) (by assumption) | (refine keeps_of_eq (by assumption) ?_)
      | (refine keeps_of_eq3 (by assumption) ?_) | dsimp only)


theorem keeps_applyRecords {b : List Byte} (h0 : Keeps s0 s) : Keeps s0 (State.applyRecords s b) := by
  unfold State.applyRecords
  repeat' with_reducible (first
    | assumption | apply keeps_applyRecord | apply keeps_foldl | apply keeps_foldl_pair | intro _ | dsimp only)


theorem keeps_setPairing {enable : Bool} {slotB : Bool} (h0 : Keeps s0 s) : Keeps s0 (State.setPairing s enable slotB) := by
  unfold State.setPairing
  repeat' with_reducible (first
    | assumption | apply keeps_retain | intro _ | dsimp only)


theorem keeps_applyIdentity {b : List Byte} (h0 : Keeps s0 s) : Keeps s0 (State.applyIdentity s b) := by
  unfold State.applyIdentity
  try dsimp -iota -proj only
  repeat' with_reducible (first
    | assumption | apply keeps_applyRecords | apply keeps_raise | apply keeps_setFld | apply keeps_setPairing | apply keeps_setReg
      | apply keeps_ite | apply keeps_ite2 | intro _ | split | dsimp only)


theorem keeps_identityDone {ident : Option (List Byte)} (h0 : Keeps s0 s) : Keeps s0 (State.identityDone s ident) := by
  unfold State.identityDone
  repeat' with_reducible (first
    | assumption | apply keeps_applyIdentity | apply keeps_setFld | apply keeps_ite | apply keeps_ite2 | intro _ | split
      | exact keeps_of_eq (by assumption) (by assumption) | (refine keeps_of_eq (by assumption) ?_)
      | (refine keeps_of_eq3 (by assumption) ?_) | dsimp only)


theorem keepsR_execIdentityRetry (h0 : Keeps s0 s) : KeepsR s0 (execIdentityRetry s) := by
  unfold execIdentityRetry
  try dsimp -iota -proj only
  repeat' with_reducible (first
    | assumption | apply keeps_modBoot | apply keepsR_done | apply keepsR_ite | apply keeps_ite | apply keeps_ite2
      | apply keepsR_done | apply keepsR_fault | intro _ | split | dsimp only)


theorem keeps_stagingCopy {ok : Bool} (h0 : Keeps s0 s) : Keeps s0 (State.stagingCopy s ok) := by
  unfold State.stagingCopy
  try dsimp -iota -proj only
  repeat' with_reducible (first
    | assumption | apply keeps_bump | apply keeps_modCtl | apply keeps_modMem | apply keeps_raise | apply keeps_setUpdState
      | apply keeps_ite | apply keeps_ite2 | apply Mem.wf_putBytes | apply Sparse.wf_set | apply Sparse.wf_del
      | apply Sparse.wf_filter | exact Sparse.wf_nil | apply Sparse.wf_foldl | (apply Mem.wf_of; assumption) | intro _ | split
      | dsimp only)


theorem keeps_fallBack {t : Nat} {detail : Nat} (h0 : Keeps s0 s) : Keeps s0 (State.fallBack s t detail) := by
  unfold State.fallBack
  try dsimp -iota -proj only
  repeat' with_reducible (first
    | assumption | apply keeps_bump | apply keeps_modBoot | apply keeps_raise | apply keeps_setUpdState | intro _ | dsimp only)


theorem keeps_chooseSlot (h0 : Keeps s0 s) : Keeps s0 (State.chooseSlot s).2 := by
  unfold State.chooseSlot
  try dsimp -iota -proj only
  repeat' with_reducible (first
    | assumption | apply keeps_fallBack | apply keeps_modCtl | apply keeps_ite | apply keeps_ite2 | intro _ | split
      | exact keeps_of_eq (by assumption) (by assumption) | (refine keeps_of_eq (by assumption) ?_)
      | (refine keeps_of_eq3 (by assumption) ?_) | apply keeps_mk2 | dsimp only)


theorem keeps_passingSlot (h0 : Keeps s0 s) : Keeps s0 (State.passingSlot s).2 := by
  unfold State.passingSlot
  try dsimp -iota -proj only
  repeat' with_reducible (first
    | assumption | apply keeps_chooseSlot | apply keeps_fallBack | apply keeps_imageCheck | apply keeps_raise | apply keeps_ite
      | apply keeps_ite2 | intro _ | split | exact keeps_of_eq (by assumption) (by assumption)
      | (refine keeps_of_eq (by assumption) ?_) | (refine keeps_of_eq3 (by assumption) ?_) | apply keeps_mk2 | dsimp only)


theorem keeps_loadSection {t : Nat} {e : List Byte} (h0 : Keeps s0 s) : Keeps s0 (State.loadSection s t e) := by
  unfold State.loadSection
  try dsimp -iota -proj only
  repeat' with_reducible (first
    | assumption | apply keeps_runSection | apply keeps_writeMem | apply keeps_ite | apply keeps_ite2 | intro _ | split
      | dsimp only)


theorem keeps_imageDone {ok : Bool} (h0 : Keeps s0 s) : Keeps s0 (State.imageDone s ok) := by
  unfold State.imageDone
  try dsimp -iota -proj only
  repeat' with_reducible (first
    | assumption | apply keeps_applyChanges | apply keeps_failStart | apply keeps_loadSection | apply keeps_passingSlot
      | apply keeps_setFld | apply keeps_showUpd | apply keeps_stagingCopy | apply keeps_foldl | apply keeps_foldl_pair | intro _
      | split | exact keeps_of_eq (by assumption) (by assumption) | (refine keeps_of_eq (by assumption) ?_)
      | (refine keeps_of_eq3 (by assumption) ?_) | dsimp only)


theorem keeps_passRootKey (h0 : Keeps s0 s) : Keeps s0 (State.passRootKey s) := by
  unfold State.passRootKey
  try dsimp -iota -proj only
  repeat' with_reducible (first
    | assumption | apply keeps_raise | apply keeps_setKeySlot | intro _ | dsimp only)


theorem keeps_bootCommit (h0 : Keeps s0 s) : Keeps s0 (State.bootCommit s) := by
  unfold State.bootCommit
  try dsimp -iota -proj only
  repeat' with_reducible (first
    | assumption | apply keeps_bump | apply keeps_commitRefused | apply keeps_fwlActivate | apply keeps_lower
      | apply keeps_modBoot | apply keeps_wrapFld | intro _ | split | exact keeps_of_eq (by assumption) (by assumption)
      | (refine keeps_of_eq (by assumption) ?_) | (refine keeps_of_eq3 (by assumption) ?_) | dsimp only)


theorem keeps_recordsDone (h0 : Keeps s0 s) : Keeps s0 (State.recordsDone s) := by
  unfold State.recordsDone
  try dsimp -iota -proj only
  repeat' with_reducible (first
    | assumption | apply keeps_applyRecords | apply keeps_bootCommit | apply keeps_modBoot | apply keeps_passRootKey | intro _
      | dsimp only)


theorem keepsR_execStartPhaseDone {ok : Bool} {ident : Option (List Byte)} (h0 : Keeps s0 s) : KeepsR s0 (execStartPhaseDone ok ident s) := by
  unfold execStartPhaseDone
  repeat' with_reducible (first
    | assumption | apply keeps_failStart | apply keeps_fuseDone | apply keeps_identityDone | apply keeps_imageDone
      | apply keeps_recordsDone | apply keeps_setFld | apply keepsR_done | apply keepsR_ite | apply keeps_ite | apply keeps_ite2
      | apply keepsR_done | apply keepsR_fault | intro _ | split | dsimp only)


theorem keeps_startFlags (h0 : Keeps s0 s) : Keeps s0 (State.startFlags s) := by
  unfold State.startFlags
  try dsimp -iota -proj only
  repeat' with_reducible (first
    | assumption | apply keeps_raise | apply keeps_ite | apply keeps_ite2 | intro _ | split | dsimp only)


theorem keeps_recRelease (h0 : Keeps s0 s) : Keeps s0 (State.recRelease s) := by
  unfold State.recRelease
  try dsimp -iota -proj only
  repeat' with_reducible (first
    | assumption | apply keeps_audit | apply keeps_faultEntry | apply keeps_life | apply keeps_modBoot | apply keeps_modImg
      | apply keeps_recFold | apply keeps_recLoad | apply keeps_ite | apply keeps_ite2 | apply keeps_foldl
      | apply keeps_foldl_pair | intro _ | split | dsimp only)


theorem keeps_beginTrial (h0 : Keeps s0 s) : Keeps s0 (State.beginTrial s) := by
  unfold State.beginTrial
  try dsimp -iota -proj only
  repeat' with_reducible (first
    | assumption | apply keeps_modBoot | apply keeps_modCtl | apply keeps_raise | apply keeps_showUpd | apply keeps_ite
      | apply keeps_ite2 | intro _ | split | dsimp only)


theorem keeps_radioRelease (h0 : Keeps s0 s) : Keeps s0 (State.radioRelease s) := by
  unfold State.radioRelease
  repeat' with_reducible (first
    | assumption | apply keeps_lower | apply keeps_radCtrlWrite | apply keeps_ite | apply keeps_ite2 | intro _ | split
      | dsimp only)


theorem keepsR_execRelease (h0 : Keeps s0 s) : KeepsR s0 (execRelease s) := by
  unfold execRelease
  try dsimp -iota -proj only
  repeat' with_reducible (first
    | assumption | apply keeps_beginTrial | apply keeps_calLoad | apply keeps_emit | apply keeps_judgeHealth
      | apply keeps_meterRestore | apply keeps_modBlw | apply keeps_radioRelease | apply keeps_recRelease | apply keeps_seedWall
      | apply keeps_setFld | apply keeps_setReg | apply keeps_startFlags | apply keepsR_done | apply keepsR_ite | apply keeps_ite
      | apply keeps_ite2 | apply keepsR_done | apply keepsR_fault | intro _ | split | dsimp only)


theorem keepsR_execStartWatchdogExpiry (h0 : Keeps s0 s) : KeepsR s0 (execStartWatchdogExpiry s) := by
  unfold execStartWatchdogExpiry
  repeat' with_reducible (first
    | assumption | apply keeps_restart | apply keepsR_done | apply keepsR_ite | apply keeps_ite | apply keeps_ite2
      | apply keepsR_done | apply keepsR_fault | intro _ | split | dsimp only)


theorem keepsR_execBpReset {low : Bool} (h0 : Keeps s0 s) : KeepsR s0 (execBpReset low s) := by
  unfold execBpReset
  try dsimp -iota -proj only
  repeat' with_reducible (first
    | assumption | apply keeps_modBoot | apply keeps_restart | apply keeps_setClock | apply keepsR_done | apply keepsR_ite
      | apply keeps_ite | apply keeps_ite2 | apply keepsR_done | apply keepsR_fault | intro _ | split | dsimp only)


theorem keeps_nonVolatile (h : Keeps s0 s) : Keeps s0 s.nonVolatile := by
  have k := keeps_flushTorn (Keeps.refl s)
  refine h.trans ⟨rfl, fun w => ?_, List.prefix_refl _, k.follows.2⟩
  have m := Mem.wf_iff.1 (wf_parts.1 (k.wf w)).2.2
  exact wf_parts.2 ⟨rfl, rfl, Mem.wf_iff.2 ⟨Sparse.wf_filter _ m.1, rfl, Sparse.wf_filter _ m.2.2.1, Sparse.wf_filter _ m.2.2.2⟩⟩


theorem keepsR_execBackupPowerUp (h0 : Keeps s0 s) : KeepsR s0 (execBackupPowerUp s) := by
  unfold execBackupPowerUp
  repeat' with_reducible (first
    | assumption | apply keeps_nonVolatile | apply keeps_restart | apply keepsR_done | apply keepsR_done | apply keepsR_fault
      | intro _ | dsimp only)


theorem keeps_backupOnly (h : Keeps s0 s) : Keeps s0 s.backupOnly := by
  have n := keeps_nonVolatile (Keeps.refl s)
  refine h.trans ⟨rfl, fun w => ?_, List.prefix_refl _, n.follows.2⟩
  have r := wf_parts.1 w
  have k : Sparse.wf Reg.resetVal (Sparse.set Reg.resetVal (s.regs.filter fun r => pd00Reg r.1) Reg.BLW_DOM_ON 1) = true :=
    Sparse.wf_set (Sparse.wf_filter _ r.1)
  exact wf_parts.2 ⟨k, Sparse.wf_filter _ r.2.1, (wf_parts.1 (n.wf w)).2.2⟩


theorem keepsR_execAlwaysOnPowerUp (h0 : Keeps s0 s) : KeepsR s0 (execAlwaysOnPowerUp s) := by
  unfold execAlwaysOnPowerUp
  try dsimp -iota -proj only
  repeat' with_reducible (first
    | assumption | apply keeps_backupOnly | apply keeps_raise | apply keeps_restart | apply keeps_setReg | apply keepsR_done
      | apply keepsR_ite | apply keeps_ite | apply keeps_ite2 | apply keepsR_done | apply keepsR_fault | intro _ | split
      | dsimp only)


theorem keeps_bootReset {w : Word} (h0 : Keeps s0 s) : Keeps s0 (State.bootReset s w) := by
  unfold State.bootReset
  repeat' with_reducible (first
    | assumption | apply keeps_coreGone | apply keeps_raise | apply keeps_restart | apply keeps_ite | apply keeps_ite2 | intro _
      | split | dsimp only)


theorem keepsR_execHostRestart {ini : Nat} {w : Word} (h0 : Keeps s0 s) : KeepsR s0 (execHostRestart ini w s) := by
  unfold execHostRestart
  repeat' with_reducible (first
    | assumption | apply keeps_bootReset | apply keeps_setupAccess | apply keepsR_done | apply keepsR_done | apply keepsR_fault
      | intro _ | dsimp only)


theorem keepsR_execCoreReset {ini : Nat} {w : Word} (h0 : Keeps s0 s) : KeepsR s0 (execCoreReset ini w s) := by
  unfold execCoreReset
  repeat' with_reducible (first
    | assumption | apply keeps_bootReset | apply keeps_setupAccess | apply keepsR_done | apply keepsR_done | apply keepsR_fault
      | intro _ | dsimp only)


theorem keepsR_execConfirmationWindowEnd (h0 : Keeps s0 s) : KeepsR s0 (execConfirmationWindowEnd s) := by
  unfold execConfirmationWindowEnd
  try dsimp -iota -proj only
  repeat' with_reducible (first
    | assumption | apply keeps_auditWait | apply keeps_fallBack | apply keeps_reach | apply keeps_restart | apply keepsR_done
      | apply keepsR_ite | apply keeps_ite | apply keeps_ite2 | apply keepsR_done | apply keepsR_fault | intro _ | split
      | exact keeps_of_eq (by assumption) (by assumption) | (refine keeps_of_eq (by assumption) ?_)
      | (refine keeps_of_eq3 (by assumption) ?_) | dsimp only)


end Sys2Proof.Machine
end

