-- ==== Sys2Proof/Laws/KeepsPower.lean ====
section
/-! SUPPORT. What the operations of Machine/Power.lean keep. -/

set_option linter.unusedTactic false
set_option linter.unreachableTactic false

namespace Sys2Proof.Machine

variable {s0 s : State}

theorem keeps_powerOff {d : Nat} (h0 : Keeps s0 s) : Keeps s0 (State.powerOff s d) := by
  unfold State.powerOff
  repeat' with_reducible (first
    | assumption | apply keeps_domainDown | apply keeps_meterSave | apply keeps_ite | apply keeps_ite2 | intro _ | split
      | dsimp only)


theorem keeps_keepOnly {keep : List Nat} (h0 : Keeps s0 s) : Keeps s0 (State.keepOnly s keep) := by
  unfold State.keepOnly
  repeat' with_reducible (first
    | assumption | apply keeps_powerOff | apply keeps_foldl | apply keeps_foldl_pair | intro _ | dsimp only)


theorem keeps_finishTransition (h0 : Keeps s0 s) : Keeps s0 (State.finishTransition s) := by
  unfold State.finishTransition
  try dsimp -iota -proj only
  repeat' with_reducible (first
    | assumption | apply keeps_leaveDark | apply keeps_lower | apply keeps_modBlw | apply keeps_raise | apply keeps_setFld
      | apply keeps_ite | apply keeps_ite2 | intro _ | split | dsimp only)


theorem keeps_cutTransition (h0 : Keeps s0 s) : Keeps s0 (State.cutTransition s) := by
  unfold State.cutTransition
  try dsimp -iota -proj only
  repeat' with_reducible (first
    | assumption | apply keeps_lower | apply keeps_modBlw | apply keeps_raise | apply keeps_ite | apply keeps_ite2 | intro _
      | split | dsimp only)


theorem keeps_stateRequest {st : Nat} (h0 : Keeps s0 s) : Keeps s0 (State.stateRequest s st) := by
  unfold State.stateRequest
  try dsimp -iota -proj only
  repeat' with_reducible (first
    | assumption | apply keeps_beginTransition | apply keeps_finishTransition | apply keeps_raise | apply keeps_ite
      | apply keeps_ite2 | intro _ | split | dsimp only)


theorem keepsR_execStateRequest {ini : Nat} {w : Word} (h0 : Keeps s0 s) : KeepsR s0 (execStateRequest ini w s) := by
  unfold execStateRequest
  repeat' with_reducible (first
    | assumption | apply keeps_setupAccess | apply keeps_stateRequest | apply keepsR_done | apply keepsR_done | apply keepsR_fault
      | intro _ | dsimp only)


theorem keeps_judgeScanPower (h0 : Keeps s0 s) : Keeps s0 (State.judgeScanPower s) := by
  unfold State.judgeScanPower
  try dsimp -iota -proj only
  repeat' with_reducible (first
    | assumption | apply keeps_judgeHealth | apply keeps_modTwn | intro _ | dsimp only)


theorem keeps_changeDomain {c : Nat × Bool} (h0 : Keeps s0 s) : Keeps s0 (State.changeDomain s c) := by
  unfold State.changeDomain
  repeat' with_reducible (first
    | assumption | apply keeps_domainUp | apply keeps_judgeScanPower | apply keeps_powerOff | apply keeps_ite | apply keeps_ite2
      | intro _ | split | dsimp only)


theorem keepsR_execDomainPowerStep (h0 : Keeps s0 s) : KeepsR s0 (execDomainPowerStep s) := by
  unfold execDomainPowerStep
  try dsimp -iota -proj only
  repeat' with_reducible (first
    | assumption | apply keeps_changeDomain | apply keeps_finishTransition | apply keeps_modBlw | apply keepsR_done
      | apply keepsR_ite | apply keeps_ite | apply keeps_ite2 | apply keepsR_done | apply keepsR_fault | intro _ | split
      | exact keeps_of_eq (by assumption) (by assumption) | (refine keeps_of_eq (by assumption) ?_)
      | (refine keeps_of_eq3 (by assumption) ?_) | dsimp only)


theorem keeps_groupStops {g : Nat} (h0 : Keeps s0 s) : Keeps s0 (State.groupStops s g) := by
  unfold State.groupStops
  repeat' with_reducible (first
    | assumption | apply keeps_abandonPort | apply keeps_setFld | apply keeps_ite | apply keeps_ite2 | apply keeps_foldl
      | apply keeps_foldl_pair | intro _ | split | dsimp only)


theorem keeps_domainFault {d : Nat} (h0 : Keeps s0 s) : Keeps s0 (State.domainFault s d) := by
  unfold State.domainFault
  try dsimp -iota -proj only
  repeat' with_reducible (first
    | assumption | apply keeps_bump | apply keeps_domainDown | apply keeps_groupStops | apply keeps_judgeHealth
      | apply keeps_modTwn | apply keeps_raise | apply keeps_restart | apply keeps_setFld | apply keeps_ite | apply keeps_ite2
      | intro _ | split | dsimp only)


theorem keepsR_execDomainFault {d : Nat} (h0 : Keeps s0 s) : KeepsR s0 (execDomainFault d s) := by
  unfold execDomainFault
  repeat' with_reducible (first
    | assumption | apply keeps_domainFault | apply keepsR_done | apply keepsR_ite | apply keeps_ite | apply keeps_ite2
      | apply keepsR_done | apply keepsR_fault | intro _ | split | dsimp only)


theorem keepsR_execDomainRestart (h0 : Keeps s0 s) : KeepsR s0 (execDomainRestart s) := by
  unfold execDomainRestart
  try dsimp -iota -proj only
  repeat' with_reducible (first
    | assumption | apply keeps_domainUp | apply keeps_judgeScanPower | apply keeps_setFld | apply keeps_takeCommand
      | apply keepsR_done | apply keepsR_ite | apply keeps_ite | apply keeps_ite2 | apply keepsR_done | apply keepsR_fault
      | intro _ | split | dsimp only)


theorem keeps_darkWarning (h0 : Keeps s0 s) : Keeps s0 (State.darkWarning s) := by
  unfold State.darkWarning
  try dsimp -iota -proj only
  repeat' with_reducible (first
    | assumption | apply keeps_bump | apply keeps_lower | apply keeps_modBlw | intro _ | dsimp only)


theorem keeps_warnTongs (h0 : Keeps s0 s) : Keeps s0 (State.warnTongs s) := by
  unfold State.warnTongs
  try dsimp -iota -proj only
  repeat' with_reducible (first
    | assumption | apply keeps_judgeHealth | apply keeps_modTwn | apply keeps_startHandoff | apply keeps_ite | apply keeps_ite2
      | intro _ | split | dsimp only)


theorem keeps_powerFailWarning (h0 : Keeps s0 s) : Keeps s0 (State.powerFailWarning s) := by
  unfold State.powerFailWarning
  try dsimp -iota -proj only
  repeat' with_reducible (first
    | assumption | apply keeps_bump | apply keeps_cutTransition | apply keeps_darkWarning | apply keeps_faultEntry
      | apply keeps_judgeDisc | apply keeps_lower | apply keeps_meterSave | apply keeps_modBlw | apply keeps_pfFlushBegin
      | apply keeps_raise | apply keeps_warnTongs | apply keeps_ite | apply keeps_ite2 | intro _ | split | dsimp only)


theorem keepsR_execPowerFailWarning (h0 : Keeps s0 s) : KeepsR s0 (execPowerFailWarning s) := by
  unfold execPowerFailWarning
  repeat' with_reducible (first
    | assumption | apply keeps_powerFailWarning | apply keepsR_done | apply keepsR_done | apply keepsR_fault | intro _
      | dsimp only)


theorem keepsR_execSeatedLost (h0 : Keeps s0 s) : KeepsR s0 (execSeatedLost s) := by
  unfold execSeatedLost
  try dsimp -iota -proj only
  repeat' with_reducible (first
    | assumption | apply keeps_modBlw | apply keeps_powerFailWarning | apply keepsR_done | apply keepsR_done | apply keepsR_fault
      | intro _ | dsimp only)


theorem keepsR_execPfCommit (h0 : Keeps s0 s) : KeepsR s0 (execPfCommit s) := by
  unfold execPfCommit
  try dsimp -iota -proj only
  repeat' with_reducible (first
    | assumption | apply keeps_keepOnly | apply keeps_pfFlushCommit | apply keeps_raise | apply keepsR_done | apply keepsR_ite
      | apply keeps_ite | apply keeps_ite2 | apply keepsR_done | apply keepsR_fault | intro _ | split | dsimp only)


theorem keeps_holdupEnd (h0 : Keeps s0 s) : Keeps s0 (State.holdupEnd s) := by
  unfold State.holdupEnd
  try dsimp -iota -proj only
  repeat' with_reducible (first
    | assumption | apply keeps_allDown | apply keeps_backupOnly | apply keeps_judgeHealth | apply keeps_modTwn
      | apply keeps_moduleQuench | apply keeps_restart | apply keeps_ite | apply keeps_ite2 | intro _ | split | dsimp only)


theorem keepsR_execHoldupEnd (h0 : Keeps s0 s) : KeepsR s0 (execHoldupEnd s) := by
  unfold execHoldupEnd
  repeat' with_reducible (first
    | assumption | apply keeps_allDown | apply keeps_backupOnly | apply keeps_holdupEnd | apply keepsR_done | apply keepsR_ite
      | apply keeps_ite | apply keeps_ite2 | apply keepsR_done | apply keepsR_fault | intro _ | split | dsimp only)


theorem keeps_darkRecovery (h0 : Keeps s0 s) : Keeps s0 (State.darkRecovery s) := by
  unfold State.darkRecovery
  try dsimp -iota -proj only
  repeat' with_reducible (first
    | assumption | apply keeps_bump | apply keeps_modBlw | apply keeps_raise | apply keeps_wake | intro _ | dsimp only)


theorem keeps_withdrawWarning (h0 : Keeps s0 s) : Keeps s0 (State.withdrawWarning s) := by
  unfold State.withdrawWarning
  try dsimp -iota -proj only
  repeat' with_reducible (first
    | assumption | apply keeps_bump | apply keeps_judgeHealth | apply keeps_lower | apply keeps_modBlw | apply keeps_modTwn
      | apply keeps_pfFlushWithdraw | apply keeps_raise | intro _ | dsimp only)


theorem keepsR_execVinRestored (h0 : Keeps s0 s) : KeepsR s0 (execVinRestored s) := by
  unfold execVinRestored
  try dsimp -iota -proj only
  repeat' with_reducible (first
    | assumption | apply keeps_darkRecovery | apply keeps_modBlw | apply keeps_raise | apply keeps_withdrawWarning
      | apply keepsR_done | apply keepsR_ite | apply keeps_ite | apply keeps_ite2 | apply keepsR_done | apply keepsR_fault
      | intro _ | split | dsimp only)


theorem keepsR_execVinOvervoltage {mv : Nat} (h0 : Keeps s0 s) : KeepsR s0 (execVinOvervoltage mv s) := by
  unfold execVinOvervoltage
  try dsimp -iota -proj only
  repeat' with_reducible (first
    | assumption | apply keeps_lower | apply keeps_powerFailWarning | apply keeps_raise | apply keeps_setFld | apply keepsR_done
      | apply keepsR_ite | apply keeps_ite | apply keeps_ite2 | apply keepsR_done | apply keepsR_fault | intro _ | split
      | dsimp only)


theorem keepsR_execVbatLow (h0 : Keeps s0 s) : KeepsR s0 (execVbatLow s) := by
  unfold execVbatLow
  repeat' with_reducible (first
    | assumption | apply keeps_raise | apply keepsR_done | apply keepsR_ite | apply keeps_ite | apply keeps_ite2
      | apply keepsR_done | apply keepsR_fault | intro _ | split | dsimp only)


theorem keepsR_execThermalWarning (h0 : Keeps s0 s) : KeepsR s0 (execThermalWarning s) := by
  unfold execThermalWarning
  repeat' with_reducible (first
    | assumption | apply keeps_flushSoon | apply keeps_raise | apply keepsR_done | apply keepsR_ite | apply keeps_ite
      | apply keeps_ite2 | apply keepsR_done | apply keepsR_fault | intro _ | split | dsimp only)


theorem keepsR_execThermalShutdown (h0 : Keeps s0 s) : KeepsR s0 (execThermalShutdown s) := by
  unfold execThermalShutdown
  try dsimp -iota -proj only
  repeat' with_reducible (first
    | assumption | apply keeps_cutTransition | apply keeps_modBlw | apply keeps_moduleQuench | apply keepsR_done
      | apply keepsR_ite | apply keeps_ite | apply keeps_ite2 | apply keepsR_done | apply keepsR_fault | intro _ | split
      | dsimp only)


theorem keepsR_execThermalPowerOff (h0 : Keeps s0 s) : KeepsR s0 (execThermalPowerOff s) := by
  unfold execThermalPowerOff
  try dsimp -iota -proj only
  repeat' with_reducible (first
    | assumption | apply keeps_bump | apply keeps_keepOnly | apply keeps_modBlw | apply keeps_modScn | apply keeps_setFld
      | apply keepsR_done | apply keepsR_ite | apply keeps_ite | apply keeps_ite2 | apply keepsR_done | apply keepsR_fault
      | intro _ | split | dsimp only)


theorem keeps_thermalRestart (h0 : Keeps s0 s) : Keeps s0 (State.thermalRestart s) := by
  unfold State.thermalRestart
  try dsimp -iota -proj only
  repeat' with_reducible (first
    | assumption | apply keeps_bump | apply keeps_raise | apply keeps_restart | apply keeps_setFld | apply keeps_ite
      | apply keeps_ite2 | intro _ | split | dsimp only)


theorem keepsR_execThermalRestart (h0 : Keeps s0 s) : KeepsR s0 (execThermalRestart s) := by
  unfold execThermalRestart
  repeat' with_reducible (first
    | assumption | apply keeps_thermalRestart | apply keepsR_done | apply keepsR_done | apply keepsR_fault | intro _ | dsimp only)


theorem keeps_vectorWake (h0 : Keeps s0 s) : Keeps s0 (State.vectorWake s) := by
  unfold State.vectorWake
  try dsimp -iota -proj only
  repeat' with_reducible (first
    | assumption | apply keeps_raise | apply keeps_wake | apply keeps_ite | apply keeps_ite2 | intro _ | split | dsimp only)


theorem keepsR_execWakeRequest {n : Nat} (h0 : Keeps s0 s) : KeepsR s0 (execWakeRequest n s) := by
  unfold execWakeRequest
  repeat' with_reducible (first
    | assumption | apply keeps_thermalRestart | apply keeps_vectorWake | apply keeps_wake | apply keepsR_done | apply keepsR_ite
      | apply keeps_ite | apply keeps_ite2 | apply keepsR_done | apply keepsR_fault | intro _ | split | dsimp only)


end Sys2Proof.Machine
end

