-- ==== Sys2Proof/Laws/KeepsClocks.lean ====
section
/-! SUPPORT. What the operations of Machine/Clocks.lean keep. -/

set_option linter.unusedTactic false
set_option linter.unreachableTactic false

namespace Sys2Proof.Machine

variable {s0 s : State}

theorem keeps_refHold (h0 : Keeps s0 s) : Keeps s0 (State.refHold s) := by
  unfold State.refHold
  try dsimp -iota -proj only
  repeat' with_reducible (first
    | assumption | apply keeps_incFld | apply keeps_lower | apply keeps_raise | apply keeps_setFld | apply keeps_showStatus
      | apply keeps_timeInput | intro _ | dsimp only)


theorem keeps_tcxoLost (h0 : Keeps s0 s) : Keeps s0 (State.tcxoLost s) := by
  unfold State.tcxoLost
  repeat' with_reducible (first
    | assumption | apply keeps_lower | apply keeps_raise | apply keeps_showTcxo | apply keeps_ite | apply keeps_ite2 | intro _
      | split | dsimp only)


theorem keeps_extLost (h0 : Keeps s0 s) : Keeps s0 (State.extLost s) := by
  unfold State.extLost
  try dsimp -iota -proj only
  repeat' with_reducible (first
    | assumption | apply keeps_lower | apply keeps_raise | apply keeps_setFld | apply keeps_ite | apply keeps_ite2 | intro _
      | split | dsimp only)


theorem keepsR_execRefInputLost {tcxo : Bool} {ext : Bool} (h0 : Keeps s0 s) : KeepsR s0 (execRefInputLost tcxo ext s) := by
  unfold execRefInputLost
  try dsimp -iota -proj only
  repeat' with_reducible (first
    | assumption | apply keeps_extLost | apply keeps_refHold | apply keeps_tcxoLost | apply keepsR_done | apply keepsR_ite
      | apply keeps_ite | apply keeps_ite2 | apply keepsR_done | apply keepsR_fault | intro _ | split | dsimp only)


theorem keepsR_execTcxoRequalified (h0 : Keeps s0 s) : KeepsR s0 (execTcxoRequalified s) := by
  unfold execTcxoRequalified
  repeat' with_reducible (first
    | assumption | apply keeps_raise | apply keeps_showTcxo | apply keepsR_done | apply keepsR_ite | apply keeps_ite
      | apply keeps_ite2 | apply keepsR_done | apply keepsR_fault | intro _ | split | dsimp only)


theorem keeps_refTake {n : Nat} (h0 : Keeps s0 s) : Keeps s0 (State.refTake s n) := by
  unfold State.refTake
  try dsimp -iota -proj only
  repeat' with_reducible (first
    | assumption | apply keeps_incFld | apply keeps_judgeHealth | apply keeps_lower | apply keeps_raise | apply keeps_setFld
      | apply keeps_showStatus | apply keeps_ite | apply keeps_ite2 | intro _ | split | dsimp only)


theorem keepsR_execOscSwitchDone (h0 : Keeps s0 s) : KeepsR s0 (execOscSwitchDone s) := by
  unfold execOscSwitchDone
  repeat' with_reducible (first
    | assumption | apply keeps_refTake | apply keepsR_done | apply keepsR_ite | apply keeps_ite | apply keeps_ite2
      | apply keepsR_done | apply keepsR_fault | intro _ | split | exact keeps_of_eq (by assumption) (by assumption)
      | (refine keeps_of_eq (by assumption) ?_) | (refine keeps_of_eq3 (by assumption) ?_) | dsimp only)


theorem keepsR_execPllUnlock {pll : Nat} (h0 : Keeps s0 s) : KeepsR s0 (execPllUnlock pll s) := by
  unfold execPllUnlock
  repeat' with_reducible (first
    | assumption | apply keeps_domainFault | apply keeps_lower | apply keeps_moduleQuench | apply keeps_raise
      | apply keeps_timeUnlock | apply keepsR_done | apply keepsR_ite | apply keeps_ite | apply keeps_ite2 | apply keepsR_done
      | apply keepsR_fault | intro _ | split | exact keeps_of_eq (by assumption) (by assumption)
      | (refine keeps_of_eq (by assumption) ?_) | (refine keeps_of_eq3 (by assumption) ?_) | dsimp only)


theorem keepsR_execAnvilPllRelocked (h0 : Keeps s0 s) : KeepsR s0 (execAnvilPllRelocked s) := by
  unfold execAnvilPllRelocked
  repeat' with_reducible (first
    | assumption | apply keeps_moduleRelease | apply keeps_raise | apply keepsR_done | apply keepsR_ite | apply keeps_ite
      | apply keeps_ite2 | apply keepsR_done | apply keepsR_fault | intro _ | split | dsimp only)


theorem keepsR_execTimePllRelocked (h0 : Keeps s0 s) : KeepsR s0 (execTimePllRelocked s) := by
  unfold execTimePllRelocked
  repeat' with_reducible (first
    | assumption | apply keeps_judgeHealth | apply keeps_raise | apply keepsR_done | apply keepsR_ite | apply keeps_ite
      | apply keeps_ite2 | apply keepsR_done | apply keepsR_fault | intro _ | split | dsimp only)


theorem keepsR_execSynceLost (h0 : Keeps s0 s) : KeepsR s0 (execSynceLost s) := by
  unfold execSynceLost
  try dsimp -iota -proj only
  repeat' with_reducible (first
    | assumption | apply keeps_modTmk | apply keeps_raise | apply keeps_showStatus | apply keeps_timeInput | apply keepsR_done
      | apply keepsR_ite | apply keeps_ite | apply keeps_ite2 | apply keepsR_done | apply keepsR_fault | intro _ | split
      | dsimp only)


theorem keepsR_execCrystalLost (h0 : Keeps s0 s) : KeepsR s0 (execCrystalLost s) := by
  unfold execCrystalLost
  repeat' with_reducible (first
    | assumption | apply keeps_raise | apply keepsR_done | apply keepsR_ite | apply keeps_ite | apply keeps_ite2
      | apply keepsR_done | apply keepsR_fault | intro _ | split | dsimp only)


theorem keepsR_execCrystalRestored (h0 : Keeps s0 s) : KeepsR s0 (execCrystalRestored s) := by
  unfold execCrystalRestored
  repeat' with_reducible (first
    | assumption | apply keeps_lower | apply keepsR_done | apply keepsR_ite | apply keeps_ite | apply keeps_ite2
      | apply keepsR_done | apply keepsR_fault | intro _ | split | dsimp only)


end Sys2Proof.Machine
end

