-- ==== Sys2Proof/Laws/KeepsIdle.lean ====
section
/-! SUPPORT. What the operations of Machine/Idle.lean keep. -/

set_option linter.unusedTactic false
set_option linter.unreachableTactic false

namespace Sys2Proof.Machine

variable {s0 s : State}

theorem keeps_tickPmc {before : Nat} (h0 : Keeps s0 s) : Keeps s0 (State.tickPmc s before) := by
  unfold State.tickPmc
  try dsimp -iota -proj only
  repeat' with_reducible (first
    | assumption | apply keeps_pmc | apply keeps_ite | apply keeps_ite2 | intro _ | split | dsimp only)


theorem keeps_pumpAll (h0 : Keeps s0 s) : Keeps s0 (State.pumpAll s) := by
  unfold State.pumpAll
  try dsimp -iota -proj only
  repeat' with_reducible (first
    | assumption | apply keeps_linkPump | apply keeps_pump | apply keeps_ite | apply keeps_ite2 | apply keeps_foldl
      | apply keeps_foldl_pair | intro _ | split | dsimp only)


theorem keeps_idle (h0 : Keeps s0 s) : Keeps s0 (State.idle s) := by
  unfold State.idle
  try dsimp -iota -proj only
  repeat' with_reducible (first
    | assumption | apply keeps_pllRun | apply keeps_pumpAll | apply keeps_setClock | apply keeps_tickPmc | apply keeps_ite
      | apply keeps_ite2 | intro _ | split | dsimp only)


end Sys2Proof.Machine
end

