-- ==== Sys2Proof/Laws/KeepsPtpSend.lean ====
section
/-! SUPPORT. What the operations of Machine/PtpSend.lean keep. -/

set_option linter.unusedTactic false
set_option linter.unreachableTactic false

namespace Sys2Proof.Machine

variable {s0 s : State}

theorem keeps_ptpEmit {p : Nat} {profile : Nat} {type : Nat} {seq : Nat} {content : List Int} (h0 : Keeps s0 s) : Keeps s0 (State.ptpEmit s p profile type seq content) := by
  unfold State.ptpEmit
  try dsimp -iota -proj only
  repeat' with_reducible (first
    | assumption | apply keeps_bump | apply keeps_emit | apply keeps_takePn | apply keeps_ite | apply keeps_ite2 | intro _ | split
      | exact keeps_of_eq (by assumption) (by assumption) | (refine keeps_of_eq (by assumption) ?_)
      | (refine keeps_of_eq3 (by assumption) ?_) | dsimp only)


theorem keepsR_execDelayReq {p : Nat} {m : PtpMsg} {stamp : Nat} (h0 : Keeps s0 s) : KeepsR s0 (execDelayReq p m stamp s) := by
  unfold execDelayReq
  try dsimp -iota -proj only
  repeat' with_reducible (first
    | assumption | apply keeps_ptpEmit | apply keeps_ptpTake | apply keeps_reach | apply keepsR_done | apply keepsR_ite
      | apply keeps_ite | apply keeps_ite2 | apply keepsR_done | apply keepsR_fault | intro _ | split | dsimp only)


theorem keepsR_execPtpSyncSend {p : Nat} {stamp : Nat} (h0 : Keeps s0 s) : KeepsR s0 (execPtpSyncSend p stamp s) := by
  unfold execPtpSyncSend
  try dsimp -iota -proj only
  repeat' with_reducible (first
    | assumption | apply keeps_modTport | apply keeps_ptpEmit | apply keeps_reach | apply keepsR_done | apply keepsR_ite
      | apply keeps_ite | apply keeps_ite2 | apply keepsR_done | apply keepsR_fault | intro _ | split | dsimp only)


theorem keepsR_execPtpAnnounceSend {p : Nat} (h0 : Keeps s0 s) : KeepsR s0 (execPtpAnnounceSend p s) := by
  unfold execPtpAnnounceSend
  try dsimp -iota -proj only
  repeat' with_reducible (first
    | assumption | apply keeps_modTport | apply keeps_ptpEmit | apply keepsR_done | apply keepsR_ite | apply keeps_ite
      | apply keeps_ite2 | apply keepsR_done | apply keepsR_fault | intro _ | split
      | exact keeps_of_eq (by assumption) (by assumption) | (refine keeps_of_eq (by assumption) ?_)
      | (refine keeps_of_eq3 (by assumption) ?_) | dsimp only)


theorem keepsR_execPtpDelayReqSend {p : Nat} {stamp : Nat} (h0 : Keeps s0 s) : KeepsR s0 (execPtpDelayReqSend p stamp s) := by
  unfold execPtpDelayReqSend
  try dsimp -iota -proj only
  repeat' with_reducible (first
    | assumption | apply keeps_modTport | apply keeps_ptpEmit | apply keeps_reach | apply keepsR_done | apply keepsR_ite
      | apply keeps_ite | apply keeps_ite2 | apply keepsR_done | apply keepsR_fault | intro _ | split | dsimp only)


end Sys2Proof.Machine
end

