-- ==== Sys2Proof/Laws/KeepsRegAccess.lean ====
section
/-! SUPPORT. What the operations of Machine/RegAccess.lean keep. -/

set_option linter.unusedTactic false
set_option linter.unreachableTactic false

namespace Sys2Proof.Machine

variable {s0 s : State}

theorem keeps_countSdc {d : RegDesc} {a : Nat} (h0 : Keeps s0 s) : Keeps s0 (State.countSdc s d a) := by
  unfold State.countSdc
  repeat' with_reducible (first
    | assumption | apply keeps_setReg | intro _ | split | exact keeps_of_eq (by assumption) (by assumption)
      | (refine keeps_of_eq (by assumption) ?_) | (refine keeps_of_eq3 (by assumption) ?_) | dsimp only)


theorem keeps_plainWrite {d : RegDesc} {a : Nat} {w : Nat} {meet : Nat} (h0 : Keeps s0 s) : Keeps s0 (State.plainWrite s d a w meet) := by
  unfold State.plainWrite
  try dsimp -iota -proj only
  repeat' with_reducible (first
    | assumption | apply keeps_countSdc | apply keeps_setReg | apply keeps_ite | apply keeps_ite2 | intro _ | split | dsimp only)


theorem keeps_ringWrite {d : RegDesc} {a : Nat} {w : Word} (h0 : Keeps s0 s) : Keeps s0 (State.ringWrite s d a w) := by
  unfold State.ringWrite
  try dsimp -iota -proj only
  repeat' with_reducible (first
    | assumption | apply keeps_cplTailWrite | apply keeps_plainWrite | apply keeps_ringCfgWrite | apply keeps_ite
      | apply keeps_ite2 | intro _ | split | dsimp only)


theorem keeps_mbxWrite {ini : Nat} {d : RegDesc} {a : Nat} {w : Word} (h0 : Keeps s0 s) : Keeps s0 (State.mbxWrite s ini d a w) := by
  unfold State.mbxWrite
  try dsimp -iota -proj only
  repeat' with_reducible (first
    | assumption | apply keeps_mbxCtrl | apply keeps_mbxDisable | apply keeps_mbxHi | apply keeps_mbxLo | apply keeps_plainWrite
      | apply keeps_ite | apply keeps_ite2 | intro _ | split | dsimp only)


theorem keeps_hrtWrite {ini : Nat} {d : RegDesc} {a : Nat} {w : Word} {meet : Nat} (h0 : Keeps s0 s) : Keeps s0 (State.hrtWrite s ini d a w meet) := by
  unfold State.hrtWrite
  repeat' with_reducible (first
    | assumption | apply keeps_irqEoi | apply keeps_mbxWrite | apply keeps_plainWrite | apply keeps_ringWrite | apply keeps_swiSet
      | apply keeps_ite | apply keeps_ite2 | intro _ | split | dsimp only)


theorem keeps_memWrite {ini : Nat} {d : RegDesc} {a : Nat} {w : Word} {meet : Nat} (h0 : Keeps s0 s) : Keeps s0 (State.memWrite s ini d a w meet) := by
  unfold State.memWrite
  try dsimp -iota -proj only
  repeat' with_reducible (first
    | assumption | apply keeps_deny | apply keeps_fwlCommitWrite | apply keeps_fwlLock | apply keeps_plainWrite | apply keeps_ite
      | apply keeps_ite2 | intro _ | split | dsimp only)


theorem keeps_tmkWrite {d : RegDesc} {a : Nat} {w : Word} {meet : Nat} (h0 : Keeps s0 s) : Keeps s0 (State.tmkWrite s d a w meet) := by
  unfold State.tmkWrite
  try dsimp -iota -proj only
  repeat' with_reducible (first
    | assumption | apply keeps_judgeSync | apply keeps_modPll | apply keeps_plainWrite | apply keeps_reassess
      | apply keeps_tmkCfgWrite | apply keeps_tsqPop | apply keeps_ite | apply keeps_ite2 | intro _ | split | dsimp only)


theorem keeps_rtcRegWrite {d : RegDesc} {a : Nat} {w : Word} {meet : Nat} (h0 : Keeps s0 s) : Keeps s0 (State.rtcRegWrite s d a w meet) := by
  unfold State.rtcRegWrite
  repeat' with_reducible (first
    | assumption | apply keeps_adjCtrlWrite | apply keeps_alarmArm | apply keeps_judgeDisc | apply keeps_leapWrite
      | apply keeps_plainWrite | apply keeps_raise | apply keeps_rtcWrite | apply keeps_ite | apply keeps_ite2 | intro _ | split
      | dsimp only)


theorem keeps_portCfgWrite {d : RegDesc} {p : Nat} {w : Nat} (h0 : Keeps s0 s) : Keeps s0 (State.portCfgWrite s d p w) := by
  unfold State.portCfgWrite
  try dsimp -iota -proj only
  repeat' with_reducible (first
    | assumption | apply keeps_lower | apply keeps_maxChanged | apply keeps_plainWrite | apply keeps_portLinkLost
      | apply keeps_ite | apply keeps_ite2 | intro _ | split | dsimp only)


theorem keeps_netWrite {d : RegDesc} {a : Nat} {w : Word} {meet : Nat} (h0 : Keeps s0 s) : Keeps s0 (State.netWrite s d a w meet) := by
  unfold State.netWrite
  repeat' with_reducible (first
    | assumption | apply keeps_cageMgmtWrite | apply keeps_cageWrite | apply keeps_plainWrite | apply keeps_pnCheck
      | apply keeps_portCfgWrite | apply keeps_txAdvance | apply keeps_ite | apply keeps_ite2 | intro _ | split | dsimp only)


theorem keeps_twnWrite {d : RegDesc} {a : Nat} {w : Word} {meet : Nat} (h0 : Keeps s0 s) : Keeps s0 (State.twnWrite s d a w meet) := by
  unfold State.twnWrite
  try dsimp -iota -proj only
  repeat' with_reducible (first
    | assumption | apply keeps_judgeHealth | apply keeps_kick | apply keeps_modTwn | apply keeps_plainWrite | apply keeps_setRole
      | apply keeps_ite | apply keeps_ite2 | intro _ | split | dsimp only)


theorem keeps_cabWrite {d : RegDesc} {a : Nat} {w : Word} {meet : Nat} (h0 : Keeps s0 s) : Keeps s0 (State.cabWrite s d a w meet) := by
  unfold State.cabWrite
  try dsimp -iota -proj only
  repeat' with_reducible (first
    | assumption | apply keeps_cabCfgWrite | apply keeps_cabTimingWrite | apply keeps_canRecover | apply keeps_canSleep
      | apply keeps_canWakeUp | apply keeps_plainWrite | apply keeps_ite | apply keeps_ite2 | intro _ | split | dsimp only)


theorem keeps_recWrite {ini : Nat} {d : RegDesc} {a : Nat} {w : Word} {meet : Nat} (h0 : Keeps s0 s) : Keeps s0 (State.recWrite s ini d a w meet) := by
  unfold State.recWrite
  repeat' with_reducible (first
    | assumption | apply keeps_audit | apply keeps_auditWait | apply keeps_plainWrite | apply keeps_pmcCtrl | apply keeps_ite
      | apply keeps_ite2 | intro _ | split | dsimp only)


theorem keeps_otherWrite {ini : Nat} {d : RegDesc} {a : Nat} {w : Word} {meet : Nat} (h0 : Keeps s0 s) : Keeps s0 (State.otherWrite s ini d a w meet) := by
  unfold State.otherWrite
  repeat' with_reducible (first
    | assumption | apply keeps_bootReset | apply keeps_calApply | apply keeps_dblWrite | apply keeps_keyCfgWrite
      | apply keeps_plainWrite | apply keeps_radCtrlWrite | apply keeps_radFlush | apply keeps_showJoinOpen
      | apply keeps_slackReset | apply keeps_stateRequest | apply keeps_ite | apply keeps_ite2 | intro _ | split | dsimp only)


theorem keeps_blockWrite {ini : Nat} {d : RegDesc} {a : Nat} {w : Word} {meet : Nat} (h0 : Keeps s0 s) : Keeps s0 (State.blockWrite s ini d a w meet) := by
  unfold State.blockWrite
  repeat' with_reducible (first
    | assumption | apply keeps_cabWrite | apply keeps_hrtWrite | apply keeps_memWrite | apply keeps_netWrite
      | apply keeps_otherWrite | apply keeps_recWrite | apply keeps_rtcRegWrite | apply keeps_tmkWrite | apply keeps_twnWrite
      | apply keeps_ite | apply keeps_ite2 | intro _ | split | exact keeps_of_eq (by assumption) (by assumption)
      | (refine keeps_of_eq (by assumption) ?_) | (refine keeps_of_eq3 (by assumption) ?_) | dsimp only)


theorem keeps_registerWrite {ini : Nat} {a : Nat} {w : Word} {meet : Nat} (h0 : Keeps s0 s) : Keeps s0 (State.registerWrite s ini a w meet) := by
  unfold State.registerWrite
  repeat' with_reducible (first
    | assumption | apply keeps_blockWrite | apply keeps_writeDiscarded | apply keeps_ite | apply keeps_ite2 | intro _ | split
      | exact keeps_of_eq (by assumption) (by assumption) | (refine keeps_of_eq (by assumption) ?_)
      | (refine keeps_of_eq3 (by assumption) ?_) | dsimp only)


theorem keeps_windowAccess {ini : Nat} {a : Nat} {write : Bool} {k : State → State} (hk : ∀  u, Keeps s0 u → Keeps s0 (k u)) (h0 : Keeps s0 s) : Keeps s0 (State.windowAccess s ini a write k) := by
  unfold State.windowAccess
  repeat' with_reducible (first
    | assumption | apply keeps_answerWith | apply keeps_deny | apply keeps_setupAccess | apply hk | apply keeps_ite
      | apply keeps_ite2 | intro _ | split | dsimp only)


theorem keepsR_execRegisterWrite {ini : Nat} {addr : Nat} {w : Word} {meet : Nat} (h0 : Keeps s0 s) : KeepsR s0 (execRegisterWrite ini addr w meet s) := by
  unfold execRegisterWrite
  repeat' with_reducible (first
    | assumption | apply keeps_registerWrite | apply keeps_windowAccess | apply keepsR_done | apply keepsR_done
      | apply keepsR_fault | intro _ | dsimp only)


theorem keepsR_execUnalignedAccess {ini : Nat} {addr : Nat} {size : Nat} {write : Bool} (h0 : Keeps s0 s) : KeepsR s0 (execUnalignedAccess ini addr size write s) := by
  unfold execUnalignedAccess
  repeat' with_reducible (first
    | assumption | apply keeps_answerWith | apply keeps_deny | apply keepsR_done | apply keepsR_ite | apply keeps_ite
      | apply keeps_ite2 | apply keepsR_done | apply keepsR_fault | intro _ | split | dsimp only)


theorem keeps_mbxHigh {ini : Nat} {q : Nat} (h0 : Keeps s0 s) : Keeps s0 (State.mbxHigh s ini q) := by
  unfold State.mbxHigh
  repeat' with_reducible (first
    | assumption | apply keeps_answerWith | apply keeps_mbxForeign | apply keeps_ite | apply keeps_ite2 | intro _ | split
      | dsimp only)


theorem keeps_specialRead {ini a : Nat} {t : State} (e : s.specialRead ini a = some t) (h : Keeps s0 s) : Keeps s0 t := by
  unfold State.specialRead at e
  dsimp -iota -proj only at e
  repeat' split at e
  all_goals first | (cases e; done) | (injection e with e; rw [← e])
  all_goals
    repeat' with_reducible (first
      | assumption | apply keeps_irqClaim | apply keeps_mbxRead | apply keeps_mbxHigh | apply keeps_dispLatRead | apply keeps_rtcRead
      | apply keeps_answerWith | apply keeps_objectRead)


theorem keeps_registerRead {ini a : Nat} (h : Keeps s0 s) : Keeps s0 (s.registerRead ini a) := by
  unfold State.registerRead
  split
  · exact keeps_specialRead (by assumption) h
  · repeat' with_reducible (first
      | assumption | apply keeps_snapshot | apply keeps_answerWith | apply keeps_ite | intro _ | split)


theorem keepsR_execLiveValueRead {ini : Nat} {addr : Nat} (h0 : Keeps s0 s) : KeepsR s0 (execLiveValueRead ini addr s) := by
  unfold execLiveValueRead
  repeat' with_reducible (first
    | assumption | apply keeps_registerRead | apply keeps_windowAccess | apply keepsR_done | apply keepsR_done
      | apply keepsR_fault | intro _ | dsimp only)


end Sys2Proof.Machine
end

