-- ==== Sys2Proof/Laws/Ops.lean ====
section
/-! SUPPORT. Laws of counting and telling: what growing a counter, an event of the performance monitors, a lifetime counter, a histogram
and an extreme leave as they were. -/

namespace Sys2Proof.Machine

variable {s : State}

/-- What a counting operation may touch: registers `as` beside the overflow flags, and the counters. -/
structure Counts (s t : State) (as : List Nat) : Prop where
  reg  : ∀ a, a ∉ as → a ≠ Reg.PMC_OVF_LO → a ≠ Reg.PMC_OVF_HI → t.reg a = s.reg a
  rest : { t with regs := s.regs, counts := s.counts } = s

theorem Counts.refl {as : List Nat} : Counts s s as := ⟨fun _ _ _ _ => rfl, rfl⟩

theorem Counts.trans {t u : State} {as : List Nat} (h : Counts s t as) (k : Counts t u as) : Counts s u as := by
  refine ⟨fun a h1 h2 h3 => (k.reg a h1 h2 h3).trans (h.reg a h1 h2 h3), ?_⟩
  have e := k.rest
  have d := h.rest
  cases s; cases t; cases u
  simp only [State.mk.injEq, true_and] at *
  simp_all

theorem counts_setReg {as : List Nat} {a : Nat} {w : Word} (h : a ∈ as ∨ a = Reg.PMC_OVF_LO ∨ a = Reg.PMC_OVF_HI) :
    Counts s (s.setReg a w) as := by
  refine ⟨fun b h1 h2 h3 => reg_setReg_other ?_, rfl⟩
  rintro rfl
  rcases h with h | h | h
  · exact h1 h
  · exact h2 h
  · exact h3 h

theorem counts_setCount {as : List Nat} {a v : Nat} : Counts s (s.setCount a v) as := ⟨fun _ _ _ _ => rfl, rfl⟩

theorem counts_pmcAdd {i n : Nat} {as : List Nat} : Counts s (s.pmcAdd i n) as := by
  unfold State.pmcAdd
  dsimp only
  split
  · exact counts_setCount
  · refine counts_setCount.trans (counts_setReg ?_)
    split <;> simp

theorem counts_pmc {src ev inst n : Nat} {as : List Nat} : Counts s (s.pmc src ev inst n) as := by
  unfold State.pmc
  split
  · suffices ∀ (l : List Nat) (f : Nat → State → Bool) (t : State),
        Counts t (l.foldl (fun t i => if f i t then t.pmcAdd i n else t) t) as from
      this _ (fun i t => t.flag (F.PMC_SEL_en i) && t.fld (F.PMC_SEL_source i) == src && t.fld (F.PMC_SEL_event i) == ev
        && pmcQualifies src (t.fld (F.PMC_SEL_qualifier i)) inst) s
    intro l f
    induction l with
    | nil => exact fun t => Counts.refl
    | cons i l ih =>
      intro t
      simp only [List.foldl_cons]
      refine Counts.trans ?_ (ih _)
      split
      · exact counts_pmcAdd
      · exact Counts.refl
  · exact Counts.refl

/-- A counter that is not the Network's touches no register. -/
theorem counts_bump {src i inst n : Nat} {as : List Nat} (h : src ≠ 3) (k : src ≠ 4) : Counts s (s.bump src i inst n) as := by
  unfold State.bump
  dsimp only
  rw [if_neg (by simp [h, k])]
  exact counts_setCount.trans counts_pmc

/-- A counter of the Network may touch its half-range flags. -/
theorem counts_bump_net {src i inst n : Nat} {as : List Nat} (h : Reg.NET_CNT_HALF (if src = 3 then inst else 3) ∈ as) :
    Counts s (s.bump src i inst n) as := by
  unfold State.bump
  dsimp only
  split
  · refine Counts.trans ?_ counts_pmc
    split
    · exact counts_setCount.trans (counts_setReg (.inl h))
    · exact counts_setCount
  · exact counts_setCount.trans counts_pmc

/-- Counting leaves everything but registers and counters as it was. -/
theorem rest_bump {src i inst n : Nat} : { s.bump src i inst n with regs := s.regs, counts := s.counts } = s := by
  by_cases h : src = 3
  · exact (counts_bump_net (as := [Reg.NET_CNT_HALF (if src = 3 then inst else 3)]) (by simp)).rest
  · by_cases k : src = 4
    · exact (counts_bump_net (as := [Reg.NET_CNT_HALF (if src = 3 then inst else 3)]) (by simp)).rest
    · exact (counts_bump (as := []) h k).rest

section
variable {src i inst n a : Nat} (h : src ≠ 3) (k : src ≠ 4) (lo : a ≠ Reg.PMC_OVF_LO) (hi : a ≠ Reg.PMC_OVF_HI)
include lo hi
theorem reg_pmc : (s.pmc src i inst n).reg a = s.reg a := counts_pmc.reg (as := []) a (by simp) lo hi
include h k
theorem reg_bump : (s.bump src i inst n).reg a = s.reg a := (counts_bump h k).reg (as := []) a (by simp) lo hi
end

section
variable {src i inst n : Nat} {f : Field} (lo : f.addr ≠ Reg.PMC_OVF_LO) (hi : f.addr ≠ Reg.PMC_OVF_HI)
include lo hi
theorem fld_pmc : (s.pmc src i inst n).fld f = s.fld f := by simp only [State.fld, State.regN, reg_pmc lo hi]
theorem fld_bump (h : src ≠ 3) (k : src ≠ 4) : (s.bump src i inst n).fld f = s.fld f := by
  simp only [State.fld, State.regN, reg_bump h k lo hi]
end

/-! ## What is told to the Recorder -/

@[simp] theorem reg_life {i n a : Nat} : (s.life i n).reg a = s.reg a := by unfold State.life; split <;> rfl
@[simp] theorem reg_hist {o a : Nat} : (s.hist o).reg a = s.reg a := by unfold State.hist; split <;> rfl
@[simp] theorem reg_extreme {e q a : Nat} {v : Int} : (s.extreme e v q).reg a = s.reg a := by
  unfold State.extreme; dsimp only; split <;> (try split) <;> rfl

theorem life_rest {i n : Nat} : { s.life i n with recd := s.recd } = s := by unfold State.life; split <;> rfl
theorem hist_rest {o : Nat} : { s.hist o with recd := s.recd } = s := by unfold State.hist; split <;> rfl
theorem extreme_rest {e q : Nat} {v : Int} : { s.extreme e v q with recd := s.recd } = s := by
  unfold State.extreme; dsimp only; split <;> (try split) <;> rfl

/-! ## Field by field -/

@[simp] theorem State.pmc_pending {src ev inst n : Nat} : (s.pmc src ev inst n).pending = s.pending := by
  have h := congrArg State.pending (counts_pmc (s := s) (src := src) (ev := ev) (inst := inst) (n := n) (as := [])).rest; exact h
@[simp] theorem State.bump_pending {src i inst n : Nat} : (s.bump src i inst n).pending = s.pending := by
  have h := congrArg State.pending (rest_bump (s := s) (src := src) (i := i) (inst := inst) (n := n)); exact h
@[simp] theorem State.pmc_snaps {src ev inst n : Nat} : (s.pmc src ev inst n).snaps = s.snaps := by
  have h := congrArg State.snaps (counts_pmc (s := s) (src := src) (ev := ev) (inst := inst) (n := n) (as := [])).rest; exact h
@[simp] theorem State.bump_snaps {src i inst n : Nat} : (s.bump src i inst n).snaps = s.snaps := by
  have h := congrArg State.snaps (rest_bump (s := s) (src := src) (i := i) (inst := inst) (n := n)); exact h
@[simp] theorem State.pmc_answer {src ev inst n : Nat} : (s.pmc src ev inst n).answer = s.answer := by
  have h := congrArg State.answer (counts_pmc (s := s) (src := src) (ev := ev) (inst := inst) (n := n) (as := [])).rest; exact h
@[simp] theorem State.bump_answer {src i inst n : Nat} : (s.bump src i inst n).answer = s.answer := by
  have h := congrArg State.answer (rest_bump (s := s) (src := src) (i := i) (inst := inst) (n := n)); exact h
@[simp] theorem State.pmc_out {src ev inst n : Nat} : (s.pmc src ev inst n).out = s.out := by
  have h := congrArg State.out (counts_pmc (s := s) (src := src) (ev := ev) (inst := inst) (n := n) (as := [])).rest; exact h
@[simp] theorem State.bump_out {src i inst n : Nat} : (s.bump src i inst n).out = s.out := by
  have h := congrArg State.out (rest_bump (s := s) (src := src) (i := i) (inst := inst) (n := n)); exact h
@[simp] theorem State.pmc_wall {src ev inst n : Nat} : (s.pmc src ev inst n).wall = s.wall := by
  have h := congrArg State.wall (counts_pmc (s := s) (src := src) (ev := ev) (inst := inst) (n := n) (as := [])).rest; exact h
@[simp] theorem State.bump_wall {src i inst n : Nat} : (s.bump src i inst n).wall = s.wall := by
  have h := congrArg State.wall (rest_bump (s := s) (src := src) (i := i) (inst := inst) (n := n)); exact h
@[simp] theorem State.pmc_clock {src ev inst n : Nat} : (s.pmc src ev inst n).clock = s.clock := by
  have h := congrArg State.clock (counts_pmc (s := s) (src := src) (ev := ev) (inst := inst) (n := n) (as := [])).rest; exact h
@[simp] theorem State.bump_clock {src i inst n : Nat} : (s.bump src i inst n).clock = s.clock := by
  have h := congrArg State.clock (rest_bump (s := s) (src := src) (i := i) (inst := inst) (n := n)); exact h
@[simp] theorem State.pmc_draws {src ev inst n : Nat} : (s.pmc src ev inst n).draws = s.draws := by
  have h := congrArg State.draws (counts_pmc (s := s) (src := src) (ev := ev) (inst := inst) (n := n) (as := [])).rest; exact h
@[simp] theorem State.bump_draws {src i inst n : Nat} : (s.bump src i inst n).draws = s.draws := by
  have h := congrArg State.draws (rest_bump (s := s) (src := src) (i := i) (inst := inst) (n := n)); exact h
@[simp] theorem State.pmc_mem {src ev inst n : Nat} : (s.pmc src ev inst n).mem = s.mem := by
  have h := congrArg State.mem (counts_pmc (s := s) (src := src) (ev := ev) (inst := inst) (n := n) (as := [])).rest; exact h
@[simp] theorem State.bump_mem {src i inst n : Nat} : (s.bump src i inst n).mem = s.mem := by
  have h := congrArg State.mem (rest_bump (s := s) (src := src) (i := i) (inst := inst) (n := n)); exact h
@[simp] theorem State.pmc_hrt {src ev inst n : Nat} : (s.pmc src ev inst n).hrt = s.hrt := by
  have h := congrArg State.hrt (counts_pmc (s := s) (src := src) (ev := ev) (inst := inst) (n := n) (as := [])).rest; exact h
@[simp] theorem State.bump_hrt {src i inst n : Nat} : (s.bump src i inst n).hrt = s.hrt := by
  have h := congrArg State.hrt (rest_bump (s := s) (src := src) (i := i) (inst := inst) (n := n)); exact h
@[simp] theorem State.pmc_tmk {src ev inst n : Nat} : (s.pmc src ev inst n).tmk = s.tmk := by
  have h := congrArg State.tmk (counts_pmc (s := s) (src := src) (ev := ev) (inst := inst) (n := n) (as := [])).rest; exact h
@[simp] theorem State.bump_tmk {src i inst n : Nat} : (s.bump src i inst n).tmk = s.tmk := by
  have h := congrArg State.tmk (rest_bump (s := s) (src := src) (i := i) (inst := inst) (n := n)); exact h
@[simp] theorem State.pmc_net {src ev inst n : Nat} : (s.pmc src ev inst n).net = s.net := by
  have h := congrArg State.net (counts_pmc (s := s) (src := src) (ev := ev) (inst := inst) (n := n) (as := [])).rest; exact h
@[simp] theorem State.bump_net {src i inst n : Nat} : (s.bump src i inst n).net = s.net := by
  have h := congrArg State.net (rest_bump (s := s) (src := src) (i := i) (inst := inst) (n := n)); exact h
@[simp] theorem State.pmc_mtr {src ev inst n : Nat} : (s.pmc src ev inst n).mtr = s.mtr := by
  have h := congrArg State.mtr (counts_pmc (s := s) (src := src) (ev := ev) (inst := inst) (n := n) (as := [])).rest; exact h
@[simp] theorem State.bump_mtr {src i inst n : Nat} : (s.bump src i inst n).mtr = s.mtr := by
  have h := congrArg State.mtr (rest_bump (s := s) (src := src) (i := i) (inst := inst) (n := n)); exact h
@[simp] theorem State.pmc_bat {src ev inst n : Nat} : (s.pmc src ev inst n).bat = s.bat := by
  have h := congrArg State.bat (counts_pmc (s := s) (src := src) (ev := ev) (inst := inst) (n := n) (as := [])).rest; exact h
@[simp] theorem State.bump_bat {src i inst n : Nat} : (s.bump src i inst n).bat = s.bat := by
  have h := congrArg State.bat (rest_bump (s := s) (src := src) (i := i) (inst := inst) (n := n)); exact h
@[simp] theorem State.pmc_rad {src ev inst n : Nat} : (s.pmc src ev inst n).rad = s.rad := by
  have h := congrArg State.rad (counts_pmc (s := s) (src := src) (ev := ev) (inst := inst) (n := n) (as := [])).rest; exact h
@[simp] theorem State.bump_rad {src i inst n : Nat} : (s.bump src i inst n).rad = s.rad := by
  have h := congrArg State.rad (rest_bump (s := s) (src := src) (i := i) (inst := inst) (n := n)); exact h
@[simp] theorem State.pmc_blw {src ev inst n : Nat} : (s.pmc src ev inst n).blw = s.blw := by
  have h := congrArg State.blw (counts_pmc (s := s) (src := src) (ev := ev) (inst := inst) (n := n) (as := [])).rest; exact h
@[simp] theorem State.bump_blw {src i inst n : Nat} : (s.bump src i inst n).blw = s.blw := by
  have h := congrArg State.blw (rest_bump (s := s) (src := src) (i := i) (inst := inst) (n := n)); exact h
@[simp] theorem State.pmc_rtc {src ev inst n : Nat} : (s.pmc src ev inst n).rtc = s.rtc := by
  have h := congrArg State.rtc (counts_pmc (s := s) (src := src) (ev := ev) (inst := inst) (n := n) (as := [])).rest; exact h
@[simp] theorem State.bump_rtc {src i inst n : Nat} : (s.bump src i inst n).rtc = s.rtc := by
  have h := congrArg State.rtc (rest_bump (s := s) (src := src) (i := i) (inst := inst) (n := n)); exact h
@[simp] theorem State.pmc_anv {src ev inst n : Nat} : (s.pmc src ev inst n).anv = s.anv := by
  have h := congrArg State.anv (counts_pmc (s := s) (src := src) (ev := ev) (inst := inst) (n := n) (as := [])).rest; exact h
@[simp] theorem State.bump_anv {src i inst n : Nat} : (s.bump src i inst n).anv = s.anv := by
  have h := congrArg State.anv (rest_bump (s := s) (src := src) (i := i) (inst := inst) (n := n)); exact h
@[simp] theorem State.pmc_scn {src ev inst n : Nat} : (s.pmc src ev inst n).scn = s.scn := by
  have h := congrArg State.scn (counts_pmc (s := s) (src := src) (ev := ev) (inst := inst) (n := n) (as := [])).rest; exact h
@[simp] theorem State.bump_scn {src i inst n : Nat} : (s.bump src i inst n).scn = s.scn := by
  have h := congrArg State.scn (rest_bump (s := s) (src := src) (i := i) (inst := inst) (n := n)); exact h
@[simp] theorem State.pmc_twn {src ev inst n : Nat} : (s.pmc src ev inst n).twn = s.twn := by
  have h := congrArg State.twn (counts_pmc (s := s) (src := src) (ev := ev) (inst := inst) (n := n) (as := [])).rest; exact h
@[simp] theorem State.bump_twn {src i inst n : Nat} : (s.bump src i inst n).twn = s.twn := by
  have h := congrArg State.twn (rest_bump (s := s) (src := src) (i := i) (inst := inst) (n := n)); exact h
@[simp] theorem State.pmc_recd {src ev inst n : Nat} : (s.pmc src ev inst n).recd = s.recd := by
  have h := congrArg State.recd (counts_pmc (s := s) (src := src) (ev := ev) (inst := inst) (n := n) (as := [])).rest; exact h
@[simp] theorem State.bump_recd {src i inst n : Nat} : (s.bump src i inst n).recd = s.recd := by
  have h := congrArg State.recd (rest_bump (s := s) (src := src) (i := i) (inst := inst) (n := n)); exact h
@[simp] theorem State.pmc_key {src ev inst n : Nat} : (s.pmc src ev inst n).key = s.key := by
  have h := congrArg State.key (counts_pmc (s := s) (src := src) (ev := ev) (inst := inst) (n := n) (as := [])).rest; exact h
@[simp] theorem State.bump_key {src i inst n : Nat} : (s.bump src i inst n).key = s.key := by
  have h := congrArg State.key (rest_bump (s := s) (src := src) (i := i) (inst := inst) (n := n)); exact h
@[simp] theorem State.pmc_cab {src ev inst n : Nat} : (s.pmc src ev inst n).cab = s.cab := by
  have h := congrArg State.cab (counts_pmc (s := s) (src := src) (ev := ev) (inst := inst) (n := n) (as := [])).rest; exact h
@[simp] theorem State.bump_cab {src i inst n : Nat} : (s.bump src i inst n).cab = s.cab := by
  have h := congrArg State.cab (rest_bump (s := s) (src := src) (i := i) (inst := inst) (n := n)); exact h
@[simp] theorem State.pmc_boot {src ev inst n : Nat} : (s.pmc src ev inst n).boot = s.boot := by
  have h := congrArg State.boot (counts_pmc (s := s) (src := src) (ev := ev) (inst := inst) (n := n) (as := [])).rest; exact h
@[simp] theorem State.bump_boot {src i inst n : Nat} : (s.bump src i inst n).boot = s.boot := by
  have h := congrArg State.boot (rest_bump (s := s) (src := src) (i := i) (inst := inst) (n := n)); exact h
@[simp] theorem State.life_pending {i n : Nat} : (s.life i n).pending = s.pending := by
  unfold State.life; split <;> rfl
@[simp] theorem State.hist_pending {i : Nat} : (s.hist i).pending = s.pending := by
  unfold State.hist; split <;> rfl
@[simp] theorem State.extreme_pending {e q : Nat} {v : Int} : (s.extreme e v q).pending = s.pending := by
  have h := congrArg State.pending (extreme_rest (s := s) (e := e) (v := v) (q := q)); exact h
@[simp] theorem State.life_snaps {i n : Nat} : (s.life i n).snaps = s.snaps := by
  unfold State.life; split <;> rfl
@[simp] theorem State.hist_snaps {i : Nat} : (s.hist i).snaps = s.snaps := by
  unfold State.hist; split <;> rfl
@[simp] theorem State.extreme_snaps {e q : Nat} {v : Int} : (s.extreme e v q).snaps = s.snaps := by
  have h := congrArg State.snaps (extreme_rest (s := s) (e := e) (v := v) (q := q)); exact h
@[simp] theorem State.life_answer {i n : Nat} : (s.life i n).answer = s.answer := by
  unfold State.life; split <;> rfl
@[simp] theorem State.hist_answer {i : Nat} : (s.hist i).answer = s.answer := by
  unfold State.hist; split <;> rfl
@[simp] theorem State.extreme_answer {e q : Nat} {v : Int} : (s.extreme e v q).answer = s.answer := by
  have h := congrArg State.answer (extreme_rest (s := s) (e := e) (v := v) (q := q)); exact h
@[simp] theorem State.life_out {i n : Nat} : (s.life i n).out = s.out := by
  unfold State.life; split <;> rfl
@[simp] theorem State.hist_out {i : Nat} : (s.hist i).out = s.out := by
  unfold State.hist; split <;> rfl
@[simp] theorem State.extreme_out {e q : Nat} {v : Int} : (s.extreme e v q).out = s.out := by
  have h := congrArg State.out (extreme_rest (s := s) (e := e) (v := v) (q := q)); exact h
@[simp] theorem State.life_wall {i n : Nat} : (s.life i n).wall = s.wall := by
  unfold State.life; split <;> rfl
@[simp] theorem State.hist_wall {i : Nat} : (s.hist i).wall = s.wall := by
  unfold State.hist; split <;> rfl
@[simp] theorem State.extreme_wall {e q : Nat} {v : Int} : (s.extreme e v q).wall = s.wall := by
  have h := congrArg State.wall (extreme_rest (s := s) (e := e) (v := v) (q := q)); exact h
@[simp] theorem State.life_clock {i n : Nat} : (s.life i n).clock = s.clock := by
  unfold State.life; split <;> rfl
@[simp] theorem State.hist_clock {i : Nat} : (s.hist i).clock = s.clock := by
  unfold State.hist; split <;> rfl
@[simp] theorem State.extreme_clock {e q : Nat} {v : Int} : (s.extreme e v q).clock = s.clock := by
  have h := congrArg State.clock (extreme_rest (s := s) (e := e) (v := v) (q := q)); exact h
@[simp] theorem State.life_draws {i n : Nat} : (s.life i n).draws = s.draws := by
  unfold State.life; split <;> rfl
@[simp] theorem State.hist_draws {i : Nat} : (s.hist i).draws = s.draws := by
  unfold State.hist; split <;> rfl
@[simp] theorem State.extreme_draws {e q : Nat} {v : Int} : (s.extreme e v q).draws = s.draws := by
  have h := congrArg State.draws (extreme_rest (s := s) (e := e) (v := v) (q := q)); exact h
@[simp] theorem State.life_mem {i n : Nat} : (s.life i n).mem = s.mem := by
  unfold State.life; split <;> rfl
@[simp] theorem State.hist_mem {i : Nat} : (s.hist i).mem = s.mem := by
  unfold State.hist; split <;> rfl
@[simp] theorem State.extreme_mem {e q : Nat} {v : Int} : (s.extreme e v q).mem = s.mem := by
  have h := congrArg State.mem (extreme_rest (s := s) (e := e) (v := v) (q := q)); exact h
@[simp] theorem State.life_hrt {i n : Nat} : (s.life i n).hrt = s.hrt := by
  unfold State.life; split <;> rfl
@[simp] theorem State.hist_hrt {i : Nat} : (s.hist i).hrt = s.hrt := by
  unfold State.hist; split <;> rfl
@[simp] theorem State.extreme_hrt {e q : Nat} {v : Int} : (s.extreme e v q).hrt = s.hrt := by
  have h := congrArg State.hrt (extreme_rest (s := s) (e := e) (v := v) (q := q)); exact h
@[simp] theorem State.life_tmk {i n : Nat} : (s.life i n).tmk = s.tmk := by
  unfold State.life; split <;> rfl
@[simp] theorem State.hist_tmk {i : Nat} : (s.hist i).tmk = s.tmk := by
  unfold State.hist; split <;> rfl
@[simp] theorem State.extreme_tmk {e q : Nat} {v : Int} : (s.extreme e v q).tmk = s.tmk := by
  have h := congrArg State.tmk (extreme_rest (s := s) (e := e) (v := v) (q := q)); exact h
@[simp] theorem State.life_net {i n : Nat} : (s.life i n).net = s.net := by
  unfold State.life; split <;> rfl
@[simp] theorem State.hist_net {i : Nat} : (s.hist i).net = s.net := by
  unfold State.hist; split <;> rfl
@[simp] theorem State.extreme_net {e q : Nat} {v : Int} : (s.extreme e v q).net = s.net := by
  have h := congrArg State.net (extreme_rest (s := s) (e := e) (v := v) (q := q)); exact h
@[simp] theorem State.life_mtr {i n : Nat} : (s.life i n).mtr = s.mtr := by
  unfold State.life; split <;> rfl
@[simp] theorem State.hist_mtr {i : Nat} : (s.hist i).mtr = s.mtr := by
  unfold State.hist; split <;> rfl
@[simp] theorem State.extreme_mtr {e q : Nat} {v : Int} : (s.extreme e v q).mtr = s.mtr := by
  have h := congrArg State.mtr (extreme_rest (s := s) (e := e) (v := v) (q := q)); exact h
@[simp] theorem State.life_bat {i n : Nat} : (s.life i n).bat = s.bat := by
  unfold State.life; split <;> rfl
@[simp] theorem State.hist_bat {i : Nat} : (s.hist i).bat = s.bat := by
  unfold State.hist; split <;> rfl
@[simp] theorem State.extreme_bat {e q : Nat} {v : Int} : (s.extreme e v q).bat = s.bat := by
  have h := congrArg State.bat (extreme_rest (s := s) (e := e) (v := v) (q := q)); exact h
@[simp] theorem State.life_rad {i n : Nat} : (s.life i n).rad = s.rad := by
  unfold State.life; split <;> rfl
@[simp] theorem State.hist_rad {i : Nat} : (s.hist i).rad = s.rad := by
  unfold State.hist; split <;> rfl
@[simp] theorem State.extreme_rad {e q : Nat} {v : Int} : (s.extreme e v q).rad = s.rad := by
  have h := congrArg State.rad (extreme_rest (s := s) (e := e) (v := v) (q := q)); exact h
@[simp] theorem State.life_blw {i n : Nat} : (s.life i n).blw = s.blw := by
  unfold State.life; split <;> rfl
@[simp] theorem State.hist_blw {i : Nat} : (s.hist i).blw = s.blw := by
  unfold State.hist; split <;> rfl
@[simp] theorem State.extreme_blw {e q : Nat} {v : Int} : (s.extreme e v q).blw = s.blw := by
  have h := congrArg State.blw (extreme_rest (s := s) (e := e) (v := v) (q := q)); exact h
@[simp] theorem State.life_rtc {i n : Nat} : (s.life i n).rtc = s.rtc := by
  unfold State.life; split <;> rfl
@[simp] theorem State.hist_rtc {i : Nat} : (s.hist i).rtc = s.rtc := by
  unfold State.hist; split <;> rfl
@[simp] theorem State.extreme_rtc {e q : Nat} {v : Int} : (s.extreme e v q).rtc = s.rtc := by
  have h := congrArg State.rtc (extreme_rest (s := s) (e := e) (v := v) (q := q)); exact h
@[simp] theorem State.life_anv {i n : Nat} : (s.life i n).anv = s.anv := by
  unfold State.life; split <;> rfl
@[simp] theorem State.hist_anv {i : Nat} : (s.hist i).anv = s.anv := by
  unfold State.hist; split <;> rfl
@[simp] theorem State.extreme_anv {e q : Nat} {v : Int} : (s.extreme e v q).anv = s.anv := by
  have h := congrArg State.anv (extreme_rest (s := s) (e := e) (v := v) (q := q)); exact h
@[simp] theorem State.life_scn {i n : Nat} : (s.life i n).scn = s.scn := by
  unfold State.life; split <;> rfl
@[simp] theorem State.hist_scn {i : Nat} : (s.hist i).scn = s.scn := by
  unfold State.hist; split <;> rfl
@[simp] theorem State.extreme_scn {e q : Nat} {v : Int} : (s.extreme e v q).scn = s.scn := by
  have h := congrArg State.scn (extreme_rest (s := s) (e := e) (v := v) (q := q)); exact h
@[simp] theorem State.life_twn {i n : Nat} : (s.life i n).twn = s.twn := by
  unfold State.life; split <;> rfl
@[simp] theorem State.hist_twn {i : Nat} : (s.hist i).twn = s.twn := by
  unfold State.hist; split <;> rfl
@[simp] theorem State.extreme_twn {e q : Nat} {v : Int} : (s.extreme e v q).twn = s.twn := by
  have h := congrArg State.twn (extreme_rest (s := s) (e := e) (v := v) (q := q)); exact h
@[simp] theorem State.life_key {i n : Nat} : (s.life i n).key = s.key := by
  unfold State.life; split <;> rfl
@[simp] theorem State.hist_key {i : Nat} : (s.hist i).key = s.key := by
  unfold State.hist; split <;> rfl
@[simp] theorem State.extreme_key {e q : Nat} {v : Int} : (s.extreme e v q).key = s.key := by
  have h := congrArg State.key (extreme_rest (s := s) (e := e) (v := v) (q := q)); exact h
@[simp] theorem State.life_cab {i n : Nat} : (s.life i n).cab = s.cab := by
  unfold State.life; split <;> rfl
@[simp] theorem State.hist_cab {i : Nat} : (s.hist i).cab = s.cab := by
  unfold State.hist; split <;> rfl
@[simp] theorem State.extreme_cab {e q : Nat} {v : Int} : (s.extreme e v q).cab = s.cab := by
  have h := congrArg State.cab (extreme_rest (s := s) (e := e) (v := v) (q := q)); exact h
@[simp] theorem State.life_boot {i n : Nat} : (s.life i n).boot = s.boot := by
  unfold State.life; split <;> rfl
@[simp] theorem State.hist_boot {i : Nat} : (s.hist i).boot = s.boot := by
  unfold State.hist; split <;> rfl
@[simp] theorem State.extreme_boot {e q : Nat} {v : Int} : (s.extreme e v q).boot = s.boot := by
  have h := congrArg State.boot (extreme_rest (s := s) (e := e) (v := v) (q := q)); exact h
@[simp] theorem State.life_regs {i n : Nat} : (s.life i n).regs = s.regs := by
  unfold State.life; split <;> rfl
@[simp] theorem State.hist_regs {i : Nat} : (s.hist i).regs = s.regs := by
  unfold State.hist; split <;> rfl
@[simp] theorem State.extreme_regs {e q : Nat} {v : Int} : (s.extreme e v q).regs = s.regs := by
  have h := congrArg State.regs (extreme_rest (s := s) (e := e) (v := v) (q := q)); exact h
@[simp] theorem State.life_counts {i n : Nat} : (s.life i n).counts = s.counts := by
  unfold State.life; split <;> rfl
@[simp] theorem State.hist_counts {i : Nat} : (s.hist i).counts = s.counts := by
  unfold State.hist; split <;> rfl
@[simp] theorem State.extreme_counts {e q : Nat} {v : Int} : (s.extreme e v q).counts = s.counts := by
  have h := congrArg State.counts (extreme_rest (s := s) (e := e) (v := v) (q := q)); exact h

end Sys2Proof.Machine
end

