-- ==== Sys2Proof/Laws/Rings.lean ====
section
/-! SUPPORT. Laws of accesses and of the command rings: what a command does when its access reaches its register, and when its engine
takes its descriptor. -/

namespace Sys2Proof.Machine

variable {s u v : State}

/-- An access that reaches its register is answered, and has its effect. -/
theorem setupAccess_reaches {ini a : Nat} {write : Bool} {k : State → State} (h : s.reaches ini a = true) :
    s.setupAccess ini a write k = k (s.answerWith .ok) := by
  simp only [State.reaches, Bool.and_eq_true, Bool.not_eq_true'] at h
  simp [State.setupAccess, h.1.1, h.1.2, h.2]

/-- An initiator that may not address the setup window meets a refusal of the firewall. -/
theorem setupAccess_denied {ini a : Nat} {write : Bool} {k : State → State} (h : s.mayUseSetup ini = false) :
    s.setupAccess ini a write k = (s.deny ini (0x300000000 + a) 73 write).answerWith .busError := by
  simp [State.setupAccess, h]

/-- A block without power answers a bus error, and nothing else changes. -/
theorem setupAccess_off {ini a : Nat} {write : Bool} {k : State → State} (h : s.mayUseSetup ini = true)
    (p : s.blockOn a = false) : s.setupAccess ini a write k = s.answerWith .busError := by
  simp [State.setupAccess, h, p]

/-- An access of the real-time pair while it is held in reset answers a bus error, and nothing else changes. -/
theorem setupAccess_held {ini a : Nat} {write : Bool} {k : State → State} (h : s.mayUseSetup ini = true)
    (p : s.pairHeld ini = true) : s.setupAccess ini a write k = s.answerWith .busError := by
  simp [State.setupAccess, h, p]

/-- The command of a descriptor that the engine takes: it runs, and its completion, if it has ended, is written. -/
theorem takeCommand_taken {n op slot : Nat} {desc : List Byte} {k : Nat → List Byte → State → Option Cpl × State}
    (h : s.taken n = some (slot, desc, u)) (ho : byteAt desc 0 = op) :
    s.takeCommand n op k = (match (k slot desc u).1 with
      | some c => ((k slot desc u).2.finish n slot c).settle n
      | none => (k slot desc u).2) := by
  unfold State.taken at h
  unfold State.takeCommand
  dsimp only at h ⊢
  split at h
  · rename_i hc
    rw [if_neg (by simpa using hc)]
    generalize (s.settle n).readHead n = r at h ⊢
    obtain ⟨d, x⟩ := r
    cases d with
    | none => cases h
    | some d =>
      injection h with h
      injection h with h1 h2
      injection h2 with h2 h3
      subst h1 h2 h3
      simp only [ho, ne_eq, not_true_eq_false, if_false] <;> rfl
  · cases h

/-- With another command at the head, or none that can be taken, only the ring itself changes. -/
theorem takeCommand_idle {n op : Nat} {k : Nat → List Byte → State → Option Cpl × State}
    (h : (s.settle n).canTake n = false) : s.takeCommand n op k = s.settle n := by
  unfold State.takeCommand
  simp [h]

theorem takenBlock_taken {n slot : Nat} {desc b : List Byte} (h : s.takenBlock n = some (slot, desc, b, v)) :
    ∃ u, s.taken n = some (slot, desc, u) ∧ u.readBlock n desc = (.ok b, v) := by
  unfold State.takenBlock at h
  generalize s.taken n = t at h ⊢
  cases t with
  | none => cases h
  | some x =>
    obtain ⟨a, d, u⟩ := x
    dsimp only at h
    generalize hr : u.readBlock n d = r at h
    obtain ⟨e, w⟩ := r
    cases e with
    | error c => cases h
    | ok b' =>
      injection h with h
      injection h with h1 h
      injection h with h2 h
      injection h with h3 h4
      subst h1 h2 h3 h4
      exact ⟨u, rfl, hr⟩

theorem withBlock_taken {n : Nat} {desc b : List Byte} {k : List Byte → State → Option Cpl × State}
    (h : u.readBlock n desc = (.ok b, v)) : u.withBlock n desc k = k b v := by
  unfold State.withBlock
  rw [h]

end Sys2Proof.Machine
end

