-- ==== Sys2Proof/Machine/Operands.lean ====
section
/-! DEFINITION. The operand forms of ring commands: where a descriptor and its 64-byte parameter block put what the engines read of
them (R153, R298). -/

namespace Sys2Proof.Machine

/-- The opcode of a descriptor. -/
def descOpcode (d : List Byte) : Nat := byteAt d 0

/-- The parameter-block address of a descriptor: 64-byte aligned, of 40 bits. -/
def descBlock (d : List Byte) : Nat := le d 8 8

/-- The address names a parameter block (R153). -/
def blockAddrOk (a : Nat) : Bool := a % 64 == 0 && a < 2 ^ 40

end Sys2Proof.Machine
end

