-- ==== Sys2Proof/Tests/Slice0.lean ====
section
/-! SUPPORT. Tests of the model: worked examples of the spec, ill-formed commands, and for every statement with hypotheses states and
operands that meet them together (witness_<statement>). A clause is named by its place among the statement's conjunctions. -/

namespace Sys2Proof.Tests

open Sys2Proof Sys2Proof.Machine

set_option Elab.async false
set_option maxRecDepth 100000

/-! ## States and operands of the tests -/

/-- Every domain powered and the start released, with the module in LIT. -/
def lit : State := ((State.reset.setReg Reg.BLW_DOM_ON 0x3FFFFFFF).setFld F.BOOT_STATUS_phase 5).setFld F.BLW_STATUS_state 3
/-- The firewall lets every initiator read and write DRAM by its entry 0, and the rest where no entry says otherwise. -/
def open_ : State :=
  (((((lit.setReg Reg.FWL_ACT_DEFAULT_R 0xFFFFFFFF).setReg Reg.FWL_ACT_DEFAULT_W 0xFFFFFFFF).setReg (Reg.FWL_ACT_ENT 0 0) 0x80000000).setReg
    (Reg.FWL_ACT_ENT 0 1) 0xFFFFF).setReg (Reg.FWL_ACT_ENT 0 2) 0xFFFFFFFF).setReg (Reg.FWL_ACT_ENT 0 3) 0xFFFFFFFF
/-- `s` with a descriptor waiting at the head of ring `n`: its bytes, and a parameter block at 0x3000. -/
def onRing (s : State) (n : Nat) (desc blk : List Byte) : State :=
  let s := ((s.setReg (Reg.HRT_RING_CFG n) 0).setFld (F.HRT_RING_CFG_enable n) 1).setFld (F.HRT_RING_CFG_size_log2 n) 4
  let s := ((s.setReg (Reg.HRT_RING_DESC_BASE_LO n) 0x1000).setReg (Reg.HRT_RING_CPL_BASE_LO n) 0x2000).setReg (Reg.HRT_RING_PROD n) 1
  s.modMem fun m => (m.putBytes 0x1000 desc).putBytes 0x3000 blk
/-- Vector `v` is routed to agent `c` with priority `p`. -/
def route (s : State) (v c p : Nat) : State :=
  ((s.setFld (F.HRT_VEC_ROUTE_en v) 1).setFld (F.HRT_VEC_ROUTE_target v) c).setFld (F.HRT_VEC_ROUTE_priority v) p
/-- Queue 3 is enabled, from agent 2 to agent 1. -/
def mail (s : State) : State := s.setReg (Reg.HRT_MBX_CFG 3) 0x80000012
/-- The row of the register at `a`. -/
def rowOf (a : Nat) : RegDesc := (Reg.find a).getD ⟨0, [], none, 0, 0, 0, 0, 0, 0⟩
/-- The state in which the engine of ring `n` holds its head descriptor. -/
def tk (n : Nat) (s : State) : State := match s.taken n with | some x => x.2.2 | none => s
/-- The same once its parameter block is read. -/
def tkb (n : Nat) (s : State) : State := match s.takenBlock n with | some x => x.2.2.2 | none => s
/-- A RAIL_CFG block of group `g` and mode `m`: 1.0 to 5.0 V, start 3.0 V, h_target 100, h_band 100. -/
def railBlk (g m : Nat) : List Byte :=
  [BitVec.ofNat 8 g, BitVec.ofNat 8 m] ++ zeros 6 ++
    [1000, 5000, 10, 10, 100, 100, 20, 200, 10, 100, 3000].flatMap (natLE 2) ++ zeros 34
/-- A command waits in Bellows' ring, on a module that lets its engine read memory. -/
def rg (desc blk : List Byte) : State := onRing open_ 0x18 desc blk
/-- Group 3 tracks with v_now and target 3.0 V and the headroom `h`. -/
def trk (h : Nat) : State :=
  (((lit.showRail 3 ⟨railBlk 3 2, 300000⟩ 3000).setFld (F.BLW_RAIL_MODE_mode 3) 2).raise (F.SCN_HEADROOM_valid 3)).setFld (F.SCN_HEADROOM_headroom 3) h
/-- The TCXO runs, and every PLL is locked. -/
def clk : State := lit.clocksUp
/-- U0 is the selected reference, and the time PLL takes its recovered clock. -/
def sy : State :=
  ((((clk.setFld F.TMK_REFSEL_STATUS_sel_state 1).raise (F.TMK_PORT_CFG_synce 0)).raise ⟨Reg.NET_PORT_STATUS, 0, 1⟩).modTmk
    fun t => { t with sel := some 0 })
/-- The RTC runs, and its interface is open. -/
def run : State := lit.modRtc fun r => { r with count := 100 }
/-- The discipline is active: the servo is LOCKED. -/
def disc : State := (run.setFld F.TMK_STATUS_servo_state 3).raise F.RTC_CFG_disc_en
/-- The word of RTC_ADJ_CTRL with go and 5 ticks, of RTC_LEAP_HI with arm, of BOOT_RESET with its key, the kind `k` and core 1. -/
def adjW : Word := BitVec.ofNat 32 (2 ^ F.RTC_ADJ_CTRL_go.lo + 5 * 2 ^ F.RTC_ADJ_CTRL_ticks.lo)
def leapW : Word := BitVec.ofNat 32 (2 ^ F.RTC_LEAP_HI_arm.lo)
def rstW (k : Nat) : Word := BitVec.ofNat 32 (0xC5A1 * 2 ^ F.BOOT_RESET_key.lo + k * 2 ^ F.BOOT_RESET_kind.lo + 2 ^ F.BOOT_RESET_core.lo)
/-- The start is in phase `n`. -/
def ph (n : Nat) : State := lit.setFld F.BOOT_STATUS_phase n
/-- An identity of slot A with no records. -/
def goodIdent : List Byte :=
  let h := ascii "CSGI" ++ [1, 1, 0, 0] ++ natLE 4 77 ++ zeros 16
  h ++ natLE 4 (crc32 h)
/-- The Timekeeper runs with port 0 slave-capable, port 2 a master, and links up on both. -/
def tmk : State :=
  (((((clk.raise F.TMK_CFG_enable).setFld (F.TMK_PORT_CFG_role 0) 1).setFld (F.TMK_PORT_CFG_role 2) 2).raise ⟨Reg.NET_PORT_STATUS, 0, 1⟩).raise
    ⟨Reg.NET_PORT_STATUS, 2, 1⟩).raise ⟨Reg.NET_PORT_STATUS, 8, 1⟩
def tport (s : State) (p : Nat) (f : TmkPort → TmkPort) : State := s.modTport p f
/-- A Sync or Follow_Up of domain 0, and an Announce. -/
def ptpM : PtpMsg := ⟨0, 7, 0, true, 0, 1000⟩
def annM : Announce := ⟨0, 0, 1, 128, 6, 0x20, 0x4000, 128, 5⟩
/-- Port 0 is the selected reference in servo state `v`, with an exchange that awaits its Follow_Up. -/
def sel0 (v : Nat) : State :=
  ((((tmk.setFld F.TMK_REFSEL_STATUS_sel_state 1).setFld (candField 0) 3).setFld F.TMK_STATUS_servo_state v).modTmk fun t => { t with sel := some 0 }).modTport 0
    fun t => { t with annOk := true, syncOk := true, wait := some (7, 5000, 3), t34 := some (2, 4, 6) }
/-- Ports U0 and M0 are up on a module that lets its engines use memory. -/
def net : State :=
  ((((((open_.raise (F.NET_PORT_CFG_enable 0)).raise (F.NET_PORT_CFG_enable 2)).raise (F.NET_PORT_CFG_bcast_en 0)).raise ⟨Reg.NET_PORT_STATUS, 0, 1⟩).raise
    ⟨Reg.NET_PORT_STATUS, 2, 1⟩).raise ⟨Reg.NET_PORT_STATUS, 8, 1⟩)
/-- A broadcast frame of 64 octets with an EtherType that no layer claims, and the copy of it for destination `d`. -/
def frm : List Byte := List.replicate 6 0xFF ++ [2, 0, 0, 0, 0, 1, 0x12, 0x34] ++ zeros 46
def cpy (d : Nat) : RxFrame :=
  { port := 0, len := 64, bytes := frm, cls := 0, stamp := some 5, stream := 1, mtch := 0, num := 0, pay := (0, 0), dests := [d] }
def withRx (s : State) (r : RxFrame) : State := s.modNet fun n => { n with rx := [r] }
/-- Queue `q` of port 0 holds a frame, with the launch time `l`. -/
def withTx (s : State) (q : Nat) (l : Option Nat) : State :=
  s.modTxq 0 q fun x => { x with head := some { slot := 0, n := 1, bytes := frm, launch := l } }
/-- The network ring, with a command and its block. -/
def nr (desc blk : List Byte) : State := onRing net 0x38 desc blk
/-- The same while a frame waits to be handed over. -/
def wr (desc blk : List Byte) : State := withRx (nr desc blk) (cpy 3)
/-- A rule or group block: IPv4 239.1.1.1, valid, to queue 2. -/
def grp : List Byte := [239, 1, 1, 1] ++ zeros 32 ++ [0, 24] ++ zeros 16 ++ [4, 0, 0, 1] ++ zeros 6
/-- A slot with a MACsec key bound to U0's engine. -/
def withKey (s : State) (n attr : Nat) : State := s.setKeySlot n { attr := attr, key := List.replicate 32 7 }
/-- Stream 1 is started on a canvas. -/
def ing (s : State) : State :=
  (s.setFld F.ANV_INGEST_STATUS_started 2).modAnv fun a => { a with canvas := some (zeros 64), grey := some (zeros 64), streams := [(1, { block := zeros 64, started := some 0 })] }
/-- The Anvil ring, with a command and its block. -/
def ar (desc blk : List Byte) : State := onRing open_ 0x60 desc blk
/-- A canvas of 24 frames a second in raw mode (`raw` = 1) or of 16 by 16 pixels, a configuration that fits it, and a stream for each. -/
def cvs (raw : Nat) : List Byte :=
  natLE 4 24 ++ natLE 2 1000 ++ [BitVec.ofNat 8 raw, 3] ++ natLE 2 16 ++ natLE 2 16 ++ natLE 4 2000000 ++ natLE 4 250000 ++ natLE 2 5 ++ zeros 42
def gry : List Byte := natLE 2 40 ++ [8, 0, 1, 12, 2, 0, 20, 0, 0, 0] ++ natLE 4 1000000 ++ zeros 48
def strm (raw : Nat) : List Byte :=
  [BitVec.ofNat 8 raw, 0, if raw = 1 then 16 else 10] ++ zeros 9 ++ natLE 2 16 ++ natLE 2 16 ++ zeros 4 ++ natLE 2 16 ++ natLE 2 16 ++ zeros 4 ++
    natLE 2 64 ++ zeros 2 ++ natLE 8 raw ++ zeros 24
/-- The pipeline with a raw canvas, a Temper set without tables, and stream 1 set but not started. -/
def tmp : TemperSet := { desc := natLE 8 0x10000 ++ zeros 56, global := zeros 0x200, places := [] }
def anv (s : State) : State :=
  s.modAnv fun a => { a with canvas := some (cvs 1), grey := some gry, streams := [(1, { block := strm 1 })], temper := some tmp }
/-- The same with stream 1 started at 0, and frame 7 filling. -/
def fill (s : State) : State :=
  ((anv s).setFld F.ANV_INGEST_STATUS_started 2).modAnv fun a => { a with
    streams := [(1, { block := strm 1, started := some 0 })], frames := [{ k := 7, streams := [{ stream := 1, ident := 0, slices := 1, first := 0 }] }] }
/-- A set descriptor with its global table block at 0x10000. -/
def tdesc : List Byte := natLE 8 0x10000 ++ zeros 16 ++ natLE 8 0x8000000 ++ natLE 8 0x10000000 ++ natLE 8 0x20000000 ++ zeros 16
/-- The raw canvas without a Temper set; and a global table block with the unit curves at 0x10000. -/
def anv0 (s : State) : State := (anv s).modAnv fun a => { a with temper := none }
def unitCells : List Host.Cell :=
  [(0x10000, 0x31), (0x10001, 0x4D), (0x10002, 0x45), (0x10003, 0x54)] ++ (List.range 48).flatMap fun i =>
    if i % 16 = 0 then [(0x10085 + 8 * i, 0x80)] else [(0x10080 + 8 * i, BitVec.ofNat 8 (i % 16)), (0x10085 + 8 * i, 0x80)]
def tab (s : State) : State := s.modMem fun m => { m with cells := m.cells ++ unitCells }
/-- A chain of one DK-16 with two pixels, at the full rate. -/
def chn : List Byte := natLE 2 1 ++ zeros 2 ++ natLE 4 2 ++ [0, 1] ++ natLE 2 100 ++ zeros 52
/-- Port 0 has that chain, and its two pixels of frame 7 have come. -/
def grd (s : State) : State :=
  (s.modScn fun c => { c with ports := [(0, { chain := some chn })] }).modAnv fun a => { a with
    frames := a.frames.map fun f => { f with
      pixels := [(0, (100, 60000, 65535)), (1, (1, 2, 3))]
      streams := f.streams.map fun u => { u with taken := [{ seq := 0, last := true, slices := 1, keys := [0, 1], edge := [] }] } } }
def okOf (r : Except Nat (List Byte)) : List Byte := match r with | .ok b => b | .error _ => []
def commitU (v : State) (b : List Byte) : State :=
  let (g, w) := v.anvilRead (descGlobal b) 0x20000
  (w.activateSet 0 { desc := b, global := okOf g, places := [], gen := 1 } false).2
/-- A frame that began under an older set is still being graded, and a commit waits for it. -/
def drn : State :=
  (grd (fill open_)).modAnv fun a => { a with commitSlot := some 0, frames := [{ k := 7, temper := some { tmp with gen := 5 } }] }
/-- The scan ring, with a command and its block; port 0 in state `n` with the chain of one DK-16 and the grid of the canvas. -/
def sr (desc blk : List Byte) : State := onRing open_ 0x70 desc blk
def dk0 : DkId := ⟨0xD016, 2, 64, 128, 3, 8⟩
def prt (n : Nat) (s : State) : State :=
  (((anv s).setFld (F.SCN_PORT_STATUS_state 0) n).setFld (F.SCN_PORT_STATUS_found 0) 1).modScn fun c => { c with
    ports := [(0, { chain := some chn, dks := [dk0], offsets := [0], grid := some (gridOf (cvs 1) gry) })] }
/-- Port 0 at step `k` of a start. -/
def stp (k : Nat) (s : State) : State := (prt 0 s).modPort 0 fun r => { r with step := k }
/-- A request of the host to DK-16 0 that has gone out `n` + 1 times. -/
def req (n : Nat) : ScnReq := { engine := 3, addr := 0, opcode := 1, reg := 8, data := 0, slot := some 2, tries := n }
def withReq (n : Nat) (s : State) : State := s.modPort 0 fun r => { r with requests := [req n] }
/-- The twin link is up on a standby with the session key 1 … 32, and a frame from the twin: type, number and payload. -/
def tkey : List Byte := (List.range 32).map fun i => BitVec.ofNat 8 (i + 1)
def twn (role : Nat) (s : State) : State :=
  (((s.setFld F.TWN_STATUS_role role).raise F.TWN_STATUS_link_up).raise F.TWN_STATUS_auth_ok).modTwn fun t => { t with key := some tkey, rxSeq := 4 }
def twf (type seq : Nat) (p : List Byte) : List Byte :=
  let b := [BitVec.ofNat 8 type, 1] ++ natLE 2 p.length ++ natLE 8 seq ++ p
  b ++ linkTag tkey true seq b
/-- The same from a twin that is not the active. -/
def twf0 (type seq : Nat) (p : List Byte) : List Byte :=
  let b := [BitVec.ofNat 8 type, 0] ++ natLE 2 p.length ++ natLE 8 seq ++ p
  b ++ linkTag tkey true seq b
/-- A healthy module of the role `r`. -/
def own (r : Nat) : State := ((((lit.setFld F.TWN_STATUS_role r).raise F.TMK_CLK_STATUS_time_locked).raise F.TWN_STATUS_healthy).modTwn fun t => { t with drive := r == 2 })
/-- Tongs' ring, with a command and its block. -/
def tr (desc blk : List Byte) : State := onRing open_ 0x80 desc blk
def hand (a : Bool) (n : Option Nat) : Handoff := { k := 7, j := 2, acked := a, slot := n }
/-- A class of 64 bytes that this module has registered as class 6, under tag 9. -/
def cls6 : TwinClass := { cls := 6, tag := 9, ms := 10, base := 0x10000, size := 64 }
def clsBlk : List Byte := natLE 2 9 ++ [0, 0] ++ natLE 4 100 ++ natLE 8 0x10000 ++ natLE 4 64 ++ zeros 44
/-- The metering part runs, with its accumulators restored; and it is off, so that the current-only path runs. -/
def met : State := (lit.raise F.MTR_CFG_enable).modMtr fun m => { m with restored := true }
def smp : List (List Int) := [[100, -100], [8388000, 1], [0, 0], [50, -50], [7, 7], [0, 0], [0, 0]]
def bat : State := ((State.reset.setReg Reg.BLW_DOM_ON 3).raise F.MTR_BAT_CFG_en).setFld F.MTR_BAT_CFG_ch_mask 5
/-- The radio coordinates with 8 slots of 512 ticks, in slot `k`; node 0 has slot 1 and phase 0. -/
def nod : RadNode := { eui := 5, e := 0, slot := 1, phase := 0, drift := 20, kinds := 2, lastCtr := 3, nextCtr := 9 }
def rad (acting k : Nat) : State :=
  ((((lit.setFld F.RAD_STATUS_acting acting).setFld F.RAD_SCHED_CFG_slot_ticks 512).setFld F.RAD_SCHED_CFG2_n_slot 8).raise F.TMK_CLK_STATUS_tcxo_ok
    ).modRtc (fun r => { r with count := 512 * k }) |>.modRad fun r => { r with nodes := [(0, nod)] }
/-- The same, enabled as coordinator. -/
def radw (acting k : Nat) : State := (rad acting k).raise F.RAD_CTRL_enable
def dat : RadData := ⟨1, 7, 2, some 0, false, false, [(1, 300)], 40, 50⟩
def jn (eui : Nat) : RadJoin := ⟨eui, 0, 20, 2, true, 40, 50, 0⟩
def rr (desc blk : List Byte) : State := (onRing open_ 0xA0 desc blk).modRad fun r => { r with nodes := [(0, nod)] }
def polled (s : State) : State := s.modRad fun r => { r with polled := some 0 }
/-- The state after a command, and node `i` of it. -/
def nx (r : Result) : State := match r with | .next t => t | _ => State.reset
def nd (r : Result) (i : Nat) : RadNode := ((nx r).node i).getD nod
/-- Channel 0 of the cabinet bus is on the bus; object 3 receives every base frame and object 4 sends. -/
def rxo : CabObj := { rx := true, id := 0, ext := false, mask := 0, fd := false, brs := false, oneShot := false, ownerOnly := false, toRing := false, dlc := 8, period := 0 }
def txo : CabObj := { rxo with rx := false, id := 5, mask := 0x7FF, dlc := 2, data := [1, 2] }
def cfr : CanFrame := { id := 0x123, ext := false, dlc := 2, data := [7, 0] }
def cab (s : State) : State :=
  ((s.raise (F.CAB_CFG_enable 0)).setFld (F.CAB_STATUS_state 0) 1).modCab fun c => { c with objs := [(3, rxo), (4, txo)] }
def snd (on one : Bool) (sl : Option Nat) : CanSend := { chan := 0, obj := 4, frame := txo.frame, slot := sl, oneShot := one, onBus := on }
def withSend (x : CanSend) (s : State) : State := s.modCab fun c => { c with sends := [x] }
def br (desc blk : List Byte) : State := cab (onRing open_ 0xB0 desc blk)
def crail : Rail := ⟨railBlk 3 2, 300000⟩
/-- The Keystore's rings: slot 4 holds an HMAC key, 5 an AES key that also unwraps, 6 a derivation source, 7 a permanent one; and a block. -/
def kst (s : State) : State :=
  ((((s.raise F.KEY_STATUS_rng_ok).setKeySlot 4 { attr := 0x12004, key := tkey }).setKeySlot 5 { attr := 0x18101, key := tkey }).setKeySlot 6
    { attr := 0x4003, key := tkey }).setKeySlot 7 { attr := 0x80101, key := tkey }
def kr (desc blk : List Byte) : State := kst (onRing open_ 8 desc blk)
def ks (desc blk : List Byte) : State := kst (onRing open_ 9 desc blk)
def kb (attr v flags la lb a r n aad : Nat) : List Byte :=
  natLE 4 attr ++ natLE 4 v ++ natLE 1 flags ++ [0] ++ natLE 2 la ++ natLE 2 lb ++ [0, 0] ++ natLE 8 a ++ natLE 8 r ++ natLE 4 n ++ natLE 4 aad ++ zeros 24
def noAudit (s : State) : State := s.modRec fun r => { r with auditBuf := List.replicate 32 (0, []) }
/-- The bytes read, and what is read from. -/
def kd (v : State) (a n : Nat) : List Byte := okOf (v.keyRead a n).1
def kw (v : State) (a n : Nat) : State := (v.keyRead a n).2
/-- The update engine's ring, with the staging area in state `c` and slot 1 in state `b`. -/
def ur (b c : Nat) (desc : List Byte) : State :=
  (onRing open_ 0x50 desc []).modBoot fun x => { x with ctl := { x.ctl with slots := [5, b], stage := c } }
/-- Slot 1 holds a header with one section for processor 3, empty, of version 2, that accepts version 1 of the others; and every running
section accepts versions 1 to 2 of it. -/
def acc (lo hi : Nat) : List Byte := (List.range 5).flatMap fun _ => natLE 2 lo ++ natLE 2 hi
def sec3 (ok : Bool) : List Byte :=
  [3, 0] ++ natLE 2 2 ++ natLE 4 4096 ++ zeros 16 ++ acc 1 1 ++ zeros 4 ++ (if ok then Crypto.sha384 [] else zeros 48) ++ zeros 32
def img1 (ok : Bool) (s : State) : State :=
  let s := s.modMem fun m => m.putBytes (updBase 1) (ascii "CSGF" ++ natLE 2 1 ++ zeros 18 ++ natLE 4 4096 ++ natLE 2 1 ++ zeros 226 ++ sec3 ok)
  let s := s.modBoot fun b => { b with loaded := List.replicate 5 (zeros 24 ++ acc 1 2) }
  (List.range 5).foldl (fun s q => s.setFld (F.UPD_RUN_IFV_ifv q) 1) s
def window (e : Nat) (s : State) : State := s.modBoot fun b => { b with window := some e }
/-- The Recorder's ring, loaded, with seal slot `k`; its slots 4 and 5 hold the seal key and the clear key. -/
def recd_ (k : Nat) (s : State) : State :=
  (((s.raise F.REC_STATUS_loaded).setFld F.REC_CFG_seal_slot k).setKeySlot 4 { attr := 0x22004, key := tkey }).setKeySlot 5 { attr := 0x42004, key := tkey }
def cr (k : Nat) (desc blk : List Byte) : State := recd_ k (onRing open_ 0x58 desc blk)
def flush (pass : Nat) (s : State) : State := s.modRec fun r => { r with flush := some { pass := pass, bank := 1, image := r.img } }
def theFlush (s : State) : Flush := s.recd.flush.getD {}
def clearBlk (scope bad seq : Nat) : List Byte := zeros 8 ++ natLE 4 seq ++ [BitVec.ofNat 8 scope, 0, BitVec.ofNat 8 bad] ++ zeros 17
def modR (f : Recorder → Recorder) (s : State) : State := s.modRec f
/-! ## The spec's worked examples -/

/-- The greyscale configuration of the example after R211, and its canvas at 60 frames/s. -/
def exGrey (nSf nB : Nat) : List Byte := natLE 2 nSf ++ natLE 1 nB ++ [6, 16, 12, 2, 0] ++ natLE 2 60 ++ zeros 2 ++ natLE 4 250000 ++ zeros 48
def exGrid : Grid := gridOf (natLE 4 60 ++ natLE 2 1000 ++ zeros 58) (exGrey 128 11)
/-- spec/06_greyscale.md: the green sub-pixel m = 3,348,880 of grid index 7,175 at 864,474. -/
theorem test_grey_step : greyStep (exGrey 128 11) 864474 = 2 := by decide
theorem test_grey_total : greyTotal (exGrey 128 11) 7175 3348880 864474 = 216013 := by decide +kernel
theorem test_grey_word : greyWord (exGrey 128 11) 7175 3348880 864474 = 0xB4BCD := by decide +kernel
/-- After R198: b_eff is 22 bits, and 21.0, in eighths. -/
theorem test_grey_bits : effBits (exGrey 128 11) = 8 * 22 ∧ effBits (exGrey 32 10) = 8 * 21 := by decide +kernel
/-- After R172: at E = 256 the increment is 8 where the threshold h is greatest, and 7 where it is 0. -/
theorem test_integrator : integrated exGrid 256 41487 3348880 864474 = 8 ∧ integrated exGrid 256 41488 3348880 864474 = 7 := by decide +kernel
/-- After R132 and in the pixel's canvas: codes of 10 bits. -/
theorem test_samples : scaleSample 10 512 = 32800 ∧ scaleSample 10 700 = 44843 ∧ scaleSample 10 300 = 19218 := by decide
/-- spec/05_pixel_pipeline.md: the map entry, the matrix and ageing of one pixel, and its brightness. -/
theorem test_map : placeIndex (natLE 2 1024 ++ natLE 2 512 ++ natLE 2 64 ++ natLE 2 32 ++ [17, 8, 0, 0] ++ natLE 4 2048) 5 2 = 2181 := by decide
def exRecord : List Byte := natLE 16 (0x780 + 2 ^ 12 * 0x040 + 2 ^ 48 * 0x700 + 2 ^ 84 * 0xFE0 + 2 ^ 96 * 0x7C0)
theorem test_matrix : matrixStage (calCoeff exRecord) 2048 (502723888, 268960256, 92333088) = (479708653, 235340224, 85245175) := by decide +kernel
def exCurve : List Byte := (List.range 48).flatMap fun i => natLE 4 (i % 16) ++ natLE 2 (if i % 16 = 3 then 0x8200 else 0x8000) ++ zeros 2
theorem test_ageing : ageStage [exCurve, exCurve] 0x0B0000A0 (479708653, 235340224, 85245175) = (483456377, 235340224, 86244142) := by decide +kernel
theorem test_brightness : brightStage 0x6000 (483456377, 235340224, 86244142) = (362592283, 176505168, 64683106) := by decide
theorem test_dither : ditherStage (zeros 4 ++ natLE 4 64) 7175 1029 514 (90648071, 44126292, 16170776) = (1416376, 689474, 252669) := by decide +kernel
/-- spec/07_scan_ports.md, port S17: the cable delay 24.3125 ns, the offset of DK-16 409 752.500 ns, W = 6 and f = 110 steps. -/
def exPort : ScnPort := { dks := [⟨0, 0, 136, 2560, 32, 0⟩, ⟨0, 0, 136, 2560, 0, 0⟩] }
theorem test_cable : exPort.cable 5672 = 1556 ∧ exPort.offset 5672 102024 1 = 0xBC20 := by decide
/-- E of subframe 1, pass 2, line 0 lies 134,277.34375 ns after P(k). -/
theorem test_edge : exGrid.edge 0 (exGrid.slot 1 2 0) = 8593750 := by decide +kernel
/-- spec/04_ingest.md: the frame of RTP timestamp 2,423,530,811 near 1,800,000,000 s at 60,000/1,001 frames/s takes its index. -/
theorem test_rtp_index : State.rtpIndex { lit with wall := 1800000000 * second } (gridOf (natLE 4 60 ++ natLE 2 1001 ++ zeros 58) (exGrey 128 11))
    2423530811 = 107892107893 := by decide +kernel
/-- spec/11_power.md: the tracking rounds at 0, 10 and 20 ms. -/
def exRail : List Byte := railBlk 3 2 |>.take 8 |> (· ++ [3600, 5000, 10, 50, 350, 100, 200, 300, 10, 100, 4200].flatMap (natLE 2) ++ zeros 34)
theorem test_rail_rounds : railRound exRail 4200 4200 720 false = 4000 ∧ railRound exRail 4000 4100 620 false = 3900 ∧
    railRound exRail 4350 4300 410 false = 4350 := by decide
/-- spec/09_host_interface.md: on a full ring of 16 slots the doorbell 0x0A is applied and 0x0B discarded. -/
def exRing : State :=
  ((((lit.setReg (Reg.HRT_RING_CFG 0x60) 0).setFld (F.HRT_RING_CFG_enable 0x60) 1).setFld (F.HRT_RING_CFG_size_log2 0x60) 4).setReg
    (Reg.HRT_RING_PROD 0x60) 0x1E).setReg (Reg.HRT_RING_CONS 0x60) 0x1A
theorem test_doorbell : (exRing.doorbell 0 0x6000000A).regN (Reg.HRT_RING_PROD 0x60) = 0x0A ∧
    (exRing.doorbell 0 0x6000000B).regN (Reg.HRT_RING_PROD 0x60) = 0x1E := by decide +kernel
/-- The calendar: 29 February of 2000 and of 2400's rule (R415), by the Gregorian day count. -/
theorem test_calendar : civilDate 11016 = (2000, 2, 29) ∧ civilDate 11017 = (2000, 3, 1) ∧ civilDate 47540 = (2100, 2, 28) ∧
    civilDate 47541 = (2100, 3, 1) := by decide +kernel
/-- CRC-32 of the nine digits (the check value of the code that R541 names) and SHA-384 of the three letters (FIPS 180-4). -/
theorem test_crc32 : crc32 (ascii "123456789") = 0xCBF43926 := by decide +kernel
theorem test_sha384 : (Crypto.sha384 (ascii "abc")).take 8 = [0xcb, 0x00, 0x75, 0x3f, 0x45, 0xa3, 0x5e, 0x8b] := by decide +kernel
/-- A step takes the command at the front. -/
theorem test_step_takes_front : (nx (step { lit with pending := [.rngHealthFail, .rngHealthFail] })).pending = [.rngHealthFail] := by decide +kernel
/-- The CRC-64 check value of spec/08_twin.md. -/
theorem test_crc64 : crc64 (ascii "123456789") = 0x995DC9BBDF1939FA := by decide +kernel
/-- IEEE 802.3 Clause 36, which R214 names: the code groups of K28.5 and D21.5 from negative running disparity. -/
theorem test_code_groups : codeGroup false .idle = (0b0011111010, true) ∧ codeGroup false d21_5 = (0b1010101010, false) := by decide +kernel

/-! ## Smoke: the well-formedness check refuses an ill-formed term for each of its checks -/

theorem smoke_1 : ([
.unalignedAccess 24 1 1 false, .unalignedAccess 1 1 0 false, .registerWrite 24 1 0 1, .registerWrite 1 1 0 (2 ^ 32), .liveValueRead 24 1, .tmkCfgWrite
    24 0, .sync 3 ptpM 1, .followUp 3 ptpM, .delayReq 3 ptpM 1, .delayResp 3 ptpM, .announce 3 annM, .ptpSyncSend 3 1, .ptpAnnounceSend 3,
    .ptpDelayReqSend 3 1, .announceTimeout 3, .syncTimeout 3, .candidateQualified 3, .laneSkewMeasured 2 0, .tsqPop 24 0, .launchTimeReached 3 1,
    .launchTimeReached 1 8, .linkUp 3, .linkDown 3, .frameReceived 3 [0] false 1 1 1 1 1, .frameCopyDeliver 20, .txFrameSend 3 1] : List Instr).all (fun i => !i.wf) = true := by decide +kernel

theorem smoke_2 : ([
.cageMgmtTransfer 24 1 0, .cageMgmtTransfer 1 2 0, .cageMgmtComplete 2 false 1, .cageMgmtComplete 1 false 256, .cageOvercurrent 2, .slackReset 24 0,
    .bandGraded 1 64 1, .loadCellSend 64, .lineSet 64 1 1 1 1, .subfSet 64 1 1, .portStartStepDone 64, .trainTimeout 64, .imageChunkRead 1025,
    .repReceived 64 1 1 false 1 1 1 1 false, .repReceived 1 512 1 false 1 1 1 1 false, .repReceived 1 1 8 false 1 1 1 1 false, .repReceived 1 1 1
    false 256 1 1 1 false, .repReceived 1 1 1 false 1 256 1 1 false, .repReceived 1 1 1 false 1 1 65536 1 false, .repReceived 1 1 1 false 1 1 1 (2 ^
    32) false, .open 64 1 1 1 false, .open 1 512 1 1 false, .open 1 1 16 1 false, .open 1 1 1 64 false, .short 64 1 1 1 false, .short 1 512 1 1 false] : List Instr).all (fun i => !i.wf) = true := by decide +kernel

theorem smoke_3 : ([
.short 1 1 16 1 false, .short 1 1 1 64 false, .shutdown 64 1 1 false, .shutdown 1 512 1 false, .shutdown 1 1 256 false, .damaged 64 1 false, .damaged
    1 512 false, .lostInput 64 1 false, .lostInput 1 512 false, .regLost 64 1 1 1 false, .regLost 1 512 1 1 false, .regLost 1 1 16 1 false, .regLost 1
    1 1 64 false, .pollRequest 64, .requestTimeout 64 1, .requestTimeout 1 512, .cableRemeasure 64, .chainOffsetMeasure 64, .returnLaneLost 64,
    .returnLaneRelocked 64, .standbyCellObserved 64, .heartbeat [0] 3, .classCopy 16, .classStale 16, .watchdogKick 24 0, .electionWaitExpiry 3] : List Instr).all (fun i => !i.wf) = true := by decide +kernel

theorem smoke_4 : ([
.electionSettle 3, .timedClaim 3, .takeoverDrive 3, .handoffBoundary 3, .doorbell 24 0, .ringCfgWrite 24 1 0, .ringCfgWrite 1 256 0, .ringDrainDone
    256, .cplTailWrite 24 1 0, .cplTailWrite 1 256 0, .coalesceTimer 256, .irqClaim 24 1, .irqClaim 1 5, .irqEoi 24 1 0, .irqEoi 1 5 0, .swiSet 24 0,
    .mbxWdataLoWrite 24 1 0, .mbxWdataLoWrite 1 16 0, .mbxWdataHiWrite 24 1 0, .mbxWdataHiWrite 1 16 0, .mbxHeldWriteQueued 16, .mbxRdataLoRead 24 1
    1, .mbxRdataLoRead 1 16 1, .mbxRdataLoRead 1 1 (2 ^ 72), .mbxFlush 24 1 0, .mbxFlush 1 16 0] : List Instr).all (fun i => !i.wf) = true := by decide +kernel

theorem smoke_5 : ([
.mbxDropPkt 24 1 0, .mbxDropPkt 1 16 0, .memoryRead 24 false 1 1 false 1 1, .memoryRead 1 false (2 ^ 40) 1 false 1 1, .memoryRead 1 false 1 0 false 1
    1, .memoryRead 1 true 0x20000 1 false 1 1, .memoryWrite 24 false 1 [0] false, .memoryWrite 1 false (2 ^ 40) [0] false, .memoryWrite 1 false 1 []
    false, .memoryWrite 1 true 0x20000 [0] false, .scrubRead 3 1, .fwlCommit 24 0, .fwlLock 24 0, .dispLatRead 24, .stateRequest 24 0, .domainFault
    30, .wakeRequest 10, .trackingRound 16, .holdoffExpiry 16, .railSetpointMessage 16, .powerOnReset 0 1, .powerOnReset 512 1, .powerOnReset 1 30,
    .hostRestart 24 0, .coreReset 24 0, .pllUnlock 4] : List Instr).all (fun i => !i.wf) = true := by decide +kernel

theorem smoke_6 : ([
.rtcAdjust 24 0, .alarmArm 24 1 0, .alarmArm 1 2 0, .leapSchedule 24 false 0, .meterChannelFault 7, .meterChannelRecovered 7, .meterBlock [] 1 1,
    .calApply 24 0, .batteryBurst [] false, .joinReq ({ jn 5 with eui := 2 ^ 64 }), .joinReq ({ jn 5 with e := 8 }), .joinReq
    ({ jn 5 with drift := 0 }), .joinReq ({ jn 5 with drift := 101 }), .joinReq ({ jn 5 with kinds := 2 ^ 16 }), .joinReq ({ jn 5 with rssi := 256 }),
    .joinReq ({ jn 5 with lqi := 256 }), .joinReq ({ jn 5 with counter := 2 ^ 32 - 1 }), .data ({ dat with addr := 2 ^ 16 }), .data
    ({ dat with counter := 2 ^ 32 }), .data ({ dat with rssi := 256 }), .data ({ dat with lqi := 256 }), .data
    ({ dat with readings := List.replicate 7 (1, 1) }), .data ({ dat with readings := [(256, 1)] }), .data ({ dat with readings := [(1, 2 ^ 32)] }),
    .heardFrame (.poll (2 ^ 16) 0 true), .heardFrame (.poll 1 (2 ^ 32 - 1) true)] : List Instr).all (fun i => !i.wf) = true := by decide +kernel

theorem smoke_7 : ([
.heardFrame (.data { dat with lqi := 256 }), .heardFrame (.join (2 ^ 64) 0 0 0 0 0 0 0 true), .heardFrame (.join 5 1024 0 0 0 0 0 0 true), .heardFrame
    (.join 5 0 8 0 0 0 0 0 true), .heardFrame (.join 5 0 0 4096 0 0 0 0 true), .heardFrame (.join 5 0 1 0 2 0 0 0 true), .heardFrame (.join 5 0 0 0 0
    256 0 0 true), .heardFrame (.join 5 0 0 0 0 0 (2 ^ 16) 0 true), .heardFrame (.join 5 0 0 0 0 0 0 (2 ^ 32 - 1) true), .radioEnable 24 0,
    .canFrameReceived 2 cfr, .canFrameReceived 1 ({ cfr with id := 0x800 }), .canFrameReceived 1 ({ cfr with dlc := 16 }), .canFrameReceived 1
    ({ cfr with data := zeros 65 }), .canFrameSent 2 1, .canBusError 2 1 false false false, .canBusError 1 8 false false false, .recover 24 1,
    .recover 1 2, .busOffRecovered 2, .canSleep 24 1, .canSleep 1 2, .canWakeWrite 24 1, .canWakeWrite 1 2, .canWake 2 none, .periodicSend 2 1] : List Instr).all (fun i => !i.wf) = true := by decide +kernel

theorem smoke_8 : ([
.periodicSend 1 32, .objectRead 24 1 1, .objectRead 1 2 1, .objectRead 1 1 32, .keyRequest 1 256 false false, .keyLock 24 0, .histogramSample [] 1 1
    1, .pmcRun 24 0, .pmcZero 24 0] : List Instr).all (fun i => !i.wf) = true := by decide +kernel

/-! ## Witnesses of the invariants -/

/-- A result that is a next state is the state `nx` gives. -/
def ran (r : Result) : Bool := match r with | .next _ => true | _ => false
theorem next_nx : (r : Result) → ran r = true → r = .next (nx r)
  | .next _, _ => rfl
/-- A command that waits. -/
def waiting : State := { lit with pending := [.rngHealthFail] }
theorem witness_StepKeepsCanonicalForm : ∃ s t : State, s.wf = true ∧ step s = .next t ∧ s.pending ≠ [] :=
  ⟨waiting, nx (step waiting), by decide +kernel, next_nx _ (by decide +kernel), by decide +kernel⟩
theorem witness_CommandsLeaveTheQueue : ∃ (c : Instr) (s t : State), exec c s = .next t ∧ t.flag F.KEY_STATUS_rng_ok ≠ s.flag F.KEY_STATUS_rng_ok :=
  ⟨.rngHealthFail, lit.raise F.KEY_STATUS_rng_ok, _, next_nx _ (by decide +kernel), by decide +kernel⟩
theorem witness_NothingIsTakenBack : ∃ (k : Nat) (s t : State), core.run k s = .next t ∧ 0 < k ∧ s.pending ≠ [] ∧ t.pending = [] :=
  ⟨1, waiting, nx (core.run 1 waiting), next_nx _ (by decide +kernel), by decide, by decide +kernel, by decide +kernel⟩
theorem witness_SafeRunNeverStops : ∃ s : State, s.safe = true ∧ s.pending ≠ [] := ⟨waiting, by decide +kernel⟩
theorem witness_TablesKeepTheirSize : ∃ s t : State, s.tablesSized ∧ step s = .next t ∧ s.pending ≠ [] :=
  ⟨waiting, nx (step waiting), by unfold State.tablesSized; decide +kernel, next_nx _ (by decide +kernel), by decide +kernel⟩

/-! ## Witnesses of the statements -/

theorem glue4 {A B C D R : Prop} (h : A ∧ B ∧ C ∧ D) (r : R) : A ∧ B ∧ C ∧ D ∧ R := ⟨h.1, h.2.1, h.2.2.1, h.2.2.2, r⟩
theorem glue6 {A B C D E F R : Prop} (h : A ∧ B ∧ C ∧ D ∧ E ∧ F) (r : R) : A ∧ B ∧ C ∧ D ∧ E ∧ F ∧ R :=
  ⟨h.1, h.2.1, h.2.2.1, h.2.2.2.1, h.2.2.2.2.1, h.2.2.2.2.2, r⟩
/-- A clean read of the pipeline answers the bytes stored. -/
theorem anvilData_clean {s : State} {a len : Nat} (hj : s.judge 5 a len false = none) (ho : s.memOn a len = true)
    (hf : s.mem.flips = []) (hp : s.mem.poison = []) (ha : a % 8 = 0) (hl : len % 8 = 0) :
    s.anvilData a len = some (s.mem.bytes a len, s) := by
  simp [State.anvilData, State.anvilRead, readMem_clean hj ho hf hp ha hl]
/-- The curves of a table block in memory. -/
theorem tabCurves_bytes (m : Mem) (a : Nat) : tabCurves (m.bytes a 0x20000) = m.bytes (a + 0x80) 384 :=
  Mem.sliceB_bytes (by decide)
/-- Bytes that nothing lists spell 0. -/
theorem leNat_unlisted (m : Mem) (a n : Nat) (h : ∀ c, c ∈ m.cells → c.1 < a) : leNat (m.bytes a n) = 0 := by
  have hb : m.bytes a n = List.replicate n 0 := by
    apply List.ext_getElem
    · simp [Mem.bytes]
    · intro i h1 h2
      simp only [Mem.bytes, List.getElem_map, List.getElem_range, List.getElem_replicate]
      rw [Mem.byte_unlisted fun c hc => by have := h c hc; omega]
      rfl
  rw [hb]
  clear hb
  induction n with
  | zero => rfl
  | succ n ih =>
    have ih : leNat (List.replicate n 0#8) = 0 := ih
    simp [List.replicate_succ, leNat, ih]
/-- A table block with its mark, ordered curves, and outputs of zero passes; without its mark it does not. -/
theorem globalGood_bytes (m : Mem) (a : Nat) (hc : ∀ c, c ∈ m.cells → c.1 < a + 0x4000) (h4 : leNat (m.bytes a 4) = 0x54454D31)
    (ho : (List.range 3).all (curveOrder (m.bytes (a + 0x80) 384)) = true) : globalGood (m.bytes a 0x20000) = true := by
  have h0 : le (m.bytes a 0x20000) 0 4 = 0x54454D31 := by rw [le, Mem.sliceB_bytes (by decide)]; exact h4
  have ht : ∀ c, c < 3 → ∀ i, i < 4097 → tabOutput (m.bytes a 0x20000) c i = 0 := by
    intro c h1 i h2
    rw [tabOutput, le, Mem.sliceB_bytes (by omega)]
    exact leNat_unlisted m _ 4 fun x hx => by have := hc x hx; omega
  simp only [globalGood, h0, tabCurves_bytes, ho, beq_self_eq_true, Bool.true_and]
  rw [List.all_eq_true]
  intro c h1
  rw [List.all_eq_true]
  intro i h2
  rw [ht c (List.mem_range.1 h1) i (List.mem_range.1 h2)]
  decide
theorem globalBad_bytes (m : Mem) (a : Nat) (h4 : leNat (m.bytes a 4) ≠ 0x54454D31) : globalGood (m.bytes a 0x20000) = false := by
  have h0 : le (m.bytes a 0x20000) 0 4 = leNat (m.bytes a 4) := by rw [le, Mem.sliceB_bytes (by decide)]; rfl
  simp [globalGood, h0, h4]
theorem descGlobal_tdesc : descGlobal tdesc = 0x10000 := by decide +kernel
theorem frames_none {s : State} (h : (s.anv.frames.all fun f => f.temper.isNone) = true) : ∀ f : FrameRec, f ∈ s.anv.frames → f.temper = none :=
  fun f hf => Option.isNone_iff_eq_none.1 (List.all_eq_true.1 h f hf)
/-- The states of the two commits of a raw table block: without its mark, and with unit curves. -/
def badTab : State := anv0 (ar [5, 0, 0, 0, 0, 0, 0, 0, 0, 0x30] tdesc)
def unitTab : State := tab (anv0 (ar [5, 0, 0, 0, 0, 0, 0, 0, 0, 0x30] tdesc))
theorem unitTab_good : globalGood ((tkb 0x60 unitTab).mem.bytes 0x10000 0x20000) = true :=
  globalGood_bytes _ _ (by decide +kernel) (by decide +kernel) (by decide +kernel)
theorem unitTab_curves : curvePoints (tabCurves ((tkb 0x60 unitTab).mem.bytes 0x10000 0x20000)) = curvePoints (tkb 0x60 unitTab).bankCurves := by
  rw [tabCurves_bytes]; decide +kernel
/-- The read of that descriptor's table block. -/
theorem anvilTdesc {s : State} (h : s.judge 5 0x10000 0x20000 false = none ∧ s.memOn 0x10000 0x20000 = true ∧ s.mem.flips = [] ∧ s.mem.poison = []) :
    s.anvilData (descGlobal tdesc) 131072 = some (s.mem.bytes 0x10000 0x20000, s) := by
  rw [descGlobal_tdesc]; exact anvilData_clean h.1 h.2.1 h.2.2.1 h.2.2.2 (by decide) (by decide)

theorem witness_IdleStepPassesTime_1 :
∃ (s : State), s.pending = [] :=
⟨lit, by decide +kernel⟩

/-- Clause 1. -/
theorem witness_OvervoltageStops_1 :
∃ (mv : Nat), 16000 < mv :=
⟨16001, by decide +kernel⟩

/-- Clauses 1, 2.1. -/
theorem witness_MisalignedAccessHasNoEffect_1 :
(∃ (ini a : Nat) (s : State) (size : Nat), s.mayUseSetup ini = true ∧ a < 16777216 ∧ ¬(size = 4 ∧ a % 4 = 0)) ∧
(∃ (ini a : Nat) (s : State), s.mayUseSetup ini = true ∧ a < 16777216 ∧ a % 4 ≠ 0) :=
  ⟨⟨0, 0x200003, lit, 4, by decide +kernel⟩,
    ⟨0, 0x200002, lit, by decide +kernel⟩⟩

/-- Clause 1. -/
theorem witness_UnassignedOffsetReadsZero_1 :
∃ (ini a : Nat) (s : State), s.reaches ini a = true ∧ a < 16777216 ∧ a % 4 = 0 ∧ unassigned a = true :=
⟨0, 0x2FFFF0, lit, by decide +kernel⟩

/-- Clauses 1, 2. -/
theorem witness_RegisterWriteFollowsAccessCodes_1 :
(∃ (ini a : Nat) (w : Word) (s : State) (d : RegDesc), s.reaches ini a = true ∧ a % 4 = 0 ∧ Reg.find a = some d ∧ a / 1048576 ∈ [2, 3, 7, 12, 13] ∧ ¬a
      ∈ [Reg.BLW_STATE_REQ, Reg.BOOT_RESET, Reg.KEY_CFG] ∧ s.writeBad a w = false) ∧
(∃ (ini a : Nat) (w : Word) (s : State) (d : RegDesc), s.reaches ini a = true ∧ a % 4 = 0 ∧ Reg.find a = some d ∧ a / 1048576 ∈ [2, 3, 7, 12, 13] ∧ ¬a
      ∈ [Reg.BLW_STATE_REQ, Reg.BOOT_RESET, Reg.KEY_CFG] ∧ s.writeBad a w = true) :=
  ⟨⟨0, Reg.BLW_WAKE_EN, 0x7, lit, rowOf Reg.BLW_WAKE_EN, by decide +kernel⟩,
    ⟨0, Reg.BLW_PF_CFG, 0xFFFF, lit, rowOf Reg.BLW_PF_CFG, by decide +kernel⟩⟩

theorem witness_FlagSetWinsOverClear_1 :
∃ (ini v a en : Nat) (s : State) (d : RegDesc) (c : Nat), (v, a, en) ∈ statusSources ∧ Reg.find a = some d ∧ d.sdc = some c ∧ s.reaches ini a = true ∧
      s.flag F.RTC_STATUS_locked = false :=
⟨0, 104, Reg.BLW_INT_STAT, Reg.BLW_INT_EN, (lit.raise F.BLW_INT_STAT_vin_ov).setReg Reg.BLW_INT_EN 0x40, rowOf Reg.BLW_INT_STAT, ((rowOf
    Reg.BLW_INT_STAT).sdc.getD 0), by decide +kernel⟩

theorem witness_LiveValueIsReadWhole_1 :
∃ (ini a : Nat) (s : State), isCounter a = true ∧ a % 8 = 0 ∧ s.reaches ini a = true :=
⟨0, 0x7000, lit.setCount 0x7000 0x500000007, by decide +kernel⟩

/-- Clauses 1.1, 2.1. -/
theorem witness_ForeignInitiatorMeetsAHole_1 :
(∃ (ini : Nat) (s : State), s.mayUseSetup ini = false) ∧
(∃ (ini a : Nat) (s : State), s.mayUseSetup ini = true ∧ a < 16777216 ∧ a % 4 = 0 ∧ s.blockOn a = false) :=
  ⟨⟨12, lit, by decide +kernel⟩,
    ⟨0, Reg.CAB_CFG 0, lit.setReg Reg.BLW_DOM_ON 0x12, by decide +kernel⟩⟩

/-- Clauses 2, 3. -/
theorem witness_DoorbellIsChecked_1 :
(∃ (ini : Nat) (w : Word) (s : State) (n v : Nat), s.reaches ini Reg.DBL_RING = true ∧ fieldOf F.DBL_RING_ring w = n ∧ fieldOf F.DBL_RING_producer w =
      v ∧ ¬(32 ≤ n ∧ n < 56) ∧ (n = 8 → s.flag F.KEY_CFG_lock = true → ini = 4) ∧ (ringAssigned n && s.ringEnabled n) = false) ∧
(∃ (ini : Nat) (w : Word) (s : State) (n v : Nat), s.reaches ini Reg.DBL_RING = true ∧ fieldOf F.DBL_RING_ring w = n ∧ fieldOf F.DBL_RING_producer w =
      v ∧ ¬(32 ≤ n ∧ n < 56) ∧ (n = 8 → s.flag F.KEY_CFG_lock = true → ini = 4) ∧ ringAssigned n = true ∧ s.ringEnabled n = true ∧ (s.ringMod n ≤ v ∨
      s.ringSize n < s.ringDiff n v (s.regN (Reg.HRT_RING_CONS n)))) :=
  ⟨⟨0, 0x60000003, lit, 0x60, 3, by decide +kernel⟩,
    ⟨0, 0x60010001, lit.setReg (Reg.HRT_RING_CFG 0x60) 0x80000004, 0x60, 0x10001, by decide +kernel⟩⟩

/-- Clauses 1, 2, 3, 4, 6. -/
theorem witness_RingSetUpAndRelease_1 :
(∃ (ini n : Nat) (s : State) (w : Word), ringAssigned n = true ∧ n < 256 ∧ s.reaches ini (Reg.HRT_RING_CFG n) = true ∧ fieldOf (F.HRT_RING_CFG_enable
      n) w = 1 ∧ s.ringEnabled n = false ∧ s.flag (F.HRT_RING_CFG_busy n) = false ∧ 4 ≤ fieldOf (F.HRT_RING_CFG_size_log2 n) w ∧ fieldOf
      (F.HRT_RING_CFG_size_log2 n) w ≤ 16 ∧ fieldOf (F.HRT_RING_CFG_vector n) w ≤ 95 ∧ s.ringBasesGood n (2 ^ fieldOf (F.HRT_RING_CFG_size_log2 n) w)
      = true) ∧
(∃ (ini n : Nat) (s : State) (w : Word), ringAssigned n = true ∧ n < 256 ∧ s.reaches ini (Reg.HRT_RING_CFG n) = true ∧ fieldOf (F.HRT_RING_CFG_enable
      n) w = 1 ∧ s.ringBasesGood n (2 ^ fieldOf (F.HRT_RING_CFG_size_log2 n) w) = false) ∧
(∃ (ini n : Nat) (s : State) (w : Word), ringAssigned n = true ∧ n < 256 ∧ s.reaches ini (Reg.HRT_RING_CFG n) = true ∧ fieldOf (F.HRT_RING_CFG_enable
      n) w = 0 ∧ s.ringEnabled n = true ∧ fieldOf (F.HRT_RING_CFG_size_log2 n) w = s.fld (F.HRT_RING_CFG_size_log2 n) ∧ fieldOf (F.HRT_RING_CFG_vector
      n) w = s.fld (F.HRT_RING_CFG_vector n) ∧ 4 ≤ s.fld (F.HRT_RING_CFG_size_log2 n) ∧ s.fld (F.HRT_RING_CFG_size_log2 n) ≤ 16 ∧ s.fld
      (F.HRT_RING_CFG_vector n) ≤ 95) ∧
(∃ (n : Nat) (s : State), ringAssigned n = true ∧ n < 256 ∧ s.ringEnabled n = false ∧ (s.hrt.inflight.any fun (i : Inflight) => i.ring == n) = false) ∧
(∃ (n : Nat) (s : State), ringAssigned n = true ∧ n < 256 ∧ s.ringEnabled n = true ∧ 0 < s.unreleased n ∧ s.fld (F.HRT_RING_COAL_time_us n) ≠ 0 ∧
      s.fld (F.HRT_RING_CFG_vector n) < 96) :=
  ⟨⟨0, 0x60, lit, 0x80050004, by decide +kernel⟩,
    ⟨0, 0x60, lit.setReg (Reg.HRT_RING_DESC_BASE_LO 0x60) 0xFFFFF000, 0x80050010, by decide +kernel⟩,
    ⟨0, 0x60, (lit.setReg (Reg.HRT_RING_CFG 0x60) 0x80000004).modHrt (fun h => { h with inflight := [{ ring := 0x60, slot := 0, desc := [] }] }), 4, by
      decide +kernel⟩,
    ⟨0x60, lit.setReg (Reg.HRT_RING_CFG 0x60) 0x40000004, by decide +kernel⟩,
    ⟨0x60, ((lit.setReg (Reg.HRT_RING_CFG 0x60) 0x80050004).setReg (Reg.HRT_RING_COAL 0x60) 0x308).setReg (Reg.HRT_RING_CPL_HEAD 0x60) 2, by
      decide +kernel⟩⟩

/-- Clauses 1, 3, 4. -/
theorem witness_InterruptIsClaimedAndEnded_1 :
(∃ (ini c : Nat) (s : State), s.reaches ini (Reg.HRT_IRQ_CLAIM c) = true ∧ s.qualifying c = []) ∧
(∃ (ini c : Nat) (s : State) (v : Nat) (w : Word), s.reaches ini (Reg.HRT_IRQ_EOI c) = true ∧ fieldOf (F.HRT_IRQ_EOI_vector c) w = v) ∧
(∃ (ini : Nat) (s : State), s.reaches ini Reg.HRT_SWI_SET = true) :=
  ⟨⟨0, 1, lit, by decide +kernel⟩,
    ⟨0, 1, (route lit 161 1 3).modHrt (fun h => { h with inService := [(161, 1), (162, 1)] }), 161, 161, by decide +kernel⟩,
    ⟨0, lit, by decide +kernel⟩⟩

/-- Clauses 1, 2.2, 3, 4, 5, 6, 7, 8.1, 8.2. -/
theorem witness_MailboxIsAQueue_1 :
(∃ (ini q : Nat) (s : State), q < 16 ∧ s.hrt.mbx.length = 16 ∧ s.reaches ini (Reg.HRT_MBX_WDATA_LO q) = true) ∧
(∃ (ini q : Nat) (s : State), q < 16 ∧ s.hrt.mbx.length = 16 ∧ s.reaches ini (Reg.HRT_MBX_WDATA_HI q) = true ∧ s.mbxSender q ini = true ∧ s.mbxOn q =
      true ∧ (s.mailbox q).dropping = false ∧ 512 ≤ (s.mailbox q).words.length) ∧
(∃ (ini q : Nat) (s : State), q < 16 ∧ s.hrt.mbx.length = 16 ∧ s.reaches ini (Reg.HRT_MBX_WDATA_HI q) = true ∧ s.mbxSender q ini = false) ∧
(∃ (q : Nat) (s : State) (j : Nat) (d : BitVec 64), q < 16 ∧ s.hrt.mbx.length = 16 ∧ (s.mailbox q).held = some (j, d) ∧ (s.mailbox q).words.length <
      512 ∧ (s.mailbox q).dropping = false) ∧
(∃ (ini q : Nat) (s : State) (w : MbxWord) (ws : List MbxWord), q < 16 ∧ s.hrt.mbx.length = 16 ∧ s.reaches ini (Reg.HRT_MBX_RDATA_LO q) = true ∧
      s.mbxReceiver q ini = true ∧ (s.mailbox q).words = w :: ws) ∧
(∃ (ini q : Nat) (s : State), q < 16 ∧ s.hrt.mbx.length = 16 ∧ s.reaches ini (Reg.HRT_MBX_RDATA_LO q) = true ∧ s.mbxReceiver q ini = true ∧ (s.mailbox
      q).words = []) ∧
(∃ (ini q : Nat) (s : State) (w : Word), q < 16 ∧ s.hrt.mbx.length = 16 ∧ s.reaches ini (Reg.HRT_MBX_CTRL q) = true ∧ fieldOf (F.HRT_MBX_CTRL_flush q)
      w = 1 ∧ fieldOf (F.HRT_MBX_CTRL_drop_pkt q) w = 0) ∧
(∃ (ini q : Nat) (s : State) (w : Word) (l : List MbxWord) (e : MbxWord) (r : List MbxWord), q < 16 ∧ s.hrt.mbx.length = 16 ∧ s.reaches ini
      (Reg.HRT_MBX_CTRL q) = true ∧ fieldOf (F.HRT_MBX_CTRL_flush q) w = 0 ∧ fieldOf (F.HRT_MBX_CTRL_drop_pkt q) w = 1 ∧ s.mbxReceiver q ini = true ∧
      (s.mailbox q).dropping = false ∧ (s.mailbox q).words = l ++ e :: r ∧ (∀ (x : MbxWord), x ∈ l → x.data.getLsbD 61 = false) ∧ e.data.getLsbD 61 =
      true) ∧
(∃ (ini q : Nat) (s : State) (w : Word), q < 16 ∧ s.hrt.mbx.length = 16 ∧ s.reaches ini (Reg.HRT_MBX_CTRL q) = true ∧ fieldOf (F.HRT_MBX_CTRL_flush q)
      w = 0 ∧ fieldOf (F.HRT_MBX_CTRL_drop_pkt q) w = 1 ∧ s.mbxReceiver q ini = true ∧ (s.mailbox q).dropping = false ∧ ∀ (x : MbxWord), x ∈
      (s.mailbox q).words → x.data.getLsbD 61 = false) :=
  ⟨⟨2, 3, mail lit, by decide +kernel⟩,
    ⟨2, 3, (mail lit).setMailbox 3 { words := List.replicate 512 ⟨0, 0⟩ }, by decide +kernel⟩,
    ⟨4, 3, mail lit, by decide +kernel⟩,
    ⟨3, (mail lit).setMailbox 3 { held := some (2, 5) }, 2, 5, by decide +kernel⟩,
    ⟨1, 3, (mail lit).setMailbox 3 { words := [⟨0x8000000500000007, evenParity 0x8000000500000007⟩] }, ⟨0x8000000500000007, evenParity
      0x8000000500000007⟩, [], by decide +kernel⟩,
    ⟨1, 3, mail lit, by decide +kernel⟩,
    ⟨1, 3, (mail lit).setMailbox 3 { words := [⟨5, 7⟩], held := some (2, 5), dropping := true }, 2, by decide +kernel⟩,
    ⟨1, 3, (mail lit).setMailbox 3 { words := [⟨5, 7⟩, ⟨0xA000000000000000, 0⟩, ⟨6, 1⟩] }, 1, [⟨5, 7⟩], ⟨0xA000000000000000, 0⟩, [⟨6, 1⟩], by
      decide +kernel⟩,
    ⟨1, 3, (mail lit).setMailbox 3 { words := [⟨5, 7⟩] }, 1, by decide +kernel⟩⟩

/-- Clauses 1, 2. -/
theorem witness_LockstepPairIsHeldAndRestarts_1 :
(∃ (s : State), s.powered 4 = true) ∧
(∃ (s : State), s.flag F.HRT_STATUS_rt_reset = true) :=
  ⟨⟨lit.modHrt (fun h => { h with inService := [(161, 4), (162, 1)] }), by decide +kernel⟩,
    ⟨lit.raise F.HRT_STATUS_rt_reset, by decide +kernel⟩⟩

/-- Clause 1. -/
theorem witness_DoorbellIsChecked_2 :
∃ (ini : Nat) (w : Word) (s : State) (n v : Nat), s.reaches ini Reg.DBL_RING = true ∧ fieldOf F.DBL_RING_ring w = n ∧ fieldOf F.DBL_RING_producer w =
      v ∧ ¬(32 ≤ n ∧ n < 56) ∧ (n = 8 → s.flag F.KEY_CFG_lock = true → ini = 4) ∧ ringAssigned n = true ∧ s.ringEnabled n = true ∧ v < s.ringMod n ∧
      s.ringDiff n v (s.regN (Reg.HRT_RING_CONS n)) ≤ s.ringSize n :=
⟨0, 0x60000003, lit.setReg (Reg.HRT_RING_CFG 0x60) 0x80000004, 0x60, 3, by decide +kernel⟩

/-- Clause 5. -/
theorem witness_RingSetUpAndRelease_2 :
∃ (ini n : Nat) (s : State) (w : Word), ringAssigned n = true ∧ n < 256 ∧ s.reaches ini (Reg.HRT_RING_CPL_TAIL n) = true ∧ BitVec.toNat w < s.ringMod
      n ∧ BitVec.toNat w < 2 ^ 17 ∧ s.ringDiff n (BitVec.toNat w) (s.regN (Reg.HRT_RING_CPL_TAIL n)) ≤ s.unreleased n :=
⟨0, 0x60, ((lit.setReg (Reg.HRT_RING_CFG 0x60) 0x80050004)).setReg (Reg.HRT_RING_CPL_HEAD 0x60) 2, 2, by decide +kernel⟩

/-- Clause 2. -/
theorem witness_InterruptIsClaimedAndEnded_2 :
∃ (ini c : Nat) (s : State), s.reaches ini (Reg.HRT_IRQ_CLAIM c) = true ∧ s.qualifying c ≠ [] :=
⟨0, 1, (route (route (lit.setReg Reg.HRT_SWI_STAT 3) 160 1 3) 161 1 5), by decide +kernel⟩

/-- Clause 2.1. -/
theorem witness_MailboxIsAQueue_2 :
∃ (ini q : Nat) (s : State), q < 16 ∧ s.hrt.mbx.length = 16 ∧ s.reaches ini (Reg.HRT_MBX_WDATA_HI q) = true ∧ s.mbxSender q ini = true ∧ s.mbxOn q =
      true ∧ (s.mailbox q).dropping = false ∧ (s.mailbox q).words.length < 512 :=
⟨2, 3, mail (lit.modHrt fun h => { h with staging := [(2, 7)] }), by decide +kernel⟩

/-- Clauses 1, 2.1, 2.2, 4, 5, 3.1, 3.2. -/
theorem witness_MemoryReadIsJudgedAndCorrected_1 :
(∃ (ini a len : Nat) (s : State), 0 < len ∧ s.pairHeld ini = false ∧ s.judge ini a len false = none ∧ s.memOn a len = true ∧ ∀ (w : Nat), w ∈ wordsOf
      a len → s.mem.verdict w = EccVerdict.good) ∧
(∃ (ini a : Nat) (s : State), a % 8 = 0 ∧ s.pairHeld ini = false ∧ s.judge ini a 8 false = none ∧ s.memOn a 8 = true ∧ region a ≠ some Region.flash ∧
      s.mem.verdict a = EccVerdict.corrected) ∧
(∃ (ini a : Nat) (s : State), a % 8 = 0 ∧ s.pairHeld ini = false ∧ s.judge ini a 8 false = none ∧ s.memOn a 8 = true ∧ region a ≠ some Region.flash ∧
      s.mem.verdict a = EccVerdict.uncorrectable) ∧
(∃ (ini a len rule : Nat) (s : State), s.pairHeld ini = false ∧ s.judge ini a len false = some rule) ∧
(∃ (ini : Nat) (s : State), s.reaches ini Reg.MEM_DISP_LAT_MAX = true) ∧
(∃ (ini a : Nat) (s : State), a % 8 = 0 ∧ s.pairHeld ini = false ∧ s.judge ini a 8 false = none ∧ s.memOn a 8 = true ∧ region a = some Region.flash ∧
      s.mem.verdict a = EccVerdict.corrected) ∧
(∃ (ini a : Nat) (s : State), a % 8 = 0 ∧ s.pairHeld ini = false ∧ s.judge ini a 8 false = none ∧ s.memOn a 8 = true ∧ region a = some Region.flash ∧
      s.mem.verdict a = EccVerdict.uncorrectable) :=
  ⟨⟨0, 0x1003, 4, open_.modMem (fun m => m.putBytes 0x1000 [1,2,3,4,5,6,7,8]), by decide +kernel⟩,
    ⟨0, 0x1000, open_.modMem (fun m => { m.putBytes 0x1000 [1,2] with flips := [(0x1000, 4)] }), by decide +kernel⟩,
    ⟨0, 0x1000, open_.modMem (fun m => { m.putBytes 0x1000 [1,2] with flips := [(0x1000, 5)] }), by decide +kernel⟩,
    ⟨8, 0x181F00000, 8, 65, lit, by decide +kernel⟩,
    ⟨0, lit.setReg Reg.MEM_DISP_LAT_MAX 77, by decide +kernel⟩,
    ⟨0, 0x200000000, open_.modMem (fun m => { m with flips := [(0x200000000, 4)] }), by decide +kernel⟩,
    ⟨0, 0x200000000, open_.modMem (fun m => { m with flips := [(0x200000000, 5)] }), by decide +kernel⟩⟩

/-- Clauses 1, 2, 3.1, 3.2. -/
theorem witness_MemoryWriteStoresTheBytes_1 :
(∃ (ini a : Nat) (bs : List Byte) (s : State), bs ≠ [] ∧ s.pairHeld ini = false ∧ s.judge ini a bs.length true = none ∧ s.memOn a bs.length = true ∧ ∀
      (w : Nat), w ∈ wordsOf a bs.length → (wordPart a bs.length w).snd ≠ 8 → s.mem.verdict w ≠ EccVerdict.uncorrectable) ∧
(∃ (ini a rule : Nat) (bs : List Byte) (s : State), s.pairHeld ini = false ∧ s.judge ini a bs.length true = some rule) ∧
(∃ (ini a : Nat) (bs : List Byte) (s : State), bs.length = 8 ∧ a % 8 = 0 ∧ s.pairHeld ini = false ∧ s.judge ini a 8 true = none ∧ s.memOn a 8 = true ∧
      (s.flag F.MEM_FLIP_CTRL_arm = false ∨ s.flipWord ≠ a)) ∧
(∃ (ini a : Nat) (bs : List Byte) (s : State), bs.length = 8 ∧ a % 8 = 0 ∧ s.pairHeld ini = false ∧ s.judge ini a 8 true = none ∧ s.memOn a 8 = true ∧
      s.flag F.MEM_FLIP_CTRL_arm = true ∧ s.flipWord = a) :=
  ⟨⟨0, 0x1003, [1,2,3,4,5,6,7,8,9], open_, by decide +kernel⟩,
    ⟨8, 0x200000000, 72, [1,2,3,4,5,6,7,8,9], lit, by decide +kernel⟩,
    ⟨0, 0x1000, [1,2,3,4,5,6,7,8], open_.modMem (fun m => { m with poison := [(0x1000, true)] }), by decide +kernel⟩,
    ⟨0, 0x1000, [1,2,3,4,5,6,7,8], ((open_.setReg Reg.MEM_FLIP_ADDR_LO 0x1000).raise F.MEM_FLIP_CTRL_arm).setReg Reg.MEM_FLIP_MASK_LO 5, by
      decide +kernel⟩⟩

/-- Clauses 1, 2. -/
theorem witness_ScrubCoversTheMemory_1 :
(∃ (x : Nat) (s : State), x < 3 ∧ s.mem.scrubPos.length = 3 ∧ s.flag (F.MEM_SCRUB_CFG_enable x) = true ∧ s.powered 13 = true ∧ s.powered (memDomain
      ((scrubRange x).fst + 8 * nth s.mem.scrubPos x 0)) = true ∧ s.fld F.ANV_INGEST_STATUS_started = 0 ∧ s.mem.verdict ((scrubRange x).fst + 8 * nth
      s.mem.scrubPos x 0) = EccVerdict.good) ∧
(∃ (x : Nat) (s : State), x < 3 ∧ s.mem.scrubPos.length = 3 ∧ s.flag (F.MEM_SCRUB_CFG_enable x) = true ∧ s.powered 13 = true ∧ s.powered (memDomain
      ((scrubRange x).fst + 8 * nth s.mem.scrubPos x 0)) = true ∧ s.fld F.ANV_INGEST_STATUS_started = 0 ∧ s.mem.verdict ((scrubRange x).fst + 8 * nth
      s.mem.scrubPos x 0) = EccVerdict.corrected) :=
  ⟨⟨0, lit.raise (F.MEM_SCRUB_CFG_enable 0), by decide +kernel⟩,
    ⟨2, (lit.raise (F.MEM_SCRUB_CFG_enable 2)).modMem (fun m => { m with flips := [(0x180000000, 4)] }), by decide +kernel⟩⟩

/-- Clauses 1.1, 1.2, 3.1, 3.2, 4. -/
theorem witness_FirewallCommitIsWholeOrNothing_1 :
(∃ (ini : Nat) (w : Word) (s : State) (e : Nat), s.reaches ini Reg.FWL_COMMIT = true ∧ fieldOf F.FWL_COMMIT_go w = 1 ∧ (s.flag F.FWL_CFG_lock = true →
      ini = 4) ∧ s.fwlBadEntry = some e) ∧
(∃ (ini : Nat) (w : Word) (s : State), s.reaches ini Reg.FWL_COMMIT = true ∧ fieldOf F.FWL_COMMIT_go w = 1 ∧ (s.flag F.FWL_CFG_lock = true → ini = 4)
      ∧ (∀ (e : Nat), e < 64 → BitVec.getLsbD (s.reg (Reg.FWL_ENT e 0)) 31 = true → bits (s.regN (Reg.FWL_ENT e 0)) 0 28 ≤ bits (s.regN (Reg.FWL_ENT e
      1)) 0 28) ∧ s.auditRoom = true) ∧
(∃ (ini : Nat) (w : Word) (s : State), s.reaches ini Reg.FWL_CFG = true ∧ fieldOf F.FWL_CFG_lock w = 1 ∧ s.flag F.FWL_CFG_lock = false ∧ s.auditRoom =
      true) ∧
(∃ (ini : Nat) (s : State), s.reaches ini Reg.FWL_CFG = true ∧ s.flag F.FWL_CFG_lock = true) ∧
(∃ (ini : Nat) (s : State), s.reaches ini Reg.FWL_COMMIT = true ∧ s.flag F.FWL_CFG_lock = true ∧ ini ≠ 4) :=
  ⟨⟨0, 1, (lit.setReg (Reg.FWL_ENT 3 0) 0x80000005).setReg (Reg.FWL_ENT 3 1) 4, 3, by decide +kernel⟩,
    ⟨0, 1, ((lit.setReg (Reg.FWL_ENT 3 0) 0x80000005).setReg (Reg.FWL_ENT 3 1) 5).setFld F.FWL_FENCE_gen 65535, by decide +kernel⟩,
    ⟨0, 1, lit, by decide +kernel⟩,
    ⟨0, lit.raise F.FWL_CFG_lock, by decide +kernel⟩,
    ⟨0, lit.raise F.FWL_CFG_lock, by decide +kernel⟩⟩

theorem witness_CompletionsReachTheHost_1 :
∃ (n slot : Nat) (desc : List Byte) (c : Cpl) (s : State) (head : Nat), s.hrt.inflight = [{ ring := n, slot := slot, desc := desc }] ∧ c.status < 256
      ∧ c.status ≠ Status.accessDenied ∧ c.w0 % 2 ^ 8 = 0 ∧ c.w0 < 2 ^ 15 ∧ slot < 65536 ∧ s.regN (Reg.HRT_RING_CPL_HEAD n) = head ∧ s.judge
      (ringEngine n).fst (s.cplBase n + 16 * (head % s.ringSize n)) 16 true = none ∧ s.memOn (s.cplBase n + 16 * (head % s.ringSize n)) 16 = true ∧
      s.cplBase n % 4096 = 0 ∧ s.flag F.MEM_FLIP_CTRL_arm = false :=
⟨0x60, 3, [], { status := 4, w1 := 0xFF }, (onRing open_ 0x60 [] []).modHrt (fun h =>
    { h with inflight := [{ ring := 0x60, slot := 3, desc := [] }] }), 0, by decide +kernel⟩

/-- Clause 4. -/
theorem witness_RingMachineryIsConfined_1 :
∃ (n slot : Nat) (c : Cpl) (s t : State), t = s.finish n slot c ∨ t = s.settle n :=
⟨0x60, 3, { status := 4, w1 := 0xFF }, (onRing open_ 0x60 [] []), (onRing open_ 0x60 [] []).settle 0x60, by decide +kernel⟩

/-- Clauses 6.1.1, 6.1.2, 6.2, 1, 2, 3, 4.1, 4.2, 5. -/
theorem witness_PowerFailRunsItsCourse_1 :
(∃ (s : State), s.powered 1 = true) ∧
(∃ (s : State) (mv : Nat), s.powered 1 = true ∧ 5500 < mv ∧ mv ≤ 6000) ∧
(∃ (s : State), s.powered 1 = false) ∧
(∃ (s : State) (c : Instr), s.powered 1 = true ∧ s.blw.openSwitch = false ∧ (s.fld F.BLW_STATUS_state ≠ 0 ∨ s.flag F.BLW_STATUS_busy = true) ∧ (c =
      Instr.powerFailWarning ∨ c = Instr.seatedLost)) ∧
(∃ (s : State) (c : Instr), s.powered 1 = true ∧ s.blw.openSwitch = false ∧ (s.fld F.BLW_STATUS_state ≠ 0 ∨ s.flag F.BLW_STATUS_busy = true) ∧ (c =
      Instr.powerFailWarning ∨ c = Instr.seatedLost)) ∧
(∃ (s : State), s.powered 1 = true ∧ s.blw.openSwitch = false ∧ s.fld F.BLW_STATUS_state = 0 ∧ s.flag F.BLW_STATUS_busy = false) ∧
(∃ (s : State), s.flag F.BLW_STATUS_pf_warn = true ∧ s.flag F.BLW_STATUS_committed = false) ∧
(∃ (s : State), s.powered 1 = true ∧ s.blw.darkWarn = false ∧ s.flag F.BLW_STATUS_pf_warn = true ∧ s.flag F.BLW_STATUS_committed = false) ∧
(∃ (s : State), s.powered 1 = true ∧ s.blw.darkWarn = false ∧ s.flag F.BLW_STATUS_committed = true) ∧
(∃ (s : State), s.blw.openSwitch = true ∧ (s.blw.vinBack = false ∨ s.blw.unseated = true)) :=
  ⟨⟨lit, by decide +kernel⟩,
    ⟨lit, 5501, by decide +kernel⟩,
    ⟨lit.setReg Reg.BLW_DOM_ON 1, by decide +kernel⟩,
    ⟨lit, .powerFailWarning, by decide +kernel⟩,
    ⟨lit.setFld F.TWN_STATUS_role 2, .seatedLost, by decide +kernel⟩,
    ⟨lit.setFld F.BLW_STATUS_state 0, by decide +kernel⟩,
    ⟨lit.raise F.BLW_STATUS_pf_warn, by decide +kernel⟩,
    ⟨(lit.raise F.BLW_STATUS_pf_warn).raise F.RTC_STATUS_locked, by decide +kernel⟩,
    ⟨(lit.raise F.BLW_STATUS_pf_warn).raise F.BLW_STATUS_committed, by decide +kernel⟩,
    ⟨((lit.raise F.BLW_STATUS_pf_warn).raise F.BLW_STATUS_committed).modBlw fun b => { b with openSwitch := true }, by decide +kernel⟩⟩

/-- Clauses 1.1, 2, 3. -/
theorem witness_HeatTurnsTheModuleOff_1 :
(∃ (s : State), s.powered 1 = true) ∧
(∃ (s : State), s.blw.thermal = true) ∧
(∃ (s : State), s.blw.hotOff = true ∧ s.flag F.BLW_THERM_CFG_auto_restart = true ∧ s.fld F.BOOT_STATUS_phase ≠ 15) :=
  ⟨⟨lit, by decide +kernel⟩,
    ⟨lit.modBlw fun b => { b with thermal := true }, by decide +kernel⟩,
    ⟨((lit.setReg Reg.BLW_DOM_ON 7).raise F.BLW_THERM_CFG_auto_restart).modBlw fun b => { b with hotOff := true }, by decide +kernel⟩⟩

/-- Clauses 1.1, 1.2, 2. -/
theorem witness_StateTransitionsFollowTheOrder_1 :
(∃ (ini : Nat) (w : Word) (s : State), s.reaches ini Reg.BLW_STATE_REQ = true ∧ s.requestRefused (fieldOf F.BLW_STATE_REQ_state w) = true) ∧
(∃ (ini : Nat) (w : Word) (s : State), s.reaches ini Reg.BLW_STATE_REQ = true ∧ s.requestRefused (fieldOf F.BLW_STATE_REQ_state w) = false ∧ (fieldOf
      F.BLW_STATE_REQ_state w ≠ 0 ∨ s.blw.wakeHeld = false)) ∧
(∃ (s : State) (d : Nat) (up : Bool) (rest : List (Nat × Bool)), s.blw.todo = (d, up) :: rest ∧ 2 ≤ d ∧ d < 30 ∧ (s.fld F.BLW_STATUS_target ≠ 0 ∨
      s.blw.wakeHeld = false)) :=
  ⟨⟨0, 1, lit.raise F.BLW_STATUS_busy, by decide +kernel⟩,
    ⟨0, 0, lit, by decide +kernel⟩,
    ⟨(lit.modBlw fun b => { b with todo := [(29, false), (28, false)] }).raise F.BLW_STATUS_busy, 29, false, [(28, false)], by decide +kernel⟩⟩

/-- Clauses 1.1, 1.2, 2, 2.1, 2.3, 3.1, 3.2. -/
theorem witness_DomainFaultsAndWakes_1 :
(∃ (s : State) (d : Nat), 2 ≤ d ∧ d < 30 ∧ s.powered 1 = true ∧ s.powered d = true ∧ restartDomain d = false) ∧
(∃ (s : State) (d : Nat), 2 ≤ d ∧ d < 30 ∧ s.powered 1 = true ∧ s.powered d = true ∧ restartDomain d = true ∧ s.fld F.BOOT_STATUS_phase ≠ 15) ∧
(∃ (s : State) (slot : Nat) (desc : List Byte) (u : State), s.taken 24 = some (slot, desc, u) ∧ byteAt desc 0 = 3) ∧
(∃ (s : State) (slot : Nat) (desc : List Byte) (u : State), s.taken 24 = some (slot, desc, u) ∧ byteAt desc 0 = 3 ∧ byteAt desc 1 < 30 ∧
      u.domainRefused (byteAt desc 1) = false) ∧
(∃ (s : State) (slot : Nat) (desc : List Byte) (u : State), s.taken 24 = some (slot, desc, u) ∧ byteAt desc 0 = 3 ∧ 30 ≤ byteAt desc 1) ∧
(∃ (s : State) (n : Nat), s.powered 1 = true ∧ n < 10 ∧ n ≠ 7 ∧ n ≠ 8 ∧ BitVec.getLsbD (s.reg Reg.BLW_WAKE_EN) n = false) ∧
(∃ (s : State) (n : Nat), s.powered 1 = true ∧ n < 10 ∧ n ≠ 7 ∧ n ≠ 8 ∧ BitVec.getLsbD (s.reg Reg.BLW_WAKE_EN) n = true ∧ s.flag F.BLW_STATUS_busy =
      false) :=
  ⟨⟨lit, 17, by decide +kernel⟩,
    ⟨lit, 12, by decide +kernel⟩,
    ⟨onRing lit 0x18 [3, 17] [], 0, [3, 17] ++ zeros 30, tk 0x18 (onRing lit 0x18 [3, 17] []), by decide +kernel⟩,
    ⟨onRing (lit.setReg Reg.BLW_DOM_FAULT 0x20000) 0x18 [3, 17] [], 0, [3, 17] ++ zeros 30, tk 0x18 (onRing (lit.setReg Reg.BLW_DOM_FAULT 0x20000) 0x18
      [3, 17] []), by decide +kernel⟩,
    ⟨onRing lit 0x18 [3, 31] [], 0, [3, 31] ++ zeros 30, tk 0x18 (onRing lit 0x18 [3, 31] []), by decide +kernel⟩,
    ⟨lit, 9, by decide +kernel⟩,
    ⟨((lit.setReg Reg.BLW_DOM_ON 7).setFld F.BLW_STATUS_state 0).setReg Reg.BLW_WAKE_EN 0x200, 9, by decide +kernel⟩⟩

/-- Clauses 1.1, 1.2, 1.3, 1.4, 1.5, 2.1, 2.2, 2.3. -/
theorem witness_RailsAreConfiguredAndSet_1 :
(∃ (s v : State) (slot : Nat) (desc b : List Byte) (o : Nat), s.takenBlock 24 = some (slot, desc, b, v) ∧ byteAt desc 0 = 1 ∧ railBad b = some o) ∧
(∃ (s v : State) (slot : Nat) (desc b : List Byte), s.takenBlock 24 = some (slot, desc, b, v) ∧ byteAt desc 0 = 1 ∧ railBad b = none ∧ railMode b ≠ 0
      ∧ v.fld F.BLW_STATUS_state < 2) ∧
(∃ (s v : State) (slot : Nat) (desc b : List Byte), s.takenBlock 24 = some (slot, desc, b, v) ∧ byteAt desc 0 = 1 ∧ railBad b = none ∧ railMode b ≠ 0
      ∧ 2 ≤ v.fld F.BLW_STATUS_state ∧ v.rail (byteAt b 0) = none) ∧
(∃ (s v : State) (slot : Nat) (desc b : List Byte) (r : Rail), s.takenBlock 24 = some (slot, desc, b, v) ∧ byteAt desc 0 = 1 ∧ railBad b = none ∧
      railMode b ≠ 0 ∧ 2 ≤ v.fld F.BLW_STATUS_state ∧ v.rail (byteAt b 0) = some r ∧ r.fine / 100 < 65536) ∧
(∃ (s v : State) (slot : Nat) (desc b : List Byte), s.takenBlock 24 = some (slot, desc, b, v) ∧ byteAt desc 0 = 1 ∧ railBad b = none ∧ railMode b = 0) ∧
(∃ (s u : State) (slot : Nat) (desc : List Byte), s.taken 24 = some (slot, desc, u) ∧ byteAt desc 0 = 2 ∧ byteAt desc 1 < 16 ∧ u.rail (byteAt desc 1)
      = none) ∧
(∃ (s u : State) (slot : Nat) (desc : List Byte) (r : Rail), s.taken 24 = some (slot, desc, u) ∧ byteAt desc 0 = 2 ∧ byteAt desc 1 < 16 ∧ u.rail
      (byteAt desc 1) = some r ∧ railMode r.block = 1 ∧ r.fine / 100 < 65536 ∧ railMin r.block ≤ le desc 2 2 ∧ le desc 2 2 ≤ railMax r.block) ∧
(∃ (s u : State) (slot : Nat) (desc : List Byte) (r : Rail), s.taken 24 = some (slot, desc, u) ∧ byteAt desc 0 = 2 ∧ byteAt desc 1 < 16 ∧ u.rail
      (byteAt desc 1) = some r ∧ railMode r.block ≠ 1 ∧ 50 ≤ le desc 2 2 ∧ le desc 2 2 ≤ 2000 ∧ r.block.length = 64) :=
  ⟨⟨rg [1,0,0,0,0,0,0,0,0,0x30] (railBlk 3 5), tkb 0x18 (rg [1,0,0,0,0,0,0,0,0,0x30] (railBlk 3 5)), 0, [1,0,0,0,0,0,0,0,0,0x30] ++ zeros 22, railBlk 3
      5, 1, by decide +kernel⟩,
    ⟨(rg [1,0,0,0,0,0,0,0,0,0x30] (railBlk 3 1)).setFld F.BLW_STATUS_state 1, tkb 0x18 ((rg [1,0,0,0,0,0,0,0,0,0x30] (railBlk 3 1)).setFld
      F.BLW_STATUS_state 1), 0, [1,0,0,0,0,0,0,0,0,0x30] ++ zeros 22, railBlk 3 1, by decide +kernel⟩,
    ⟨rg [1,0,0,0,0,0,0,0,0,0x30] (railBlk 3 1), tkb 0x18 (rg [1,0,0,0,0,0,0,0,0,0x30] (railBlk 3 1)), 0, [1,0,0,0,0,0,0,0,0,0x30] ++ zeros 22, railBlk 3
      1, by decide +kernel⟩,
    ⟨(rg [1,0,0,0,0,0,0,0,0,0x30] (railBlk 3 1)).setRail 3 ⟨railBlk 3 2, 300000⟩, tkb 0x18 ((rg [1,0,0,0,0,0,0,0,0,0x30] (railBlk 3 1)).setRail 3 ⟨railBlk
      3 2, 300000⟩), 0, [1,0,0,0,0,0,0,0,0,0x30] ++ zeros 22, railBlk 3 1, ⟨railBlk 3 2, 300000⟩, by decide +kernel⟩,
    ⟨(rg [1,0,0,0,0,0,0,0,0,0x30] (railBlk 3 0)).setRail 3 ⟨railBlk 3 2, 300000⟩, tkb 0x18 ((rg [1,0,0,0,0,0,0,0,0,0x30] (railBlk 3 0)).setRail 3 ⟨railBlk
      3 2, 300000⟩), 0, [1,0,0,0,0,0,0,0,0,0x30] ++ zeros 22, railBlk 3 0, by decide +kernel⟩,
    ⟨rg [2,3,0xD0,7] [], tk 0x18 (rg [2,3,0xD0,7] []), 0, [2,3,0xD0,7] ++ zeros 28, by decide +kernel⟩,
    ⟨(rg [2,3,0xD0,7] []).setRail 3 ⟨railBlk 3 1, 300000⟩, tk 0x18 ((rg [2,3,0xD0,7] []).setRail 3 ⟨railBlk 3 1, 300000⟩), 0, [2,3,0xD0,7] ++ zeros 28,
      ⟨railBlk 3 1, 300000⟩, by decide +kernel⟩,
    ⟨(rg [2,3,100,0] []).setRail 3 ⟨railBlk 3 2, 300000⟩, tk 0x18 ((rg [2,3,100,0] []).setRail 3 ⟨railBlk 3 2, 300000⟩), 0, [2,3,100,0] ++ zeros 28,
      ⟨railBlk 3 2, 300000⟩, by decide +kernel⟩⟩

/-- Clauses 1, 2, 3. -/
theorem witness_RailsFollowTheirHeadroom_1 :
(∃ (g : Nat) (s : State) (r : Rail) (h : Int), g < 16 ∧ s.rail g = some r ∧ s.headroom g = some h ∧ railMode r.block = 2 ∧ s.steersRails = true ∧
      r.fine / 100 < 65536) ∧
(∃ (g : Nat) (s : State), (s.rail g).isSome = true) ∧
(∃ (s : State), List.Pairwise (fun (x1 x2 : Nat) => x1 < x2) (List.map (fun (x : Nat × Rail) => x.fst) s.blw.rails) ∧ ∀ (x : Nat × Rail), x ∈
      s.blw.rails → x.fst < 16) :=
  ⟨⟨3, trk 50, ⟨railBlk 3 2, 300000⟩, 50, by decide +kernel⟩,
    ⟨3, trk 150, by decide +kernel⟩,
    ⟨trk 150, by decide +kernel⟩⟩

/-- Clauses 1, 2, 3, 5, 6, 7, 8, 10, 11. -/
theorem witness_ClockInputsAndLocks_1 :
(∃ (s : State), s.powered 26 = true ∧ s.flag F.TMK_CLK_STATUS_tcxo_ok = true ∧ s.fld F.TMK_CLK_STATUS_ref_input = 0 ∧ s.extGood = false) ∧
(∃ (s : State), s.powered 26 = true ∧ s.flag F.TMK_CLK_STATUS_tcxo_ok = true ∧ s.extGood = true) ∧
(∃ (s : State), s.powered 26 = true ∧ s.flag F.TMK_CLK_STATUS_tcxo_ok = false ∧ s.fld F.TMK_CLK_STATUS_ref_input ≠ 0) ∧
(∃ (s : State) (n : Nat), s.powered 26 = true ∧ s.refTarget = some n ∧ s.fld F.TMK_CLK_STATUS_ref_input ≠ n) ∧
(∃ (s : State), s.powered 26 = true) ∧
(∃ (s : State), s.powered 26 = true ∧ s.flag F.TMK_CLK_STATUS_time_locked = true ∧ s.powered 25 = true) ∧
(∃ (s : State) (k d : Nat), s.powered 26 = true ∧ (k, d) ∈ [(0, 26), (3, 12)] ∧ s.powered d = true ∧ s.fld F.BOOT_STATUS_phase ≠ 15) ∧
(∃ (s : State), s.powered 26 = true ∧ s.flag F.TMK_CLK_STATUS_ref_hold = false) ∧
(∃ (s : State), s.powered 26 = true ∧ s.synceOn = true) :=
  ⟨⟨clk, by decide +kernel⟩,
    ⟨clk.setFld F.TMK_REFSEL_STATUS_ext_state 2, by decide +kernel⟩,
    ⟨lit.setFld F.TMK_CLK_STATUS_ref_input 2, by decide +kernel⟩,
    ⟨(clk.lower F.TMK_CLK_STATUS_tcxo_ok).setFld F.TMK_REFSEL_STATUS_ext_state 2, 1, by decide +kernel⟩,
    ⟨clk, by decide +kernel⟩,
    ⟨clk, by decide +kernel⟩,
    ⟨clk, 0, 26, by decide +kernel⟩,
    ⟨clk, by decide +kernel⟩,
    ⟨sy, by decide +kernel⟩⟩

/-- Clauses 1, 3. -/
theorem witness_RtcTickAdvancesTheCount_1 :
(∃ (s : State), s.powered 0 = false ∨ s.flag F.RTC_STATUS_osc_stopped = true ∧ s.powered 1 = false) ∧
(∃ (s : State), s.powered 0 = true ∧ (s.flag F.RTC_STATUS_osc_stopped = false ∨ s.powered 1 = true) ∧ s.rtc.discAdj = 0) :=
  ⟨⟨(lit.raise F.RTC_STATUS_osc_stopped).setReg Reg.BLW_DOM_ON 1, by decide +kernel⟩,
    ⟨run, by decide +kernel⟩⟩

/-- Clauses 1.1, 1.2, 2, 3.1, 3.2, 6, 7.1, 7.2, 7.3, 7.4. -/
theorem witness_RtcIsSetAndDisciplined_1 :
(∃ (ini : Nat) (w : Word) (s : State), s.reaches ini Reg.RTC_ADJ_CTRL = true ∧ s.flag F.RTC_STATUS_locked = false ∧ s.flag F.RTC_ADJ_CTRL_go = false ∧
      s.discActive = false ∧ fieldOf F.RTC_ADJ_CTRL_go w = 1 ∧ fieldOf F.RTC_ADJ_CTRL_ticks w ≠ 32768) ∧
(∃ (ini : Nat) (s : State), s.reaches ini Reg.RTC_ADJ_CTRL = true ∧ s.flag F.RTC_STATUS_locked = false ∧ s.flag F.RTC_ADJ_CTRL_go = true) ∧
(∃ (ini a : Nat) (s : State), a < 2 ∧ s.reaches ini (Reg.RTC_ALARM_W2 a) = true ∧ s.flag F.RTC_STATUS_locked = false) ∧
(∃ (ini : Nat) (w : Word) (s : State), s.reaches ini Reg.RTC_LEAP_HI = true ∧ s.flag F.RTC_STATUS_locked = false ∧ fieldOf F.RTC_LEAP_HI_arm w = 1 ∧
      fieldOf F.RTC_LEAP_HI_delete w = 0 ∧ s.utc (s.regN Reg.RTC_LEAP_LO + 2 ^ 32 * fieldOf F.RTC_LEAP_HI_sec_hi w) % 86400 = 0) ∧
(∃ (ini : Nat) (w : Word) (s : State), s.reaches ini Reg.RTC_LEAP_HI = true ∧ s.flag F.RTC_STATUS_locked = false ∧ fieldOf F.RTC_LEAP_HI_arm w = 1 ∧
      fieldOf F.RTC_LEAP_HI_delete w = 0 ∧ s.utc (s.regN Reg.RTC_LEAP_LO + 2 ^ 32 * fieldOf F.RTC_LEAP_HI_sec_hi w) % 86400 ≠ 0) ∧
(∃ (ini : Nat) (w : Word) (s : State) (c : Instr) (r : Nat), (c, r) ∈ [(Instr.rtcAdjust ini w, Reg.RTC_ADJ_CTRL), (Instr.alarmArm ini 0 w,
      Reg.RTC_ALARM_W2 0), (Instr.alarmArm ini 1 w, Reg.RTC_ALARM_W2 1), (Instr.leapSchedule ini true w, Reg.RTC_LEAP_HI), (Instr.leapSchedule ini
      false w, Reg.RTC_LEAP_LO)] ∧ s.reaches ini r = true ∧ s.flag F.RTC_STATUS_locked = true) ∧
(∃ (edge : Nat) (s : State), s.later edge s.wall = false ∧ s.discActive = false) ∧
(∃ (edge : Nat) (s : State), s.later edge s.wall = false ∧ s.discActive = true ∧ s.rtc.discWas = false) ∧
(∃ (edge : Nat) (s : State) (n : Nat), s.later edge s.wall = false ∧ s.discActive = true ∧ s.rtc.discWas = true ∧ (s.discError edge).natAbs < second ∧
      s.rtc.discSec = some n ∧ n < 15) ∧
(∃ (edge : Nat) (s : State), s.later edge s.wall = false ∧ s.discActive = true ∧ s.rtc.discWas = true ∧ (s.discError edge).natAbs < second ∧
      s.rtc.discSec = some 15) :=
  ⟨⟨0, adjW, run, by decide +kernel⟩,
    ⟨0, run.raise F.RTC_ADJ_CTRL_go, by decide +kernel⟩,
    ⟨0, 1, run, by decide +kernel⟩,
    ⟨0, leapW, run.setReg Reg.RTC_LEAP_LO 86400, by decide +kernel⟩,
    ⟨0, leapW, run.setReg Reg.RTC_LEAP_LO 86401, by decide +kernel⟩,
    ⟨0, 0xFFFFFFFF, run.raise F.RTC_STATUS_locked, .leapSchedule 0 false 0xFFFFFFFF, Reg.RTC_LEAP_LO, by decide +kernel⟩,
    ⟨0, run, by decide +kernel⟩,
    ⟨0, disc, by decide +kernel⟩,
    ⟨0, disc.modRtc fun r => { r with discWas := true, discSec := some 14 }, 14, by decide +kernel⟩,
    ⟨0, disc.modRtc fun r => { r with discWas := true, discSec := some 15 }, by decide +kernel⟩⟩

/-- Clauses 1, 2.1, 3, 4, 6.1, 6.2, 6.3. -/
theorem witness_ResetsReachTheirBlocks_1 :
(∃ (s : State) (causes c : Nat), s.powered 1 = true ∧ s.fld F.BOOT_STATUS_phase ≠ 15 ∧ c < 9 ∧ causes.testBit c = true ∧ (∀ (i : Nat), i < c →
      causes.testBit i = false) ∧ c ≠ 7) ∧
(∃ (s : State), s.powered 1 = true ∧ s.fld F.BOOT_STATUS_phase ≠ 15) ∧
(∃ (s : State), s.powered 1 = true ∧ s.fld F.BOOT_STATUS_phase < 5 ∧ s.boot.held = false ∧ s.fld F.BOOT_STATUS_wd_count < 2) ∧
(∃ (s : State), s.powered 1 = false) ∧
(∃ (ini : Nat) (w : Word) (s : State), s.reaches ini Reg.BOOT_RESET = true ∧ fieldOf F.BOOT_RESET_key w = 50593 ∧ fieldOf F.BOOT_RESET_kind w = 1 ∧
      s.blw.thermal = false ∧ s.flag F.BLW_STATUS_pf_warn = false ∧ s.fld F.BOOT_STATUS_phase ≠ 15) ∧
(∃ (ini : Nat) (w : Word) (s : State), s.reaches ini Reg.BOOT_RESET = true ∧ fieldOf F.BOOT_RESET_key w = 50593 ∧ fieldOf F.BOOT_RESET_kind w = 2) ∧
(∃ (ini : Nat) (w : Word) (s : State) (c : Instr), s.reaches ini Reg.BOOT_RESET = true ∧ fieldOf F.BOOT_RESET_key w ≠ 50593 ∧ (c = Instr.hostRestart
      ini w ∨ c = Instr.coreReset ini w)) :=
  ⟨⟨run, 0x110, 4, by decide +kernel⟩,
    ⟨run, by decide +kernel⟩,
    ⟨ph 2, by decide +kernel⟩,
    ⟨lit.setReg Reg.BLW_DOM_ON 1, by decide +kernel⟩,
    ⟨0, rstW 1, run, by decide +kernel⟩,
    ⟨0, rstW 2, run.modHrt (fun h => { h with inService := [(1, 0), (2, 1)] }), by decide +kernel⟩,
    ⟨0, 1, run, .coreReset 0 1, by decide +kernel⟩⟩

/-- Clause 1. -/
theorem witness_StartRunsThroughItsPhases_1 :
∃ (s : State), s.inPhase 0 = true ∧ s.fuseFault = none :=
⟨(ph 0).setReg Reg.BLW_DOM_ON 3, by decide +kernel⟩

/-- Clauses 2.1, 3.1, 3.2, 3.3, 4, 5. -/
theorem witness_StartRunsThroughItsPhases_2 :
(∃ (s : State), s.inPhase 1 = true) ∧
(∃ (s : State) (b : List Byte), s.inPhase 2 = true ∧ identGood b = true) ∧
(∃ (s : State), s.inPhase 2 = true ∧ s.boot.tries < 2) ∧
(∃ (s : State), s.inPhase 2 = true ∧ 2 ≤ s.boot.tries) ∧
(∃ (s : State), s.inPhase 4 = true ∧ s.boot.ready = false) ∧
(∃ (s : State), s.inPhase 4 = true ∧ s.boot.ready = true) :=
  ⟨⟨ph 1, by decide +kernel⟩,
    ⟨ph 2, goodIdent, by decide +kernel⟩,
    ⟨ph 2, by decide +kernel⟩,
    ⟨(ph 2).modBoot fun b => { b with tries := 2 }, by decide +kernel⟩,
    ⟨ph 4, by decide +kernel⟩,
    ⟨((ph 4).modBoot fun b => { b with ready := true }).setClock 5000000, by decide +kernel⟩⟩

/-- Clause 4. -/
theorem witness_ClockInputsAndLocks_2 :
∃ (s : State), s.powered 26 = true ∧ s.fld F.TMK_CLK_STATUS_ref_input = 0 :=
⟨lit, by decide +kernel⟩

/-- Clause 2. -/
theorem witness_RtcTickAdvancesTheCount_2 :
∃ (s : State), s.powered 0 = true ∧ (s.flag F.RTC_STATUS_osc_stopped = false ∨ s.powered 1 = true) :=
⟨run.raise F.RTC_STATUS_osc_stopped, by decide +kernel⟩

/-- Clauses 4, 5. -/
theorem witness_RtcIsSetAndDisciplined_2 :
(∃ (ini : Nat) (w : Word) (s : State), s.reaches ini Reg.RTC_LEAP_HI = true ∧ s.flag F.RTC_STATUS_locked = false ∧ fieldOf F.RTC_LEAP_HI_arm w = 1 ∧
      fieldOf F.RTC_LEAP_HI_delete w = 1 ∧ s.utc (s.regN Reg.RTC_LEAP_LO + 2 ^ 32 * fieldOf F.RTC_LEAP_HI_sec_hi w) % 86400 = 86399) ∧
(∃ (ini : Nat) (s : State), s.reaches ini Reg.RTC_LEAP_LO = true ∧ s.flag F.RTC_STATUS_locked = false ∧ s.flag F.RTC_LEAP_HI_arm = false) :=
  ⟨⟨0, leapW + BitVec.ofNat 32 (2 ^ F.RTC_LEAP_HI_delete.lo), run.setReg Reg.RTC_LEAP_LO 86399, by decide +kernel⟩,
    ⟨0, run, by decide +kernel⟩⟩

/-- Clauses 1.1, 1.2, 2, 3, 4.1, 4.2.1, 4.2.2.1, 4.2.2.2, 4.2.2.3.1, 4.2.2.3.2.1, 4.2.2.3.2.2. -/
theorem witness_PtpMessagesReachTheServo_1 :
(∃ (p : Nat) (s : State) (m : PtpMsg) (a : Announce) (st : Nat) (c : Instr), p < 3 ∧ s.tmk.ports.length = 3 ∧ s.netLink p = true ∧ (c, m.domain) ∈
      [(Instr.sync p m st, m.domain), (Instr.followUp p m, m.domain), (Instr.delayReq p m st, m.domain), (Instr.delayResp p m, m.domain),
      (Instr.announce p a, a.domain)] ∧ s.servesDomain p m.domain = false) ∧
(∃ (p : Nat) (s : State) (m : PtpMsg) (a : Announce) (st : Nat) (c : Instr), p < 3 ∧ s.tmk.ports.length = 3 ∧ s.netLink p = true ∧ (c, m.domain) ∈
      [(Instr.sync p m st, m.domain), (Instr.followUp p m, m.domain), (Instr.delayReq p m st, m.domain), (Instr.delayResp p m, m.domain),
      (Instr.announce p a, a.domain)] ∧ s.servesDomain p m.domain = false) ∧
(∃ (p : Nat) (s : State) (m : PtpMsg) (a : Announce) (st : Nat) (c : Instr), p < 3 ∧ s.tmk.ports.length = 3 ∧ s.netLink p = true ∧ (c, m.domain) ∈
      [(Instr.sync p m st, m.domain), (Instr.followUp p m, m.domain), (Instr.delayReq p m st, m.domain), (Instr.delayResp p m, m.domain),
      (Instr.announce p a, a.domain)] ∧ s.servesDomain p m.domain = true ∧ s.stamping p = false ∧ (-7 ≤ m.log ∧ m.log ≤ 1) ∧ -3 ≤ a.log ∧ a.log ≤ 3) ∧
(∃ (p : Nat) (s : State) (m : PtpMsg), p < 3 ∧ s.tmk.ports.length = 3 ∧ s.netLink p = true ∧ s.servesDomain p m.domain = true ∧ (m.log < -7 ∨ 1 <
      m.log)) ∧
(∃ (p : Nat) (s : State) (a : Announce), p < 3 ∧ s.tmk.ports.length = 3 ∧ s.netLink p = true ∧ s.servesDomain p a.domain = true ∧ (a.log < -3 ∨ 3 <
      a.log)) ∧
(∃ (p : Nat) (s : State) (m : PtpMsg), p < 3 ∧ s.tmk.ports.length = 3 ∧ s.netLink p = true ∧ s.tmkEnabled = true ∧ s.stamping p = true ∧ s.masterPort
      p = true ∧ m.domain = s.fld (F.TMK_PORT_CFG_m_domain p) ∧ s.ptpClear p (s.fld F.TMK_PTP_CFG_transport) = true) ∧
(∃ (p : Nat) (s : State) (a : Announce), p < 3 ∧ s.tmk.ports.length = 3 ∧ s.netLink p = true ∧ s.tmkEnabled = true ∧ s.stamping p = true ∧
      s.slaveCapable p = true ∧ a.domain = s.fld F.TMK_PTP_CFG_domain ∧ -3 ≤ a.log ∧ a.log ≤ 3) ∧
(∃ (p : Nat) (s : State) (m : PtpMsg), p < 3 ∧ s.tmk.ports.length = 3 ∧ s.netLink p = true ∧ s.tmkEnabled = true ∧ s.stamping p = true ∧
      s.slaveCapable p = true ∧ m.domain = s.fld F.TMK_PTP_CFG_domain ∧ -7 ≤ m.log ∧ m.log ≤ 1 ∧ m.twoStep = true) ∧
(∃ (p : Nat) (s : State) (m : PtpMsg) (t3 : Nat), p < 3 ∧ s.tmk.ports.length = 3 ∧ s.netLink p = true ∧ s.tmkEnabled = true ∧ s.stamping p = true ∧
      s.slaveCapable p = true ∧ m.domain = s.fld F.TMK_PTP_CFG_domain ∧ (s.tport p).req = some (m.seq, t3)) ∧
(∃ (p : Nat) (s : State) (m : PtpMsg) (t2 t3 t4 : Nat) (c c4 d12 d34 off : Int), p < 3 ∧ s.tmk.ports.length = 3 ∧ s.netLink p = true ∧ s.tmkEnabled =
      true ∧ s.stamping p = true ∧ s.slaveCapable p = true ∧ m.domain = s.fld F.TMK_PTP_CFG_domain ∧ (s.tport p).wait = some (m.seq, t2, c) ∧ (s.tport
      p).t34 = some (t3, t4, c4) ∧ d12 = s.wallDiff (s.ingressStamp p t2) m.time - c - m.corr ∧ d34 = s.wallDiff t4 (s.egressStamp p t3) - c4 ∧ off =
      d12 - rneI (d12 + d34) 2 - s.sfld (F.TMK_CAL_ASYM_value p) ∧ s.tmk.sel ≠ some p ∧ s.selState ≠ 2) ∧
(∃ (p : Nat) (s : State) (m : PtpMsg) (t2 t3 t4 : Nat) (c c4 d12 d34 off : Int), p < 3 ∧ s.tmk.ports.length = 3 ∧ s.netLink p = true ∧ s.tmkEnabled =
      true ∧ s.stamping p = true ∧ s.slaveCapable p = true ∧ m.domain = s.fld F.TMK_PTP_CFG_domain ∧ (s.tport p).wait = some (m.seq, t2, c) ∧ (s.tport
      p).t34 = some (t3, t4, c4) ∧ d12 = s.wallDiff (s.ingressStamp p t2) m.time - c - m.corr ∧ d34 = s.wallDiff t4 (s.egressStamp p t3) - c4 ∧ off =
      d12 - rneI (d12 + d34) 2 - s.sfld (F.TMK_CAL_ASYM_value p) ∧ s.tmk.sel = some p ∧ s.selState = 1 ∧ s.servo = 3) ∧
(∃ (p : Nat) (s : State) (m : PtpMsg) (t2 t3 t4 : Nat) (c c4 d12 d34 off : Int), p < 3 ∧ s.tmk.ports.length = 3 ∧ s.netLink p = true ∧ s.tmkEnabled =
      true ∧ s.stamping p = true ∧ s.slaveCapable p = true ∧ m.domain = s.fld F.TMK_PTP_CFG_domain ∧ (s.tport p).wait = some (m.seq, t2, c) ∧ (s.tport
      p).t34 = some (t3, t4, c4) ∧ d12 = s.wallDiff (s.ingressStamp p t2) m.time - c - m.corr ∧ d34 = s.wallDiff t4 (s.egressStamp p t3) - c4 ∧ off =
      d12 - rneI (d12 + d34) 2 - s.sfld (F.TMK_CAL_ASYM_value p) ∧ s.tmk.sel = some p ∧ s.selState = 1 ∧ s.servo = 2 ∧ off.natAbs < 65536 * 2 ^ s.fld
      F.TMK_SERVO_CFG_step_log2) :=
  ⟨⟨0, tmk, {ptpM with domain := 9}, annM, 5, .sync 0 {ptpM with domain := 9} 5, by decide +kernel⟩,
    ⟨0, tmk, {ptpM with domain := 9}, {annM with domain := 9}, 5, .announce 0 {annM with domain := 9}, by decide +kernel⟩,
    ⟨0, tmk.lower ⟨Reg.NET_PORT_STATUS, 2, 1⟩, ptpM, annM, 5, .followUp 0 ptpM, by decide +kernel⟩,
    ⟨0, tmk, {ptpM with log := 2}, by decide +kernel⟩,
    ⟨0, tmk, {annM with log := 4}, by decide +kernel⟩,
    ⟨2, tmk, ptpM, by decide +kernel⟩,
    ⟨0, tport tmk 0 fun t => {t with syncOk := true}, annM, by decide +kernel⟩,
    ⟨0, tmk, ptpM, by decide +kernel⟩,
    ⟨0, tport tmk 0 fun t => {t with req := some (7, 400)}, ptpM, 400, by decide +kernel⟩,
    ⟨0, tport tmk 0 fun t => {t with wait := some (7, 5000, 3), t34 := some (2, 4, 6)}, ptpM, 5000, 2, 4, 3, 6, 4117, -2, 2059, by decide +kernel⟩,
    ⟨0, (sel0 3).modTmk fun t => {t with exceeds := 7}, ptpM, 5000, 2, 4, 3, 6, 4117, -2, 2059, by decide +kernel⟩,
    ⟨0, ((sel0 2).setClock 3000000000).modTmk fun t => {t with pullSince := some 5}, ptpM, 5000, 2, 4, 3, 6, 4117, -2, 2059, by decide +kernel⟩⟩

/-- Clauses 4.2.2.3.2.3, 4.2.2.3.2.4.2, 4.2.2.3.2.4.1, 4.2.2.3.2.4.3. -/
theorem witness_PtpMessagesReachTheServo_2 :
(∃ (p : Nat) (s : State) (m : PtpMsg) (t2 t3 t4 : Nat) (c c4 d12 d34 off : Int), p < 3 ∧ s.tmk.ports.length = 3 ∧ s.netLink p = true ∧ s.tmkEnabled =
      true ∧ s.stamping p = true ∧ s.slaveCapable p = true ∧ m.domain = s.fld F.TMK_PTP_CFG_domain ∧ (s.tport p).wait = some (m.seq, t2, c) ∧ (s.tport
      p).t34 = some (t3, t4, c4) ∧ d12 = s.wallDiff (s.ingressStamp p t2) m.time - c - m.corr ∧ d34 = s.wallDiff t4 (s.egressStamp p t3) - c4 ∧ off =
      d12 - rneI (d12 + d34) 2 - s.sfld (F.TMK_CAL_ASYM_value p) ∧ s.tmk.sel = some p ∧ s.selState = 1 ∧ s.servo = 1 ∧ off.natAbs < 65536 * 2 ^ s.fld
      F.TMK_SERVO_CFG_step_log2) ∧
(∃ (p : Nat) (s : State) (m : PtpMsg) (t2 t3 t4 : Nat) (c c4 d12 d34 off : Int), p < 3 ∧ s.tmk.ports.length = 3 ∧ s.netLink p = true ∧ s.tmkEnabled =
      true ∧ s.stamping p = true ∧ s.slaveCapable p = true ∧ m.domain = s.fld F.TMK_PTP_CFG_domain ∧ (s.tport p).wait = some (m.seq, t2, c) ∧ (s.tport
      p).t34 = some (t3, t4, c4) ∧ d12 = s.wallDiff (s.ingressStamp p t2) m.time - c - m.corr ∧ d34 = s.wallDiff t4 (s.egressStamp p t3) - c4 ∧ off =
      d12 - rneI (d12 + d34) 2 - s.sfld (F.TMK_CAL_ASYM_value p) ∧ s.tmk.sel = some p ∧ s.selState = 1 ∧ (s.servo = 1 ∨ s.servo = 2) ∧ 65536 * 2 ^
      s.fld F.TMK_SERVO_CFG_step_log2 < off.natAbs ∧ s.pll.noStep = false ∧ s.anyStarted = false ∧ s.grid = none) ∧
(∃ (p : Nat) (s : State) (m : PtpMsg) (t2 t3 t4 : Nat) (c c4 d12 d34 off : Int), p < 3 ∧ s.tmk.ports.length = 3 ∧ s.netLink p = true ∧ s.tmkEnabled =
      true ∧ s.stamping p = true ∧ s.slaveCapable p = true ∧ m.domain = s.fld F.TMK_PTP_CFG_domain ∧ (s.tport p).wait = some (m.seq, t2, c) ∧ (s.tport
      p).t34 = some (t3, t4, c4) ∧ d12 = s.wallDiff (s.ingressStamp p t2) m.time - c - m.corr ∧ d34 = s.wallDiff t4 (s.egressStamp p t3) - c4 ∧ off =
      d12 - rneI (d12 + d34) 2 - s.sfld (F.TMK_CAL_ASYM_value p) ∧ s.tmk.sel = some p ∧ s.selState = 1 ∧ (s.servo = 1 ∨ s.servo = 2) ∧ 65536 * 2 ^
      s.fld F.TMK_SERVO_CFG_step_log2 < off.natAbs ∧ s.pll.noStep = true) ∧
(∃ (p : Nat) (s : State) (m : PtpMsg) (t2 t3 t4 : Nat) (c c4 d12 d34 off : Int), p < 3 ∧ s.tmk.ports.length = 3 ∧ s.netLink p = true ∧ s.tmkEnabled =
      true ∧ s.stamping p = true ∧ s.slaveCapable p = true ∧ m.domain = s.fld F.TMK_PTP_CFG_domain ∧ (s.tport p).wait = some (m.seq, t2, c) ∧ (s.tport
      p).t34 = some (t3, t4, c4) ∧ d12 = s.wallDiff (s.ingressStamp p t2) m.time - c - m.corr ∧ d34 = s.wallDiff t4 (s.egressStamp p t3) - c4 ∧ off =
      d12 - rneI (d12 + d34) 2 - s.sfld (F.TMK_CAL_ASYM_value p) ∧ s.tmk.sel = some p ∧ s.selState = 1 ∧ (s.servo = 1 ∨ s.servo = 2) ∧ 65536 * 2 ^
      s.fld F.TMK_SERVO_CFG_step_log2 < off.natAbs ∧ s.pll.noStep = false ∧ s.anyStarted = true ∧ s.flag F.TMK_SERVO_CFG_step_allowed = false) :=
  ⟨⟨0, (sel0 1).modTmk fun t => {t with updates := 15}, ptpM, 5000, 2, 4, 3, 6, 4117, -2, 2059, by decide +kernel⟩,
    ⟨0, tport (sel0 1) 0 fun t => {t with wait := some (7, 2 ^ 60, 3)}, ptpM, 2 ^ 60, 2, 4, 3, 6, 2 ^ 60 - 1003, -2, 2 ^ 59 - 501, by decide +kernel⟩,
    ⟨0, tport ((sel0 1).modPll fun l => {l with noStep := true}) 0 fun t => {t with wait := some (7, 2 ^ 60, 3)}, ptpM, 2 ^ 60, 2, 4, 3, 6, 2 ^ 60 - 1003,
      -2, 2 ^ 59 - 501, by decide +kernel⟩,
    ⟨0, tport ((sel0 2).setFld F.ANV_INGEST_STATUS_started 2) 0 fun t => {t with wait := some (7, 2 ^ 60, 3)}, ptpM, 2 ^ 60, 2, 4, 3, 6, 2 ^ 60 - 1003,
      -2, 2 ^ 59 - 501, by decide +kernel⟩⟩

/-- Clauses 1.1.1, 1.1.2, 1.2.1, 1.2.2, 1.3, 1.4.1, 1.4.2, 1.5, 1.6, 2.2, 3.2, 4.1. -/
theorem witness_TimekeeperSelectsSendsAndQueues_1 :
(∃ (p : Nat) (s : State), p < 3 ∧ s.tmk.ports.length = 3 ∧ s.candState p = 1 ∧ spreadOk (s.tport p).offsets = true) ∧
(∃ (p : Nat) (s : State), p < 3 ∧ s.tmk.ports.length = 3 ∧ s.candState p = 1 ∧ spreadOk (s.tport p).offsets = true ∧ s.tmkEnabled = true ∧ s.selState
      = 0 ∧ s.fld F.TMK_REFSEL_CFG_force = 0 ∧ s.ownBetter p = false ∧ ∀ (q : Nat), q < 3 → q ≠ p → s.candState q < 2) ∧
(∃ (p : Nat) (s : State) (c : Instr), p < 3 ∧ s.tmk.ports.length = 3 ∧ (c = Instr.announceTimeout p ∨ c = Instr.syncTimeout p)) ∧
(∃ (p : Nat) (s : State) (c : Instr), p < 3 ∧ s.tmk.ports.length = 3 ∧ (c = Instr.announceTimeout p ∨ c = Instr.syncTimeout p) ∧ s.tmkEnabled = true ∧
      s.selState = 1 ∧ s.tmk.sel = some p ∧ (∀ (q : Nat), q < 3 → q ≠ p → s.candState q < 2) ∧ 1 ≤ s.servo ∧ s.servo ≤ 3) ∧
(∃ (p : Nat) (s : State), p < 3 ∧ s.tmk.ports.length = 3 ∧ s.selState = 2 ∧ s.tmk.target = some p) ∧
(∃ (p : Nat) (s : State) (v : PtpVia), p < 3 ∧ s.tmk.ports.length = 3 ∧ s.tmkEnabled = true ∧ s.stamping p = true ∧ s.ptpClear p (s.fld
      F.TMK_PTP_CFG_transport) = true ∧ v = { transport := s.fld F.TMK_PTP_CFG_transport, profile := s.fld (F.TMK_PORT_CFG_m_profile p) } ∧
      s.masterPort p = true) ∧
(∃ (p : Nat) (s : State) (v : PtpVia), p < 3 ∧ s.tmk.ports.length = 3 ∧ s.tmkEnabled = true ∧ s.stamping p = true ∧ s.ptpClear p (s.fld
      F.TMK_PTP_CFG_transport) = true ∧ v = { transport := s.fld F.TMK_PTP_CFG_transport, profile := s.fld (F.TMK_PORT_CFG_m_profile p) } ∧
      s.slaveCapable p = true) ∧
(∃ (p : Nat) (s : State) (v l : List Int), p < 3 ∧ s.tmk.ports.length = 3 ∧ s.tmkEnabled = true ∧ s.masterPort p = true ∧ s.netLink p = true ∧ (v =
      match s.tmk.sel.bind fun (q : Nat) => if s.ownBetter q = true then none else (s.tport q).ann with | some a => [(↑a.steps : Int) + 1, (↑(s.fld
      F.TMK_PTP_CFG_priority1) : Int), (↑a.cls : Int), (↑a.accuracy : Int), (↑a.variance : Int), (↑a.prio2 : Int), (↑a.identity : Int)] | none => [0,
      (↑(s.fld F.TMK_PTP_CFG_priority1) : Int), if s.flag F.TMK_PTP_CFG_gm_capable = true then (↑Config.masterClockClass.toNat : Int) else 255,
      (↑Config.masterClockAccuracy.toNat : Int), (↑Config.masterClockVariance.toNat : Int), (↑Config.masterPriority2.toNat : Int),
      (↑Config.masterIdentity.toNat : Int)]) ∧ l = (↑(s.fld (F.TMK_PORT_CFG_m_domain p)) : Int) :: s.sfld (F.TMK_PORT_CFG_m_log_announce p) :: v) ∧
(∃ (p : Nat) (s : State), p < 3 ∧ s.tmk.ports.length = 3 ∧ p < 2 ∧ s.netLink p = true) ∧
(∃ (sec : Nat) (s : State), s.later s.wall (second * sec) = false) ∧
(∃ (s : State), s.powered 26 = true ∧ (s.fld F.TMK_CLK_STATUS_ref_input ≠ 1 ∨ 2 ≤ s.fld F.TMK_REFSEL_STATUS_ext_state)) ∧
(∃ (ini : Nat) (w : Word) (s : State), s.reaches ini Reg.TMK_TSQ_POP = true ∧ fieldOf F.TMK_TSQ_POP_pop w = 1 ∧ s.tmk.tsq.length ≤ 64) :=
  ⟨⟨0, tport (tmk.setFld (candField 0) 1) 0 (fun t => {t with offsets := List.replicate 16 5}), by decide +kernel⟩,
    ⟨0, tport (tmk.setFld (candField 0) 1) 0 (fun t => {t with offsets := List.replicate 16 5}), by decide +kernel⟩,
    ⟨0, sel0 3, .syncTimeout 0, by decide +kernel⟩,
    ⟨0, sel0 3, .announceTimeout 0, by decide +kernel⟩,
    ⟨1, ((sel0 3).setFld F.TMK_REFSEL_STATUS_sel_state 2).modTmk fun t => {t with target := some 1}, by decide +kernel⟩,
    ⟨2, tmk, ⟨0, 0, none⟩, by decide +kernel⟩,
    ⟨0, tmk, ⟨0, 0, none⟩, by decide +kernel⟩,
    ⟨2, tmk, [0, 128, 255, Config.masterClockAccuracy.toNat, Config.masterClockVariance.toNat, Config.masterPriority2.toNat, Config.masterIdentity.toNat],
      0 :: 0 :: [0, 128, 255, Config.masterClockAccuracy.toNat, Config.masterClockVariance.toNat, Config.masterPriority2.toNat,
      Config.masterIdentity.toNat], by and_intros <;> first | decide +kernel | rfl⟩,
    ⟨1, tmk.raise ⟨Reg.NET_PORT_STATUS, 4, 1⟩, by decide +kernel⟩,
    ⟨5, tmk.raise F.TMK_CFG_pps_en, by decide +kernel⟩,
    ⟨tmk, by decide +kernel⟩,
    ⟨0, 1, tmk.modTmk fun t => {t with tsq := [⟨1, 0, 5⟩, ⟨2, 0, 6⟩]}, by decide +kernel⟩⟩

/-- Clauses 4.2.1, 4.2.2, 2.1, 3.1. -/
theorem witness_TimekeeperSelectsSendsAndQueues_2 :
(∃ (ini : Nat) (w : Word) (s : State), s.reaches ini Reg.TMK_CFG = true ∧ (2 ≤ fieldOf F.TMK_CFG_osc_src w ∨ fieldOf F.TMK_CFG_wrap_mode w ≠ s.fld
      F.TMK_CFG_wrap_mode ∧ s.servo ≠ 0)) ∧
(∃ (ini : Nat) (w : Word) (s : State), s.reaches ini Reg.TMK_CFG = true ∧ fieldOf F.TMK_CFG_osc_src w < 2 ∧ (fieldOf F.TMK_CFG_wrap_mode w = s.fld
      F.TMK_CFG_wrap_mode ∨ s.servo = 0)) ∧
(∃ (sec : Nat) (s : State), s.later s.wall (second * sec) = true) ∧
(∃ (s : State), s.powered 26 = false ∨ s.fld F.TMK_CLK_STATUS_ref_input = 1 ∧ s.fld F.TMK_REFSEL_STATUS_ext_state < 2) :=
  ⟨⟨0, 8, tmk, by decide +kernel⟩,
    ⟨0, 0, sel0 3, by decide +kernel⟩,
    ⟨5, tmk.setWall (second * 6), by decide +kernel⟩,
    ⟨tmk.setFld F.TMK_CLK_STATUS_ref_input 1, by decide +kernel⟩⟩

/-- Clauses 1.1, 1.2, 2, 3, 4.1, 4.2. -/
theorem witness_FramesAreCheckedInOrder_1 :
(∃ (p : Nat) (s : State), p < 3 ∧ s.flag (F.NET_PORT_CFG_enable p) = true ∧ s.netLink p = false ∧ s.powered (22 + p) = true) ∧
(∃ (p : Nat) (s : State), p < 3 ∧ s.netLink p = true) ∧
(∃ (p : Nat) (s : State), s.netLink p = false ∨ s.flag (F.NET_PORT_CFG_loopback p) = true) ∧
(∃ (p c : Nat) (f : List Byte) (ok : Bool) (st : Nat) (s : State), p < 3 ∧ s.netLink p = true ∧ s.flag (F.NET_PORT_CFG_loopback p) = false ∧ (f.length
      + 4 < 64 ∧ c = 5 ∨ 64 ≤ f.length + 4 ∧ s.maxFrameAt p st < f.length + 4 ∧ c = 6 ∨ 64 ≤ f.length + 4 ∧ f.length + 4 ≤ s.maxFrameAt p st ∧ ok =
      false ∧ c = 7 ∨ 64 ≤ f.length + 4 ∧ f.length + 4 ≤ s.maxFrameAt p st ∧ ok = true ∧ rxBuffer p < s.rxUsed p + (f.length + 4) ∧ c = 11 ∨ 64 ≤
      f.length + 4 ∧ f.length + 4 ≤ s.maxFrameAt p st ∧ ok = true ∧ s.rxUsed p + (f.length + 4) ≤ rxBuffer p ∧ be f 12 2 = 34824 ∧ c = 9 ∨ 64 ≤
      f.length + 4 ∧ f.length + 4 ≤ s.maxFrameAt p st ∧ ok = true ∧ s.rxUsed p + (f.length + 4) ≤ rxBuffer p ∧ be f 12 2 ≠ 34824 ∧ s.addressTaken p f
      = false ∧ c = 10)) ∧
(∃ (p : Nat) (f : List Byte) (st : Nat) (s : State), p < 3 ∧ s.netLink p = true ∧ s.flag (F.NET_PORT_CFG_loopback p) = false ∧ s.macsecOn p = false ∧
      64 ≤ f.length + 4 ∧ f.length + 4 ≤ s.maxFrameAt p st ∧ s.rxUsed p + (f.length + 4) ≤ rxBuffer p ∧ be f 12 2 ≠ 34824 ∧ s.addressTaken p f = true
      ∧ (parseFrame f (f.length + 4)).mismatch = false ∧ (parseFrame f (f.length + 4)).badIp = false ∧ (parseFrame f (f.length + 4)).badUdp = false ∧
      (parseFrame f (f.length + 4)).unparsed = false ∧ s.steer f (parseFrame f (f.length + 4)) p = Steer.drop) ∧
(∃ (p : Nat) (f : List Byte) (st : Nat) (s : State) (m n : Nat) (dests : List Nat) (stream : Nat), p < 3 ∧ s.netLink p = true ∧ s.flag
      (F.NET_PORT_CFG_loopback p) = false ∧ s.macsecOn p = false ∧ 64 ≤ f.length + 4 ∧ f.length + 4 ≤ s.maxFrameAt p st ∧ s.rxUsed p + (f.length + 4)
      ≤ rxBuffer p ∧ be f 12 2 ≠ 34824 ∧ s.addressTaken p f = true ∧ (parseFrame f (f.length + 4)).mismatch = false ∧ (parseFrame f (f.length +
      4)).badIp = false ∧ (parseFrame f (f.length + 4)).badUdp = false ∧ (parseFrame f (f.length + 4)).unparsed = false ∧ s.steer f (parseFrame f
      (f.length + 4)) p = Steer.to m n dests stream false) :=
  ⟨⟨1, (net.raise (F.NET_PORT_CFG_enable 1)).raise (F.NET_PORT_CFG_fec_en 1), by decide +kernel⟩,
    ⟨0, net, by decide +kernel⟩,
    ⟨1, net, by decide +kernel⟩,
    ⟨0, 5, frm.take 59, true, 0, net, by decide +kernel⟩,
    ⟨0, frm, 70000, net.raise F.NET_STEER_CFG_default_drop, by decide +kernel⟩,
    ⟨0, frm, 70000, net.setFld F.NET_STEER_CFG_default_q 3, 0, 0, [3], 0, by decide +kernel⟩⟩

/-- Clauses 1.1, 1.2.1, 1.2.2, 1.3, 2.1, 2.2, 2.3.1, 2.3.2. -/
theorem witness_FramesAreDeliveredAndSent_1 :
(∃ (d : Nat) (s : State), s.winner d = none) ∧
(∃ (d : Nat) (s : State) (r : RxFrame) (slot : Nat) (desc : List Byte) (v w : State) (bs : List Byte), s.winner d = some r ∧ d < 16 ∧ s.taken (64 + d)
      = some (slot, desc, v) ∧ s.unreleased (64 + d) < s.ringSize (64 + d) ∧ rxDescGood desc = true ∧ r.bytes.length ≤ le desc 8 2 ∧ v.writeMem 13 (le
      desc 0 8) r.bytes = (MemAnswer.data bs, w)) ∧
(∃ (d : Nat) (s : State) (r : RxFrame), s.winner d = some r ∧ d < 16 ∧ (s.waiting (64 + d) = 0 ∨ s.unreleased (64 + d) = s.ringSize (64 + d)) ∧
      s.net.settling = []) ∧
(∃ (d : Nat) (s : State) (r : RxFrame) (u : State) (refused : Bool), s.winner d = some r ∧ 16 ≤ d ∧ d < 20 ∧ s.ingest r.port (d - 16) r.stream r.cls
      (sliceB r.bytes r.pay.fst r.pay.snd) r.bytes.length = (refused, u)) ∧
(∃ (p q at_ : Nat) (h : TxHead) (s : State), p < 3 ∧ q < 8 ∧ s.net.busy.length = 3 ∧ s.macsecOn p = false ∧ s.flag (F.NET_PORT_CFG_loopback p) = false
      ∧ (∀ (r : Nat), r < 8 → s.waiting (txRing p r) = 0) ∧ (s.txq p q).head = some h ∧ h.ident = none ∧ h.late = false ∧ (s.netLink p = false ∨
      s.later (nth s.net.busy p 0) at_ = true)) ∧
(∃ (p q at_ : Nat) (h : TxHead) (s : State), p < 3 ∧ q < 8 ∧ s.net.busy.length = 3 ∧ s.macsecOn p = false ∧ s.flag (F.NET_PORT_CFG_loopback p) = false
      ∧ (∀ (r : Nat), r < 8 → s.waiting (txRing p r) = 0) ∧ (s.txq p q).head = some h ∧ h.ident = none ∧ h.late = false ∧ s.netLink p = true ∧ s.later
      (nth s.net.busy p 0) at_ = false ∧ (∀ (r : Nat), r < 8 → s.shaped p r = false ∧ ((s.txq p r).head.bind fun (x : TxHead) => x.launch) = none) ∧ ∀
      (r : Nat), r < 8 → q < r → (s.txq p r).head = none) ∧
(∃ (p q : Nat) (h : TxHead) (s : State) (l x : Nat), p < 3 ∧ q < 8 ∧ s.net.busy.length = 3 ∧ s.macsecOn p = false ∧ s.flag (F.NET_PORT_CFG_loopback p)
      = false ∧ (∀ (r : Nat), r < 8 → s.waiting (txRing p r) = 0) ∧ (s.txq p q).head = some h ∧ h.ident = none ∧ h.late = false ∧ h.launch = some l ∧
      (x = if s.later s.wall (s.rawEgress p l) = true then s.wall else s.rawEgress p l) ∧ s.netLink p = true ∧ s.shaped p q = false ∧ s.later (nth
      s.net.busy p 0) x = false ∧ (∀ (r : Nat), r < 8 → q < r → (s.txq p r).head = none) ∧ ∀ (r : Nat), r < q → ((s.txq p r).head.bind fun (x :
      TxHead) => x.launch) = none) ∧
(∃ (p q : Nat) (h : TxHead) (s : State) (l x : Nat), p < 3 ∧ q < 8 ∧ s.net.busy.length = 3 ∧ s.macsecOn p = false ∧ s.flag (F.NET_PORT_CFG_loopback p)
      = false ∧ (∀ (r : Nat), r < 8 → s.waiting (txRing p r) = 0) ∧ (s.txq p q).head = some h ∧ h.ident = none ∧ h.late = false ∧ h.launch = some l ∧
      (x = if s.later s.wall (s.rawEgress p l) = true then s.wall else s.rawEgress p l) ∧ s.netLink p = true ∧ s.shaped p q = false ∧ s.later (nth
      s.net.busy p 0) x = true ∧ s.flag (F.TMK_PORT_CFG_late_drop p) = true) :=
  ⟨⟨3, net, by decide +kernel⟩,
    ⟨3, withRx (onRing net 0x43 [0, 0x40, 0, 0, 0, 0, 0, 0, 0, 1] []) (cpy 3), cpy 3, 0, [0, 0x40, 0, 0, 0, 0, 0, 0, 0, 1] ++ zeros 22, tk 0x43 (withRx
      (onRing net 0x43 [0, 0x40, 0, 0, 0, 0, 0, 0, 0, 1] []) (cpy 3)), ((tk 0x43 (withRx (onRing net 0x43 [0, 0x40, 0, 0, 0, 0, 0, 0, 0, 1] []) (cpy
      3))).writeMem 13 0x4000 frm).2, match ((tk 0x43 (withRx (onRing net 0x43 [0, 0x40, 0, 0, 0, 0, 0, 0, 0, 1] []) (cpy 3))).writeMem 13 0x4000
      frm).1 with | .data b => b | _ => [], by decide +kernel⟩,
    ⟨3, withRx net (cpy 3), cpy 3, by decide +kernel⟩,
    ⟨17, (ing (withRx net { cpy 17 with cls := 5 })), { cpy 17 with cls := 5 }, ((ing (withRx net { cpy 17 with cls := 5 })).ingest 0 1 1 5 (sliceB frm 0
      0) 60).2, false, by decide +kernel⟩,
    ⟨0, 2, 5, { slot := 0, n := 1, bytes := frm }, (withTx net 2 none).lower ⟨Reg.NET_PORT_STATUS, 0, 1⟩, by decide +kernel⟩,
    ⟨0, 2, 5, { slot := 0, n := 1, bytes := frm }, withTx (withTx net 2 none) 1 none, by decide +kernel⟩,
    ⟨0, 2, { slot := 0, n := 1, bytes := frm, launch := some 900 }, withTx (withTx net 2 (some 900)) 1 none, 900, 900, by decide +kernel⟩,
    ⟨0, 2, { slot := 0, n := 1, bytes := frm, launch := some 900 }, ((withTx net 2 (some 900)).modNet fun n => { n with busy := [901, 0, 0] }).raise
      (F.TMK_PORT_CFG_late_drop 0), 900, 900, by decide +kernel⟩⟩

/-- Clauses 1.1.1, 1.1.2, 1.1.3, 1.2.1.1, 1.2.1.2. -/
theorem witness_NetworkTablesAndCages_1 :
(∃ (s v : State) (slot : Nat) (desc b : List Byte), s.takenBlock 56 = some (slot, desc, b, v) ∧ byteAt desc 0 = 1 ∧ byteAt desc 2 < 64 ∧ blkGood true
      b = true ∧ v.net.rx = []) ∧
(∃ (s v : State) (slot : Nat) (desc b : List Byte), s.takenBlock 56 = some (slot, desc, b, v) ∧ byteAt desc 0 = 1 ∧ byteAt desc 2 < 64 ∧ blkGood true
      b = true ∧ v.net.rx ≠ []) ∧
(∃ (s v : State) (slot : Nat) (desc b : List Byte), s.takenBlock 56 = some (slot, desc, b, v) ∧ byteAt desc 0 = 1 ∧ byteAt desc 2 < 64 ∧ blkGood true
      b = false) ∧
(∃ (s v : State) (slot : Nat) (desc b : List Byte) (n : Nat), s.takenBlock 56 = some (slot, desc, b, v) ∧ byteAt desc 0 = 2 ∧ blkGood false b = true ∧
      (v.groupByKey b = some n ∨ v.groupByKey b = none ∧ n < 256 ∧ (∀ (g : Nat × List Byte), g ∈ v.net.groups → g.fst = n → blkValid g.snd = false) ∧
      ∀ (m : Nat), m < n → ∃ (g : Nat × List Byte), g ∈ v.net.groups ∧ g.fst = m ∧ blkValid g.snd = true) ∧ v.net.rx = []) ∧
(∃ (s v : State) (slot : Nat) (desc b : List Byte) (n : Nat), s.takenBlock 56 = some (slot, desc, b, v) ∧ byteAt desc 0 = 2 ∧ blkGood false b = true ∧
      (v.groupByKey b = some n ∨ v.groupByKey b = none ∧ n < 256 ∧ (∀ (g : Nat × List Byte), g ∈ v.net.groups → g.fst = n → blkValid g.snd = false) ∧
      ∀ (m : Nat), m < n → ∃ (g : Nat × List Byte), g ∈ v.net.groups ∧ g.fst = m ∧ blkValid g.snd = true) ∧ v.net.rx ≠ []) :=
  ⟨⟨nr [1, 0, 5, 0, 0, 0, 0, 0, 0, 0x30] (grp), tkb 0x38 (nr [1, 0, 5, 0, 0, 0, 0, 0, 0, 0x30] (grp)), 0, [1, 0, 5, 0, 0, 0, 0, 0, 0, 0x30] ++ zeros 22,
      grp, by decide +kernel⟩,
    ⟨wr [1, 0, 5, 0, 0, 0, 0, 0, 0, 0x30] (grp), tkb 0x38 (wr [1, 0, 5, 0, 0, 0, 0, 0, 0, 0x30] (grp)), 0, [1, 0, 5, 0, 0, 0, 0, 0, 0, 0x30] ++ zeros 22,
      grp, by decide +kernel⟩,
    ⟨nr [1, 0, 5, 0, 0, 0, 0, 0, 0, 0x30] (grp.set 37 33), tkb 0x38 (nr [1, 0, 5, 0, 0, 0, 0, 0, 0, 0x30] (grp.set 37 33)), 0, [1, 0, 5, 0, 0, 0, 0, 0, 0,
      0x30] ++ zeros 22, grp.set 37 33, by decide +kernel⟩,
    ⟨(nr [2, 0, 0, 0, 0, 0, 0, 0, 0, 0x30] (grp)).modNet fun n => { n with groups := [(7, grp)] }, tkb 0x38 ((nr [2, 0, 0, 0, 0, 0, 0, 0, 0, 0x30]
      (grp)).modNet fun n => { n with groups := [(7, grp)] }), 0, [2, 0, 0, 0, 0, 0, 0, 0, 0, 0x30] ++ zeros 22, grp, 7, by decide +kernel⟩,
    ⟨(wr [2, 0, 0, 0, 0, 0, 0, 0, 0, 0x30] (grp)).modNet fun n => { n with groups := [(7, grp)] }, tkb 0x38 ((wr [2, 0, 0, 0, 0, 0, 0, 0, 0, 0x30]
      (grp)).modNet fun n => { n with groups := [(7, grp)] }), 0, [2, 0, 0, 0, 0, 0, 0, 0, 0, 0x30] ++ zeros 22, grp, 7, by decide +kernel⟩⟩

/-- Clause 1.2.2. -/
theorem witness_NetworkTablesAndCages_2 :
∃ (s v : State) (slot : Nat) (desc b : List Byte), s.takenBlock 56 = some (slot, desc, b, v) ∧ byteAt desc 0 = 2 ∧ blkGood false b = true ∧
      v.groupByKey b = none ∧ ∀ (m : Nat), m < 256 → ∃ (g : Nat × List Byte), g ∈ v.net.groups ∧ g.fst = m ∧ blkValid g.snd = true :=
⟨(nr [2, 0, 0, 0, 0, 0, 0, 0, 0, 0x30] (grp)).modNet fun n => { n with groups := (List.range 256).map fun i => (i, grp.set 0 1) }, tkb 0x38 ((nr [2,
    0, 0, 0, 0, 0, 0, 0, 0, 0x30] (grp)).modNet fun n => { n with groups := (List.range 256).map fun i => (i, grp.set 0 1) }), 0, [2, 0, 0, 0, 0, 0,
    0, 0, 0, 0x30] ++ zeros 22, grp, by decide +kernel⟩

/-- Clauses 2.1, 2.2, 2.3, 1.3.1, 1.3.2, 3.1, 3.2, 3.3, 3.4, 4.1, 4.2, 5.1. -/
theorem witness_NetworkTablesAndCages_3 :
(∃ (s u v : State) (slot : Nat) (desc b : List Byte) (n : Nat), s.taken 56 = some (slot, desc, u) ∧ u.readBlock 56 desc 37 = (Except.ok b, v) ∧ byteAt
      desc 0 = 3 ∧ blkGood false b = true ∧ v.groupByKey b = some n ∧ v.net.rx = []) ∧
(∃ (s u v : State) (slot : Nat) (desc b : List Byte) (n : Nat), s.taken 56 = some (slot, desc, u) ∧ u.readBlock 56 desc 37 = (Except.ok b, v) ∧ byteAt
      desc 0 = 3 ∧ blkGood false b = true ∧ v.groupByKey b = some n ∧ v.net.rx ≠ []) ∧
(∃ (s u v : State) (slot : Nat) (desc b : List Byte), s.taken 56 = some (slot, desc, u) ∧ u.readBlock 56 desc 37 = (Except.ok b, v) ∧ byteAt desc 0 =
      3 ∧ blkGood false b = true ∧ v.groupByKey b = none) ∧
(∃ (s v : State) (slot : Nat) (desc b k : List Byte) (w : State), s.takenBlock 56 = some (slot, desc, b, v) ∧ byteAt desc 0 = 4 ∧ byteAt desc 1 < 2 ∧
      byteAt desc 2 < 4 ∧ byteAt desc 3 / 8 % 16 = 0 ∧ ((byteAt desc 3).testBit 7 = false ∨ v.ninthChannel (byteAt desc 1) (List.take 8 b) = false) ∧
      v.keyRequest (byteAt desc 1) (byteAt desc 16) [1] [8 + byteAt desc 1] = (KeyAnswer.key k, w)) ∧
(∃ (s v : State) (slot : Nat) (desc b : List Byte) (w : State), s.takenBlock 56 = some (slot, desc, b, v) ∧ byteAt desc 0 = 4 ∧ byteAt desc 1 < 2 ∧
      byteAt desc 2 < 4 ∧ byteAt desc 3 / 8 % 16 = 0 ∧ (byteAt desc 3).testBit 7 = false ∧ v.keyRequest (byteAt desc 1) (byteAt desc 16) [1] [8 +
      byteAt desc 1] = (KeyAnswer.refused, w)) ∧
(∃ (s v : State) (slot : Nat) (desc : List Byte), s.taken 56 = some (slot, desc, v) ∧ byteAt desc 1 < 2 ∧ byteAt desc 2 < 4 ∧ byteAt desc 0 = 5 ∧ ∃ (a
      : Nat × NetSa), a ∈ v.net.txSa ∧ a.fst = 4 * byteAt desc 1 + byteAt desc 2) ∧
(∃ (s v : State) (slot : Nat) (desc : List Byte), s.taken 56 = some (slot, desc, v) ∧ byteAt desc 1 < 2 ∧ byteAt desc 2 < 4 ∧ byteAt desc 0 = 5 ∧ ∀ (a
      : Nat × NetSa), a ∈ v.net.txSa → a.fst ≠ 4 * byteAt desc 1 + byteAt desc 2) ∧
(∃ (s v : State) (slot : Nat) (desc : List Byte), s.taken 56 = some (slot, desc, v) ∧ byteAt desc 1 < 2 ∧ byteAt desc 2 < 4 ∧ byteAt desc 0 = 6 ∧
      byteAt desc 3 / 8 % 16 = 0 ∧ v.hasSa (byteAt desc 1) (byteAt desc 2) (byteAt desc 3) = true) ∧
(∃ (s v : State) (slot : Nat) (desc : List Byte), s.taken 56 = some (slot, desc, v) ∧ byteAt desc 1 < 2 ∧ byteAt desc 2 < 4 ∧ byteAt desc 0 = 6 ∧
      byteAt desc 3 / 8 % 16 = 0 ∧ v.hasSa (byteAt desc 1) (byteAt desc 2) (byteAt desc 3) = false) ∧
(∃ (ini c : Nat) (s : State), c < 2 ∧ s.reaches ini (Reg.NET_CAGE_MGMT c) = true ∧ s.flag (F.NET_CAGE_MGMT_go c) = true) ∧
(∃ (ini c : Nat) (w : Word) (s : State), c < 2 ∧ s.reaches ini (Reg.NET_CAGE_MGMT c) = true ∧ s.flag (F.NET_CAGE_MGMT_go c) = false ∧ fieldOf
      (F.NET_CAGE_MGMT_go c) w = 1) ∧
(∃ (c data : Nat) (s : State), c < 2 ∧ s.flag (F.NET_CAGE_MGMT_go c) = true ∧ data < 256) :=
  ⟨⟨((nr [3, 0, 0, 0, 0, 0, 0, 0, 0, 0x30] grp).modNet fun n => { n with groups := [(7, grp)] }), (tk 0x38 ((nr [3, 0, 0, 0, 0, 0, 0, 0, 0, 0x30]
      grp).modNet fun n => { n with groups := [(7, grp)] })), ((tk 0x38 ((nr [3, 0, 0, 0, 0, 0, 0, 0, 0, 0x30] grp).modNet fun n =>
      { n with groups := [(7, grp)] })).readBlock 0x38 ([3, 0, 0, 0, 0, 0, 0, 0, 0, 0x30] ++ zeros 22) 37).2, 0, [3, 0, 0, 0, 0, 0, 0, 0, 0, 0x30] ++
      zeros 22, grp.take 37, 7, by and_intros <;> decide +kernel⟩,
    ⟨((wr [3, 0, 0, 0, 0, 0, 0, 0, 0, 0x30] grp).modNet fun n => { n with groups := [(7, grp)] }), (tk 0x38 ((wr [3, 0, 0, 0, 0, 0, 0, 0, 0, 0x30]
      grp).modNet fun n => { n with groups := [(7, grp)] })), ((tk 0x38 ((wr [3, 0, 0, 0, 0, 0, 0, 0, 0, 0x30] grp).modNet fun n =>
      { n with groups := [(7, grp)] })).readBlock 0x38 ([3, 0, 0, 0, 0, 0, 0, 0, 0, 0x30] ++ zeros 22) 37).2, 0, [3, 0, 0, 0, 0, 0, 0, 0, 0, 0x30] ++
      zeros 22, grp.take 37, 7, by and_intros <;> decide +kernel⟩,
    ⟨((nr [3, 0, 0, 0, 0, 0, 0, 0, 0, 0x30] grp)), (tk 0x38 ((nr [3, 0, 0, 0, 0, 0, 0, 0, 0, 0x30] grp))), ((tk 0x38 ((nr [3, 0, 0, 0, 0, 0, 0, 0, 0,
      0x30] grp))).readBlock 0x38 ([3, 0, 0, 0, 0, 0, 0, 0, 0, 0x30] ++ zeros 22) 37).2, 0, [3, 0, 0, 0, 0, 0, 0, 0, 0, 0x30] ++ zeros 22, grp.take
      37, by and_intros <;> decide +kernel⟩,
    ⟨withKey (nr [4, 0, 1, 0, 0, 0, 0, 0, 0, 0x30, 0, 0, 0, 0, 0, 0, 3] (natLE 8 9 ++ natLE 8 5 ++ zeros 48)) 3 (1 + 2 ^ 8), tkb 0x38 (withKey (nr [4, 0,
      1, 0, 0, 0, 0, 0, 0, 0x30, 0, 0, 0, 0, 0, 0, 3] (natLE 8 9 ++ natLE 8 5 ++ zeros 48)) 3 (1 + 2 ^ 8)), 0, [4, 0, 1, 0, 0, 0, 0, 0, 0, 0x30, 0, 0,
      0, 0, 0, 0, 3] ++ zeros 15, natLE 8 9 ++ natLE 8 5 ++ zeros 48, List.replicate 32 7, (((tkb 0x38 (withKey (nr [4, 0, 1, 0, 0, 0, 0, 0, 0, 0x30,
      0, 0, 0, 0, 0, 0, 3] (natLE 8 9 ++ natLE 8 5 ++ zeros 48)) 3 (1 + 2 ^ 8))).keyRequest 0 3 [1] [8])).2, by decide +kernel⟩,
    ⟨withKey (nr [4, 0, 1, 0, 0, 0, 0, 0, 0, 0x30, 0, 0, 0, 0, 0, 0, 4] (natLE 8 9 ++ natLE 8 5 ++ zeros 48)) 3 (1 + 2 ^ 8), tkb 0x38 (withKey (nr [4, 0,
      1, 0, 0, 0, 0, 0, 0, 0x30, 0, 0, 0, 0, 0, 0, 4] (natLE 8 9 ++ natLE 8 5 ++ zeros 48)) 3 (1 + 2 ^ 8)), 0, [4, 0, 1, 0, 0, 0, 0, 0, 0, 0x30, 0, 0,
      0, 0, 0, 0, 4] ++ zeros 15, natLE 8 9 ++ natLE 8 5 ++ zeros 48, (((tkb 0x38 (withKey (nr [4, 0, 1, 0, 0, 0, 0, 0, 0, 0x30, 0, 0, 0, 0, 0, 0, 4]
      (natLE 8 9 ++ natLE 8 5 ++ zeros 48)) 3 (1 + 2 ^ 8))).keyRequest 0 4 [1] [8])).2, by decide +kernel⟩,
    ⟨(nr [5, 0, 1] []).modNet fun n => { n with txSa := [(1, ⟨[], [], 0, 0, 0⟩), (2, ⟨[], [], 0, 0, 0⟩)] }, tk 0x38 ((nr [5, 0, 1] []).modNet fun n =>
      { n with txSa := [(1, ⟨[], [], 0, 0, 0⟩), (2, ⟨[], [], 0, 0, 0⟩)] }), 0, [5, 0, 1] ++ zeros 29, by decide +kernel⟩,
    ⟨(nr [5, 0, 3] []).modNet fun n => { n with txSa := [(1, ⟨[], [], 0, 0, 0⟩), (2, ⟨[], [], 0, 0, 0⟩)] }, tk 0x38 ((nr [5, 0, 3] []).modNet fun n =>
      { n with txSa := [(1, ⟨[], [], 0, 0, 0⟩), (2, ⟨[], [], 0, 0, 0⟩)] }), 0, [5, 0, 3] ++ zeros 29, by decide +kernel⟩,
    ⟨(nr [6, 0, 1] []).modNet fun n => { n with txSa := [(1, ⟨[], [], 0, 0, 0⟩), (2, ⟨[], [], 0, 0, 0⟩)] }, tk 0x38 ((nr [6, 0, 1] []).modNet fun n =>
      { n with txSa := [(1, ⟨[], [], 0, 0, 0⟩), (2, ⟨[], [], 0, 0, 0⟩)] }), 0, [6, 0, 1] ++ zeros 29, by decide +kernel⟩,
    ⟨(nr [6, 0, 3] []).modNet fun n => { n with txSa := [(1, ⟨[], [], 0, 0, 0⟩), (2, ⟨[], [], 0, 0, 0⟩)] }, tk 0x38 ((nr [6, 0, 3] []).modNet fun n =>
      { n with txSa := [(1, ⟨[], [], 0, 0, 0⟩), (2, ⟨[], [], 0, 0, 0⟩)] }), 0, [6, 0, 3] ++ zeros 29, by decide +kernel⟩,
    ⟨0, 1, net.raise (F.NET_CAGE_MGMT_go 1), by decide +kernel⟩,
    ⟨0, 1, BitVec.ofNat 32 (2 ^ (F.NET_CAGE_MGMT_go 1).lo + 5), net, by decide +kernel⟩,
    ⟨1, 0x55, net.raise (F.NET_CAGE_MGMT_go 1), by decide +kernel⟩⟩

/-- Clause 5.2. -/
theorem witness_NetworkTablesAndCages_4 :
∃ (c : Nat) (s : State), c < 2 ∧ s.cageSupplied c = true :=
⟨0, net.raise (F.NET_CAGE_power 0), by decide +kernel⟩

/-- Clauses 1.1, 1.2, 1.3, 1.4.1, 1.4.2.1, 1.4.2.2, 1.5.1, 1.5.2, 2.1.1. -/
theorem witness_CanvasAndStreamsAreSet_1 :
(∃ (s v : State) (slot : Nat) (desc : List Byte), s.taken 96 = some (slot, desc, v) ∧ byteAt desc 0 = 1 ∧ (v.anyStarted = true ∨ v.anv.grey = none)) ∧
(∃ (s v : State) (slot : Nat) (desc : List Byte) (op : Nat) (c : Instr), s.taken 96 = some (slot, desc, v) ∧ (op, c) ∈ [(2, Instr.streamSet), (3,
      Instr.streamStart), (4, Instr.streamStop)] ∧ byteAt desc 0 = op ∧ 16 ≤ byteAt desc 1) ∧
(∃ (s v : State) (slot : Nat) (desc : List Byte) (op : Nat) (c : Instr), s.taken 96 = some (slot, desc, v) ∧ (op, c) ∈ [(2, Instr.streamSet), (3,
      Instr.streamStart), (4, Instr.streamStop)] ∧ byteAt desc 0 = op ∧ 16 ≤ byteAt desc 1) ∧
(∃ (s v : State) (slot : Nat) (desc : List Byte) (op : Nat) (c : Instr), s.taken 96 = some (slot, desc, v) ∧ (op, c) ∈ [(2, Instr.streamSet), (3,
      Instr.streamStart), (4, Instr.streamStop)] ∧ byteAt desc 0 = op ∧ 16 ≤ byteAt desc 1) ∧
(∃ (s v : State) (slot : Nat) (desc : List Byte), s.taken 96 = some (slot, desc, v) ∧ byteAt desc 0 = 2 ∧ byteAt desc 1 < 16 ∧ v.isStarted (byteAt
      desc 1) = true) ∧
(∃ (s v : State) (slot : Nat) (desc : List Byte), s.taken 96 = some (slot, desc, v) ∧ byteAt desc 0 = 3 ∧ byteAt desc 1 < 16 ∧ (v.stream (byteAt desc
      1) = none ∨ v.isStarted (byteAt desc 1) = true)) ∧
(∃ (s v : State) (slot : Nat) (desc : List Byte) (x : Machine.Stream) (c : Cpl), s.taken 96 = some (slot, desc, v) ∧ byteAt desc 0 = 3 ∧ byteAt desc 1
      < 16 ∧ v.stream (byteAt desc 1) = some x ∧ v.isStarted (byteAt desc 1) = false ∧ v.startRefusal x.block = some c) ∧
(∃ (s v : State) (slot : Nat) (desc : List Byte) (x : Machine.Stream), s.taken 96 = some (slot, desc, v) ∧ byteAt desc 0 = 3 ∧ byteAt desc 1 < 16 ∧
      v.stream (byteAt desc 1) = some x ∧ v.isStarted (byteAt desc 1) = false ∧ v.startRefusal x.block = none) ∧
(∃ (s v : State) (slot : Nat) (desc : List Byte) (x : Machine.Stream), s.taken 96 = some (slot, desc, v) ∧ byteAt desc 0 = 4 ∧ byteAt desc 1 < 16 ∧
      v.stream (byteAt desc 1) = some x ∧ v.isStarted (byteAt desc 1) = false) ∧
(∃ (s v : State) (slot : Nat) (desc : List Byte) (x : Machine.Stream) (g : Grid), s.taken 96 = some (slot, desc, v) ∧ byteAt desc 0 = 4 ∧ byteAt desc
      1 < 16 ∧ v.stream (byteAt desc 1) = some x ∧ v.grid = some g ∧ v.isStarted (byteAt desc 1) = true) ∧
(∃ (s v : State) (slot : Nat) (desc b g : List Byte) (o : Nat), s.takenBlock 96 = some (slot, desc, b, v) ∧ byteAt desc 0 = 1 ∧ v.anyStarted = false ∧
      v.anv.grey = some g ∧ canvasBad b = some o) :=
  ⟨⟨(ar [1] ([])), (tk 0x60 (ar [1] ([]))), 0, [1] ++ zeros 31, by decide +kernel⟩,
    ⟨(ar [2, 16] ([])), (tk 0x60 (ar [2, 16] ([]))), 0, [2, 16] ++ zeros 30, 2, .streamSet, by decide +kernel⟩,
    ⟨(ar [3, 99] ([])), (tk 0x60 (ar [3, 99] ([]))), 0, [3, 99] ++ zeros 30, 3, .streamStart, by decide +kernel⟩,
    ⟨(ar [4, 16] ([])), (tk 0x60 (ar [4, 16] ([]))), 0, [4, 16] ++ zeros 30, 4, .streamStop, by decide +kernel⟩,
    ⟨(fill (ar [2, 1] ([]))), (tk 0x60 (fill (ar [2, 1] ([])))), 0, [2, 1] ++ zeros 30, by decide +kernel⟩,
    ⟨(anv (ar [3, 5] ([]))), (tk 0x60 (anv (ar [3, 5] ([])))), 0, [3, 5] ++ zeros 30, by decide +kernel⟩,
    ⟨((anv (ar [3, 1] ([]))).modAnv fun a => { a with temper := none }), (tk 0x60 ((anv (ar [3, 1] ([]))).modAnv fun a => { a with temper := none })), 0,
      [3, 1] ++ zeros 30, { block := strm 1 }, refusedState, by decide +kernel⟩,
    ⟨(anv (ar [3, 1] ([]))), (tk 0x60 (anv (ar [3, 1] ([])))), 0, [3, 1] ++ zeros 30, { block := strm 1 }, by decide +kernel⟩,
    ⟨(anv (ar [4, 1] ([]))), (tk 0x60 (anv (ar [4, 1] ([])))), 0, [4, 1] ++ zeros 30, { block := strm 1 }, by decide +kernel⟩,
    ⟨(fill (ar [4, 1] ([]))), (tk 0x60 (fill (ar [4, 1] ([])))), 0, [4, 1] ++ zeros 30, { block := strm 1, started := some 0 }, gridOf (cvs 1) gry, by
      decide +kernel⟩,
    ⟨(anv (ar [1, 0, 0, 0, 0, 0, 0, 0, 0, 0x30] (cvs 2))), (tkb 0x60 (anv (ar [1, 0, 0, 0, 0, 0, 0, 0, 0, 0x30] (cvs 2)))), 0, [1, 0, 0, 0, 0, 0, 0, 0, 0,
      0x30] ++ zeros 22, cvs 2, gry, 6, by decide +kernel⟩⟩

/-- Clauses 2.1.2, 2.1.3, 2.2.1, 2.2.2, 2.2.3, 3. -/
theorem witness_CanvasAndStreamsAreSet_2 :
(∃ (s v : State) (slot : Nat) (desc b g : List Byte) (o : Nat), s.takenBlock 96 = some (slot, desc, b, v) ∧ byteAt desc 0 = 1 ∧ v.anyStarted = false ∧
      v.anv.grey = some g ∧ canvasBad b = none ∧ canvasGridBad (gridOf b g) = some o) ∧
(∃ (s v : State) (slot : Nat) (desc b g : List Byte), s.takenBlock 96 = some (slot, desc, b, v) ∧ byteAt desc 0 = 1 ∧ v.anyStarted = false ∧
      v.anv.grey = some g ∧ canvasBad b = none ∧ canvasGridBad (gridOf b g) = none) ∧
(∃ (s v : State) (slot : Nat) (desc b : List Byte) (o : Nat), s.takenBlock 96 = some (slot, desc, b, v) ∧ byteAt desc 0 = 2 ∧ byteAt desc 1 < 16 ∧
      v.isStarted (byteAt desc 1) = false ∧ streamBad b = some o) ∧
(∃ (s v : State) (slot : Nat) (desc b : List Byte), s.takenBlock 96 = some (slot, desc, b, v) ∧ byteAt desc 0 = 2 ∧ byteAt desc 1 < 16 ∧ v.isStarted
      (byteAt desc 1) = false ∧ streamBad b = none ∧ v.kindFits b = false) ∧
(∃ (s v : State) (slot : Nat) (desc b : List Byte), s.takenBlock 96 = some (slot, desc, b, v) ∧ byteAt desc 0 = 2 ∧ byteAt desc 1 < 16 ∧ v.isStarted
      (byteAt desc 1) = false ∧ streamBad b = none ∧ v.kindFits b = true) ∧
(∃ (ini : Nat) (w : Word) (s : State), s.reaches ini Reg.ANV_SLACK_RESET = true ∧ fieldOf F.ANV_SLACK_RESET_reset w = 1) :=
  ⟨⟨(anv (ar [1, 0, 0, 0, 0, 0, 0, 0, 0, 0x30] ((cvs 1).set 12 0 |>.set 13 0 |>.set 14 0))), (tkb 0x60 (anv (ar [1, 0, 0, 0, 0, 0, 0, 0, 0, 0x30] ((cvs
      1).set 12 0 |>.set 13 0 |>.set 14 0)))), 0, [1, 0, 0, 0, 0, 0, 0, 0, 0, 0x30] ++ zeros 22, (cvs 1).set 12 0 |>.set 13 0 |>.set 14 0, gry, 12, by
      decide +kernel⟩,
    ⟨(anv (ar [1, 0, 0, 0, 0, 0, 0, 0, 0, 0x30] (cvs 0))), (tkb 0x60 (anv (ar [1, 0, 0, 0, 0, 0, 0, 0, 0, 0x30] (cvs 0)))), 0, [1, 0, 0, 0, 0, 0, 0, 0, 0,
      0x30] ++ zeros 22, cvs 0, gry, by decide +kernel⟩,
    ⟨(anv (ar [2, 3, 0, 0, 0, 0, 0, 0, 0, 0x30] ((strm 1).set 2 8))), (tkb 0x60 (anv (ar [2, 3, 0, 0, 0, 0, 0, 0, 0, 0x30] ((strm 1).set 2 8)))), 0, [2,
      3, 0, 0, 0, 0, 0, 0, 0, 0x30] ++ zeros 22, (strm 1).set 2 8, 2, by decide +kernel⟩,
    ⟨(anv (ar [2, 3, 0, 0, 0, 0, 0, 0, 0, 0x30] (strm 0))), (tkb 0x60 (anv (ar [2, 3, 0, 0, 0, 0, 0, 0, 0, 0x30] (strm 0)))), 0, [2, 3, 0, 0, 0, 0, 0, 0,
      0, 0x30] ++ zeros 22, strm 0, by decide +kernel⟩,
    ⟨(anv (ar [2, 3, 0, 0, 0, 0, 0, 0, 0, 0x30] (strm 1))), (tkb 0x60 (anv (ar [2, 3, 0, 0, 0, 0, 0, 0, 0, 0x30] (strm 1)))), 0, [2, 3, 0, 0, 0, 0, 0, 0,
      0, 0x30] ++ zeros 22, strm 1, by decide +kernel⟩,
    ⟨0, 1, open_, by decide +kernel⟩⟩

/-- Clauses 1, 2.2.1, 2.2.2, 2.3, 2.4, 2.5, 2.1. -/
theorem witness_FramesAreDecidedAndPresented_1 :
(∃ (s : State), s.grid = none) ∧
(∃ (k : Nat) (s : State) (g : Grid), s.grid = some g ∧ s.decision k = none ∧ s.anyStarted = true ∧ s.passedOver g k = false ∧ s.isStandby = false) ∧
(∃ (k : Nat) (s : State) (g : Grid), s.grid = some g ∧ s.decision k = none ∧ s.anyStarted = true ∧ s.passedOver g k = false ∧ s.isStandby = true) ∧
(∃ (k : Nat) (s : State) (g : Grid) (d : Nat), s.grid = some g ∧ s.decision k = some d) ∧
(∃ (k : Nat) (s : State) (g : Grid), s.grid = some g ∧ ∀ (j : Nat), s.anv.shownK = some j → j < k) ∧
(∃ (k : Nat) (s : State) (g : Grid) (j : Nat), s.grid = some g ∧ s.anv.shownK = some j ∧ k ≤ j) ∧
(∃ (k : Nat) (s : State) (g : Grid), s.grid = some g ∧ s.decision k = none ∧ (s.anyStarted = false ∨ s.passedOver g k = true)) :=
  ⟨⟨open_, by decide +kernel⟩,
    ⟨7, fill open_, gridOf (cvs 1) gry, by decide +kernel⟩,
    ⟨7, (fill open_).setFld F.TWN_STATUS_role 3, gridOf (cvs 1) gry, by decide +kernel⟩,
    ⟨7, (fill open_).modAnv fun a => { a with decisions := [(7, 4)], deferred := [7] }, gridOf (cvs 1) gry, 4, by decide +kernel⟩,
    ⟨7, (fill open_).modAnv fun a => { a with decisions := [(7, 0)], shownK := some 6 }, gridOf (cvs 1) gry, by decide +kernel⟩,
    ⟨8, (fill open_).modAnv fun a => { a with shownK := some 9 }, gridOf (cvs 1) gry, 9, by decide +kernel⟩,
    ⟨7, (fill open_).modAnv fun a => { a with steppedTo := some (2 ^ 70) }, gridOf (cvs 1) gry, by decide +kernel⟩⟩

/-- Clauses 1.1.1, 1.1.2, 1.1.3. -/
theorem witness_PipelineTablesAreCommitted_1 :
(∃ (s v : State) (slot : Nat) (desc b : List Byte) (o : Nat), s.takenBlock 96 = some (slot, desc, b, v) ∧ byteAt desc 0 = 5 ∧ s.anv.commitSlot = none
      ∧ descBad v.rawMode b = some o) ∧
(∃ (s v : State) (slot : Nat) (desc b : List Byte), s.takenBlock 96 = some (slot, desc, b, v) ∧ byteAt desc 0 = 5 ∧ s.anv.commitSlot = none ∧ descBad
      v.rawMode b = none ∧ v.planesMove b = true) ∧
(∃ (s v : State) (slot : Nat) (desc b : List Byte) (r : MemAnswer) (st : Nat) (w : State), s.takenBlock 96 = some (slot, desc, b, v) ∧ byteAt desc 0 =
      5 ∧ s.anv.commitSlot = none ∧ descBad v.rawMode b = none ∧ v.planesMove b = false ∧ v.readMem 5 (descGlobal b) 131072 = (r, w) ∧ (r =
      MemAnswer.error ∧ st = Status.memoryError ∨ r = MemAnswer.denied ∧ st = Status.accessDenied)) :=
  ⟨⟨(anv (ar [5, 0, 0, 0, 0, 0, 0, 0, 0, 0x30] (tdesc.set 1 1))), (tkb 0x60 (anv (ar [5, 0, 0, 0, 0, 0, 0, 0, 0, 0x30] (tdesc.set 1 1)))), 0, [5, 0, 0,
      0, 0, 0, 0, 0, 0, 0x30] ++ zeros 22, tdesc.set 1 1, 0, by decide +kernel⟩,
    ⟨((anv (ar [5, 0, 0, 0, 0, 0, 0, 0, 0, 0x30] (tdesc))).raise F.ANV_AGE_CFG_integrate_en), (tkb 0x60 ((anv (ar [5, 0, 0, 0, 0, 0, 0, 0, 0, 0x30]
      (tdesc))).raise F.ANV_AGE_CFG_integrate_en)), 0, [5, 0, 0, 0, 0, 0, 0, 0, 0, 0x30] ++ zeros 22, tdesc, by decide +kernel⟩,
    ⟨(((anv (ar [5, 0, 0, 0, 0, 0, 0, 0, 0, 0x30] (tdesc))).setReg (Reg.FWL_ACT_ENT 0 0) 0x80000010).setReg (Reg.FWL_ACT_ENT 0 1) 0x10), (tkb 0x60 (((anv
      (ar [5, 0, 0, 0, 0, 0, 0, 0, 0, 0x30] (tdesc))).setReg (Reg.FWL_ACT_ENT 0 0) 0x80000010).setReg (Reg.FWL_ACT_ENT 0 1) 0x10)), 0, [5, 0, 0, 0, 0,
      0, 0, 0, 0, 0x30] ++ zeros 22, tdesc, .denied, Status.accessDenied, ((tkb 0x60 (((anv (ar [5, 0, 0, 0, 0, 0, 0, 0, 0, 0x30] (tdesc))).setReg
      (Reg.FWL_ACT_ENT 0 0) 0x80000010).setReg (Reg.FWL_ACT_ENT 0 1) 0x10)).readMem 5 (descGlobal (tdesc)) 0x20000).2, by decide +kernel⟩⟩

/-- Clause 1.1.4.1. -/
theorem witness_PipelineTablesAreCommitted_2 :
∃ (s v : State) (slot : Nat) (desc b g : List Byte) (w : State), s.takenBlock 96 = some (slot, desc, b, v) ∧ byteAt desc 0 = 5 ∧ s.anv.commitSlot =
      none ∧ descBad v.rawMode b = none ∧ v.planesMove b = false ∧ v.rawMode = true ∧ v.anvilData (descGlobal b) 131072 = some (g, w) ∧ globalGood g =
      false :=
⟨badTab, (tkb 0x60 badTab), 0, [5, 0, 0, 0, 0, 0, 0, 0, 0, 0x30] ++ zeros 22, tdesc, (tkb 0x60 badTab).mem.bytes 0x10000 0x20000, (tkb 0x60 badTab),
    glue6 (by decide +kernel) ⟨anvilTdesc (by decide +kernel), globalBad_bytes _ _ (by decide +kernel)⟩⟩

/-- Clauses 1.1.4.2, 1.2.1. -/
theorem witness_PipelineTablesAreCommitted_3 :
(∃ (s v : State) (slot : Nat) (desc b g : List Byte) (w : State), s.takenBlock 96 = some (slot, desc, b, v) ∧ byteAt desc 0 = 5 ∧ s.anv.commitSlot =
      none ∧ descBad v.rawMode b = none ∧ v.planesMove b = false ∧ v.rawMode = true ∧ v.anvilData (descGlobal b) 131072 = some (g, w) ∧ globalGood g =
      true ∧ curvePoints (tabCurves g) = curvePoints w.bankCurves ∧ ∀ (f : FrameRec), f ∈ w.anv.frames → f.temper = none) ∧
(∃ (s v : State) (slot : Nat) (desc b : List Byte) (o : Nat), s.takenBlock 96 = some (slot, desc, b, v) ∧ byteAt desc 0 = 6 ∧ brightBad b = some o) :=
  ⟨⟨unitTab, (tkb 0x60 unitTab), 0, [5, 0, 0, 0, 0, 0, 0, 0, 0, 0x30] ++ zeros 22, tdesc, (tkb 0x60 unitTab).mem.bytes 0x10000 0x20000, (tkb 0x60
      unitTab), glue6 (by decide +kernel) ⟨anvilTdesc (by decide +kernel), unitTab_good, unitTab_curves, frames_none (by decide +kernel)⟩⟩,
    ⟨(ar [6, 0, 0, 0, 0, 0, 0, 0, 0, 0x30] (natLE 2 0x8001 ++ zeros 62)), (tkb 0x60 (ar [6, 0, 0, 0, 0, 0, 0, 0, 0, 0x30] (natLE 2 0x8001 ++ zeros 62))),
      0, [6, 0, 0, 0, 0, 0, 0, 0, 0, 0x30] ++ zeros 22, natLE 2 0x8001 ++ zeros 62, 0, by decide +kernel⟩⟩

/-- Clauses 1.2.2, 1.2.3, 1.3.1, 1.3.2, 1.3.3, 1.4.1, 1.4.2, 2, 3.1, 3.2, 4. -/
theorem witness_PipelineTablesAreCommitted_4 :
(∃ (s v : State) (slot : Nat) (desc b : List Byte), s.takenBlock 96 = some (slot, desc, b, v) ∧ byteAt desc 0 = 6 ∧ brightBad b = none ∧ v.isStandby =
      true ∧ (v.regN Reg.TWN_CLASS_REG).testBit 1 = true) ∧
(∃ (s v : State) (slot : Nat) (desc b : List Byte), s.takenBlock 96 = some (slot, desc, b, v) ∧ byteAt desc 0 = 6 ∧ brightBad b = none ∧ v.isStandby =
      false) ∧
(∃ (s v : State) (slot : Nat) (desc b : List Byte) (op : Nat) (c : Instr) (on : Bool) (o : Nat), s.takenBlock 96 = some (slot, desc, b, v) ∧ (op, c,
      on) ∈ [(7, Instr.deadSet, true), (8, Instr.deadClear, false)] ∧ byteAt desc 0 = op ∧ deadBad b = some o) ∧
(∃ (s v : State) (slot : Nat) (desc b : List Byte) (op : Nat) (c : Instr) (on : Bool), s.takenBlock 96 = some (slot, desc, b, v) ∧ (op, c, on) ∈ [(7,
      Instr.deadSet, true), (8, Instr.deadClear, false)] ∧ byteAt desc 0 = op ∧ deadBad b = none ∧ v.isStandby = true) ∧
(∃ (s v : State) (slot : Nat) (desc b : List Byte) (op : Nat) (c : Instr) (on : Bool), s.takenBlock 96 = some (slot, desc, b, v) ∧ (op, c, on) ∈ [(7,
      Instr.deadSet, true), (8, Instr.deadClear, false)] ∧ byteAt desc 0 = op ∧ deadBad b = none ∧ v.isStandby = false ∧ v.mem.flips = [] ∧
      v.mem.poison = [] ∧ v.flag F.MEM_FLIP_CTRL_arm = false ∧ v.memOn 4343726080 1572864 = true) ∧
(∃ (s v : State) (slot : Nat) (desc b : List Byte) (o : Nat), s.takenBlock 96 = some (slot, desc, b, v) ∧ byteAt desc 0 = 11 ∧ v.anyStarted = false ∧
      greyBad v.anv.canvas b = some o) ∧
(∃ (s v : State) (slot : Nat) (desc b : List Byte), s.takenBlock 96 = some (slot, desc, b, v) ∧ byteAt desc 0 = 11 ∧ v.anyStarted = false ∧ greyBad
      v.anv.canvas b = none) ∧
(∃ (s v : State) (slot : Nat) (desc : List Byte), s.taken 96 = some (slot, desc, v) ∧ byteAt desc 0 = 11 ∧ v.anyStarted = true) ∧
(∃ (n : Nat) (s : State), s.anv.commitSlot = some n ∧ s.draining = true) ∧
(∃ (n : Nat) (s : State), s.anv.commitSlot = some n ∧ s.draining = false) ∧
(∃ (t : TemperSet) (s : State), s.anv.temper = some t ∧ s.flag F.ANV_PIPE_STATUS_recode_busy = true) :=
  ⟨⟨((((ar [6, 0, 0, 0, 0, 0, 0, 0, 0, 0x30] (natLE 2 0x8000 ++ zeros 62))).setFld F.TWN_STATUS_role 3).setReg Reg.TWN_CLASS_REG 2), (tkb 0x60 ((((ar [6,
      0, 0, 0, 0, 0, 0, 0, 0, 0x30] (natLE 2 0x8000 ++ zeros 62))).setFld F.TWN_STATUS_role 3).setReg Reg.TWN_CLASS_REG 2)), 0, [6, 0, 0, 0, 0, 0, 0,
      0, 0, 0x30] ++ zeros 22, natLE 2 0x8000 ++ zeros 62, by decide +kernel⟩,
    ⟨(anv (ar [6, 0, 0, 0, 0, 0, 0, 0, 0, 0x30] (natLE 2 0x4000 ++ natLE 2 10 ++ zeros 60))), (tkb 0x60 (anv (ar [6, 0, 0, 0, 0, 0, 0, 0, 0, 0x30] (natLE
      2 0x4000 ++ natLE 2 10 ++ zeros 60)))), 0, [6, 0, 0, 0, 0, 0, 0, 0, 0, 0x30] ++ zeros 22, natLE 2 0x4000 ++ natLE 2 10 ++ zeros 60, by
      decide +kernel⟩,
    ⟨(ar [7, 0, 0, 0, 0, 0, 0, 0, 0, 0x30] ([64] ++ zeros 63)), (tkb 0x60 (ar [7, 0, 0, 0, 0, 0, 0, 0, 0, 0x30] ([64] ++ zeros 63))), 0, [7, 0, 0, 0, 0,
      0, 0, 0, 0, 0x30] ++ zeros 22, [64] ++ zeros 63, 7, .deadSet, true, 0, by decide +kernel⟩,
    ⟨((ar [8, 0, 0, 0, 0, 0, 0, 0, 0, 0x30] ([1, 3, 0, 0, 5, 0, 0, 0, 40] ++ zeros 55)).setFld F.TWN_STATUS_role 3), (tkb 0x60 ((ar [8, 0, 0, 0, 0, 0, 0,
      0, 0, 0x30] ([1, 3, 0, 0, 5, 0, 0, 0, 40] ++ zeros 55)).setFld F.TWN_STATUS_role 3)), 0, [8, 0, 0, 0, 0, 0, 0, 0, 0, 0x30] ++ zeros 22, [1, 3,
      0, 0, 5, 0, 0, 0, 40] ++ zeros 55, 8, .deadClear, false, by decide +kernel⟩,
    ⟨(ar [7, 0, 0, 0, 0, 0, 0, 0, 0, 0x30] ([1, 3, 0, 0, 5, 0, 0, 0, 40] ++ zeros 55)), (tkb 0x60 (ar [7, 0, 0, 0, 0, 0, 0, 0, 0, 0x30] ([1, 3, 0, 0, 5,
      0, 0, 0, 40] ++ zeros 55))), 0, [7, 0, 0, 0, 0, 0, 0, 0, 0, 0x30] ++ zeros 22, [1, 3, 0, 0, 5, 0, 0, 0, 40] ++ zeros 55, 7, .deadSet, true, by
      decide +kernel⟩,
    ⟨(ar [11, 0, 0, 0, 0, 0, 0, 0, 0, 0x30] (gry.set 2 7)), (tkb 0x60 (ar [11, 0, 0, 0, 0, 0, 0, 0, 0, 0x30] (gry.set 2 7))), 0, [11, 0, 0, 0, 0, 0, 0, 0,
      0, 0x30] ++ zeros 22, gry.set 2 7, 2, by decide +kernel⟩,
    ⟨(anv (ar [11, 0, 0, 0, 0, 0, 0, 0, 0, 0x30] (gry.set 2 9))), (tkb 0x60 (anv (ar [11, 0, 0, 0, 0, 0, 0, 0, 0, 0x30] (gry.set 2 9)))), 0, [11, 0, 0, 0,
      0, 0, 0, 0, 0, 0x30] ++ zeros 22, gry.set 2 9, by decide +kernel⟩,
    ⟨(fill (ar [11] ([]))), (tk 0x60 (fill (ar [11] ([])))), 0, [11] ++ zeros 31, by decide +kernel⟩,
    ⟨0, drn, by decide +kernel⟩,
    ⟨0, (anv open_).modAnv fun a => { a with commitSlot := some 0 }, by decide +kernel⟩,
    ⟨tmp, (anv open_).raise F.ANV_PIPE_STATUS_recode_busy, by decide +kernel⟩⟩

/-- Clauses 1, 2. -/
theorem witness_BandsAreGradedToGreyWords_1 :
(∃ (k port band : Nat) (s : State) (g : Grid) (c grey : List Byte) (f : FrameRec) (t : TemperSet), s.grid = some g ∧ s.anv.canvas = some c ∧
      s.anv.grey = some grey ∧ s.frameRec k = some f ∧ (f.temper <|> s.anv.temper) = some t ∧ s.mayGrade g c f t port band = false) ∧
(∃ (k port band : Nat) (s : State) (g : Grid) (c grey : List Byte) (f : FrameRec) (t : TemperSet), s.grid = some g ∧ s.anv.canvas = some c ∧
      s.anv.grey = some grey ∧ s.frameRec k = some f ∧ (f.temper <|> s.anv.temper) = some t ∧ s.mayGrade g c f t port band = true) :=
  ⟨⟨7, 0, 1, ((grd (fill open_)).modAnv fun a => { a with decisions := [(6, 1)] }), gridOf (cvs 1) gry, cvs 1, gry, (((grd (fill open_)).modAnv fun a =>
      { a with decisions := [(6, 1)] }).frameRec 7).getD { k := 0 }, tmp, by decide +kernel⟩,
    ⟨7, 0, 0, ((grd (fill open_)).modAnv fun a => { a with decisions := [(6, 1)] }), gridOf (cvs 1) gry, cvs 1, gry, (((grd (fill open_)).modAnv fun a =>
      { a with decisions := [(6, 1)] }).frameRec 7).getD { k := 0 }, tmp, by decide +kernel⟩⟩

/-- Clauses 1.1, 1.3, 2.1, 2.2, 2.4, 1.2, 2.3. -/
theorem witness_CheckpointsKeepTheAge_1 :
(∃ (s v : State) (slot : Nat) (desc : List Byte), s.taken 96 = some (slot, desc, v) ∧ byteAt desc 0 = 10 ∧ (v.flag F.ANV_PIPE_STATUS_ckpt_busy = true
      ∨ v.anv.temper = none)) ∧
(∃ (s v : State) (slot : Nat) (desc : List Byte) (op : Nat) (c : Instr), s.taken 96 = some (slot, desc, v) ∧ (op, c) ∈ [(10, Instr.ageCkptSave), (9,
      Instr.ageCkptLoad)] ∧ byteAt desc 0 = op ∧ s.flag F.ANV_PIPE_STATUS_ckpt_busy = false ∧ v.flag F.ANV_PIPE_STATUS_ckpt_busy = false ∧
      v.anv.temper ≠ none ∧ (op = 9 → v.flag F.ANV_AGE_CFG_integrate_en = false)) ∧
(∃ (s : State), s.flag F.ANV_AGE_CFG_ckpt_en = true ∧ s.flag F.ANV_PIPE_STATUS_ckpt_busy = false ∧ s.anv.temper ≠ none) ∧
(∃ (s : State), s.flag F.ANV_AGE_CFG_ckpt_en = false) ∧
(∃ (s : State) (t : TemperSet), s.anv.temper = some t ∧ s.flag F.ANV_PIPE_STATUS_ckpt_busy = true) ∧
(∃ (s v : State) (slot : Nat) (desc : List Byte), s.taken 96 = some (slot, desc, v) ∧ byteAt desc 0 = 9 ∧ s.flag F.ANV_PIPE_STATUS_ckpt_busy = false ∧
      (v.anv.temper = none ∨ v.flag F.ANV_AGE_CFG_integrate_en = true)) ∧
(∃ (s : State), s.flag F.ANV_PIPE_STATUS_ckpt_busy = true) :=
  ⟨⟨(ar [10] ([])), (tk 0x60 (ar [10] ([]))), 0, [10] ++ zeros 31, by decide +kernel⟩,
    ⟨(anv (ar [9] ([]))), (tk 0x60 (anv (ar [9] ([])))), 0, [9] ++ zeros 31, 9, .ageCkptLoad, by decide +kernel⟩,
    ⟨(anv open_).raise F.ANV_AGE_CFG_ckpt_en, by decide +kernel⟩,
    ⟨anv open_, by decide +kernel⟩,
    ⟨(anv open_).raise F.ANV_PIPE_STATUS_ckpt_busy, tmp, by decide +kernel⟩,
    ⟨(ar [9] ([])), (tk 0x60 (ar [9] ([]))), 0, [9] ++ zeros 31, by decide +kernel⟩,
    ⟨(anv open_).raise F.ANV_PIPE_STATUS_ckpt_busy, by decide +kernel⟩⟩

/-- Clauses 1.1, 1.2, 1.3, 1.4, 1.5.1, 1.5.2.1, 1.5.2.2, 1.5.2.3, 1.5.3, 1.5.4, 1.5.5.1, 1.5.5.2. -/
theorem witness_ScanCommandsActOnTheirPorts_1 :
(∃ (s v : State) (slot : Nat) (desc : List Byte) (op : Nat) (c : Instr), s.taken 112 = some (slot, desc, v) ∧ (op, c) ∈ [(1, Instr.chainSet), (2,
      Instr.portStart), (3, Instr.portStop), (6, Instr.dkAccess), (8, Instr.remeasure)] ∧ byteAt desc 0 = op ∧ 64 ≤ byteAt desc 1) ∧
(∃ (s v : State) (slot : Nat) (desc : List Byte) (op : Nat) (c : Instr), s.taken 112 = some (slot, desc, v) ∧ (op, c) ∈ [(4, Instr.quenchSet), (5,
      Instr.quenchResume), (7, Instr.dkReload)] ∧ byteAt desc 0 = op ∧ 64 ≤ byteAt desc 1 ∧ byteAt desc 1 ≠ 255) ∧
(∃ (s v : State) (slot : Nat) (desc : List Byte) (op : Nat) (c : Instr), s.taken 112 = some (slot, desc, v) ∧ (op, c) ∈ [(4, Instr.quenchSet), (5,
      Instr.quenchResume), (6, Instr.dkAccess), (7, Instr.dkReload), (8, Instr.remeasure)] ∧ byteAt desc 0 = op ∧ byteAt desc 1 < 64 ∧ v.isStandby =
      true) ∧
(∃ (s v : State) (slot : Nat) (desc : List Byte) (op : Nat) (c : Instr), s.taken 112 = some (slot, desc, v) ∧ (op, c) ∈ [(6, Instr.dkAccess), (7,
      Instr.dkReload), (8, Instr.remeasure)] ∧ byteAt desc 0 = op ∧ byteAt desc 1 < 64 ∧ v.portLive (byteAt desc 1) = false) ∧
(∃ (s v : State) (slot : Nat) (desc : List Byte) (p : Nat), s.taken 112 = some (slot, desc, v) ∧ byteAt desc 1 = p ∧ p < 64 ∧ byteAt desc 0 = 1 ∧
      (v.portState p ≠ 0 ∧ v.portState p ≠ 6 ∨ v.anyStarted = true)) ∧
(∃ (s v : State) (slot : Nat) (desc : List Byte) (p : Nat), s.taken 112 = some (slot, desc, v) ∧ byteAt desc 1 = p ∧ p < 64 ∧ byteAt desc 0 = 2 ∧
      (v.chainOf p = none ∨ v.portState p ≠ 0 ∧ v.portState p ≠ 6 ∨ v.grid = none ∨ v.groupOn p = false ∨ v.isStandby = true ∧ v.heldPort p = none)) ∧
(∃ (s v : State) (slot : Nat) (desc : List Byte) (p : Nat), s.taken 112 = some (slot, desc, v) ∧ byteAt desc 1 = p ∧ p < 64 ∧ byteAt desc 0 = 2 ∧
      v.chainOf p ≠ none ∧ (v.portState p = 0 ∨ v.portState p = 6) ∧ v.grid ≠ none ∧ v.groupOn p = true ∧ v.isStandby = false) ∧
(∃ (s v : State) (slot : Nat) (desc : List Byte) (p : Nat) (w : TwinPort), s.taken 112 = some (slot, desc, v) ∧ byteAt desc 1 = p ∧ p < 64 ∧ byteAt
      desc 0 = 2 ∧ v.chainOf p ≠ none ∧ (v.portState p = 0 ∨ v.portState p = 6) ∧ v.grid ≠ none ∧ v.groupOn p = true ∧ v.isStandby = true ∧ v.heldPort
      p = some w) ∧
(∃ (s v : State) (slot : Nat) (desc : List Byte) (p : Nat), s.taken 112 = some (slot, desc, v) ∧ byteAt desc 1 = p ∧ p < 64 ∧ byteAt desc 0 = 3) ∧
(∃ (s v : State) (slot : Nat) (desc : List Byte) (p : Nat), s.taken 112 = some (slot, desc, v) ∧ byteAt desc 1 = p ∧ p < 64 ∧ byteAt desc 0 = 4 ∧
      v.isStandby = false) ∧
(∃ (s v : State) (slot : Nat) (desc : List Byte) (p : Nat), s.taken 112 = some (slot, desc, v) ∧ byteAt desc 1 = p ∧ p < 64 ∧ byteAt desc 0 = 5 ∧
      v.isStandby = false ∧ (v.scn.modQ ≠ 0 ∨ v.fld (F.SCN_PORT_QSRC_src p) % 16 ≠ 0)) ∧
(∃ (s v : State) (slot : Nat) (desc : List Byte) (p : Nat), s.taken 112 = some (slot, desc, v) ∧ byteAt desc 1 = p ∧ p < 64 ∧ byteAt desc 0 = 5 ∧
      v.isStandby = false ∧ v.scn.modQ = 0 ∧ v.fld (F.SCN_PORT_QSRC_src p) % 16 = 0) :=
  ⟨⟨(sr [1, 64] ([])), (tk 0x70 (sr [1, 64] ([]))), 0, [1, 64] ++ zeros 30, 1, .chainSet, by decide +kernel⟩,
    ⟨(sr [4, 64] ([])), (tk 0x70 (sr [4, 64] ([]))), 0, [4, 64] ++ zeros 30, 4, .quenchSet, by decide +kernel⟩,
    ⟨((prt 4 (sr [6, 0] ([]))).setFld F.TWN_STATUS_role 3), (tk 0x70 ((prt 4 (sr [6, 0] ([]))).setFld F.TWN_STATUS_role 3)), 0, [6, 0] ++ zeros 30, 6,
      .dkAccess, by decide +kernel⟩,
    ⟨((prt 0 (sr [7, 0] ([])))), (tk 0x70 ((prt 0 (sr [7, 0] ([]))))), 0, [7, 0] ++ zeros 30, 7, .dkReload, by decide +kernel⟩,
    ⟨((prt 4 (sr [1, 0] ([])))), (tk 0x70 ((prt 4 (sr [1, 0] ([]))))), 0, [1, 0] ++ zeros 30, 0, by decide +kernel⟩,
    ⟨((prt 4 (sr [2, 0] ([])))), (tk 0x70 ((prt 4 (sr [2, 0] ([]))))), 0, [2, 0] ++ zeros 30, 0, by decide +kernel⟩,
    ⟨((prt 6 (sr [2, 0] ([]))).setFld (F.SCN_PORT_QSRC_src 0) 8), (tk 0x70 ((prt 6 (sr [2, 0] ([]))).setFld (F.SCN_PORT_QSRC_src 0) 8)), 0, [2, 0] ++
      zeros 30, 0, by decide +kernel⟩,
    ⟨((prt 0 (sr [2, 0] ([]))).setFld F.TWN_STATUS_role 3 |>.modTwn fun t =>
      { t with ports := [(0, { state := 4, found := 1, dks := [dk0], rt0 := 200, offsets := [0], qsHost := false })] }), (tk 0x70 ((prt 0 (sr [2, 0]
      ([]))).setFld F.TWN_STATUS_role 3 |>.modTwn fun t =>
      { t with ports := [(0, { state := 4, found := 1, dks := [dk0], rt0 := 200, offsets := [0], qsHost := false })] })), 0, [2, 0] ++ zeros 30, 0,
      { state := 4, found := 1, dks := [dk0], rt0 := 200, offsets := [0], qsHost := false }, by decide +kernel⟩,
    ⟨((prt 4 (sr [3, 0] ([])))), (tk 0x70 ((prt 4 (sr [3, 0] ([]))))), 0, [3, 0] ++ zeros 30, 0, by decide +kernel⟩,
    ⟨((prt 4 (sr [4, 0] ([])))), (tk 0x70 ((prt 4 (sr [4, 0] ([]))))), 0, [4, 0] ++ zeros 30, 0, by decide +kernel⟩,
    ⟨((prt 5 (sr [5, 0] ([]))).setFld (F.SCN_PORT_QSRC_src 0) 1), (tk 0x70 ((prt 5 (sr [5, 0] ([]))).setFld (F.SCN_PORT_QSRC_src 0) 1)), 0, [5, 0] ++
      zeros 30, 0, by decide +kernel⟩,
    ⟨((prt 5 (sr [5, 0] ([]))).setFld (F.SCN_PORT_QSRC_src 0) 16), (tk 0x70 ((prt 5 (sr [5, 0] ([]))).setFld (F.SCN_PORT_QSRC_src 0) 16)), 0, [5, 0] ++
      zeros 30, 0, by decide +kernel⟩⟩

/-- Clauses 1.5.6.1, 1.5.6.2, 1.5.8.1, 1.5.8.2, 1.5.9, 1.6, 2.1, 2.2, 1.5.7. -/
theorem witness_ScanCommandsActOnTheirPorts_2 :
(∃ (s v : State) (slot : Nat) (desc : List Byte) (p : Nat) (q : ScnReq), s.taken 112 = some (slot, desc, v) ∧ byteAt desc 1 = p ∧ p < 64 ∧ byteAt desc
      0 = 6 ∧ v.isStandby = false ∧ v.portLive p = true ∧ q =
      { engine := 3, addr := bits (le desc 2 2) 0 9, opcode := if (byteAt desc 5).testBit 0 = true then 2 else 1, reg := byteAt desc 4, data := le desc 6 2, bcast := (le desc 2 2).testBit 9, slot := if (le desc 2 2).testBit 9 = true then none else some slot }
      ∧ (le desc 2 2).testBit 9 = true) ∧
(∃ (s v : State) (slot : Nat) (desc : List Byte) (p : Nat) (q : ScnReq), s.taken 112 = some (slot, desc, v) ∧ byteAt desc 1 = p ∧ p < 64 ∧ byteAt desc
      0 = 6 ∧ v.isStandby = false ∧ v.portLive p = true ∧ q =
      { engine := 3, addr := bits (le desc 2 2) 0 9, opcode := if (byteAt desc 5).testBit 0 = true then 2 else 1, reg := byteAt desc 4, data := le desc 6 2, bcast := (le desc 2 2).testBit 9, slot := if (le desc 2 2).testBit 9 = true then none else some slot }
      ∧ (le desc 2 2).testBit 9 = false) ∧
(∃ (s v : State) (slot : Nat) (desc : List Byte) (p : Nat), s.taken 112 = some (slot, desc, v) ∧ byteAt desc 1 = p ∧ p < 64 ∧ byteAt desc 0 = 7 ∧
      v.isStandby = false ∧ v.portLive p = true ∧ v.hasImages p = false) ∧
(∃ (s v : State) (slot : Nat) (desc : List Byte) (p : Nat), s.taken 112 = some (slot, desc, v) ∧ byteAt desc 1 = p ∧ p < 64 ∧ byteAt desc 0 = 7 ∧
      v.isStandby = false ∧ v.portLive p = true ∧ v.hasImages p = true) ∧
(∃ (s v : State) (slot : Nat) (desc : List Byte) (p : Nat), s.taken 112 = some (slot, desc, v) ∧ byteAt desc 1 = p ∧ p < 64 ∧ byteAt desc 0 = 8 ∧
      v.isStandby = false ∧ v.portLive p = true) ∧
(∃ (s v : State) (slot : Nat) (desc : List Byte), s.taken 112 = some (slot, desc, v) ∧ byteAt desc 0 = 4 ∧ byteAt desc 1 = 255 ∧ v.isStandby = false) ∧
(∃ (s v : State) (slot : Nat) (desc b : List Byte) (o : Nat), s.takenBlock 112 = some (slot, desc, b, v) ∧ byteAt desc 0 = 1 ∧ byteAt desc 1 < 64 ∧
      (v.portState (byteAt desc 1) = 0 ∨ v.portState (byteAt desc 1) = 6) ∧ v.anyStarted = false ∧ v.chainBad b = some o) ∧
(∃ (s v : State) (slot : Nat) (desc b : List Byte), s.takenBlock 112 = some (slot, desc, b, v) ∧ byteAt desc 0 = 1 ∧ byteAt desc 1 < 64 ∧ (v.portState
      (byteAt desc 1) = 0 ∨ v.portState (byteAt desc 1) = 6) ∧ v.anyStarted = false ∧ v.chainBad b = none) ∧
(∃ (s v : State) (slot : Nat) (desc : List Byte) (p : Nat) (c : List Byte) (q : ScnReq), s.taken 112 = some (slot, desc, v) ∧ byteAt desc 1 = p ∧ p <
      64 ∧ v.chainOf p = some c ∧ (v.port p).offers = [] ∧ (v.port p).blanks = 0 ∧ (v.port p).resize = none ∧ v.mayRequest p = true ∧ (v.port
      p).admits q = true ∧ q.engine < 4 ∧ (v.port p).sck.ends + chainTChar c ≤ v.laneFrom p c ∧ Option.all (fun (b : Nat) => decide (v.laneFrom p c +
      9 * chainTChar c ≤ b)) (v.nextSet p c (v.laneFrom p c)) = true) :=
  ⟨⟨((prt 4 (sr [6, 0, 0, 2, 5, 1, 7] ([])))), (tk 0x70 ((prt 4 (sr [6, 0, 0, 2, 5, 1, 7] ([]))))), 0, [6, 0, 0, 2, 5, 1, 7] ++ zeros 25, 0,
      { engine := 3, addr := 0, opcode := 2, reg := 5, data := 7, bcast := true, slot := none }, by decide +kernel⟩,
    ⟨((prt 5 (sr [6, 0, 3, 0, 5, 0, 7] ([])))), (tk 0x70 ((prt 5 (sr [6, 0, 3, 0, 5, 0, 7] ([]))))), 0, [6, 0, 3, 0, 5, 0, 7] ++ zeros 25, 0,
      { engine := 3, addr := 3, opcode := 1, reg := 5, data := 7, bcast := false, slot := some 0 }, by decide +kernel⟩,
    ⟨((prt 4 (sr [7, 0] ([])))), (tk 0x70 ((prt 4 (sr [7, 0] ([]))))), 0, [7, 0] ++ zeros 30, 0, by decide +kernel⟩,
    ⟨((prt 4 (sr [7, 0] ([]))).modPort 0 fun r => { r with chain := some (chn.set 17 1) }), (tk 0x70 ((prt 4 (sr [7, 0] ([]))).modPort 0 fun r =>
      { r with chain := some (chn.set 17 1) })), 0, [7, 0] ++ zeros 30, 0, by decide +kernel⟩,
    ⟨((prt 4 (sr [8, 0] ([])))), (tk 0x70 ((prt 4 (sr [8, 0] ([]))))), 0, [8, 0] ++ zeros 30, 0, by decide +kernel⟩,
    ⟨((prt 4 (sr [4, 255] ([])))), (tk 0x70 ((prt 4 (sr [4, 255] ([]))))), 0, [4, 255] ++ zeros 30, by decide +kernel⟩,
    ⟨((prt 0 (sr [1, 0, 0, 0, 0, 0, 0, 0, 0, 0x30] (chn.set 0 0)))), (tkb 0x70 ((prt 0 (sr [1, 0, 0, 0, 0, 0, 0, 0, 0, 0x30] (chn.set 0 0))))), 0, [1, 0,
      0, 0, 0, 0, 0, 0, 0, 0x30] ++ zeros 22, chn.set 0 0, 0, by decide +kernel⟩,
    ⟨((prt 6 (sr [1, 0, 0, 0, 0, 0, 0, 0, 0, 0x30] (chn)))), (tkb 0x70 ((prt 6 (sr [1, 0, 0, 0, 0, 0, 0, 0, 0, 0x30] (chn))))), 0, [1, 0, 0, 0, 0, 0, 0,
      0, 0, 0x30] ++ zeros 22, chn, by decide +kernel⟩,
    ⟨((prt 4 (sr [3, 0] ([]))).setFld (F.SCN_PORT_TRIM_w_chars 0) 3), tk 0x70 ((prt 4 (sr [3, 0] ([]))).setFld (F.SCN_PORT_TRIM_w_chars 0) 3), 0, [3, 0]
      ++ zeros 30, 0, chn, { engine := 3, addr := 0, opcode := 1, reg := 5, data := 7 }, by decide +kernel⟩⟩

/-- Clauses 1.1, 1.2, 1.3.1.1, 1.3.1.2, 1.3.2.1, 1.3.2.2, 1.3.3.1, 1.3.3.2, 1.3.4, 1.3.5.1, 1.3.5.2, 1.3.6.1. -/
theorem witness_StartsRunThroughTheirSteps_1 :
(∃ (p : Nat) (s : State), p < 64 ∧ s.stepQuiet p = false) ∧
(∃ (p : Nat) (s : State), p < 64 ∧ (s.port p).step = 1) ∧
(∃ (p : Nat) (s : State) (c : List Byte), p < 64 ∧ s.stepQuiet p = true ∧ (s.port p).step = 1 ∧ s.chainOf p = some c ∧ s.drives = true) ∧
(∃ (p : Nat) (s : State) (c : List Byte), p < 64 ∧ s.stepQuiet p = true ∧ (s.port p).step = 1 ∧ s.chainOf p = some c ∧ s.drives = false) ∧
(∃ (p : Nat) (s : State) (c : List Byte), p < 64 ∧ s.stepQuiet p = true ∧ (s.port p).step = 2 ∧ s.chainOf p = some c ∧ s.found p = chainNDk c) ∧
(∃ (p : Nat) (s : State) (c : List Byte), p < 64 ∧ s.stepQuiet p = true ∧ (s.port p).step = 2 ∧ s.chainOf p = some c ∧ s.found p ≠ chainNDk c) ∧
(∃ (p : Nat) (s : State), p < 64 ∧ s.stepQuiet p = true ∧ (s.port p).step = 3 ∧ ((s.port p).dks.all fun (d : DkId) => d.id == 53270 && decide (2 ≤
      d.rev)) = true) ∧
(∃ (p : Nat) (s : State), p < 64 ∧ s.stepQuiet p = true ∧ (s.port p).step = 3 ∧ ((s.port p).dks.all fun (d : DkId) => d.id == 53270 && decide (2 ≤
      d.rev)) = false) ∧
(∃ (p : Nat) (s : State) (g : Grid) (rts : List Nat), p < 64 ∧ s.stepQuiet p = true ∧ (s.port p).step = 4 ∧ s.grid = some g ∧ s.isStandby = false ∧
      rts = List.map (fun (d : Nat) => Sparse.get (fun (x : Nat) => 0) (s.port p).rts d) (List.range (s.port p).dks.length)) ∧
(∃ (p : Nat) (s : State) (g : Grid), p < 64 ∧ s.stepQuiet p = true ∧ (s.port p).step = 5 ∧ s.grid = some g ∧ s.r230 p g = 5) ∧
(∃ (p : Nat) (s : State) (g : Grid), p < 64 ∧ s.stepQuiet p = true ∧ (s.port p).step = 5 ∧ s.grid = some g ∧ s.r230 p g ≠ 5 ∧ s.isStandby = false) ∧
(∃ (p : Nat) (s : State) (g : Grid), p < 64 ∧ s.stepQuiet p = true ∧ (s.port p).step = 6 ∧ s.grid = some g ∧ (s.port p).grid = some g) :=
  ⟨⟨0, (stp 1 open_).modPort 0 fun r => { r with requests := [echoReq 0 true] }, by decide +kernel⟩,
    ⟨0, stp 1 open_, by decide +kernel⟩,
    ⟨0, (stp 1 open_).setFld F.TWN_STATUS_role 0, chn, by decide +kernel⟩,
    ⟨0, (stp 1 open_).setFld F.TWN_STATUS_role 1, chn, by decide +kernel⟩,
    ⟨0, stp 2 open_, chn, by decide +kernel⟩,
    ⟨0, (stp 2 open_).setFld (F.SCN_PORT_STATUS_found 0) 3, chn, by decide +kernel⟩,
    ⟨0, stp 3 open_, by decide +kernel⟩,
    ⟨0, (stp 3 open_).modPort 0 fun r => { r with dks := [{ dk0 with rev := 1 }] }, by decide +kernel⟩,
    ⟨0, (stp 4 open_).modPort 0 fun r => { r with rts := [(0, 700)] }, gridOf (cvs 1) gry, [700], by decide +kernel⟩,
    ⟨0, (stp 5 open_).modPort 0 fun r => { r with dks := [{ dk0 with tBlankMin := 9999 }] }, gridOf (cvs 1) gry, by decide +kernel⟩,
    ⟨0, stp 5 open_, gridOf (cvs 1) gry, by decide +kernel⟩,
    ⟨0, (stp 6 open_).modPort 0 fun r => { r with startSlot := some 3 }, gridOf (cvs 1) gry, by decide +kernel⟩⟩

/-- Clauses 1.3.6.2, 2, 3.1. -/
theorem witness_StartsRunThroughTheirSteps_2 :
(∃ (p : Nat) (s : State) (g : Grid), p < 64 ∧ s.stepQuiet p = true ∧ (s.port p).step = 6 ∧ s.grid = some g ∧ (s.port p).grid ≠ some g) ∧
(∃ (s : State), s.imagePort = none) ∧
(∃ (n p d m used : Nat) (c : List Byte) (s : State), s.imagePort = some p ∧ s.chainOf p = some c ∧ (s.port p).imagePos = some d ∧ s.isStandby = false
      ∧ (used = if s.scn.imagePeriod = s.imagePeriod then s.scn.imageUsed else 0) ∧ m = min (min n (1024 - used)) (chainNDk c - d) ∧ m = 0) :=
  ⟨⟨0, (stp 6 open_).modPort 0 fun r => { r with grid := none }, gridOf (cvs 1) gry, by decide +kernel⟩,
    ⟨open_, by decide +kernel⟩,
    ⟨0, 0, 0, 0, 0, chn.set 17 1, (((prt 4 open_).modPort 0 fun r => { r with chain := some (chn.set 17 1) }).modPort 0 fun r =>
      { r with imagePos := some 0, imageSlots := [1] }), by decide +kernel⟩⟩

/-- Clause 3.2. -/
theorem witness_StartsRunThroughTheirSteps_3 :
∃ (n p d m used : Nat) (c : List Byte) (s w : State), s.imagePort = some p ∧ s.chainOf p = some c ∧ (s.port p).imagePos = some d ∧ s.isStandby = false
      ∧ (used = if s.scn.imagePeriod = s.imagePeriod then s.scn.imageUsed else 0) ∧ m = min (min n (1024 - used)) (chainNDk c - d) ∧ 0 < m ∧
      State.writeImages p (chainImages c) m d (s.modScn fun (t : Scn) =>
      { ports := t.ports, modQ := t.modQ, imageNext := (p + 1) % 64, imagePeriod := s.imagePeriod, imageUsed := used + m }) = (MemAnswer.data [], w) :=
⟨5, 0, 0, 1, 0, chn.set 17 1, (((prt 4 open_).modPort 0 fun r => { r with chain := some (chn.set 17 1) }).modPort 0 fun r =>
    { r with imagePos := some 0, imageSlots := [1] }), (State.writeImages 0 256 1 0 ((((prt 4 open_).modPort 0 fun r =>
    { r with chain := some (chn.set 17 1) }).modPort 0 fun r => { r with imagePos := some 0, imageSlots := [1] }).modScn fun t =>
    { t with imageNext := 1, imagePeriod := (((prt 4 open_).modPort 0 fun r => { r with chain := some (chn.set 17 1) }).modPort 0 fun r => { r with imagePos := some 0, imageSlots := [1] }).imagePeriod, imageUsed := 1 })).2,
    by decide +kernel⟩

/-- Clauses 1.1, 1.2.1, 1.2.2, 1.3, 2.1, 2.2, 3.1, 3.2, 4. -/
theorem witness_LanesCarryTheFrame_1 :
(∃ (p k j : Nat) (s : State) (g : Grid) (c : List Byte) (e i l : Nat) (bs : List Byte), p < 64 ∧ s.portLive p = true ∧ s.drives = true ∧ s.isStandby =
      false ∧ (s.port p).shift = 0 ∧ (s.port p).resize = none ∧ (s.port p).blanks = 0 ∧ (s.port p).offers = [] ∧ (s.port p).newGrid = none ∧ (s.port
      p).grid = some g ∧ s.chainOf p = some c ∧ j < g.nSf ∧ i < g.nPs ∧ l < g.nLine ∧ (i ≠ 0 ∨ l ≠ 0) ∧ e = g.edge k (g.slot j i l) ∧ (s.port
      p).sck.ends ≤ setEnd c e - 6 * chainTChar c ∧ bs = setBytes (e - chainNAnt c * chainTChar c - setEnd c e) l i) ∧
(∃ (p k j : Nat) (s : State) (g : Grid) (c : List Byte) (e cmd : Nat) (bs : List Byte), p < 64 ∧ s.portLive p = true ∧ s.drives = true ∧ s.isStandby =
      false ∧ (s.port p).shift = 0 ∧ (s.port p).resize = none ∧ (s.port p).blanks = 0 ∧ (s.port p).offers = [] ∧ (s.port p).newGrid = none ∧ (s.port
      p).grid = some g ∧ s.chainOf p = some c ∧ j < g.nSf ∧ e = g.edge k (g.slot j 0 0) ∧ (s.port p).sck.ends ≤ setEnd c e - 6 * chainTChar c ∧ bs =
      setBytes (e - chainNAnt c * chainTChar c - setEnd c e) j (j / 256 + 2 * cmd) ∧ (j ≠ 0 ∧ cmd = 0 ∨ j = 0 ∧ s.portState p = 4 ∧ s.twn.firstShow =
      none ∧ cmd = s.frameCommand k)) ∧
(∃ (p k j : Nat) (s : State) (g : Grid) (c : List Byte) (e cmd : Nat) (bs : List Byte), p < 64 ∧ s.portLive p = true ∧ s.drives = true ∧ s.isStandby =
      false ∧ (s.port p).shift = 0 ∧ (s.port p).resize = none ∧ (s.port p).blanks = 0 ∧ (s.port p).offers = [] ∧ (s.port p).newGrid = none ∧ (s.port
      p).grid = some g ∧ s.chainOf p = some c ∧ j < g.nSf ∧ e = g.edge k (g.slot j 0 0) ∧ (s.port p).sck.ends ≤ setEnd c e - 6 * chainTChar c ∧ bs =
      setBytes (e - chainNAnt c * chainTChar c - setEnd c e) j (j / 256 + 2 * cmd) ∧ j = 0 ∧ s.portState p = 5 ∧ (s.port p).resume = false ∧ cmd = 3) ∧
(∃ (p k j : Nat) (s : State) (g : Grid) (c : List Byte), p < 64 ∧ s.portLive p = true ∧ s.drives = true ∧ s.isStandby = false ∧ (s.port p).shift = 0 ∧
      (s.port p).resize = none ∧ (s.port p).blanks = 0 ∧ (s.port p).offers = [] ∧ (s.port p).newGrid = none ∧ (s.port p).grid = some g ∧ s.chainOf p =
      some c ∧ j < g.nSf ∧ j = 0 ∧ s.portState p = 5 ∧ (s.port p).resume = true ∧ s.frameCommand k = 1 ∧ s.quenchSrc p = 0) ∧
(∃ (p k at_ : Nat) (g : Grid) (s : State), p < 64 ∧ s.portLive p = true ∧ s.chainOf p ≠ none ∧ (s.port p).newGrid = some (g, at_) ∧ (s.port p).armed =
      true ∧ at_ ≤ k ∧ s.r230 p g = 0) ∧
(∃ (p k at_ : Nat) (g : Grid) (s : State), p < 64 ∧ s.portLive p = true ∧ s.chainOf p ≠ none ∧ (s.port p).newGrid = some (g, at_) ∧ (s.port p).armed =
      true ∧ at_ ≤ k ∧ s.r230 p g ≠ 0) ∧
(∃ (p n begin : Nat) (f : FrameRec) (c b : List Byte) (words : List Nat) (g : Grid) (s : State), p < 64 ∧ s.portLive p = true ∧ s.nextCell p = some
      (f, n, b, words, g) ∧ s.chainOf p = some c ∧ begin = max (s.laneFrom p c) (s.port p).sdt.ends ∧ s.drives = true ∧ s.sdtPassed p begin c = false) ∧
(∃ (p n begin : Nat) (f : FrameRec) (c b : List Byte) (words : List Nat) (g : Grid) (s : State), p < 64 ∧ s.portLive p = true ∧ s.nextCell p = some
      (f, n, b, words, g) ∧ s.chainOf p = some c ∧ begin = max (s.laneFrom p c) (s.port p).sdt.ends ∧ s.isStandby = true) ∧
(∃ (p : Nat), p < 64) :=
  ⟨⟨0, 7, 1, (prt 4 open_).modPort 0 fun r => { r with grid := some (gridOf (cvs 1) ((gry.set 4 8).set 3 1)) }, gridOf (cvs 1) ((gry.set 4 8).set 3 1),
      chn, (gridOf (cvs 1) ((gry.set 4 8).set 3 1)).edge 7 ((gridOf (cvs 1) ((gry.set 4 8).set 3 1)).slot 1 0 5), 0, 5, setBytes ((gridOf (cvs 1)
      ((gry.set 4 8).set 3 1)).edge 7 ((gridOf (cvs 1) ((gry.set 4 8).set 3 1)).slot 1 0 5) - chainNAnt chn * chainTChar chn - setEnd chn ((gridOf
      (cvs 1) ((gry.set 4 8).set 3 1)).edge 7 ((gridOf (cvs 1) ((gry.set 4 8).set 3 1)).slot 1 0 5))) 5 0, by decide +kernel⟩,
    ⟨0, 7, 3, prt 4 open_, (gridOf (cvs 1) gry), chn, (gridOf (cvs 1) gry).edge 7 ((gridOf (cvs 1) gry).slot 3 0 0), 0, setBytes ((gridOf (cvs 1)
      gry).edge 7 ((gridOf (cvs 1) gry).slot 3 0 0) - chainNAnt chn * chainTChar chn - setEnd chn ((gridOf (cvs 1) gry).edge 7 ((gridOf (cvs 1)
      gry).slot 3 0 0))) 3 0, by decide +kernel⟩,
    ⟨0, 7, 0, prt 5 open_, (gridOf (cvs 1) gry), chn, (gridOf (cvs 1) gry).edge 7 ((gridOf (cvs 1) gry).slot 0 0 0), 3, setBytes ((gridOf (cvs 1)
      gry).edge 7 ((gridOf (cvs 1) gry).slot 0 0 0) - chainNAnt chn * chainTChar chn - setEnd chn ((gridOf (cvs 1) gry).edge 7 ((gridOf (cvs 1)
      gry).slot 0 0 0))) 0 6, by decide +kernel⟩,
    ⟨0, 7, 0, (prt 5 open_).modPort 0 (fun r => { r with resume := true }) |>.modAnv fun a =>
      { a with decisions := [(7, 0)], litOnce := true, shownK := some 6 }, (gridOf (cvs 1) gry), chn, by decide +kernel⟩,
    ⟨0, 7, 7, gridOf (cvs 1) ((gry.set 4 8).set 3 1), (prt 4 open_).modPort 0 fun r =>
      { r with newGrid := some (gridOf (cvs 1) ((gry.set 4 8).set 3 1), 7), armed := true }, by decide +kernel⟩,
    ⟨0, 7, 7, gridOf (cvs 1) ((gry.set 4 8).set 3 1), ((prt 4 open_).modPort 0 fun r =>
      { r with newGrid := some (gridOf (cvs 1) ((gry.set 4 8).set 3 1), 7), armed := true }).modPort 0 fun r =>
      { r with dks := [{ dk0 with tBlankMin := 9999 }] }, by decide +kernel⟩,
    ⟨0, ((((prt 4 open_).modAnv fun a => { a with frames := [{ k := 7, temper := some tmp, words := [(0, 5), (1, 6), (2, 7)] }] }).nextCell 0).map
      (·.2.1)).getD 0, max (((prt 4 open_).modAnv fun a =>
      { a with frames := [{ k := 7, temper := some tmp, words := [(0, 5), (1, 6), (2, 7)] }] }).laneFrom 0 chn) (((prt 4 open_).modAnv fun a =>
      { a with frames := [{ k := 7, temper := some tmp, words := [(0, 5), (1, 6), (2, 7)] }] }).port 0).sdt.ends, ((((prt 4 open_).modAnv fun a =>
      { a with frames := [{ k := 7, temper := some tmp, words := [(0, 5), (1, 6), (2, 7)] }] }).nextCell 0).map (·.1)).getD { k := 7 }, chn, ((((prt 4
      open_).modAnv fun a => { a with frames := [{ k := 7, temper := some tmp, words := [(0, 5), (1, 6), (2, 7)] }] }).nextCell 0).map (·.2.2.1)).getD
      [], ((((prt 4 open_).modAnv fun a => { a with frames := [{ k := 7, temper := some tmp, words := [(0, 5), (1, 6), (2, 7)] }] }).nextCell 0).map
      (·.2.2.2.1)).getD [], (gridOf (cvs 1) gry), ((prt 4 open_).modAnv fun a =>
      { a with frames := [{ k := 7, temper := some tmp, words := [(0, 5), (1, 6), (2, 7)] }] }), by decide +kernel⟩,
    ⟨0, (((((prt 4 open_).modAnv fun a => { a with frames := [{ k := 7, temper := some tmp, words := [(0, 5), (1, 6), (2, 7)] }] }).setFld
      F.TWN_STATUS_role 3).nextCell 0).map (·.2.1)).getD 0, max ((((prt 4 open_).modAnv fun a =>
      { a with frames := [{ k := 7, temper := some tmp, words := [(0, 5), (1, 6), (2, 7)] }] }).setFld F.TWN_STATUS_role 3).laneFrom 0 chn) ((((prt 4
      open_).modAnv fun a => { a with frames := [{ k := 7, temper := some tmp, words := [(0, 5), (1, 6), (2, 7)] }] }).setFld F.TWN_STATUS_role
      3).port 0).sdt.ends, (((((prt 4 open_).modAnv fun a =>
      { a with frames := [{ k := 7, temper := some tmp, words := [(0, 5), (1, 6), (2, 7)] }] }).setFld F.TWN_STATUS_role 3).nextCell 0).map
      (·.1)).getD { k := 7 }, chn, (((((prt 4 open_).modAnv fun a =>
      { a with frames := [{ k := 7, temper := some tmp, words := [(0, 5), (1, 6), (2, 7)] }] }).setFld F.TWN_STATUS_role 3).nextCell 0).map
      (·.2.2.1)).getD [], (((((prt 4 open_).modAnv fun a =>
      { a with frames := [{ k := 7, temper := some tmp, words := [(0, 5), (1, 6), (2, 7)] }] }).setFld F.TWN_STATUS_role 3).nextCell 0).map
      (·.2.2.2.1)).getD [], (gridOf (cvs 1) gry), (((prt 4 open_).modAnv fun a =>
      { a with frames := [{ k := 7, temper := some tmp, words := [(0, 5), (1, 6), (2, 7)] }] }).setFld F.TWN_STATUS_role 3), by decide +kernel⟩,
    ⟨0, by decide +kernel⟩⟩

/-- Clauses 1, 2.1, 2.2, 2.3, 3, 4, 5, 6.1, 6.2, 7.1, 7.2.1, 7.2.2. -/
theorem witness_ReturnLaneAnswersAndAlerts_1 :
(∃ (p : Nat) (s : State), p < 64 ∧ s.flag F.SCN_CFG_poll_en = true ∧ s.portLive p = true ∧ s.isStandby = false ∧ (s.port p).pollPos < 3 * s.found p ∧
      ((s.port p).offers.any fun (q : ScnReq) => q.engine == 0) = false) ∧
(∃ (p : Nat) (s : State) (d : Nat) (q : ScnReq), p < 64 ∧ List.find? (fun (r : ScnReq) => r.addr == d) (s.port p).requests = some q ∧ s.isStandby =
      false ∧ (q.tries < 2 ∨ q.slot = none ∧ (s.port p).step ≠ 2 ∧ (s.port p).step ≠ 3)) ∧
(∃ (p : Nat) (s : State) (d : Nat) (q : ScnReq) (n : Nat), p < 64 ∧ List.find? (fun (r : ScnReq) => r.addr == d) (s.port p).requests = some q ∧
      s.isStandby = false ∧ 2 ≤ q.tries ∧ q.slot = some n) ∧
(∃ (p : Nat) (s : State) (d : Nat) (q : ScnReq), p < 64 ∧ List.find? (fun (r : ScnReq) => r.addr == d) (s.port p).requests = some q ∧ s.isStandby =
      true ∧ q.slot = none) ∧
(∃ (p : Nat) (s : State), p < 64 ∧ s.portLive p = false) ∧
(∃ (p : Nat) (s : State), p < 64 ∧ s.portLive p = true ∧ s.isStandby = false) ∧
(∃ (p : Nat) (s : State) (c : Instr), p < 64 ∧ s.portLive p = true ∧ s.isStandby = true ∧ c ∈ [Instr.cableRemeasure p, Instr.chainOffsetMeasure p]) ∧
(∃ (p : Nat) (s : State) (d ch line temp status reg data rt opcode : Nat) (held bad : Bool) (c : Instr), p < 64 ∧ c ∈ [Instr.open p d ch line bad,
      Instr.short p d ch line bad, Instr.shutdown p d temp bad, Instr.damaged p d bad, Instr.lostInput p d bad, Instr.regLost p d ch line bad,
      Instr.repReceived p d status held opcode reg data rt bad] ∧ s.hears p = false) ∧
(∃ (p : Nat) (s : State) (d ch line temp status reg data rt opcode : Nat) (held bad : Bool) (c : Instr), p < 64 ∧ c ∈ [Instr.open p d ch line bad,
      Instr.short p d ch line bad, Instr.shutdown p d temp bad, Instr.damaged p d bad, Instr.lostInput p d bad, Instr.regLost p d ch line bad,
      Instr.repReceived p d status held opcode reg data rt bad] ∧ s.hears p = true ∧ bad = true) ∧
(∃ (p : Nat) (s : State) (d reg opcode n : Nat) (q : ScnReq) (u : State), p < 64 ∧ s.hears p = true ∧ List.find? (fun (q : ScnReq) => q.answeredBy d
      opcode reg) (s.port p).requests = some q ∧ q.slot = some n ∧ u = s.modPort p fun (r : ScnPort) =>
      { chain := r.chain, step := r.step, startSlot := r.startSlot, dks := r.dks, delay := r.delay, offsets := r.offsets, rtCand := r.rtCand, offers := r.offers, lastEng := r.lastEng, requests := r.requests.erase q, rts := r.rts, reqFrom := r.reqFrom, sck := r.sck, sdt := r.sdt, blanks := r.blanks, shift := r.shift, resize := r.resize, subf := r.subf, missed := Sparse.del r.missed d, pollPos := r.pollPos, pollBad := r.pollBad, pollShut := r.pollShut, pollTemp := r.pollTemp, pollHead := r.pollHead, heads := r.heads, seen := r.seen, resume := r.resume, imagePos := r.imagePos, imageSlots := r.imageSlots, remSlots := r.remSlots, remRt := r.remRt, remOff := r.remOff, grid := r.grid, newGrid := r.newGrid, armed := r.armed, loadK := r.loadK, cell := r.cell }) ∧
(∃ (p : Nat) (s : State) (d reg rt : Nat) (q : ScnReq), p < 64 ∧ s.hears p = true ∧ List.find? (fun (q : ScnReq) => q.answeredBy d 3 reg) (s.port
      p).requests = some q ∧ q.slot = none ∧ q.opcode = 3 ∧ rt < 2 ^ 32) ∧
(∃ (p : Nat) (s : State) (d reg rt : Nat) (q : ScnReq), p < 64 ∧ s.hears p = true ∧ List.find? (fun (q : ScnReq) => q.answeredBy d 3 reg) (s.port
      p).requests = some q ∧ q.slot = none ∧ q.opcode = 3 ∧ rt < 2 ^ 32 ∧ q.cable = true ∧ ((↑(s.regN (Reg.SCN_PORT_RTT p)) : Int) - (↑rt :
      Int)).natAbs ≤ 32) :=
  ⟨⟨0, (prt 4 open_).raise F.SCN_CFG_poll_en, by decide +kernel⟩,
    ⟨0, withReq 0 (prt 4 open_), 0, req 0, by decide +kernel⟩,
    ⟨0, (withReq 2 (prt 4 open_)), 0, req 2, 2, by decide +kernel⟩,
    ⟨0, (withReq 0 (prt 4 open_)).modPort 0 (fun r => { r with requests := [{ req 0 with slot := none }] }) |>.setFld F.TWN_STATUS_role 3, 0,
      { req 0 with slot := none }, by decide +kernel⟩,
    ⟨0, prt 6 open_, by decide +kernel⟩,
    ⟨0, prt 4 open_, by decide +kernel⟩,
    ⟨0, (prt 4 open_).setFld F.TWN_STATUS_role 3, .chainOffsetMeasure 0, by decide +kernel⟩,
    ⟨0, prt 6 open_, 0, 3, 1, 40, 0, 8, 5, 0, 1, false, false, .damaged 0 0 false, by decide +kernel⟩,
    ⟨0, prt 4 open_, 0, 3, 1, 40, 0, 8, 5, 0, 1, false, true, .open 0 0 3 1 true, by decide +kernel⟩,
    ⟨0, (withReq 2 (prt 4 open_)), 0, 8, 1, 2, req 2, ((withReq 2 (prt 4 open_)).modPort 0 fun r => { r with requests := [], missed := [] }), by
      decide +kernel⟩,
    ⟨0, (((prt 4 open_).setReg (Reg.SCN_PORT_RTT 0) 700).modPort 0 fun r => { r with requests := [echoReq 0 true] }), 0, 0, 720, echoReq 0 true, by
      decide +kernel⟩,
    ⟨0, (((prt 4 open_).setReg (Reg.SCN_PORT_RTT 0) 700).modPort 0 fun r => { r with requests := [echoReq 0 true] }), 0, 0, 720, echoReq 0 true, by
      decide +kernel⟩⟩

/-- Clauses 7.2.3, 7.2.4, 7.3, 7.4, 7.5, 7.7, 8, 9. -/
theorem witness_ReturnLaneAnswersAndAlerts_2 :
(∃ (p : Nat) (s : State) (d reg rt : Nat) (q : ScnReq), p < 64 ∧ s.hears p = true ∧ List.find? (fun (q : ScnReq) => q.answeredBy d 3 reg) (s.port
      p).requests = some q ∧ q.slot = none ∧ q.opcode = 3 ∧ rt < 2 ^ 32 ∧ q.cable = true ∧ 32 < ((↑(s.regN (Reg.SCN_PORT_RTT p)) : Int) - (↑rt :
      Int)).natAbs ∧ (s.port p).rtCand = none) ∧
(∃ (p : Nat) (s : State) (d reg rt : Nat) (q : ScnReq) (rts : List Nat), p < 64 ∧ s.hears p = true ∧ List.find? (fun (q : ScnReq) => q.answeredBy d 3
      reg) (s.port p).requests = some q ∧ q.slot = none ∧ q.opcode = 3 ∧ rt < 2 ^ 32 ∧ q.cable = false ∧ (s.port p).step = 0 ∧ (Sparse.put (s.port
      p).rts d rt).length = (s.port p).dks.length ∧ rts = List.map (fun (i : Nat) => Sparse.get (fun (x : Nat) => 0) (Sparse.put (s.port p).rts d rt)
      i) (List.range (s.port p).dks.length)) ∧
(∃ (p : Nat) (s : State) (d ch line k : Nat) (c : Instr), p < 64 ∧ s.hears p = true ∧ (k, c) ∈ [(1, Instr.open p d ch line false), (2, Instr.short p d
      ch line false)] ∧ s.chainOf p ≠ none) ∧
(∃ (p : Nat) (s : State) (d ch line k : Nat) (c : Instr), p < 64 ∧ s.hears p = true ∧ (k, c) ∈ [(1, Instr.open p d ch line false), (2, Instr.short p d
      ch line false)] ∧ s.chainOf p ≠ none) ∧
(∃ (p : Nat) (s : State), p < 64 ∧ s.hears p = true) ∧
(∃ (p : Nat) (s : State) (d : Nat) (c : Instr), p < 64 ∧ s.hears p = true ∧ (c = Instr.damaged p d false ∨ c = Instr.lostInput p d false)) ∧
(∃ (p : Nat) (s : State) (d : Nat) (c : Instr), p < 64 ∧ s.hears p = true ∧ (c = Instr.damaged p d false ∨ c = Instr.lostInput p d false)) ∧
(∃ (p : Nat) (s : State) (d g : Nat) (r : Rail), p < 64 ∧ s.hears p = true ∧ ((s.chainOf p).bind fun (x : List Byte) => chainGroup x d) = some g ∧
      s.rail g = some r ∧ railMode r.block = 2 ∧ s.steersRails = true ∧ r.fine / 100 < 65536) ∧
(∃ (p : Nat) (s : State), p < 64 ∧ s.portOpen p = true ∧ s.portState p ≠ 1 ∧ (s.fld (F.SCN_PORT_QSRC_src p)).testBit 1 = false) ∧
(∃ (p : Nat), p < 64) :=
  ⟨⟨0, (((prt 4 open_).setReg (Reg.SCN_PORT_RTT 0) 700).modPort 0 fun r => { r with requests := [echoReq 0 true] }), 0, 0, 800, echoReq 0 true, by
      decide +kernel⟩,
    ⟨0, (((prt 4 open_).setReg (Reg.SCN_PORT_RTT 0) 700).modPort 0 fun r => { r with requests := [echoReq 0 false] }), 0, 0, 700, echoReq 0 false, [700],
      by decide +kernel⟩,
    ⟨0, (prt 4 open_), 0, 3, 1, 1, .open 0 0 3 1 false, by decide +kernel⟩,
    ⟨0, (prt 4 open_), 0, 3, 0, 2, .short 0 0 3 0 false, by decide +kernel⟩,
    ⟨0, (prt 4 open_), by decide +kernel⟩,
    ⟨0, prt 3 open_, 0, .damaged 0 0 false, by decide +kernel⟩,
    ⟨0, (prt 4 open_), 0, .lostInput 0 0 false, by decide +kernel⟩,
    ⟨0, ((prt 4 open_).showRail 3 ⟨railBlk 3 2, 300000⟩ 3000).modPort 0 fun r => { r with chain := some ((chn.set 24 0).set 25 0x26) }, 0, 3, ⟨railBlk 3
      2, 300000⟩, by decide +kernel⟩,
    ⟨0, (prt 4 open_), by decide +kernel⟩,
    ⟨0, by decide +kernel⟩⟩

/-- Clauses 1.1, 1.2, 1.3, 1.4, 1.5.1, 1.5.2, 2.1, 2.2.1, 2.2.2, 2.2.3, 3.1. -/
theorem witness_TwinLinkCarriesItsFrames_1 :
(∃ (s : State), s.flag F.TWN_STATUS_link_up = false) ∧
(∃ (s : State), s.powered 25 = false) ∧
(∃ (s : State) (c : Instr), (c = Instr.twinLinkTimeout ∨ c = Instr.twinLinkTrained false ∧ s.powered 25 = true) ∧ s.flag F.TWN_STATUS_link_up = true) ∧
(∃ (s : State) (c : Instr), (c = Instr.twinLinkTimeout ∨ c = Instr.twinLinkTrained false ∧ s.powered 25 = true) ∧ s.flag F.TWN_STATUS_link_up = true) ∧
(∃ (s : State), s.powered 25 = true ∧ s.flag F.TWN_STATUS_link_up = true) ∧
(∃ (s : State), s.powered 25 = true ∧ s.flag F.TWN_STATUS_link_up = false ∧ s.flag F.KEY_STATUS_rng_ok = false) ∧
(∃ (s : State), s.powered 25 = true ∧ s.flag F.TWN_STATUS_link_up = false ∧ s.flag F.KEY_STATUS_rng_ok = true ∧ s.twn.queue = [] ∧ nth s.twn.laneFree
      s.twn.lane 0 ≤ s.linkNow) ∧
(∃ (f : List Byte) (s : State), s.powered 25 = false ∨ byteAt f 0 ≠ 1 ∨ (linkPayload f).length ≠ 28 ∨ s.twn.nonce = []) ∧
(∃ (f : List Byte) (s : State), s.powered 25 = true ∧ byteAt f 0 = 1 ∧ (linkPayload f).length = 28 ∧ s.twn.nonce ≠ [] ∧ s.twn.key ≠ none) ∧
(∃ (f : List Byte) (s : State) (k : List Byte) (u : State), s.powered 25 = true ∧ byteAt f 0 = 1 ∧ (linkPayload f).length = 28 ∧ s.twn.nonce ≠ [] ∧
      s.twn.key = none ∧ s.keyRequest 2 (s.fld F.TWN_CFG_key_slot) [1] [10] = (KeyAnswer.key k, u)) ∧
(∃ (f : List Byte) (s : State) (a : KeyAnswer) (u : State), s.powered 25 = true ∧ byteAt f 0 = 1 ∧ (linkPayload f).length = 28 ∧ s.twn.nonce ≠ [] ∧
      s.twn.key = none ∧ s.keyRequest 2 (s.fld F.TWN_CFG_key_slot) [1] [10] = (a, u) ∧ (a = KeyAnswer.refused ∨ a = KeyAnswer.memoryError)) ∧
(∃ (f : List Byte) (stamp far lines n : Nat) (c : Instr) (s : State), lines ≠ 1 ∧ (n, c) ∈ [(2, Instr.heartbeat f lines), (3, Instr.timecmp f stamp
      far), (4, Instr.decision f), (5, Instr.mirror f), (6, Instr.handoff f), (7, Instr.ack f), (8, Instr.digest f)] ∧ (s.twn.key = none ∨ s.powered
      25 = false ∨ byteAt f 0 ≠ n)) :=
  ⟨⟨lit, by decide +kernel⟩,
    ⟨lit.setReg Reg.BLW_DOM_ON 1, by decide +kernel⟩,
    ⟨twn 3 lit, .twinLinkTimeout, by decide +kernel⟩,
    ⟨twn 2 lit, .twinLinkTrained false, by decide +kernel⟩,
    ⟨twn 2 lit, by decide +kernel⟩,
    ⟨lit.lower F.KEY_STATUS_rng_ok, by decide +kernel⟩,
    ⟨(lit.setFld F.TWN_STATUS_role 2).raise F.KEY_STATUS_rng_ok, by decide +kernel⟩,
    ⟨([1, 1] ++ natLE 2 28 ++ natLE 8 1 ++ zeros 16 ++ natLE 2 0x4810 ++ [1, 2] ++ natLE 8 77), lit, by decide +kernel⟩,
    ⟨([1, 1] ++ natLE 2 28 ++ natLE 8 1 ++ zeros 16 ++ natLE 2 0x4810 ++ [1, 2] ++ natLE 8 77), (twn 3 lit).modTwn fun t => { t with nonce := zeros 16 },
      by decide +kernel⟩,
    ⟨([1, 1] ++ natLE 2 28 ++ natLE 8 1 ++ zeros 16 ++ natLE 2 0x4810 ++ [1, 2] ++ natLE 8 77), (((lit.setFld F.TWN_STATUS_role 3).setKeySlot 0
      { attr := 0x401, key := tkey }).modTwn fun t => { t with nonce := zeros 16, classes := [cls6] }), tkey, ((((lit.setFld F.TWN_STATUS_role
      3).setKeySlot 0 { attr := 0x401, key := tkey }).modTwn fun t => { t with nonce := zeros 16, classes := [cls6] }).keyRequest 2 0 [1] [10]).2, by
      decide +kernel⟩,
    ⟨([1, 1] ++ natLE 2 28 ++ natLE 8 1 ++ zeros 16 ++ natLE 2 0x4810 ++ [1, 2] ++ natLE 8 77), (lit.modTwn fun t => { t with nonce := zeros 16 }),
      .refused, ((lit.modTwn fun t => { t with nonce := zeros 16 }).keyRequest 2 0 [1] [10]).2, by decide +kernel⟩,
    ⟨(twf 2 5 ([2, 0, 3, 0, 0, 0, 1, 0, 9, 0, 0, 0, 0, 0, 0, 0])), 0, 0, 2, 2, .heartbeat (twf 2 5 ([2, 0, 3, 0, 0, 0, 1, 0, 9, 0, 0, 0, 0, 0, 0, 0])) 2,
      lit, by decide +kernel⟩⟩

/-- Clauses 3.2.1, 3.2.3, 3.2.2, 4.1, 4.2, 4.3, 4.4, 5, 6.2, 6.3. -/
theorem witness_TwinLinkCarriesItsFrames_2 :
(∃ (f : List Byte) (stamp far lines n : Nat) (c : Instr) (s : State) (key : List Byte), lines ≠ 1 ∧ (n, c) ∈ [(2, Instr.heartbeat f lines), (3,
      Instr.timecmp f stamp far), (4, Instr.decision f), (5, Instr.mirror f), (6, Instr.handoff f), (7, Instr.ack f), (8, Instr.digest f)] ∧ s.twn.key
      = some key ∧ s.powered 25 = true ∧ byteAt f 0 = n ∧ List.drop (12 + le f 2 2) f ≠ linkTag key (!s.slotB) (le f 4 8) (List.take (12 + le f 2 2)
      f)) ∧
(∃ (f : List Byte) (stamp far lines n : Nat) (c : Instr) (s : State) (key : List Byte), lines ≠ 1 ∧ (n, c) ∈ [(2, Instr.heartbeat f lines), (3,
      Instr.timecmp f stamp far), (4, Instr.decision f), (5, Instr.mirror f), (6, Instr.handoff f), (7, Instr.ack f), (8, Instr.digest f)] ∧ s.twn.key
      = some key ∧ s.powered 25 = true ∧ byteAt f 0 = n ∧ List.drop (12 + le f 2 2) f = linkTag key (!s.slotB) (le f 4 8) (List.take (12 + le f 2 2)
      f) ∧ s.twn.rxSeq < le f 4 8) ∧
(∃ (f : List Byte) (stamp far lines n : Nat) (c : Instr) (s : State) (key : List Byte), lines ≠ 1 ∧ (n, c) ∈ [(2, Instr.heartbeat f lines), (3,
      Instr.timecmp f stamp far), (4, Instr.decision f), (5, Instr.mirror f), (6, Instr.handoff f), (7, Instr.ack f), (8, Instr.digest f)] ∧ s.twn.key
      = some key ∧ s.powered 25 = true ∧ byteAt f 0 = n ∧ List.drop (12 + le f 2 2) f = linkTag key (!s.slotB) (le f 4 8) (List.take (12 + le f 2 2)
      f) ∧ le f 4 8 ≤ s.twn.rxSeq) ∧
(∃ (f : List Byte) (stamp far lines n : Nat) (c : Instr) (s : State) (key : List Byte), lines ≠ 1 ∧ (n, c) ∈ [(2, Instr.heartbeat f lines), (3,
      Instr.timecmp f stamp far), (4, Instr.decision f), (5, Instr.mirror f), (6, Instr.handoff f), (7, Instr.ack f), (8, Instr.digest f)] ∧ s.twn.key
      = some key ∧ s.powered 25 = true ∧ byteAt f 0 = n ∧ List.drop (12 + le f 2 2) f = linkTag key (!s.slotB) (le f 4 8) (List.take (12 + le f 2 2)
      f) ∧ s.twn.rxSeq < le f 4 8) ∧
(∃ (s : State), s.linkUp = false) ∧
(∃ (n : Nat) (s : State) (key : List Byte), n ≠ 1 ∧ s.linkReady n = true ∧ s.twn.key = some key) ∧
(∃ (s : State), s.linkUp = true ∧ s.linkNow < nth s.twn.laneFree 0 0 ∧ s.linkNow < nth s.twn.laneFree s.twn.lane 0) ∧
(∃ (s : State) (j : LinkJob), s.linkNext = some j ∧ ∀ (i : LinkJob), i ∈ s.twn.queue → i.cls < 16) ∧
(∃ (f b : List Byte) (lines : Nat) (s u : State), (if lines = 1 ∧ s.powered 25 = true then s.seePeerClaim 1 else s).linkAccept 2 f = (some b, u)) ∧
(∃ (s : State), s.isStandby = false ∨ s.linkUp = false) ∧
(∃ (s : State) (key : List Byte), s.isStandby = true ∧ s.linkReady 3 = true ∧ s.twn.key = some key) :=
  ⟨⟨((twf 4 5 (zeros 9)).set 30 0), 0, 0, 2, 4, .decision ((twf 4 5 (zeros 9)).set 30 0), twn 3 lit, tkey, by decide +kernel⟩,
    ⟨(twf 5 5 (zeros 9)), 0, 0, 2, 5, .mirror (twf 5 5 (zeros 9)), twn 3 lit, tkey, by decide +kernel⟩,
    ⟨(twf 6 4 (zeros 10)), 0, 0, 2, 6, .handoff (twf 6 4 (zeros 10)), twn 3 lit, tkey, by decide +kernel⟩,
    ⟨(twf 7 5 ([0])), 0, 0, 2, 7, .ack (twf 7 5 ([0])), twn 2 lit, tkey, by decide +kernel⟩,
    ⟨lit, by decide +kernel⟩,
    ⟨4, twn 2 lit, tkey, by decide +kernel⟩,
    ⟨(twn 2 lit).modTwn fun t => { t with laneFree := [9, 9] }, by decide +kernel⟩,
    ⟨((twn 2 lit).modTwn fun t =>
      { t with laneFree := [9, 9], queue := [{ level := 4, cls := 3, work := .age none 0 }, { level := 2, work := .frame 4 [] }] }),
      { level := 2, work := .frame 4 [] }, by decide +kernel⟩,
    ⟨(twf 2 5 ([2, 0, 3, 0, 0, 0, 1, 0, 9, 0, 0, 0, 0, 0, 0, 0])), [2, 0, 3, 0, 0, 0, 1, 0, 9, 0, 0, 0, 0, 0, 0, 0], 0, twn 3 lit, ((twn 3 lit).linkAccept
      2 (twf 2 5 ([2, 0, 3, 0, 0, 0, 1, 0, 9, 0, 0, 0, 0, 0, 0, 0]))).2, by decide +kernel⟩,
    ⟨twn 2 lit, by decide +kernel⟩,
    ⟨twn 3 (lit.setWall 123456), tkey, by decide +kernel⟩⟩

/-- Clauses 7.1, 7.2, 7.3, 7.4, 8.1. -/
theorem witness_TwinLinkCarriesItsFrames_3 :
(∃ (f b : List Byte) (s u : State), s.linkAccept 3 f = (some b, u) ∧ byteAt b 0 = 0 ∧ u.isActive = true) ∧
(∃ (f b : List Byte) (s u : State), s.linkAccept 3 f = (some b, u) ∧ byteAt b 0 = 0 ∧ u.isActive = false) ∧
(∃ (f b : List Byte) (s u : State), s.linkAccept 3 f = (some b, u) ∧ byteAt b 0 ≠ 0 ∧ (u.isStandby = false ∨ u.twn.sentAt = none ∨ u.fromShort (le b
      16 8) = none)) ∧
(∃ (f b : List Byte) (s u : State) (t1 t2 : Nat), s.linkAccept 3 f = (some b, u) ∧ byteAt b 0 ≠ 0 ∧ u.isStandby = true ∧ u.twn.sentAt = some t1 ∧
      u.fromShort (le b 16 8) = some t2) ∧
(∃ (f b : List Byte) (s u : State), s.linkAccept 4 f = (some b, u) ∧ u.isStandby = false) :=
  ⟨⟨(twf 3 5 (zeros 24)), zeros 24, twn 2 lit, ((twn 2 lit).linkAccept 3 (twf 3 5 (zeros 24))).2, by decide +kernel⟩,
    ⟨(twf 3 5 (zeros 24)), zeros 24, twn 3 lit, ((twn 3 lit).linkAccept 3 (twf 3 5 (zeros 24))).2, by decide +kernel⟩,
    ⟨(twf 3 5 ([1] ++ zeros 23)), [1] ++ zeros 23, twn 3 lit, ((twn 3 lit).linkAccept 3 (twf 3 5 ([1] ++ zeros 23))).2, by decide +kernel⟩,
    ⟨(twf 3 5 ([1] ++ zeros 15 ++ natLE 8 65536)), [1] ++ zeros 15 ++ natLE 8 65536, ((twn 3 lit).modTwn fun t => { t with sentAt := some 1024 }), (((twn
      3 lit).modTwn fun t => { t with sentAt := some 1024 }).linkAccept 3 (twf 3 5 ([1] ++ zeros 15 ++ natLE 8 65536))).2, 1024, 65536, by
      decide +kernel⟩,
    ⟨(twf 4 5 (natLE 8 7 ++ [0])), natLE 8 7 ++ [0], twn 2 lit, ((twn 2 lit).linkAccept 4 (twf 4 5 (natLE 8 7 ++ [0]))).2, by decide +kernel⟩⟩

/-- Clauses 8.2, 8.3, 9.1, 9.2.1, 9.2.2, 10.1, 10.2.1, 10.2.2. -/
theorem witness_TwinLinkCarriesItsFrames_4 :
(∃ (f b : List Byte) (s u : State) (own : Nat), s.linkAccept 4 f = (some b, u) ∧ u.isStandby = true ∧ u.decision (le b 0 8) = some own) ∧
(∃ (f b : List Byte) (s u : State) (g : Grid), s.linkAccept 4 f = (some b, u) ∧ u.isStandby = true ∧ u.decision (le b 0 8) = none ∧ u.grid = some g ∧
      (byteAt b 8 ≠ 0 ∨ u.frameComplete g (le b 0 8) = true ∧ 0 ≤ u.till g (g.dNum (le b 0 8) + (↑(10000 * ns * g.p) : Int)))) ∧
(∃ (s : State), s.grid = none) ∧
(∃ (k : Nat) (s : State) (g : Grid) (u : State), s.grid = some g ∧ u = s.reach (g.wallUp (g.dNum k) + 10000 * ns) ∧ (u.isStandby = false ∨ (u.decision
      k).isSome = true ∨ u.anyStarted = false ∨ u.passedOver g k = true)) ∧
(∃ (k : Nat) (s : State) (g : Grid) (u : State), s.grid = some g ∧ u = s.reach (g.wallUp (g.dNum k) + 10000 * ns) ∧ u.isStandby = true ∧ u.decision k
      = none ∧ u.anyStarted = true ∧ u.passedOver g k = false) ∧
(∃ (f b : List Byte) (s u : State), s.linkAccept 8 f = (some b, u) ∧ List.find? (fun (x : Nat × Nat) => x.fst == le b 0 8) u.twn.ageCrc = none) ∧
(∃ (f b : List Byte) (s u : State) (x : Nat × Nat), s.linkAccept 8 f = (some b, u) ∧ List.find? (fun (x : Nat × Nat) => x.fst == le b 0 8)
      u.twn.ageCrc = some x ∧ x.snd = le b 8 8) ∧
(∃ (f b : List Byte) (s u : State) (x : Nat × Nat), s.linkAccept 8 f = (some b, u) ∧ List.find? (fun (x : Nat × Nat) => x.fst == le b 0 8)
      u.twn.ageCrc = some x ∧ x.snd ≠ le b 8 8 ∧ u.isStandby = true) :=
  ⟨⟨(twf 4 5 (natLE 8 7 ++ [0])), natLE 8 7 ++ [0], ((twn 3 (lit.setReg Reg.TWN_CLASS_STALE 1)).modAnv fun a => { a with decisions := [(7, 1)] }), (((twn
      3 (lit.setReg Reg.TWN_CLASS_STALE 1)).modAnv fun a => { a with decisions := [(7, 1)] }).linkAccept 4 (twf 4 5 (natLE 8 7 ++ [0]))).2, 1, by
      decide +kernel⟩,
    ⟨(twf 4 5 (natLE 8 7 ++ [2])), natLE 8 7 ++ [2], twn 3 (fill open_), ((twn 3 (fill open_)).linkAccept 4 (twf 4 5 (natLE 8 7 ++ [2]))).2, gridOf (cvs
      1) gry, by decide +kernel⟩,
    ⟨lit, by decide +kernel⟩,
    ⟨7, fill open_, gridOf (cvs 1) gry, ((fill open_).reach ((gridOf (cvs 1) gry).wallUp ((gridOf (cvs 1) gry).dNum 7) + 10000 * ns)), by decide +kernel⟩,
    ⟨7, (fill open_).setFld F.TWN_STATUS_role 3, gridOf (cvs 1) gry, (((fill open_).setFld F.TWN_STATUS_role 3).reach ((gridOf (cvs 1) gry).wallUp
      ((gridOf (cvs 1) gry).dNum 7) + 10000 * ns)), by decide +kernel⟩,
    ⟨(twf 8 5 (natLE 8 7 ++ natLE 8 1)), natLE 8 7 ++ natLE 8 1, twn 2 lit, ((twn 2 lit).linkAccept 8 (twf 8 5 (natLE 8 7 ++ natLE 8 1))).2, by
      decide +kernel⟩,
    ⟨(twf 8 5 (natLE 8 7 ++ natLE 8 1)), natLE 8 7 ++ natLE 8 1, ((twn 3 lit).modTwn fun t => { t with ageCrc := [(7, 1)] }), (((twn 3 lit).modTwn fun t
      => { t with ageCrc := [(7, 1)] }).linkAccept 8 (twf 8 5 (natLE 8 7 ++ natLE 8 1))).2, (7, 1), by decide +kernel⟩,
    ⟨(twf 8 5 (natLE 8 7 ++ natLE 8 2)), natLE 8 7 ++ natLE 8 2, ((twn 3 lit).modTwn fun t => { t with ageCrc := [(7, 1)] }), (((twn 3 lit).modTwn fun t
      => { t with ageCrc := [(7, 1)] }).linkAccept 8 (twf 8 5 (natLE 8 7 ++ natLE 8 2))).2, (7, 1), by decide +kernel⟩⟩

/-- Clauses 10.2.3, 10.2.4, 11.1, 11.2.1. -/
theorem witness_TwinLinkCarriesItsFrames_5 :
(∃ (f b : List Byte) (s u : State) (x : Nat × Nat), s.linkAccept 8 f = (some b, u) ∧ List.find? (fun (x : Nat × Nat) => x.fst == le b 0 8)
      u.twn.ageCrc = some x ∧ x.snd ≠ le b 8 8 ∧ u.isStandby = false ∧ u.isActive = true) ∧
(∃ (f b : List Byte) (s u : State) (x : Nat × Nat), s.linkAccept 8 f = (some b, u) ∧ List.find? (fun (x : Nat × Nat) => x.fst == le b 0 8)
      u.twn.ageCrc = some x ∧ x.snd ≠ le b 8 8 ∧ u.isStandby = false ∧ u.isActive = false) ∧
(∃ (f b data : List Byte) (cls off : Nat) (s u : State), s.linkAccept 5 f = (some b, u) ∧ cls = byteAt b 0 ∧ off = le b 4 4 ∧ data = List.drop 8 b ∧
      u.isStandby = false ∧ off ≠ aboutClass) ∧
(∃ (f b data : List Byte) (cls off : Nat) (s u : State), s.linkAccept 5 f = (some b, u) ∧ cls = byteAt b 0 ∧ off = le b 4 4 ∧ data = List.drop 8 b ∧
      u.isStandby = true ∧ off ≠ aboutClass ∧ cls = 1) :=
  ⟨⟨(twf 8 5 (natLE 8 7 ++ natLE 8 2)), natLE 8 7 ++ natLE 8 2, ((twn 2 lit).modTwn fun t => { t with ageCrc := [(7, 1)] }), (((twn 2 lit).modTwn fun t
      => { t with ageCrc := [(7, 1)] }).linkAccept 8 (twf 8 5 (natLE 8 7 ++ natLE 8 2))).2, (7, 1), by decide +kernel⟩,
    ⟨(twf 8 5 (natLE 8 7 ++ natLE 8 2)), natLE 8 7 ++ natLE 8 2, ((twn 1 lit).modTwn fun t => { t with ageCrc := [(7, 1)] }), (((twn 1 lit).modTwn fun t
      => { t with ageCrc := [(7, 1)] }).linkAccept 8 (twf 8 5 (natLE 8 7 ++ natLE 8 2))).2, (7, 1), by decide +kernel⟩,
    ⟨(twf 5 5 (mirrorBytes 1 0 (zeros 16))), mirrorBytes 1 0 (zeros 16), (zeros 16), 1, 0, twn 2 lit, ((twn 2 lit).linkAccept 5 (twf 5 5 (mirrorBytes 1 0
      (zeros 16)))).2, by decide +kernel⟩,
    ⟨(twf 5 5 (mirrorBytes 1 0 (natLE 4 9 ++ natLE 4 8 ++ natLE 8 7))), mirrorBytes 1 0 (natLE 4 9 ++ natLE 4 8 ++ natLE 8 7), (natLE 4 9 ++ natLE 4 8 ++
      natLE 8 7), 1, 0, twn 3 lit, ((twn 3 lit).linkAccept 5 (twf 5 5 (mirrorBytes 1 0 (natLE 4 9 ++ natLE 4 8 ++ natLE 8 7)))).2, by decide +kernel⟩⟩

/-- Clauses 11.2.2, 11.2.3, 11.2.4, 11.2.5. -/
theorem witness_TwinLinkCarriesItsFrames_6 :
(∃ (f b data : List Byte) (cls off : Nat) (s u : State) (p : Nat), s.linkAccept 5 f = (some b, u) ∧ cls = byteAt b 0 ∧ off = le b 4 4 ∧ data =
      List.drop 8 b ∧ u.isStandby = true ∧ off ≠ aboutClass ∧ cls = 2 ∧ off = 8192 * p ∧ p < 64) ∧
(∃ (f b data : List Byte) (cls off : Nat) (s u : State) (x : TemperSet), s.linkAccept 5 f = (some b, u) ∧ cls = byteAt b 0 ∧ off = le b 4 4 ∧ data =
      List.drop 8 b ∧ u.isStandby = true ∧ off ≠ aboutClass ∧ cls = 3 ∧ u.anv.temper = some x ∧ data.length = 28) ∧
(∃ (f b data : List Byte) (cls off : Nat) (s u : State), s.linkAccept 5 f = (some b, u) ∧ cls = byteAt b 0 ∧ off = le b 4 4 ∧ data = List.drop 8 b ∧
      u.isStandby = true ∧ off ≠ aboutClass ∧ cls = 4 ∧ off + data.length ≤ 1572864) ∧
(∃ (f b data : List Byte) (cls off : Nat) (s u : State), s.linkAccept 5 f = (some b, u) ∧ cls = byteAt b 0 ∧ off = le b 4 4 ∧ data = List.drop 8 b ∧
      u.isStandby = true ∧ off ≠ aboutClass ∧ 5 ≤ cls ∧ u.regionOf cls = none) :=
  ⟨⟨(twf 5 5 (mirrorBytes 2 0 ([4, 1] ++ natLE 2 1 ++ natLE 4 200 ++ zeros 16 ++ natLE 2 0xD016 ++ zeros 10))), mirrorBytes 2 0 ([4, 1] ++ natLE 2 1 ++
      natLE 4 200 ++ zeros 16 ++ natLE 2 0xD016 ++ zeros 10), ([4, 1] ++ natLE 2 1 ++ natLE 4 200 ++ zeros 16 ++ natLE 2 0xD016 ++ zeros 10), 2, 0,
      twn 3 lit, ((twn 3 lit).linkAccept 5 (twf 5 5 (mirrorBytes 2 0 ([4, 1] ++ natLE 2 1 ++ natLE 4 200 ++ zeros 16 ++ natLE 2 0xD016 ++ zeros
      10)))).2, 0, by decide +kernel⟩,
    ⟨(twf 5 5 (mirrorBytes 3 80 (natLE 4 5 ++ List.replicate 12 7 ++ natLE 4 9 ++ natLE 8 3))), mirrorBytes 3 80 (natLE 4 5 ++ List.replicate 12 7 ++
      natLE 4 9 ++ natLE 8 3), (natLE 4 5 ++ List.replicate 12 7 ++ natLE 4 9 ++ natLE 8 3), 3, 80, twn 3 (anv open_), ((twn 3 (anv open_)).linkAccept
      5 (twf 5 5 (mirrorBytes 3 80 (natLE 4 5 ++ List.replicate 12 7 ++ natLE 4 9 ++ natLE 8 3)))).2, tmp, by decide +kernel⟩,
    ⟨(twf 5 5 (mirrorBytes 4 8 ([1, 2]))), mirrorBytes 4 8 ([1, 2]), ([1, 2]), 4, 8, twn 3 open_, ((twn 3 open_).linkAccept 5 (twf 5 5 (mirrorBytes 4 8
      ([1, 2])))).2, by decide +kernel⟩,
    ⟨(twf 5 5 (mirrorBytes 7 8 ([1, 2]))), mirrorBytes 7 8 ([1, 2]), ([1, 2]), 7, 8, twn 3 open_, ((twn 3 open_).linkAccept 5 (twf 5 5 (mirrorBytes 7 8
      ([1, 2])))).2, by decide +kernel⟩⟩

/-- Clauses 11.2.6.1, 11.2.6.2, 11.2.6.3, 11.3.1. -/
theorem witness_TwinLinkCarriesItsFrames_7 :
(∃ (f b data : List Byte) (cls off : Nat) (s u : State) (c : TwinClass), s.linkAccept 5 f = (some b, u) ∧ cls = byteAt b 0 ∧ off = le b 4 4 ∧ data =
      List.drop 8 b ∧ u.isStandby = true ∧ off ≠ aboutClass ∧ 5 ≤ cls ∧ u.regionOf cls = some c ∧ off + data.length < c.size) ∧
(∃ (f b data : List Byte) (cls off : Nat) (s u : State) (c : TwinClass), s.linkAccept 5 f = (some b, u) ∧ cls = byteAt b 0 ∧ off = le b 4 4 ∧ data =
      List.drop 8 b ∧ u.isStandby = true ∧ off ≠ aboutClass ∧ 5 ≤ cls ∧ u.regionOf cls = some c ∧ c.size < off + data.length) ∧
(∃ (f b data : List Byte) (cls off : Nat) (s u : State) (c : TwinClass), s.linkAccept 5 f = (some b, u) ∧ cls = byteAt b 0 ∧ off = le b 4 4 ∧ data =
      List.drop 8 b ∧ u.isStandby = true ∧ off ≠ aboutClass ∧ 5 ≤ cls ∧ u.regionOf cls = some c ∧ off + data.length = c.size) ∧
(∃ (f b data : List Byte) (cls off : Nat) (s u : State), s.linkAccept 5 f = (some b, u) ∧ cls = byteAt b 0 ∧ off = le b 4 4 ∧ data = List.drop 8 b ∧
      off = aboutClass ∧ byteAt data 0 = 0 ∧ u.isActive = true) :=
  ⟨⟨(twf 5 5 (mirrorBytes 7 8 ([1, 2]))), mirrorBytes 7 8 ([1, 2]), ([1, 2]), 7, 8, (twn 3 open_).modTwn fun t =>
      { t with classes := [cls6], peerTags := [(7, 9)], joining := [6] }, (((twn 3 open_).modTwn fun t =>
      { t with classes := [cls6], peerTags := [(7, 9)], joining := [6] }).linkAccept 5 (twf 5 5 (mirrorBytes 7 8 ([1, 2])))).2, cls6, by
      decide +kernel⟩,
    ⟨(twf 5 5 (mirrorBytes 7 63 ([1, 2]))), mirrorBytes 7 63 ([1, 2]), ([1, 2]), 7, 63, (twn 3 open_).modTwn fun t =>
      { t with classes := [cls6], peerTags := [(7, 9)], joining := [6] }, (((twn 3 open_).modTwn fun t =>
      { t with classes := [cls6], peerTags := [(7, 9)], joining := [6] }).linkAccept 5 (twf 5 5 (mirrorBytes 7 63 ([1, 2])))).2, cls6, by
      decide +kernel⟩,
    ⟨(twf 5 5 (mirrorBytes 7 60 ([1, 2, 3, 4]))), mirrorBytes 7 60 ([1, 2, 3, 4]), ([1, 2, 3, 4]), 7, 60, (twn 3 open_).modTwn fun t =>
      { t with classes := [cls6], peerTags := [(7, 9)], joining := [6] }, (((twn 3 open_).modTwn fun t =>
      { t with classes := [cls6], peerTags := [(7, 9)], joining := [6] }).linkAccept 5 (twf 5 5 (mirrorBytes 7 60 ([1, 2, 3, 4])))).2, cls6, by
      decide +kernel⟩,
    ⟨(twf 5 5 (mirrorBytes 7 aboutClass ([0]))), mirrorBytes 7 aboutClass ([0]), ([0]), 7, aboutClass, (twn 2 open_).modTwn fun t =>
      { t with classes := [cls6], peerTags := [(7, 9)] }, (((twn 2 open_).modTwn fun t =>
      { t with classes := [cls6], peerTags := [(7, 9)] }).linkAccept 5 (twf 5 5 (mirrorBytes 7 aboutClass ([0])))).2, by decide +kernel⟩⟩

/-- Clauses 11.3.2, 11.3.3, 11.3.4, 11.3.5. -/
theorem witness_TwinLinkCarriesItsFrames_8 :
(∃ (f b data : List Byte) (cls off : Nat) (s u : State), s.linkAccept 5 f = (some b, u) ∧ cls = byteAt b 0 ∧ off = le b 4 4 ∧ data = List.drop 8 b ∧
      off = aboutClass ∧ byteAt data 0 = 0 ∧ u.isActive = false) ∧
(∃ (f b data : List Byte) (cls off : Nat) (s u : State), s.linkAccept 5 f = (some b, u) ∧ cls = byteAt b 0 ∧ off = le b 4 4 ∧ data = List.drop 8 b ∧
      off = aboutClass ∧ byteAt data 0 = 1 ∧ List.drop 1 data ≠ []) ∧
(∃ (f b data : List Byte) (cls off : Nat) (s u : State), s.linkAccept 5 f = (some b, u) ∧ cls = byteAt b 0 ∧ off = le b 4 4 ∧ data = List.drop 8 b ∧
      off = aboutClass ∧ byteAt data 0 = 1 ∧ List.drop 1 data = []) ∧
(∃ (f b data : List Byte) (cls off : Nat) (s u : State), s.linkAccept 5 f = (some b, u) ∧ cls = byteAt b 0 ∧ off = le b 4 4 ∧ data = List.drop 8 b ∧
      off = aboutClass ∧ byteAt data 0 = 5) :=
  ⟨⟨(twf 5 5 (mirrorBytes 7 aboutClass ([0]))), mirrorBytes 7 aboutClass ([0]), ([0]), 7, aboutClass, (twn 3 open_).modTwn fun t =>
      { t with classes := [cls6], peerTags := [(7, 9)], joining := [6] }, (((twn 3 open_).modTwn fun t =>
      { t with classes := [cls6], peerTags := [(7, 9)], joining := [6] }).linkAccept 5 (twf 5 5 (mirrorBytes 7 aboutClass ([0])))).2, by
      decide +kernel⟩,
    ⟨(twf 5 5 (mirrorBytes 7 aboutClass ([1, 9, 0]))), mirrorBytes 7 aboutClass ([1, 9, 0]), ([1, 9, 0]), 7, aboutClass, (twn 3 open_).modTwn fun t =>
      { t with classes := [cls6], peerTags := [(7, 9)], joining := [6] }, (((twn 3 open_).modTwn fun t =>
      { t with classes := [cls6], peerTags := [(7, 9)], joining := [6] }).linkAccept 5 (twf 5 5 (mirrorBytes 7 aboutClass ([1, 9, 0])))).2, by
      decide +kernel⟩,
    ⟨(twf 5 5 (mirrorBytes 7 aboutClass ([1]))), mirrorBytes 7 aboutClass ([1]), ([1]), 7, aboutClass, (twn 3 open_).modTwn fun t =>
      { t with classes := [cls6], peerTags := [(7, 9)], joining := [6] }, (((twn 3 open_).modTwn fun t =>
      { t with classes := [cls6], peerTags := [(7, 9)], joining := [6] }).linkAccept 5 (twf 5 5 (mirrorBytes 7 aboutClass ([1])))).2, by
      decide +kernel⟩,
    ⟨(twf 5 5 (mirrorBytes 8 aboutClass ([5, 9, 0]))), mirrorBytes 8 aboutClass ([5, 9, 0]), ([5, 9, 0]), 8, aboutClass, (twn 3 open_).modTwn fun t =>
      { t with classes := [cls6], peerTags := [(7, 9)], joining := [6] }, (((twn 3 open_).modTwn fun t =>
      { t with classes := [cls6], peerTags := [(7, 9)], joining := [6] }).linkAccept 5 (twf 5 5 (mirrorBytes 8 aboutClass ([5, 9, 0])))).2, by
      decide +kernel⟩⟩

/-- Clauses 11.3.6, 11.3.9, 12.1, 12.2.1, 12.2.2, 12.2.3, 12.3, 12.4, 12.5, 12.6. -/
theorem witness_TwinLinkCarriesItsFrames_9 :
(∃ (f b data : List Byte) (cls off : Nat) (s u : State), s.linkAccept 5 f = (some b, u) ∧ cls = byteAt b 0 ∧ off = le b 4 4 ∧ data = List.drop 8 b ∧
      off = aboutClass ∧ byteAt data 0 = 2 ∧ u.isStandby = true ∧ byteAt data 1 = 1) ∧
(∃ (f b data : List Byte) (cls off : Nat) (s u : State), s.linkAccept 5 f = (some b, u) ∧ cls = byteAt b 0 ∧ off = le b 4 4 ∧ data = List.drop 8 b ∧
      off = aboutClass ∧ byteAt data 0 = 4 ∧ u.isStandby = true) ∧
(∃ (cls : Nat) (s : State), List.find? (fun (c : TwinClass) => c.cls == cls) s.twn.classes = none ∨ s.isActive = false ∨ s.linkUp = false) ∧
(∃ (cls : Nat) (s : State) (c : TwinClass), List.find? (fun (c : TwinClass) => c.cls == cls) s.twn.classes = some c ∧ s.isActive = true ∧ s.linkUp =
      true ∧ s.peerHas c.tag = false) ∧
(∃ (cls : Nat) (s : State) (c : TwinClass), List.find? (fun (c : TwinClass) => c.cls == cls) s.twn.classes = some c ∧ s.isActive = true ∧ s.linkUp =
      true ∧ s.peerHas c.tag = true) ∧
(∃ (cls : Nat) (s : State) (c : TwinClass) (bs : List Byte), List.find? (fun (c : TwinClass) => c.cls == cls) s.twn.classes = some c ∧ s.isActive =
      true ∧ s.linkUp = true ∧ s.peerHas c.tag = true ∧ s.linkReady 5 = true ∧ s.levelFree 5 = true ∧ cls < 16 ∧ c.size ≤ 2040 ∧ (s.readMem 14 c.base
      c.size).fst = MemAnswer.data bs) ∧
(∃ (cls : Nat) (s : State), s.isStandby = false ∨ 16 ≤ cls) ∧
(∃ (cls : Nat) (s : State), s.isStandby = true ∧ cls < 16) ∧
(∃ (s : State), s.isActive = false ∨ s.linkUp = false) ∧
(∃ (s : State), s.isActive = true ∧ s.linkUp = true) :=
  ⟨⟨(twf 5 5 (mirrorBytes 3 aboutClass ([2, 1] ++ zeros 8))), mirrorBytes 3 aboutClass ([2, 1] ++ zeros 8), ([2, 1] ++ zeros 8), 3, aboutClass, ((twn 3
      open_).setReg Reg.TWN_CLASS_STALE 8).modTwn fun t => { t with joining := [3, 4], recopy := [5] }, ((((twn 3 open_).setReg Reg.TWN_CLASS_STALE
      8).modTwn fun t => { t with joining := [3, 4], recopy := [5] }).linkAccept 5 (twf 5 5 (mirrorBytes 3 aboutClass ([2, 1] ++ zeros 8)))).2, by
      decide +kernel⟩,
    ⟨(twf 5 5 (mirrorBytes 4 aboutClass ([4, 1, 1, 3] ++ natLE 4 5 ++ natLE 4 40))), mirrorBytes 4 aboutClass ([4, 1, 1, 3] ++ natLE 4 5 ++ natLE 4 40),
      ([4, 1, 1, 3] ++ natLE 4 5 ++ natLE 4 40), 4, aboutClass, twn 3 open_, ((twn 3 open_).linkAccept 5 (twf 5 5 (mirrorBytes 4 aboutClass ([4, 1, 1,
      3] ++ natLE 4 5 ++ natLE 4 40)))).2, by decide +kernel⟩,
    ⟨6, lit, by decide +kernel⟩,
    ⟨6, ((twn 2 open_).modTwn fun t => { t with classes := [cls6] }), cls6, by decide +kernel⟩,
    ⟨6, (twn 2 open_).modTwn fun t => { t with classes := [cls6], peerTags := [(7, 9)] }, cls6, by decide +kernel⟩,
    ⟨6, (twn 2 open_).modTwn fun t => { t with classes := [cls6], peerTags := [(7, 9)] }, cls6, zeros 64, by decide +kernel⟩,
    ⟨6, lit, by decide +kernel⟩,
    ⟨15, twn 3 lit, by decide +kernel⟩,
    ⟨lit, by decide +kernel⟩,
    ⟨twn 2 lit, by decide +kernel⟩⟩

/-- Clauses 1.1, 1.2.1, 1.4, 1.5, 1.6, 2.1, 2.2, 2.3.1, 2.3.2, 2.4, 2.5, 2.6. -/
theorem witness_OwnershipIsClaimedAndHandedOver_1 :
(∃ (s : State), s.powered 25 = false) ∧
(∃ (s : State), s.powered 25 = true) ∧
(∃ (s : State), s.fld F.TWN_CFG_wdog_ms = 0) ∧
(∃ (s : State), s.fld F.TWN_CFG_wdog_ms ≠ 0) ∧
(∃ (s : State) (ini : Nat) (w : Word), s.reaches ini Reg.TWN_WDOG = true ∧ fieldOf F.TWN_WDOG_kick w = 1) ∧
(∃ (s : State), ¬(s.role = 1 ∧ s.healthy = true ∧ s.powered 25 = true)) ∧
(∃ (s : State), s.role = 1 ∧ s.healthy = true ∧ s.powered 25 = true) ∧
(∃ (peer : Nat) (s : State), (s.role = 1 ∨ s.role = 3) ∧ s.flag F.TWN_STATUS_own_claim = true ∧ s.twn.drive = false ∧ s.healthy = true ∧ peer ≠ 0 ∧
      s.slotB = true) ∧
(∃ (peer : Nat) (s : State), (s.role = 1 ∨ s.role = 3) ∧ s.flag F.TWN_STATUS_own_claim = true ∧ s.twn.drive = false ∧ s.healthy = true ∧ (peer = 0 ∨
      s.slotB = false)) ∧
(∃ (s : State), s.flag F.TWN_STATUS_own_claim = false ∨ s.twn.drive = true ∨ s.healthy = false ∨ s.role ≠ 1 ∧ s.role ≠ 3) ∧
(∃ (peer : Nat) (s : State), peer ≠ 0 ∨ s.healthy = false ∨ s.flag F.TWN_STATUS_own_claim = true ∨ s.role ≠ 1 ∧ s.role ≠ 3 ∨ s.role = 3 ∧
      s.twn.lostSynced = false ∧ s.flag F.TWN_CFG_takeover_unsync = false) ∧
(∃ (peer : Nat) (s : State), (s.role = 1 ∨ s.role = 3 ∧ (s.twn.lostSynced = true ∨ s.flag F.TWN_CFG_takeover_unsync = true)) ∧ s.powered 25 = true ∧
      s.healthy = true ∧ peer = 0 ∧ s.flag F.TWN_STATUS_own_claim = false ∧ s.twn.takeover = none) :=
  ⟨⟨lit.setReg Reg.BLW_DOM_ON 1, by decide +kernel⟩,
    ⟨own 3, by decide +kernel⟩,
    ⟨own 2, by decide +kernel⟩,
    ⟨(own 2).setFld F.TWN_CFG_wdog_ms 5, by decide +kernel⟩,
    ⟨(own 2).modTwn fun t => { t with wdogOut := true }, 0, 1, by decide +kernel⟩,
    ⟨own 3, by decide +kernel⟩,
    ⟨own 1, by decide +kernel⟩,
    ⟨1, ((own 1).raise F.TWN_STATUS_own_claim).raise F.TWN_CFG_slot_b, by decide +kernel⟩,
    ⟨1, (own 1).raise F.TWN_STATUS_own_claim, by decide +kernel⟩,
    ⟨own 1, by decide +kernel⟩,
    ⟨1, own 1, by decide +kernel⟩,
    ⟨0, own 1, by decide +kernel⟩⟩

/-- Clauses 3.1, 3.2.1, 3.2.2, 4.1.1, 4.1.2.1, 4.1.2.2, 4.1.2.3, 4.1.2.4, 4.1.2.5, 4.2.1, 4.2.2.1, 4.2.2.2. -/
theorem witness_OwnershipIsClaimedAndHandedOver_2 :
(∃ (s : State), s.twn.takeover = none) ∧
(∃ (peer : Nat) (s : State) (k j : Nat), s.twn.takeover = some (k, j) ∧ (s.healthy = false ∨ peer ≠ 0)) ∧
(∃ (peer : Nat) (s : State) (k j : Nat), s.twn.takeover = some (k, j) ∧ s.healthy = true ∧ peer = 0) ∧
(∃ (s v : State) (slot : Nat) (desc : List Byte), s.taken 128 = some (slot, desc, v) ∧ byteAt desc 0 = 1 ∧ (v.twn.handOut ≠ none ∨ v.twn.handIn ≠ none
      ∨ v.twn.takeover ≠ none ∨ v.twn.passSlot ≠ none)) ∧
(∃ (s v : State) (slot : Nat) (desc : List Byte), s.taken 128 = some (slot, desc, v) ∧ byteAt desc 0 = 1 ∧ v.twn.handOut = none ∧ v.twn.handIn = none
      ∧ v.twn.takeover = none ∧ v.twn.passSlot = none ∧ v.isActive = true ∧ v.peerSynced = true) ∧
(∃ (s v : State) (slot : Nat) (desc : List Byte), s.taken 128 = some (slot, desc, v) ∧ byteAt desc 0 = 1 ∧ v.twn.handOut = none ∧ v.twn.handIn = none
      ∧ v.twn.takeover = none ∧ v.twn.passSlot = none ∧ v.isActive = true ∧ v.peerSynced = false) ∧
(∃ (s v : State) (slot : Nat) (desc : List Byte), s.taken 128 = some (slot, desc, v) ∧ byteAt desc 0 = 1 ∧ v.twn.handOut = none ∧ v.twn.handIn = none
      ∧ v.twn.takeover = none ∧ v.twn.passSlot = none ∧ v.isActive = false ∧ v.isStandby = true ∧ v.flag F.TWN_STATUS_synced = true) ∧
(∃ (s v : State) (slot : Nat) (desc : List Byte), s.taken 128 = some (slot, desc, v) ∧ byteAt desc 0 = 1 ∧ v.twn.handOut = none ∧ v.twn.handIn = none
      ∧ v.twn.takeover = none ∧ v.twn.passSlot = none ∧ v.isActive = false ∧ v.isStandby = true ∧ v.flag F.TWN_STATUS_synced = false) ∧
(∃ (s v : State) (slot : Nat) (desc : List Byte), s.taken 128 = some (slot, desc, v) ∧ byteAt desc 0 = 1 ∧ v.twn.handOut = none ∧ v.twn.handIn = none
      ∧ v.twn.takeover = none ∧ v.twn.passSlot = none ∧ v.isActive = false ∧ v.isStandby = false) ∧
(∃ (s v : State) (slot : Nat) (desc : List Byte), s.taken 128 = some (slot, desc, v) ∧ byteAt desc 0 = 3 ∧ (byteAt desc 1 < 5 ∨ 15 < byteAt desc 1)) ∧
(∃ (s v : State) (slot : Nat) (desc : List Byte), s.taken 128 = some (slot, desc, v) ∧ byteAt desc 0 = 3 ∧ 5 ≤ byteAt desc 1 ∧ byteAt desc 1 ≤ 15 ∧
      (v.regN Reg.TWN_CLASS_REG).testBit (byteAt desc 1) = false) ∧
(∃ (s v : State) (slot : Nat) (desc : List Byte), s.taken 128 = some (slot, desc, v) ∧ byteAt desc 0 = 3 ∧ 5 ≤ byteAt desc 1 ∧ byteAt desc 1 ≤ 15 ∧
      (v.regN Reg.TWN_CLASS_REG).testBit (byteAt desc 1) = true) :=
  ⟨⟨lit, by decide +kernel⟩,
    ⟨0, lit.modTwn fun t => { t with takeover := some (7, 2) }, 7, 2, by decide +kernel⟩,
    ⟨0, ((anv (own 3)).modTwn fun t => { t with takeover := some (7, 2) }), 7, 2, by decide +kernel⟩,
    ⟨((tr [1] ([])).modTwn fun t => { t with takeover := some (7, 2) }), (tk 0x80 ((tr [1] ([])).modTwn fun t => { t with takeover := some (7, 2) })), 0,
      [1] ++ zeros 31, by decide +kernel⟩,
    ⟨((twn 2 (tr [1] ([]))).modTwn fun t => { t with peer := some { role := 3 } }), (tk 0x80 ((twn 2 (tr [1] ([]))).modTwn fun t =>
      { t with peer := some { role := 3 } })), 0, [1] ++ zeros 31, by decide +kernel⟩,
    ⟨((twn 2 (tr [1] ([])))), (tk 0x80 ((twn 2 (tr [1] ([]))))), 0, [1] ++ zeros 31, by decide +kernel⟩,
    ⟨((twn 3 (tr [1] ([]))).raise F.TWN_STATUS_synced), (tk 0x80 ((twn 3 (tr [1] ([]))).raise F.TWN_STATUS_synced)), 0, [1] ++ zeros 31, by
      decide +kernel⟩,
    ⟨((twn 3 (tr [1] ([])))), (tk 0x80 ((twn 3 (tr [1] ([]))))), 0, [1] ++ zeros 31, by decide +kernel⟩,
    ⟨(tr [1] ([])), (tk 0x80 (tr [1] ([]))), 0, [1] ++ zeros 31, by decide +kernel⟩,
    ⟨(tr [3, 4] ([])), (tk 0x80 (tr [3, 4] ([]))), 0, [3, 4] ++ zeros 30, by decide +kernel⟩,
    ⟨(tr [3, 5] ([])), (tk 0x80 (tr [3, 5] ([]))), 0, [3, 5] ++ zeros 30, by decide +kernel⟩,
    ⟨(((tr [3, 15] ([])).setReg Reg.TWN_CLASS_REG 0x8001).modTwn fun t =>
      { t with classes := [{ cls := 15, tag := 9, ms := 10, base := 0x10000, size := 64 }] }), (tk 0x80 (((tr [3, 15] ([])).setReg Reg.TWN_CLASS_REG
      0x8001).modTwn fun t => { t with classes := [{ cls := 15, tag := 9, ms := 10, base := 0x10000, size := 64 }] })), 0, [3, 15] ++ zeros 30, by
      decide +kernel⟩⟩

/-- Clauses 4.3.1, 4.3.2, 5.1, 5.2, 5.3.1, 6.1.1, 6.1.2. -/
theorem witness_OwnershipIsClaimedAndHandedOver_3 :
(∃ (s v : State) (slot : Nat) (desc : List Byte), s.taken 128 = some (slot, desc, v) ∧ byteAt desc 0 = 4 ∧ v.isStandby = false) ∧
(∃ (s v : State) (slot : Nat) (desc : List Byte), s.taken 128 = some (slot, desc, v) ∧ byteAt desc 0 = 4 ∧ v.isStandby = true) ∧
(∃ (s v : State) (slot : Nat) (desc b : List Byte) (o : Nat), s.takenBlock 128 = some (slot, desc, b, v) ∧ byteAt desc 0 = 2 ∧ v.classBad b = some o) ∧
(∃ (s v : State) (slot : Nat) (desc b : List Byte), s.takenBlock 128 = some (slot, desc, b, v) ∧ byteAt desc 0 = 2 ∧ v.classBad b = none ∧ v.freeClass
      = none) ∧
(∃ (s v : State) (slot : Nat) (desc b : List Byte) (c : Nat), s.takenBlock 128 = some (slot, desc, b, v) ∧ byteAt desc 0 = 2 ∧ v.classBad b = none ∧
      v.freeClass = some c) ∧
(∃ (f b : List Byte) (s u : State), s.linkAccept 6 f = (some b, u) ∧ (byteAt f 1).testBit 0 = true ∧ u.twn.passSlot = none ∧ (u.role ≠ 3 ∨
      u.twn.takeover ≠ none)) ∧
(∃ (f b : List Byte) (s u : State), s.linkAccept 6 f = (some b, u) ∧ (byteAt f 1).testBit 0 = true ∧ u.twn.passSlot = none ∧ u.role = 3 ∧
      u.twn.takeover = none ∧ u.flag F.TWN_STATUS_synced = false) :=
  ⟨⟨(tr [4] ([])), (tk 0x80 (tr [4] ([]))), 0, [4] ++ zeros 31, by decide +kernel⟩,
    ⟨((twn 3 (tr [4] ([]))).modTwn fun t => { t with classes := [cls6], peerTags := [(7, 9)] }), (tk 0x80 ((twn 3 (tr [4] ([]))).modTwn fun t =>
      { t with classes := [cls6], peerTags := [(7, 9)] })), 0, [4] ++ zeros 31, by decide +kernel⟩,
    ⟨(tr [2, 0, 0, 0, 0, 0, 0, 0, 0, 0x30] (clsBlk.set 8 1)), (tkb 0x80 (tr [2, 0, 0, 0, 0, 0, 0, 0, 0, 0x30] (clsBlk.set 8 1))), 0, [2, 0, 0, 0, 0, 0, 0,
      0, 0, 0x30] ++ zeros 22, clsBlk.set 8 1, 8, by decide +kernel⟩,
    ⟨((tr [2, 0, 0, 0, 0, 0, 0, 0, 0, 0x30] (clsBlk)).setReg Reg.TWN_CLASS_REG 0xFFFF), (tkb 0x80 ((tr [2, 0, 0, 0, 0, 0, 0, 0, 0, 0x30] (clsBlk)).setReg
      Reg.TWN_CLASS_REG 0xFFFF)), 0, [2, 0, 0, 0, 0, 0, 0, 0, 0, 0x30] ++ zeros 22, clsBlk, by decide +kernel⟩,
    ⟨((tr [2, 0, 0, 0, 0, 0, 0, 0, 0, 0x30] (clsBlk)).setReg Reg.TWN_CLASS_REG 0x20), (tkb 0x80 ((tr [2, 0, 0, 0, 0, 0, 0, 0, 0, 0x30] (clsBlk)).setReg
      Reg.TWN_CLASS_REG 0x20)), 0, [2, 0, 0, 0, 0, 0, 0, 0, 0, 0x30] ++ zeros 22, clsBlk, 6, by decide +kernel⟩,
    ⟨(twf 6 5 (natLE 8 7 ++ natLE 2 2)), natLE 8 7 ++ natLE 2 2, twn 2 lit, ((twn 2 lit).linkAccept 6 (twf 6 5 (natLE 8 7 ++ natLE 2 2))).2, by
      decide +kernel⟩,
    ⟨(twf 6 5 (natLE 8 7 ++ natLE 2 2)), natLE 8 7 ++ natLE 2 2, twn 3 lit, ((twn 3 lit).linkAccept 6 (twf 6 5 (natLE 8 7 ++ natLE 2 2))).2, by
      decide +kernel⟩⟩

/-- Clauses 6.1.3, 6.2, 6.3.1, 6.3.2. -/
theorem witness_OwnershipIsClaimedAndHandedOver_4 :
(∃ (f b : List Byte) (s u : State), s.linkAccept 6 f = (some b, u) ∧ (byteAt f 1).testBit 0 = true ∧ u.twn.passSlot = none ∧ u.role = 3 ∧
      u.twn.takeover = none ∧ u.flag F.TWN_STATUS_synced = true) ∧
(∃ (f b : List Byte) (s u : State), s.linkAccept 6 f = (some b, u) ∧ (byteAt f 1).testBit 0 = true ∧ u.twn.passSlot ≠ none ∧ u.twn.passTaken = false) ∧
(∃ (f b : List Byte) (s u : State), s.linkAccept 6 f = (some b, u) ∧ (byteAt f 1).testBit 0 = false ∧ (u.isActive = false ∨ u.twn.handOut ≠ none)) ∧
(∃ (f b : List Byte) (s u : State), s.linkAccept 6 f = (some b, u) ∧ (byteAt f 1).testBit 0 = false ∧ u.isActive = true ∧ u.twn.handOut = none ∧
      u.twn.takeover ≠ none) :=
  ⟨⟨(twf 6 5 (natLE 8 7 ++ natLE 2 2)), natLE 8 7 ++ natLE 2 2, (twn 3 lit).raise F.TWN_STATUS_synced, (((twn 3 lit).raise
      F.TWN_STATUS_synced).linkAccept 6 (twf 6 5 (natLE 8 7 ++ natLE 2 2))).2, by decide +kernel⟩,
    ⟨(twf 6 5 (natLE 8 7 ++ natLE 2 2)), natLE 8 7 ++ natLE 2 2, (twn 3 (onRing lit 0x80 [] [])).modTwn fun t => { t with passSlot := some 3 }, (((twn 3
      (onRing lit 0x80 [] [])).modTwn fun t => { t with passSlot := some 3 }).linkAccept 6 (twf 6 5 (natLE 8 7 ++ natLE 2 2))).2, by decide +kernel⟩,
    ⟨(twf0 6 5 (zeros 10)), zeros 10, twn 3 lit, ((twn 3 lit).linkAccept 6 (twf0 6 5 (zeros 10))).2, by decide +kernel⟩,
    ⟨(twf0 6 5 (zeros 10)), zeros 10, (twn 2 lit).modTwn fun t => { t with takeover := some (7, 2) }, (((twn 2 lit).modTwn fun t =>
      { t with takeover := some (7, 2) }).linkAccept 6 (twf0 6 5 (zeros 10))).2, by decide +kernel⟩⟩

/-- Clauses 6.3.3, 6.3.4, 6.4.1, 6.4.2.1. -/
theorem witness_OwnershipIsClaimedAndHandedOver_5 :
(∃ (f b : List Byte) (s u : State), s.linkAccept 6 f = (some b, u) ∧ (byteAt f 1).testBit 0 = false ∧ u.isActive = true ∧ u.twn.handOut = none ∧
      u.twn.takeover = none ∧ u.peerSynced = false) ∧
(∃ (f b : List Byte) (s u : State), s.linkAccept 6 f = (some b, u) ∧ (byteAt f 1).testBit 0 = false ∧ u.isActive = true ∧ u.twn.handOut = none ∧
      u.twn.takeover = none ∧ u.peerSynced = true) ∧
(∃ (f b : List Byte) (s u : State), s.linkAccept 7 f = (some b, u) ∧ u.twn.handOut = none ∧ u.isStandby = false) ∧
(∃ (f b : List Byte) (s u : State), s.linkAccept 7 f = (some b, u) ∧ u.twn.handOut = none ∧ u.isStandby = true ∧ byteAt b 0 = 0) :=
  ⟨⟨(twf0 6 5 (zeros 10)), zeros 10, twn 2 lit, ((twn 2 lit).linkAccept 6 (twf0 6 5 (zeros 10))).2, by decide +kernel⟩,
    ⟨(twf0 6 5 (zeros 10)), zeros 10, (twn 2 (anv lit)).modTwn fun t => { t with peer := some { role := 3 } }, (((twn 2 (anv lit)).modTwn fun t =>
      { t with peer := some { role := 3 } }).linkAccept 6 (twf0 6 5 (zeros 10))).2, by decide +kernel⟩,
    ⟨(twf 7 5 ([0])), [0], twn 2 lit, ((twn 2 lit).linkAccept 7 (twf 7 5 ([0]))).2, by decide +kernel⟩,
    ⟨(twf 7 5 ([0])), [0], (twn 3 lit).modTwn fun t => { t with passSlot := some 3 }, (((twn 3 lit).modTwn fun t =>
      { t with passSlot := some 3 }).linkAccept 7 (twf 7 5 ([0]))).2, by decide +kernel⟩⟩

/-- Clauses 6.4.2.2, 6.4.2.3, 6.4.3.1, 6.4.3.2. -/
theorem witness_OwnershipIsClaimedAndHandedOver_6 :
(∃ (f b : List Byte) (s u : State), s.linkAccept 7 f = (some b, u) ∧ u.twn.handOut = none ∧ u.isStandby = true ∧ byteAt b 0 = 2 ∧ u.twn.handIn ≠ none) ∧
(∃ (f b : List Byte) (s u : State) (n : Nat), s.linkAccept 7 f = (some b, u) ∧ u.twn.handOut = none ∧ u.isStandby = true ∧ byteAt b 0 = 1 ∧
      u.twn.passSlot = some n) ∧
(∃ (f b : List Byte) (s u : State) (h : Handoff), s.linkAccept 7 f = (some b, u) ∧ u.twn.handOut = some h ∧ h.acked = true) ∧
(∃ (f b : List Byte) (s u : State) (h : Handoff), s.linkAccept 7 f = (some b, u) ∧ u.twn.handOut = some h ∧ h.acked = false ∧ byteAt b 0 = 0) :=
  ⟨⟨(twf 7 5 ([2])), [2], (twn 4 lit).modTwn fun t => { t with handIn := some (hand false none) }, (((twn 4 lit).modTwn fun t =>
      { t with handIn := some (hand false none) }).linkAccept 7 (twf 7 5 ([2]))).2, by decide +kernel⟩,
    ⟨(twf 7 5 ([1])), [1], (twn 3 (onRing lit 0x80 [] [])).modTwn fun t => { t with passSlot := some 3 }, (((twn 3 (onRing lit 0x80 [] [])).modTwn fun t
      => { t with passSlot := some 3 }).linkAccept 7 (twf 7 5 ([1]))).2, 3, by decide +kernel⟩,
    ⟨(twf 7 5 ([0])), [0], (twn 4 lit).modTwn fun t => { t with handOut := some (hand true (none)) }, (((twn 4 lit).modTwn fun t =>
      { t with handOut := some (hand true (none)) }).linkAccept 7 (twf 7 5 ([0]))).2, hand true (none), by decide +kernel⟩,
    ⟨(twf 7 5 ([0])), [0], (twn 2 lit).modTwn fun t => { t with handOut := some (hand false (none)) }, (((twn 2 lit).modTwn fun t =>
      { t with handOut := some (hand false (none)) }).linkAccept 7 (twf 7 5 ([0]))).2, hand false (none), by decide +kernel⟩⟩

/-- Clauses 6.4.3.3, 6.4.3.4, 7.1, 7.2.1, 7.2.2, 7.2.3, 7.3, 7.4, 7.5, 7.6.1, 7.7.2, 7.7.1. -/
theorem witness_OwnershipIsClaimedAndHandedOver_7 :
(∃ (f b : List Byte) (s u : State) (h : Handoff), s.linkAccept 7 f = (some b, u) ∧ u.twn.handOut = some h ∧ h.acked = false ∧ byteAt b 0 ≠ 0 ∧ h.slot
      = none) ∧
(∃ (f b : List Byte) (s u : State) (h : Handoff) (n : Nat), s.linkAccept 7 f = (some b, u) ∧ u.twn.handOut = some h ∧ h.acked = false ∧ byteAt b 0 ≠ 0
      ∧ h.slot = some n) ∧
(∃ (s : State), s.twn.handOut = none) ∧
(∃ (s : State) (h : Handoff), s.twn.handOut = some h ∧ h.acked = true) ∧
(∃ (s : State) (h : Handoff), s.twn.handOut = some h ∧ h.acked = false ∧ h.slot = none) ∧
(∃ (s : State) (h : Handoff) (n : Nat), s.twn.handOut = some h ∧ h.acked = false ∧ h.slot = some n) ∧
(∃ (s : State), s.twn.watching = false) ∧
(∃ (s : State), s.twn.watching = true) ∧
(∃ (s : State), s.twn.handOut = none ∧ s.twn.handIn = none) ∧
(∃ (s : State) (h : Handoff), s.twn.handOut = some h ∧ h.acked = false) ∧
(∃ (s : State) (h : Handoff), s.twn.handOut = none ∧ s.twn.handIn = some h ∧ s.healthy = true) ∧
(∃ (s : State) (h : Handoff), s.twn.handOut = none ∧ s.twn.handIn = some h ∧ s.healthy = false) :=
  ⟨⟨(twf 7 5 ([2])), [2], (twn 2 lit).modTwn fun t => { t with handOut := some (hand false (none)) }, (((twn 2 lit).modTwn fun t =>
      { t with handOut := some (hand false (none)) }).linkAccept 7 (twf 7 5 ([2]))).2, hand false (none), by decide +kernel⟩,
    ⟨(twf 7 5 ([1])), [1], (twn 2 lit).modTwn fun t => { t with handOut := some (hand false (some 3)) }, (((twn 2 lit).modTwn fun t =>
      { t with handOut := some (hand false (some 3)) }).linkAccept 7 (twf 7 5 ([1]))).2, hand false (some 3), 3, by decide +kernel⟩,
    ⟨lit, by decide +kernel⟩,
    ⟨lit.modTwn fun t => { t with handOut := some (hand true (none)) }, hand true none, by decide +kernel⟩,
    ⟨(twn 2 lit).modTwn fun t => { t with handOut := some (hand false (none)) }, hand false none, by decide +kernel⟩,
    ⟨((twn 2 (own 2)).modTwn fun t => { t with handOut := some (hand false (some 3)) }), hand false (some 3), 3, by decide +kernel⟩,
    ⟨lit, by decide +kernel⟩,
    ⟨(own 3).modTwn fun t => { t with watching := true }, by decide +kernel⟩,
    ⟨lit, by decide +kernel⟩,
    ⟨lit.modTwn fun t => { t with handOut := some (hand false (none)) }, hand false none, by decide +kernel⟩,
    ⟨(anv (own 4)).modTwn fun t => { t with handIn := some (hand false none) }, hand false none, by decide +kernel⟩,
    ⟨((own 4).lower F.TWN_STATUS_healthy).modTwn fun t => { t with handIn := some (hand false none) }, hand false none, by decide +kernel⟩⟩

/-- Clauses 1.1, 1.2, 1.3, 1.4, 2, 3.1, 3.2, 4, 5.1, 5.2, 6.1, 6.2. -/
theorem witness_EnergyIsMeteredAndBurstsAreJudged_1 :
(∃ (c : Nat) (s : State), 7 ≤ c ∨ s.powered 3 = false ∨ s.flag F.MTR_CFG_enable = false ∨ (s.fld F.MTR_STATUS_ch_fault).testBit c = true) ∧
(∃ (c : Nat) (s : State), c < 7 ∧ s.powered 3 = true ∧ s.flag F.MTR_CFG_enable = true ∧ (s.fld F.MTR_STATUS_ch_fault).testBit c = false) ∧
(∃ (c : Nat) (s : State), 7 ≤ c ∨ (s.fld F.MTR_STATUS_ch_fault).testBit c = false) ∧
(∃ (c : Nat) (s : State), c < 7 ∧ (s.fld F.MTR_STATUS_ch_fault).testBit c = true) ∧
(∃ (g : Nat) (s : State), s.mtr.acc.length = 28 ∧ g < 4) ∧
(∃ (x : List (List Int)) (dur : Nat) (s : State), s.mtr.restored = true ∧ (s.powered 3 = false ∨ s.flag F.MTR_CFG_enable = false ∨ nth x 0 [] = [] ∨
      dur = 0)) ∧
(∃ (x : List (List Int)) (dur : Nat) (s : State) (n : Nat) (y : List (List Int)), s.mtr.restored = true ∧ s.powered 3 = true ∧ s.flag F.MTR_CFG_enable
      = true ∧ n = (nth x 0 []).length ∧ n ≠ 0 ∧ dur ≠ 0 ∧ x.length = 7 ∧ s.mtr.dead = 0 ∧ y = s.highPass x) ∧
(∃ (s : State), s.mtr.restored = false ∧ s.powered 3 = true ∧ s.flag F.REC_STATUS_loaded = true ∧ s.recd.img.meterValid = true) ∧
(∃ (s : State), s.powered 3 = true ∧ s.powered 11 = true ∧ s.mtr.restored = true) ∧
(∃ (s : State), s.powered 3 = false ∨ s.powered 11 = false ∨ s.mtr.restored = false) ∧
(∃ (s : State), s.powered 3 = false ∨ s.flag F.MTR_CFG_enable = false) ∧
(∃ (s : State), s.powered 3 = true ∧ s.flag F.MTR_CFG_enable = true) :=
  ⟨⟨7, met, by decide +kernel⟩,
    ⟨6, met, by decide +kernel⟩,
    ⟨2, met, by decide +kernel⟩,
    ⟨1, met.setFld F.MTR_STATUS_ch_fault 3, by decide +kernel⟩,
    ⟨3, met, by decide +kernel⟩,
    ⟨smp, 131072, met.lower F.MTR_CFG_enable, by decide +kernel⟩,
    ⟨smp, 131072, met, 2, met.highPass smp, by and_intros <;> first | decide +kernel | rfl⟩,
    ⟨(lit.raise F.REC_STATUS_loaded).modImg fun i => { i with meterValid := true }, by decide +kernel⟩,
    ⟨met, by decide +kernel⟩,
    ⟨lit, by decide +kernel⟩,
    ⟨lit, by decide +kernel⟩,
    ⟨met, by decide +kernel⟩⟩

/-- Clauses 7, 8.1, 8.2.1, 8.2.2.1, 8.2.2.2, 8.2.2.3. -/
theorem witness_EnergyIsMeteredAndBurstsAreJudged_2 :
(∃ (ini : Nat) (w : Word) (s : State), s.reaches ini Reg.MTR_CAL_APPLY = true ∧ fieldOf F.MTR_CAL_APPLY_go w = 1) ∧
(∃ (s : State), s.powered 0 = false ∨ s.flag F.MTR_BAT_CFG_en = false ∨ s.powered 3 = true) ∧
(∃ (s : State), s.powered 0 = true ∧ s.flag F.MTR_BAT_CFG_en = true ∧ s.powered 3 = false ∧ s.flag F.BLW_STATUS_vbat_low = true ∧ s.flag
      F.BLW_STATUS_vin_ok = false) ∧
(∃ (moved : Bool) (s : State), s.powered 0 = true ∧ s.flag F.MTR_BAT_CFG_en = true ∧ s.powered 3 = false ∧ (s.flag F.BLW_STATUS_vbat_low = false ∨
      s.flag F.BLW_STATUS_vin_ok = true) ∧ moved = false) ∧
(∃ (moved : Bool) (s : State), s.powered 0 = true ∧ s.flag F.MTR_BAT_CFG_en = true ∧ s.powered 3 = false ∧ (s.flag F.BLW_STATUS_vbat_low = false ∨
      s.flag F.BLW_STATUS_vin_ok = true) ∧ moved = true) ∧
(∃ (rms : List Nat) (moved : Bool) (s : State) (c : Nat), s.powered 0 = true ∧ s.flag F.MTR_BAT_CFG_en = true ∧ s.powered 3 = false ∧ (s.flag
      F.BLW_STATUS_vbat_low = false ∨ s.flag F.BLW_STATUS_vin_ok = true) ∧ moved = true ∧ s.bat.run.length = 4 ∧ s.bat.held = false ∧ c < 4 ∧ (s.fld
      F.MTR_BAT_CFG_ch_mask).testBit c = true ∧ s.regN (Reg.MTR_BAT_THRESH c) ≤ nth rms c 0 ∧ s.fld F.MTR_BAT_CFG_n_consec ≤ nth s.bat.run c 0 + 1) :=
  ⟨⟨0, 1, met, by decide +kernel⟩,
    ⟨lit, by decide +kernel⟩,
    ⟨bat.raise F.BLW_STATUS_vbat_low, by decide +kernel⟩,
    ⟨false, bat, by decide +kernel⟩,
    ⟨true, bat, by decide +kernel⟩,
    ⟨[9, 5000000000, 3, 2], true, ((bat.setReg (Reg.MTR_BAT_THRESH 0) 9).setFld F.MTR_BAT_CFG_n_consec 1).raise ⟨Reg.BLW_WAKE_EN, 9, 1⟩, 0, by
      decide +kernel⟩⟩

/-- Clauses 1.1, 1.2, 1.3.1, 1.3.2.1, 1.3.2.2, 1.3.2.3, 1.4, 2.1, 2.2, 2.3, 3.1. -/
theorem witness_PolledNodesAreReadAndKept_1 :
(∃ (s : State), s.powered 2 = false ∨ s.acting = 0 ∨ s.radSlot = 0) ∧
(∃ (s : State), s.powered 2 = false ∨ s.acting = 0 ∨ s.radSlot ≠ 0) ∧
(∃ (s : State), s.powered 2 = true ∧ s.acting ≠ 0 ∧ s.radSlot ≠ 0 ∧ s.rad.polled = none ∧ s.rad.evict = [] ∧ s.rad.buffer = [] ∧ s.slotNode = none) ∧
(∃ (s : State) (i : Nat) (n : RadNode), s.powered 2 = true ∧ s.acting ≠ 0 ∧ s.radSlot ≠ 0 ∧ s.rad.polled = none ∧ s.rad.evict = [] ∧ s.rad.buffer = []
      ∧ s.slotNode = some (i, n) ∧ s.node i = some n ∧ s.acting = 1 ∧ s.wantedRole = 1 ∧ s.radStopped = false ∧ n.nextCtr < 4294967295 ∧ s.dutyAllows
      35 = true) ∧
(∃ (s : State) (i : Nat) (n : RadNode), s.powered 2 = true ∧ s.acting ≠ 0 ∧ s.radSlot ≠ 0 ∧ s.rad.polled = none ∧ s.rad.evict = [] ∧ s.rad.buffer = []
      ∧ s.slotNode = some (i, n) ∧ s.node i = some n ∧ s.acting = 1 ∧ s.wantedRole = 1 ∧ s.radStopped = false ∧ n.nextCtr < 4294967295 ∧ s.dutyAllows
      35 = false) ∧
(∃ (s : State) (i : Nat) (n : RadNode), s.powered 2 = true ∧ s.acting ≠ 0 ∧ s.radSlot ≠ 0 ∧ s.rad.polled = none ∧ s.rad.evict = [] ∧ s.rad.buffer = []
      ∧ s.slotNode = some (i, n) ∧ s.node i = some n ∧ (s.acting = 1 ∧ s.wantedRole = 1 ∧ (s.radStopped = true ∨ 4294967295 ≤ n.nextCtr) ∨ s.acting =
      2 ∧ s.wantedRole = 1)) ∧
(∃ (s : State), s.powered 2 = true ∧ s.acting = 1 ∧ s.radSlot = 0 ∧ s.rad.polled = none ∧ s.rad.evict = [] ∧ s.rad.buffer = []) ∧
(∃ (s : State), s.rad.polled = none) ∧
(∃ (s : State) (i : Nat) (n : RadNode), s.rad.polled = some i ∧ s.node i = some n) ∧
(∃ (s : State) (i : Nat), s.rad.polled = some i ∧ (s.coordinating = false ∨ s.radStopped = true)) ∧
(∃ (d : RadData) (i : Nat) (n : RadNode) (c : Instr) (s : State), s.radStopped = false ∧ d.addr = i + 1 ∧ s.node i = some n ∧ (c = Instr.data d ∧
      s.coordinating = true ∧ s.rad.polled = some i ∨ c = Instr.heardFrame (RadHeard.data d) ∧ s.powered 2 = true ∧ s.acting = 2) ∧ d.gen = some n.gen
      ∧ n.lastCtr < d.counter ∧ d.leave = false) ∧
(∃ (d : RadData) (i : Nat) (n : RadNode) (c : Instr) (s : State), s.radStopped = false ∧ d.addr = i + 1 ∧ s.node i = some n ∧ (c = Instr.data d ∧
      s.coordinating = true ∧ s.rad.polled = some i ∨ c = Instr.heardFrame (RadHeard.data d) ∧ s.powered 2 = true ∧ s.acting = 2) ∧ d.gen = some n.gen
      ∧ n.lastCtr < d.counter ∧ d.leave = false) :=
  ⟨⟨rad 1 0, by decide +kernel⟩,
    ⟨rad 1 1, by decide +kernel⟩,
    ⟨rad 2 2, by decide +kernel⟩,
    ⟨radw 1 1, 0, nod, by decide +kernel⟩,
    ⟨(radw 1 1).setFld F.RAD_PHY_CFG_duty_pm 1 |>.modRad (fun r => { r with sent := [(0, 10800000)] }), 0, nod, by decide +kernel⟩,
    ⟨(radw 1 1).modRad (fun r => { r with nodes := [(0, { nod with nextCtr := 0xFFFFFFFF })] }), 0, { nod with nextCtr := 0xFFFFFFFF }, by decide +kernel⟩,
    ⟨(radw 1 0).setFld F.RAD_JOIN_open_cycles 3, by decide +kernel⟩,
    ⟨rad 1 1, by decide +kernel⟩,
    ⟨polled (rad 1 1), 0, nod, by decide +kernel⟩,
    ⟨polled (rad 2 1), 0, by decide +kernel⟩,
    ⟨dat, 0, nod, .data dat, polled (rad 1 1), by decide +kernel⟩,
    ⟨dat, 0, nod, .heardFrame (.data dat), rad 2 1, by decide +kernel⟩⟩

/-- Clauses 3.2, 4.1, 4.2, 4.3, 5.1, 5.2.1, 5.2.2, 5.2.3.1, 5.2.3.2, 5.2.3.3, 6.1, 6.2.1.1. -/
theorem witness_PolledNodesAreReadAndKept_2 :
(∃ (d : RadData) (i : Nat) (n : RadNode) (c : Instr) (s : State), s.radStopped = false ∧ d.addr = i + 1 ∧ s.node i = some n ∧ (c = Instr.data d ∧
      s.coordinating = true ∧ s.rad.polled = some i ∨ c = Instr.heardFrame (RadHeard.data d) ∧ s.powered 2 = true ∧ s.acting = 2) ∧ d.gen = some n.gen
      ∧ n.lastCtr < d.counter ∧ d.leave = true) ∧
(∃ (d : RadData) (i : Nat) (n : RadNode) (s : State), s.rad.polled = some i ∧ s.coordinating = true ∧ s.radStopped = false ∧ s.node i = some n ∧
      d.addr = i + 1 ∧ d.gen = some n.gen ∧ d.counter ≤ n.lastCtr) ∧
(∃ (d : RadData) (i : Nat) (n : RadNode) (s : State), s.rad.polled = some i ∧ s.coordinating = true ∧ s.radStopped = false ∧ s.node i = some n ∧
      (d.addr ≠ i + 1 ∨ d.gen = none)) ∧
(∃ (d : RadData) (i : Nat) (n : RadNode) (s : State), s.rad.polled = some i ∧ s.coordinating = true ∧ s.radStopped = false ∧ s.node i = some n ∧
      d.addr = i + 1 ∧ n.rekeying = true ∧ d.gen = some ((n.gen + 1) % 256) ∧ d.gen ≠ some n.gen ∧ d.leave = false) ∧
(∃ (s : State), s.coordinating = false ∨ s.radSlot ≠ 0 ∨ s.radStopped = true) ∧
(∃ (j : RadJoin) (s : State), s.coordinating = true ∧ s.radSlot = 0 ∧ s.radStopped = false ∧ j.good = false) ∧
(∃ (j : RadJoin) (s : State), s.coordinating = true ∧ s.radSlot = 0 ∧ s.radStopped = false ∧ j.good = true ∧ s.rad.judged = true) ∧
(∃ (j : RadJoin) (s : State) (st : Nat), s.coordinating = true ∧ s.radSlot = 0 ∧ s.radStopped = false ∧ j.good = true ∧ s.rad.judged = false ∧
      s.rad.evict = [] ∧ (st = 3 ∧ s.fld F.RAD_JOIN_open_cycles = 0 ∨ st = 1 ∧ s.fld F.RAD_JOIN_open_cycles ≠ 0 ∧ s.nodeByEui j.eui = none ∧ 1024 ≤
      s.rad.nodes.length ∨ st = 2 ∧ s.fld F.RAD_JOIN_open_cycles ≠ 0 ∧ s.nodeByEui j.eui = none ∧ s.rad.nodes.length < 1024 ∧ (s.assignExp j).bind
      s.findSlot = none)) ∧
(∃ (j : RadJoin) (s : State) (i : Nat) (n : RadNode), s.coordinating = true ∧ s.radSlot = 0 ∧ s.radStopped = false ∧ j.good = true ∧ s.rad.judged =
      false ∧ s.rad.evict = [] ∧ s.fld F.RAD_JOIN_open_cycles ≠ 0 ∧ s.nodeByEui j.eui = some (i, n) ∧ s.node i = some n) ∧
(∃ (j : RadJoin) (s : State) (e k p i : Nat), s.coordinating = true ∧ s.radSlot = 0 ∧ s.radStopped = false ∧ j.good = true ∧ s.rad.judged = false ∧
      s.rad.evict = [] ∧ s.fld F.RAD_JOIN_open_cycles ≠ 0 ∧ s.nodeByEui j.eui = none ∧ s.rad.nodes.length < 1024 ∧ s.assignExp j = some e ∧ s.findSlot
      e = some (k, p) ∧ List.find? (fun (i : Nat) => (s.node i).isNone) (List.range 1024) = some i) ∧
(∃ (s : State), s.powered 2 = false ∨ s.acting ≠ 2 ∨ s.radStopped = true) ∧
(∃ (h : RadHeard) (s : State) (a ctr : Nat) (n : RadNode), s.powered 2 = true ∧ s.acting = 2 ∧ s.radStopped = false ∧ h = RadHeard.poll (a + 1) ctr
      true ∧ s.rad.polled = none ∧ s.node a = some n ∧ n.nextCtr ≤ ctr) :=
  ⟨⟨{ dat with leave := true }, 0, nod, .data { dat with leave := true }, polled (rad 1 1), by decide +kernel⟩,
    ⟨{ dat with counter := 3 }, 0, nod, polled ((rad 1 1).modRad fun r => { r with nodes := [(0, nod)] }), by decide +kernel⟩,
    ⟨{ dat with gen := none }, 0, nod, polled ((rad 1 1).modRad fun r => { r with nodes := [(0, nod)] }), by decide +kernel⟩,
    ⟨{ dat with gen := some 1 }, 0, { nod with rekeying := true }, polled ((rad 1 1).modRad fun r =>
      { r with nodes := [(0, { nod with rekeying := true })] }), by decide +kernel⟩,
    ⟨rad 2 0, by decide +kernel⟩,
    ⟨{ jn 5 with good := false }, rad 1 0, by decide +kernel⟩,
    ⟨jn 5, (rad 1 0).modRad fun r => { r with judged := true }, by decide +kernel⟩,
    ⟨jn 6, rad 1 0, 3, by decide +kernel⟩,
    ⟨jn 5, (rad 1 0).setFld F.RAD_JOIN_open_cycles 3, 0, nod, by decide +kernel⟩,
    ⟨jn 6, ((rad 1 0).setFld F.RAD_JOIN_open_cycles 3).setFld F.RAD_SCHED_CFG_lead_ticks 300, 0, 2, 0, 1, by decide +kernel⟩,
    ⟨rad 1 1, by decide +kernel⟩,
    ⟨.poll 1 20 true, rad 2 1, 0, 20, nod, by decide +kernel⟩⟩

/-- Clauses 6.2.2, 7.1, 7.2, 7.3, 8.1, 8.2, 8.3, 8.4, 9.1, 9.2.1.1, 9.2.1.2. -/
theorem witness_PolledNodesAreReadAndKept_3 :
(∃ (h : RadHeard) (s : State) (eui i e slot phase drift kinds ctr : Nat), s.powered 2 = true ∧ s.acting = 2 ∧ s.radStopped = false ∧ h = RadHeard.join
      eui i e slot phase drift kinds ctr true) ∧
(∃ (ini : Nat) (w : Word) (s : State), s.reaches ini Reg.RAD_CTRL = true ∧ (fieldOf F.RAD_CTRL_role w = 3 ∨ fieldOf F.RAD_CTRL_enable w = 1 ∧ s.flag
      F.RAD_CTRL_enable = false ∧ s.scheduleFits = false)) ∧
(∃ (ini : Nat) (w : Word) (s : State) (k : List Byte) (u : State), s.reaches ini Reg.RAD_CTRL = true ∧ fieldOf F.RAD_CTRL_role w ≠ 3 ∧ fieldOf
      F.RAD_CTRL_enable w = 1 ∧ s.flag F.RAD_CTRL_enable = false ∧ s.scheduleFits = true ∧ ((s.answerWith Answer.ok).setReg Reg.RAD_CTRL (w &&&
      14#32)).keyRequest 3 (s.fld F.RAD_CFG_key_slot) [3] [11] = (KeyAnswer.key k, u)) ∧
(∃ (ini : Nat) (w : Word) (s : State), s.reaches ini Reg.RAD_CTRL = true ∧ fieldOf F.RAD_CTRL_role w ≠ 3 ∧ fieldOf F.RAD_CTRL_enable w = 0) ∧
(∃ (s : State), s.powered 2 = false ∨ s.wantedRole = s.acting ∨ s.acting = 2 ∧ s.wantedRole = 1 ∧ s.radSlot ≠ 0) ∧
(∃ (s : State), s.powered 2 = true ∧ s.wantedRole ≠ s.acting ∧ (s.acting ≠ 2 ∨ s.wantedRole ≠ 1 ∨ s.radSlot = 0)) ∧
(∃ (s : State), s.coordinating = false ∨ s.rad.mirror = none) ∧
(∃ (s : State), s.coordinating = true ∧ s.rad.mirror ≠ none) ∧
(∃ (s v : State) (slot : Nat) (desc : List Byte) (op : Nat) (c : Instr), s.taken 160 = some (slot, desc, v) ∧ (op, c) ∈ [(1, Instr.nodeEvict), (2,
      Instr.nodeRead), (3, Instr.downlink), (4, Instr.rekey)] ∧ byteAt desc 0 = op ∧ (le desc 2 2 = 0 ∨ v.node (le desc 2 2 - 1) = none)) ∧
(∃ (s v : State) (slot : Nat) (desc : List Byte) (op : Nat) (c : Instr), s.taken 160 = some (slot, desc, v) ∧ (op, c) ∈ [(1, Instr.nodeEvict), (2,
      Instr.nodeRead), (3, Instr.downlink), (4, Instr.rekey)] ∧ byteAt desc 0 = op ∧ (le desc 2 2 = 0 ∨ v.node (le desc 2 2 - 1) = none)) ∧
(∃ (s v : State) (slot : Nat) (desc : List Byte) (i : Nat) (n : RadNode), s.taken 160 = some (slot, desc, v) ∧ le desc 2 2 = i + 1 ∧ v.node i = some n
      ∧ byteAt desc 0 = 1 ∧ v.acting ≠ 0) ∧
(∃ (s v : State) (slot : Nat) (desc : List Byte) (i : Nat) (n : RadNode), s.taken 160 = some (slot, desc, v) ∧ le desc 2 2 = i + 1 ∧ v.node i = some n
      ∧ byteAt desc 0 = 1 ∧ v.acting = 0) :=
  ⟨⟨.join 8 3 0 2 0 9 1 6 true, rad 2 1, 8, 3, 0, 2, 0, 9, 1, 6, by decide +kernel⟩,
    ⟨0, 6, rad 0 1, by decide +kernel⟩,
    ⟨0, 1, ((rad 0 1).setKeySlot 0 { attr := 0x803, key := tkey }).setFld F.RAD_SCHED_CFG_slot_ticks 2047, tkey, ((((((rad 0 1).setKeySlot 0
      { attr := 0x803, key := tkey }).setFld F.RAD_SCHED_CFG_slot_ticks 2047).answerWith .ok).setReg Reg.RAD_CTRL (1 &&& 0xE#32)).keyRequest 3 0 [3]
      [11]).2, by decide +kernel⟩,
    ⟨0, 0, (rad 1 1).raise F.RAD_CTRL_enable, by decide +kernel⟩,
    ⟨rad 0 1, by decide +kernel⟩,
    ⟨(rad 1 1).raise F.RAD_CTRL_enable |>.setFld F.RAD_CTRL_role 1, by decide +kernel⟩,
    ⟨rad 1 1, by decide +kernel⟩,
    ⟨(rad 1 1).modRad (fun r => { r with mirror := some 6 }), by decide +kernel⟩,
    ⟨(rr [1] ([])), (tk 0xA0 (rr [1] ([]))), 0, [1] ++ zeros 31, 1, .nodeEvict, by decide +kernel⟩,
    ⟨(rr [3, 0, 9] ([])), (tk 0xA0 (rr [3, 0, 9] ([]))), 0, [3, 0, 9] ++ zeros 29, 3, .downlink, by decide +kernel⟩,
    ⟨((rr [1, 0, 1] ([])).setFld F.RAD_STATUS_acting 1), (tk 0xA0 ((rr [1, 0, 1] ([])).setFld F.RAD_STATUS_acting 1)), 0, [1, 0, 1] ++ zeros 29, 0, nod,
      by decide +kernel⟩,
    ⟨(rr [1, 0, 1] ([])), (tk 0xA0 (rr [1, 0, 1] ([]))), 0, [1, 0, 1] ++ zeros 29, 0, nod, by decide +kernel⟩⟩

/-- Clauses 9.2.2.1, 9.2.2.2, 9.2.3.1, 9.2.3.2, 9.2.3.3, 9.2.4.1, 9.2.4.2, 6.2.2, 6.2.1.2, 6.2.3, 1.3.2.4. -/
theorem witness_PolledNodesAreReadAndKept_4 :
(∃ (s v : State) (slot : Nat) (desc : List Byte) (i : Nat) (n : RadNode), s.taken 160 = some (slot, desc, v) ∧ le desc 2 2 = i + 1 ∧ v.node i = some n
      ∧ byteAt desc 0 = 2 ∧ (le desc 8 8 % 64 ≠ 0 ∨ 2 ^ 40 ≤ le desc 8 8)) ∧
(∃ (s v : State) (slot : Nat) (desc : List Byte) (i : Nat) (n : RadNode) (a : MemAnswer) (w : State), s.taken 160 = some (slot, desc, v) ∧ le desc 2 2
      = i + 1 ∧ v.node i = some n ∧ byteAt desc 0 = 2 ∧ le desc 8 8 % 64 = 0 ∧ le desc 8 8 < 2 ^ 40 ∧ v.writeMem 18 (le desc 8 8) (nodeBytes i n) =
      (a, w)) ∧
(∃ (s v : State) (slot : Nat) (desc : List Byte) (i : Nat) (n : RadNode), s.taken 160 = some (slot, desc, v) ∧ le desc 2 2 = i + 1 ∧ v.node i = some n
      ∧ byteAt desc 0 = 3 ∧ (byteAt desc 4 = 0 ∨ 8 < byteAt desc 4)) ∧
(∃ (s v : State) (slot : Nat) (desc : List Byte) (i : Nat) (n : RadNode), s.taken 160 = some (slot, desc, v) ∧ le desc 2 2 = i + 1 ∧ v.node i = some n
      ∧ byteAt desc 0 = 3 ∧ 1 ≤ byteAt desc 4 ∧ byteAt desc 4 ≤ 8 ∧ n.down ≠ none) ∧
(∃ (s v : State) (slot : Nat) (desc : List Byte) (i : Nat) (n : RadNode), s.taken 160 = some (slot, desc, v) ∧ le desc 2 2 = i + 1 ∧ v.node i = some n
      ∧ byteAt desc 0 = 3 ∧ 1 ≤ byteAt desc 4 ∧ byteAt desc 4 ≤ 8 ∧ n.down = none) ∧
(∃ (s v : State) (slot : Nat) (desc : List Byte) (i : Nat) (n : RadNode), s.taken 160 = some (slot, desc, v) ∧ le desc 2 2 = i + 1 ∧ v.node i = some n
      ∧ byteAt desc 0 = 4 ∧ n.rekey ≠ none) ∧
(∃ (s v : State) (slot : Nat) (desc : List Byte) (i : Nat) (n : RadNode), s.taken 160 = some (slot, desc, v) ∧ le desc 2 2 = i + 1 ∧ v.node i = some n
      ∧ byteAt desc 0 = 4 ∧ n.rekey = none) ∧
(∃ (h : RadHeard) (s : State) (eui i e slot phase drift kinds ctr : Nat), s.powered 2 = true ∧ s.acting = 2 ∧ s.radStopped = false ∧ h = RadHeard.join
      eui i e slot phase drift kinds ctr true) ∧
(∃ (h : RadHeard) (s : State) (a ctr : Nat) (n : RadNode), s.powered 2 = true ∧ s.acting = 2 ∧ s.radStopped = false ∧ h = RadHeard.poll (a + 1) ctr
      true ∧ s.rad.polled = none ∧ s.node a = some n ∧ ctr < n.nextCtr) ∧
(∃ (h : RadHeard) (s : State) (a ctr : Nat), s.powered 2 = true ∧ s.acting = 2 ∧ s.radStopped = false ∧ h = RadHeard.poll a ctr false) ∧
(∃ (s : State) (i : Nat) (n : RadNode), s.powered 2 = true ∧ s.acting ≠ 0 ∧ s.radSlot ≠ 0 ∧ s.rad.polled = none ∧ s.rad.evict = [] ∧ s.rad.buffer = []
      ∧ s.slotNode = some (i, n) ∧ s.node i = some n ∧ s.wantedRole ≠ 1) :=
  ⟨⟨(rr [2, 0, 1, 0, 0, 0, 0, 0, 1] ([])), (tk 0xA0 (rr [2, 0, 1, 0, 0, 0, 0, 0, 1] ([]))), 0, [2, 0, 1, 0, 0, 0, 0, 0, 1] ++ zeros 23, 0, nod, by
      decide +kernel⟩,
    ⟨(rr [2, 0, 1, 0, 0, 0, 0, 0, 0, 64] ([])), (tk 0xA0 (rr [2, 0, 1, 0, 0, 0, 0, 0, 0, 64] ([]))), 0, [2, 0, 1, 0, 0, 0, 0, 0, 0, 64] ++ zeros 22, 0,
      nod, ((tk 0xA0 (rr [2, 0, 1, 0, 0, 0, 0, 0, 0, 64] ([]))).writeMem 18 0x4000 (nodeBytes 0 nod)).1, ((tk 0xA0 (rr [2, 0, 1, 0, 0, 0, 0, 0, 0, 64]
      ([]))).writeMem 18 0x4000 (nodeBytes 0 nod)).2, by decide +kernel⟩,
    ⟨(rr [3, 0, 1, 0, 9] ([])), (tk 0xA0 (rr [3, 0, 1, 0, 9] ([]))), 0, [3, 0, 1, 0, 9] ++ zeros 27, 0, nod, by decide +kernel⟩,
    ⟨((rr [3, 0, 1, 0, 8] ([])).modRad fun r => { r with nodes := [(0, { nod with down := some (1, [], false) })] }), (tk 0xA0 ((rr [3, 0, 1, 0, 8]
      ([])).modRad fun r => { r with nodes := [(0, { nod with down := some (1, [], false) })] })), 0, [3, 0, 1, 0, 8] ++ zeros 27, 0,
      { nod with down := some (1, [], false) }, by decide +kernel⟩,
    ⟨(rr [3, 0, 1, 0, 8] ([])), (tk 0xA0 (rr [3, 0, 1, 0, 8] ([]))), 0, [3, 0, 1, 0, 8] ++ zeros 27, 0, nod, by decide +kernel⟩,
    ⟨((rr [4, 0, 1] ([])).modRad fun r => { r with nodes := [(0, { nod with rekey := some 3 })] }), (tk 0xA0 ((rr [4, 0, 1] ([])).modRad fun r =>
      { r with nodes := [(0, { nod with rekey := some 3 })] })), 0, [4, 0, 1] ++ zeros 29, 0, { nod with rekey := some 3 }, by decide +kernel⟩,
    ⟨(rr [4, 0, 1] ([])), (tk 0xA0 (rr [4, 0, 1] ([]))), 0, [4, 0, 1] ++ zeros 29, 0, nod, by decide +kernel⟩,
    ⟨.join 5 0 0 2 0 9 1 6 true, rad 2 1, 5, 0, 0, 2, 0, 9, 1, 6, by decide +kernel⟩,
    ⟨.poll 1 2 true, rad 2 1, 0, 2, nod, by decide +kernel⟩,
    ⟨.poll 1 2 false, rad 2 1, 1, 2, by decide +kernel⟩,
    ⟨rad 2 1, 0, nod, by decide +kernel⟩⟩

/-- Clauses 1.1, 1.2.1, 1.2.2, 1.2.3.1, 1.2.3.2, 1.2.3.3, 2.1, 2.2.1, 2.2.2, 3.1, 3.2.1, 3.2.3. -/
theorem witness_CabinetFramesAreSentAndReceived_1 :
(∃ (n : Nat) (s : State), s.canOnBus n = false ∨ s.fld (F.CAB_CFG_mode n) = 2) ∧
(∃ (n : Nat) (f : CanFrame) (s : State), s.canOnBus n = true ∧ s.fld (F.CAB_CFG_mode n) ≠ 2 ∧ f.fd = true ∧ s.flag (F.CAB_CFG_fd_en n) = false) ∧
(∃ (n : Nat) (f : CanFrame) (s : State), s.canOnBus n = true ∧ s.fld (F.CAB_CFG_mode n) ≠ 2 ∧ (f.fd = false ∨ s.flag (F.CAB_CFG_fd_en n) = true) ∧
      f.remote = true) ∧
(∃ (n : Nat) (f : CanFrame) (s : State) (o : Nat) (x : CabObj), s.canOnBus n = true ∧ s.fld (F.CAB_CFG_mode n) ≠ 2 ∧ (f.fd = false ∨ s.flag
      (F.CAB_CFG_fd_en n) = true) ∧ f.remote = false ∧ s.takingObj n f = some (o, x)) ∧
(∃ (n : Nat) (f : CanFrame) (s : State), s.canOnBus n = true ∧ s.fld (F.CAB_CFG_mode n) ≠ 2 ∧ (f.fd = false ∨ s.flag (F.CAB_CFG_fd_en n) = true) ∧
      f.remote = false ∧ s.takingObj n f = none) ∧
(∃ (n : Nat) (f : CanFrame) (s : State) (g : Nat) (r : Rail), s.canOnBus n = true ∧ s.fld (F.CAB_CFG_mode n) ≠ 2 ∧ (f.fd = false ∨ s.flag
      (F.CAB_CFG_fd_en n) = true) ∧ f.remote = false ∧ s.blw.rails = [(g, r)] ∧ g < 16 ∧ byteAt r.block 2 = n ∧ le r.block 4 4 % 2 ^ 29 = f.id ∧
      (byteAt r.block 7).testBit 5 = f.ext ∧ s.fld F.TWN_STATUS_role = 3) ∧
(∃ (n : Nat) (s : State), s.canOnBus n = false) ∧
(∃ (n tec rec' : Nat) (sender exempt heavy : Bool) (s : State), s.canOnBus n = true ∧ (tec = s.fld (F.CAB_STATUS_tec n) + if (sender && !exempt) =
      true then 8 else 0) ∧ (rec' = s.fld (F.CAB_STATUS_rec n) + if sender = true then 0 else if heavy = true then 8 else 1) ∧ tec ≤ 255) ∧
(∃ (n tec rec' : Nat) (sender exempt heavy : Bool) (s : State), s.canOnBus n = true ∧ (tec = s.fld (F.CAB_STATUS_tec n) + if (sender && !exempt) =
      true then 8 else 0) ∧ (rec' = s.fld (F.CAB_STATUS_rec n) + if sender = true then 0 else if heavy = true then 8 else 1) ∧ 255 < tec) ∧
(∃ (n : Nat), 2 ≤ n) ∧
(∃ (ini n : Nat) (s : State), n < 2 ∧ s.reaches ini (Reg.CAB_CTRL n) = true) ∧
(∃ (ini n : Nat) (s : State), n < 2 ∧ s.reaches ini (Reg.CAB_CTRL n) = true ∧ s.canState n ≠ 5 ∧ s.railUses n = true) :=
  ⟨⟨0, lit, by decide +kernel⟩,
    ⟨0, { cfr with fd := true }, cab lit, by decide +kernel⟩,
    ⟨0, { cfr with remote := true }, cab lit, by decide +kernel⟩,
    ⟨0, cfr, cab lit, 3, rxo, by decide +kernel⟩,
    ⟨0, { cfr with ext := true }, (cab lit).raise (F.CAB_CFG_rx_unmatched 0), by decide +kernel⟩,
    ⟨0, { cfr with id := 0 }, (cab (lit.setFld F.TWN_STATUS_role 3)).modBlw fun b => { b with rails := [(3, ⟨zeros 64, 300000⟩)] }, 3, ⟨zeros 64, 300000⟩,
      by decide +kernel⟩,
    ⟨0, lit, by decide +kernel⟩,
    ⟨0, 8, 0, true, false, false, cab lit, by decide +kernel⟩,
    ⟨0, 256, 0, true, false, false, (withSend (snd false false (some 1)) (cab lit)).setFld (F.CAB_STATUS_tec 0) 248, by decide +kernel⟩,
    ⟨2, by decide +kernel⟩,
    ⟨0, 0, cab lit, by decide +kernel⟩,
    ⟨0, 0, (cab lit).modBlw fun b => { b with rails := [(3, ⟨zeros 64, 300000⟩)] }, by decide +kernel⟩⟩

/-- Clauses 3.2.4, 3.2.5, 3.2.6, 3.2.7, 3.3.1, 3.3.2, 3.4, 4.1, 4.2.1, 4.2.2.1, 4.2.2.2, 5.1. -/
theorem witness_CabinetFramesAreSentAndReceived_2 :
(∃ (ini n : Nat) (s : State), n < 2 ∧ s.reaches ini (Reg.CAB_CTRL n) = true ∧ s.canState n ≠ 5 ∧ s.railUses n = false ∧ (s.cab.sends.any fun (x :
      CanSend) => x.chan == n && x.onBus) = false) ∧
(∃ (ini n : Nat) (s : State), n < 2 ∧ s.reaches ini (Reg.CAB_CTRL n) = true ∧ s.canState n ≠ 5 ∧ s.railUses n = false ∧ (s.cab.sends.any fun (x :
      CanSend) => x.chan == n && x.onBus) = true) ∧
(∃ (ini n : Nat) (s : State), n < 2 ∧ s.reaches ini (Reg.CAB_CTRL n) = true ∧ s.canState n ≠ 5) ∧
(∃ (ini n : Nat) (s : State), n < 2 ∧ s.reaches ini (Reg.CAB_CTRL n) = true ∧ s.canState n = 5) ∧
(∃ (n : Nat) (s : State), n < 2 ∧ (s.powered 24 = false ∨ s.canState n ≠ 4)) ∧
(∃ (n : Nat) (s : State), n < 2 ∧ s.powered 24 = true ∧ s.canState n = 4) ∧
(∃ (ini n o : Nat) (s : State), n < 2 ∧ o < 32 ∧ s.reaches ini (cabObjAddr n o) = true) ∧
(∃ (n : Nat) (s : State), List.find? (fun (p : Nat × CanXcvr) => p.fst == n) s.cab.asleep = none ∨ 2 ≤ n) ∧
(∃ (n : Nat) (f : Option CanFrame) (s : State) (x : CanXcvr), n < 2 ∧ List.find? (fun (p : Nat × CanXcvr) => p.fst == n) s.cab.asleep = some (n, x) ∧
      x.wakes f = false) ∧
(∃ (n : Nat) (f : Option CanFrame) (s : State) (x : CanXcvr), n < 2 ∧ List.find? (fun (p : Nat × CanXcvr) => p.fst == n) s.cab.asleep = some (n, x) ∧
      x.wakes f = true ∧ (s.regN Reg.BLW_WAKE_EN).testBit (2 + n) = true) ∧
(∃ (n : Nat) (f : Option CanFrame) (s : State) (x : CanXcvr), n < 2 ∧ List.find? (fun (p : Nat × CanXcvr) => p.fst == n) s.cab.asleep = some (n, x) ∧
      x.wakes f = true ∧ (s.regN Reg.BLW_WAKE_EN).testBit (2 + n) = false) ∧
(∃ (n out : Nat) (s : State), List.find? (fun (x : CanSend) => x.chan == n && x.onBus) s.cab.sends = none ∨ 2 < out) :=
  ⟨⟨0, 0, withSend (snd false false none) (cab lit), by decide +kernel⟩,
    ⟨0, 0, withSend (snd true false none) (cab lit), by decide +kernel⟩,
    ⟨0, 0, cab lit, by decide +kernel⟩,
    ⟨0, 0, ((cab lit).setFld (F.CAB_STATUS_state 0) 5).modCab fun c => { c with asleep := [(0, ⟨1, 0, 0, 0⟩)] }, by decide +kernel⟩,
    ⟨0, cab lit, by decide +kernel⟩,
    ⟨0, ((cab lit).setFld (F.CAB_STATUS_state 0) 4).setFld (F.CAB_STATUS_tec 0) 99, by decide +kernel⟩,
    ⟨0, 0, 3, (cab lit).modCab fun c => { c with objs := [(3, { rxo with new := true, live := some (cfr, 9) })] }, by decide +kernel⟩,
    ⟨0, lit, by decide +kernel⟩,
    ⟨0, some cfr, (cab lit).modCab fun c => { c with asleep := [(0, ⟨1, 0, 0, 0⟩)] }, ⟨1, 0, 0, 0⟩, by decide +kernel⟩,
    ⟨0, none, ((cab lit).modCab fun c => { c with asleep := [(0, ⟨1, 0, 0, 0⟩)] }).setReg Reg.BLW_WAKE_EN 4, ⟨1, 0, 0, 0⟩, by decide +kernel⟩,
    ⟨0, none, (cab lit).modCab fun c => { c with asleep := [(0, ⟨1, 0, 0, 0⟩)] }, ⟨1, 0, 0, 0⟩, by decide +kernel⟩,
    ⟨0, 0, (withSend (snd false false none) (cab lit)), by decide +kernel⟩⟩

/-- Clauses 5.2.2, 5.2.3, 5.2.4.2, 6.1, 6.2.1, 6.2.2, 7.1, 7.2.1, 7.2.2, 8.1.1, 8.1.2, 8.2. -/
theorem witness_CabinetFramesAreSentAndReceived_3 :
(∃ (n out : Nat) (s : State) (x : CanSend), n < 2 ∧ List.find? (fun (x : CanSend) => x.chan == n && x.onBus) s.cab.sends = some x ∧ s.cabOwner = true
      ∧ out = 0 ∧ s.fld (F.CAB_CFG_mode n) ≠ 2 ∧ s.cab.sleepReq.contains n = false) ∧
(∃ (n out : Nat) (s : State) (x : CanSend), n < 2 ∧ List.find? (fun (x : CanSend) => x.chan == n && x.onBus) s.cab.sends = some x ∧ s.cabOwner = true
      ∧ (out = 1 ∨ out = 2) ∧ x.oneShot = true ∧ s.cab.sleepReq.contains n = false) ∧
(∃ (n out : Nat) (s : State) (x : CanSend), n < 2 ∧ List.find? (fun (x : CanSend) => x.chan == n && x.onBus) s.cab.sends = some x ∧ s.cabOwner = true
      ∧ (out = 1 ∨ out = 2) ∧ x.oneShot = false ∧ s.cab.sleepReq.contains n = false ∧ s.flag (F.CAB_CFG_enable n) = true ∧ (x.obj < 32 ∨
      ((s.cab.sends.erase x).any fun (y : CanSend) => y.obj == x.obj) = false)) ∧
(∃ (n o : Nat) (s : State), s.cabObj n o = none ∨ s.canOnBus n = false ∨ s.fld (F.CAB_CFG_mode n) = 1) ∧
(∃ (n o : Nat) (s : State) (x : CabObj), s.cabObj n o = some x ∧ (x.rx = true ∨ x.period = 0 ∨ x.ownerOnly = true ∧ s.cabOwner = false)) ∧
(∃ (n o : Nat) (s : State) (x : CabObj), s.cabObj n o = some x ∧ x.rx = false ∧ x.period ≠ 0 ∧ s.canOnBus n = true ∧ s.fld (F.CAB_CFG_mode n) ≠ 1 ∧
      (x.ownerOnly = false ∨ s.cabOwner = true)) ∧
(∃ (g : Nat) (s : State), s.rail g = none ∨ s.cabOwner = false) ∧
(∃ (g : Nat) (s : State) (r : Rail), s.rail g = some r ∧ s.canOnBus (byteAt r.block 2) = false) ∧
(∃ (g : Nat) (s : State) (r : Rail), s.rail g = some r ∧ s.cabOwner = true ∧ s.canOnBus (byteAt r.block 2) = true) ∧
(∃ (s v : State) (slot : Nat) (desc : List Byte) (op : Nat) (c : Instr), s.taken 176 = some (slot, desc, v) ∧ (op, c) ∈ [(1, Instr.objSet), (2,
      Instr.txLoad), (3, Instr.txAbort)] ∧ byteAt desc 0 = op ∧ 2 ≤ byteAt desc 1) ∧
(∃ (s v : State) (slot : Nat) (desc : List Byte) (op : Nat) (c : Instr), s.taken 176 = some (slot, desc, v) ∧ (op, c) ∈ [(1, Instr.objSet), (2,
      Instr.txLoad), (3, Instr.txAbort)] ∧ byteAt desc 0 = op ∧ byteAt desc 1 < 2 ∧ 32 ≤ byteAt desc 2) ∧
(∃ (s v : State) (slot : Nat) (desc : List Byte), s.taken 176 = some (slot, desc, v) ∧ byteAt desc 0 = 3 ∧ byteAt desc 1 < 2 ∧ byteAt desc 2 < 32) :=
  ⟨⟨0, 0, (withSend (snd true false (some 1)) (cab lit)), snd true false (some 1), by decide +kernel⟩,
    ⟨0, 1, (withSend (snd true true none) (cab lit)), snd true true none, by decide +kernel⟩,
    ⟨0, 2, (withSend (snd true false none) (cab lit)), snd true false none, by decide +kernel⟩,
    ⟨0, 9, cab lit, by decide +kernel⟩,
    ⟨0, 4, cab lit, txo, by decide +kernel⟩,
    ⟨0, 4, (cab lit).modCab (fun c => { c with objs := [(4, { txo with period := 10 })] }), { txo with period := 10 }, by decide +kernel⟩,
    ⟨3, lit, by decide +kernel⟩,
    ⟨3, lit.modBlw fun b => { b with rails := [(3, ⟨zeros 64, 300000⟩)] }, ⟨zeros 64, 300000⟩, by decide +kernel⟩,
    ⟨3, (cab lit).modBlw fun b => { b with rails := [(3, ⟨zeros 64, 300000⟩)] }, ⟨zeros 64, 300000⟩, by decide +kernel⟩,
    ⟨(br [1, 2] ([])), (tk 0xB0 (br [1, 2] ([]))), 0, [1, 2] ++ zeros 30, 1, .objSet, by decide +kernel⟩,
    ⟨(br [2, 1, 32] ([])), (tk 0xB0 (br [2, 1, 32] ([]))), 0, [2, 1, 32] ++ zeros 29, 2, .txLoad, by decide +kernel⟩,
    ⟨(withSend (snd false false (some 1)) (br [3, 0, 4] ([]))), (tk 0xB0 (withSend (snd false false (some 1)) (br [3, 0, 4] ([])))), 0, [3, 0, 4] ++ zeros
      29, by decide +kernel⟩⟩

/-- Clauses 9.1.1, 9.1.2, 9.1.3, 9.2.1, 9.2.2.1, 9.2.2.2, 9.2.2.3.1, 9.2.2.3.2, 9.2.2.3.3. -/
theorem witness_CabinetFramesAreSentAndReceived_4 :
(∃ (s v : State) (slot n o : Nat) (desc b : List Byte) (a : Nat), s.takenBlock 176 = some (slot, desc, b, v) ∧ byteAt desc 1 = n ∧ byteAt desc 2 = o ∧
      n < 2 ∧ o < 32 ∧ byteAt desc 0 = 1 ∧ v.objBad n (objOfBlock b) = some a) ∧
(∃ (s v : State) (slot n o : Nat) (desc b : List Byte), s.takenBlock 176 = some (slot, desc, b, v) ∧ byteAt desc 1 = n ∧ byteAt desc 2 = o ∧ n < 2 ∧ o
      < 32 ∧ byteAt desc 0 = 1 ∧ v.objBad n (objOfBlock b) = none ∧ (v.cab.sends.any fun (y : CanSend) => y.chan == n && y.obj == o) = true) ∧
(∃ (s v : State) (slot n o : Nat) (desc b : List Byte), s.takenBlock 176 = some (slot, desc, b, v) ∧ byteAt desc 1 = n ∧ byteAt desc 2 = o ∧ n < 2 ∧ o
      < 32 ∧ byteAt desc 0 = 1 ∧ v.objBad n (objOfBlock b) = none ∧ (v.cab.sends.any fun (y : CanSend) => y.chan == n && y.obj == o) = false) ∧
(∃ (s v : State) (slot n o : Nat) (desc b : List Byte), s.takenBlock 176 = some (slot, desc, b, v) ∧ byteAt desc 1 = n ∧ byteAt desc 2 = o ∧ n < 2 ∧ o
      < 32 ∧ byteAt desc 0 = 2 ∧ v.cabObj n o = none) ∧
(∃ (s v : State) (slot n o : Nat) (desc b : List Byte) (x : CabObj), s.takenBlock 176 = some (slot, desc, b, v) ∧ byteAt desc 1 = n ∧ byteAt desc 2 =
      o ∧ n < 2 ∧ o < 32 ∧ byteAt desc 0 = 2 ∧ v.cabObj n o = some x ∧ (x.rx = true ∨ (byteAt desc 3).testBit 0 = true ∧ (v.flag (F.CAB_CFG_enable n)
      = false ∨ v.fld (F.CAB_CFG_mode n) = 1 ∨ v.canState n = 5))) ∧
(∃ (s v : State) (slot n o : Nat) (desc b : List Byte) (x : CabObj), s.takenBlock 176 = some (slot, desc, b, v) ∧ byteAt desc 1 = n ∧ byteAt desc 2 =
      o ∧ n < 2 ∧ o < 32 ∧ byteAt desc 0 = 2 ∧ v.cabObj n o = some x ∧ x.rx = false ∧ (byteAt desc 3).testBit 0 = false) ∧
(∃ (s v : State) (slot n o : Nat) (desc b : List Byte) (x : CabObj), s.takenBlock 176 = some (slot, desc, b, v) ∧ byteAt desc 1 = n ∧ byteAt desc 2 =
      o ∧ n < 2 ∧ o < 32 ∧ byteAt desc 0 = 2 ∧ v.cabObj n o = some x ∧ x.rx = false ∧ (byteAt desc 3).testBit 0 = true ∧ v.flag (F.CAB_CFG_enable n) =
      true ∧ v.fld (F.CAB_CFG_mode n) ≠ 1 ∧ v.canState n = 3) ∧
(∃ (s v : State) (slot n o : Nat) (desc b : List Byte) (x : CabObj), s.takenBlock 176 = some (slot, desc, b, v) ∧ byteAt desc 1 = n ∧ byteAt desc 2 =
      o ∧ n < 2 ∧ o < 32 ∧ byteAt desc 0 = 2 ∧ v.cabObj n o = some x ∧ x.rx = false ∧ (byteAt desc 3).testBit 0 = true ∧ v.flag (F.CAB_CFG_enable n) =
      true ∧ v.fld (F.CAB_CFG_mode n) ≠ 1 ∧ v.canState n ≠ 3 ∧ v.canState n ≠ 5 ∧ x.ownerOnly = true ∧ v.cabOwner = false) ∧
(∃ (s v : State) (slot n o : Nat) (desc b : List Byte) (x : CabObj), s.takenBlock 176 = some (slot, desc, b, v) ∧ byteAt desc 1 = n ∧ byteAt desc 2 =
      o ∧ n < 2 ∧ o < 32 ∧ byteAt desc 0 = 2 ∧ v.cabObj n o = some x ∧ x.rx = false ∧ (byteAt desc 3).testBit 0 = true ∧ v.flag (F.CAB_CFG_enable n) =
      true ∧ v.fld (F.CAB_CFG_mode n) ≠ 1 ∧ v.canState n ≠ 3 ∧ v.canState n ≠ 5 ∧ (x.ownerOnly = false ∨ v.cabOwner = true) ∧ x.period = 0) :=
  ⟨⟨(br [1, 0, 4, 0, 0, 0, 0, 0, 0, 0x30] ([5, 0, 0, 0x80, 0, 0, 0, 0, 1, 2] ++ zeros 54)), (tkb 0xB0 (br [1, 0, 4, 0, 0, 0, 0, 0, 0, 0x30] ([5, 0, 0,
      0x80, 0, 0, 0, 0, 1, 2] ++ zeros 54))), 0, 0, 4, [1, 0, 4, 0, 0, 0, 0, 0, 0, 0x30] ++ zeros 22, [5, 0, 0, 0x80, 0, 0, 0, 0, 1, 2] ++ zeros 54,
      8, by decide +kernel⟩,
    ⟨(withSend (snd false false none) (br [1, 0, 4, 0, 0, 0, 0, 0, 0, 0x30] ([5, 0, 0, 0x80, 0, 0, 0, 0, 0, 2] ++ zeros 54))), (tkb 0xB0 (withSend (snd
      false false none) (br [1, 0, 4, 0, 0, 0, 0, 0, 0, 0x30] ([5, 0, 0, 0x80, 0, 0, 0, 0, 0, 2] ++ zeros 54)))), 0, 0, 4, [1, 0, 4, 0, 0, 0, 0, 0, 0,
      0x30] ++ zeros 22, [5, 0, 0, 0x80, 0, 0, 0, 0, 0, 2] ++ zeros 54, by decide +kernel⟩,
    ⟨(br [1, 0, 5, 0, 0, 0, 0, 0, 0, 0x30] ([5, 0, 0, 0x80, 0, 0, 0, 0, 0, 2] ++ zeros 54)), (tkb 0xB0 (br [1, 0, 5, 0, 0, 0, 0, 0, 0, 0x30] ([5, 0, 0,
      0x80, 0, 0, 0, 0, 0, 2] ++ zeros 54))), 0, 0, 5, [1, 0, 5, 0, 0, 0, 0, 0, 0, 0x30] ++ zeros 22, [5, 0, 0, 0x80, 0, 0, 0, 0, 0, 2] ++ zeros 54,
      by decide +kernel⟩,
    ⟨(br [2, 0, 9, 1, 0, 0, 0, 0, 0, 0x30] ((1 :: zeros 63))), (tkb 0xB0 (br [2, 0, 9, 1, 0, 0, 0, 0, 0, 0x30] ((1 :: zeros 63)))), 0, 0, 9, [2, 0, 9, 1,
      0, 0, 0, 0, 0, 0x30] ++ zeros 22, (1 :: zeros 63), by decide +kernel⟩,
    ⟨(br [2, 0, 3, 1, 0, 0, 0, 0, 0, 0x30] ((1 :: zeros 63))), (tkb 0xB0 (br [2, 0, 3, 1, 0, 0, 0, 0, 0, 0x30] ((1 :: zeros 63)))), 0, 0, 3, [2, 0, 3, 1,
      0, 0, 0, 0, 0, 0x30] ++ zeros 22, (1 :: zeros 63), rxo, by decide +kernel⟩,
    ⟨(br [2, 0, 4, 0, 0, 0, 0, 0, 0, 0x30] ((1 :: zeros 63))), (tkb 0xB0 (br [2, 0, 4, 0, 0, 0, 0, 0, 0, 0x30] ((1 :: zeros 63)))), 0, 0, 4, [2, 0, 4, 0,
      0, 0, 0, 0, 0, 0x30] ++ zeros 22, (1 :: zeros 63), txo, by decide +kernel⟩,
    ⟨((br [2, 0, 4, 1, 0, 0, 0, 0, 0, 0x30] ((1 :: zeros 63))).setFld (F.CAB_STATUS_state 0) 3), (tkb 0xB0 ((br [2, 0, 4, 1, 0, 0, 0, 0, 0, 0x30] ((1 ::
      zeros 63))).setFld (F.CAB_STATUS_state 0) 3)), 0, 0, 4, [2, 0, 4, 1, 0, 0, 0, 0, 0, 0x30] ++ zeros 22, (1 :: zeros 63), txo, by decide +kernel⟩,
    ⟨(((br [2, 0, 4, 1, 0, 0, 0, 0, 0, 0x30] ((1 :: zeros 63))).setFld F.TWN_STATUS_role 3).modCab fun c =>
      { c with objs := [(3, rxo), (4, { txo with ownerOnly := true })] }), (tkb 0xB0 (((br [2, 0, 4, 1, 0, 0, 0, 0, 0, 0x30] ((1 :: zeros 63))).setFld
      F.TWN_STATUS_role 3).modCab fun c => { c with objs := [(3, rxo), (4, { txo with ownerOnly := true })] })), 0, 0, 4, [2, 0, 4, 1, 0, 0, 0, 0, 0,
      0x30] ++ zeros 22, (1 :: zeros 63), { txo with ownerOnly := true }, by decide +kernel⟩,
    ⟨(br [2, 0, 4, 1, 0, 0, 0, 0, 0, 0x30] ((1 :: zeros 63))), (tkb 0xB0 (br [2, 0, 4, 1, 0, 0, 0, 0, 0, 0x30] ((1 :: zeros 63)))), 0, 0, 4, [2, 0, 4, 1,
      0, 0, 0, 0, 0, 0x30] ++ zeros 22, (1 :: zeros 63), txo, by decide +kernel⟩⟩

/-- Clauses 5.2.1, 5.2.4.1, 9.2.2.3.4. -/
theorem witness_CabinetFramesAreSentAndReceived_5 :
(∃ (n out : Nat) (s : State) (x : CanSend), n < 2 ∧ List.find? (fun (x : CanSend) => x.chan == n && x.onBus) s.cab.sends = some x ∧ s.cabOwner = true
      ∧ out = 0 ∧ s.fld (F.CAB_CFG_mode n) = 2) ∧
(∃ (n out : Nat) (s : State) (x : CanSend), n < 2 ∧ List.find? (fun (x : CanSend) => x.chan == n && x.onBus) s.cab.sends = some x ∧ s.cabOwner = true
      ∧ (out = 1 ∨ out = 2) ∧ x.oneShot = false ∧ s.cab.sleepReq.contains n = false ∧ s.flag (F.CAB_CFG_enable n) = true ∧ 32 ≤ x.obj ∧
      ((s.cab.sends.erase x).any fun (y : CanSend) => y.obj == x.obj) = true) ∧
(∃ (s v : State) (slot n o : Nat) (desc b : List Byte) (x : CabObj), s.takenBlock 176 = some (slot, desc, b, v) ∧ byteAt desc 1 = n ∧ byteAt desc 2 =
      o ∧ n < 2 ∧ o < 32 ∧ byteAt desc 0 = 2 ∧ v.cabObj n o = some x ∧ x.rx = false ∧ (byteAt desc 3).testBit 0 = true ∧ v.flag (F.CAB_CFG_enable n) =
      true ∧ v.fld (F.CAB_CFG_mode n) ≠ 1 ∧ v.canState n ≠ 3 ∧ v.canState n ≠ 5 ∧ (x.ownerOnly = false ∨ v.cabOwner = true) ∧ x.period ≠ 0) :=
  ⟨⟨0, 0, (withSend ({ snd true false none with frame := cfr, obj := 3 }) ((cab lit).setFld (F.CAB_CFG_mode 0) 2)),
      { snd true false none with frame := cfr, obj := 3 }, by decide +kernel⟩,
    ⟨0, 1, (withSend ({ snd true false none with obj := 35, ownerOnly := true }) (cab lit)).modCab (fun c =>
      { c with sends := c.sends ++ [{ snd false false none with obj := 35, ownerOnly := true }] }),
      { snd true false none with obj := 35, ownerOnly := true }, by decide +kernel⟩,
    ⟨((br [2, 0, 4, 1, 0, 0, 0, 0, 0, 0x30] ((1 :: zeros 63))).modCab fun c => { c with objs := [(3, rxo), (4, { txo with period := 10 })] }), (tkb 0xB0
      ((br [2, 0, 4, 1, 0, 0, 0, 0, 0, 0x30] ((1 :: zeros 63))).modCab fun c => { c with objs := [(3, rxo), (4, { txo with period := 10 })] })), 0, 0,
      4, [2, 0, 4, 1, 0, 0, 0, 0, 0, 0x30] ++ zeros 22, (1 :: zeros 63), { txo with period := 10 }, by decide +kernel⟩⟩

/-- Clause 1.1. -/
theorem witness_KeysAreFilledUsedAndFenced_1 :
(∃ (s v : State) (slot op : Nat) (desc b : List Byte) (c : Instr) (rb : Bool) (types : List Nat) (st off n : Nat), s.takenBlock 8 = some (slot, desc,
      b, v) ∧ s.auditRoom = true ∧ byteAt desc 0 = op ∧ (op, c, types) ∈ [(1, Instr.keyWrite rb, [1, 2, 3, 4, 5]), (2, Instr.keyGenerate rb, [1, 2, 3,
      4]), (3, Instr.keyDeriveHkdf rb, [1, 2, 3, 4]), (4, Instr.keyDerive108 rb, [1, 2, 3, 4])] ∧ (st = Status.formatError ∧ off = 0 ∧ n = byteAt desc
      1 ∧ (7 ≤ keyType (le b 0 4) ∨ ¬keyType (le b 0 4) ∈ types ∧ op ≤ 2 ∨ keyType (le b 0 4) ∈ types ∧ attrGood (attrWord (le b 0 4)) = false) ∨ st =
      Status.refused ∧ off = 255 ∧ n = byteAt desc 1 ∧ keyType (le b 0 4) ∈ [0, 5, 6] ∧ 3 ≤ op ∨ st = Status.refused ∧ off = 255 ∧ keyType (le b 0 4)
      ∈ types ∧ attrGood (attrWord (le b 0 4)) = true ∧ v.keyDest (byteAt desc 1) = some n ∧ ((v.keySlot n).attr.testBit 19 = true ∨ v.flag
      F.KEY_STATUS_rng_ok = false))) ∧
(∃ (s v : State) (slot op : Nat) (desc b : List Byte) (c : Instr) (rb : Bool) (types : List Nat) (st off n : Nat), s.takenBlock 8 = some (slot, desc,
      b, v) ∧ s.auditRoom = true ∧ byteAt desc 0 = op ∧ (op, c, types) ∈ [(1, Instr.keyWrite rb, [1, 2, 3, 4, 5]), (2, Instr.keyGenerate rb, [1, 2, 3,
      4]), (3, Instr.keyDeriveHkdf rb, [1, 2, 3, 4]), (4, Instr.keyDerive108 rb, [1, 2, 3, 4])] ∧ (st = Status.formatError ∧ off = 0 ∧ n = byteAt desc
      1 ∧ (7 ≤ keyType (le b 0 4) ∨ ¬keyType (le b 0 4) ∈ types ∧ op ≤ 2 ∨ keyType (le b 0 4) ∈ types ∧ attrGood (attrWord (le b 0 4)) = false) ∨ st =
      Status.refused ∧ off = 255 ∧ n = byteAt desc 1 ∧ keyType (le b 0 4) ∈ [0, 5, 6] ∧ 3 ≤ op ∨ st = Status.refused ∧ off = 255 ∧ keyType (le b 0 4)
      ∈ types ∧ attrGood (attrWord (le b 0 4)) = true ∧ v.keyDest (byteAt desc 1) = some n ∧ ((v.keySlot n).attr.testBit 19 = true ∨ v.flag
      F.KEY_STATUS_rng_ok = false))) ∧
(∃ (s v : State) (slot op : Nat) (desc b : List Byte) (c : Instr) (rb : Bool) (types : List Nat) (st off n : Nat), s.takenBlock 8 = some (slot, desc,
      b, v) ∧ s.auditRoom = true ∧ byteAt desc 0 = op ∧ (op, c, types) ∈ [(1, Instr.keyWrite rb, [1, 2, 3, 4, 5]), (2, Instr.keyGenerate rb, [1, 2, 3,
      4]), (3, Instr.keyDeriveHkdf rb, [1, 2, 3, 4]), (4, Instr.keyDerive108 rb, [1, 2, 3, 4])] ∧ (st = Status.formatError ∧ off = 0 ∧ n = byteAt desc
      1 ∧ (7 ≤ keyType (le b 0 4) ∨ ¬keyType (le b 0 4) ∈ types ∧ op ≤ 2 ∨ keyType (le b 0 4) ∈ types ∧ attrGood (attrWord (le b 0 4)) = false) ∨ st =
      Status.refused ∧ off = 255 ∧ n = byteAt desc 1 ∧ keyType (le b 0 4) ∈ [0, 5, 6] ∧ 3 ≤ op ∨ st = Status.refused ∧ off = 255 ∧ keyType (le b 0 4)
      ∈ types ∧ attrGood (attrWord (le b 0 4)) = true ∧ v.keyDest (byteAt desc 1) = some n ∧ ((v.keySlot n).attr.testBit 19 = true ∨ v.flag
      F.KEY_STATUS_rng_ok = false))) :=
  ⟨⟨(kr ([1, 9, 0, 0, 0, 0, 0, 0, 0, 0x30]) (kb 9 0 0 0 0 20480 24576 32 0)), (tkb 8 (kr ([1, 9, 0, 0, 0, 0, 0, 0, 0, 0x30]) (kb 9 0 0 0 0 20480 24576 32
      0))), 0, 1, [1, 9, 0, 0, 0, 0, 0, 0, 0, 0x30] ++ zeros 22, kb 9 0 0 0 0 20480 24576 32 0, .keyWrite true, true, [1, 2, 3, 4, 5], 3, 0, 9, by
      decide +kernel⟩,
    ⟨(kr ([2, 9, 0, 0, 0, 0, 0, 0, 0, 0x30]) (kb 5 0 0 0 0 20480 24576 32 0)), (tkb 8 (kr ([2, 9, 0, 0, 0, 0, 0, 0, 0, 0x30]) (kb 5 0 0 0 0 20480 24576 32
      0))), 0, 2, [2, 9, 0, 0, 0, 0, 0, 0, 0, 0x30] ++ zeros 22, kb 5 0 0 0 0 20480 24576 32 0, .keyGenerate true, true, [1, 2, 3, 4], 3, 0, 9, by
      decide +kernel⟩,
    ⟨(kr ([3, 9, 6, 0, 0, 0, 0, 0, 0, 0x30]) (kb 5 0 0 0 0 20480 24576 32 0)), (tkb 8 (kr ([3, 9, 6, 0, 0, 0, 0, 0, 0, 0x30]) (kb 5 0 0 0 0 20480 24576 32
      0))), 0, 3, [3, 9, 6, 0, 0, 0, 0, 0, 0, 0x30] ++ zeros 22, kb 5 0 0 0 0 20480 24576 32 0, .keyDeriveHkdf true, true, [1, 2, 3, 4], 4, 255, 9, by
      decide +kernel⟩⟩

/-- Clause 1.2. -/
theorem witness_KeysAreFilledUsedAndFenced_2 :
∃ (s v : State) (slot op : Nat) (desc b : List Byte) (c : Instr) (rb : Bool) (types : List Nat), s.takenBlock 8 = some (slot, desc, b, v) ∧
      s.auditRoom = true ∧ byteAt desc 0 = op ∧ (op, c, types) ∈ [(1, Instr.keyWrite rb, [1, 2, 3, 4, 5]), (2, Instr.keyGenerate rb, [1, 2, 3, 4]),
      (3, Instr.keyDeriveHkdf rb, [1, 2, 3, 4]), (4, Instr.keyDerive108 rb, [1, 2, 3, 4])] ∧ keyType (le b 0 4) ∈ types ∧ attrGood (attrWord (le b 0
      4)) = true ∧ v.keyDest (byteAt desc 1) = none :=
⟨((kr ([2, 0, 0, 0, 0, 0, 0, 0, 0, 0x30]) (kb 1 0 0 0 0 20480 24576 32 0)).modKey fun k =>
    { k with slots := (List.range 256).map fun i => (i, { attr := 1, key := [] }) }), (tkb 8 ((kr ([2, 0, 0, 0, 0, 0, 0, 0, 0, 0x30]) (kb 1 0 0 0 0
    20480 24576 32 0)).modKey fun k => { k with slots := (List.range 256).map fun i => (i, { attr := 1, key := [] }) })), 0, 2, [2, 0, 0, 0, 0, 0, 0,
    0, 0, 0x30] ++ zeros 22, kb 1 0 0 0 0 20480 24576 32 0, .keyGenerate true, true, [1, 2, 3, 4], by decide +kernel⟩

/-- Clauses 1.3.1, 1.3.3. -/
theorem witness_KeysAreFilledUsedAndFenced_3 :
(∃ (s v : State) (slot op : Nat) (desc b : List Byte) (c : Instr) (rb : Bool) (types : List Nat) (dest len n : Nat) (key kek bs : List Byte) (w x :
      State), s.takenBlock 8 = some (slot, desc, b, v) ∧ s.auditRoom = true ∧ byteAt desc 0 = op ∧ (op, c, types) ∈ [(1, Instr.keyWrite rb, [1, 2, 3,
      4, 5]), (2, Instr.keyGenerate rb, [1, 2, 3, 4]), (3, Instr.keyDeriveHkdf rb, [1, 2, 3, 4]), (4, Instr.keyDerive108 rb, [1, 2, 3, 4])] ∧ keyType
      (le b 0 4) ∈ types ∧ attrGood (attrWord (le b 0 4)) = true ∧ v.keyDest (byteAt desc 1) = some dest ∧ (v.keySlot dest).attr.testBit 19 = false ∧
      v.flag F.KEY_STATUS_rng_ok = true ∧ len = keyLength (keyType (le b 0 4)) ∧ n = le b 32 4 ∧ (op = 1 ∧ (byteAt b 8).testBit 1 = false ∧ le b 16 8
      < 2 ^ 40 ∧ n = len ∧ v.keyData (le b 16 8) n = some (key, w) ∨ op = 1 ∧ (byteAt b 8).testBit 1 = true ∧ le b 16 8 < 2 ^ 40 ∧ n = len + 28 ∧
      v.keyRequest 6 (byteAt desc 2) [1] [15] = (KeyAnswer.key kek, x) ∧ x.keyData (le b 16 8) n = some (bs, w) ∧ Crypto.gcmOpen kek (List.take 12 bs)
      (natLE 4 (le b 0 4)) (sliceB bs 12 len) (List.drop (12 + len) bs) = some key ∨ op = 2 ∧ v.random len = (key, w) ∨ 3 ≤ op ∧ (v.keySlot (byteAt
      desc 2)).damaged = false ∧ (v.keySlot (byteAt desc 2)).attr.testBit 14 = true ∧ le b 16 8 < 2 ^ 40 ∧ le b 10 2 ≤ 256 ∧ le b 12 2 ≤ 256 ∧ n = le
      b 10 2 + le b 12 2 ∧ v.keyData (le b 16 8) n = some (bs, w) ∧ (op = 3 ∧ List.take 8 (List.drop (le b 10 2) bs) ≠ ascii "CSG-4810" ∧ key =
      Crypto.hkdf (v.keySlot (byteAt desc 2)).key (List.take (le b 10 2) bs) (List.drop (le b 10 2) bs) len ∨ op = 4 ∧ List.take 8 (List.take (le b 10
      2) bs) ≠ ascii "CSG-4810" ∧ key = Crypto.kdf108 (v.keySlot (byteAt desc 2)).key (List.take (le b 10 2) bs) (List.drop (le b 10 2) bs) len)) ∧ rb
      = false) ∧
(∃ (s v : State) (slot op : Nat) (desc b : List Byte) (c : Instr) (rb : Bool) (types : List Nat) (dest len n : Nat) (key kek bs : List Byte) (w x :
      State), s.takenBlock 8 = some (slot, desc, b, v) ∧ s.auditRoom = true ∧ byteAt desc 0 = op ∧ (op, c, types) ∈ [(1, Instr.keyWrite rb, [1, 2, 3,
      4, 5]), (2, Instr.keyGenerate rb, [1, 2, 3, 4]), (3, Instr.keyDeriveHkdf rb, [1, 2, 3, 4]), (4, Instr.keyDerive108 rb, [1, 2, 3, 4])] ∧ keyType
      (le b 0 4) ∈ types ∧ attrGood (attrWord (le b 0 4)) = true ∧ v.keyDest (byteAt desc 1) = some dest ∧ (v.keySlot dest).attr.testBit 19 = false ∧
      v.flag F.KEY_STATUS_rng_ok = true ∧ len = keyLength (keyType (le b 0 4)) ∧ n = le b 32 4 ∧ (op = 1 ∧ (byteAt b 8).testBit 1 = false ∧ le b 16 8
      < 2 ^ 40 ∧ n = len ∧ v.keyData (le b 16 8) n = some (key, w) ∨ op = 1 ∧ (byteAt b 8).testBit 1 = true ∧ le b 16 8 < 2 ^ 40 ∧ n = len + 28 ∧
      v.keyRequest 6 (byteAt desc 2) [1] [15] = (KeyAnswer.key kek, x) ∧ x.keyData (le b 16 8) n = some (bs, w) ∧ Crypto.gcmOpen kek (List.take 12 bs)
      (natLE 4 (le b 0 4)) (sliceB bs 12 len) (List.drop (12 + len) bs) = some key ∨ op = 2 ∧ v.random len = (key, w) ∨ 3 ≤ op ∧ (v.keySlot (byteAt
      desc 2)).damaged = false ∧ (v.keySlot (byteAt desc 2)).attr.testBit 14 = true ∧ le b 16 8 < 2 ^ 40 ∧ le b 10 2 ≤ 256 ∧ le b 12 2 ≤ 256 ∧ n = le
      b 10 2 + le b 12 2 ∧ v.keyData (le b 16 8) n = some (bs, w) ∧ (op = 3 ∧ List.take 8 (List.drop (le b 10 2) bs) ≠ ascii "CSG-4810" ∧ key =
      Crypto.hkdf (v.keySlot (byteAt desc 2)).key (List.take (le b 10 2) bs) (List.drop (le b 10 2) bs) len ∨ op = 4 ∧ List.take 8 (List.take (le b 10
      2) bs) ≠ ascii "CSG-4810" ∧ key = Crypto.kdf108 (v.keySlot (byteAt desc 2)).key (List.take (le b 10 2) bs) (List.drop (le b 10 2) bs) len)) ∧ rb
      = true ∧ ((byteAt b 8).testBit 0 = false ∨ kcv { attr := attrWord (le b 0 4), key := key } = le b 4 4)) :=
  ⟨⟨(kr ([1, 9, 0, 0, 0, 0, 0, 0, 0, 0x30]) (kb 257 0 0 0 0 20480 24576 32 0)), (tkb 8 (kr ([1, 9, 0, 0, 0, 0, 0, 0, 0, 0x30]) (kb 257 0 0 0 0 20480
      24576 32 0))), 0, 1, [1, 9, 0, 0, 0, 0, 0, 0, 0, 0x30] ++ zeros 22, kb 257 0 0 0 0 20480 24576 32 0, .keyWrite false, false, [1, 2, 3, 4, 5], 9,
      32, 32, kd (tkb 8 (kr ([1, 9, 0, 0, 0, 0, 0, 0, 0, 0x30]) (kb 257 0 0 0 0 20480 24576 32 0))) 0x5000 32, [], [], kw (tkb 8 (kr ([1, 9, 0, 0, 0,
      0, 0, 0, 0, 0x30]) (kb 257 0 0 0 0 20480 24576 32 0))) 0x5000 32, (tkb 8 (kr ([1, 9, 0, 0, 0, 0, 0, 0, 0, 0x30]) (kb 257 0 0 0 0 20480 24576 32
      0))), by and_intros <;> decide +kernel⟩,
    ⟨(kr ([1, 9, 0, 0, 0, 0, 0, 0, 0, 0x30]) (kb 257 0 0 0 0 20480 24576 32 0)), (tkb 8 (kr ([1, 9, 0, 0, 0, 0, 0, 0, 0, 0x30]) (kb 257 0 0 0 0 20480
      24576 32 0))), 0, 1, [1, 9, 0, 0, 0, 0, 0, 0, 0, 0x30] ++ zeros 22, kb 257 0 0 0 0 20480 24576 32 0, .keyWrite true, true, [1, 2, 3, 4, 5], 9,
      32, 32, kd (tkb 8 (kr ([1, 9, 0, 0, 0, 0, 0, 0, 0, 0x30]) (kb 257 0 0 0 0 20480 24576 32 0))) 0x5000 32, [], [], kw (tkb 8 (kr ([1, 9, 0, 0, 0,
      0, 0, 0, 0, 0x30]) (kb 257 0 0 0 0 20480 24576 32 0))) 0x5000 32, (tkb 8 (kr ([1, 9, 0, 0, 0, 0, 0, 0, 0, 0x30]) (kb 257 0 0 0 0 20480 24576 32
      0))), by and_intros <;> decide +kernel⟩⟩

/-- Clauses 1.3.2, 1.3.3. -/
theorem witness_KeysAreFilledUsedAndFenced_4 :
(∃ (s v : State) (slot op : Nat) (desc b : List Byte) (c : Instr) (rb : Bool) (types : List Nat) (dest len n : Nat) (key kek bs : List Byte) (w x :
      State), s.takenBlock 8 = some (slot, desc, b, v) ∧ s.auditRoom = true ∧ byteAt desc 0 = op ∧ (op, c, types) ∈ [(1, Instr.keyWrite rb, [1, 2, 3,
      4, 5]), (2, Instr.keyGenerate rb, [1, 2, 3, 4]), (3, Instr.keyDeriveHkdf rb, [1, 2, 3, 4]), (4, Instr.keyDerive108 rb, [1, 2, 3, 4])] ∧ keyType
      (le b 0 4) ∈ types ∧ attrGood (attrWord (le b 0 4)) = true ∧ v.keyDest (byteAt desc 1) = some dest ∧ (v.keySlot dest).attr.testBit 19 = false ∧
      v.flag F.KEY_STATUS_rng_ok = true ∧ len = keyLength (keyType (le b 0 4)) ∧ n = le b 32 4 ∧ (op = 1 ∧ (byteAt b 8).testBit 1 = false ∧ le b 16 8
      < 2 ^ 40 ∧ n = len ∧ v.keyData (le b 16 8) n = some (key, w) ∨ op = 1 ∧ (byteAt b 8).testBit 1 = true ∧ le b 16 8 < 2 ^ 40 ∧ n = len + 28 ∧
      v.keyRequest 6 (byteAt desc 2) [1] [15] = (KeyAnswer.key kek, x) ∧ x.keyData (le b 16 8) n = some (bs, w) ∧ Crypto.gcmOpen kek (List.take 12 bs)
      (natLE 4 (le b 0 4)) (sliceB bs 12 len) (List.drop (12 + len) bs) = some key ∨ op = 2 ∧ v.random len = (key, w) ∨ 3 ≤ op ∧ (v.keySlot (byteAt
      desc 2)).damaged = false ∧ (v.keySlot (byteAt desc 2)).attr.testBit 14 = true ∧ le b 16 8 < 2 ^ 40 ∧ le b 10 2 ≤ 256 ∧ le b 12 2 ≤ 256 ∧ n = le
      b 10 2 + le b 12 2 ∧ v.keyData (le b 16 8) n = some (bs, w) ∧ (op = 3 ∧ List.take 8 (List.drop (le b 10 2) bs) ≠ ascii "CSG-4810" ∧ key =
      Crypto.hkdf (v.keySlot (byteAt desc 2)).key (List.take (le b 10 2) bs) (List.drop (le b 10 2) bs) len ∨ op = 4 ∧ List.take 8 (List.take (le b 10
      2) bs) ≠ ascii "CSG-4810" ∧ key = Crypto.kdf108 (v.keySlot (byteAt desc 2)).key (List.take (le b 10 2) bs) (List.drop (le b 10 2) bs) len)) ∧ rb
      = true ∧ (byteAt b 8).testBit 0 = true ∧ kcv { attr := attrWord (le b 0 4), key := key } ≠ le b 4 4) ∧
(∃ (s v : State) (slot op : Nat) (desc b : List Byte) (c : Instr) (rb : Bool) (types : List Nat) (dest len n : Nat) (key kek bs : List Byte) (w x :
      State), s.takenBlock 8 = some (slot, desc, b, v) ∧ s.auditRoom = true ∧ byteAt desc 0 = op ∧ (op, c, types) ∈ [(1, Instr.keyWrite rb, [1, 2, 3,
      4, 5]), (2, Instr.keyGenerate rb, [1, 2, 3, 4]), (3, Instr.keyDeriveHkdf rb, [1, 2, 3, 4]), (4, Instr.keyDerive108 rb, [1, 2, 3, 4])] ∧ keyType
      (le b 0 4) ∈ types ∧ attrGood (attrWord (le b 0 4)) = true ∧ v.keyDest (byteAt desc 1) = some dest ∧ (v.keySlot dest).attr.testBit 19 = false ∧
      v.flag F.KEY_STATUS_rng_ok = true ∧ len = keyLength (keyType (le b 0 4)) ∧ n = le b 32 4 ∧ (op = 1 ∧ (byteAt b 8).testBit 1 = false ∧ le b 16 8
      < 2 ^ 40 ∧ n = len ∧ v.keyData (le b 16 8) n = some (key, w) ∨ op = 1 ∧ (byteAt b 8).testBit 1 = true ∧ le b 16 8 < 2 ^ 40 ∧ n = len + 28 ∧
      v.keyRequest 6 (byteAt desc 2) [1] [15] = (KeyAnswer.key kek, x) ∧ x.keyData (le b 16 8) n = some (bs, w) ∧ Crypto.gcmOpen kek (List.take 12 bs)
      (natLE 4 (le b 0 4)) (sliceB bs 12 len) (List.drop (12 + len) bs) = some key ∨ op = 2 ∧ v.random len = (key, w) ∨ 3 ≤ op ∧ (v.keySlot (byteAt
      desc 2)).damaged = false ∧ (v.keySlot (byteAt desc 2)).attr.testBit 14 = true ∧ le b 16 8 < 2 ^ 40 ∧ le b 10 2 ≤ 256 ∧ le b 12 2 ≤ 256 ∧ n = le
      b 10 2 + le b 12 2 ∧ v.keyData (le b 16 8) n = some (bs, w) ∧ (op = 3 ∧ List.take 8 (List.drop (le b 10 2) bs) ≠ ascii "CSG-4810" ∧ key =
      Crypto.hkdf (v.keySlot (byteAt desc 2)).key (List.take (le b 10 2) bs) (List.drop (le b 10 2) bs) len ∨ op = 4 ∧ List.take 8 (List.take (le b 10
      2) bs) ≠ ascii "CSG-4810" ∧ key = Crypto.kdf108 (v.keySlot (byteAt desc 2)).key (List.take (le b 10 2) bs) (List.drop (le b 10 2) bs) len)) ∧ rb
      = true ∧ ((byteAt b 8).testBit 0 = false ∨ kcv { attr := attrWord (le b 0 4), key := key } = le b 4 4)) :=
  ⟨⟨(kr ([1, 0, 0, 0, 0, 0, 0, 0, 0, 0x30]) (kb 257 1 1 0 0 20480 24576 32 0)), (tkb 8 (kr ([1, 0, 0, 0, 0, 0, 0, 0, 0, 0x30]) (kb 257 1 1 0 0 20480
      24576 32 0))), 0, 1, [1, 0, 0, 0, 0, 0, 0, 0, 0, 0x30] ++ zeros 22, kb 257 1 1 0 0 20480 24576 32 0, .keyWrite true, true, [1, 2, 3, 4, 5], 1,
      32, 32, kd (tkb 8 (kr ([1, 0, 0, 0, 0, 0, 0, 0, 0, 0x30]) (kb 257 1 1 0 0 20480 24576 32 0))) 0x5000 32, [], [], kw (tkb 8 (kr ([1, 0, 0, 0, 0,
      0, 0, 0, 0, 0x30]) (kb 257 1 1 0 0 20480 24576 32 0))) 0x5000 32, (tkb 8 (kr ([1, 0, 0, 0, 0, 0, 0, 0, 0, 0x30]) (kb 257 1 1 0 0 20480 24576 32
      0))), by and_intros <;> decide +kernel⟩,
    ⟨(kr ([2, 9, 0, 0, 0, 0, 0, 0, 0, 0x30]) (kb 257 0 0 0 0 20480 24576 32 0)), (tkb 8 (kr ([2, 9, 0, 0, 0, 0, 0, 0, 0, 0x30]) (kb 257 0 0 0 0 20480
      24576 32 0))), 0, 2, [2, 9, 0, 0, 0, 0, 0, 0, 0, 0x30] ++ zeros 22, kb 257 0 0 0 0 20480 24576 32 0, .keyGenerate true, true, [1, 2, 3, 4], 9,
      32, 32, ((tkb 8 (kr ([2, 9, 0, 0, 0, 0, 0, 0, 0, 0x30]) (kb 257 0 0 0 0 20480 24576 32 0))).random 32).1, [], [], ((tkb 8 (kr ([2, 9, 0, 0, 0,
      0, 0, 0, 0, 0x30]) (kb 257 0 0 0 0 20480 24576 32 0))).random 32).2, (tkb 8 (kr ([2, 9, 0, 0, 0, 0, 0, 0, 0, 0x30]) (kb 257 0 0 0 0 20480 24576
      32 0))), by and_intros <;> first | decide +kernel | exact (.inr (.inr (.inl ⟨rfl, rfl⟩)))⟩⟩

/-- Clause 1.3.3. -/
theorem witness_KeysAreFilledUsedAndFenced_5 :
∃ (s v : State) (slot op : Nat) (desc b : List Byte) (c : Instr) (rb : Bool) (types : List Nat) (dest len n : Nat) (key kek bs : List Byte) (w x :
      State), s.takenBlock 8 = some (slot, desc, b, v) ∧ s.auditRoom = true ∧ byteAt desc 0 = op ∧ (op, c, types) ∈ [(1, Instr.keyWrite rb, [1, 2, 3,
      4, 5]), (2, Instr.keyGenerate rb, [1, 2, 3, 4]), (3, Instr.keyDeriveHkdf rb, [1, 2, 3, 4]), (4, Instr.keyDerive108 rb, [1, 2, 3, 4])] ∧ keyType
      (le b 0 4) ∈ types ∧ attrGood (attrWord (le b 0 4)) = true ∧ v.keyDest (byteAt desc 1) = some dest ∧ (v.keySlot dest).attr.testBit 19 = false ∧
      v.flag F.KEY_STATUS_rng_ok = true ∧ len = keyLength (keyType (le b 0 4)) ∧ n = le b 32 4 ∧ (op = 1 ∧ (byteAt b 8).testBit 1 = false ∧ le b 16 8
      < 2 ^ 40 ∧ n = len ∧ v.keyData (le b 16 8) n = some (key, w) ∨ op = 1 ∧ (byteAt b 8).testBit 1 = true ∧ le b 16 8 < 2 ^ 40 ∧ n = len + 28 ∧
      v.keyRequest 6 (byteAt desc 2) [1] [15] = (KeyAnswer.key kek, x) ∧ x.keyData (le b 16 8) n = some (bs, w) ∧ Crypto.gcmOpen kek (List.take 12 bs)
      (natLE 4 (le b 0 4)) (sliceB bs 12 len) (List.drop (12 + len) bs) = some key ∨ op = 2 ∧ v.random len = (key, w) ∨ 3 ≤ op ∧ (v.keySlot (byteAt
      desc 2)).damaged = false ∧ (v.keySlot (byteAt desc 2)).attr.testBit 14 = true ∧ le b 16 8 < 2 ^ 40 ∧ le b 10 2 ≤ 256 ∧ le b 12 2 ≤ 256 ∧ n = le
      b 10 2 + le b 12 2 ∧ v.keyData (le b 16 8) n = some (bs, w) ∧ (op = 3 ∧ List.take 8 (List.drop (le b 10 2) bs) ≠ ascii "CSG-4810" ∧ key =
      Crypto.hkdf (v.keySlot (byteAt desc 2)).key (List.take (le b 10 2) bs) (List.drop (le b 10 2) bs) len ∨ op = 4 ∧ List.take 8 (List.take (le b 10
      2) bs) ≠ ascii "CSG-4810" ∧ key = Crypto.kdf108 (v.keySlot (byteAt desc 2)).key (List.take (le b 10 2) bs) (List.drop (le b 10 2) bs) len)) ∧ rb
      = true ∧ ((byteAt b 8).testBit 0 = false ∨ kcv { attr := attrWord (le b 0 4), key := key } = le b 4 4) :=
⟨(kr ([3, 9, 6, 0, 0, 0, 0, 0, 0, 0x30]) (kb 257 0 0 8 4 20480 24576 12 0)), (tkb 8 (kr ([3, 9, 6, 0, 0, 0, 0, 0, 0, 0x30]) (kb 257 0 0 8 4 20480
    24576 12 0))), 0, 3, [3, 9, 6, 0, 0, 0, 0, 0, 0, 0x30] ++ zeros 22, kb 257 0 0 8 4 20480 24576 12 0, .keyDeriveHkdf true, true, [1, 2, 3, 4], 9,
    32, 12, Crypto.hkdf tkey ((kd (tkb 8 (kr ([3, 9, 6, 0, 0, 0, 0, 0, 0, 0x30]) (kb 257 0 0 8 4 20480 24576 12 0))) 0x5000 12).take 8) ((kd (tkb 8
    (kr ([3, 9, 6, 0, 0, 0, 0, 0, 0, 0x30]) (kb 257 0 0 8 4 20480 24576 12 0))) 0x5000 12).drop 8) 32, [], kd (tkb 8 (kr ([3, 9, 6, 0, 0, 0, 0, 0, 0,
    0x30]) (kb 257 0 0 8 4 20480 24576 12 0))) 0x5000 12, kw (tkb 8 (kr ([3, 9, 6, 0, 0, 0, 0, 0, 0, 0x30]) (kb 257 0 0 8 4 20480 24576 12 0))) 0x5000
    12, (tkb 8 (kr ([3, 9, 6, 0, 0, 0, 0, 0, 0, 0x30]) (kb 257 0 0 8 4 20480 24576 12 0))), by and_intros <;> decide +kernel⟩

/-- Clauses 1.3.3, 2.1, 2.2. -/
theorem witness_KeysAreFilledUsedAndFenced_6 :
(∃ (s v : State) (slot op : Nat) (desc b : List Byte) (c : Instr) (rb : Bool) (types : List Nat) (dest len n : Nat) (key kek bs : List Byte) (w x :
      State), s.takenBlock 8 = some (slot, desc, b, v) ∧ s.auditRoom = true ∧ byteAt desc 0 = op ∧ (op, c, types) ∈ [(1, Instr.keyWrite rb, [1, 2, 3,
      4, 5]), (2, Instr.keyGenerate rb, [1, 2, 3, 4]), (3, Instr.keyDeriveHkdf rb, [1, 2, 3, 4]), (4, Instr.keyDerive108 rb, [1, 2, 3, 4])] ∧ keyType
      (le b 0 4) ∈ types ∧ attrGood (attrWord (le b 0 4)) = true ∧ v.keyDest (byteAt desc 1) = some dest ∧ (v.keySlot dest).attr.testBit 19 = false ∧
      v.flag F.KEY_STATUS_rng_ok = true ∧ len = keyLength (keyType (le b 0 4)) ∧ n = le b 32 4 ∧ (op = 1 ∧ (byteAt b 8).testBit 1 = false ∧ le b 16 8
      < 2 ^ 40 ∧ n = len ∧ v.keyData (le b 16 8) n = some (key, w) ∨ op = 1 ∧ (byteAt b 8).testBit 1 = true ∧ le b 16 8 < 2 ^ 40 ∧ n = len + 28 ∧
      v.keyRequest 6 (byteAt desc 2) [1] [15] = (KeyAnswer.key kek, x) ∧ x.keyData (le b 16 8) n = some (bs, w) ∧ Crypto.gcmOpen kek (List.take 12 bs)
      (natLE 4 (le b 0 4)) (sliceB bs 12 len) (List.drop (12 + len) bs) = some key ∨ op = 2 ∧ v.random len = (key, w) ∨ 3 ≤ op ∧ (v.keySlot (byteAt
      desc 2)).damaged = false ∧ (v.keySlot (byteAt desc 2)).attr.testBit 14 = true ∧ le b 16 8 < 2 ^ 40 ∧ le b 10 2 ≤ 256 ∧ le b 12 2 ≤ 256 ∧ n = le
      b 10 2 + le b 12 2 ∧ v.keyData (le b 16 8) n = some (bs, w) ∧ (op = 3 ∧ List.take 8 (List.drop (le b 10 2) bs) ≠ ascii "CSG-4810" ∧ key =
      Crypto.hkdf (v.keySlot (byteAt desc 2)).key (List.take (le b 10 2) bs) (List.drop (le b 10 2) bs) len ∨ op = 4 ∧ List.take 8 (List.take (le b 10
      2) bs) ≠ ascii "CSG-4810" ∧ key = Crypto.kdf108 (v.keySlot (byteAt desc 2)).key (List.take (le b 10 2) bs) (List.drop (le b 10 2) bs) len)) ∧ rb
      = true ∧ ((byteAt b 8).testBit 0 = false ∨ kcv { attr := attrWord (le b 0 4), key := key } = le b 4 4)) ∧
(∃ (s v : State) (slot : Nat) (desc b : List Byte) (st off : Nat), s.takenBlock 8 = some (slot, desc, b, v) ∧ s.auditRoom = true ∧ byteAt desc 0 = 5 ∧
      (st = Status.refused ∧ off = 255 ∧ (byteAt desc 1 = 0 ∨ (v.keySlot (byteAt desc 1)).attr.testBit 19 = true) ∨ byteAt desc 1 ≠ 0 ∧ (v.keySlot
      (byteAt desc 1)).attr.testBit 19 = false ∧ off = 0 ∧ (st = Status.memoryError ∧ (v.keySlot (byteAt desc 1)).damaged = true ∨ st =
      Status.notFound ∧ (v.keySlot (byteAt desc 1)).damaged = false ∧ keyType (v.keySlot (byteAt desc 1)).attr = 0 ∨ st = Status.formatError ∧
      (v.keySlot (byteAt desc 1)).damaged = false ∧ keyType (v.keySlot (byteAt desc 1)).attr ≠ 0 ∧ (keyType (le b 0 4) ≠ keyType (v.keySlot (byteAt
      desc 1)).attr ∨ attrGood (attrWord (le b 0 4)) = false)))) ∧
(∃ (s v : State) (slot : Nat) (desc b : List Byte) (k : KeySlot), s.takenBlock 8 = some (slot, desc, b, v) ∧ s.auditRoom = true ∧ byteAt desc 0 = 5 ∧
      k = v.keySlot (byteAt desc 1) ∧ byteAt desc 1 ≠ 0 ∧ k.attr.testBit 19 = false ∧ k.damaged = false ∧ keyType k.attr ≠ 0 ∧ keyType (le b 0 4) =
      keyType k.attr ∧ attrGood (attrWord (le b 0 4)) = true) :=
  ⟨⟨(kr ([4, 9, 6, 0, 0, 0, 0, 0, 0, 0x30]) (kb 257 0 0 8 4 20480 24576 12 0)), (tkb 8 (kr ([4, 9, 6, 0, 0, 0, 0, 0, 0, 0x30]) (kb 257 0 0 8 4 20480
      24576 12 0))), 0, 4, [4, 9, 6, 0, 0, 0, 0, 0, 0, 0x30] ++ zeros 22, kb 257 0 0 8 4 20480 24576 12 0, .keyDerive108 true, true, [1, 2, 3, 4], 9,
      32, 12, Crypto.kdf108 tkey ((kd (tkb 8 (kr ([4, 9, 6, 0, 0, 0, 0, 0, 0, 0x30]) (kb 257 0 0 8 4 20480 24576 12 0))) 0x5000 12).take 8) ((kd (tkb
      8 (kr ([4, 9, 6, 0, 0, 0, 0, 0, 0, 0x30]) (kb 257 0 0 8 4 20480 24576 12 0))) 0x5000 12).drop 8) 32, [], kd (tkb 8 (kr ([4, 9, 6, 0, 0, 0, 0, 0,
      0, 0x30]) (kb 257 0 0 8 4 20480 24576 12 0))) 0x5000 12, kw (tkb 8 (kr ([4, 9, 6, 0, 0, 0, 0, 0, 0, 0x30]) (kb 257 0 0 8 4 20480 24576 12 0)))
      0x5000 12, (tkb 8 (kr ([4, 9, 6, 0, 0, 0, 0, 0, 0, 0x30]) (kb 257 0 0 8 4 20480 24576 12 0))), by and_intros <;> decide +kernel⟩,
    ⟨(kr ([5, 0, 0, 0, 0, 0, 0, 0, 0, 0x30]) (kb 1 0 0 0 0 20480 24576 32 0)), (tkb 8 (kr ([5, 0, 0, 0, 0, 0, 0, 0, 0, 0x30]) (kb 1 0 0 0 0 20480 24576 32
      0))), 0, [5, 0, 0, 0, 0, 0, 0, 0, 0, 0x30] ++ zeros 22, kb 1 0 0 0 0 20480 24576 32 0, 4, 255, by decide +kernel⟩,
    ⟨(kr ([5, 5, 0, 0, 0, 0, 0, 0, 0, 0x30]) (kb 513 0 0 0 0 20480 24576 32 0)), (tkb 8 (kr ([5, 5, 0, 0, 0, 0, 0, 0, 0, 0x30]) (kb 513 0 0 0 0 20480
      24576 32 0))), 0, [5, 5, 0, 0, 0, 0, 0, 0, 0, 0x30] ++ zeros 22, kb 513 0 0 0 0 20480 24576 32 0, (tkb 8 (kr ([5, 5, 0, 0, 0, 0, 0, 0, 0, 0x30])
      (kb 513 0 0 0 0 20480 24576 32 0))).keySlot 5, by decide +kernel⟩⟩

/-- Clauses 3.1.1, 3.1.2, 3.2.1, 3.2.3, 4, 5.1. -/
theorem witness_KeysAreFilledUsedAndFenced_7 :
(∃ (s v : State) (slot : Nat) (desc : List Byte), s.taken 8 = some (slot, desc, v) ∧ byteAt desc 0 = 6 ∧ s.auditRoom = true ∧ (byteAt desc 1 = 0 ∨
      (v.keySlot (byteAt desc 1)).attr.testBit 19 = true)) ∧
(∃ (s v : State) (slot : Nat) (desc : List Byte), s.taken 8 = some (slot, desc, v) ∧ byteAt desc 0 = 6 ∧ s.auditRoom = true ∧ byteAt desc 1 ≠ 0 ∧
      (v.keySlot (byteAt desc 1)).attr.testBit 19 = false) ∧
(∃ (s v : State) (slot : Nat) (desc : List Byte), s.taken 8 = some (slot, desc, v) ∧ byteAt desc 0 = 7) ∧
(∃ (s v : State) (slot : Nat) (desc : List Byte), s.taken 8 = some (slot, desc, v) ∧ byteAt desc 0 = 7 ∧ byteAt desc 1 ≠ 0) ∧
(∃ (s : State) (rb : Bool) (c : Instr), s.auditRoom = false ∧ (c = Instr.keyWrite rb ∨ c = Instr.keyGenerate rb ∨ c = Instr.keyDeriveHkdf rb ∨ c =
      Instr.keyDerive108 rb ∨ c = Instr.keyAttr ∨ c = Instr.keyErase)) ∧
(∃ (s : State) (rb : Bool) (c : Instr), s.auditRoom = false ∧ (c = Instr.keyWrite rb ∨ c = Instr.keyGenerate rb ∨ c = Instr.keyDeriveHkdf rb ∨ c =
      Instr.keyDerive108 rb ∨ c = Instr.keyAttr ∨ c = Instr.keyErase)) ∧
(∃ (s : State) (rb : Bool) (c : Instr), s.auditRoom = false ∧ (c = Instr.keyWrite rb ∨ c = Instr.keyGenerate rb ∨ c = Instr.keyDeriveHkdf rb ∨ c =
      Instr.keyDerive108 rb ∨ c = Instr.keyAttr ∨ c = Instr.keyErase)) ∧
(∃ (s v : State) (slot op : Nat) (desc b : List Byte) (c : Instr) (bad : Bool) (types : List Nat) (off : Nat), s.takenBlock 9 = some (slot, desc, b,
      v) ∧ byteAt desc 0 = op ∧ (op, c, types) ∈ [(17, Instr.hmacGen bad, [4]), (18, Instr.hmacVerify bad, [4]), (19, Instr.gcmSeal bad, [1, 2]), (20,
      Instr.gcmOpen bad, [1, 2]), (21, Instr.ecdsaVerify bad, [5])] ∧ (off = 16 ∧ 2 ^ 40 ≤ le b 16 8 ∨ off = 24 ∧ le b 16 8 < 2 ^ 40 ∧ 2 ^ 40 ≤ le b
      24 8 ∨ off = 32 ∧ le b 16 8 < 2 ^ 40 ∧ le b 24 8 < 2 ^ 40 ∧ 16777216 < le b 32 4 ∨ off = 36 ∧ le b 16 8 < 2 ^ 40 ∧ le b 24 8 < 2 ^ 40 ∧ le b 32
      4 ≤ 16777216 ∧ le b 32 4 < le b 36 4 ∧ (op = 19 ∨ op = 20))) ∧
(∃ (s v : State) (slot op : Nat) (desc b : List Byte) (c : Instr) (bad : Bool) (types : List Nat) (off : Nat), s.takenBlock 9 = some (slot, desc, b,
      v) ∧ byteAt desc 0 = op ∧ (op, c, types) ∈ [(17, Instr.hmacGen bad, [4]), (18, Instr.hmacVerify bad, [4]), (19, Instr.gcmSeal bad, [1, 2]), (20,
      Instr.gcmOpen bad, [1, 2]), (21, Instr.ecdsaVerify bad, [5])] ∧ (off = 16 ∧ 2 ^ 40 ≤ le b 16 8 ∨ off = 24 ∧ le b 16 8 < 2 ^ 40 ∧ 2 ^ 40 ≤ le b
      24 8 ∨ off = 32 ∧ le b 16 8 < 2 ^ 40 ∧ le b 24 8 < 2 ^ 40 ∧ 16777216 < le b 32 4 ∨ off = 36 ∧ le b 16 8 < 2 ^ 40 ∧ le b 24 8 < 2 ^ 40 ∧ le b 32
      4 ≤ 16777216 ∧ le b 32 4 < le b 36 4 ∧ (op = 19 ∨ op = 20))) ∧
(∃ (s v : State) (slot op : Nat) (desc b : List Byte) (c : Instr) (bad : Bool) (types : List Nat) (off : Nat), s.takenBlock 9 = some (slot, desc, b,
      v) ∧ byteAt desc 0 = op ∧ (op, c, types) ∈ [(17, Instr.hmacGen bad, [4]), (18, Instr.hmacVerify bad, [4]), (19, Instr.gcmSeal bad, [1, 2]), (20,
      Instr.gcmOpen bad, [1, 2]), (21, Instr.ecdsaVerify bad, [5])] ∧ (off = 16 ∧ 2 ^ 40 ≤ le b 16 8 ∨ off = 24 ∧ le b 16 8 < 2 ^ 40 ∧ 2 ^ 40 ≤ le b
      24 8 ∨ off = 32 ∧ le b 16 8 < 2 ^ 40 ∧ le b 24 8 < 2 ^ 40 ∧ 16777216 < le b 32 4 ∨ off = 36 ∧ le b 16 8 < 2 ^ 40 ∧ le b 24 8 < 2 ^ 40 ∧ le b 32
      4 ≤ 16777216 ∧ le b 32 4 < le b 36 4 ∧ (op = 19 ∨ op = 20))) ∧
(∃ (s v : State) (slot op : Nat) (desc b : List Byte) (c : Instr) (bad : Bool) (types : List Nat) (off : Nat), s.takenBlock 9 = some (slot, desc, b,
      v) ∧ byteAt desc 0 = op ∧ (op, c, types) ∈ [(17, Instr.hmacGen bad, [4]), (18, Instr.hmacVerify bad, [4]), (19, Instr.gcmSeal bad, [1, 2]), (20,
      Instr.gcmOpen bad, [1, 2]), (21, Instr.ecdsaVerify bad, [5])] ∧ (off = 16 ∧ 2 ^ 40 ≤ le b 16 8 ∨ off = 24 ∧ le b 16 8 < 2 ^ 40 ∧ 2 ^ 40 ≤ le b
      24 8 ∨ off = 32 ∧ le b 16 8 < 2 ^ 40 ∧ le b 24 8 < 2 ^ 40 ∧ 16777216 < le b 32 4 ∨ off = 36 ∧ le b 16 8 < 2 ^ 40 ∧ le b 24 8 < 2 ^ 40 ∧ le b 32
      4 ≤ 16777216 ∧ le b 32 4 < le b 36 4 ∧ (op = 19 ∨ op = 20))) :=
  ⟨⟨(kr [6, 7] []), (tk 8 (kr [6, 7] [])), 0, [6, 7] ++ zeros 30, by decide +kernel⟩,
    ⟨(kr [6, 5] []), (tk 8 (kr [6, 5] [])), 0, [6, 5] ++ zeros 30, by decide +kernel⟩,
    ⟨(kr [7, 5] []), (tk 8 (kr [7, 5] [])), 0, [7, 5] ++ zeros 30, by decide +kernel⟩,
    ⟨(kr [7, 5] []), (tk 8 (kr [7, 5] [])), 0, [7, 5] ++ zeros 30, by decide +kernel⟩,
    ⟨noAudit (kr ([1, 5, 0, 0, 0, 0, 0, 0, 0, 0x30]) (kb 0x101 0 0 0 0 0x5000 0x6000 32 0)), true, .keyWrite true, by decide +kernel⟩,
    ⟨noAudit (kr ([6, 5, 0, 0, 0, 0, 0, 0, 0, 0x30]) (kb 0x101 0 0 0 0 0x5000 0x6000 32 0)), true, .keyErase, by decide +kernel⟩,
    ⟨noAudit (kr ([5, 5, 0, 0, 0, 0, 0, 0, 0, 0x30]) (kb 0x101 0 0 0 0 0x5000 0x6000 32 0)), true, .keyAttr, by decide +kernel⟩,
    ⟨(ks ([17, 4, 0, 0, 0, 0, 0, 0, 0, 0x30]) (kb 0 0 0 0 0 1099511627776 24576 32 0)), (tkb 9 (ks ([17, 4, 0, 0, 0, 0, 0, 0, 0, 0x30]) (kb 0 0 0 0 0
      1099511627776 24576 32 0))), 0, 17, [17, 4, 0, 0, 0, 0, 0, 0, 0, 0x30] ++ zeros 22, kb 0 0 0 0 0 1099511627776 24576 32 0, .hmacGen false,
      false, [4], 16, by decide +kernel⟩,
    ⟨(ks ([18, 4, 0, 0, 0, 0, 0, 0, 0, 0x30]) (kb 0 0 0 0 0 20480 1099511627776 32 0)), (tkb 9 (ks ([18, 4, 0, 0, 0, 0, 0, 0, 0, 0x30]) (kb 0 0 0 0 0
      20480 1099511627776 32 0))), 0, 18, [18, 4, 0, 0, 0, 0, 0, 0, 0, 0x30] ++ zeros 22, kb 0 0 0 0 0 20480 1099511627776 32 0, .hmacVerify false,
      false, [4], 24, by decide +kernel⟩,
    ⟨(ks ([19, 5, 0, 0, 0, 0, 0, 0, 0, 0x30]) (kb 0 0 0 0 0 20480 24576 16777217 0)), (tkb 9 (ks ([19, 5, 0, 0, 0, 0, 0, 0, 0, 0x30]) (kb 0 0 0 0 0 20480
      24576 16777217 0))), 0, 19, [19, 5, 0, 0, 0, 0, 0, 0, 0, 0x30] ++ zeros 22, kb 0 0 0 0 0 20480 24576 16777217 0, .gcmSeal false, false, [1, 2],
      32, by decide +kernel⟩,
    ⟨(ks ([20, 5, 0, 0, 0, 0, 0, 0, 0, 0x30]) (kb 0 0 0 0 0 20480 24576 3 4)), (tkb 9 (ks ([20, 5, 0, 0, 0, 0, 0, 0, 0, 0x30]) (kb 0 0 0 0 0 20480 24576 3
      4))), 0, 20, [20, 5, 0, 0, 0, 0, 0, 0, 0, 0x30] ++ zeros 22, kb 0 0 0 0 0 20480 24576 3 4, .gcmOpen false, false, [1, 2], 36, by decide +kernel⟩⟩

/-- Clauses 5.2.1, 5.2.2, 5.2.3.1. -/
theorem witness_KeysAreFilledUsedAndFenced_8 :
(∃ (s v : State) (slot op : Nat) (desc b : List Byte) (c : Instr) (bad : Bool) (types : List Nat), s.takenBlock 9 = some (slot, desc, b, v) ∧ byteAt
      desc 0 = op ∧ (op, c, types) ∈ [(17, Instr.hmacGen bad, [4]), (18, Instr.hmacVerify bad, [4]), (19, Instr.gcmSeal bad, [1, 2]), (20,
      Instr.gcmOpen bad, [1, 2]), (21, Instr.ecdsaVerify bad, [5])] ∧ le b 16 8 < 2 ^ 40 ∧ le b 24 8 < 2 ^ 40 ∧ le b 32 4 ≤ 16777216 ∧ (le b 36 4 ≤ le
      b 32 4 ∨ op ∈ [17, 18, 21]) ∧ bad = true ∧ byteAt desc 1 ≠ 0 ∧ v.powered 10 = true) ∧
(∃ (s v : State) (slot op : Nat) (desc b : List Byte) (c : Instr) (bad : Bool) (types : List Nat) (a : KeyAnswer) (w : State) (st : Nat), s.takenBlock
      9 = some (slot, desc, b, v) ∧ byteAt desc 0 = op ∧ (op, c, types) ∈ [(17, Instr.hmacGen bad, [4]), (18, Instr.hmacVerify bad, [4]), (19,
      Instr.gcmSeal bad, [1, 2]), (20, Instr.gcmOpen bad, [1, 2]), (21, Instr.ecdsaVerify bad, [5])] ∧ le b 16 8 < 2 ^ 40 ∧ le b 24 8 < 2 ^ 40 ∧ le b
      32 4 ≤ 16777216 ∧ (le b 36 4 ≤ le b 32 4 ∨ op ∈ [17, 18, 21]) ∧ (bad = false ∨ byteAt desc 1 = 0) ∧ v.keyRequest 7 (byteAt desc 1) types [16] =
      (a, w) ∧ (a = KeyAnswer.refused ∧ st = Status.keyRefused ∨ a = KeyAnswer.memoryError ∧ st = Status.memoryError)) ∧
(∃ (s v : State) (slot op : Nat) (desc b : List Byte) (c : Instr) (bad : Bool) (types : List Nat) (key data : List Byte) (w x : State) (st : Nat) (y :
      State), s.takenBlock 9 = some (slot, desc, b, v) ∧ byteAt desc 0 = op ∧ (op, c, types) ∈ [(17, Instr.hmacGen bad, [4]), (18, Instr.hmacVerify
      bad, [4]), (19, Instr.gcmSeal bad, [1, 2]), (20, Instr.gcmOpen bad, [1, 2]), (21, Instr.ecdsaVerify bad, [5])] ∧ le b 16 8 < 2 ^ 40 ∧ le b 24 8
      < 2 ^ 40 ∧ le b 32 4 ≤ 16777216 ∧ (le b 36 4 ≤ le b 32 4 ∨ op ∈ [17, 18, 21]) ∧ bad = false ∧ v.keyRequest 7 (byteAt desc 1) types [16] =
      (KeyAnswer.key key, x) ∧ x.keyData (le b 16 8) (le b 32 4) = some (data, w) ∧ op = 17 ∧ w.keyStore (le b 24 8) (Crypto.hmac key data) = (st, y)) :=
  ⟨⟨(ks ([17, 4, 0, 0, 0, 0, 0, 0, 0, 0x30]) (kb 0 0 0 0 0 20480 24576 32 0)), (tkb 9 (ks ([17, 4, 0, 0, 0, 0, 0, 0, 0, 0x30]) (kb 0 0 0 0 0 20480 24576
      32 0))), 0, 17, [17, 4, 0, 0, 0, 0, 0, 0, 0, 0x30] ++ zeros 22, kb 0 0 0 0 0 20480 24576 32 0, .hmacGen true, true, [4], by decide +kernel⟩,
    ⟨(ks ([18, 5, 0, 0, 0, 0, 0, 0, 0, 0x30]) (kb 0 0 0 0 0 20480 24576 32 0)), (tkb 9 (ks ([18, 5, 0, 0, 0, 0, 0, 0, 0, 0x30]) (kb 0 0 0 0 0 20480 24576
      32 0))), 0, 18, [18, 5, 0, 0, 0, 0, 0, 0, 0, 0x30] ++ zeros 22, kb 0 0 0 0 0 20480 24576 32 0, .hmacVerify false, false, [4], .refused, ((tkb 9
      (ks ([18, 5, 0, 0, 0, 0, 0, 0, 0, 0x30]) (kb 0 0 0 0 0 20480 24576 32 0))).keyRequest 7 5 [4] [16]).2, 8, by decide +kernel⟩,
    ⟨(ks ([17, 4, 0, 0, 0, 0, 0, 0, 0, 0x30]) (kb 0 0 0 0 0 20480 24576 3 0)), (tkb 9 (ks ([17, 4, 0, 0, 0, 0, 0, 0, 0, 0x30]) (kb 0 0 0 0 0 20480 24576 3
      0))), 0, 17, [17, 4, 0, 0, 0, 0, 0, 0, 0, 0x30] ++ zeros 22, kb 0 0 0 0 0 20480 24576 3 0, .hmacGen false, false, [4], tkey, kd (((tkb 9 (ks
      ([17, 4, 0, 0, 0, 0, 0, 0, 0, 0x30]) (kb 0 0 0 0 0 20480 24576 3 0))).keyRequest 7 4 [4] [16]).2) 0x5000 3, kw (((tkb 9 (ks ([17, 4, 0, 0, 0, 0,
      0, 0, 0, 0x30]) (kb 0 0 0 0 0 20480 24576 3 0))).keyRequest 7 4 [4] [16]).2) 0x5000 3, ((tkb 9 (ks ([17, 4, 0, 0, 0, 0, 0, 0, 0, 0x30]) (kb 0 0
      0 0 0 20480 24576 3 0))).keyRequest 7 4 [4] [16]).2, ((kw (((tkb 9 (ks ([17, 4, 0, 0, 0, 0, 0, 0, 0, 0x30]) (kb 0 0 0 0 0 20480 24576 3
      0))).keyRequest 7 4 [4] [16]).2) 0x5000 3).keyStore 0x6000 (Crypto.hmac tkey (zeros 3))).1, ((kw (((tkb 9 (ks ([17, 4, 0, 0, 0, 0, 0, 0, 0,
      0x30]) (kb 0 0 0 0 0 20480 24576 3 0))).keyRequest 7 4 [4] [16]).2) 0x5000 3).keyStore 0x6000 (Crypto.hmac tkey (zeros 3))).2, by
      decide +kernel⟩⟩

/-- Clauses 5.2.3.2, 5.2.3.3. -/
theorem witness_KeysAreFilledUsedAndFenced_9 :
(∃ (s v : State) (slot op : Nat) (desc b : List Byte) (c : Instr) (bad : Bool) (types : List Nat) (key data : List Byte) (w x : State) (tag : List
      Byte) (y : State) (good : Bool), s.takenBlock 9 = some (slot, desc, b, v) ∧ byteAt desc 0 = op ∧ (op, c, types) ∈ [(17, Instr.hmacGen bad, [4]),
      (18, Instr.hmacVerify bad, [4]), (19, Instr.gcmSeal bad, [1, 2]), (20, Instr.gcmOpen bad, [1, 2]), (21, Instr.ecdsaVerify bad, [5])] ∧ le b 16 8
      < 2 ^ 40 ∧ le b 24 8 < 2 ^ 40 ∧ le b 32 4 ≤ 16777216 ∧ (le b 36 4 ≤ le b 32 4 ∨ op ∈ [17, 18, 21]) ∧ bad = false ∧ v.keyRequest 7 (byteAt desc
      1) types [16] = (KeyAnswer.key key, x) ∧ x.keyData (le b 16 8) (le b 32 4) = some (data, w) ∧ (op = 18 ∧ w.keyData (le b 24 8) 32 = some (tag,
      y) ∧ good = (tag == Crypto.hmac key data) ∨ op = 21 ∧ w.keyData (le b 24 8) 96 = some (tag, y) ∧ good = Crypto.ecdsaVerify key data tag)) ∧
(∃ (s v : State) (slot op : Nat) (desc b : List Byte) (c : Instr) (bad : Bool) (types : List Nat) (key data : List Byte) (w x : State) (tag : List
      Byte) (y : State) (good : Bool), s.takenBlock 9 = some (slot, desc, b, v) ∧ byteAt desc 0 = op ∧ (op, c, types) ∈ [(17, Instr.hmacGen bad, [4]),
      (18, Instr.hmacVerify bad, [4]), (19, Instr.gcmSeal bad, [1, 2]), (20, Instr.gcmOpen bad, [1, 2]), (21, Instr.ecdsaVerify bad, [5])] ∧ le b 16 8
      < 2 ^ 40 ∧ le b 24 8 < 2 ^ 40 ∧ le b 32 4 ≤ 16777216 ∧ (le b 36 4 ≤ le b 32 4 ∨ op ∈ [17, 18, 21]) ∧ bad = false ∧ v.keyRequest 7 (byteAt desc
      1) types [16] = (KeyAnswer.key key, x) ∧ x.keyData (le b 16 8) (le b 32 4) = some (data, w) ∧ (op = 18 ∧ w.keyData (le b 24 8) 32 = some (tag,
      y) ∧ good = (tag == Crypto.hmac key data) ∨ op = 21 ∧ w.keyData (le b 24 8) 96 = some (tag, y) ∧ good = Crypto.ecdsaVerify key data tag)) ∧
(∃ (s v : State) (slot op : Nat) (desc b : List Byte) (c : Instr) (bad : Bool) (types : List Nat) (key data : List Byte) (w x : State), s.takenBlock 9
      = some (slot, desc, b, v) ∧ byteAt desc 0 = op ∧ (op, c, types) ∈ [(17, Instr.hmacGen bad, [4]), (18, Instr.hmacVerify bad, [4]), (19,
      Instr.gcmSeal bad, [1, 2]), (20, Instr.gcmOpen bad, [1, 2]), (21, Instr.ecdsaVerify bad, [5])] ∧ le b 16 8 < 2 ^ 40 ∧ le b 24 8 < 2 ^ 40 ∧ le b
      32 4 ≤ 16777216 ∧ (le b 36 4 ≤ le b 32 4 ∨ op ∈ [17, 18, 21]) ∧ bad = false ∧ v.keyRequest 7 (byteAt desc 1) types [16] = (KeyAnswer.key key, x)
      ∧ x.keyData (le b 16 8) (le b 32 4) = some (data, w) ∧ op = 19 ∧ w.flag F.KEY_STATUS_rng_ok = false) :=
  ⟨⟨(ks ([18, 4, 0, 0, 0, 0, 0, 0, 0, 0x30]) (kb 0 0 0 0 0 20480 24576 3 0)), (tkb 9 (ks ([18, 4, 0, 0, 0, 0, 0, 0, 0, 0x30]) (kb 0 0 0 0 0 20480 24576 3
      0))), 0, 18, [18, 4, 0, 0, 0, 0, 0, 0, 0, 0x30] ++ zeros 22, kb 0 0 0 0 0 20480 24576 3 0, .hmacVerify false, false, [4], tkey, kd (((tkb 9 (ks
      ([18, 4, 0, 0, 0, 0, 0, 0, 0, 0x30]) (kb 0 0 0 0 0 20480 24576 3 0))).keyRequest 7 4 [4] [16]).2) 0x5000 3, kw (((tkb 9 (ks ([18, 4, 0, 0, 0, 0,
      0, 0, 0, 0x30]) (kb 0 0 0 0 0 20480 24576 3 0))).keyRequest 7 4 [4] [16]).2) 0x5000 3, ((tkb 9 (ks ([18, 4, 0, 0, 0, 0, 0, 0, 0, 0x30]) (kb 0 0
      0 0 0 20480 24576 3 0))).keyRequest 7 4 [4] [16]).2, kd (kw (((tkb 9 (ks ([18, 4, 0, 0, 0, 0, 0, 0, 0, 0x30]) (kb 0 0 0 0 0 20480 24576 3
      0))).keyRequest 7 4 [4] [16]).2) 0x5000 3) 0x6000 32, kw (kw (((tkb 9 (ks ([18, 4, 0, 0, 0, 0, 0, 0, 0, 0x30]) (kb 0 0 0 0 0 20480 24576 3
      0))).keyRequest 7 4 [4] [16]).2) 0x5000 3) 0x6000 32, false, by decide +kernel⟩,
    ⟨((ks ([21, 8, 0, 0, 0, 0, 0, 0, 0, 0x30]) (kb 0 0 0 0 0 20480 24576 3 0)).setKeySlot 8 { attr := 0x10005, key := zeros 96 }), (tkb 9 ((ks ([21, 8, 0,
      0, 0, 0, 0, 0, 0, 0x30]) (kb 0 0 0 0 0 20480 24576 3 0)).setKeySlot 8 { attr := 0x10005, key := zeros 96 })), 0, 21, [21, 8, 0, 0, 0, 0, 0, 0,
      0, 0x30] ++ zeros 22, kb 0 0 0 0 0 20480 24576 3 0, .ecdsaVerify false, false, [5], zeros 96, kd (((tkb 9 ((ks ([21, 8, 0, 0, 0, 0, 0, 0, 0,
      0x30]) (kb 0 0 0 0 0 20480 24576 3 0)).setKeySlot 8 { attr := 0x10005, key := zeros 96 })).keyRequest 7 8 [5] [16]).2) 0x5000 3, kw (((tkb 9
      ((ks ([21, 8, 0, 0, 0, 0, 0, 0, 0, 0x30]) (kb 0 0 0 0 0 20480 24576 3 0)).setKeySlot 8 { attr := 0x10005, key := zeros 96 })).keyRequest 7 8 [5]
      [16]).2) 0x5000 3, ((tkb 9 ((ks ([21, 8, 0, 0, 0, 0, 0, 0, 0, 0x30]) (kb 0 0 0 0 0 20480 24576 3 0)).setKeySlot 8
      { attr := 0x10005, key := zeros 96 })).keyRequest 7 8 [5] [16]).2, kd (kw (((tkb 9 ((ks ([21, 8, 0, 0, 0, 0, 0, 0, 0, 0x30]) (kb 0 0 0 0 0 20480
      24576 3 0)).setKeySlot 8 { attr := 0x10005, key := zeros 96 })).keyRequest 7 8 [5] [16]).2) 0x5000 3) 0x6000 96, kw (kw (((tkb 9 ((ks ([21, 8,
      0, 0, 0, 0, 0, 0, 0, 0x30]) (kb 0 0 0 0 0 20480 24576 3 0)).setKeySlot 8 { attr := 0x10005, key := zeros 96 })).keyRequest 7 8 [5] [16]).2)
      0x5000 3) 0x6000 96, false, by decide +kernel⟩,
    ⟨((ks ([19, 5, 0, 0, 0, 0, 0, 0, 0, 0x30]) (kb 0 0 0 0 0 20480 24576 3 1)).lower F.KEY_STATUS_rng_ok), (tkb 9 ((ks ([19, 5, 0, 0, 0, 0, 0, 0, 0,
      0x30]) (kb 0 0 0 0 0 20480 24576 3 1)).lower F.KEY_STATUS_rng_ok)), 0, 19, [19, 5, 0, 0, 0, 0, 0, 0, 0, 0x30] ++ zeros 22, kb 0 0 0 0 0 20480
      24576 3 1, .gcmSeal false, false, [1, 2], tkey, kd (((tkb 9 ((ks ([19, 5, 0, 0, 0, 0, 0, 0, 0, 0x30]) (kb 0 0 0 0 0 20480 24576 3 1)).lower
      F.KEY_STATUS_rng_ok)).keyRequest 7 5 [1, 2] [16]).2) 0x5000 3, kw (((tkb 9 ((ks ([19, 5, 0, 0, 0, 0, 0, 0, 0, 0x30]) (kb 0 0 0 0 0 20480 24576 3
      1)).lower F.KEY_STATUS_rng_ok)).keyRequest 7 5 [1, 2] [16]).2) 0x5000 3, ((tkb 9 ((ks ([19, 5, 0, 0, 0, 0, 0, 0, 0, 0x30]) (kb 0 0 0 0 0 20480
      24576 3 1)).lower F.KEY_STATUS_rng_ok)).keyRequest 7 5 [1, 2] [16]).2, by decide +kernel⟩⟩

/-- Clauses 5.2.3.4, 5.2.3.5, 5.2.3.6.1. -/
theorem witness_KeysAreFilledUsedAndFenced_10 :
(∃ (s v : State) (slot op : Nat) (desc b : List Byte) (c : Instr) (bad : Bool) (types : List Nat) (key data : List Byte) (w x : State), s.takenBlock 9
      = some (slot, desc, b, v) ∧ byteAt desc 0 = op ∧ (op, c, types) ∈ [(17, Instr.hmacGen bad, [4]), (18, Instr.hmacVerify bad, [4]), (19,
      Instr.gcmSeal bad, [1, 2]), (20, Instr.gcmOpen bad, [1, 2]), (21, Instr.ecdsaVerify bad, [5])] ∧ le b 16 8 < 2 ^ 40 ∧ le b 24 8 < 2 ^ 40 ∧ le b
      32 4 ≤ 16777216 ∧ (le b 36 4 ≤ le b 32 4 ∨ op ∈ [17, 18, 21]) ∧ bad = false ∧ v.keyRequest 7 (byteAt desc 1) types [16] = (KeyAnswer.key key, x)
      ∧ x.keyData (le b 16 8) (le b 32 4) = some (data, w) ∧ op = 19 ∧ w.flag F.KEY_STATUS_rng_ok = true) ∧
(∃ (s v : State) (slot op : Nat) (desc b : List Byte) (c : Instr) (bad : Bool) (types : List Nat) (key data : List Byte) (w x : State), s.takenBlock 9
      = some (slot, desc, b, v) ∧ byteAt desc 0 = op ∧ (op, c, types) ∈ [(17, Instr.hmacGen bad, [4]), (18, Instr.hmacVerify bad, [4]), (19,
      Instr.gcmSeal bad, [1, 2]), (20, Instr.gcmOpen bad, [1, 2]), (21, Instr.ecdsaVerify bad, [5])] ∧ le b 16 8 < 2 ^ 40 ∧ le b 24 8 < 2 ^ 40 ∧ le b
      32 4 ≤ 16777216 ∧ (le b 36 4 ≤ le b 32 4 ∨ op ∈ [17, 18, 21]) ∧ bad = false ∧ v.keyRequest 7 (byteAt desc 1) types [16] = (KeyAnswer.key key, x)
      ∧ x.keyData (le b 16 8) (le b 32 4) = some (data, w) ∧ op = 20 ∧ data.length < 28 + le b 36 4) ∧
(∃ (s v : State) (slot op : Nat) (desc b : List Byte) (c : Instr) (bad : Bool) (types : List Nat) (key data : List Byte) (w x : State) (r : Option
      (List Byte)), s.takenBlock 9 = some (slot, desc, b, v) ∧ byteAt desc 0 = op ∧ (op, c, types) ∈ [(17, Instr.hmacGen bad, [4]), (18,
      Instr.hmacVerify bad, [4]), (19, Instr.gcmSeal bad, [1, 2]), (20, Instr.gcmOpen bad, [1, 2]), (21, Instr.ecdsaVerify bad, [5])] ∧ le b 16 8 < 2
      ^ 40 ∧ le b 24 8 < 2 ^ 40 ∧ le b 32 4 ≤ 16777216 ∧ (le b 36 4 ≤ le b 32 4 ∨ op ∈ [17, 18, 21]) ∧ bad = false ∧ v.keyRequest 7 (byteAt desc 1)
      types [16] = (KeyAnswer.key key, x) ∧ x.keyData (le b 16 8) (le b 32 4) = some (data, w) ∧ op = 20 ∧ 28 + le b 36 4 ≤ data.length ∧
      Crypto.gcmOpen key (List.take 12 data) (sliceB data 12 (le b 36 4)) (sliceB data (12 + le b 36 4) (data.length - 28 - le b 36 4)) (List.drop
      (data.length - 16) data) = r ∧ r = none) :=
  ⟨⟨(ks ([19, 5, 0, 0, 0, 0, 0, 0, 0, 0x30]) (kb 0 0 0 0 0 20480 24576 3 1)), (tkb 9 (ks ([19, 5, 0, 0, 0, 0, 0, 0, 0, 0x30]) (kb 0 0 0 0 0 20480 24576 3
      1))), 0, 19, [19, 5, 0, 0, 0, 0, 0, 0, 0, 0x30] ++ zeros 22, kb 0 0 0 0 0 20480 24576 3 1, .gcmSeal false, false, [1, 2], tkey, kd (((tkb 9 (ks
      ([19, 5, 0, 0, 0, 0, 0, 0, 0, 0x30]) (kb 0 0 0 0 0 20480 24576 3 1))).keyRequest 7 5 [1, 2] [16]).2) 0x5000 3, kw (((tkb 9 (ks ([19, 5, 0, 0, 0,
      0, 0, 0, 0, 0x30]) (kb 0 0 0 0 0 20480 24576 3 1))).keyRequest 7 5 [1, 2] [16]).2) 0x5000 3, ((tkb 9 (ks ([19, 5, 0, 0, 0, 0, 0, 0, 0, 0x30])
      (kb 0 0 0 0 0 20480 24576 3 1))).keyRequest 7 5 [1, 2] [16]).2, by decide +kernel⟩,
    ⟨(ks ([20, 5, 0, 0, 0, 0, 0, 0, 0, 0x30]) (kb 0 0 0 0 0 20480 24576 3 1)), (tkb 9 (ks ([20, 5, 0, 0, 0, 0, 0, 0, 0, 0x30]) (kb 0 0 0 0 0 20480 24576 3
      1))), 0, 20, [20, 5, 0, 0, 0, 0, 0, 0, 0, 0x30] ++ zeros 22, kb 0 0 0 0 0 20480 24576 3 1, .gcmOpen false, false, [1, 2], tkey, kd (((tkb 9 (ks
      ([20, 5, 0, 0, 0, 0, 0, 0, 0, 0x30]) (kb 0 0 0 0 0 20480 24576 3 1))).keyRequest 7 5 [1, 2] [16]).2) 0x5000 3, kw (((tkb 9 (ks ([20, 5, 0, 0, 0,
      0, 0, 0, 0, 0x30]) (kb 0 0 0 0 0 20480 24576 3 1))).keyRequest 7 5 [1, 2] [16]).2) 0x5000 3, ((tkb 9 (ks ([20, 5, 0, 0, 0, 0, 0, 0, 0, 0x30])
      (kb 0 0 0 0 0 20480 24576 3 1))).keyRequest 7 5 [1, 2] [16]).2, by decide +kernel⟩,
    ⟨(ks ([20, 5, 0, 0, 0, 0, 0, 0, 0, 0x30]) (kb 0 0 0 0 0 20480 24576 40 1)), (tkb 9 (ks ([20, 5, 0, 0, 0, 0, 0, 0, 0, 0x30]) (kb 0 0 0 0 0 20480 24576
      40 1))), 0, 20, [20, 5, 0, 0, 0, 0, 0, 0, 0, 0x30] ++ zeros 22, kb 0 0 0 0 0 20480 24576 40 1, .gcmOpen false, false, [1, 2], tkey, kd (((tkb 9
      (ks ([20, 5, 0, 0, 0, 0, 0, 0, 0, 0x30]) (kb 0 0 0 0 0 20480 24576 40 1))).keyRequest 7 5 [1, 2] [16]).2) 0x5000 40, kw (((tkb 9 (ks ([20, 5, 0,
      0, 0, 0, 0, 0, 0, 0x30]) (kb 0 0 0 0 0 20480 24576 40 1))).keyRequest 7 5 [1, 2] [16]).2) 0x5000 40, ((tkb 9 (ks ([20, 5, 0, 0, 0, 0, 0, 0, 0,
      0x30]) (kb 0 0 0 0 0 20480 24576 40 1))).keyRequest 7 5 [1, 2] [16]).2, none, by decide +kernel⟩⟩

/-- Clause 5.2.3.6.2. -/
theorem witness_KeysAreFilledUsedAndFenced_11 :
∃ (s v : State) (slot op : Nat) (desc b : List Byte) (c : Instr) (bad : Bool) (types : List Nat) (key data : List Byte) (w x : State) (r : Option
      (List Byte)), s.takenBlock 9 = some (slot, desc, b, v) ∧ byteAt desc 0 = op ∧ (op, c, types) ∈ [(17, Instr.hmacGen bad, [4]), (18,
      Instr.hmacVerify bad, [4]), (19, Instr.gcmSeal bad, [1, 2]), (20, Instr.gcmOpen bad, [1, 2]), (21, Instr.ecdsaVerify bad, [5])] ∧ le b 16 8 < 2
      ^ 40 ∧ le b 24 8 < 2 ^ 40 ∧ le b 32 4 ≤ 16777216 ∧ (le b 36 4 ≤ le b 32 4 ∨ op ∈ [17, 18, 21]) ∧ bad = false ∧ v.keyRequest 7 (byteAt desc 1)
      types [16] = (KeyAnswer.key key, x) ∧ x.keyData (le b 16 8) (le b 32 4) = some (data, w) ∧ op = 20 ∧ 28 + le b 36 4 ≤ data.length ∧
      Crypto.gcmOpen key (List.take 12 data) (sliceB data 12 (le b 36 4)) (sliceB data (12 + le b 36 4) (data.length - 28 - le b 36 4)) (List.drop
      (data.length - 16) data) = r ∧ r = some [] :=
⟨((ks ([20, 5, 0, 0, 0, 0, 0, 0, 0, 0x30]) (kb 0 0 0 0 0 20480 24576 28 0)).modMem fun m => m.putBytes 0x5000 (zeros 12 ++ (Crypto.gcmSeal tkey (zeros
    12) [] (zeros 0)).1 ++ (Crypto.gcmSeal tkey (zeros 12) [] (zeros 0)).2)), (tkb 9 ((ks ([20, 5, 0, 0, 0, 0, 0, 0, 0, 0x30]) (kb 0 0 0 0 0 20480
    24576 28 0)).modMem fun m => m.putBytes 0x5000 (zeros 12 ++ (Crypto.gcmSeal tkey (zeros 12) [] (zeros 0)).1 ++ (Crypto.gcmSeal tkey (zeros 12) []
    (zeros 0)).2))), 0, 20, [20, 5, 0, 0, 0, 0, 0, 0, 0, 0x30] ++ zeros 22, kb 0 0 0 0 0 20480 24576 28 0, .gcmOpen false, false, [1, 2], tkey, kd
    (((tkb 9 ((ks ([20, 5, 0, 0, 0, 0, 0, 0, 0, 0x30]) (kb 0 0 0 0 0 20480 24576 28 0)).modMem fun m => m.putBytes 0x5000 (zeros 12 ++ (Crypto.gcmSeal
    tkey (zeros 12) [] (zeros 0)).1 ++ (Crypto.gcmSeal tkey (zeros 12) [] (zeros 0)).2))).keyRequest 7 5 [1, 2] [16]).2) 0x5000 28, kw (((tkb 9 ((ks
    ([20, 5, 0, 0, 0, 0, 0, 0, 0, 0x30]) (kb 0 0 0 0 0 20480 24576 28 0)).modMem fun m => m.putBytes 0x5000 (zeros 12 ++ (Crypto.gcmSeal tkey (zeros
    12) [] (zeros 0)).1 ++ (Crypto.gcmSeal tkey (zeros 12) [] (zeros 0)).2))).keyRequest 7 5 [1, 2] [16]).2) 0x5000 28, ((tkb 9 ((ks ([20, 5, 0, 0, 0,
    0, 0, 0, 0, 0x30]) (kb 0 0 0 0 0 20480 24576 28 0)).modMem fun m => m.putBytes 0x5000 (zeros 12 ++ (Crypto.gcmSeal tkey (zeros 12) [] (zeros 0)).1
    ++ (Crypto.gcmSeal tkey (zeros 12) [] (zeros 0)).2))).keyRequest 7 5 [1, 2] [16]).2, some [], by decide +kernel⟩

/-- Clauses 5.2.3.6.3, 6.1. -/
theorem witness_KeysAreFilledUsedAndFenced_12 :
(∃ (s v : State) (slot op : Nat) (desc b : List Byte) (c : Instr) (bad : Bool) (types : List Nat) (key data : List Byte) (w x : State) (r : Option
      (List Byte)) (pt : List Byte) (st : Nat) (y : State), s.takenBlock 9 = some (slot, desc, b, v) ∧ byteAt desc 0 = op ∧ (op, c, types) ∈ [(17,
      Instr.hmacGen bad, [4]), (18, Instr.hmacVerify bad, [4]), (19, Instr.gcmSeal bad, [1, 2]), (20, Instr.gcmOpen bad, [1, 2]), (21,
      Instr.ecdsaVerify bad, [5])] ∧ le b 16 8 < 2 ^ 40 ∧ le b 24 8 < 2 ^ 40 ∧ le b 32 4 ≤ 16777216 ∧ (le b 36 4 ≤ le b 32 4 ∨ op ∈ [17, 18, 21]) ∧
      bad = false ∧ v.keyRequest 7 (byteAt desc 1) types [16] = (KeyAnswer.key key, x) ∧ x.keyData (le b 16 8) (le b 32 4) = some (data, w) ∧ op = 20
      ∧ 28 + le b 36 4 ≤ data.length ∧ Crypto.gcmOpen key (List.take 12 data) (sliceB data 12 (le b 36 4)) (sliceB data (12 + le b 36 4) (data.length
      - 28 - le b 36 4)) (List.drop (data.length - 16) data) = r ∧ r = some pt ∧ pt ≠ [] ∧ w.keyStore (le b 24 8) pt = (st, y)) ∧
(∃ (s v : State) (slot : Nat) (desc b : List Byte) (st off : Nat), s.takenBlock 9 = some (slot, desc, b, v) ∧ byteAt desc 0 = 22 ∧ (st =
      Status.formatError ∧ off = 24 ∧ 2 ^ 40 ≤ le b 24 8 ∨ st = Status.formatError ∧ off = 32 ∧ le b 24 8 < 2 ^ 40 ∧ (le b 32 4 = 0 ∨ 4096 < le b 32
      4) ∨ st = Status.refused ∧ off = 255 ∧ le b 24 8 < 2 ^ 40 ∧ 0 < le b 32 4 ∧ le b 32 4 ≤ 4096 ∧ v.flag F.KEY_STATUS_rng_ok = false)) :=
  ⟨⟨((ks ([20, 5, 0, 0, 0, 0, 0, 0, 0, 0x30]) (kb 0 0 0 0 0 20480 24576 31 0)).modMem fun m => m.putBytes 0x5000 (zeros 12 ++ (Crypto.gcmSeal tkey (zeros
      12) [] (zeros 3)).1 ++ (Crypto.gcmSeal tkey (zeros 12) [] (zeros 3)).2)), (tkb 9 ((ks ([20, 5, 0, 0, 0, 0, 0, 0, 0, 0x30]) (kb 0 0 0 0 0 20480
      24576 31 0)).modMem fun m => m.putBytes 0x5000 (zeros 12 ++ (Crypto.gcmSeal tkey (zeros 12) [] (zeros 3)).1 ++ (Crypto.gcmSeal tkey (zeros 12)
      [] (zeros 3)).2))), 0, 20, [20, 5, 0, 0, 0, 0, 0, 0, 0, 0x30] ++ zeros 22, kb 0 0 0 0 0 20480 24576 31 0, .gcmOpen false, false, [1, 2], tkey,
      kd (((tkb 9 ((ks ([20, 5, 0, 0, 0, 0, 0, 0, 0, 0x30]) (kb 0 0 0 0 0 20480 24576 31 0)).modMem fun m => m.putBytes 0x5000 (zeros 12 ++
      (Crypto.gcmSeal tkey (zeros 12) [] (zeros 3)).1 ++ (Crypto.gcmSeal tkey (zeros 12) [] (zeros 3)).2))).keyRequest 7 5 [1, 2] [16]).2) 0x5000 31,
      kw (((tkb 9 ((ks ([20, 5, 0, 0, 0, 0, 0, 0, 0, 0x30]) (kb 0 0 0 0 0 20480 24576 31 0)).modMem fun m => m.putBytes 0x5000 (zeros 12 ++
      (Crypto.gcmSeal tkey (zeros 12) [] (zeros 3)).1 ++ (Crypto.gcmSeal tkey (zeros 12) [] (zeros 3)).2))).keyRequest 7 5 [1, 2] [16]).2) 0x5000 31,
      ((tkb 9 ((ks ([20, 5, 0, 0, 0, 0, 0, 0, 0, 0x30]) (kb 0 0 0 0 0 20480 24576 31 0)).modMem fun m => m.putBytes 0x5000 (zeros 12 ++
      (Crypto.gcmSeal tkey (zeros 12) [] (zeros 3)).1 ++ (Crypto.gcmSeal tkey (zeros 12) [] (zeros 3)).2))).keyRequest 7 5 [1, 2] [16]).2, some (zeros
      3), zeros 3, ((kw (((tkb 9 ((ks ([20, 5, 0, 0, 0, 0, 0, 0, 0, 0x30]) (kb 0 0 0 0 0 20480 24576 31 0)).modMem fun m => m.putBytes 0x5000 (zeros
      12 ++ (Crypto.gcmSeal tkey (zeros 12) [] (zeros 3)).1 ++ (Crypto.gcmSeal tkey (zeros 12) [] (zeros 3)).2))).keyRequest 7 5 [1, 2] [16]).2)
      0x5000 31).keyStore 0x6000 (zeros 3)).1, ((kw (((tkb 9 ((ks ([20, 5, 0, 0, 0, 0, 0, 0, 0, 0x30]) (kb 0 0 0 0 0 20480 24576 31 0)).modMem fun m
      => m.putBytes 0x5000 (zeros 12 ++ (Crypto.gcmSeal tkey (zeros 12) [] (zeros 3)).1 ++ (Crypto.gcmSeal tkey (zeros 12) [] (zeros
      3)).2))).keyRequest 7 5 [1, 2] [16]).2) 0x5000 31).keyStore 0x6000 (zeros 3)).2, by decide +kernel⟩,
    ⟨(ks ([22, 0, 0, 0, 0, 0, 0, 0, 0, 0x30]) (kb 0 0 0 0 0 20480 1099511627776 32 0)), (tkb 9 (ks ([22, 0, 0, 0, 0, 0, 0, 0, 0, 0x30]) (kb 0 0 0 0 0
      20480 1099511627776 32 0))), 0, [22, 0, 0, 0, 0, 0, 0, 0, 0, 0x30] ++ zeros 22, kb 0 0 0 0 0 20480 1099511627776 32 0, 3, 24, by decide +kernel⟩⟩

/-- Clauses 6.2, 7.1, 7.2, 7.3, 7.5, 8.1, 8.2, 9.2, 9.3, 10.1, 10.2, 3.2.2. -/
theorem witness_KeysAreFilledUsedAndFenced_13 :
(∃ (s v : State) (slot : Nat) (desc b r : List Byte) (w : State) (st : Nat) (x : State), s.takenBlock 9 = some (slot, desc, b, v) ∧ byteAt desc 0 = 22
      ∧ le b 24 8 < 2 ^ 40 ∧ 0 < le b 32 4 ∧ le b 32 4 ≤ 4096 ∧ v.flag F.KEY_STATUS_rng_ok = true ∧ v.random (le b 32 4) = (r, w) ∧ w.keyStore (le b
      24 8) r = (st, x)) ∧
(∃ (s : State) (requester : Nat) (clear : Bool) (n : List Nat × List Nat), requesterNeeds requester clear = n ∧ s.powered 10 = false) ∧
(∃ (s : State) (requester slot : Nat) (clear : Bool) (n : List Nat × List Nat), requesterNeeds requester clear = n ∧ s.powered 10 = true ∧ keyRefusal
      (s.keySlot slot) n.fst n.snd = none) ∧
(∃ (s : State) (requester slot : Nat) (clear : Bool) (n : List Nat × List Nat) (r : Nat), requesterNeeds requester clear = n ∧ s.powered 10 = true ∧
      keyRefusal (s.keySlot slot) n.fst n.snd = some r) ∧
(∃ (s : State) (requester slot : Nat) (clear : Bool) (n : List Nat × List Nat), requesterNeeds requester clear = n ∧ s.powered 10 = true ∧ slot ≠ 0) ∧
(∃ (s : State), s.powered 10 = false ∨ s.fld F.KEY_CFG_remask_s = 0 ∨ s.slotInUse s.key.remaskNext = none) ∧
(∃ (s : State) (n : Nat), s.powered 10 = true ∧ s.fld F.KEY_CFG_remask_s ≠ 0 ∧ s.slotInUse s.key.remaskNext = some n) ∧
(∃ (s : State), s.powered 10 = true) ∧
(∃ (s : State), s.powered 10 = false) ∧
(∃ (w : Word), fieldOf F.KEY_CFG_lock w = 0) ∧
(∃ (ini : Nat) (w : Word) (s : State), fieldOf F.KEY_CFG_lock w = 1 ∧ s.reaches ini Reg.KEY_CFG = true) ∧
(∃ (s v : State) (slot : Nat) (desc : List Byte), s.taken 8 = some (slot, desc, v) ∧ byteAt desc 0 = 7 ∧ byteAt desc 1 = 0) :=
  ⟨⟨(ks ([22, 0, 0, 0, 0, 0, 0, 0, 0, 0x30]) (kb 0 0 0 0 0 20480 24576 5 0)), (tkb 9 (ks ([22, 0, 0, 0, 0, 0, 0, 0, 0, 0x30]) (kb 0 0 0 0 0 20480 24576 5
      0))), 0, [22, 0, 0, 0, 0, 0, 0, 0, 0, 0x30] ++ zeros 22, kb 0 0 0 0 0 20480 24576 5 0, ((tkb 9 (ks ([22, 0, 0, 0, 0, 0, 0, 0, 0, 0x30]) (kb 0 0
      0 0 0 20480 24576 5 0))).random 5).1, ((tkb 9 (ks ([22, 0, 0, 0, 0, 0, 0, 0, 0, 0x30]) (kb 0 0 0 0 0 20480 24576 5 0))).random 5).2, (((tkb 9
      (ks ([22, 0, 0, 0, 0, 0, 0, 0, 0, 0x30]) (kb 0 0 0 0 0 20480 24576 5 0))).random 5).2.keyStore 0x6000 ((tkb 9 (ks ([22, 0, 0, 0, 0, 0, 0, 0, 0,
      0x30]) (kb 0 0 0 0 0 20480 24576 5 0))).random 5).1).1, (((tkb 9 (ks ([22, 0, 0, 0, 0, 0, 0, 0, 0, 0x30]) (kb 0 0 0 0 0 20480 24576 5
      0))).random 5).2.keyStore 0x6000 ((tkb 9 (ks ([22, 0, 0, 0, 0, 0, 0, 0, 0, 0x30]) (kb 0 0 0 0 0 20480 24576 5 0))).random 5).1).2, by and_intros
      <;> first | decide +kernel | rfl⟩,
    ⟨State.reset, 7, false, requesterNeeds 7 false, by decide +kernel⟩,
    ⟨kst lit, 7, 5, false, requesterNeeds 7 false, by decide +kernel⟩,
    ⟨kst lit, 5, 4, true, requesterNeeds 5 true, 2, by decide +kernel⟩,
    ⟨kst lit, 5, 4, true, requesterNeeds 5 true, by decide +kernel⟩,
    ⟨kst lit, by decide +kernel⟩,
    ⟨(kst lit).setFld F.KEY_CFG_remask_s 9, 4, by decide +kernel⟩,
    ⟨lit, by decide +kernel⟩,
    ⟨State.reset, by decide +kernel⟩,
    ⟨5, by decide +kernel⟩,
    ⟨4, 0x80000005, lit, by decide +kernel⟩,
    ⟨(kr [7, 0] []), (tk 8 (kr [7, 0] [])), 0, [7, 0] ++ zeros 30, by decide +kernel⟩⟩

/-- Clauses 7.4, 5.2.2. -/
theorem witness_KeysAreFilledUsedAndFenced_14 :
(∃ (s : State) (requester slot : Nat) (clear : Bool) (n : List Nat × List Nat), requesterNeeds requester clear = n ∧ (s.powered 10 = false ∨ slot =
      0)) ∧
(∃ (s v : State) (slot op : Nat) (desc b : List Byte) (c : Instr) (bad : Bool) (types : List Nat) (a : KeyAnswer) (w : State) (st : Nat), s.takenBlock
      9 = some (slot, desc, b, v) ∧ byteAt desc 0 = op ∧ (op, c, types) ∈ [(17, Instr.hmacGen bad, [4]), (18, Instr.hmacVerify bad, [4]), (19,
      Instr.gcmSeal bad, [1, 2]), (20, Instr.gcmOpen bad, [1, 2]), (21, Instr.ecdsaVerify bad, [5])] ∧ le b 16 8 < 2 ^ 40 ∧ le b 24 8 < 2 ^ 40 ∧ le b
      32 4 ≤ 16777216 ∧ (le b 36 4 ≤ le b 32 4 ∨ op ∈ [17, 18, 21]) ∧ (bad = false ∨ byteAt desc 1 = 0) ∧ v.keyRequest 7 (byteAt desc 1) types [16] =
      (a, w) ∧ (a = KeyAnswer.refused ∧ st = Status.keyRefused ∨ a = KeyAnswer.memoryError ∧ st = Status.memoryError)) :=
  ⟨⟨State.reset, 5, 4, true, requesterNeeds 5 true, by decide +kernel⟩,
    ⟨(ks ([17, 0, 0, 0, 0, 0, 0, 0, 0, 0x30]) (kb 0 0 0 0 0 20480 24576 32 0)), (tkb 9 (ks ([17, 0, 0, 0, 0, 0, 0, 0, 0, 0x30]) (kb 0 0 0 0 0 20480 24576
      32 0))), 0, 17, [17, 0, 0, 0, 0, 0, 0, 0, 0, 0x30] ++ zeros 22, kb 0 0 0 0 0 20480 24576 32 0, .hmacGen true, true, [4], .refused, ((tkb 9 (ks
      ([17, 0, 0, 0, 0, 0, 0, 0, 0, 0x30]) (kb 0 0 0 0 0 20480 24576 32 0))).keyRequest 7 0 [4] [16]).2, Status.keyRefused, by decide +kernel⟩⟩

/-- Clauses 1, 2.1, 2.2.1. -/
theorem witness_UpdatesAreWrittenCheckedAndConfirmed_1 :
(∃ (s v : State) (slot : Nat) (desc : List Byte) (c : Instr), s.taken 80 = some (slot, desc, v) ∧ s.auditRoom = true ∧ ((byteAt desc 0, c) ∈ [(1,
      Instr.updWrite), (2, Instr.updCheck), (3, Instr.updActivate), (4, Instr.updCancel)] ∧ 3 ≤ byteAt desc 1 ∨ byteAt desc 0 = 6 ∧ c =
      Instr.updProcSwap ∧ 2 ≤ byteAt desc 1)) ∧
(∃ (s v : State) (slot : Nat) (desc : List Byte) (c : Instr), s.taken 80 = some (slot, desc, v) ∧ s.auditRoom = true ∧ ((byteAt desc 0, c) ∈ [(1,
      Instr.updWrite), (2, Instr.updCheck), (3, Instr.updActivate), (4, Instr.updCancel)] ∧ 3 ≤ byteAt desc 1 ∨ byteAt desc 0 = 6 ∧ c =
      Instr.updProcSwap ∧ 2 ≤ byteAt desc 1)) ∧
(∃ (s v : State) (slot : Nat) (desc : List Byte) (c : Instr), s.taken 80 = some (slot, desc, v) ∧ s.auditRoom = true ∧ ((byteAt desc 0, c) ∈ [(1,
      Instr.updWrite), (2, Instr.updCheck), (3, Instr.updActivate), (4, Instr.updCancel)] ∧ 3 ≤ byteAt desc 1 ∨ byteAt desc 0 = 6 ∧ c =
      Instr.updProcSwap ∧ 2 ≤ byteAt desc 1)) ∧
(∃ (s v : State) (slot t off a len : Nat) (desc : List Byte) (bad : Nat), s.taken 80 = some (slot, desc, v) ∧ byteAt desc 0 = 1 ∧ byteAt desc 1 = t ∧
      t < 3 ∧ le desc 4 4 = off ∧ le desc 8 8 = a ∧ le desc 16 4 = len ∧ v.boot.ctl.slots.length = 2 ∧ (bad = 132 ∧ off % 4096 ≠ 0 ∨ bad = 136 ∧ off %
      4096 = 0 ∧ 2 ^ 40 ≤ a ∨ bad = 144 ∧ off % 4096 = 0 ∧ a < 2 ^ 40 ∧ (len < 4096 ∨ 16777216 < len ∨ len % 4096 ≠ 0 ∨ (if t < 2 then 100663296 else
      50331648) < off + len))) ∧
(∃ (s v : State) (slot t off a len : Nat) (desc : List Byte), s.taken 80 = some (slot, desc, v) ∧ byteAt desc 0 = 1 ∧ byteAt desc 1 = t ∧ t < 3 ∧ le
      desc 4 4 = off ∧ le desc 8 8 = a ∧ le desc 16 4 = len ∧ v.boot.ctl.slots.length = 2 ∧ off % 4096 = 0 ∧ a < 2 ^ 40 ∧ 4096 ≤ len ∧ len ≤ 16777216
      ∧ len % 4096 = 0 ∧ (off + len ≤ if t < 2 then 100663296 else 50331648) ∧ (t < 2 ∧ (t = v.runSlot ∨ v.updState t = 4 ∨ v.updState t = 5) ∨
      v.updState t = 7)) :=
  ⟨⟨(ur 0 0 ([1, 3])), (tk 0x50 (ur 0 0 ([1, 3]))), 0, [1, 3] ++ zeros 30, .updWrite, by decide +kernel⟩,
    ⟨(ur 0 0 ([3, 9])), (tk 0x50 (ur 0 0 ([3, 9]))), 0, [3, 9] ++ zeros 30, .updActivate, by decide +kernel⟩,
    ⟨(ur 0 0 ([6, 2])), (tk 0x50 (ur 0 0 ([6, 2]))), 0, [6, 2] ++ zeros 30, .updProcSwap, by decide +kernel⟩,
    ⟨(ur 0 0 ([1, 1, 0, 0, 1, 0, 0, 0, 0, 80, 0, 0, 0, 0, 0, 0, 0, 16, 0, 0])), (tk 0x50 (ur 0 0 ([1, 1, 0, 0, 1, 0, 0, 0, 0, 80, 0, 0, 0, 0, 0, 0, 0, 16,
      0, 0]))), 0, 1, 1, 20480, 4096, [1, 1, 0, 0, 1, 0, 0, 0, 0, 80, 0, 0, 0, 0, 0, 0, 0, 16, 0, 0] ++ zeros 12, 0x84, by decide +kernel⟩,
    ⟨(ur 0 0 ([1, 0, 0, 0, 0, 0, 0, 0, 0, 80, 0, 0, 0, 0, 0, 0, 0, 16, 0, 0])), (tk 0x50 (ur 0 0 ([1, 0, 0, 0, 0, 0, 0, 0, 0, 80, 0, 0, 0, 0, 0, 0, 0, 16,
      0, 0]))), 0, 0, 0, 20480, 4096, [1, 0, 0, 0, 0, 0, 0, 0, 0, 80, 0, 0, 0, 0, 0, 0, 0, 16, 0, 0] ++ zeros 12, by decide +kernel⟩⟩

/-- Clauses 2.2.2.1, 2.2.2.2, 3, 4. -/
theorem witness_UpdatesAreWrittenCheckedAndConfirmed_2 :
(∃ (s v : State) (slot t off a len : Nat) (desc bs : List Byte) (w : State), s.taken 80 = some (slot, desc, v) ∧ byteAt desc 0 = 1 ∧ byteAt desc 1 = t
      ∧ t < 3 ∧ le desc 4 4 = off ∧ le desc 8 8 = a ∧ le desc 16 4 = len ∧ v.boot.ctl.slots.length = 2 ∧ off % 4096 = 0 ∧ a < 2 ^ 40 ∧ 4096 ≤ len ∧
      len ≤ 16777216 ∧ len % 4096 = 0 ∧ (off + len ≤ if t < 2 then 100663296 else 50331648) ∧ (2 ≤ t ∨ t ≠ v.runSlot ∧ v.updState t ≠ 4 ∧ v.updState t
      ≠ 5) ∧ v.updState t ≠ 7 ∧ v.readMem 20 a len = (MemAnswer.data bs, w)) ∧
(∃ (s v : State) (slot t off a len : Nat) (desc : List Byte) (r : MemAnswer) (w : State) (st : Nat), s.taken 80 = some (slot, desc, v) ∧ byteAt desc 0
      = 1 ∧ byteAt desc 1 = t ∧ t < 3 ∧ le desc 4 4 = off ∧ le desc 8 8 = a ∧ le desc 16 4 = len ∧ v.boot.ctl.slots.length = 2 ∧ off % 4096 = 0 ∧ a <
      2 ^ 40 ∧ 4096 ≤ len ∧ len ≤ 16777216 ∧ len % 4096 = 0 ∧ (off + len ≤ if t < 2 then 100663296 else 50331648) ∧ (2 ≤ t ∨ t ≠ v.runSlot ∧
      v.updState t ≠ 4 ∧ v.updState t ≠ 5) ∧ v.updState t ≠ 7 ∧ v.readMem 20 a len = (r, w) ∧ (r = MemAnswer.error ∧ st = Status.memoryError ∨ r =
      MemAnswer.denied ∧ st = Status.accessDenied)) ∧
(∃ (s v w : State) (slot t : Nat) (desc : List Byte) (d : Option Nat), s.taken 80 = some (slot, desc, v) ∧ byteAt desc 0 = 2 ∧ byteAt desc 1 = t ∧ t <
      3 ∧ (if t < 2 then v.imageCheck (updBase t) true else v.packageCheck) = (d, w)) ∧
(∃ (s : State), s.fld F.UPD_CFG_owner_slot = 0) :=
  ⟨⟨(ur 0 3 ([1, 2, 0, 0, 0, 240, 255, 2, 0, 80, 0, 0, 0, 0, 0, 0, 0, 16, 0, 0])), (tk 0x50 (ur 0 3 ([1, 2, 0, 0, 0, 240, 255, 2, 0, 80, 0, 0, 0, 0, 0,
      0, 0, 16, 0, 0]))), 0, 2, 50327552, 20480, 4096, [1, 2, 0, 0, 0, 240, 255, 2, 0, 80, 0, 0, 0, 0, 0, 0, 0, 16, 0, 0] ++ zeros 12, (tk 0x50 (ur 0
      3 ([1, 2, 0, 0, 0, 240, 255, 2, 0, 80, 0, 0, 0, 0, 0, 0, 0, 16, 0, 0]))).mem.bytes 0x5000 4096, (tk 0x50 (ur 0 3 ([1, 2, 0, 0, 0, 240, 255, 2,
      0, 80, 0, 0, 0, 0, 0, 0, 0, 16, 0, 0]))), glue6 (by decide +kernel) (glue6 (by decide +kernel) (glue4 (by decide +kernel) (readMem_clean (by
      decide +kernel) (by decide +kernel) (by decide +kernel) (by decide +kernel) (by decide +kernel) (by decide +kernel))))⟩,
    ⟨(ur 3 0 ([1, 1, 0, 0, 0, 0, 0, 0, 0, 0, 0, 0, 160, 0, 0, 0, 0, 16, 0, 0])), (tk 0x50 (ur 3 0 ([1, 1, 0, 0, 0, 0, 0, 0, 0, 0, 0, 0, 160, 0, 0, 0, 0,
      16, 0, 0]))), 0, 1, 0, 687194767360, 4096, [1, 1, 0, 0, 0, 0, 0, 0, 0, 0, 0, 0, 160, 0, 0, 0, 0, 16, 0, 0] ++ zeros 12, ((tk 0x50 (ur 3 0 ([1,
      1, 0, 0, 0, 0, 0, 0, 0, 0, 0, 0, 160, 0, 0, 0, 0, 16, 0, 0]))).readMem 20 0xA000000000 4096).1, ((tk 0x50 (ur 3 0 ([1, 1, 0, 0, 0, 0, 0, 0, 0,
      0, 0, 0, 160, 0, 0, 0, 0, 16, 0, 0]))).readMem 20 0xA000000000 4096).2, 11, by decide +kernel⟩,
    ⟨(ur 6 0 ([2, 1])), (tk 0x50 (ur 6 0 ([2, 1]))), ((if 1 < 2 then (tk 0x50 (ur 6 0 ([2, 1]))).imageCheck (updBase 1) true else (tk 0x50 (ur 6 0 ([2,
      1]))).packageCheck)).2, 0, 1, [2, 1] ++ zeros 30, ((if 1 < 2 then (tk 0x50 (ur 6 0 ([2, 1]))).imageCheck (updBase 1) true else (tk 0x50 (ur 6 0
      ([2, 1]))).packageCheck)).1, by decide +kernel⟩,
    ⟨lit, by decide +kernel⟩⟩

/-- Clauses 5.1.1, 5.1.2, 5.2.1, 5.2.2, 6.1, 6.2, 7.1, 7.2, 7.3. -/
theorem witness_UpdatesAreWrittenCheckedAndConfirmed_3 :
(∃ (s v : State) (slot t : Nat) (desc : List Byte), s.taken 80 = some (slot, desc, v) ∧ s.auditRoom = true ∧ byteAt desc 1 = t ∧ t < 3 ∧ byteAt desc 0
      = 3 ∧ (v.updState t ≠ 3 ∨ v.boot.ctl.stage = 7 ∨ v.boot.ctl.trial ≠ none)) ∧
(∃ (s v : State) (slot t : Nat) (desc : List Byte), s.taken 80 = some (slot, desc, v) ∧ s.auditRoom = true ∧ byteAt desc 1 = t ∧ t < 3 ∧ byteAt desc 0
      = 3 ∧ v.updState t = 3 ∧ v.boot.ctl.stage ≠ 7 ∧ v.boot.ctl.trial = none) ∧
(∃ (s v : State) (slot t : Nat) (desc : List Byte), s.taken 80 = some (slot, desc, v) ∧ s.auditRoom = true ∧ byteAt desc 1 = t ∧ t < 3 ∧ byteAt desc 0
      = 4 ∧ v.updState t ≠ 7 ∧ (v.updState t ≠ 4 ∨ v.boot.ctl.count ≠ 0)) ∧
(∃ (s v : State) (slot t : Nat) (desc : List Byte), s.taken 80 = some (slot, desc, v) ∧ s.auditRoom = true ∧ byteAt desc 1 = t ∧ t < 3 ∧ byteAt desc 0
      = 4 ∧ (v.updState t = 7 ∨ v.updState t = 4 ∧ v.boot.ctl.count = 0)) ∧
(∃ (s v : State) (slot : Nat) (desc : List Byte), s.taken 80 = some (slot, desc, v) ∧ s.auditRoom = true ∧ byteAt desc 0 = 5 ∧ v.boot.window = none) ∧
(∃ (s v : State) (slot : Nat) (desc : List Byte), s.taken 80 = some (slot, desc, v) ∧ s.auditRoom = true ∧ byteAt desc 0 = 5 ∧ v.boot.window ≠ none ∧
      v.boot.ctl.slots.length = 2) ∧
(∃ (s v : State) (slot t p : Nat) (desc : List Byte), s.taken 80 = some (slot, desc, v) ∧ s.auditRoom = true ∧ byteAt desc 0 = 6 ∧ byteAt desc 1 = t ∧
      t < 2 ∧ byteAt desc 2 = p ∧ 5 ≤ p) ∧
(∃ (s v : State) (slot t p : Nat) (desc : List Byte), s.taken 80 = some (slot, desc, v) ∧ s.auditRoom = true ∧ byteAt desc 0 = 6 ∧ byteAt desc 1 = t ∧
      t < 2 ∧ byteAt desc 2 = p ∧ p < 5 ∧ (p < 2 ∨ p = 2 ∧ v.anyStarted = true ∨ ¬v.updState t ∈ [3, 4, 5] ∨ v.boot.swap ≠ none)) ∧
(∃ (s v : State) (slot t p : Nat) (desc : List Byte) (d : Nat) (e : List Byte), s.taken 80 = some (slot, desc, v) ∧ s.auditRoom = true ∧ byteAt desc 0
      = 6 ∧ byteAt desc 1 = t ∧ t < 2 ∧ byteAt desc 2 = p ∧ 2 ≤ p ∧ p < 5 ∧ (p ≠ 2 ∨ v.anyStarted = false) ∧ v.updState t ∈ [3, 4, 5] ∧ v.boot.swap =
      none ∧ (d = 1 ∧ v.sectionOf t p = none ∨ v.sectionOf t p = some e ∧ (d = 6 ∧ v.sectionGood (updBase t) e = false ∨ d = 7 ∧ v.sectionGood
      (updBase t) e = true ∧ ∃ (q : Nat), q < 5 ∧ q ≠ p ∧ (secAccepts e q (v.fld (F.UPD_RUN_IFV_ifv q)) = false ∨ secAccepts (nth v.boot.loaded q [])
      p (secVersion e) = false)))) :=
  ⟨⟨(ur 2 0 ([3, 1])), (tk 0x50 (ur 2 0 ([3, 1]))), 0, 1, [3, 1] ++ zeros 30, by decide +kernel⟩,
    ⟨(ur 3 0 ([3, 1])), (tk 0x50 (ur 3 0 ([3, 1]))), 0, 1, [3, 1] ++ zeros 30, by decide +kernel⟩,
    ⟨(ur 3 0 ([4, 1])), (tk 0x50 (ur 3 0 ([4, 1]))), 0, 1, [4, 1] ++ zeros 30, by decide +kernel⟩,
    ⟨(ur 4 0 ([4, 1])), (tk 0x50 (ur 4 0 ([4, 1]))), 0, 1, [4, 1] ++ zeros 30, by decide +kernel⟩,
    ⟨(ur 0 0 ([5])), (tk 0x50 (ur 0 0 ([5]))), 0, [5] ++ zeros 31, by decide +kernel⟩,
    ⟨((window 9 (ur 4 0 ([5]))).raise F.UPD_STATUS_running), (tk 0x50 ((window 9 (ur 4 0 ([5]))).raise F.UPD_STATUS_running)), 0, [5] ++ zeros 31, by
      decide +kernel⟩,
    ⟨(ur 3 0 ([6, 1, 5])), (tk 0x50 (ur 3 0 ([6, 1, 5]))), 0, 1, 5, [6, 1, 5] ++ zeros 29, by decide +kernel⟩,
    ⟨(ur 3 0 ([6, 1, 1])), (tk 0x50 (ur 3 0 ([6, 1, 1]))), 0, 1, 1, [6, 1, 1] ++ zeros 29, by decide +kernel⟩,
    ⟨(ur 3 0 ([6, 1, 4])), (tk 0x50 (ur 3 0 ([6, 1, 4]))), 0, 1, 4, [6, 1, 4] ++ zeros 29, 1, [], by decide +kernel⟩⟩

/-- Clauses 7.4, 8, 9.1, 9.2.1, 9.2.2, 9.2.3. -/
theorem witness_UpdatesAreWrittenCheckedAndConfirmed_4 :
(∃ (s v : State) (slot t p : Nat) (desc e : List Byte), s.taken 80 = some (slot, desc, v) ∧ s.auditRoom = true ∧ byteAt desc 0 = 6 ∧ byteAt desc 1 = t
      ∧ t < 2 ∧ byteAt desc 2 = p ∧ 2 ≤ p ∧ p < 5 ∧ (p ≠ 2 ∨ v.anyStarted = false) ∧ v.updState t ∈ [3, 4, 5] ∧ v.boot.swap = none ∧ v.sectionOf t p =
      some e ∧ v.sectionGood (updBase t) e = true ∧ ∀ (q : Nat), q < 5 → q ≠ p → secAccepts e q (v.fld (F.UPD_RUN_IFV_ifv q)) = true ∧ secAccepts (nth
      v.boot.loaded q []) p (secVersion e) = true) ∧
(∃ (s : State) (c : Instr), s.auditRoom = false ∧ s.powered 11 = true ∧ c ∈ [Instr.updActivate, Instr.updCancel, Instr.updConfirm, Instr.updProcSwap]) ∧
(∃ (s : State), s.boot.window = none) ∧
(∃ (s : State) (e : Nat), s.boot.window = some e) ∧
(∃ (s : State) (e : Nat), s.boot.window = some e ∧ s.auditRoom = false) ∧
(∃ (s : State) (e : Nat), s.boot.window = some e ∧ s.auditRoom = true ∧ s.fld F.BOOT_STATUS_phase ≠ 15 ∧ s.boot.ctl.slots.length = 2) :=
  ⟨⟨(img1 true (ur 3 0 ([6, 1, 3]))), (tk 0x50 (img1 true (ur 3 0 ([6, 1, 3])))), 0, 1, 3, [6, 1, 3] ++ zeros 29, sec3 true, by decide +kernel⟩,
    ⟨noAudit (ur 3 0 [3, 1]), .updActivate, by decide +kernel⟩,
    ⟨lit, by decide +kernel⟩,
    ⟨window 100000000000 lit, 100000000000, by decide +kernel⟩,
    ⟨noAudit (window 100000000000 lit), 100000000000, by decide +kernel⟩,
    ⟨window 100000000000 lit, 100000000000, by decide +kernel⟩⟩

/-- Clauses 1.1, 1.2, 1.3, 1.4, 2.1, 2.2, 4.1.1, 4.1.2, 4.1.3, 4.2, 4.3. -/
theorem witness_RecordsAreFlushedAndSampled_1 :
(∃ (s v w : State) (slot : Nat) (desc : List Byte) (c : Instr), ((c = Instr.recFlush ∧ s.taken 88 = some (slot, desc, v) ∧ byteAt desc 0 = 1 ∧ w =
      v.modRec fun (r : Recorder) =>
      { img := r.img, faultBuf := r.faultBuf, auditBuf := r.auditBuf, flush := r.flush, again := r.again, merged := r.merged, lastBegun := r.lastBegun, pfCommit := r.pfCommit, waitNow := r.waitNow, waitNext := r.waitNext ++ [slot], sinceFlush := r.sinceFlush, doorbellBy := r.doorbellBy })
      ∨ c = Instr.flushTimer ∧ (s.recd.merged = true ∨ 60 * s.fld F.REC_CFG_flush_min ≤ s.recd.sinceFlush) ∧ w = s) ∧ w.powered 11 = true ∧ w.flag
      F.REC_STATUS_loaded = false) ∧
(∃ (s v w : State) (slot : Nat) (desc : List Byte) (c : Instr), ((c = Instr.recFlush ∧ s.taken 88 = some (slot, desc, v) ∧ byteAt desc 0 = 1 ∧ w =
      v.modRec fun (r : Recorder) =>
      { img := r.img, faultBuf := r.faultBuf, auditBuf := r.auditBuf, flush := r.flush, again := r.again, merged := r.merged, lastBegun := r.lastBegun, pfCommit := r.pfCommit, waitNow := r.waitNow, waitNext := r.waitNext ++ [slot], sinceFlush := r.sinceFlush, doorbellBy := r.doorbellBy })
      ∨ c = Instr.flushTimer ∧ (s.recd.merged = true ∨ 60 * s.fld F.REC_CFG_flush_min ≤ s.recd.sinceFlush) ∧ w = s) ∧ w.powered 11 = true ∧ w.flag
      F.REC_STATUS_loaded = true ∧ w.recd.flush ≠ none) ∧
(∃ (s v w : State) (slot : Nat) (desc : List Byte) (c : Instr) (key : Option (List Byte)) (k : List Byte) (u : State), ((c = Instr.recFlush ∧ s.taken
      88 = some (slot, desc, v) ∧ byteAt desc 0 = 1 ∧ w = v.modRec fun (r : Recorder) =>
      { img := r.img, faultBuf := r.faultBuf, auditBuf := r.auditBuf, flush := r.flush, again := r.again, merged := r.merged, lastBegun := r.lastBegun, pfCommit := r.pfCommit, waitNow := r.waitNow, waitNext := r.waitNext ++ [slot], sinceFlush := r.sinceFlush, doorbellBy := r.doorbellBy })
      ∨ c = Instr.flushTimer ∧ (s.recd.merged = true ∨ 60 * s.fld F.REC_CFG_flush_min ≤ s.recd.sinceFlush) ∧ w = s) ∧ w.powered 11 = true ∧ w.flag
      F.REC_STATUS_loaded = true ∧ w.recd.flush = none ∧ (key = none ∧ w.fld F.REC_CFG_seal_slot = 0 ∨ w.fld F.REC_CFG_seal_slot ≠ 0 ∧ key = some k ∧
      w.keyRequest 5 (w.fld F.REC_CFG_seal_slot) [4] [13, 17] = (KeyAnswer.key k, u))) ∧
(∃ (s v w : State) (slot : Nat) (desc : List Byte) (c : Instr) (u : State) (a : KeyAnswer), ((c = Instr.recFlush ∧ s.taken 88 = some (slot, desc, v) ∧
      byteAt desc 0 = 1 ∧ w = v.modRec fun (r : Recorder) =>
      { img := r.img, faultBuf := r.faultBuf, auditBuf := r.auditBuf, flush := r.flush, again := r.again, merged := r.merged, lastBegun := r.lastBegun, pfCommit := r.pfCommit, waitNow := r.waitNow, waitNext := r.waitNext ++ [slot], sinceFlush := r.sinceFlush, doorbellBy := r.doorbellBy })
      ∨ c = Instr.flushTimer ∧ (s.recd.merged = true ∨ 60 * s.fld F.REC_CFG_flush_min ≤ s.recd.sinceFlush) ∧ w = s) ∧ w.powered 11 = true ∧ w.flag
      F.REC_STATUS_loaded = true ∧ w.recd.flush = none ∧ w.fld F.REC_CFG_seal_slot ≠ 0 ∧ w.keyRequest 5 (w.fld F.REC_CFG_seal_slot) [4] [13, 17] = (a,
      u) ∧ (a = KeyAnswer.refused ∨ a = KeyAnswer.memoryError)) ∧
(∃ (s v w : State) (slot : Nat) (desc : List Byte) (c : Instr) (key : Option (List Byte)) (k : List Byte) (u : State), ((c = Instr.recFlush ∧ s.taken
      88 = some (slot, desc, v) ∧ byteAt desc 0 = 1 ∧ w = v.modRec fun (r : Recorder) =>
      { img := r.img, faultBuf := r.faultBuf, auditBuf := r.auditBuf, flush := r.flush, again := r.again, merged := r.merged, lastBegun := r.lastBegun, pfCommit := r.pfCommit, waitNow := r.waitNow, waitNext := r.waitNext ++ [slot], sinceFlush := r.sinceFlush, doorbellBy := r.doorbellBy })
      ∨ c = Instr.flushTimer ∧ (s.recd.merged = true ∨ 60 * s.fld F.REC_CFG_flush_min ≤ s.recd.sinceFlush) ∧ w = s) ∧ w.powered 11 = true ∧ w.flag
      F.REC_STATUS_loaded = true ∧ w.recd.flush = none ∧ (key = none ∧ w.fld F.REC_CFG_seal_slot = 0 ∨ w.fld F.REC_CFG_seal_slot ≠ 0 ∧ key = some k ∧
      w.keyRequest 5 (w.fld F.REC_CFG_seal_slot) [4] [13, 17] = (KeyAnswer.key k, u))) ∧
(∃ (s : State), s.powered 11 = false ∨ s.recd.merged = false ∧ s.recd.sinceFlush < 60 * s.fld F.REC_CFG_flush_min) ∧
(∃ (s : State), s.powered 11 = false ∨ s.recd.flush = none) ∧
(∃ (s : State) (f : Flush) (n : Nat), s.powered 11 = true ∧ s.recd.flush = some f ∧ s.mem.flips = [] ∧ s.mem.poison = [] ∧ (f.pass = 0 ∧ s.flag
      F.FWL_COMMIT_go = false ∧ n = 1 ∨ f.pass = 1 ∧ s.recd.pfCommit = false ∧ s.flag F.BLW_STATUS_pf_warn = false ∧ n = 1 ∨ f.pass = 3 ∧ n = 0) ∧
      s.recd.again = false ∧ s.recd.waitNow = []) ∧
(∃ (s : State) (f : Flush) (n slot : Nat), s.powered 11 = true ∧ s.recd.flush = some f ∧ s.mem.flips = [] ∧ s.mem.poison = [] ∧ (f.pass = 0 ∧ s.flag
      F.FWL_COMMIT_go = false ∧ n = 1 ∨ f.pass = 1 ∧ s.recd.pfCommit = false ∧ s.flag F.BLW_STATUS_pf_warn = false ∧ n = 1 ∨ f.pass = 3 ∧ n = 0) ∧
      s.recd.again = false ∧ s.recd.waitNow = [slot]) ∧
(∃ (s : State) (f : Flush) (n : Nat), s.powered 11 = true ∧ s.recd.flush = some f ∧ s.mem.flips = [] ∧ s.mem.poison = [] ∧ (f.pass = 0 ∧ s.flag
      F.FWL_COMMIT_go = false ∧ n = 1 ∨ f.pass = 1 ∧ s.recd.pfCommit = false ∧ s.flag F.BLW_STATUS_pf_warn = false ∧ n = 1 ∨ f.pass = 3 ∧ n = 0) ∧
      s.recd.again = true ∧ s.recd.waitNow = []) ∧
(∃ (s : State) (f : Flush), s.powered 11 = true ∧ s.recd.flush = some f ∧ f.pass = 1 ∧ s.recd.pfCommit = true ∧ s.mem.flips = [] ∧ s.mem.poison = []) ∧
(∃ (s : State) (f : Flush), s.powered 11 = true ∧ s.recd.flush = some f ∧ f.pass = 1 ∧ s.recd.pfCommit = false ∧ s.flag F.BLW_STATUS_pf_warn = true) :=
  ⟨⟨((cr 0 [1] []).lower F.REC_STATUS_loaded), (tk 0x58 ((cr 0 [1] []).lower F.REC_STATUS_loaded)), ((tk 0x58 ((cr 0 [1] []).lower
      F.REC_STATUS_loaded)).modRec fun r => { r with waitNext := r.waitNext ++ [0] }), 0, [1] ++ zeros 31, .recFlush, by decide +kernel⟩,
    ⟨(flush 0 (cr 0 [1] [])), (tk 0x58 (flush 0 (cr 0 [1] []))), ((tk 0x58 (flush 0 (cr 0 [1] []))).modRec fun r =>
      { r with waitNext := r.waitNext ++ [0] }), 0, [1] ++ zeros 31, .recFlush, by decide +kernel⟩,
    ⟨(cr 0 [1] []), (tk 0x58 (cr 0 [1] [])), ((tk 0x58 (cr 0 [1] [])).modRec fun r => { r with waitNext := r.waitNext ++ [0] }), 0, [1] ++ zeros 31,
      .recFlush, none, [], ((tk 0x58 (cr 0 [1] [])).modRec fun r => { r with waitNext := r.waitNext ++ [0] }), by decide +kernel⟩,
    ⟨(cr 9 [1] []), (tk 0x58 (cr 9 [1] [])), ((tk 0x58 (cr 9 [1] [])).modRec fun r => { r with waitNext := r.waitNext ++ [0] }), 0, [1] ++ zeros 31,
      .recFlush, (((tk 0x58 (cr 9 [1] [])).modRec fun r => { r with waitNext := r.waitNext ++ [0] }).keyRequest 5 9 [4] [13, 17]).2, (((tk 0x58 (cr 9
      [1] [])).modRec fun r => { r with waitNext := r.waitNext ++ [0] }).keyRequest 5 9 [4] [13, 17]).1, by decide +kernel⟩,
    ⟨recd_ 0 (modR (fun r => { r with merged := true }) lit), recd_ 0 (modR (fun r => { r with merged := true }) lit), recd_ 0 (modR (fun r =>
      { r with merged := true }) lit), 0, [], .flushTimer, none, [], (recd_ 0 (modR (fun r => { r with merged := true }) lit)), by decide +kernel⟩,
    ⟨State.reset, by decide +kernel⟩,
    ⟨lit, by decide +kernel⟩,
    ⟨( flush 0 (recd_ 0 lit)), theFlush ( flush 0 (recd_ 0 lit)), 1, by decide +kernel⟩,
    ⟨(modR (fun r => { r with waitNow := [2] }) <| flush 0 (recd_ 0 lit)), theFlush (modR (fun r => { r with waitNow := [2] }) <| flush 0 (recd_ 0 lit)),
      1, 2, by decide +kernel⟩,
    ⟨(modR (fun r => { r with again := true }) <| flush 0 (recd_ 0 lit)), theFlush (modR (fun r => { r with again := true }) <| flush 0 (recd_ 0 lit)), 1,
      by decide +kernel⟩,
    ⟨(modR (fun r => { r with pfCommit := true }) <| flush 1 (recd_ 0 lit)), theFlush (modR (fun r => { r with pfCommit := true }) <| flush 1 (recd_ 0
      lit)), by decide +kernel⟩,
    ⟨((fun x : State => x.raise F.BLW_STATUS_pf_warn) <| flush 1 (recd_ 0 lit)), theFlush ((fun x : State => x.raise F.BLW_STATUS_pf_warn) <| flush 1
      (recd_ 0 lit)), by decide +kernel⟩⟩

/-- Clauses 4.4, 4.5, 5.1, 5.2.1, 5.2.2.1. -/
theorem witness_RecordsAreFlushedAndSampled_2 :
(∃ (s : State) (f : Flush), s.powered 11 = true ∧ s.recd.flush = some f ∧ f.pass = 2) ∧
(∃ (s : State) (f : Flush), s.powered 11 = true ∧ s.recd.flush = some f ∧ 4 ≤ f.pass) ∧
(∃ (s v : State) (slot scope : Nat) (desc b : List Byte) (i : Nat), s.takenBlock 88 = some (slot, desc, b, v) ∧ byteAt desc 0 = 2 ∧ byteAt b 12 =
      scope ∧ (i = 12 ∧ (scope = 0 ∨ 16 ≤ scope) ∨ 0 < scope ∧ scope < 16 ∧ 13 ≤ i ∧ i < 32 ∧ byteAt b i ≠ 0 ∧ ∀ (j : Nat), j < i → 13 ≤ j → byteAt b
      j = 0)) ∧
(∃ (s v : State) (slot scope : Nat) (desc b : List Byte) (st : Nat) (w : State), s.takenBlock 88 = some (slot, desc, b, v) ∧ byteAt desc 0 = 2 ∧
      byteAt b 12 = scope ∧ 0 < scope ∧ scope < 16 ∧ (∀ (j : Nat), j < 32 → 13 ≤ j → byteAt b j = 0) ∧ (st = Status.keyRefused ∧ v.fld
      F.REC_CFG_clear_slot = 0 ∧ w = v ∨ v.fld F.REC_CFG_clear_slot ≠ 0 ∧ (v.keyRequest 5 (v.fld F.REC_CFG_clear_slot) [4] [13, 18] =
      (KeyAnswer.refused, w) ∧ st = Status.keyRefused ∨ v.keyRequest 5 (v.fld F.REC_CFG_clear_slot) [4] [13, 18] = (KeyAnswer.memoryError, w) ∧ st =
      Status.memoryError))) ∧
(∃ (s v : State) (slot scope : Nat) (desc b key : List Byte) (w : State) (st off : Nat), s.takenBlock 88 = some (slot, desc, b, v) ∧ byteAt desc 0 = 2
      ∧ byteAt b 12 = scope ∧ 0 < scope ∧ scope < 16 ∧ (∀ (j : Nat), j < 32 → 13 ≤ j → byteAt b j = 0) ∧ v.fld F.REC_CFG_clear_slot ≠ 0 ∧ v.keyRequest
      5 (v.fld F.REC_CFG_clear_slot) [4] [13, 18] = (KeyAnswer.key key, w) ∧ (st = Status.authFailed ∧ off = 0 ∧ Crypto.hmac key (List.take 32 b) ≠
      List.drop 32 b ∨ st = Status.refused ∧ off = 255 ∧ Crypto.hmac key (List.take 32 b) = List.drop 32 b ∧ (List.take 8 b ≠ v.unitSerial ∨ le b 8 4
      ≠ (v.recd.img.clearSeq + 1) % 2 ^ 32))) :=
  ⟨⟨( flush 2 (recd_ 0 lit)), theFlush ( flush 2 (recd_ 0 lit)), by decide +kernel⟩,
    ⟨( flush 4 (recd_ 0 lit)), theFlush ( flush 4 (recd_ 0 lit)), by decide +kernel⟩,
    ⟨((cr 0 ([2, 0, 0, 0, 0, 0, 0, 0, 0, 0x30]) (clearBlk 0 0 1 ++ zeros 32)).setFld F.REC_CFG_clear_slot 5), (tkb 0x58 ((cr 0 ([2, 0, 0, 0, 0, 0, 0, 0,
      0, 0x30]) (clearBlk 0 0 1 ++ zeros 32)).setFld F.REC_CFG_clear_slot 5)), 0, 0, [2, 0, 0, 0, 0, 0, 0, 0, 0, 0x30] ++ zeros 22, (clearBlk 0 0 1 ++
      zeros 32), 12, by decide +kernel⟩,
    ⟨((cr 0 ([2, 0, 0, 0, 0, 0, 0, 0, 0, 0x30]) (clearBlk 3 0 1 ++ zeros 32)).setFld F.REC_CFG_clear_slot 0), (tkb 0x58 ((cr 0 ([2, 0, 0, 0, 0, 0, 0, 0,
      0, 0x30]) (clearBlk 3 0 1 ++ zeros 32)).setFld F.REC_CFG_clear_slot 0)), 0, 3, [2, 0, 0, 0, 0, 0, 0, 0, 0, 0x30] ++ zeros 22, (clearBlk 3 0 1 ++
      zeros 32), 8, (tkb 0x58 ((cr 0 ([2, 0, 0, 0, 0, 0, 0, 0, 0, 0x30]) (clearBlk 3 0 1 ++ zeros 32)).setFld F.REC_CFG_clear_slot 0)), by
      decide +kernel⟩,
    ⟨((cr 0 ([2, 0, 0, 0, 0, 0, 0, 0, 0, 0x30]) (clearBlk 3 0 1 ++ zeros 32)).setFld F.REC_CFG_clear_slot 5), (tkb 0x58 ((cr 0 ([2, 0, 0, 0, 0, 0, 0, 0,
      0, 0x30]) (clearBlk 3 0 1 ++ zeros 32)).setFld F.REC_CFG_clear_slot 5)), 0, 3, [2, 0, 0, 0, 0, 0, 0, 0, 0, 0x30] ++ zeros 22, (clearBlk 3 0 1 ++
      zeros 32), tkey, ((tkb 0x58 ((cr 0 ([2, 0, 0, 0, 0, 0, 0, 0, 0, 0x30]) (clearBlk 3 0 1 ++ zeros 32)).setFld F.REC_CFG_clear_slot 5)).keyRequest
      5 5 [4] [13, 18]).2, 12, 0, by decide +kernel⟩⟩

/-- Clauses 5.2.2.2, 6, 7.1, 7.2, 8.1, 8.2. -/
theorem witness_RecordsAreFlushedAndSampled_3 :
(∃ (s v : State) (slot scope : Nat) (desc b key : List Byte) (w : State), s.takenBlock 88 = some (slot, desc, b, v) ∧ byteAt desc 0 = 2 ∧ byteAt b 12
      = scope ∧ 0 < scope ∧ scope < 16 ∧ (∀ (j : Nat), j < 32 → 13 ≤ j → byteAt b j = 0) ∧ v.fld F.REC_CFG_clear_slot ≠ 0 ∧ v.keyRequest 5 (v.fld
      F.REC_CFG_clear_slot) [4] [13, 18] = (KeyAnswer.key key, w) ∧ s.auditRoom = true ∧ Crypto.hmac key (List.take 32 b) = List.drop 32 b ∧ List.take
      8 b = v.unitSerial ∧ le b 8 4 = (v.recd.img.clearSeq + 1) % 2 ^ 32) ∧
(∃ (s : State), s.auditRoom = false) ∧
(∃ (s : State), s.powered 11 = false ∨ s.released = false) ∧
(∃ (s : State), s.powered 11 = true ∧ s.released = true ∧ s.recd.img.extremes.length = 16) ∧
(∃ (w : Word), fieldOf F.PMC_CTRL_zero w = 0) ∧
(∃ (ini : Nat) (w : Word) (c : Instr) (s : State), (c = Instr.pmcRun ini w ∨ c = Instr.pmcZero ini w ∧ fieldOf F.PMC_CTRL_zero w = 1) ∧ s.reaches ini
      Reg.PMC_CTRL = true) ∧
(∃ (ini : Nat) (w : Word) (c : Instr) (s : State), (c = Instr.pmcRun ini w ∨ c = Instr.pmcZero ini w ∧ fieldOf F.PMC_CTRL_zero w = 1) ∧ s.reaches ini
      Reg.PMC_CTRL = true) :=
  ⟨⟨((cr 0 ([2, 0, 0, 0, 0, 0, 0, 0, 0, 0x30]) (clearBlk 15 0 1 ++ Crypto.hmac tkey (clearBlk 15 0 1))).setFld F.REC_CFG_clear_slot 5), (tkb 0x58 ((cr 0
      ([2, 0, 0, 0, 0, 0, 0, 0, 0, 0x30]) (clearBlk 15 0 1 ++ Crypto.hmac tkey (clearBlk 15 0 1))).setFld F.REC_CFG_clear_slot 5)), 0, 15, [2, 0, 0,
      0, 0, 0, 0, 0, 0, 0x30] ++ zeros 22, (clearBlk 15 0 1 ++ Crypto.hmac tkey (clearBlk 15 0 1)), tkey, ((tkb 0x58 ((cr 0 ([2, 0, 0, 0, 0, 0, 0, 0,
      0, 0x30]) (clearBlk 15 0 1 ++ Crypto.hmac tkey (clearBlk 15 0 1))).setFld F.REC_CFG_clear_slot 5)).keyRequest 5 5 [4] [13, 18]).2, by
      decide +kernel⟩,
    ⟨noAudit (cr 0 [2] []), by decide +kernel⟩,
    ⟨State.reset, by decide +kernel⟩,
    ⟨lit, by decide +kernel⟩,
    ⟨1, by decide +kernel⟩,
    ⟨4, 1, .pmcRun 4 1, lit, by decide +kernel⟩,
    ⟨4, 3, .pmcZero 4 3, lit, by decide +kernel⟩⟩

end Sys2Proof.Tests
end

section
/-! Proofs of the statements on accesses to the setup window (R7, R8, R11, R13, R14). First what one access does (`windowAccess`), then what
lies at an offset without a register, where the counters lie and what their reads hold, and at last how a write of RTC_INT_STAT
touches the discipline. -/

namespace Sys2Proof.Machine

section
variable {s : State} {ini a : Nat}

/-! ## Accesses to the setup window -/

theorem exec_registerWrite {w : Word} {meet : Nat} :
    exec (.registerWrite ini a w meet) s = .next (s.windowAccess ini a true fun s => s.registerWrite ini a w meet) := rfl

theorem exec_liveValueRead :
    exec (.liveValueRead ini a) s = .next (s.windowAccess ini a false fun s => s.registerRead ini a) := rfl

theorem exec_unalignedAccess_bad {size : Nat} {write : Bool} (hm : s.mayUseSetup ini = true) (ha : a < 0x1000000)
    (h : ¬ (size = 4 ∧ a % 4 = 0)) : exec (.unalignedAccess ini a size write) s = .next (s.answerWith .busError) := by
  change execUnalignedAccess ini a size write s = _
  simp [execUnalignedAccess, h, hm, ha, done]

theorem windowAccess_unaligned {write : Bool} {k : State → State} (hm : s.mayUseSetup ini = true) (ha : a < 0x1000000)
    (h : a % 4 ≠ 0) : s.windowAccess ini a write k = s.answerWith .busError := by
  simp [State.windowAccess, Nat.not_le.2 ha, hm, h]

theorem mayUseSetup_of_reaches (h : s.reaches ini a = true) : s.mayUseSetup ini = true := by
  simp only [State.reaches, Bool.and_eq_true] at h
  exact h.1.1

theorem windowAccess_reaches {write : Bool} {k : State → State} (h : s.reaches ini a = true) (ha : a < 0x1000000)
    (h4 : a % 4 = 0) : s.windowAccess ini a write k = k (s.answerWith .ok) := by
  simp [State.windowAccess, Nat.not_le.2 ha, mayUseSetup_of_reaches h, h4, setupAccess_reaches h]

/-! ## Offsets with no register (R8) -/

theorem unassigned_iff : unassigned a = true ↔ Reg.find a = none ∧ Reg.isSdc a = false ∧ wideAt a = none ∧
    ¬ (0x480000 ≤ a ∧ a ≤ 0x480010) ∧ ¬ (0xB04000 ≤ a ∧ a < 0xB06000 ∧ a % 0x80 / 4 < 20) := by
  simp only [unassigned, ← Bool.decide_and, Bool.and_eq_true, Bool.not_eq_true', decide_eq_false_iff_not,
    Option.isNone_iff_eq_none, and_assoc]

/-- The offsets of HRT whose read has an operation of its own (R307, R312) are rows of its table. -/
theorem find_hrtReads : (∀ c < 5, (Reg.find (0x100 + 16 * c)).isSome) ∧
    ∀ q < 16, (Reg.find (0x6010 + 0x40 * q)).isSome ∧ (Reg.find (0x6014 + 0x40 * q)).isSome := by
  decide

/-- Each read with an operation of its own is a row of a table, a word of the RTC's count, or a word of a message object. -/
theorem specialRead_noRow (hf : Reg.find a = none) (hr : ¬ (0x480000 ≤ a ∧ a ≤ 0x480010))
    (hc : ¬ (0xB04000 ≤ a ∧ a < 0xB06000 ∧ a % 0x80 / 4 < 20)) : s.specialRead ini a = none := by
  have noRow : ∀ b, (Reg.find b).isSome → a ≠ b := by
    rintro b hb rfl
    simp [hf] at hb
  have claim : ¬ (0x100 ≤ a ∧ a < 0x150 ∧ a % 16 = 0) := fun h =>
    noRow _ (find_hrtReads.1 ((a - 0x100) / 16) (by omega)) (by omega)
  have low : ¬ (0x6000 ≤ a ∧ a < 0x6400 ∧ a % 0x40 = 0x10) := fun h =>
    noRow _ (find_hrtReads.2 ((a - 0x6000) / 0x40) (by omega)).1 (by omega)
  have high : ¬ (0x6000 ≤ a ∧ a < 0x6400 ∧ a % 0x40 = 0x14) := fun h =>
    noRow _ (find_hrtReads.2 ((a - 0x6000) / 0x40) (by omega)).2 (by omega)
  have lat : a ≠ Reg.MEM_DISP_LAT_MAX := noRow _ (by decide)
  unfold State.specialRead
  rw [if_neg claim, if_neg low, if_neg high, if_neg lat, if_neg (by omega), if_neg (by omega)]
  split
  · rw [if_neg (by omega), if_neg (by omega)]
  · rfl

theorem registerRead_unassigned (h : unassigned a = true) : s.registerRead ini a = s.answerWith (.word 0) := by
  obtain ⟨hf, hs, hw, hr, hc⟩ := unassigned_iff.1 h
  simp [State.registerRead, specialRead_noRow hf hr hc, hw, State.plainRead, hf, hs]

theorem registerWrite_noRow {w : Word} {meet : Nat} (h : Reg.find a = none) : s.registerWrite ini a w meet = s := by
  simp [State.registerWrite, h]

/-! ## Counters, read in two words (R13, R14) -/

theorem isCounter_iff : isCounter a = true ↔
    ∃ t ∈ counterTables, t.1 ≤ a ∧ (a - t.1) / t.2.2.1 < t.2.2.2 ∧ (a - t.1) % t.2.2.1 / 8 < t.2.1 := by
  simp [isCounter, and_assoc]

/-- The tables of counters are aligned to 8 bytes and lie between the offsets whose reads have an operation of their own. -/
theorem counterTables_place : ∀ t ∈ counterTables, 0 < t.2.2.1 ∧ 8 ∣ t.1 ∧ 8 ∣ t.2.2.1 ∧
    (0x6400 ≤ t.1 ∧ t.1 + t.2.2.2 * t.2.2.1 ≤ 0x100000 ∨ 0x101000 ≤ t.1 ∧ t.1 + t.2.2.2 * t.2.2.1 ≤ 0x480000 ∨
      0x500000 ≤ t.1 ∧ t.1 + t.2.2.2 * t.2.2.1 ≤ 0xB04000 ∨ 0xB06000 ≤ t.1 ∧ t.1 + t.2.2.2 * t.2.2.1 ≤ 0x1000000) := by
  decide

theorem counter_place (h : isCounter a = true) : 0x6400 ≤ a ∧ a < 0x100000 ∨ 0x101000 ≤ a ∧ a < 0x480000 ∨
    0x500000 ≤ a ∧ a < 0xB04000 ∨ 0xB06000 ≤ a ∧ a < 0x1000000 := by
  obtain ⟨t, ht, lo, hn, -⟩ := isCounter_iff.1 h
  obtain ⟨pos, -, -, place⟩ := counterTables_place t ht
  have hi : a - t.1 < t.2.2.2 * t.2.2.1 := (Nat.div_lt_iff_lt_mul pos).1 hn
  omega

theorem specialRead_counter (h : isCounter a = true) : s.specialRead ini a = none := by
  have place := counter_place h
  have lat : a ≠ Reg.MEM_DISP_LAT_MAX := by unfold Reg.MEM_DISP_LAT_MAX; omega
  unfold State.specialRead
  rw [if_neg (by omega), if_neg (by omega), if_neg (by omega), if_neg lat, if_neg (by omega), if_neg (by omega),
    if_neg (by omega)]

/-- The two words of a counter lie at the same place of the same instance of its table, whose stride is a multiple of 8. -/
theorem isCounter_highWord (h : isCounter a = true) (h8 : a % 8 = 0) : isCounter (a + 4) = true := by
  obtain ⟨t, ht, lo, hn, hi⟩ := isCounter_iff.1 h
  obtain ⟨-, ⟨b, hb⟩, ⟨m, hm⟩, -⟩ := counterTables_place t ht
  obtain ⟨x, hx⟩ : ∃ x, a - t.1 = 8 * x := ⟨(a - t.1) / 8, by omega⟩
  have hx' : a + 4 - t.1 = 8 * x + 4 := by omega
  have sameUnit : (8 * x + 4) / 8 = 8 * x / 8 := by omega
  refine isCounter_iff.2 ⟨t, ht, by omega, ?_, ?_⟩
  · rwa [hx', hm, ← Nat.div_div_eq_div_mul, sameUnit, Nat.div_div_eq_div_mul, ← hm, ← hx]
  · rwa [hx', hm, Nat.mod_mul_right_div_self, sameUnit, ← Nat.mod_mul_right_div_self, ← hm, ← hx]

theorem wideAt_counter (h : isCounter a = true) : wideAt a = some (a / 8 * 8, 2) := by simp [wideAt, h]

theorem registerRead_lowWord (h : isCounter a = true) (h8 : a % 8 = 0) :
    s.registerRead ini a = s.snapshot ini a (s.count a) 2 := by
  have e : a / 8 * 8 = a := by omega
  simp [State.registerRead, specialRead_counter h, wideAt_counter h, e, State.wideValue, h]

theorem registerRead_highWord (h : isCounter a = true) (h8 : a % 8 = 0) :
    s.registerRead ini (a + 4) = s.answerWith (.word (s.heldWord ini (a + 4) 1)) := by
  have h' := isCounter_highWord h h8
  have e : (a + 4) / 8 * 8 = a := by omega
  simp [State.registerRead, specialRead_counter h', wideAt_counter h', e]

/-! ## The two words of a value are reached alike, and share their holder -/

theorem blockDomains_highWord (h8 : a % 8 = 0) : blockDomains (a + 4) = blockDomains a := by
  have e : (a + 4) / 0x100000 = a / 0x100000 := by omega
  have mbx : (0x6000 ≤ a + 4 ∧ a + 4 < 0x6400) = (0x6000 ≤ a ∧ a < 0x6400) := by apply propext; omega
  have rtc : (a + 4 < 0x480000) = (a < 0x480000) := by apply propext; omega
  have bat : (0x900800 ≤ a + 4 ∧ a + 4 < 0x901000) = (0x900800 ≤ a ∧ a < 0x901000) := by apply propext; omega
  simp only [blockDomains, e, mbx, rtc, bat]

theorem reaches_highWord (h8 : a % 8 = 0) : s.reaches ini (a + 4) = s.reaches ini a := by
  simp only [State.reaches, State.blockOn, blockDomains_highWord h8]

theorem heldWord_highWord {i : Nat} (h8 : a % 8 = 0) : s.heldWord ini (a + 4) i = s.heldWord ini a i := by
  have e : (a + 4) / 0x100000 = a / 0x100000 := by omega
  have e' : (a + 4) / 0x80000 = a / 0x80000 := by omega
  simp only [State.heldWord, blockOf, e, e']

/-! ## Snapshot holders -/

@[simp] theorem holder_setHolder_same {b : Nat} {ws : List Word} : (s.setHolder ini b ws).holder ini b = ws := by
  simp [State.holder, State.setHolder]

theorem holder_setHolder_other {b j b' : Nat} {ws : List Word} (h : (j, b') ≠ (ini, b)) :
    (s.setHolder ini b ws).holder j b' = s.holder j b' := by
  have others : ∀ x : Snap, (x.ini == j && x.block == b') = true → (!(x.ini == ini && x.block == b)) = true := by
    intro x hx
    simp only [Bool.and_eq_true, beq_iff_eq] at hx
    obtain ⟨rfl, rfl⟩ := hx
    simpa [imp_iff_not_or] using h
  have new : (ini == j && b == b') = false := by
    rw [Bool.eq_false_iff]
    intro e
    simpa using others ⟨ini, b, ws⟩ e
  have find : ∀ l : List Snap, (l.filter fun x => !(x.ini == ini && x.block == b)).find? (fun x => x.ini == j && x.block == b') =
      l.find? (fun x => x.ini == j && x.block == b') := by
    intro l
    rw [List.find?_filter]
    congr 1
    funext x
    cases hx : (x.ini == j && x.block == b') with
    | false => simp
    | true => simp [others x hx]
  simp only [State.holder, State.setHolder, List.find?_cons, new, find]

theorem heldWord_snapshot {v : Nat} : (s.snapshot ini a v 2).heldWord ini a 1 = BitVec.ofNat 32 (v / 2 ^ 32) := by
  change nth ((s.setHolder ini (blockOf a) _).holder ini (blockOf a)) 0 0 = _
  rw [holder_setHolder_same]
  simp [nth, Nat.shiftRight_eq_div_pow]

/-! ## A write of RTC_INT_STAT, and the discipline of the RTC (R423) -/

/-- In an unlocked interface the access codes apply, and then comes the look at the discipline that a write of an RTC register ends with. -/
theorem registerWrite_rtcIntStat {meet : Nat} {w : Word} {d : RegDesc} (hd : Reg.find Reg.RTC_INT_STAT = some d)
    (hl : s.flag F.RTC_STATUS_locked = false) : s.registerWrite ini Reg.RTC_INT_STAT w meet =
      (s.plainWrite d Reg.RTC_INT_STAT w.toNat meet).judgeDisc := by
  have noRing : reportRingAt Reg.RTC_INT_STAT = none := by decide
  have good : s.writeBad Reg.RTC_INT_STAT w = false := by
    simp only [State.writeBad, noRing]
    rfl
  simp only [State.registerWrite, hd, good, Bool.and_false, Bool.false_eq_true, if_false]
  change s.rtcRegWrite d Reg.RTC_INT_STAT w meet = _
  simp only [State.rtcRegWrite, State.rtcWrite, hl]
  rfl

theorem plainWrite_unmet {d : RegDesc} {w meet : Nat} (h : meet &&& w &&& d.wc = 0) :
    s.plainWrite d a w meet = s.setReg a (BitVec.ofNat 32 (accessWord d (s.regN a) w)) := by
  simp [State.plainWrite, h]

theorem discActive_of_servo_free (h : s.fld F.TMK_STATUS_servo_state = 0) : s.discActive = false := by
  simp [State.discActive, State.timeValid, h]

theorem discWas_judgeDisc (h : s.discActive = false) : s.judgeDisc.rtc.discWas = false := by
  simp [State.judgeDisc, h]

end

/-- The RTC, which PD00 holds, was under discipline at the last second, and the Timekeeper's domain is off since: PD26 takes the servo's
state with it, but not the RTC's memory of the discipline. -/
def disciplineCut : State := State.reset.modRtc fun r => { r with discWas := true }

/-! ## The statements -/

/-- Settles O10: an access that is not aligned, or not of 4 bytes, ends before it reaches a register. -/
theorem misalignedAccessHasNoEffect : Obligations.MisalignedAccessHasNoEffect := by
  intro ini a s hm ha
  refine ⟨fun size write h => exec_unalignedAccess_bad hm ha h, fun h => ⟨fun w meet => ?_, ?_⟩⟩
  · rw [exec_registerWrite, windowAccess_unaligned hm ha h]
  · rw [exec_liveValueRead, windowAccess_unaligned hm ha h]

/-- Settles O11: where no row lies a write does nothing, and a read finds neither an operation of its own nor a live value. -/
theorem unassignedOffsetReadsZero : Obligations.UnassignedOffsetReadsZero := by
  intro ini a s hr ha h4 hu
  refine ⟨fun w meet => ?_, ?_⟩
  · rw [exec_registerWrite, windowAccess_reaches hr ha h4, registerWrite_noRow (unassigned_iff.1 hu).1]
  · rw [exec_liveValueRead, windowAccess_reaches hr ha h4, registerRead_unassigned hu]
    rfl

/-- Settles O14: the low word's read is a snapshot, and the high word's read returns what the same block holds for the initiator. -/
theorem liveValueIsReadWhole : Obligations.LiveValueIsReadWhole := by
  intro ini a s hc h8 hr
  have ha : a + 4 < 0x1000000 := by have := counter_place hc; omega
  refine ⟨(s.answerWith .ok).snapshot ini a (s.count a) 2, ?_, rfl, heldWord_snapshot,
    fun j b h => holder_setHolder_other h, rfl, fun v => ?_⟩
  · rw [exec_liveValueRead, windowAccess_reaches hr (by omega) (by omega), registerRead_lowWord hc h8]
    rfl
  · set t := (s.answerWith .ok).snapshot ini a (s.count a) 2 with ht
    have hr' : (t.setCount a v).reaches ini (a + 4) = true := (reaches_highWord h8).trans hr
    refine ⟨((t.setCount a v).answerWith .ok).answerWith (.word (t.heldWord ini a 1)), ?_, ?_, rfl⟩
    · rw [exec_liveValueRead, windowAccess_reaches hr' ha (by omega), registerRead_highWord hc h8, heldWord_highWord h8]
      rfl
    · rw [State.answerWith_answer, ht, heldWord_snapshot]

/-- Refutes O13: its frame fails at RTC_INT_STAT. Every write of an RTC register, even of 0, ends with `judgeDisc`, which forgets a
discipline that is no longer active; so in `disciplineCut` the write changes `rtc.discWas`. -/
theorem not_flagSetWinsOverClear : ¬ Obligations.FlagSetWinsOverClear := by
  intro h
  obtain ⟨d, hd, hc⟩ : ∃ d, Reg.find Reg.RTC_INT_STAT = some d ∧ d.sdc = some 0x48005C := by decide
  obtain ⟨t, ht, -, -, -, -, frame⟩ :=
    h 0 98 Reg.RTC_INT_STAT Reg.RTC_INT_EN 0 0 disciplineCut d _ (by decide) hd hc (by decide) (by decide)
  rw [exec_registerWrite, windowAccess_reaches (by decide) (by decide) (by decide),
    registerWrite_rtcIntStat hd (by decide)] at ht
  injection ht with ht
  have idle : ((disciplineCut.answerWith .ok).plainWrite d Reg.RTC_INT_STAT (0 : Word).toNat 0).discActive = false := by
    rw [plainWrite_unmet (by simp)]
    exact discActive_of_servo_free ((fld_setReg_other (by decide)).trans (by decide))
  have kept : t.rtc.discWas = true := congrArg (·.rtc.discWas) frame
  rw [← ht, discWas_judgeDisc idle] at kept
  contradiction

end Sys2Proof.Machine
end

section
/-! Proof of the statement on PTP messages (R45 to R62, R93). First what is left as it was by an event that is told to others (`Told`),
by what steers the servo (`Steers`), and by the selection (`Selects`). Then what a message does before the Timekeeper uses it, what
an exchange, a judgement of the candidates and an update of the servo do, and at last the commands. -/

namespace Sys2Proof.Machine

/-! ## Counters of the Network and of the performance monitors -/

section
variable {s t u : State} {f g : Field}

theorem count_pmcAdd {i n c : Nat} (hi : i < 64) (h : ¬ (0xE08200 ≤ c ∧ c < 0xE08400)) : (s.pmcAdd i n).count c = s.count c := by
  have hc : (s.setCount (0xE08200 + 8 * i) ((s.count (0xE08200 + 8 * i) + n) % 2 ^ 48)).count c = s.count c :=
    count_setCount_other (by omega)
  unfold State.pmcAdd
  dsimp only
  split <;> exact hc

theorem count_pmc {src ev inst n c : Nat} (h : ¬ (0xE08200 ≤ c ∧ c < 0xE08400)) : (s.pmc src ev inst n).count c = s.count c := by
  unfold State.pmc
  split
  · refine List.foldlRecOn (motive := fun t => t.count c = s.count c) _ _ rfl fun (t : State) ht i hi => ?_
    split
    · exact (count_pmcAdd (List.mem_range.1 hi) h).trans ht
    · exact ht
  · rfl

theorem count_bump_other {src i inst n c : Nat} (hc : c ≠ (counterRow src i inst).addr) (h : ¬ (0xE08200 ≤ c ∧ c < 0xE08400)) :
    (s.bump src i inst n).count c = s.count c := by
  unfold State.bump
  dsimp only
  split
  · rw [count_pmc h]
    split <;> exact count_setCount_other hc
  · exact (count_pmc h).trans (count_setCount_other hc)

/-- A counter of a port wraps (R116). -/
theorem count_bump_port {i p n : Nat} (h : ¬ (0xE08200 ≤ (counterRow 3 i p).addr ∧ (counterRow 3 i p).addr < 0xE08400)) :
    (s.bump 3 i p n).count (counterRow 3 i p).addr =
      (s.count (counterRow 3 i p).addr + n) % 2 ^ (counterRow 3 i p).width := by
  unfold State.bump
  dsimp only
  rw [if_pos (.inl rfl), count_pmc h]
  split <;> exact count_setCount_same

/-! ## What is told of an event -/

/-- What may change as an event is told to the RTC's discipline, to the twin and to the Recorder: registers of TWN, KEY, PMC and REC,
counters that are not the Network's, and the own state of RTC, Recorder and Keystore. -/
structure Told (s t : State) : Prop where
  reg   : ∀ a, a / 0x100000 ∉ [8, 12, 14] → t.reg a = s.reg a
  count : ∀ c, c / 0x100000 = 5 → t.count c = s.count c
  tmk   : t.tmk = s.tmk
  pll   : t.pll = s.pll
  mem   : t.mem = s.mem
  wall  : t.wall = s.wall
  clock : t.clock = s.clock

theorem Told.refl : Told s s := ⟨fun _ _ => rfl, fun _ _ => rfl, rfl, rfl, rfl, rfl, rfl⟩

theorem Told.trans (h : Told s t) (k : Told t u) : Told s u :=
  ⟨fun a ha => (k.reg a ha).trans (h.reg a ha), fun c hc => (k.count c hc).trans (h.count c hc), k.tmk.trans h.tmk,
    k.pll.trans h.pll, k.mem.trans h.mem, k.wall.trans h.wall, k.clock.trans h.clock⟩

theorem Told.when {c : Prop} [Decidable c] (h : Told s t) (k : Told s u) : Told s (if c then t else u) := by
  split <;> assumption

theorem Told.fld (h : Told s t) (hf : f.addr / 0x100000 ∉ [8, 12, 14]) : t.fld f = s.fld f := by
  simp only [State.fld, State.regN, h.reg _ hf]

theorem pll_pmc {src ev inst n : Nat} : (s.pmc src ev inst n).pll = s.pll :=
  (congrArg State.pll (counts_pmc (as := [])).rest :)

theorem pll_bump {src i inst n : Nat} : (s.bump src i inst n).pll = s.pll := (congrArg State.pll rest_bump :)

section
variable (h : Told s t)
include h

theorem Told.setReg {a : Nat} {w : Word} (ha : a / 0x100000 ∈ [8, 12, 14]) : Told s (t.setReg a w) :=
  h.trans ⟨fun _ hb => reg_setReg_other (by rintro rfl; exact hb ha), fun _ _ => rfl, rfl, rfl, rfl, rfl, rfl⟩

theorem Told.setFld {v : Nat} (hf : f.addr / 0x100000 ∈ [8, 12, 14]) : Told s (t.setFld f v) := h.setReg hf
theorem Told.raise (hf : f.addr / 0x100000 ∈ [8, 12, 14]) : Told s (t.raise f) := h.setFld hf
theorem Told.lower (hf : f.addr / 0x100000 ∈ [8, 12, 14]) : Told s (t.lower f) := h.setFld hf

theorem Told.modRec {k : Recorder → Recorder} : Told s (t.modRec k) :=
  h.trans ⟨fun _ _ => rfl, fun _ _ => rfl, rfl, rfl, rfl, rfl, rfl⟩
theorem Told.modKey {k : Keystore → Keystore} : Told s (t.modKey k) :=
  h.trans ⟨fun _ _ => rfl, fun _ _ => rfl, rfl, rfl, rfl, rfl, rfl⟩
theorem Told.modRtc {k : Rtc → Rtc} : Told s (t.modRtc k) :=
  h.trans ⟨fun _ _ => rfl, fun _ _ => rfl, rfl, rfl, rfl, rfl, rfl⟩

theorem Told.life {i n : Nat} : Told s (t.life i n) := h.modRec.when h

theorem Told.extreme {e q : Nat} {v : Int} : Told s (t.extreme e v q) := h.modRec.when h

theorem Told.pmc {src ev inst n : Nat} : Told s (t.pmc src ev inst n) :=
  h.trans ⟨fun a ha => reg_pmc (by rintro rfl; exact ha (by decide)) (by rintro rfl; exact ha (by decide)),
    fun c hc => count_pmc (by omega), by simp, pll_pmc, by simp, by simp, by simp⟩

theorem Told.bump {src i inst n : Nat} (h3 : src ≠ 3) (h4 : src ≠ 4) (hc : (counterRow src i inst).addr / 0x100000 ≠ 5) :
    Told s (t.bump src i inst n) :=
  h.trans ⟨fun a ha => reg_bump h3 h4 (by rintro rfl; exact ha (by decide)) (by rintro rfl; exact ha (by decide)),
    fun c h5 => count_bump_other (by rintro rfl; exact hc h5) (by omega), by simp, pll_bump, by simp, by simp, by simp⟩

/-! ## What the Recorder, the twin and the RTC do with it -/

theorem Told.keyRequest {r slot : Nat} {types needs : List Nat} : Told s (t.keyRequest r slot types needs).2 := by
  unfold State.keyRequest
  dsimp only
  split
  · dsimp only
    exact h.life.modKey
  · split
    · dsimp only
      exact h.bump (by decide) (by decide) (by decide)
    · dsimp only
      exact ((h.life.bump (by decide) (by decide) (by decide)).raise (by decide)).setReg (by decide)

theorem Told.flushBegin {pass : Nat} : Told s (t.flushBegin pass) := by
  unfold State.flushBegin
  dsimp only
  refine (((Told.setFld (Told.setFld (Told.modRec ?_) ?_) ?_).lower ?_).raise ?_) <;> try decide
  have request : Told s (if t.fld F.REC_CFG_seal_slot = 0 then (KeyAnswer.refused, t)
      else t.keyRequest 5 (t.fld F.REC_CFG_seal_slot) [4] [13, 17]).2 := by
    split
    · exact h
    · exact h.keyRequest
  generalize (if t.fld F.REC_CFG_seal_slot = 0 then (KeyAnswer.refused, t)
      else t.keyRequest 5 (t.fld F.REC_CFG_seal_slot) [4] [13, 17]) = answer at request ⊢
  split_ifs
  · exact (request.bump (by decide) (by decide) (by decide)).raise (by decide)
  · exact request

theorem Told.flushTrigger : Told s t.flushTrigger := by
  unfold State.flushTrigger
  split
  · exact h
  · split
    · exact h.modRec
    · exact h.flushBegin

theorem Told.flushSoon : Told s t.flushSoon := by
  unfold State.flushSoon
  split
  · split
    · exact h.modRec
    · exact h.flushTrigger
  · exact h.flushTrigger

theorem Told.faultEntry {type origin : Nat} {content : List Byte} : Told s (t.faultEntry type origin content) := by
  unfold State.faultEntry
  split
  · exact h
  · split
    · exact (h.life.bump (by decide) (by decide) (by decide)).raise (by decide)
    · dsimp only
      split
      · exact ((h.modRec.bump (by decide) (by decide) (by decide)).setFld (by decide)).flushTrigger
      · exact (h.modRec.bump (by decide) (by decide) (by decide)).setFld (by decide)

theorem Told.refEvent {event : Nat} : Told s (t.refEvent event) := h.faultEntry

theorem Told.judgeDisc : Told s t.judgeDisc := by
  unfold State.judgeDisc
  split
  · exact h
  · exact h.modRtc

theorem Told.judgeSync : Told s t.judgeSync := by
  have judged {w : Word} {v : Nat} : Told s ((t.setReg Reg.TWN_SYNC_WHY w).setFld F.TWN_STATUS_synced v) :=
    (h.setReg (by decide)).setFld (by decide)
  unfold State.judgeSync
  dsimp only
  split
  · exact h
  · split
    · exact judged.raise (by decide)
    · split
      · exact judged.raise (by decide)
      · exact judged

end

end

/-! ## Fields that share no bit -/

/-- A write of `g` leaves `f` as it is. -/
abbrev Apart (f g : Field) : Prop := f.addr ≠ g.addr ∨ f.lo + f.width ≤ g.lo ∨ g.lo + g.width ≤ f.lo

/-- Every bit of `f` is one of `g`. -/
abbrev Within (f g : Field) : Prop := f.addr = g.addr ∧ g.lo ≤ f.lo ∧ f.lo + f.width ≤ g.lo + g.width

/-- The whole register at `a` as a field. -/
def word (a : Nat) : Field := ⟨a, 0, 32⟩

theorem Apart.of_within {f g x : Field} (h : Within f g) (k : Apart x g) : Apart x f := by
  obtain ⟨ha, hlo, hhi⟩ := h
  unfold Apart at *
  omega

section
variable {s t u : State} {f : Field} {fs fs' : List Field}

theorem fld_word {a : Nat} : s.fld (word a) = s.regN a := Nat.mod_eq_of_lt regN_lt

theorem reg_of_fld_word {a : Nat} (h : t.fld (word a) = s.fld (word a)) : t.reg a = s.reg a :=
  BitVec.eq_of_toNat_eq (by rwa [fld_word, fld_word] at h)

theorem fld_setReg_apart {a : Nat} {w : Word} (h : Apart f (word a)) : (s.setReg a w).fld f = s.fld f := by
  have whole : setBits (s.regN a) 0 32 w.toNat = w.toNat := by
    have hr : s.regN a < 2 ^ 32 := regN_lt
    have hw := w.isLt
    rw [setBits_parts]
    omega
  have write : s.setReg a w = s.setFld (word a) w.toNat := by simp [State.setFld, word, whole]
  rw [write]
  exact fld_setFld_other (le_refl 32) h

/-! ## What steers the servo -/

/-- What may change as the Timekeeper moves its servo and its selection: the fields `fs`, and what is told to others. -/
structure Steers (s t : State) (fs : List Field) : Prop where
  fld   : ∀ f : Field, f.addr / 0x100000 ∉ [8, 12, 14] → (∀ g ∈ fs, Apart f g) → t.fld f = s.fld f
  count : ∀ c, c / 0x100000 = 5 → t.count c = s.count c
  ports : t.tmk.ports = s.tmk.ports
  mem   : t.mem = s.mem
  wall  : t.wall = s.wall
  clock : t.clock = s.clock

theorem Steers.refl : Steers s s fs := ⟨fun _ _ _ => rfl, fun _ _ => rfl, rfl, rfl, rfl, rfl⟩

theorem Steers.trans (h : Steers s t fs) (k : Steers t u fs) : Steers s u fs :=
  ⟨fun f hf ha => (k.fld f hf ha).trans (h.fld f hf ha), fun c hc => (k.count c hc).trans (h.count c hc),
    k.ports.trans h.ports, k.mem.trans h.mem, k.wall.trans h.wall, k.clock.trans h.clock⟩

theorem Steers.mono (h : Steers s t fs) (k : ∀ f ∈ fs, ∃ g ∈ fs', Within f g) : Steers s t fs' :=
  { h with
    fld := fun f hf ha => h.fld f hf fun x hx => by
      obtain ⟨g, hg, hw⟩ := k x hx
      exact Apart.of_within hw (ha g hg) }

theorem Steers.when {c : Prop} [Decidable c] (h : Steers s t fs) (k : Steers s u fs) : Steers s (if c then t else u) fs := by
  split <;> assumption

theorem Told.steers (h : Told s t) : Steers s t fs :=
  ⟨fun _ hf _ => h.fld hf, h.count, by rw [h.tmk], h.mem, h.wall, h.clock⟩

theorem Steers.reg (h : Steers s t fs) {a : Nat} (ha : a / 0x100000 ∉ [8, 12, 14]) (hf : ∀ f ∈ fs, f.addr ≠ a) :
    t.reg a = s.reg a :=
  reg_of_fld_word (h.fld (word a) ha fun g hg => .inl (hf g hg).symm)

theorem Steers.tport (h : Steers s t fs) (p : Nat) : t.tport p = s.tport p := by simp only [State.tport, h.ports]

theorem Steers.blocksBut (h : Steers s t fs) (hf : ∀ f ∈ fs, f.addr / 0x100000 = 4) : t.blocksBut s [4, 8, 12, 14] :=
  fun a ha => h.reg (fun k => ha (List.mem_cons_of_mem _ k)) fun f hm e => ha (by simp [← e, hf f hm])

section
variable (h : Steers s t fs)
include h

theorem Steers.setFld {v : Nat} (hw : f.lo + f.width ≤ 32) (hf : ∃ g ∈ fs, Within f g) : Steers s (t.setFld f v) fs := by
  obtain ⟨g, hg, hfg⟩ := hf
  exact h.trans ⟨fun x _ hx => fld_setFld_other hw (Apart.of_within hfg (hx g hg)), fun _ _ => rfl, rfl, rfl, rfl, rfl⟩

theorem Steers.raise (hw : f.lo + f.width ≤ 32) (hf : ∃ g ∈ fs, Within f g) : Steers s (t.raise f) fs := h.setFld hw hf

theorem Steers.setReg {a : Nat} {w : Word} (ha : word a ∈ fs) : Steers s (t.setReg a w) fs := by
  refine h.trans ⟨fun x _ hx => fld_setReg_apart (hx _ ha), fun _ _ => rfl, rfl, rfl, rfl, rfl⟩

theorem Steers.modTmk {k : Tmk → Tmk} (hk : (k t.tmk).ports = t.tmk.ports) : Steers s (t.modTmk k) fs :=
  h.trans ⟨fun _ _ _ => rfl, fun _ _ => rfl, hk, rfl, rfl, rfl⟩

theorem Steers.modPll {k : TimePll → TimePll} : Steers s (t.modPll k) fs :=
  h.trans ⟨fun _ _ _ => rfl, fun _ _ => rfl, rfl, rfl, rfl, rfl⟩

theorem Steers.told (k : Told t u) : Steers s u fs := h.trans k.steers

end

/-! ## The servo's state -/

/-- What a change of the servo's state writes. -/
def servoFields : List Field :=
  [F.TMK_STATUS_servo_state, word Reg.TMK_HOLD_TIME, F.TMK_INT_STAT_lock_gained, F.TMK_INT_STAT_lock_lost]

/-- HOLDOVER is left: its length stays in TMK_HOLD_TIME (R70). -/
def State.holdLeft (s : State) : State :=
  if s.servo = 4 then (s.setReg Reg.TMK_HOLD_TIME (BitVec.ofNat 32 s.holdSeconds)).extreme 9 s.holdSeconds 0 else s

/-- What follows as TMK_STATUS shows that the servo has gone from state `was` to `v`. -/
def State.servoEntered (s : State) (was v : Nat) : State :=
  let s := s.pllEnter v
  let s := s.modTmk fun t => { t with
    updates := 0, exceeds := 0, pullSince := none, holdAt := if v = 4 then some s.clock else t.holdAt }
  let s := if v = 3 then s.raise F.TMK_INT_STAT_lock_gained else s
  (if was = 3 then ((s.raise F.TMK_INT_STAT_lock_lost).life 40).refEvent 2 else s).judgeDisc.judgeSync

theorem setServo_eq {v : Nat} : s.setServo v =
    if s.servo = v then s else (s.holdLeft.setFld F.TMK_STATUS_servo_state v).servoEntered s.servo v := rfl

theorem steers_pllEnter {v : Nat} : Steers s (s.pllEnter v) fs := by
  unfold State.pllEnter
  split
  · exact Steers.refl.modPll
  · exact Steers.refl.modPll
  · exact Steers.refl.modPll
  · exact Steers.refl

theorem steers_holdLeft : Steers s s.holdLeft servoFields := by
  unfold State.holdLeft
  split
  · exact (Steers.refl.setReg (by decide)).told Told.refl.extreme
  · exact Steers.refl

theorem steers_servoEntered {was v : Nat} :
    Steers s (s.servoEntered was v) [F.TMK_INT_STAT_lock_gained, F.TMK_INT_STAT_lock_lost] := by
  unfold State.servoEntered
  dsimp only
  have entered : Steers s ((s.pllEnter v).modTmk fun t => { t with
      updates := 0, exceeds := 0, pullSince := none, holdAt := if v = 4 then some (s.pllEnter v).clock else t.holdAt })
      [F.TMK_INT_STAT_lock_gained, F.TMK_INT_STAT_lock_lost] := steers_pllEnter.modTmk rfl
  have gained := (entered.raise (f := F.TMK_INT_STAT_lock_gained) (by decide) (by decide)).when (c := v = 3) entered
  exact (((gained.raise (by decide) (by decide)).told Told.refl.life.refEvent).when gained).told Told.refl.judgeDisc.judgeSync

theorem steers_setServo {v : Nat} : Steers s (s.setServo v) servoFields := by
  rw [setServo_eq]
  split
  · exact Steers.refl
  · exact (steers_holdLeft.setFld (by decide) (by decide)).trans (steers_servoEntered.mono (by decide))

theorem servo_setServo {v : Nat} (hv : v < 8) : (s.setServo v).servo = v := by
  rw [setServo_eq]
  split
  · assumption
  · exact (steers_servoEntered.fld F.TMK_STATUS_servo_state (by decide) (by decide)).trans
      ((fld_setFld_same (by decide)).trans (Nat.mod_eq_of_lt hv))

theorem pll_servoEntered {was v : Nat} : (s.servoEntered was v).pll = (s.pllEnter v).pll := by
  unfold State.servoEntered
  dsimp only
  rw [Told.refl.judgeDisc.judgeSync.pll]
  split
  · rw [Told.refl.life.refEvent.pll]
    split <;> rfl
  · split <;> rfl

theorem pll_holdLeft : s.holdLeft.pll = s.pll := by
  unfold State.holdLeft
  split
  · exact Told.refl.extreme.pll
  · rfl

/-- Only FREE and HOLDOVER take the slew away (R58, R70). -/
theorem slew_setServo {v : Nat} (h0 : v ≠ 0) (h4 : v ≠ 4) : (s.setServo v).pll.slew = s.pll.slew := by
  have enters (u : State) : (u.pllEnter v).pll.slew = u.pll.slew := by
    unfold State.pllEnter
    split
    · exact absurd rfl h0
    · rfl
    · exact absurd rfl h4
    · rfl
  rw [setServo_eq]
  split
  · rfl
  · rw [pll_servoEntered, enters]
    exact congrArg TimePll.slew pll_holdLeft

/-! ## What TMK_STATUS shows -/

/-- The fields that follow the selection, the servo and the clocks. -/
def statusFields : List Field :=
  [F.TMK_INT_STAT_beyond_hops, F.TMK_STATUS_hops, F.TMK_STATUS_beyond_hops, F.TMK_STATUS_sel_ref, F.TMK_STATUS_freq_src,
   F.TMK_STATUS_window_ok]

theorem steers_showHops : Steers s s.showHops statusFields := by
  unfold State.showHops
  dsimp only
  exact (((Steers.refl.raise (by decide) (by decide)).when Steers.refl).setFld (by decide) (by decide)).setFld (by decide) (by decide)

theorem steers_showStatus : Steers s s.showStatus statusFields :=
  ((steers_showHops.setFld (by decide) (by decide)).setFld (by decide) (by decide)).setFld (by decide) (by decide)

theorem pll_showStatus : s.showStatus.pll = s.pll := by
  have flagged (c : Prop) [Decidable c] : (if c then s.raise F.TMK_INT_STAT_beyond_hops else s).pll = s.pll := by
    split <;> rfl
  exact flagged _

theorem servo_showStatus : s.showStatus.servo = s.servo :=
  steers_showStatus.fld F.TMK_STATUS_servo_state (by decide) (by decide)

/-! ## The selection and the candidates -/

/-- What the selection writes. -/
def selectionFields : List Field :=
  F.TMK_INT_STAT_holdover :: word Reg.TMK_REFSEL_STATUS :: (servoFields ++ statusFields)

/-- What the selection does to no candidate that is not QUALIFIED: its state stays (R67). -/
structure Selects (s t : State) : Prop where
  steers : Steers s t selectionFields
  cand   : ∀ p, s.candState p < 2 → t.candState p = s.candState p

theorem Selects.refl : Selects s s := ⟨Steers.refl, fun _ _ => rfl⟩

theorem Selects.trans (h : Selects s t) (k : Selects t u) : Selects s u :=
  ⟨h.steers.trans k.steers, fun p hp => (k.cand p (by rwa [h.cand p hp])).trans (h.cand p hp)⟩

/-- What steers the servo and shows the selection's state leaves the candidates as they are. -/
theorem Steers.selects
    (h : Steers s t (F.TMK_INT_STAT_holdover :: F.TMK_REFSEL_STATUS_sel_state :: (servoFields ++ statusFields))) : Selects s t := by
  refine ⟨h.mono (by decide), fun p _ => h.fld (candField p) (show Reg.TMK_REFSEL_STATUS / 0x100000 ∉ _ by decide) fun g hg => ?_⟩
  rcases List.mem_cons.1 hg with rfl | hg
  · exact .inl (show Reg.TMK_REFSEL_STATUS ≠ Reg.TMK_INT_STAT by decide)
  rcases List.mem_cons.1 hg with rfl | hg
  · exact .inr (.inr (Nat.le_add_right 2 (2 * p)))
  · have other : ∀ x ∈ servoFields ++ statusFields, Reg.TMK_REFSEL_STATUS ≠ x.addr := by decide
    exact .inl (other g hg)

theorem Told.selects (h : Told s t) : Selects s t := h.steers.selects

theorem selects_setServo {v : Nat} : Selects s (s.setServo v) := (steers_setServo.mono (by decide)).selects
theorem selects_showStatus : Selects s s.showStatus := (steers_showStatus.mono (by decide)).selects
theorem selects_setSel {v : Nat} : Selects s (s.setSel v) := (Steers.refl.setFld (by decide) (by decide)).selects
theorem selects_modTmk {k : Tmk → Tmk} (hk : (k s.tmk).ports = s.tmk.ports) : Selects s (s.modTmk k) :=
  (Steers.refl.modTmk hk).selects

/-- A port whose candidate state is shown has its field inside the register. -/
theorem candField_fits {p : Nat} (h : s.candState p ≠ 0) : 2 + 2 * p + 2 ≤ 32 := by
  by_contra hp
  refine h ?_
  have above : s.regN Reg.TMK_REFSEL_STATUS < 2 ^ (2 + 2 * p) :=
    lt_of_lt_of_le regN_lt (Nat.pow_le_pow_right (by decide) (by omega))
  change (s.regN Reg.TMK_REFSEL_STATUS >>> (2 + 2 * p)) % 2 ^ 2 = 0
  rw [Nat.shiftRight_eq_div_pow, Nat.div_eq_of_lt above, Nat.zero_mod]

theorem candState_setCand_same {p v : Nat} (hp : 2 + 2 * p + 2 ≤ 32) (hv : v < 4) : (s.setCand p v).candState p = v :=
  (fld_setFld_same hp).trans (Nat.mod_eq_of_lt hv)

theorem candState_setCand_other {p q v : Nat} (hq : 2 + 2 * q + 2 ≤ 32) (h : p ≠ q) :
    (s.setCand q v).candState p = s.candState p :=
  fld_setFld_other hq (.inr (show 2 + 2 * p + 2 ≤ 2 + 2 * q ∨ 2 + 2 * q + 2 ≤ 2 + 2 * p by omega))

theorem steers_setCand {p v : Nat} (hp : 2 + 2 * p + 2 ≤ 32) : Steers s (s.setCand p v) [word Reg.TMK_REFSEL_STATUS] :=
  Steers.refl.setFld hp ⟨_, List.mem_singleton_self _, rfl, Nat.zero_le _, by simpa [candField, word] using hp⟩

/-- The state of a candidate that is at least QUALIFIED may be written. -/
theorem selects_setCand {q v : Nat} (h : 2 ≤ s.candState q) : Selects s (s.setCand q v) := by
  have hq : 2 + 2 * q + 2 ≤ 32 := candField_fits (s := s) (by omega)
  refine ⟨(steers_setCand hq).mono (by decide), fun p hp => candState_setCand_other hq ?_⟩
  rintro rfl
  omega

theorem selects_unselect : Selects s s.unselect := by
  unfold State.unselect
  split
  · split
    · rename_i h3
      exact selects_setCand (by omega)
    · exact Selects.refl
  · exact Selects.refl

theorem qualified_unselect {q : Nat} (h : 2 ≤ s.candState q) : 2 ≤ s.unselect.candState q := by
  unfold State.unselect
  split
  · next p _ =>
    split
    · by_cases hq : q = p
      · subst hq
        rw [candState_setCand_same (candField_fits (s := s) (by omega)) (by decide)]
      · rwa [candState_setCand_other (candField_fits (s := s) (by omega)) hq]
    · exact h
  · exact h

theorem selects_servoFollow : Selects s s.servoFollow := selects_setServo.trans (selects_modTmk rfl)

theorem candState_modTmk {k : Tmk → Tmk} {p : Nat} : (s.modTmk k).candState p = s.candState p := rfl

theorem selects_track {q : Nat} (h : 2 ≤ s.candState q) : Selects s (s.track q) := by
  have chosen : Selects s (s.unselect.modTmk fun t =>
      { t with sel := some q, target := none, lost := none, lostGood := 0, synceLost := false }) :=
    selects_unselect.trans (selects_modTmk rfl)
  unfold State.track
  dsimp only
  refine ((chosen.trans (selects_setCand ?_)).trans selects_setSel).trans selects_servoFollow
  rw [candState_modTmk]
  exact qualified_unselect h

theorem selects_enterHoldover : Selects s s.enterHoldover := by
  have ended : Selects s ((s.unselect.modTmk fun t => { t with sel := none, target := none, lost := none, lostGood := 0 }).setSel 3) :=
    selects_unselect.trans ((selects_modTmk rfl).trans selects_setSel)
  have flagged : Selects s ((((s.unselect.modTmk fun t => { t with sel := none, target := none, lost := none, lostGood := 0 }).setSel 3).raise
      F.TMK_INT_STAT_holdover).life 39) :=
    ended.trans ((Steers.refl.raise (by decide) (by decide)).told Told.refl.life).selects
  unfold State.enterHoldover
  dsimp only
  refine Selects.trans ?_ (selects_showStatus.trans Told.refl.refEvent.flushSoon.selects)
  split
  · exact flagged.trans selects_setServo
  · exact flagged

theorem selects_bridge {q : Nat} {lost : Option Nat} : Selects s (s.bridge q lost) :=
  (Steers.refl.modPll.modTmk rfl).selects.trans selects_setSel

/-! ### The selection looks again -/

/-- A fold that keeps what it has or takes the element at hand ends with an element of the list. -/
theorem foldl_choice_mem {α : Type} {k : Option α → α → Option α} (hk : ∀ b x y, k b x = some y → y = x ∨ b = some y)
    {l : List α} {y : α} {b : Option α} (h : l.foldl k b = some y) : y ∈ l ∨ b = some y := by
  induction l generalizing b with
  | nil => exact .inr h
  | cons x l ih =>
    rcases ih h with hl | hx
    · exact .inl (List.mem_cons_of_mem _ hl)
    · rcases hk b x y hx with rfl | hb
      · exact .inl List.mem_cons_self
      · exact .inr hb

theorem candState_bestCandidate {q : Nat} (h : s.bestCandidate = some q) : 2 ≤ s.candState q := by
  have found : q ∈ (List.range 3).filter fun p => 2 ≤ s.candState p && s.forceAllows p && !s.ownBetter p := by
    refine (foldl_choice_mem (fun b x y hk => ?_) h).resolve_right (by simp)
    cases b with
    | none => exact .inl (by simpa using hk.symm)
    | some z =>
      dsimp only at hk
      split at hk
      · exact .inl (by simpa using hk.symm)
      · exact .inr hk
  have able := (List.mem_filter.1 found).2
  simp only [Bool.and_eq_true, decide_eq_true_eq] at able
  exact able.1.1

theorem selects_selectTrack {p : Nat} : Selects s (s.selectTrack p) := by
  unfold State.selectTrack
  split
  · exact selects_enterHoldover
  split
  · split
    · exact selects_bridge
    · exact selects_enterHoldover
  split
  · split
    · exact selects_bridge
    · exact selects_enterHoldover
  · split
    · split
      · exact selects_bridge
      · exact Selects.refl
    · exact Selects.refl

theorem selects_selectBridge {q : Nat} : Selects s (s.selectBridge q) := by
  unfold State.selectBridge
  split
  · exact selects_enterHoldover
  split
  · exact Selects.refl
  split
  · exact selects_modTmk rfl
  · exact selects_enterHoldover

/-- Out of holdover or with no reference yet, the best candidate is followed. -/
theorem selects_best : Selects s (match s.bestCandidate with | some q => s.track q | none => s) := by
  split
  · next q hq => exact selects_track (candState_bestCandidate hq)
  · exact Selects.refl

theorem selects_select : Selects s s.select := by
  unfold State.select
  dsimp only
  refine Selects.trans ?_ selects_showStatus
  split
  · exact Selects.refl
  split
  · exact selects_selectTrack
  · exact selects_selectBridge
  · split
    · exact selects_enterHoldover
    · exact selects_best
  · split
    · exact Selects.refl
    · exact selects_best
  · exact Selects.refl

/-! ### The candidates are judged -/

theorem candState_judgeCand_same {p : Nat} (hp : p < 3) : (s.judgeCand p).candState p =
    if s.candOk p then (if s.candState p = 0 then 1 else s.candState p) else 0 := by
  unfold State.judgeCand
  split
  · split
    · exact candState_setCand_same (by omega) (by decide)
    · rfl
  · exact candState_setCand_same (by omega) (by decide)

theorem steers_judgeCand {p : Nat} (hp : p < 3) : Steers s (s.judgeCand p) [word Reg.TMK_REFSEL_STATUS] := by
  unfold State.judgeCand
  exact ((steers_setCand (by omega)).when Steers.refl).when (steers_setCand (by omega))

theorem candState_judgeCand_other {p q : Nat} (hq : q < 3) (h : p ≠ q) : (s.judgeCand q).candState p = s.candState p := by
  unfold State.judgeCand
  split
  · split
    · exact candState_setCand_other (by omega) h
    · rfl
  · exact candState_setCand_other (by omega) h

theorem stamping_judgeCand {p q : Nat} (hq : q < 3) : (s.judgeCand q).stamping p = s.stamping p := by
  have status (lo width : Nat) : (s.judgeCand q).fld ⟨Reg.NET_PORT_STATUS, lo, width⟩ = s.fld ⟨Reg.NET_PORT_STATUS, lo, width⟩ :=
    (steers_judgeCand hq).fld _ (show Reg.NET_PORT_STATUS / 0x100000 ∉ _ by decide)
      (List.forall_mem_singleton.2 (.inl (show Reg.NET_PORT_STATUS ≠ Reg.TMK_REFSEL_STATUS by decide)))
  simp only [State.stamping, State.netLink, State.flag, status]

/-- No condition of R64 is the state of a candidate. -/
theorem candOk_judgeCand {p q : Nat} (hp : p < 3) (hq : q < 3) : (s.judgeCand q).candOk p = s.candOk p := by
  have enabled : (s.judgeCand q).fld F.TMK_CFG_enable = s.fld F.TMK_CFG_enable :=
    (steers_judgeCand hq).fld _ (by decide) (by decide)
  have role : (s.judgeCand q).fld (F.TMK_PORT_CFG_role p) = s.fld (F.TMK_PORT_CFG_role p) :=
    (steers_judgeCand hq).fld _ (by decide +revert)
      (List.forall_mem_singleton.2 (.inl (show 0x400080 + 4 * p ≠ 0x400154 by omega)))
  simp only [State.candOk, (steers_judgeCand hq).tport, State.tmkEnabled, State.flag, enabled, State.slaveCapable, role,
    stamping_judgeCand hq]

theorem steers_reassess : Steers s s.reassess selectionFields :=
  ((((steers_judgeCand (by decide)).trans (steers_judgeCand (by decide))).trans (steers_judgeCand (by decide))).mono
    (by decide)).trans selects_select.steers

/-- A candidate that does not come to be QUALIFIED by the judgement has the state it is judged to have. -/
theorem candState_reassess {p c : Nat} (hp : p < 3) (hc : c < 2)
    (h : (if s.candOk p then (if s.candState p = 0 then 1 else s.candState p) else 0) = c) : s.reassess.candState p = c := by
  have judged : (((s.judgeCand 0).judgeCand 1).judgeCand 2).candState p = c := by
    obtain rfl | rfl | rfl : p = 0 ∨ p = 1 ∨ p = 2 := by omega
    · rw [candState_judgeCand_other (by decide) (by decide), candState_judgeCand_other (by decide) (by decide),
        candState_judgeCand_same (by decide), h]
    · rw [candState_judgeCand_other (by decide) (by decide), candState_judgeCand_same (by decide),
        candState_judgeCand_other (by decide) (by decide), candOk_judgeCand (by decide) (by decide), h]
    · rw [candState_judgeCand_same (by decide), candState_judgeCand_other (by decide) (by decide),
        candState_judgeCand_other (by decide) (by decide), candOk_judgeCand (by decide) (by decide),
        candOk_judgeCand (by decide) (by decide), h]
  exact (selects_select.cand p (by omega)).trans judged

theorem candState_reassess_failed {p : Nat} (hp : p < 3) (h : s.candOk p = false) : s.reassess.candState p = 0 :=
  candState_reassess hp (by decide) (by simp [h])

theorem candState_reassess_holds {p : Nat} (hp : p < 3) (h : s.candOk p = true) (h0 : s.candState p = 0) :
    s.reassess.candState p = 1 :=
  candState_reassess hp (by decide) (by simp [h, h0])

/-! ## An update of the servo -/

/-- TMK_OFFSET shows the filtered offset, and the Recorder and the performance monitors are told of it. -/
def State.shown (s : State) (offs : List Int) : State :=
  let filt := Config.filteredOffset offs
  let s := (s.setReg Reg.TMK_OFFSET (BitVec.ofInt 32 (satS 32 filt))).pmc 18 64 0
  let s := if 65536 < filt.natAbs then s.pmc 18 65 0 else s
  if s.servo = 3 then s.extreme 6 (satS 32 filt).natAbs (s.fld F.TMK_STATUS_sel_ref) else s

/-- What the servo does with the offsets `offs` before its own state moves. -/
def State.measured (s : State) (offs : List Int) : State := (s.shown offs).steerPll (offs.headD 0) offs

/-- What the servo's state then becomes. -/
def State.servoStep (s : State) (offs : List Int) : State :=
  match s.servo with
  | 1 => s.acquireUpdate offs
  | 2 => s.pullUpdate (Config.filteredOffset offs)
  | 3 => s.lockedUpdate (Config.filteredOffset offs)
  | _ => s

/-- The state in which the servo of port `p` measures. -/
def State.stepped (s : State) (p : Nat) : State := s.stepIfFar (((s.tport p).offsets.head?).getD 0)

theorem servoUpdate_eq {p : Nat} : s.servoUpdate p =
    (((s.stepped p).measured ((s.stepped p).tport p).offsets).servoStep ((s.stepped p).tport p).offsets).showStatus := rfl

/-! ### The measurement -/

section
variable {offs : List Int}

theorem told_shown : Told (s.setReg Reg.TMK_OFFSET (BitVec.ofInt 32 (satS 32 (Config.filteredOffset offs)))) (s.shown offs) := by
  have counted := (Told.refl (s := s.setReg Reg.TMK_OFFSET (BitVec.ofInt 32 (satS 32 (Config.filteredOffset offs))))).pmc
    (src := 18) (ev := 64) (inst := 0) (n := 1)
  have beyond := (counted.pmc (src := 18) (ev := 65) (inst := 0) (n := 1)).when
    (c := 65536 < (Config.filteredOffset offs).natAbs) counted
  exact beyond.extreme.when beyond

theorem steers_measured : Steers s (s.measured offs) [word Reg.TMK_OFFSET] := by
  have written : Steers s (s.setReg Reg.TMK_OFFSET (BitVec.ofInt 32 (satS 32 (Config.filteredOffset offs)))) [word Reg.TMK_OFFSET] :=
    Steers.refl.setReg (by decide)
  unfold State.measured State.steerPll
  exact (written.told told_shown).modPll

theorem tmk_measured : (s.measured offs).tmk = s.tmk := told_shown.tmk

theorem offset_measured :
    (s.measured offs).reg Reg.TMK_OFFSET = BitVec.ofInt 32 (satS 32 (Config.filteredOffset offs)) :=
  (told_shown.reg _ (by decide)).trans reg_setReg_same

theorem servo_measured : (s.measured offs).servo = s.servo :=
  steers_measured.fld F.TMK_STATUS_servo_state (by decide) (by decide)

theorem slew_measured : (s.measured offs).pll.slew =
    if s.servo = 2 ∨ s.servo = 3 ∨ (s.servo = 1 ∧ s.stepFar < (offs.headD 0).natAbs) then offs.headD 0 else 0 := by
  have servo : (s.shown offs).servo = s.servo := servo_measured (offs := offs)
  have far : (s.shown offs).stepFar = s.stepFar :=
    congrArg (ns * 2 ^ ·) ((steers_measured (offs := offs)).fld F.TMK_SERVO_CFG_step_log2 (by decide) (by decide))
  rw [State.measured, State.steerPll, servo, far]
  rfl

/-! ### The state's own rule (R59) -/

theorem servoStep_acquire (h : s.servo = 1) : s.servoStep offs = s.acquireUpdate offs := by simp only [State.servoStep, h]
theorem servoStep_pull (h : s.servo = 2) : s.servoStep offs = s.pullUpdate (Config.filteredOffset offs) := by simp only [State.servoStep, h]
theorem servoStep_locked (h : s.servo = 3) : s.servoStep offs = s.lockedUpdate (Config.filteredOffset offs) := by
  simp only [State.servoStep, h]

/-- An update of the servo's state writes its fields, and leaves the slew. -/
structure ServoMoves (s t : State) : Prop where
  steers : Steers s t servoFields
  slew   : t.pll.slew = s.pll.slew

theorem ServoMoves.refl : ServoMoves s s := ⟨Steers.refl, rfl⟩

theorem servoMoves_setServo {v : Nat} (h0 : v ≠ 0) (h4 : v ≠ 4) : ServoMoves s (s.setServo v) :=
  ⟨steers_setServo, slew_setServo h0 h4⟩

theorem servoMoves_modTmk {k : Tmk → Tmk} (hk : (k s.tmk).ports = s.tmk.ports) : ServoMoves s (s.modTmk k) :=
  ⟨Steers.refl.modTmk hk, rfl⟩

theorem servoMoves_acquireUpdate : ServoMoves s (s.acquireUpdate offs) := by
  unfold State.acquireUpdate
  split
  · exact servoMoves_setServo (by decide) (by decide)
  · exact servoMoves_modTmk rfl

theorem servoMoves_pullUpdate {filt : Int} : ServoMoves s (s.pullUpdate filt) := by
  unfold State.pullUpdate
  dsimp only
  split
  · split
    · exact servoMoves_setServo (by decide) (by decide)
    · exact servoMoves_modTmk rfl
  · exact servoMoves_modTmk rfl

theorem servoMoves_lockedUpdate {filt : Int} : ServoMoves s (s.lockedUpdate filt) := by
  unfold State.lockedUpdate
  dsimp only
  split
  · split
    · exact servoMoves_setServo (by decide) (by decide)
    · exact servoMoves_modTmk rfl
  · split
    · exact ⟨(Steers.refl.modTmk rfl).modPll, rfl⟩
    · exact servoMoves_modTmk rfl

theorem servoMoves_servoStep : ServoMoves s (s.servoStep offs) := by
  unfold State.servoStep
  split
  · exact servoMoves_acquireUpdate
  · exact servoMoves_pullUpdate
  · exact servoMoves_lockedUpdate
  · exact ServoMoves.refl

theorem servo_acquireUpdate (h : s.servo = 1) :
    (s.acquireUpdate offs).servo = if 15 ≤ s.tmk.updates ∧ Config.freqError offs < 50000 then 2 else 1 := by
  unfold State.acquireUpdate
  have count : 16 ≤ s.tmk.updates + 1 ↔ 15 ≤ s.tmk.updates := by omega
  simp only [count]
  split
  · exact servo_setServo (by decide)
  · exact h

theorem servo_pullUpdate {filt : Int} (h : s.servo = 2) :
    (s.pullUpdate filt).servo =
      if filt.natAbs ≤ 32768 ∧ s.tmk.pullSince.getD s.clock + 2000000000 ≤ s.clock then 3 else 2 := by
  unfold State.pullUpdate
  rw [ite_and]
  dsimp only
  split
  · split
    · exact servo_setServo (by decide)
    · exact h
  · exact h

theorem servo_lockedUpdate {filt : Int} (h : s.servo = 3) :
    (s.lockedUpdate filt).servo = if 327680 < filt.natAbs ∧ 7 ≤ s.tmk.exceeds then 2 else 3 := by
  unfold State.lockedUpdate
  have count : 8 ≤ s.tmk.exceeds + 1 ↔ 7 ≤ s.tmk.exceeds := by omega
  rw [ite_and]
  simp only [count]
  split
  · split
    · exact servo_setServo (by decide)
    · exact h
  · split <;> exact h

end

/-! ### The whole update -/

/-- What a servo update writes, beside a step of wall time. -/
def updateFields : List Field := word Reg.TMK_OFFSET :: (servoFields ++ statusFields)

section
variable {p : Nat}

theorem steers_servoUpdate : Steers (s.stepped p) (s.servoUpdate p) updateFields := by
  rw [servoUpdate_eq]
  exact ((steers_measured.mono (by decide)).trans (servoMoves_servoStep.steers.mono (by decide))).trans
    (steers_showStatus.mono (by decide))

theorem slew_servoUpdate : (s.servoUpdate p).pll.slew =
    ((s.stepped p).measured ((s.stepped p).tport p).offsets).pll.slew := by
  rw [servoUpdate_eq, pll_showStatus]
  exact servoMoves_servoStep.slew

theorem offset_servoUpdate : (s.servoUpdate p).reg Reg.TMK_OFFSET =
    BitVec.ofInt 32 (satS 32 (Config.filteredOffset ((s.stepped p).tport p).offsets)) := by
  rw [servoUpdate_eq, steers_showStatus.reg (by decide) (by decide), servoMoves_servoStep.steers.reg (by decide) (by decide)]
  exact offset_measured

theorem servo_servoUpdate : (s.servoUpdate p).servo =
    (((s.stepped p).measured ((s.stepped p).tport p).offsets).servoStep ((s.stepped p).tport p).offsets).servo := by
  rw [servoUpdate_eq, servo_showStatus]

/-! ### An offset that is not stepped away (R62) -/

variable {off : Int}

/-- No step is made now: the offset is not one to step away, or the step waits. -/
def State.stays (s : State) (off : Int) : Prop :=
  s.offsetFar off = false ∨ (s.anyStarted = true ∧ s.flag F.TMK_SERVO_CFG_step_allowed = false)

theorem stepIfFar_near (h : s.offsetFar off = false) :
    s.stepIfFar off = if off.natAbs < s.stepFar then s.lower F.TMK_STATUS_step_pending else s := by
  simp [State.stepIfFar, h]

theorem stepIfFar_waits (h : s.offsetFar off = true) (ha : s.anyStarted = true) (hs : s.flag F.TMK_SERVO_CFG_step_allowed = false) :
    s.stepIfFar off = (s.raise F.TMK_INT_STAT_step_needed).raise F.TMK_STATUS_step_pending := by
  simp [State.stepIfFar, h, ha, hs]

theorem stepIfFar_steps (h : s.offsetFar off = true) (ha : s.anyStarted = false) : s.stepIfFar off = s.stepWall off := by
  simp [State.stepIfFar, h, ha]

/-- What shows that a step waits. -/
def stepFields : List Field := [F.TMK_STATUS_step_pending, F.TMK_INT_STAT_step_needed]

theorem steers_stepIfFar (h : s.stays off) : Steers s (s.stepIfFar off) stepFields := by
  cases hf : s.offsetFar off with
  | false =>
    rw [stepIfFar_near hf]
    exact (Steers.refl.setFld (by decide) (by decide)).when Steers.refl
  | true =>
    obtain ⟨ha, hs⟩ := h.resolve_left (by simp [hf])
    rw [stepIfFar_waits hf ha hs]
    exact (Steers.refl.raise (by decide) (by decide)).raise (by decide) (by decide)

theorem tmk_stepIfFar (h : s.stays off) : (s.stepIfFar off).tmk = s.tmk := by
  cases hf : s.offsetFar off with
  | false =>
    rw [stepIfFar_near hf]
    split <;> rfl
  | true =>
    obtain ⟨ha, hs⟩ := h.resolve_left (by simp [hf])
    rw [stepIfFar_waits hf ha hs, State.raise_tmk, State.raise_tmk]

/-- An update without a step, for the newest offset `off` of the list `l`. -/
structure Unstepped (s : State) (p : Nat) (off : Int) (l : List Int) : Prop where
  offsets : (s.tport p).offsets = off :: l
  stays   : s.stays off

namespace Unstepped
variable {l : List Int} (h : Unstepped s p off l)
include h

theorem stepped_eq : s.stepped p = s.stepIfFar off := by simp [State.stepped, h.offsets]

theorem steers_stepped : Steers s (s.stepped p) stepFields := h.stepped_eq ▸ steers_stepIfFar h.stays

theorem offsets_stepped : ((s.stepped p).tport p).offsets = off :: l := by rw [h.steers_stepped.tport, h.offsets]

theorem servo_stepped : (s.stepped p).servo = s.servo :=
  h.steers_stepped.fld F.TMK_STATUS_servo_state (by decide) (by decide)

theorem steers : Steers s (s.servoUpdate p) (stepFields ++ updateFields) :=
  (h.steers_stepped.mono (by decide)).trans (steers_servoUpdate.mono (by decide))

theorem offset : (s.servoUpdate p).reg Reg.TMK_OFFSET = BitVec.ofInt 32 (satS 32 (Config.filteredOffset (off :: l))) := by
  rw [offset_servoUpdate, h.offsets_stepped]

theorem slew : (s.servoUpdate p).pll.slew =
    if s.servo = 2 ∨ s.servo = 3 ∨ (s.servo = 1 ∧ s.stepFar < off.natAbs) then off else 0 := by
  have far : (s.stepped p).stepFar = s.stepFar :=
    congrArg (ns * 2 ^ ·) (h.steers_stepped.fld F.TMK_SERVO_CFG_step_log2 (by decide) (by decide))
  rw [slew_servoUpdate, h.offsets_stepped, slew_measured, h.servo_stepped, far]
  rfl

theorem tmk_measured : ((s.stepped p).measured (off :: l)).tmk = s.tmk := by
  rw [Machine.tmk_measured, h.stepped_eq, tmk_stepIfFar h.stays]

theorem clock_measured : ((s.stepped p).measured (off :: l)).clock = s.clock :=
  steers_measured.clock.trans h.steers_stepped.clock

theorem servo_measured : ((s.stepped p).measured (off :: l)).servo = s.servo := Machine.servo_measured.trans h.servo_stepped

theorem servo_acquire (hs : s.servo = 1) :
    (s.servoUpdate p).servo = if 15 ≤ s.tmk.updates ∧ Config.freqError (off :: l) < 50000 then 2 else 1 := by
  have servo := h.servo_measured.trans hs
  rw [servo_servoUpdate, h.offsets_stepped, servoStep_acquire servo, servo_acquireUpdate servo, h.tmk_measured]

theorem servo_pull (hs : s.servo = 2) : (s.servoUpdate p).servo =
    if (Config.filteredOffset (off :: l)).natAbs ≤ 32768 ∧ s.tmk.pullSince.getD s.clock + 2000000000 ≤ s.clock then 3 else 2 := by
  have servo := h.servo_measured.trans hs
  rw [servo_servoUpdate, h.offsets_stepped, servoStep_pull servo, servo_pullUpdate servo, h.tmk_measured, h.clock_measured]

theorem servo_locked (hs : s.servo = 3) : (s.servoUpdate p).servo =
    if 327680 < (Config.filteredOffset (off :: l)).natAbs ∧ 7 ≤ s.tmk.exceeds then 2 else 3 := by
  have servo := h.servo_measured.trans hs
  rw [servo_servoUpdate, h.offsets_stepped, servoStep_locked servo, servo_lockedUpdate servo, h.tmk_measured]

end Unstepped

/-- A step that waits is shown by step_pending and flagged by step_needed. -/
theorem flags_servoUpdate_waits {l : List Int} (h : (s.tport p).offsets = off :: l) (hf : s.offsetFar off = true)
    (ha : s.anyStarted = true) (hs : s.flag F.TMK_SERVO_CFG_step_allowed = false) :
    (s.servoUpdate p).flag F.TMK_STATUS_step_pending = true ∧ (s.servoUpdate p).flag F.TMK_INT_STAT_step_needed = true := by
  have waits : s.stepped p = (s.raise F.TMK_INT_STAT_step_needed).raise F.TMK_STATUS_step_pending := by
    simp [State.stepped, h, stepIfFar_waits hf ha hs]
  have pending := steers_servoUpdate (s := s) (p := p).fld F.TMK_STATUS_step_pending (by decide) (by decide)
  have needed := steers_servoUpdate (s := s) (p := p).fld F.TMK_INT_STAT_step_needed (by decide) (by decide)
  rw [waits] at pending needed
  constructor
  · rw [State.flag, pending]
    exact flag_raise (by decide) rfl
  · rw [State.flag, needed, State.raise, fld_setFld_other (by decide) (by decide)]
    exact flag_raise (by decide) rfl

/-! ### An offset that is stepped away (R62) -/

/-- Wall time, and the stamps held, `off` back. -/
def State.movedBack (s : State) (off : Int) : State :=
  let back (t : Nat) : Nat := s.foldTime ((t : Int) - off)
  let s := s.setWall (back s.wall)
  let s := s.modTmk fun t => { t with ports := t.ports.map fun p => { p with
    wait := p.wait.map fun w => (w.1, back w.2.1, w.2.2)
    req := p.req.map fun r => (r.1, back r.2), t34 := p.t34.map fun r => (back r.1, r.2.1, r.2.2)
    offsets := p.offsets.map (· - off) } }
  s.modNet fun t => { t with
    busy := t.busy.map back, txq := t.txq.map fun x => (x.1, { x.2 with at_ := back x.2.at_ })
    maxWas := t.maxWas.map fun x => (x.1, back x.2.1, x.2.2) }

theorem stepWall_eq : s.stepWall off =
    ((s.movedBack off).holdPhase.lower F.TMK_STATUS_step_pending).wallStepped (-off / 1024) := rfl

/-- With no grid no frame and no port is touched. -/
theorem wallStepped_gridless {d : Int} (h : s.grid = none) : s.wallStepped d = s.raise F.ANV_INGEST_INT_STAT_step := by
  have grid : (s.raise F.ANV_INGEST_INT_STAT_step).grid = none := h
  simp only [State.wallStepped, grid]

/-- The update that steps, where there is no grid. -/
structure Stepped (s : State) (p : Nat) (off : Int) (l : List Int) : Prop where
  offsets : (s.tport p).offsets = off :: l
  far     : s.offsetFar off = true
  idle    : s.anyStarted = false
  grid    : s.grid = none

namespace Stepped
variable {l : List Int} (h : Stepped s p off l)
include h

theorem stepped_eq : s.stepped p =
    ((s.movedBack off).holdPhase.lower F.TMK_STATUS_step_pending).raise F.ANV_INGEST_INT_STAT_step := by
  have grid : ((s.movedBack off).holdPhase.lower F.TMK_STATUS_step_pending).grid = none := h.grid
  rw [State.stepped, h.offsets]
  exact (stepIfFar_steps h.far h.idle).trans (stepWall_eq.trans (wallStepped_gridless grid))

theorem wall : (s.servoUpdate p).wall = s.foldTime ((s.wall : Int) - off) := by
  rw [steers_servoUpdate.wall, h.stepped_eq]
  rfl

theorem mem : (s.servoUpdate p).mem = s.mem := by
  rw [steers_servoUpdate.mem, h.stepped_eq]
  rfl

theorem pending : (s.servoUpdate p).flag F.TMK_STATUS_step_pending = false := by
  rw [State.flag, steers_servoUpdate.fld _ (by decide) (by decide), h.stepped_eq, State.raise,
    fld_setFld_other (by decide) (by decide)]
  exact flag_lower (by decide)

theorem flagged : (s.servoUpdate p).flag F.ANV_INGEST_INT_STAT_step = true := by
  rw [State.flag, steers_servoUpdate.fld _ (by decide) (by decide), h.stepped_eq]
  exact flag_raise (by decide) rfl

theorem blocksBut : (s.servoUpdate p).blocksBut s [4, 6, 8, 12, 14] := by
  intro a ha
  have block : a / 0x100000 ≠ 4 ∧ a / 0x100000 ≠ 6 ∧ a / 0x100000 ∉ [8, 12, 14] := by simpa using ha
  obtain ⟨h4, h6, hrest⟩ := block
  rw [steers_servoUpdate.reg hrest fun f hf e => h4 (by
    have fields : ∀ f ∈ updateFields, f.addr / 0x100000 = 4 := by decide
    rw [← e, fields f hf]), h.stepped_eq, State.raise, reg_setFld_other (by rintro rfl; exact h6 (by decide)), State.lower,
    reg_setFld_other (by rintro rfl; exact h4 (by decide))]
  rfl

end Stepped
end

/-! ## A message reaches the Timekeeper, or not (R50, R87, R93) -/

section
variable {p i n : Nat} {m : PtpMsg} {k : State → State}

theorem ptpTake_unserved {d : Nat} (h : s.servesDomain p d = false) : s.ptpTake p d k = s := by
  simp [State.ptpTake, h]

theorem ptpTake_unstamped {d : Nat} (hp : p < 3) (hd : s.servesDomain p d = true) (hl : s.netLink p = true)
    (h : s.stamping p = false) : s.ptpTake p d k = s.bump 3 18 p := by
  simp [State.ptpTake, hp, hd, hl, h]

theorem ptpTake_stamped {d : Nat} (hp : p < 3) (hd : s.servesDomain p d = true) (hl : s.netLink p = true)
    (h : s.stamping p = true) : s.ptpTake p d k = k (s.bump 3 17 p) := by
  simp [State.ptpTake, hp, hd, hl, h]

theorem servesDomain_own {d : Nat} (he : s.tmkEnabled = true) (h : d = s.fld F.TMK_PTP_CFG_domain) : s.servesDomain p d = true := by
  simp [State.servesDomain, he, h]

theorem servesDomain_master {d : Nat} (he : s.tmkEnabled = true) (hm : s.masterPort p = true)
    (h : d = s.fld (F.TMK_PORT_CFG_m_domain p)) : s.servesDomain p d = true := by
  simp [State.servesDomain, he, hm, h]

/-! ### What the port's counters leave -/

theorem counts_bump_port : Counts s (s.bump 3 i p n) [Reg.NET_CNT_HALF p] := counts_bump_net (by simp)

theorem fld_bump_port (h : f.addr ≠ Reg.NET_CNT_HALF p) (lo : f.addr ≠ Reg.PMC_OVF_LO) (hi : f.addr ≠ Reg.PMC_OVF_HI) :
    (s.bump 3 i p n).fld f = s.fld f := by
  simp only [State.fld, State.regN, counts_bump_port.reg f.addr (by simpa using h) lo hi]

/-- The blocks of a port's registers. -/
theorem port_blocks : ∀ p < 3, Reg.NET_CNT_HALF p / 0x100000 = 5 ∧ Reg.NET_PORT_CFG p / 0x100000 = 5 ∧
    Reg.TMK_PORT_CFG p / 0x100000 = 4 ∧ Reg.TMK_CAL_ING p / 0x100000 = 4 ∧ Reg.TMK_CAL_EGR p / 0x100000 = 4 ∧
    Reg.TMK_CAL_ASYM p / 0x100000 = 4 := by decide

/-- Of the blocks that hold no counter of a port and no monitor, every field. -/
theorem fld_bump_block (hp : p < 3) (h5 : f.addr / 0x100000 ≠ 5) (h14 : f.addr / 0x100000 ≠ 14) :
    (s.bump 3 i p n).fld f = s.fld f := by
  have half := (port_blocks p hp).1
  exact fld_bump_port (fun e => h5 (by rw [e, half])) (fun e => h14 (by rw [e]; decide)) fun e => h14 (by rw [e]; decide)

theorem fld_bump_tmk (hp : p < 3) (h : f.addr / 0x100000 = 4) : (s.bump 3 i p n).fld f = s.fld f :=
  fld_bump_block hp (by omega) (by omega)

theorem blocksBut_bump_port (hp : p < 3) : (s.bump 3 i p n).blocksBut s [5, 14] := by
  intro a ha
  have blocks : a / 0x100000 ≠ 5 ∧ a / 0x100000 ≠ 14 := by simpa using ha
  exact reg_of_fld_word (fld_bump_block (f := word a) hp blocks.1 blocks.2)

theorem tport_bump {q : Nat} : (s.bump 3 i p n).tport q = s.tport q := by simp [State.tport]

section
variable (hp : p < 3)
include hp

theorem role_bump : (s.bump 3 i p n).fld (F.TMK_PORT_CFG_role p) = s.fld (F.TMK_PORT_CFG_role p) := by
  obtain ⟨-, -, port, -⟩ := port_blocks p hp
  exact fld_bump_tmk hp port

theorem slaveCapable_bump : (s.bump 3 i p n).slaveCapable p = s.slaveCapable p := by simp only [State.slaveCapable, role_bump hp]

theorem masterPort_bump : (s.bump 3 i p n).masterPort p = s.masterPort p := by simp only [State.masterPort, role_bump hp]

theorem domain_bump : (s.bump 3 i p n).fld F.TMK_PTP_CFG_domain = s.fld F.TMK_PTP_CFG_domain := fld_bump_tmk hp (by decide)

theorem wrap_bump : (s.bump 3 i p n).wrap = s.wrap := by
  simp only [State.wrap, State.flag, fld_bump_block (f := F.TMK_CFG_wrap_mode) hp (by decide) (by decide)]

theorem foldTime_bump {x : Int} : (s.bump 3 i p n).foldTime x = s.foldTime x := by simp only [State.foldTime, wrap_bump hp]

theorem wallDiff_bump {a b : Nat} : (s.bump 3 i p n).wallDiff a b = s.wallDiff a b := by simp only [State.wallDiff, wrap_bump hp]

theorem later_bump {a b : Nat} : (s.bump 3 i p n).later a b = s.later a b := by simp only [State.later, wallDiff_bump hp]

theorem ingressStamp_bump {raw : Nat} : (s.bump 3 i p n).ingressStamp p raw = s.ingressStamp p raw := by
  obtain ⟨-, -, -, ing, -⟩ := port_blocks p hp
  simp only [State.ingressStamp, State.ingressLatency, State.sfld, tport_bump, fld_bump_tmk (f := F.TMK_CAL_ING_value p) hp ing]

theorem egressStamp_bump {raw : Nat} : (s.bump 3 i p n).egressStamp p raw = s.egressStamp p raw := by
  obtain ⟨-, -, -, -, egr, -⟩ := port_blocks p hp
  simp only [State.egressStamp, State.egressLatency, State.sfld, tport_bump, fld_bump_tmk (f := F.TMK_CAL_EGR_value p) hp egr]

theorem asymmetry_bump : (s.bump 3 i p n).sfld (F.TMK_CAL_ASYM_value p) = s.sfld (F.TMK_CAL_ASYM_value p) := by
  obtain ⟨-, -, -, -, -, asym⟩ := port_blocks p hp
  simp only [State.sfld, fld_bump_tmk (f := F.TMK_CAL_ASYM_value p) hp asym]

theorem candState_bump : (s.bump 3 i p n).candState p = s.candState p :=
  fld_bump_block hp (show Reg.TMK_REFSEL_STATUS / 0x100000 ≠ 5 by decide) (show Reg.TMK_REFSEL_STATUS / 0x100000 ≠ 14 by decide)

theorem stamping_bump : (s.bump 3 i p n).stamping p = s.stamping p := by
  have status (lo width : Nat) : (s.bump 3 i p n).fld ⟨Reg.NET_PORT_STATUS, lo, width⟩ = s.fld ⟨Reg.NET_PORT_STATUS, lo, width⟩ :=
    fld_bump_port (show 0x500030 ≠ 0x500060 + 8 * p by omega) (show Reg.NET_PORT_STATUS ≠ Reg.PMC_OVF_LO by decide)
      (show Reg.NET_PORT_STATUS ≠ Reg.PMC_OVF_HI by decide)
  simp only [State.stamping, State.netLink, State.flag, status]

end

/-! ### Time runs on to the stamp -/

theorem wall_reach {x : Nat} : (s.reach x).wall = if s.later x s.wall then s.foldTime x else s.wall := by
  unfold State.reach
  split <;> rfl

theorem wall_reach_bump (hp : p < 3) {x : Nat} : ((s.bump 3 i p n).reach x).wall = (s.reach x).wall := by
  rw [wall_reach, wall_reach, later_bump hp, foldTime_bump hp, State.bump_wall]

theorem reg_reach {x a : Nat} : (s.reach x).reg a = s.reg a := by
  unfold State.reach
  split <;> rfl

theorem fld_reach {x : Nat} : (s.reach x).fld f = s.fld f := by simp only [State.fld, State.regN, reg_reach]

theorem tmk_reach {x : Nat} : (s.reach x).tmk = s.tmk := by
  unfold State.reach
  split <;> rfl

theorem mem_reach {x : Nat} : (s.reach x).mem = s.mem := by
  unfold State.reach
  split <;> rfl

theorem out_reach {x : Nat} : (s.reach x).out = s.out := by
  unfold State.reach
  split <;> rfl

/-! ### The state of a port -/

section
variable {c : TmkPort → TmkPort}

theorem tport_modTport_same (h : p < s.tmk.ports.length) : (s.modTport p c).tport p = c (s.tport p) := by
  simp [State.tport, State.modTport, nth, h]

theorem ingressStamp_modTport {raw : Nat} (h : p < s.tmk.ports.length) (hc : ∀ t, (c t).skew = t.skew) :
    (s.modTport p c).ingressStamp p raw = s.ingressStamp p raw := by
  simp only [State.ingressStamp, State.ingressLatency, tport_modTport_same h, hc]
  rfl

theorem egressStamp_modTport {raw : Nat} (h : p < s.tmk.ports.length) (hc : ∀ t, (c t).skew = t.skew) :
    (s.modTport p c).egressStamp p raw = s.egressStamp p raw := by
  simp only [State.egressStamp, State.egressLatency, tport_modTport_same h, hc]
  rfl

theorem tport_modTport_other {q : Nat} (h : q ≠ p) : (s.modTport p c).tport q = s.tport q := by
  simp [State.tport, State.modTport, nth, List.getElem?_set_ne (Ne.symm h)]

end

/-! ## Registers that a command leaves -/

theorem State.blocksBut.trans {bs cs ds : List Nat} (h : t.blocksBut s bs) (k : u.blocksBut t cs) (hb : bs ⊆ ds) (hc : cs ⊆ ds) :
    u.blocksBut s ds :=
  fun a ha => (k a fun x => ha (hc x)).trans (h a fun x => ha (hb x))

/-! ## A complete exchange (R55) -/

/-- The offset is kept, and its spread judged (R64). -/
def State.offsetTaken (s : State) (p : Nat) (off : Int) : State :=
  (s.modTport p fun t => { t with offsets := (off :: t.offsets).take 16 }).judgeSpread p

theorem steers_judgeSpread (hp : p < 3) : Steers s (s.judgeSpread p) [candField p] := by
  unfold State.judgeSpread
  exact (Steers.refl.setFld (show 2 + 2 * p + 2 ≤ 32 by omega) ⟨_, List.mem_singleton_self _, rfl, le_refl _, le_refl _⟩).when Steers.refl

theorem rest_judgeSpread : { s.judgeSpread p with regs := s.regs } = s := by
  unfold State.judgeSpread
  split <;> rfl

theorem tmk_judgeSpread : (s.judgeSpread p).tmk = s.tmk := (congrArg State.tmk rest_judgeSpread :)
theorem pll_judgeSpread : (s.judgeSpread p).pll = s.pll := (congrArg State.pll rest_judgeSpread :)
theorem anv_judgeSpread : (s.judgeSpread p).anv = s.anv := (congrArg State.anv rest_judgeSpread :)

/-- Judging the spread leaves the selection's own state. -/
theorem selState_judgeSpread (hp : p < 3) : (s.judgeSpread p).selState = s.selState :=
  (steers_judgeSpread hp).fld _ (by decide) (List.forall_mem_singleton.2 (.inr (.inl (Nat.le_add_right 2 (2 * p)))))

theorem lostUpdate_other {off : Int} (h : s.selState ≠ 2) : s.lostUpdate p off = s := by simp [State.lostUpdate, h]

theorem takeOffset_complete {raw2 t1 : Nat} {corr : Int} {x : Nat × Nat × Int} (hp : p < 3) (hx : (s.tport p).t34 = some x)
    (h2 : s.selState ≠ 2) : s.takeOffset p raw2 t1 corr =
      if s.selState = 1 ∧ s.tmk.sel = some p then (s.offsetTaken p (s.offsetOf p raw2 t1 corr x)).servoUpdate p
      else s.offsetTaken p (s.offsetOf p raw2 t1 corr x) := by
  have sel (off : Int) : (s.offsetTaken p off).selState = s.selState := selState_judgeSpread hp
  have tmk (off : Int) : (s.offsetTaken p off).tmk.sel = s.tmk.sel := by rw [State.offsetTaken, tmk_judgeSpread]; rfl
  have taken : s.takeOffset p raw2 t1 corr =
      let u := (s.offsetTaken p (s.offsetOf p raw2 t1 corr x)).lostUpdate p (s.offsetOf p raw2 t1 corr x)
      if u.selState = 1 ∧ u.tmk.sel = some p then u.servoUpdate p else u := by
    simp only [State.takeOffset, hx]
    rfl
  rw [taken, lostUpdate_other (by rwa [sel])]
  dsimp only
  rw [sel, tmk]

/-- The Follow_Up that the Sync of port `p` has waited for is counted. -/
def State.answered (s : State) (p : Nat) : State := (s.bump 3 17 p).modTport p fun t => { t with wait := none }

/-- It has completed the exchange, whose offset is `off`. -/
def State.offered (s : State) (p : Nat) (off : Int) : State := (s.answered p).offsetTaken p off

section
variable {off : Int}

theorem fld_offered (hp : p < 3) (hb : f.addr / 0x100000 ∉ [5, 8, 12, 14]) (ha : Apart f (candField p)) :
    (s.offered p off).fld f = s.fld f := by
  have blocks : f.addr / 0x100000 ≠ 5 ∧ f.addr / 0x100000 ∉ [8, 12, 14] := by simpa using hb
  refine ((steers_judgeSpread hp).fld f blocks.2 (List.forall_mem_singleton.2 ha)).trans ?_
  exact fld_bump_block hp blocks.1 fun e => blocks.2 (by rw [e]; decide)

/-- Of another register than TMK_REFSEL_STATUS. -/
theorem fld_offered_reg (hp : p < 3) (hb : f.addr / 0x100000 ∉ [5, 8, 12, 14]) (ha : f.addr ≠ Reg.TMK_REFSEL_STATUS) :
    (s.offered p off).fld f = s.fld f := fld_offered hp hb (.inl ha)

theorem tmk_offered : (s.offered p off).tmk =
    ((s.answered p).modTport p fun t => { t with offsets := (off :: t.offsets).take 16 }).tmk := tmk_judgeSpread

theorem tport_offered_same (h : p < s.tmk.ports.length) : (s.offered p off).tport p =
    { s.tport p with wait := none, offsets := (off :: (s.tport p).offsets).take 16 } := by
  have inside : p < (s.answered p).tmk.ports.length := by simpa [State.answered, State.modTport] using h
  rw [State.tport, tmk_offered, ← State.tport, tport_modTport_same inside, State.answered,
    tport_modTport_same (by simpa using h), tport_bump]

theorem tport_offered_other {q : Nat} (h : q ≠ p) : (s.offered p off).tport q = s.tport q := by
  rw [State.tport, tmk_offered, ← State.tport, tport_modTport_other h, State.answered, tport_modTport_other h, tport_bump]

theorem exceeds_offered : (s.offered p off).tmk.exceeds = s.tmk.exceeds := by simp [tmk_offered, State.answered, State.modTport]
theorem updates_offered : (s.offered p off).tmk.updates = s.tmk.updates := by simp [tmk_offered, State.answered, State.modTport]
theorem pullSince_offered : (s.offered p off).tmk.pullSince = s.tmk.pullSince := by simp [tmk_offered, State.answered, State.modTport]
theorem pll_offered : (s.offered p off).pll = s.pll := pll_judgeSpread.trans pll_bump

theorem grid_offered : (s.offered p off).grid = s.grid := by
  have anv : (s.offered p off).anv = s.anv := anv_judgeSpread.trans State.bump_anv
  simp only [State.grid, anv]

theorem reg_judgeSpread {a : Nat} (h : a ≠ Reg.TMK_REFSEL_STATUS) : (s.judgeSpread p).reg a = s.reg a := by
  unfold State.judgeSpread
  split
  · exact reg_setFld_other h
  · rfl

theorem regsBut_offered : (s.offered p off).regsBut s [Reg.NET_CNT_HALF p, Reg.TMK_REFSEL_STATUS] := by
  intro a ha lo hi
  obtain ⟨half, sel⟩ : a ≠ Reg.NET_CNT_HALF p ∧ a ≠ Reg.TMK_REFSEL_STATUS := by simpa using ha
  exact (reg_judgeSpread sel).trans (counts_bump_port.reg a (by simpa using half) lo hi)

section
variable (hp : p < 3)
include hp

theorem wall_offered : (s.offered p off).wall = s.wall := (steers_judgeSpread hp).wall.trans State.bump_wall
theorem clock_offered : (s.offered p off).clock = s.clock := (steers_judgeSpread hp).clock.trans State.bump_clock
theorem mem_offered : (s.offered p off).mem = s.mem := (steers_judgeSpread hp).mem.trans State.bump_mem

theorem servo_offered : (s.offered p off).servo = s.servo := fld_offered_reg hp (by decide) (by decide)

theorem stepFar_offered : (s.offered p off).stepFar = s.stepFar :=
  congrArg (ns * 2 ^ ·) (fld_offered_reg (f := F.TMK_SERVO_CFG_step_log2) hp (by decide) (by decide))

theorem offsetFar_offered {x : Int} : (s.offered p off).offsetFar x = s.offsetFar x := by
  simp only [State.offsetFar, servo_offered hp, stepFar_offered hp, pll_offered]

theorem anyStarted_offered : (s.offered p off).anyStarted = s.anyStarted := by
  simp only [State.anyStarted, fld_offered_reg (f := F.ANV_INGEST_STATUS_started) hp (by decide) (by decide)]

theorem stepAllowed_offered : (s.offered p off).flag F.TMK_SERVO_CFG_step_allowed = s.flag F.TMK_SERVO_CFG_step_allowed := by
  simp only [State.flag, fld_offered_reg (f := F.TMK_SERVO_CFG_step_allowed) hp (by decide) (by decide)]

theorem foldTime_offered {x : Int} : (s.offered p off).foldTime x = s.foldTime x := by
  have wrap : (s.offered p off).wrap = s.wrap := by
    simp only [State.wrap, State.flag, fld_offered_reg (f := F.TMK_CFG_wrap_mode) hp (by decide) (by decide)]
  simp only [State.foldTime, wrap]

theorem blocksBut_offered : (s.offered p off).blocksBut s [4, 5, 8, 12, 14] :=
  (blocksBut_bump_port hp).trans (t := s.bump 3 17 p)
    ((steers_judgeSpread hp).blocksBut (List.forall_mem_singleton.2 (show Reg.TMK_REFSEL_STATUS / 0x100000 = 4 by decide)))
    (by decide) (by decide)

end
end
end

/-! ## The commands -/

section
variable {p : Nat} {m : PtpMsg}

theorem exec_sync_inRange {st : Nat} (h : -7 ≤ m.log ∧ m.log ≤ 1) : ∃ k, exec (.sync p m st) s = .next (s.ptpTake p m.domain k) := by
  change ∃ k, execSync p m st s = _
  rw [execSync, if_neg (by omega)]
  exact ⟨_, rfl⟩

theorem exec_announce_inRange {a : Announce} (h : -3 ≤ a.log ∧ a.log ≤ 3) :
    ∃ k, exec (.announce p a) s = .next (s.ptpTake p a.domain k) := by
  change ∃ k, execAnnounce p a s = _
  rw [execAnnounce, if_neg (by omega)]
  exact ⟨_, rfl⟩

theorem exec_sync_outOfRange {st : Nat} (h : m.log < -7 ∨ 1 < m.log) : exec (.sync p m st) s =
    .next (if p < 3 ∧ s.servesDomain p m.domain ∧ s.netLink p then
      ((s.bump 3 18 p).modTport p fun t => { t with badSync := true }).reassess else s) := by
  change execSync p m st s = _
  rw [execSync, if_pos h]
  rfl

theorem exec_announce_outOfRange {a : Announce} (h : a.log < -3 ∨ 3 < a.log) : exec (.announce p a) s =
    .next (if p < 3 ∧ s.servesDomain p a.domain ∧ s.netLink p then
      ((s.bump 3 18 p).modTport p fun t => { t with badAnn := true }).reassess else s) := by
  change execAnnounce p a s = _
  rw [execAnnounce, if_pos h]
  rfl

/-- The PTP messages that are received, with the domain that each names. -/
def ptpCommands (p : Nat) (m : PtpMsg) (a : Announce) (st : Nat) : List (Instr × Nat) :=
  [(.sync p m st, m.domain), (.followUp p m, m.domain), (.delayReq p m st, m.domain), (.delayResp p m, m.domain),
   (.announce p a, a.domain)]

variable {a : Announce} {st : Nat} {c : Instr}

/-- Each of them comes to the Timekeeper by `ptpTake`. -/
theorem exec_ptp_taken (hc : (c, m.domain) ∈ ptpCommands p m a st) (hm : -7 ≤ m.log ∧ m.log ≤ 1) (ha : -3 ≤ a.log ∧ a.log ≤ 3) :
    ∃ k, exec c s = .next (s.ptpTake p m.domain k) := by
  simp only [ptpCommands, List.mem_cons, Prod.mk.injEq, and_true, List.not_mem_nil, or_false] at hc
  rcases hc with rfl | rfl | rfl | rfl | ⟨rfl, hd⟩
  · exact exec_sync_inRange hm
  · exact ⟨_, rfl⟩
  · exact ⟨_, rfl⟩
  · exact ⟨_, rfl⟩
  · exact hd ▸ exec_announce_inRange ha

theorem exec_ptp_unserved (hc : (c, m.domain) ∈ ptpCommands p m a st) (h : s.servesDomain p m.domain = false) :
    exec c s = .next s := by
  have unserved {k : State → State} : s.ptpTake p m.domain k = s := ptpTake_unserved h
  simp only [ptpCommands, List.mem_cons, Prod.mk.injEq, and_true, List.not_mem_nil, or_false] at hc
  rcases hc with rfl | rfl | rfl | rfl | ⟨rfl, hd⟩
  · by_cases hm : m.log < -7 ∨ 1 < m.log
    · rw [exec_sync_outOfRange hm]
      simp [h]
    · obtain ⟨k, hk⟩ := exec_sync_inRange (s := s) (p := p) (st := st) (m := m) (by omega)
      rw [hk, unserved]
  · exact congrArg Host.Outcome.next unserved
  · exact congrArg Host.Outcome.next unserved
  · exact congrArg Host.Outcome.next unserved
  · by_cases ha : a.log < -3 ∨ 3 < a.log
    · rw [exec_announce_outOfRange ha]
      simp [← hd, h]
    · obtain ⟨k, hk⟩ := exec_announce_inRange (s := s) (p := p) (a := a) (by omega)
      rw [hk, ← hd, unserved]

/-! ### A message that is dropped and counted (R50) -/

theorem counterRow_ptpDropped : (counterRow 3 18 p).addr = 0x501090 + 0x100 * p := by
  change 0x501000 + 0x100 * p + 8 * 18 = _
  omega

theorem count_dropped (hp : p < 3) : (s.bump 3 18 p).count (0x501090 + 0x100 * p) =
    (s.count (0x501090 + 0x100 * p) + 1) % 2 ^ (counterRow 3 18 p).width := by
  rw [← counterRow_ptpDropped]
  exact count_bump_port (by rw [counterRow_ptpDropped]; omega)

theorem countsBut_dropped : (s.bump 3 18 p).countsBut s [0x501090 + 0x100 * p] := fun c hc hm =>
  count_bump_other (by rw [counterRow_ptpDropped]; simpa using hc) hm

theorem regsBut_bump_port {i n : Nat} : (s.bump 3 i p n).regsBut s [Reg.NET_CNT_HALF p] := counts_bump_port.reg

/-! ### What disqualifies a candidate (R46, R64) -/

theorem candOk_badSync (h : (s.tport p).badSync = true) : s.candOk p = false := by simp [State.candOk, h]
theorem candOk_badAnn (h : (s.tport p).badAnn = true) : s.candOk p = false := by simp [State.candOk, h]

/-- What a judgement leaves, after a message that `i` counts has changed what is known of port `p`. -/
theorem blocksBut_reassess {i : Nat} {v : State} (hp : p < 3) (hv : ∀ a, v.reg a = (s.bump 3 i p).reg a) :
    v.reassess.blocksBut s [4, 5, 8, 12, 14] := by
  have heard : v.blocksBut s [5, 14] := fun a ha => (hv a).trans (blocksBut_bump_port hp a ha)
  exact heard.trans (steers_reassess.blocksBut (by decide)) (by decide) (by decide)

/-! ### A Delay_Req is answered (R44, R45) -/

theorem ptpEmit_clear {profile type seq : Nat} {content : List Int} (h : s.ptpClear p (s.fld F.TMK_PTP_CFG_transport) = true) :
    s.ptpEmit p profile type seq content =
      (((s.bump 3 19 p (ptpLength (s.fld F.TMK_PTP_CFG_transport) type + 4)).bump 3 20 p).bump 3 21 p).emit
        (.ptp p { transport := s.fld F.TMK_PTP_CFG_transport, profile := profile } type seq content) := by
  simp only [State.ptpEmit, h, if_true]

/-- A message sent without protection, after one was taken and wall time has come to its stamp. -/
theorem ptpClear_heard {i x tr : Nat} (hp : p < 3) : ((s.bump 3 i p).reach x).ptpClear p tr = s.ptpClear p tr := by
  have cfg (lo width : Nat) : (s.bump 3 i p).fld ⟨Reg.NET_PORT_CFG p, lo, width⟩ = s.fld ⟨Reg.NET_PORT_CFG p, lo, width⟩ := by
    refine fld_bump_port (show 0x500000 + 4 * p ≠ 0x500060 + 8 * p by omega) ?_ ?_
    · exact show 0x500000 + 4 * p ≠ 0xE08008 by omega
    · exact show 0x500000 + 4 * p ≠ 0xE08010 by omega
  simp only [State.ptpClear, State.macsecOn, State.macsecBypass, State.flag, fld_reach, F.NET_PORT_CFG_macsec_en,
    F.NET_PORT_CFG_ptp_bypass, cfg]

theorem exec_delayReq (hp : p < 3) (he : s.tmkEnabled = true) (hl : s.netLink p = true) (hs : s.stamping p = true)
    (hm : s.masterPort p = true) (hd : m.domain = s.fld (F.TMK_PORT_CFG_m_domain p)) :
    exec (.delayReq p m st) s = .next (((s.bump 3 17 p).reach (s.ingressStamp p st)).ptpEmit p (s.fld (F.TMK_PORT_CFG_m_profile p)) 9
      m.seq [(m.domain : Int), (s.ingressStamp p st : Int), m.corr]) := by
  obtain ⟨-, -, port, -⟩ := port_blocks p hp
  have domain : (s.bump 3 17 p).fld (F.TMK_PORT_CFG_m_domain p) = s.fld (F.TMK_PORT_CFG_m_domain p) := fld_bump_tmk hp port
  have profile : (s.bump 3 17 p).fld (F.TMK_PORT_CFG_m_profile p) = s.fld (F.TMK_PORT_CFG_m_profile p) := fld_bump_tmk hp port
  change execDelayReq p m st s = _
  rw [execDelayReq, ptpTake_stamped hp (servesDomain_master he hm hd) hl hs]
  simp [masterPort_bump hp, hm, domain, hd, profile, ingressStamp_bump hp, done]

/-! ### The messages of the exchange (R55) -/

/-- The Announce `a` has been counted, and stands as the last one of port `p` (R64). -/
def State.announced (s : State) (p : Nat) (a : Announce) : State :=
  (s.bump 3 17 p).modTport p fun t => { t with ann := some a, annOk := true, badAnn := false }

theorem exec_announce_kept (hp : p < 3) (he : s.tmkEnabled = true) (hl : s.netLink p = true) (hs : s.stamping p = true)
    (hc : s.slaveCapable p = true) (hd : a.domain = s.fld F.TMK_PTP_CFG_domain) (h : -3 ≤ a.log ∧ a.log ≤ 3) :
    exec (.announce p a) s = .next (s.announced p a).reassess := by
  change execAnnounce p a s = _
  rw [execAnnounce, if_neg (by omega), ptpTake_stamped hp (servesDomain_own he hd) hl hs]
  simp [State.announced, slaveCapable_bump hp, hc, domain_bump hp, hd, done]

theorem exec_sync_twoStep (hp : p < 3) (he : s.tmkEnabled = true) (hl : s.netLink p = true) (hs : s.stamping p = true)
    (hc : s.slaveCapable p = true) (hd : m.domain = s.fld F.TMK_PTP_CFG_domain) (h : -7 ≤ m.log ∧ m.log ≤ 1) (h2 : m.twoStep = true) :
    exec (.sync p m st) s = .next (((s.bump 3 17 p).reach (s.ingressStamp p st)).modTport p fun t =>
      { t with syncOk := true, badSync := false, wait := some (m.seq, st, m.corr) }).reassess := by
  change execSync p m st s = _
  rw [execSync, if_neg (by omega), ptpTake_stamped hp (servesDomain_own he hd) hl hs]
  simp [slaveCapable_bump hp, hc, domain_bump hp, hd, h2, ingressStamp_bump hp, done]

theorem exec_delayResp {t3 : Nat} (hp : p < 3) (he : s.tmkEnabled = true) (hl : s.netLink p = true) (hs : s.stamping p = true)
    (hc : s.slaveCapable p = true) (hd : m.domain = s.fld F.TMK_PTP_CFG_domain) (hr : (s.tport p).req = some (m.seq, t3)) :
    exec (.delayResp p m) s = .next ((s.bump 3 17 p).modTport p fun t =>
      { t with req := none, t34 := some (t3, m.time, m.corr) }) := by
  change execDelayResp p m s = _
  rw [execDelayResp, ptpTake_stamped hp (servesDomain_own he hd) hl hs]
  simp [slaveCapable_bump hp, hc, domain_bump hp, hd, tport_bump, hr, done]

/-- The offset of R55, as the Follow_Up of a waiting Sync gives it. -/
theorem offsetOf_answered {t1 t2 t3 t4 : Nat} {corr c4 : Int} (hp : p < 3) (hin : p < s.tmk.ports.length) :
    (s.answered p).offsetOf p t2 t1 corr (t3, t4, c4) =
      s.wallDiff (s.ingressStamp p t2) t1 - corr -
        rneI (s.wallDiff (s.ingressStamp p t2) t1 - corr + (s.wallDiff t4 (s.egressStamp p t3) - c4)) 2 -
        s.sfld (F.TMK_CAL_ASYM_value p) := by
  have inside : p < (s.bump 3 17 p).tmk.ports.length := by simpa using hin
  have ing : (s.answered p).ingressStamp p t2 = s.ingressStamp p t2 := by
    rw [State.answered, ingressStamp_modTport inside (by exact fun _ => rfl), ingressStamp_bump hp]
  have egr : (s.answered p).egressStamp p t3 = s.egressStamp p t3 := by
    rw [State.answered, egressStamp_modTport inside (by exact fun _ => rfl), egressStamp_bump hp]
  have asym : (s.answered p).sfld (F.TMK_CAL_ASYM_value p) = s.sfld (F.TMK_CAL_ASYM_value p) := asymmetry_bump hp
  have wrap : (s.answered p).wrap = s.wrap := wrap_bump hp
  have diff (x y : Nat) : (s.answered p).wallDiff x y = s.wallDiff x y := by simp only [State.wallDiff, wrap]
  simp only [State.offsetOf, ing, egr, asym, diff]

/-- A slave-capable port whose Sync waits for this Follow_Up, and whose last Delay_Req exchange is complete: `off` is its offset. -/
structure Completes (s : State) (p : Nat) (m : PtpMsg) (off : Int) : Prop where
  port     : p < 3
  inside   : p < s.tmk.ports.length
  link     : s.netLink p = true
  enabled  : s.tmkEnabled = true
  stamping : s.stamping p = true
  slave    : s.slaveCapable p = true
  domain   : m.domain = s.fld F.TMK_PTP_CFG_domain
  exchange : ∃ (t2 t3 t4 : Nat) (c c4 : Int), (s.tport p).wait = some (m.seq, t2, c) ∧ (s.tport p).t34 = some (t3, t4, c4) ∧
    off = s.wallDiff (s.ingressStamp p t2) m.time - (c + m.corr) -
      rneI (s.wallDiff (s.ingressStamp p t2) m.time - (c + m.corr) + (s.wallDiff t4 (s.egressStamp p t3) - c4)) 2 -
      s.sfld (F.TMK_CAL_ASYM_value p)

namespace Completes
variable {off : Int} (h : Completes s p m off)
include h

theorem exec_followUp (h2 : s.selState ≠ 2) : exec (.followUp p m) s = .next
    (if s.selState = 1 ∧ s.tmk.sel = some p then (s.offered p off).servoUpdate p else s.offered p off) := by
  obtain ⟨t2, t3, t4, c, c4, wait, last, rfl⟩ := h.exchange
  have selState : (s.answered p).selState = s.selState := fld_bump_tmk h.port (by decide)
  have sel : (s.answered p).tmk.sel = s.tmk.sel := by simp [State.answered, State.modTport]
  have answered : ((s.answered p).tport p).t34 = some (t3, t4, c4) := by
    rw [State.answered, tport_modTport_same (by simpa using h.inside), tport_bump, last]
  change execFollowUp p m s = _
  rw [execFollowUp, ptpTake_stamped h.port (servesDomain_own h.enabled h.domain) h.link h.stamping]
  simp only [tport_bump, wait, slaveCapable_bump h.port, h.slave, domain_bump h.port, h.domain, and_self, if_true]
  rw [← State.answered, takeOffset_complete h.port answered (by rwa [selState]), selState, sel, offsetOf_answered h.port h.inside]
  rfl

end Completes
end

/-! ## What each message does -/

section
variable {p st : Nat} {m : PtpMsg} {a : Announce} {c : Instr} (hp : p < 3) (hl : s.netLink p = true)
include hp hl

theorem exec_ptp_dropped (hc : (c, m.domain) ∈ ptpCommands p m a st) (hd : s.servesDomain p m.domain = true)
    (hs : s.stamping p = false) (hm : -7 ≤ m.log ∧ m.log ≤ 1) (ha : -3 ≤ a.log ∧ a.log ≤ 3) :
    exec c s = .next (s.bump 3 18 p) := by
  obtain ⟨k, hk⟩ := exec_ptp_taken (s := s) hc hm ha
  rw [hk, ptpTake_unstamped hp hd hl hs]

theorem sync_disqualifies (hlen : s.tmk.ports.length = 3) (hd : s.servesDomain p m.domain = true) (hm : m.log < -7 ∨ 1 < m.log) :
    ∃ t, exec (.sync p m st) s = .next t ∧ t.candState p = 0 ∧
      t.count (0x501090 + 0x100 * p) = (s.count (0x501090 + 0x100 * p) + 1) % 2 ^ (counterRow 3 18 p).width ∧
      t.blocksBut s [4, 5, 8, 12, 14] ∧ t.mem = s.mem ∧ t.wall = s.wall := by
  refine ⟨((s.bump 3 18 p).modTport p fun t => { t with badSync := true }).reassess, ?_,
    candState_reassess_failed hp (candOk_badSync ?_), ?_, blocksBut_reassess hp fun _ => rfl,
    steers_reassess.mem.trans State.bump_mem, steers_reassess.wall.trans State.bump_wall⟩
  · rw [exec_sync_outOfRange hm, if_pos ⟨hp, hd, hl⟩]
  · rw [tport_modTport_same (by simp [hlen, hp])]
  · exact (steers_reassess.count _ (by omega)).trans (count_dropped hp)

theorem announce_disqualifies (hlen : s.tmk.ports.length = 3) (hd : s.servesDomain p a.domain = true) (ha : a.log < -3 ∨ 3 < a.log) :
    ∃ t, exec (.announce p a) s = .next t ∧ t.candState p = 0 ∧ t.blocksBut s [4, 5, 8, 12, 14] ∧ t.mem = s.mem ∧ t.wall = s.wall := by
  refine ⟨((s.bump 3 18 p).modTport p fun t => { t with badAnn := true }).reassess, ?_,
    candState_reassess_failed hp (candOk_badAnn ?_), blocksBut_reassess hp fun _ => rfl,
    steers_reassess.mem.trans State.bump_mem, steers_reassess.wall.trans State.bump_wall⟩
  · rw [exec_announce_outOfRange ha, if_pos ⟨hp, hd, hl⟩]
  · rw [tport_modTport_same (by simp [hlen, hp])]

section
variable (he : s.tmkEnabled = true) (hs : s.stamping p = true)
include he hs

theorem delayReq_answered (hm : s.masterPort p = true) (hd : m.domain = s.fld (F.TMK_PORT_CFG_m_domain p))
    (hc : s.ptpClear p (s.fld F.TMK_PTP_CFG_transport) = true) :
    ∃ t, exec (.delayReq p m st) s = .next t ∧
      t.out = s.out ++ [.ptp p { transport := s.fld F.TMK_PTP_CFG_transport, profile := s.fld (F.TMK_PORT_CFG_m_profile p) }
        9 m.seq [(m.domain : Int), (s.ingressStamp p st : Int), m.corr]] ∧
      t.wall = (s.reach (s.ingressStamp p st)).wall ∧ t.tmk = s.tmk ∧ t.mem = s.mem ∧ t.regsBut s [Reg.NET_CNT_HALF p] := by
  have transport : ((s.bump 3 17 p).reach (s.ingressStamp p st)).fld F.TMK_PTP_CFG_transport = s.fld F.TMK_PTP_CFG_transport := by
    rw [fld_reach, fld_bump_tmk hp (by decide)]
  have clear : ((s.bump 3 17 p).reach (s.ingressStamp p st)).ptpClear p
      (((s.bump 3 17 p).reach (s.ingressStamp p st)).fld F.TMK_PTP_CFG_transport) = true := by
    rw [transport, ptpClear_heard hp, hc]
  refine ⟨_, exec_delayReq hp he hl hs hm hd, ?_⟩
  rw [ptpEmit_clear clear, transport]
  refine ⟨?_, ?_, ?_, ?_, fun b hb lo hi => ?_⟩
  · simp [State.emit, out_reach]
  · rw [← wall_reach_bump (s := s) (i := 17) (n := 1) hp]
    simp
  · simp [tmk_reach]
  · simp [mem_reach]
  · change (((((s.bump 3 17 p).reach _).bump 3 19 p _).bump 3 20 p).bump 3 21 p).reg b = _
    rw [regsBut_bump_port b hb lo hi, regsBut_bump_port b hb lo hi, regsBut_bump_port b hb lo hi, reg_reach,
      regsBut_bump_port b hb lo hi]

variable (hlen : s.tmk.ports.length = 3) (hc : s.slaveCapable p = true)
include hlen hc

theorem announce_kept (hd : a.domain = s.fld F.TMK_PTP_CFG_domain) (ha : -3 ≤ a.log ∧ a.log ≤ 3) :
    ∃ t, exec (.announce p a) s = .next t ∧ (t.tport p).ann = some a ∧ (t.tport p).annOk = true ∧
      (s.candState p = 0 → (s.tport p).syncOk = true → (s.tport p).badSync = false → t.candState p = 1) ∧
      t.blocksBut s [4, 5, 8, 12, 14] ∧ t.mem = s.mem ∧ t.wall = s.wall := by
  have known : (s.announced p a).tport p = { s.tport p with ann := some a, annOk := true, badAnn := false } := by
    rw [State.announced, tport_modTport_same (by simp [hlen, hp]), tport_bump]
  refine ⟨_, exec_announce_kept hp he hl hs hc hd ha, ?_, ?_, fun h0 hsync hbad => candState_reassess_holds hp ?_ ?_,
    blocksBut_reassess hp fun _ => rfl, steers_reassess.mem.trans State.bump_mem, steers_reassess.wall.trans State.bump_wall⟩
  · rw [steers_reassess.tport, known]
  · rw [steers_reassess.tport, known]
  · have enabled : (s.announced p a).tmkEnabled = s.tmkEnabled :=
      congrArg (· != 0) (fld_bump_tmk (f := F.TMK_CFG_enable) hp (by decide))
    have slave : (s.announced p a).slaveCapable p = s.slaveCapable p := slaveCapable_bump hp
    have stamps : (s.announced p a).stamping p = s.stamping p := stamping_bump hp
    simp [State.candOk, known, enabled, slave, stamps, he, hc, hs, hsync, hbad]
  · exact (candState_bump hp).trans h0

theorem sync_waits (hd : m.domain = s.fld F.TMK_PTP_CFG_domain) (hm : -7 ≤ m.log ∧ m.log ≤ 1) (h2 : m.twoStep = true) :
    ∃ t, exec (.sync p m st) s = .next t ∧ (t.tport p).wait = some (m.seq, st, m.corr) ∧ (t.tport p).syncOk = true ∧
      (∀ q, q ≠ p → t.tport q = s.tport q) ∧ t.wall = (s.reach (s.ingressStamp p st)).wall ∧
      t.blocksBut s [4, 5, 8, 12, 14] ∧ t.mem = s.mem := by
  have ports : ((s.bump 3 17 p).reach (s.ingressStamp p st)).tport = s.tport := by
    funext q
    rw [State.tport, tmk_reach, ← State.tport, tport_bump]
  have known : (((s.bump 3 17 p).reach (s.ingressStamp p st)).modTport p fun t =>
      { t with syncOk := true, badSync := false, wait := some (m.seq, st, m.corr) }).tport p =
      { s.tport p with syncOk := true, badSync := false, wait := some (m.seq, st, m.corr) } := by
    rw [tport_modTport_same (by simp [tmk_reach, hlen, hp]), ports]
  refine ⟨_, exec_sync_twoStep hp he hl hs hc hd hm h2, ?_, ?_, fun q hq => ?_, ?_, blocksBut_reassess hp fun _ => reg_reach, ?_⟩
  · rw [steers_reassess.tport, known]
  · rw [steers_reassess.tport, known]
  · rw [steers_reassess.tport, tport_modTport_other hq, ports]
  · exact steers_reassess.wall.trans (wall_reach_bump hp)
  · exact steers_reassess.mem.trans (mem_reach.trans State.bump_mem)

theorem delayResp_completes {t3 : Nat} (hd : m.domain = s.fld F.TMK_PTP_CFG_domain) (hr : (s.tport p).req = some (m.seq, t3)) :
    ∃ t, exec (.delayResp p m) s = .next t ∧ (t.tport p).req = none ∧ (t.tport p).t34 = some (t3, m.time, m.corr) ∧
      (∀ q, q ≠ p → t.tport q = s.tport q) ∧ t.wall = s.wall ∧ t.mem = s.mem ∧ t.regsBut s [Reg.NET_CNT_HALF p] := by
  have inside : p < (s.bump 3 17 p).tmk.ports.length := by simp [hlen, hp]
  refine ⟨_, exec_delayResp hp he hl hs hc hd hr, ?_, ?_, fun q hq => ?_, State.bump_wall, State.bump_mem, regsBut_bump_port⟩
  · rw [tport_modTport_same inside]
  · rw [tport_modTport_same inside]
  · rw [tport_modTport_other hq, tport_bump]

end
end

/-! ### The Follow_Up, and the servo -/

theorem offsetFar_near {off : Int} (h : off.natAbs < 65536 * 2 ^ s.fld F.TMK_SERVO_CFG_step_log2) : s.offsetFar off = false := by
  have near : ¬ s.stepFar < off.natAbs := Nat.not_lt.2 h.le
  simp [State.offsetFar, near]

theorem offsetFar_slewed {off : Int} (h : s.pll.noStep = true) : s.offsetFar off = false := by simp [State.offsetFar, h]

theorem offsetFar_locked {off : Int} (h : s.servo = 3) : s.offsetFar off = false := by simp [State.offsetFar, h]

theorem offsetFar_far {off : Int} (hs : s.servo = 1 ∨ s.servo = 2) (h : 65536 * 2 ^ s.fld F.TMK_SERVO_CFG_step_log2 < off.natAbs)
    (hn : s.pll.noStep = false) : s.offsetFar off = true := by
  have far : s.stepFar < off.natAbs := h
  rcases hs with hs | hs <;> simp [State.offsetFar, hs, far, hn]

namespace Completes
variable {p : Nat} {m : PtpMsg} {off : Int} (h : Completes s p m off)
include h

theorem followUp_unselected (hsel : s.tmk.sel ≠ some p) (h2 : s.selState ≠ 2) :
    ∃ t, exec (.followUp p m) s = .next t ∧ (t.tport p).offsets = (off :: (s.tport p).offsets).take 16 ∧ (t.tport p).wait = none ∧
      (∀ q, q ≠ p → t.tport q = s.tport q) ∧ t.wall = s.wall ∧ t.mem = s.mem ∧
      t.regsBut s [Reg.NET_CNT_HALF p, Reg.TMK_REFSEL_STATUS] := by
  refine ⟨s.offered p off, ?_, ?_, ?_, fun q hq => tport_offered_other hq, wall_offered h.port, mem_offered h.port, regsBut_offered⟩
  · rw [h.exec_followUp h2, if_neg fun k => hsel k.2]
  · rw [tport_offered_same h.inside]
  · rw [tport_offered_same h.inside]

theorem unstepped (hs : s.stays off) : Unstepped (s.offered p off) p off ((s.tport p).offsets.take 15) where
  offsets := by rw [tport_offered_same h.inside]; rfl
  stays := by rwa [State.stays, offsetFar_offered h.port, anyStarted_offered h.port, stepAllowed_offered h.port]

theorem stepped (hf : s.offsetFar off = true) (ha : s.anyStarted = false) (hg : s.grid = none) :
    Stepped (s.offered p off) p off ((s.tport p).offsets.take 15) where
  offsets := by rw [tport_offered_same h.inside]; rfl
  far := by rwa [offsetFar_offered h.port]
  idle := by rwa [anyStarted_offered h.port]
  grid := by rwa [grid_offered]

theorem followUp_selected (hsel : s.tmk.sel = some p) (h1 : s.selState = 1) :
    exec (.followUp p m) s = .next ((s.offered p off).servoUpdate p) := by
  rw [h.exec_followUp (by omega), if_pos ⟨h1, hsel⟩]

/-- Where nothing is stepped, wall time and the memory stay. -/
theorem frame (hs : s.stays off) : ((s.offered p off).servoUpdate p).wall = s.wall ∧
    ((s.offered p off).servoUpdate p).mem = s.mem ∧ ((s.offered p off).servoUpdate p).blocksBut s [4, 5, 8, 12, 14] :=
  have steers := (h.unstepped hs).steers
  ⟨steers.wall.trans (wall_offered h.port), steers.mem.trans (mem_offered h.port),
    (blocksBut_offered h.port).trans (steers.blocksBut (by decide)) (by decide) (by decide)⟩

/-- In PULL and LOCKED, and in ACQUIRE where the offset is too far, the offset is left to slewing (R61, R62). -/
theorem slew (hs : s.stays off)
    (hv : s.servo = 2 ∨ s.servo = 3 ∨ (s.servo = 1 ∧ 65536 * 2 ^ s.fld F.TMK_SERVO_CFG_step_log2 < off.natAbs)) :
    ((s.offered p off).servoUpdate p).pll.slew = off := by
  rw [(h.unstepped hs).slew, servo_offered h.port, stepFar_offered h.port]
  exact if_pos hv

variable (hsel : s.tmk.sel = some p) (h1 : s.selState = 1)
include hsel h1

theorem followUp_locked (hv : s.servo = 3) : ∃ t, exec (.followUp p m) s = .next t ∧
    t.reg Reg.TMK_OFFSET = BitVec.ofInt 32 (satS 32 (Config.filteredOffset ((off :: (s.tport p).offsets).take 16))) ∧
    t.servo = (if 327680 < (Config.filteredOffset ((off :: (s.tport p).offsets).take 16)).natAbs ∧ 7 ≤ s.tmk.exceeds then 2 else 3) ∧
    t.pll.slew = off ∧ t.wall = s.wall ∧ t.mem = s.mem ∧ t.blocksBut s [4, 5, 8, 12, 14] := by
  have hs : s.stays off := .inl (offsetFar_locked hv)
  have servo := (h.unstepped hs).servo_locked ((servo_offered h.port).trans hv)
  rw [exceeds_offered] at servo
  exact ⟨_, h.followUp_selected hsel h1, (h.unstepped hs).offset, servo, h.slew hs (.inr (.inl hv)), h.frame hs⟩

theorem followUp_pull (hv : s.servo = 2) (hn : off.natAbs < 65536 * 2 ^ s.fld F.TMK_SERVO_CFG_step_log2) :
    ∃ t, exec (.followUp p m) s = .next t ∧
      t.servo = (if (Config.filteredOffset ((off :: (s.tport p).offsets).take 16)).natAbs ≤ 32768 ∧
        s.tmk.pullSince.getD s.clock + 2000000000 ≤ s.clock then 3 else 2) ∧
      t.pll.slew = off ∧ t.wall = s.wall ∧ t.mem = s.mem ∧ t.blocksBut s [4, 5, 8, 12, 14] := by
  have hs : s.stays off := .inl (offsetFar_near hn)
  have servo := (h.unstepped hs).servo_pull ((servo_offered h.port).trans hv)
  rw [pullSince_offered, clock_offered h.port] at servo
  exact ⟨_, h.followUp_selected hsel h1, servo, h.slew hs (.inl hv), h.frame hs⟩

theorem followUp_acquire (hv : s.servo = 1) (hn : off.natAbs < 65536 * 2 ^ s.fld F.TMK_SERVO_CFG_step_log2) :
    ∃ t, exec (.followUp p m) s = .next t ∧
      t.servo = (if 15 ≤ s.tmk.updates ∧ Config.freqError ((off :: (s.tport p).offsets).take 16) < 50000 then 2 else 1) ∧
      t.wall = s.wall ∧ t.mem = s.mem ∧ t.blocksBut s [4, 5, 8, 12, 14] := by
  have hs : s.stays off := .inl (offsetFar_near hn)
  have servo := (h.unstepped hs).servo_acquire ((servo_offered h.port).trans hv)
  rw [updates_offered] at servo
  exact ⟨_, h.followUp_selected hsel h1, servo, h.frame hs⟩

section
variable (hv : s.servo = 1 ∨ s.servo = 2) (hfar : 65536 * 2 ^ s.fld F.TMK_SERVO_CFG_step_log2 < off.natAbs)
include hv hfar

theorem followUp_slewed (hn : s.pll.noStep = true) : ∃ t, exec (.followUp p m) s = .next t ∧
    t.wall = s.wall ∧ t.pll.slew = off ∧ t.mem = s.mem ∧ t.blocksBut s [4, 5, 8, 12, 14] := by
  have hs : s.stays off := .inl (offsetFar_slewed hn)
  obtain ⟨wall, mem, blocks⟩ := h.frame hs
  exact ⟨_, h.followUp_selected hsel h1, wall, h.slew hs (by omega), mem, blocks⟩

theorem followUp_stepped (hn : s.pll.noStep = false) (ha : s.anyStarted = false) (hg : s.grid = none) :
    ∃ t, exec (.followUp p m) s = .next t ∧ t.wall = s.foldTime ((s.wall : Int) - off) ∧
      t.flag F.TMK_STATUS_step_pending = false ∧ t.flag F.ANV_INGEST_INT_STAT_step = true ∧ t.mem = s.mem ∧
      t.blocksBut s [4, 5, 6, 8, 12, 14] := by
  have step := h.stepped (offsetFar_far hv hfar hn) ha hg
  refine ⟨_, h.followUp_selected hsel h1, ?_, step.pending, step.flagged, step.mem.trans (mem_offered h.port),
    (blocksBut_offered h.port).trans step.blocksBut (by decide) (by decide)⟩
  rw [step.wall, wall_offered h.port, foldTime_offered h.port]

theorem followUp_waits (hn : s.pll.noStep = false) (ha : s.anyStarted = true) (hs : s.flag F.TMK_SERVO_CFG_step_allowed = false) :
    ∃ t, exec (.followUp p m) s = .next t ∧ t.wall = s.wall ∧ t.pll.slew = off ∧ t.flag F.TMK_STATUS_step_pending = true ∧
      t.flag F.TMK_INT_STAT_step_needed = true ∧ t.mem = s.mem ∧ t.blocksBut s [4, 5, 8, 12, 14] := by
  have stays : s.stays off := .inr ⟨ha, hs⟩
  obtain ⟨wall, mem, blocks⟩ := h.frame stays
  obtain ⟨pending, needed⟩ := flags_servoUpdate_waits (h.unstepped stays).offsets
    ((offsetFar_offered h.port).trans (offsetFar_far hv hfar hn)) ((anyStarted_offered h.port).trans ha)
    ((stepAllowed_offered h.port).trans hs)
  exact ⟨_, h.followUp_selected hsel h1, wall, h.slew stays (by omega), pending, needed, mem, blocks⟩

end
end Completes

end

/-! ## The statement -/

/-- Settles O39: the messages one by one, then a Follow_Up that completes an exchange, in each state of the servo. -/
theorem ptpMessagesReachTheServo : Obligations.PtpMessagesReachTheServo := by
  intro p s hp hlen hl
  refine ⟨fun m a st c hc => ⟨fun hd => exec_ptp_unserved hc hd, fun hd hs hm ha => ?_⟩,
    fun m st hd hm => sync_disqualifies hp hl hlen hd hm, fun a hd ha => announce_disqualifies hp hl hlen hd ha,
    fun he hs => ⟨fun m st hm hd hc => delayReq_answered hp hl he hs hm hd hc, fun hc => ⟨?announce, ?exchange⟩⟩⟩
  · exact ⟨_, exec_ptp_dropped hp hl hc hd hs hm ha, count_dropped hp, countsBut_dropped, regsBut_bump_port, rest_bump⟩
  case announce => exact fun a hd lo hi => announce_kept hp hl he hs hlen hc hd ⟨lo, hi⟩
  case exchange =>
    intro m st hd
    refine ⟨fun lo hi h2 => sync_waits hp hl he hs hlen hc hd ⟨lo, hi⟩ h2,
      fun t3 hr => delayResp_completes hp hl he hs hlen hc hd hr, fun t2 t3 t4 c c4 d12 d34 off hw hx h12 h34 hoff => ?_⟩
    have complete : Completes s p m off :=
      ⟨hp, by omega, hl, he, hs, hc, hd, t2, t3, t4, c, c4, hw, hx, by rw [hoff, h34, h12, ← Int.sub_sub _ c]⟩
    exact ⟨complete.followUp_unselected, fun hsel h1 =>
      ⟨complete.followUp_locked hsel h1, complete.followUp_pull hsel h1, complete.followUp_acquire hsel h1, fun hv hfar =>
        ⟨complete.followUp_slewed hsel h1 hv hfar, complete.followUp_stepped hsel h1 hv hfar,
          complete.followUp_waits hsel h1 hv hfar⟩⟩⟩

end Sys2Proof.Machine
end

section
/-! Refutation of the statement on links and received frames (R84, R87). A link that comes up has the Timekeeper look at its references
again (`execLinkUp`), and what it finds may put the servo into HOLDOVER: synchronisation with the twin is then judged again (R277), which
writes TWN_SYNC_WHY, in a block that the statement says LINK_UP leaves. First what a holdover tells the Recorder, which touches no register
of TWN; then what becomes of TWN_SYNC_WHY; at last the state. -/

namespace Sys2Proof.Machine

variable {s t : State} {bs : List Nat}

/-! ## Registers of few blocks -/

section
variable (h : t.blocksBut s bs)
include h

theorem State.blocksBut.setReg {a : Nat} {w : Word} (ha : a / 0x100000 ∈ bs) : (t.setReg a w).blocksBut s bs :=
  fun b hb => (reg_setReg_other (by rintro rfl; exact hb ha)).trans (h b hb)

theorem State.blocksBut.setFld {f : Field} {v : Nat} (hf : f.addr / 0x100000 ∈ bs) : (t.setFld f v).blocksBut s bs := h.setReg hf
theorem State.blocksBut.raise {f : Field} (hf : f.addr / 0x100000 ∈ bs) : (t.raise f).blocksBut s bs := h.setFld hf
theorem State.blocksBut.lower {f : Field} (hf : f.addr / 0x100000 ∈ bs) : (t.lower f).blocksBut s bs := h.setFld hf

theorem State.blocksBut.life {i n : Nat} : (t.life i n).blocksBut s bs := fun a ha => reg_life.trans (h a ha)

theorem State.blocksBut.bump {src i inst n : Nat} (h3 : src ≠ 3) (h4 : src ≠ 4) (hb : 14 ∈ bs) :
    (t.bump src i inst n).blocksBut s bs :=
  fun a ha => (reg_bump h3 h4 (by rintro rfl; exact ha hb) (by rintro rfl; exact ha hb)).trans (h a ha)

end

theorem State.blocksBut.refl : s.blocksBut s bs := fun _ _ => rfl

theorem State.blocksBut.role (h : t.blocksBut s bs) (hb : 8 ∉ bs) : t.role = s.role := by
  simp only [State.role, State.fld, State.regN, h F.TWN_STATUS_role.addr hb]

/-! ## What the Recorder and the Keystore are told -/

section
variable (h : t.blocksBut s [4, 12, 14])
include h

theorem blocksBut_keyRequest {r slot : Nat} {types needs : List Nat} :
    (t.keyRequest r slot types needs).2.blocksBut s [4, 12, 14] := by
  unfold State.keyRequest
  dsimp only
  split
  · exact h.life
  · split
    · exact h.bump (by decide) (by decide) (by decide)
    · exact ((h.life.bump (by decide) (by decide) (by decide)).raise (by decide)).setReg (by decide)

theorem blocksBut_flushBegin {pass : Nat} : (t.flushBegin pass).blocksBut s [4, 12, 14] := by
  have request : (if t.fld F.REC_CFG_seal_slot = 0 then (KeyAnswer.refused, t)
      else t.keyRequest 5 (t.fld F.REC_CFG_seal_slot) [4] [13, 17]).2.blocksBut s [4, 12, 14] := by
    split
    · exact h
    · exact blocksBut_keyRequest h
  unfold State.flushBegin
  dsimp only
  refine ((((State.blocksBut.setFld ?_ (by decide)).setFld (by decide)).lower (by decide)).raise (by decide))
  generalize (if t.fld F.REC_CFG_seal_slot = 0 then (KeyAnswer.refused, t)
      else t.keyRequest 5 (t.fld F.REC_CFG_seal_slot) [4] [13, 17]) = answer at request ⊢
  split_ifs
  · exact (request.bump (by decide) (by decide) (by decide)).raise (by decide)
  · exact request

theorem blocksBut_flushTrigger : t.flushTrigger.blocksBut s [4, 12, 14] := by
  unfold State.flushTrigger
  split
  · exact h
  · split
    · exact h
    · exact blocksBut_flushBegin h

theorem blocksBut_flushSoon : t.flushSoon.blocksBut s [4, 12, 14] := by
  unfold State.flushSoon
  split
  · split
    · exact h
    · exact blocksBut_flushTrigger h
  · exact blocksBut_flushTrigger h

theorem blocksBut_refEvent {event : Nat} : (t.refEvent event).blocksBut s [4, 12, 14] := by
  unfold State.refEvent State.faultEntry
  split
  · exact h
  · split
    · exact (h.life.bump (by decide) (by decide) (by decide)).raise (by decide)
    · have entered {u : State} {n : Nat} (hu : u.blocksBut s [4, 12, 14]) :
          ((u.bump 17 2).setFld F.REC_STATUS_detail_count n).blocksBut s [4, 12, 14] :=
        (hu.bump (by decide) (by decide) (by decide)).setFld (by decide)
      dsimp only
      split
      · exact blocksBut_flushTrigger (entered h)
      · exact entered h

theorem blocksBut_judgeDisc : t.judgeDisc.blocksBut s [4, 12, 14] := by
  unfold State.judgeDisc
  split <;> exact h

theorem blocksBut_showStatus : t.showStatus.blocksBut s [4, 12, 14] := by
  have flagged (c : Prop) [Decidable c] : (if c then t.raise F.TMK_INT_STAT_beyond_hops else t).blocksBut s [4, 12, 14] := by
    split
    · exact h.raise (by decide)
    · exact h
  exact (((((flagged _).setFld (by decide)).setFld (by decide)).setFld (by decide)).setFld (by decide)).setFld (by decide)

end

/-! ## TWN_SYNC_WHY -/

/-- A servo that is not LOCKED is one of the reasons (R277). -/
theorem syncWhy_unlocked (h : s.servo ≠ 3) : s.syncWhy.testBit 2 = true := by
  have bit (b : Bool) : b2n b ≤ 1 := by cases b <;> decide
  have unlocked : (s.fld F.TMK_STATUS_servo_state != 3) = true := bne_iff_ne.2 h
  rw [Nat.testBit_eq_decide_div_mod_eq, decide_eq_true_eq]
  simp only [State.syncWhy, unlocked, Bool.true_or, show b2n true = 1 from rfl]
  have first := bit (!s.linkUp)
  have second := bit ((s.twn.peer.getD {}).role != 2 || (s.twn.peer.getD {}).health != 0)
  omega

theorem reg_judgeSync (h : s.role ≠ 0) : s.judgeSync.reg Reg.TWN_SYNC_WHY = BitVec.ofNat 32 s.syncWhy := by
  have shown {v : Nat} : ((s.setReg Reg.TWN_SYNC_WHY (BitVec.ofNat 32 s.syncWhy)).setFld F.TWN_STATUS_synced v).reg
      Reg.TWN_SYNC_WHY = BitVec.ofNat 32 s.syncWhy := (reg_setFld_other (by decide)).trans reg_setReg_same
  unfold State.judgeSync
  rw [if_neg h]
  dsimp only
  split
  · exact (reg_setFld_other (by decide)).trans shown
  · split
    · exact (reg_setFld_other (by decide)).trans shown
    · exact shown

theorem blocksBut_pllEnter {v : Nat} : (s.pllEnter v).blocksBut s [4, 12, 14] := by
  unfold State.pllEnter
  split <;> exact State.blocksBut.refl

/-- A new state of the servo ends with synchronisation judged again, and until then no register of TWN is touched. -/
theorem servoEntered_judged {was v : Nat} : ∃ u : State, s.servoEntered was v = u.judgeSync ∧ u.blocksBut s [4, 12, 14] := by
  unfold State.servoEntered
  dsimp only
  refine ⟨_, rfl, blocksBut_judgeDisc ?_⟩
  have gained {k : Tmk → Tmk} : (if v = 3 then ((s.pllEnter v).modTmk k).raise F.TMK_INT_STAT_lock_gained
      else (s.pllEnter v).modTmk k).blocksBut s [4, 12, 14] := by
    split
    · exact State.blocksBut.raise blocksBut_pllEnter (by decide)
    · exact blocksBut_pllEnter
  split
  · exact blocksBut_refEvent (gained.raise (by decide)).life
  · exact gained

/-- A servo of one of a pair that leaves its state for another than LOCKED shows it in TWN_SYNC_WHY. -/
theorem syncWhy_setServo {v : Nat} (hr : s.role ≠ 0) (hs : s.servo ≠ v) (hv : v < 8) (h3 : v ≠ 3) :
    ((s.setServo v).reg Reg.TWN_SYNC_WHY).getLsbD 2 = true := by
  have servo : (s.setServo v).servo = v := servo_setServo hv
  have left : (s.holdLeft.setFld F.TMK_STATUS_servo_state v).blocksBut s [4, 12, 14] := by
    unfold State.holdLeft
    split
    · exact State.blocksBut.setFld (fun a ha => reg_extreme.trans (State.blocksBut.refl.setReg (by decide) a ha)) (by decide)
    · exact State.blocksBut.refl.setFld (by decide)
  obtain ⟨u, hu, kept⟩ := servoEntered_judged (s := s.holdLeft.setFld F.TMK_STATUS_servo_state v) (was := s.servo) (v := v)
  have role : u.role = s.role := (kept.role (by decide)).trans (left.role (by decide))
  have judged : s.setServo v = u.judgeSync := by rw [setServo_eq, if_neg hs, hu]
  have unlocked : u.servo ≠ 3 := by
    rwa [← show u.judgeSync.servo = u.servo from Told.refl.judgeSync.fld (by decide), ← judged, servo]
  rw [judged, reg_judgeSync (by rwa [role]), BitVec.getLsbD_ofNat, syncWhy_unlocked unlocked]
  rfl

/-! ## Holdover -/

/-- Holdover has begun: no reference is selected (R67). -/
def State.holdoverBegun (s : State) : State :=
  (((s.unselect.modTmk fun t => { t with sel := none, target := none, lost := none, lostGood := 0 }).setSel 3).raise
    F.TMK_INT_STAT_holdover).life 39

theorem enterHoldover_eq : s.enterHoldover = (((if 1 ≤ s.holdoverBegun.servo ∧ s.holdoverBegun.servo ≤ 3 then
    s.holdoverBegun.setServo 4 else s.holdoverBegun).showStatus).refEvent 0).flushSoon := rfl

theorem syncWhy_enterHoldover (hr : s.holdoverBegun.role ≠ 0) (hs : 1 ≤ s.holdoverBegun.servo ∧ s.holdoverBegun.servo ≤ 3) :
    (s.enterHoldover.reg Reg.TWN_SYNC_WHY).getLsbD 2 = true := by
  have told : s.enterHoldover.blocksBut (s.holdoverBegun.setServo 4) [4, 12, 14] := by
    rw [enterHoldover_eq, if_pos hs]
    exact blocksBut_flushSoon (blocksBut_refEvent (blocksBut_showStatus State.blocksBut.refl))
  rw [told _ (by decide)]
  exact syncWhy_setServo hr (by omega) (by decide) (by decide)

/-- Forcing a port that is not qualified ends a bridge in holdover (R66). -/
theorem select_forced {q : Nat} (he : s.tmkEnabled = true) (h2 : s.selState = 2) (ht : s.tmk.target = some q)
    (hf : s.forcedHold = true) : s.select = s.enterHoldover.showStatus := by
  simp [State.select, he, h2, ht, State.selectBridge, hf]

theorem syncWhy_select_forced {q : Nat} (he : s.tmkEnabled = true) (h2 : s.selState = 2) (ht : s.tmk.target = some q)
    (hf : s.forcedHold = true) (hr : s.holdoverBegun.role ≠ 0) (hs : 1 ≤ s.holdoverBegun.servo ∧ s.holdoverBegun.servo ≤ 3) :
    (s.select.reg Reg.TWN_SYNC_WHY).getLsbD 2 = true := by
  rw [select_forced he h2 ht hf, blocksBut_showStatus State.blocksBut.refl _ (by decide)]
  exact syncWhy_enterHoldover hr hs

/-! ## The state -/

/-- The active of a pair, its servo LOCKED, bridges from U0 to U1, which is forced. The offsets of U1 have spread since: a Follow_Up has
made it QUALIFYING again (R64), after which the references are not looked at before the next event that has them judged. M0 is enabled,
and its link is down. TWN_SYNC_WHY does not name the servo. -/
def spreadInBridge : State :=
  let links := ((State.reset.setReg Reg.BLW_DOM_ON 0x3FFFFFFF).setReg Reg.NET_PORT_STATUS 0x55).raise (F.NET_PORT_CFG_enable 2)
  let slaves := ((links.raise F.TMK_CFG_enable).setFld (F.TMK_PORT_CFG_role 0) 1).setFld (F.TMK_PORT_CFG_role 1) 1
  let bridge := (((slaves.setFld F.TMK_REFSEL_CFG_force 2).setSel 2).setCand 0 3).setCand 1 1
  let locked := (bridge.setFld F.TMK_STATUS_servo_state 3).modTmk fun t => { t with
    sel := some 0, target := some 1, ports := t.ports.map fun p => { p with annOk := true, syncOk := true } }
  ((locked.setFld F.TWN_STATUS_role 2).modTwn fun t => { t with peer := some { servo := 3 } }).setReg Reg.TWN_SYNC_WHY 0x13

/-- The same with the link of M0 up and its candidates judged. -/
def spreadJudged : State :=
  ((((spreadInBridge.raise ⟨Reg.NET_PORT_STATUS, 8, 1⟩).raise (linkFlag 2)).judgeCand 0).judgeCand 1).judgeCand 2

theorem linkUp_spreadInBridge : exec (.linkUp 2) spreadInBridge = .next spreadJudged.select := by
  change execLinkUp 2 spreadInBridge = _
  rw [execLinkUp, if_pos (by decide +kernel)]
  rfl

theorem syncWhy_linkUp : (spreadJudged.select.reg Reg.TWN_SYNC_WHY).getLsbD 2 = true :=
  syncWhy_select_forced (q := 1) (by decide +kernel) (by decide +kernel) (by decide +kernel) (by decide +kernel)
    (by decide +kernel) (by decide +kernel)

/-- Refutes O41: LINK_UP of M0 ends a bridge to a forced port whose offsets have spread, and with it changes TWN_SYNC_WHY, a register
of the twin's block 8, outside the blocks 4, 5, 12 and 14. -/
theorem not_framesAreCheckedInOrder : ¬ Obligations.FramesAreCheckedInOrder := by
  rintro ⟨link, -⟩
  obtain ⟨t, ht, -, -, -, -, -, -, kept⟩ := (link 2 spreadInBridge (by decide)).1
    (by decide +kernel) (by decide +kernel) (by decide +kernel)
  rw [linkUp_spreadInBridge] at ht
  obtain rfl : spreadJudged.select = t := Host.Outcome.next.inj ht
  have shown := syncWhy_linkUp
  rw [kept Reg.TWN_SYNC_WHY (by decide)] at shown
  exact absurd shown (by decide +kernel)

end Sys2Proof.Machine
end

section
/-! What accesses to memory, the records of the Recorder and the frames to the twin leave as they were (`Serves`): the canvas, the streams
and the rest of the Anvil's state, wall time, the started streams, the bytes that no access writes, and the registers of all blocks but a
few. Then what the commands of ring 0x60 have in common. -/

namespace Sys2Proof.Machine

/-! ## What is left as it was -/

/-- What operations that lead from `s` to `t` have left as it was: every register outside the blocks `bs`, and every byte of memory
outside `W`. -/
structure Serves (bs : List Nat) (W : Nat → Prop) (s t : State) : Prop where
  reg     : t.blocksBut s bs
  started : t.fld F.ANV_INGEST_STATUS_started = s.fld F.ANV_INGEST_STATUS_started
  anv     : t.anv = s.anv
  wall    : t.wall = s.wall
  byte    : ∀ a, ¬ W a → t.mem.byte a = s.mem.byte a
  tcm     : t.mem.tcm = s.mem.tcm

section
variable {bs : List Nat} {W : Nat → Prop} {s t u : State}

theorem Serves.refl : Serves bs W s s := ⟨fun _ _ => rfl, rfl, rfl, rfl, fun _ _ => rfl, rfl⟩

theorem Serves.trans (h : Serves bs W s t) (k : Serves bs W t u) : Serves bs W s u :=
  ⟨fun a ha => (k.reg a ha).trans (h.reg a ha), k.started.trans h.started, k.anv.trans h.anv, k.wall.trans h.wall,
    fun a ha => (k.byte a ha).trans (h.byte a ha), k.tcm.trans h.tcm⟩

theorem Serves.bytesKept (h : Serves bs (fun _ => False) s t) : t.bytesKept s := ⟨fun a => h.byte a id, h.tcm⟩

theorem Serves.anyStarted (h : Serves bs W s t) : t.anyStarted = s.anyStarted := by simp only [State.anyStarted, h.started]

theorem Serves.foldl {α : Type} {l : List α} {k : State → α → State} (h : Serves bs W s t)
    (hk : ∀ u, ∀ a ∈ l, Serves bs W s u → Serves bs W s (k u a)) : Serves bs W s (l.foldl k t) :=
  List.foldlRecOn (motive := Serves bs W s) l k h fun u hu a ha => hk u a ha hu

theorem Serves.foldl_pair {α β : Type} {l : List α} {k : β × State → α → β × State} {x : β × State} (h : Serves bs W s x.2)
    (hk : ∀ x, ∀ a ∈ l, Serves bs W s x.2 → Serves bs W s (k x a).2) : Serves bs W s (l.foldl k x).2 :=
  List.foldlRecOn (motive := fun x => Serves bs W s x.2) l k h fun x hx a ha => hk x a ha hx

theorem Serves.when {c : Prop} [Decidable c] (h : Serves bs W s t) (k : Serves bs W s u) : Serves bs W s (if c then t else u) := by
  split <;> assumption

theorem Serves.of_eq {α : Type} {e : α × State} {x : α} (he : e = (x, u)) (h : Serves bs W s e.2) : Serves bs W s u := by
  rwa [he] at h

/-! ### Updates of the state -/

section
variable (h : Serves bs W s t)
include h

theorem Serves.setReg {a : Nat} {w : Word} (ha : a / 0x100000 ∈ bs) (hs : a ≠ Reg.ANV_INGEST_STATUS) : Serves bs W s (t.setReg a w) :=
  h.trans ⟨State.blocksBut.refl.setReg ha, fld_setReg_other hs.symm, rfl, rfl, fun _ _ => rfl, rfl⟩

theorem Serves.setFld {f : Field} {v : Nat} (hf : f.addr / 0x100000 ∈ bs) (hs : f.addr ≠ Reg.ANV_INGEST_STATUS) :
    Serves bs W s (t.setFld f v) := h.setReg hf hs

theorem Serves.raise {f : Field} (hf : f.addr / 0x100000 ∈ bs) (hs : f.addr ≠ Reg.ANV_INGEST_STATUS) : Serves bs W s (t.raise f) :=
  h.setFld hf hs

theorem Serves.lower {f : Field} (hf : f.addr / 0x100000 ∈ bs) (hs : f.addr ≠ Reg.ANV_INGEST_STATUS) : Serves bs W s (t.lower f) :=
  h.setFld hf hs

theorem Serves.modRec {k : Recorder → Recorder} : Serves bs W s (t.modRec k) :=
  h.trans ⟨fun _ _ => rfl, rfl, rfl, rfl, fun _ _ => rfl, rfl⟩
theorem Serves.modKey {k : Keystore → Keystore} : Serves bs W s (t.modKey k) :=
  h.trans ⟨fun _ _ => rfl, rfl, rfl, rfl, fun _ _ => rfl, rfl⟩
theorem Serves.modTwn {k : Twn → Twn} : Serves bs W s (t.modTwn k) :=
  h.trans ⟨fun _ _ => rfl, rfl, rfl, rfl, fun _ _ => rfl, rfl⟩
theorem Serves.emit {o : Out} : Serves bs W s (t.emit o) :=
  h.trans ⟨fun _ _ => rfl, rfl, rfl, rfl, fun _ _ => rfl, rfl⟩
theorem Serves.drawn : Serves bs W s t.drawn :=
  h.trans ⟨fun _ _ => rfl, rfl, rfl, rfl, fun _ _ => rfl, rfl⟩

theorem Serves.modMem {k : Mem → Mem} (hb : ∀ a, ¬ W a → (k t.mem).byte a = t.mem.byte a) (hc : (k t.mem).tcm = t.mem.tcm) :
    Serves bs W s (t.modMem k) :=
  h.trans ⟨fun _ _ => rfl, rfl, rfl, rfl, hb, hc⟩

theorem Serves.life {i n : Nat} : Serves bs W s (t.life i n) := by
  unfold State.life
  split
  · exact h.modRec
  · exact h

theorem Serves.pmc {src ev inst n : Nat} (hb : 14 ∈ bs) : Serves bs W s (t.pmc src ev inst n) :=
  h.trans ⟨fun a ha => reg_pmc (by rintro rfl; exact ha hb) (by rintro rfl; exact ha hb), fld_pmc (by decide) (by decide),
    State.pmc_anv, State.pmc_wall, fun _ _ => by rw [State.pmc_mem], by rw [State.pmc_mem]⟩

theorem Serves.bump {src i inst n : Nat} (h3 : src ≠ 3) (h4 : src ≠ 4) (hb : 14 ∈ bs) : Serves bs W s (t.bump src i inst n) :=
  h.trans ⟨State.blocksBut.refl.bump h3 h4 hb, fld_bump (by decide) (by decide) h3 h4,
    State.bump_anv, State.bump_wall, fun _ _ => by rw [State.bump_mem], by rw [State.bump_mem]⟩

/-! ### The Recorder and the Keystore -/

section
variable (hb : [12, 14] ⊆ bs)
include hb

theorem Serves.keyRequest {r slot : Nat} {types needs : List Nat} : Serves bs W s (t.keyRequest r slot types needs).2 := by
  have h14 : 14 ∈ bs := hb (by decide)
  unfold State.keyRequest
  dsimp only
  split
  · dsimp only
    exact h.life.modKey
  · split
    · dsimp only
      exact h.bump (by decide) (by decide) h14
    · dsimp only
      exact ((h.life.bump (by decide) (by decide) h14).raise (hb (by decide)) (by decide)).setReg (hb (by decide)) (by decide)

theorem Serves.flushBegin {pass : Nat} : Serves bs W s (t.flushBegin pass) := by
  have h14 : 14 ∈ bs := hb (by decide)
  have request : Serves bs W s (if t.fld F.REC_CFG_seal_slot = 0 then (KeyAnswer.refused, t)
      else t.keyRequest 5 (t.fld F.REC_CFG_seal_slot) [4] [13, 17]).2 := by
    split
    · exact h
    · exact h.keyRequest hb
  unfold State.flushBegin
  dsimp only
  refine (((Serves.setFld (Serves.setFld (Serves.modRec ?_) h14 (by decide)) h14 (by decide)).lower h14 (by decide)).raise h14 (by decide))
  generalize (if t.fld F.REC_CFG_seal_slot = 0 then (KeyAnswer.refused, t)
      else t.keyRequest 5 (t.fld F.REC_CFG_seal_slot) [4] [13, 17]) = answer at request ⊢
  split_ifs
  · exact (request.bump (by decide) (by decide) h14).raise h14 (by decide)
  · exact request

theorem Serves.flushTrigger : Serves bs W s t.flushTrigger := by
  unfold State.flushTrigger
  split
  · exact h
  · split
    · exact h.modRec
    · exact h.flushBegin hb

theorem Serves.flushSoon : Serves bs W s t.flushSoon := by
  unfold State.flushSoon
  split
  · split
    · exact h.modRec
    · exact h.flushTrigger hb
  · exact h.flushTrigger hb

theorem Serves.faultEntry {type origin : Nat} {content : List Byte} : Serves bs W s (t.faultEntry type origin content) := by
  have h14 : 14 ∈ bs := hb (by decide)
  have entered {k : Recorder → Recorder} {n : Nat} :
      Serves bs W s (((t.modRec k).bump 17 2).setFld F.REC_STATUS_detail_count n) :=
    (h.modRec.bump (by decide) (by decide) h14).setFld h14 (by decide)
  unfold State.faultEntry
  split
  · exact h
  · split
    · exact (h.life.bump (by decide) (by decide) h14).raise h14 (by decide)
    · dsimp only
      split
      · exact entered.flushTrigger hb
      · exact entered

end

/-! ### Memory -/

omit h in
theorem Mem.tcm_putBytes {m : Mem} {a : Nat} {data : List Byte} : (m.putBytes a data).tcm = m.tcm := by
  induction data generalizing m a with
  | nil => rfl
  | cons x data ih => exact ih

section
variable (hb : [1, 12, 14] ⊆ bs)
include hb

theorem Serves.deny {ini a rule : Nat} {write : Bool} : Serves bs W s (t.deny ini a rule write) := by
  have h1 : 1 ∈ bs := hb (by decide)
  have told {content : List Byte} : Serves bs W s (((((t.bump 2 14).raise F.FWL_INT_STAT_denied).life 26).faultEntry 0x0207 ini content)) :=
    (((h.bump (by decide) (by decide) (hb (by decide))).raise (hb (by decide)) (by decide)).life).faultEntry fun _ k => hb (List.mem_cons_of_mem _ k)
  unfold State.deny
  dsimp only
  split
  · exact ((told.setReg h1 (by decide)).setReg h1 (by decide)).setReg h1 (by decide)
  · exact told

theorem Serves.eccLast {w x ini mask : Nat} {ue scrub : Bool} : Serves bs W s (t.eccLast w x ini mask ue scrub) := by
  have h1 : 1 ∈ bs := hb (by decide)
  unfold State.eccLast
  split
  · exact h
  · exact ((h.setReg h1 (by decide)).setReg h1 (by decide)).setReg h1 (by decide)

theorem Serves.eccCorrected {w x ini mask : Nat} {scrub : Bool} : Serves bs W s (t.eccCorrected w x ini mask scrub) := by
  have h14 : 14 ∈ bs := hb (by decide)
  have recorded : Serves bs W s (((t.bump 2 x).life (21 + x)).eccLast w x ini mask false scrub) :=
    (h.bump (by decide) (by decide) h14).life.eccLast hb
  unfold State.eccCorrected
  dsimp only
  refine Serves.raise ?_ (hb (by decide)) (by decide)
  split
  · exact recorded.pmc h14
  · exact recorded

theorem Serves.eccUncorrectable {w x ini mask : Nat} {scrub : Bool} : Serves bs W s (t.eccUncorrectable w x ini mask scrub) := by
  have hr : [12, 14] ⊆ bs := fun _ k => hb (List.mem_cons_of_mem _ k)
  exact (((((h.bump (by decide) (by decide) (hb (by decide))).life).eccLast hb).raise (hb (by decide)) (by decide)).faultEntry hr).flushSoon hr

theorem Serves.readWord {w x ini : Nat} {scrub : Bool} : Serves bs W s (t.readWord w x ini scrub).2 := by
  have fixed : Serves bs W s (t.modMem fun m => { m with flips := Sparse.del m.flips w }) := h.modMem (fun _ _ => rfl) rfl
  unfold State.readWord
  split
  · exact h
  · exact h
  · dsimp only
    split
    · exact fixed
    · exact fixed.eccCorrected hb
  · dsimp only
    split
    · exact h
    · exact h.eccUncorrectable hb

theorem Serves.readWords {l : List Nat} {x ini : Nat} : Serves bs W s (t.readWords l x ini).2 :=
  Serves.foldl_pair h fun _ _ _ hx => hx.readWord hb

theorem Serves.readMem {ini a len : Nat} : Serves bs W s (t.readMem ini a len).2 := by
  unfold State.readMem
  split
  · exact h.deny hb
  · split
    · exact h
    · exact h.readWords hb

theorem Serves.storeWord {w : Nat} : Serves bs W s (t.storeWord w) := by
  have h1 : 1 ∈ bs := hb (by decide)
  have stored {k : Mem → List (Nat × Nat)} {p : Mem → List (Nat × Bool)} :
      Serves bs W s (t.modMem fun m => { m with flips := k m, poison := p m }) := h.modMem (fun _ _ => rfl) rfl
  unfold State.storeWord
  dsimp only
  split
  · exact (stored.lower (hb (by decide)) (by decide)).raise (hb (by decide)) (by decide)
  · exact stored

theorem Serves.writeWord {ini a w : Nat} {data : List Byte} (hw : ∀ b, a ≤ b → b < a + data.length → W b) :
    Serves bs W s (t.writeWord ini a data w).2 := by
  have read : Serves bs W s (if (wordPart a data.length w).2 = 8 then (true, t) else
      ((t.readWord w (memIndex w) ini false).1, if (t.readWord w (memIndex w) ini false).1 && memIndex w == 0 then
        (t.readWord w (memIndex w) ini false).2.bump 2 13 else (t.readWord w (memIndex w) ini false).2)).2 := by
    split
    · exact h
    · dsimp only
      split
      · exact (h.readWord hb).bump (by decide) (by decide) (hb (by decide))
      · exact h.readWord hb
  unfold State.writeWord
  dsimp only
  generalize (if (wordPart a data.length w).2 = 8 then (true, t) else
      ((t.readWord w (memIndex w) ini false).1, if (t.readWord w (memIndex w) ini false).1 && memIndex w == 0 then
        (t.readWord w (memIndex w) ini false).2.bump 2 13 else (t.readWord w (memIndex w) ini false).2)) = r at read ⊢
  split
  · refine Serves.storeWord (read.modMem (fun b hn => Mem.byte_putBytes_other ?_) ?_) hb
    · by_contra inside
      simp only [sliceB, List.length_take, List.length_drop] at inside
      exact hn (hw b (by omega) (by omega))
    · exact Mem.tcm_putBytes
  · exact read

theorem Serves.writeMem {ini a : Nat} {data : List Byte} (hw : ∀ b, a ≤ b → b < a + data.length → W b) :
    Serves bs W s (t.writeMem ini a data).2 := by
  unfold State.writeMem
  split
  · exact h.deny hb
  · split
    · exact h
    · exact Serves.foldl_pair h fun _ _ _ hx => hx.writeWord hb hw

/-- An entry of a report ring goes where the ring lies. -/
theorem Serves.report {b ini : Nat} {entry : List Byte} (hw : ∀ a, W a) (h6 : (b + 12) / 0x100000 ∈ bs)
    (hs : b + 12 ≠ Reg.ANV_INGEST_STATUS) : Serves bs W s (t.report b ini entry).2 := by
  unfold State.report
  split
  · exact h
  · split
    · exact h
    · dsimp only
      have written := h.writeMem hb (ini := ini) (a := t.rptBase b + entry.length * (t.regN (b + 12) % t.rptSize b))
        (data := t.rptPhase b entry) fun c _ _ => hw c
      split
      · exact written.setReg h6 hs
      · exact written

end

/-! ### The twin -/

section
variable (hb : [1, 12, 14] ⊆ bs)
include hb

theorem Serves.linkFrame {type : Nat} {payload : List Byte} : Serves bs W s (t.linkFrame type payload) := by
  unfold State.linkFrame
  exact h.modTwn.emit.bump (by decide) (by decide) (hb (by decide))

theorem Serves.ageRecord {x : TemperSet} {n : Nat} : Serves bs W s (t.ageRecord x n).2 := by
  unfold State.ageRecord
  dsimp only
  split
  next _ hu =>
    split
    · exact Serves.of_eq ‹_› ((Serves.of_eq hu (h.readMem hb)).readMem hb)
    · exact Serves.of_eq ‹_› ((Serves.of_eq hu (h.readMem hb)).readMem hb)
  · exact Serves.of_eq ‹_› (h.readMem hb)

theorem Serves.linkPiece {j : LinkJob} : Serves bs W s (t.linkPiece j).2.2 := by
  have counted {c : Prop} [Decidable c] {i : Nat} : Serves bs W s (if c then t.bump 10 i else t) :=
    (h.bump (by decide) (by decide) (hb (by decide))).when h
  unfold State.linkPiece
  split
  case h_1 => exact h
  case h_2 =>
    dsimp only
    exact h.modTwn
  case h_3 =>
    split
    · exact h
    · dsimp only
      split <;> exact Serves.of_eq ‹_› (counted.readMem hb)
  case h_4 =>
    dsimp only
    split <;> exact Serves.of_eq ‹_› (h.readMem hb)
  case h_5 =>
    dsimp only
    split
    · exact h
    · split
      · exact counted
      · refine Serves.foldl_pair h fun x d _ hx => ?_
        split <;> exact Serves.of_eq ‹_› (hx.ageRecord hb)

omit hb in
theorem Serves.charge {level n : Nat} : Serves bs W s (t.charge level n) := by
  unfold State.charge
  exact h.modTwn

theorem Serves.linkPump : Serves bs W s t.linkPump := by
  unfold State.linkPump
  split
  · exact h
  · refine Serves.when h ?_
    dsimp only
    split
    · exact ((h.linkPiece hb).modTwn.linkFrame hb).charge
    · exact (h.linkPiece hb).modTwn

theorem Serves.linkQueue {j : LinkJob} : Serves bs W s (t.linkQueue j) := (h.modTwn.linkPump hb).linkPump hb

theorem Serves.linkSend {type : Nat} {payload : List Byte} : Serves bs W s (t.linkSend type payload) := (h.linkQueue hb).when h

theorem Serves.mirror {cls off : Nat} {data : List Byte} : Serves bs W s (t.mirror cls off data) :=
  ((h.linkQueue hb).when h).when h

end

end

end

/-! ## Commands of a ring -/

section
variable {s t u v : State} {n op slot : Nat} {desc b : List Byte} {c : Cpl}

/-- The block that a command has read leaves the Anvil as it was when the engine took the descriptor. -/
theorem serves_readBlock {W : Nat → Prop} (h : u.readBlock n desc = (.ok b, v)) : Serves [1, 12, 14] W u v := by
  unfold State.readBlock at h
  dsimp only at h
  split at h
  · cases h
  · split at h <;> cases h
    exact Serves.refl.readMem (List.Subset.refl _)

/-- A command with a parameter block, as its engine finds it: the block is read, and the Anvil is as it will be after the read. -/
theorem takenBlock_opens (h : s.takenBlock n = some (slot, desc, b, v)) : ∃ u, s.taken n = some (slot, desc, u) ∧
    (∀ k, u.withBlock n desc k = k b v) ∧ v.anv = u.anv ∧
      v.fld F.ANV_INGEST_STATUS_started = u.fld F.ANV_INGEST_STATUS_started := by
  obtain ⟨u, ht, hr⟩ := takenBlock_taken h
  have same := serves_readBlock (W := fun _ => False) hr
  exact ⟨u, ht, fun _ => withBlock_taken hr, same.anv, same.started⟩

/-- A command that its engine takes ends with what its meaning answers. -/
theorem takeCommand_ends {k : Nat → List Byte → State → Option Cpl × State} (h : s.taken n = some (slot, desc, u))
    (ho : byteAt desc 0 = op) (hk : k slot desc u = (some c, t)) :
    done (s.takeCommand n op k) = .next ((t.finish n slot c).settle n) := by
  rw [takeCommand_taken h ho, hk, done]

theorem streamCommand_ends {k : Nat → List Byte → State → Option Cpl × State} (h : s.taken 0x60 = some (slot, desc, u))
    (ho : byteAt desc 0 = op) (hn : byteAt desc 1 < 16) (hk : k (byteAt desc 1) desc u = (some c, t)) :
    done (s.streamCommand op k) = .next ((t.finish 0x60 slot c).settle 0x60) :=
  takeCommand_ends h ho (by rw [if_pos hn, hk])

theorem streamCommand_badField {k : Nat → List Byte → State → Option Cpl × State} (h : s.taken 0x60 = some (slot, desc, u))
    (ho : byteAt desc 0 = op) (hn : 16 ≤ byteAt desc 1) :
    done (s.streamCommand op k) = .next ((u.finish 0x60 slot (badField 0x81)).settle 0x60) :=
  takeCommand_ends h ho (if_neg (by omega))

end

/-! ## Synchronisation with the twin is judged again (R277) -/

section
variable {s : State}

theorem reg_judgeSync_other {a : Nat} (h : a ∉ [Reg.TWN_STATUS, Reg.TWN_SYNC_WHY, Reg.TWN_INT_STAT]) :
    s.judgeSync.reg a = s.reg a := by
  obtain ⟨h1, h2, h3⟩ : a ≠ Reg.TWN_STATUS ∧ a ≠ Reg.TWN_SYNC_WHY ∧ a ≠ Reg.TWN_INT_STAT := by simpa using h
  have judged {w : Word} {v : Nat} : ((s.setReg Reg.TWN_SYNC_WHY w).setFld F.TWN_STATUS_synced v).reg a = s.reg a :=
    (reg_setFld_other h1).trans (reg_setReg_other h2)
  unfold State.judgeSync
  dsimp only
  split
  · rfl
  · split
    · exact (reg_setFld_other h3).trans judged
    · split
      · exact (reg_setFld_other h3).trans judged
      · exact judged

theorem rest_setReg {a : Nat} {w : Word} {rs : List (Nat × Word)} : { s.setReg a w with regs := rs } = { s with regs := rs } := rfl

theorem rest_setFld {f : Field} {v : Nat} {rs : List (Nat × Word)} : { s.setFld f v with regs := rs } = { s with regs := rs } := rfl

theorem rest_judgeSync : { s.judgeSync with regs := s.regs } = s := by
  have judged {f : Field} {w : Word} {u v : Nat} :
      { ((s.setReg Reg.TWN_SYNC_WHY w).setFld F.TWN_STATUS_synced u).setFld f v with regs := s.regs } = s := by
    rw [rest_setFld, rest_setFld, rest_setReg]
  unfold State.judgeSync
  dsimp only
  split
  · rfl
  · split
    · exact judged
    · split
      · exact judged
      · rw [rest_setFld, rest_setReg]

@[simp] theorem anv_judgeSync : s.judgeSync.anv = s.anv := (congrArg State.anv rest_judgeSync :)

theorem blocksBut_judgeSync {bs : List Nat} (h : 8 ∈ bs) : s.judgeSync.blocksBut s bs := fun a ha =>
  reg_judgeSync_other fun k => ha (by
    have block : ∀ r ∈ [Reg.TWN_STATUS, Reg.TWN_SYNC_WHY, Reg.TWN_INT_STAT], r / 0x100000 = 8 := by decide
    rwa [block a k])

theorem fld_judgeSync {f : Field} (h : f.addr ∉ [Reg.TWN_STATUS, Reg.TWN_SYNC_WHY, Reg.TWN_INT_STAT]) :
    s.judgeSync.fld f = s.fld f := by simp only [State.fld, State.regN, reg_judgeSync_other h]

end

end Sys2Proof.Machine
end

section
/-! Proof of the statement on the canvas and the streams (R125 to R127, R138, R144, R154, R155). First the bits of ANV_INGEST_STATUS that
mark the started streams, and the table of streams; then what a new canvas changes, and what the decisions that STREAM_STOP takes
change; at last the commands. -/

namespace Sys2Proof.Machine

section
variable {s t u v : State} {n m slot : Nat} {desc b : List Byte} {x y : Stream}

/-! ## Started streams -/

theorem bits_one {k : Nat} : bits k n 1 = b2n (k.testBit n) := by
  rw [bits, Nat.shiftRight_eq_div_pow, pow_one, ← Nat.toNat_testBit]
  cases k.testBit n <;> rfl

theorem testBit_add_two_pow {k : Nat} (h : k.testBit n = false) : (k + 2 ^ n).testBit m = (k.testBit m || decide (m = n)) := by
  have write : k + 2 ^ n = setBits k n 1 1 := by simp [setBits, bits_one, h, b2n]
  rw [write, testBit_setBits]
  by_cases hm : m = n
  · simp [hm]
  · rw [if_neg (by omega)]
    simp [hm]

theorem testBit_sub_two_pow {k : Nat} (h : k.testBit n = true) : (k - 2 ^ n).testBit m = (k.testBit m && decide (m ≠ n)) := by
  have write : k - 2 ^ n = setBits k n 1 0 := by simp [setBits, bits_one, h, b2n]
  rw [write, testBit_setBits]
  by_cases hm : m = n
  · simp [hm]
  · rw [if_neg (by omega)]
    simp [hm]

theorem isStarted_setFld {k : Nat} (hm : m < 16) : (s.setFld F.ANV_INGEST_STATUS_started k).isStarted m = k.testBit m := by
  rw [State.isStarted, fld_setFld_same (by decide), Nat.testBit_mod_two_pow]
  simp [F.ANV_INGEST_STATUS_started, hm]

theorem isStarted_modAnv {k : Anv → Anv} : (s.modAnv k).isStarted m = s.isStarted m := rfl

theorem isStarted_judgeSync : s.judgeSync.isStarted m = s.isStarted m := by
  simp only [State.isStarted, fld_judgeSync (f := F.ANV_INGEST_STATUS_started) (by decide)]

/-! ## The table of streams -/

theorem find?_put_same {β : Type} {l : List (Nat × β)} {k : Nat} {w : β} :
    (Sparse.put l k w).find? (fun p => p.1 == k) = some (k, w) := by
  induction l with
  | nil => simp [Sparse.put]
  | cons p l ih =>
    obtain ⟨a, z⟩ := p
    unfold Sparse.put
    split
    · simp
    · split
      · simp
      · rw [List.find?_cons_of_neg (by simpa using by omega), ih]

theorem find?_put_other {β : Type} {l : List (Nat × β)} {k j : Nat} {w : β} (h : j ≠ k) :
    (Sparse.put l k w).find? (fun p => p.1 == j) = l.find? (fun p => p.1 == j) := by
  have skip {r : List (Nat × β)} : ((k, w) :: r).find? (fun p => p.1 == j) = r.find? (fun p => p.1 == j) :=
    List.find?_cons_of_neg (by simpa using h.symm)
  induction l with
  | nil => exact skip
  | cons p l ih =>
    obtain ⟨a, z⟩ := p
    unfold Sparse.put
    split
    · exact skip
    · split
      · next hk =>
        subst hk
        rw [skip, List.find?_cons_of_neg (by simpa using h.symm)]
      · simp only [List.find?_cons, ih]

theorem stream_put_same (h : t.anv.streams = Sparse.put s.anv.streams n x) : t.stream n = some x := by
  rw [State.stream, h, find?_put_same]
  rfl

theorem stream_put_other (h : t.anv.streams = Sparse.put s.anv.streams n x) (hm : m ≠ n) : t.stream m = s.stream m := by
  rw [State.stream, h, find?_put_other hm]
  rfl

/-! ## A new canvas -/

theorem rest_greyFigures : { s.greyFigures with regs := s.regs } = s := by
  unfold State.greyFigures
  split
  · rfl
  · simp only [rest_setReg]

theorem reg_greyFigures {a : Nat} (h : a ∉ [Reg.ANV_GRY_STATUS, Reg.ANV_GRY_TPASS, Reg.ANV_GRY_FLOOR, Reg.ANV_GRY_LOAD, Reg.ANV_GRY_LOAD_PORT]) :
    s.greyFigures.reg a = s.reg a := by
  simp only [List.mem_cons, List.not_mem_nil, or_false, not_or] at h
  obtain ⟨h1, h2, h3, h4, h5⟩ := h
  unfold State.greyFigures
  split
  · rfl
  · dsimp only
    rw [reg_setReg_other h5, reg_setReg_other h4, reg_setReg_other h3, reg_setReg_other h2, reg_setReg_other h1]

theorem rest_gridChanged : { s.gridChanged with scn := s.scn } = s := by
  unfold State.gridChanged
  split
  · rfl
  · refine List.foldlRecOn (motive := fun t : State => { t with scn := s.scn } = s) _ _ rfl fun t ht p _ => ?_
    split
    · exact ht
    · exact ht

/-- What depends on the grid is brought up to date: the figures of the greyscale, the grid of the ports, and the synchronisation. -/
def State.regridded (s : State) : State := s.greyFigures.gridChanged.judgeSync

theorem rest_regridded : { s.regridded with regs := s.regs, scn := s.scn } = s := by
  have figures := rest_greyFigures (s := s)
  have ports := rest_gridChanged (s := s.greyFigures)
  have sync := rest_judgeSync (s := s.greyFigures.gridChanged)
  unfold State.regridded
  generalize s.greyFigures.gridChanged.judgeSync = w at *
  generalize s.greyFigures.gridChanged = w' at *
  generalize s.greyFigures = w'' at *
  cases s; cases w; cases w'; cases w''
  simp_all

@[simp] theorem anv_regridded : s.regridded.anv = s.anv := (congrArg State.anv rest_regridded :)

theorem reg_regridded {a : Nat} (h : a ∉ [Reg.ANV_GRY_STATUS, Reg.ANV_GRY_TPASS, Reg.ANV_GRY_FLOOR, Reg.ANV_GRY_LOAD, Reg.ANV_GRY_LOAD_PORT])
    (h8 : a / 0x100000 ≠ 8) : s.regridded.reg a = s.reg a := by
  have ports : s.greyFigures.gridChanged.reg a = s.greyFigures.reg a :=
    congrArg (Sparse.get Reg.resetVal · a) (congrArg State.regs rest_gridChanged :)
  exact ((blocksBut_judgeSync (bs := [8]) (by decide) a (by simpa using h8)).trans ports).trans (reg_greyFigures h)

theorem blocksBut_regridded : s.regridded.blocksBut s [6, 8] := fun a ha => by
  have figure : ∀ r ∈ [Reg.ANV_GRY_STATUS, Reg.ANV_GRY_TPASS, Reg.ANV_GRY_FLOOR, Reg.ANV_GRY_LOAD, Reg.ANV_GRY_LOAD_PORT],
      r / 0x100000 = 6 := by decide
  exact reg_regridded (fun k => ha (by simp [figure a k])) fun k => ha (by simp [k])

theorem fld_regridded {f : Field} (h : f.addr = Reg.ANV_INGEST_STATUS) : s.regridded.fld f = s.fld f := by
  simp only [State.fld, State.regN, reg_regridded (a := f.addr) (by rw [h]; decide) (by rw [h]; decide)]

theorem rest_regridded_of {w : State} (h : { w with regs := s.regs, anv := s.anv, scn := s.scn } = s) :
    { w.regridded with regs := s.regs, anv := s.anv, scn := s.scn } = s := by
  have rest := rest_regridded (s := w)
  generalize w.regridded = r at *
  cases s; cases w; cases r
  simp_all

theorem rest_setFld_grid {f : Field} {k : Nat} {rs : List (Nat × Word)} {a : Anv} {c : Scn} :
    { s.setFld f k with regs := rs, anv := a, scn := c } = { s with regs := rs, anv := a, scn := c } := rfl

/-- A new canvas: its block is loaded, and the frames, the decisions and the period shown are none of its own yet (R138, R144). -/
theorem newCanvas_regridded : ∃ w : State, s.newCanvas b = w.regridded ∧ w.anv.canvas = some b ∧ w.anv.grey = s.anv.grey ∧
    w.anv.frames = [] ∧ w.anv.decisions = [] ∧ w.anv.shownK = none ∧ w.anv.streams = s.anv.streams ∧ w.anv.temper = s.anv.temper ∧
    w.fld F.ANV_INGEST_STATUS_slots_used = 0 ∧ w.fld F.ANV_INGEST_STATUS_show = 0 ∧ w.blocksBut s [6] ∧
    { w with regs := s.regs, anv := s.anv, scn := s.scn } = s := by
  refine ⟨_, rfl, rfl, rfl, rfl, rfl, rfl, rfl, rfl, ?_, ?_, ?_, ?_⟩
  · rw [fld_setFld_other (by decide) (by decide), fld_setFld_same (by decide), Nat.zero_mod]
  · rw [fld_setFld_same (by decide), Nat.zero_mod]
  · exact (State.blocksBut.setFld (fun _ _ => rfl) (by decide)).setFld (by decide)
  · rw [rest_setFld_grid, rest_setFld_grid]
    rfl

/-! ## Decisions -/

/-- What the decisions `ds` of ANV change beside the table of decisions: registers of a few blocks, but neither the streams nor which are
started. -/
structure Decides (s t : State) (ds : List (Nat × Nat)) : Prop where
  reg       : t.blocksBut s [1, 6, 8, 12, 14]
  started   : t.fld F.ANV_INGEST_STATUS_started = s.fld F.ANV_INGEST_STATUS_started
  streams   : t.anv.streams = s.anv.streams
  decisions : t.anv.decisions = ds ++ s.anv.decisions

section
variable {ds es : List (Nat × Nat)}

theorem Decides.refl : Decides s s [] := ⟨fun _ _ => rfl, rfl, rfl, rfl⟩

theorem Decides.trans (h : Decides s t ds) (k : Decides t u es) : Decides s u (es ++ ds) :=
  ⟨fun a ha => (k.reg a ha).trans (h.reg a ha), k.started.trans h.started, k.streams.trans h.streams, by
    rw [k.decisions, h.decisions, List.append_assoc]⟩

theorem Decides.serves {W : Nat → Prop} (h : Decides s t ds) (k : Serves [1, 6, 8, 12, 14] W t u) : Decides s u ds :=
  ⟨fun a ha => (k.reg a ha).trans (h.reg a ha), k.started.trans h.started, k.anv ▸ h.streams, k.anv ▸ h.decisions⟩

/-- Of the Anvil's state only frames and marks of frames change. -/
theorem Decides.modAnv {k : Anv → Anv} (h : Decides s t ds) (hs : (k t.anv).streams = t.anv.streams)
    (hd : (k t.anv).decisions = t.anv.decisions) : Decides s (t.modAnv k) ds :=
  ⟨h.reg, h.started, hs.trans h.streams, hd.trans h.decisions⟩

/-- Another field of ANV_INGEST_STATUS is written. -/
theorem Decides.setFld {f : Field} {k : Nat} (h : Decides s t ds) (h6 : f.addr / 0x100000 = 6) (hf : 16 ≤ f.lo ∧ f.lo + f.width ≤ 32) :
    Decides s (t.setFld f k) ds :=
  ⟨h.reg.setFld (by simp [h6]), (fld_setFld_other (g := F.ANV_INGEST_STATUS_started) hf.2 (.inr (.inl hf.1))).trans h.started, h.streams, h.decisions⟩

theorem Decides.bump {src i inst k : Nat} (h : Decides s t ds) (h3 : src ≠ 3) (h4 : src ≠ 4) : Decides s (t.bump src i inst k) ds :=
  h.serves (W := fun _ => False) (Serves.refl.bump h3 h4 (by decide))

theorem Decides.countSlots (h : Decides s t ds) : Decides s t.countSlots ds := h.setFld (by decide) (by decide)

theorem Serves.hist {bs : List Nat} {W : Nat → Prop} {o : Nat} (h : Serves bs W s t) : Serves bs W s (t.hist o) := by
  unfold State.hist
  exact h.modRec.when h

theorem Serves.extreme {bs : List Nat} {W : Nat → Prop} {e q : Nat} {k : Int} (h : Serves bs W s t) : Serves bs W s (t.extreme e k q) := by
  unfold State.extreme
  exact h.modRec.when h

theorem Serves.countMissing {k : Nat} : Serves [1, 6, 8, 12, 14] (fun _ => True) s (s.countMissing k) := by
  unfold State.countMissing
  split
  · exact Serves.refl.foldl fun _ _ _ hu => hu.when (hu.bump (by decide) (by decide) (by decide))
  · exact Serves.refl

theorem decides_countDecision {code : Nat} (h : Decides s t ds) : Decides s (t.countDecision code) ds := by
  have counted {i : Nat} : Decides s ((((t.bump 6 code).hist (0x5E4 + 4 * code)).life i).setFld
      F.ANV_INGEST_STATUS_time_wait (b2n (code == 9))) ds :=
    (h.serves (W := fun _ => True) ((Serves.refl.bump (by decide) (by decide) (by decide)).hist.life)).setFld (by decide) (by decide)
  have flagged {f : Field} (h6 : f.addr / 0x100000 = 6) (hs : f.addr ≠ Reg.ANV_INGEST_STATUS) {w : State} (hw : Decides s w ds) :
      Decides s (w.raise f) ds :=
    hw.serves (W := fun _ => True) (Serves.refl.raise (by simp [h6]) hs)
  unfold State.countDecision
  dsimp only
  split
  · exact counted
  · split
    · exact flagged (by decide) (by decide) counted
    · exact flagged (by decide) (by decide) counted

theorem Serves.noteSlack {k : Nat} {e : Int} : Serves [1, 6, 8, 12, 14] (fun _ => True) s (s.noteSlack k e) := by
  unfold State.noteSlack
  exact (((Serves.refl.setReg (by decide) (by decide)).when Serves.refl).hist).extreme

/-- The report of a decision is an entry of the report ring; its loss is counted. -/
theorem Serves.ingestReport {g : Grid} {k code show_ : Nat} {e : Int} :
    Serves [1, 6, 8, 12, 14] (fun _ => True) s (s.ingestReport g k code show_ e) := by
  have told {content : List Byte} : Serves [1, 6, 8, 12, 14] (fun _ => True) s
      (if code = 0 then s else s.faultEntry 0x0202 5 content) :=
    Serves.refl.when (Serves.refl.faultEntry (by decide))
  unfold State.ingestReport
  dsimp only
  refine Serves.when ?_ ?_
  · exact ((told.report (by decide) (fun _ => trivial) (by decide) (by decide)).bump (by decide) (by decide) (by decide)).raise
      (by decide) (by decide)
  · exact told.report (by decide) (fun _ => trivial) (by decide) (by decide)

theorem decides_decide {g : Grid} {k code : Nat} : Decides s (s.decide g k code) [(k, code)] := by
  have counted : Decides s (((s.countMissing k).countDecision code).modAnv fun a => { a with decisions := (k, code) :: a.decisions })
      [(k, code)] := by
    have h := decides_countDecision (code := code) (Decides.refl.serves (Serves.countMissing (s := s) (k := k)))
    exact ⟨h.reg, h.started, h.streams, congrArg ((k, code) :: ·) h.decisions⟩
  have kept : Decides s (if code = 0 then
      ((((s.countMissing k).countDecision code).modAnv fun a => { a with decisions := (k, code) :: a.decisions }).noteSlack k
        (s.slack g k)).modFrame k fun f => { f with parties := some (s.takingPart g k) }
      else ((((s.countMissing k).countDecision code).modAnv fun a => { a with decisions := (k, code) :: a.decisions }).modAnv
        fun a => { a with frames := a.frames.filter fun f => f.k != k }).countSlots) [(k, code)] := by
    split
    · exact (counted.serves Serves.noteSlack).modAnv rfl rfl
    · exact (counted.modAnv rfl rfl).countSlots
  unfold State.decide
  dsimp only
  generalize (if code = 0 then _ else _ : State) = w at kept ⊢
  have told : Decides s (if w.isActive then w.linkSend 4 (natLE 8 k ++ natLE 1 code) else w) [(k, code)] := by
    split
    · exact kept.serves (W := fun _ => True) (Serves.refl.linkSend (by decide))
    · exact kept
  generalize (if w.isActive then _ else w : State) = x at told ⊢
  split
  · exact told.serves Serves.ingestReport
  · split
    · exact told.serves Serves.ingestReport
    · exact told.modAnv rfl rfl

/-- The decisions of a list of frames are taken one after the other. -/
theorem decides_foldl {g : Grid} {code : Nat} {l : List FrameRec} :
    Decides s (l.foldl (fun s f => s.decide g f.k code) s) (l.reverse.map fun f => (f.k, code)) := by
  induction l generalizing s with
  | nil => exact Decides.refl
  | cons f l ih =>
    rw [List.foldl_cons, List.reverse_cons, List.map_append]
    exact decides_decide.trans ih

/-- What is decided of an index that `ds` do not decide is as it was. -/
theorem Decides.decision_other {k : Nat} (h : Decides s t ds) (hk : ∀ d ∈ ds, d.1 ≠ k) : t.decision k = s.decision k := by
  rw [State.decision, h.decisions, List.find?_append, List.find?_eq_none.2 fun d hd => by simpa using hk d hd]
  rfl

/-- An index that `ds` decide, always with `code`, is decided so. -/
theorem Decides.decision_of_mem {k code : Nat} (h : Decides s t ds) (hk : (k, code) ∈ ds) (hc : ∀ d ∈ ds, d.2 = code) :
    t.decision k = some code := by
  rw [State.decision, h.decisions, List.find?_append]
  cases hf : ds.find? fun d => d.1 == k with
  | none => exact absurd (List.find?_eq_none.1 hf _ hk) (by simp)
  | some d => simp [hc d (List.mem_of_find?_eq_some hf)]

/-- The frames still filling in which `x` takes part. -/
def State.fillingWith (s : State) (g : Grid) (x : Stream) : List FrameRec :=
  s.anv.frames.filter fun f => (s.decision f.k).isNone && x.takesPart g f.k

theorem decides_stopFrames {g : Grid} :
    Decides s (s.stopFrames g x) ((s.fillingWith g x).reverse.map fun f => (f.k, 8)) := decides_foldl

end

/-! ## CANVAS_SET -/

theorem exec_canvasSet_refused (h : s.taken 0x60 = some (slot, desc, v)) (ho : byteAt desc 0 = 1)
    (hr : v.anyStarted = true ∨ v.anv.grey = none) : exec .canvasSet s = .next ((v.finish 0x60 slot refusedState).settle 0x60) := by
  refine takeCommand_ends h ho ?_
  split
  next hs hg => exact absurd hr (by simp [hs, hg])
  · rfl

section
variable {g : List Byte} (h : s.takenBlock 0x60 = some (slot, desc, b, v)) (ho : byteAt desc 0 = 1) (hs : v.anyStarted = false)
  (hg : v.anv.grey = some g)
include h ho hs hg

/-- CANVAS_SET on a quiet module under the greyscale configuration `g`, by what its checks find. -/
theorem exec_canvasSet {c : Cpl} (hk : canvasBad b = none → canvasGridBad (gridOf b g) = none → (c, t) = (okCpl, v.newCanvas b))
    (hc : ∀ o, canvasBad b = some o → (c, t) = (badField o, v))
    (hb : ∀ o, canvasBad b = none → canvasGridBad (gridOf b g) = some o → (c, t) = (badField o, v)) :
    exec .canvasSet s = .next ((t.finish 0x60 slot c).settle 0x60) := by
  obtain ⟨u, ht, hr, ha, hf⟩ := takenBlock_opens h
  have quiet : u.anyStarted = false := by rwa [State.anyStarted, ← hf]
  refine takeCommand_ends ht ho ?_
  rw [quiet, ← ha, hg]
  dsimp only
  rw [hr]
  split
  next o k => obtain ⟨rfl, rfl⟩ := Prod.mk.inj (hc o k); rfl
  next k =>
    split
    next o k' => obtain ⟨rfl, rfl⟩ := Prod.mk.inj (hb o k k'); rfl
    next k' => obtain ⟨rfl, rfl⟩ := Prod.mk.inj (hk k k'); rfl

theorem canvasSet_starts_empty (hc : canvasBad b = none) (hb : canvasGridBad (gridOf b g) = none) :
    ∃ u : State, exec .canvasSet s = .next ((u.finish 0x60 slot okCpl).settle 0x60) ∧ u.anv.canvas = some b ∧ u.anv.grey = some g ∧
      u.anv.frames = [] ∧ u.anv.decisions = [] ∧ u.anv.shownK = none ∧ u.anv.streams = v.anv.streams ∧ u.anv.temper = v.anv.temper ∧
      u.fld F.ANV_INGEST_STATUS_slots_used = 0 ∧ u.fld F.ANV_INGEST_STATUS_show = 0 ∧ u.blocksBut v [6, 8] ∧
      { u with regs := v.regs, anv := v.anv, scn := v.scn } = v := by
  obtain ⟨w, hw, canvas, grey, frames, decisions, shown, streams, temper, used, show_, kept, rest⟩ := newCanvas_regridded (s := v) (b := b)
  refine ⟨w.regridded, ?_, ?_, ?_, ?_, ?_, ?_, ?_, ?_, ?_, ?_, ?_, rest_regridded_of rest⟩
  · exact exec_canvasSet h ho hs hg (fun _ _ => by rw [hw]) (by simp [hc]) (by simp [hb])
  · rw [anv_regridded, canvas]
  · rw [anv_regridded, grey, hg]
  · rw [anv_regridded, frames]
  · rw [anv_regridded, decisions]
  · rw [anv_regridded, shown]
  · rw [anv_regridded, streams]
  · rw [anv_regridded, temper]
  · rw [fld_regridded rfl, used]
  · rw [fld_regridded rfl, show_]
  · exact State.blocksBut.trans kept blocksBut_regridded (by decide) (by decide)

end

/-! ## STREAM_SET -/

theorem exec_streamSet_refused (h : s.taken 0x60 = some (slot, desc, v)) (ho : byteAt desc 0 = 2) (hn : byteAt desc 1 < 16)
    (hs : v.isStarted (byteAt desc 1) = true) : exec .streamSet s = .next ((v.finish 0x60 slot refusedState).settle 0x60) :=
  streamCommand_ends h ho hn (if_pos hs)

/-- Stream `n` is set by its block (R125, R154). -/
def State.setStream (s : State) (n : Nat) (b : List Byte) : State :=
  (s.modAnv fun a => { a with streams := Sparse.put a.streams n { block := b } }).judgeSync

/-- STREAM_SET of a stream that is not started, by what its checks find. -/
theorem exec_streamSet {c : Cpl} (h : s.takenBlock 0x60 = some (slot, desc, b, v)) (ho : byteAt desc 0 = 2) (hn : byteAt desc 1 < 16)
    (hs : v.isStarted (byteAt desc 1) = false)
    (hk : streamBad b = none → v.kindFits b = true → (c, t) = (okCpl, v.setStream (byteAt desc 1) b))
    (hb : ∀ o, streamBad b = some o → (c, t) = (badField o, v))
    (hf : streamBad b = none → v.kindFits b = false → (c, t) = (refusedState, v)) :
    exec .streamSet s = .next ((t.finish 0x60 slot c).settle 0x60) := by
  obtain ⟨u, ht, hr, ha, hst⟩ := takenBlock_opens h
  have quiet : u.isStarted (byteAt desc 1) = false := by rwa [State.isStarted, ← hst]
  refine streamCommand_ends ht ho hn ?_
  rw [quiet, if_neg Bool.false_ne_true, hr]
  split
  next o k => obtain ⟨rfl, rfl⟩ := Prod.mk.inj (hb o k); rfl
  next k =>
    split
    next k' => obtain ⟨rfl, rfl⟩ := Prod.mk.inj (hk k k'); rfl
    next k' => obtain ⟨rfl, rfl⟩ := Prod.mk.inj (hf k (Bool.eq_false_iff.2 k')); rfl

theorem rest_judgeSync_of {w : State} (h : { w with regs := s.regs, anv := s.anv } = s) :
    { w.judgeSync with regs := s.regs, anv := s.anv } = s := by
  have rest := rest_judgeSync (s := w)
  generalize w.judgeSync = r at *
  cases s; cases w; cases r
  simp_all

theorem streamSet_sets (h : s.takenBlock 0x60 = some (slot, desc, b, v)) (ho : byteAt desc 0 = 2) (hn : byteAt desc 1 < 16)
    (hs : v.isStarted (byteAt desc 1) = false) (hb : streamBad b = none) (hf : v.kindFits b = true) :
    ∃ u : State, exec .streamSet s = .next ((u.finish 0x60 slot okCpl).settle 0x60) ∧ u.stream (byteAt desc 1) = some { block := b } ∧
      (∀ n, n ≠ byteAt desc 1 → u.stream n = v.stream n) ∧ u.regsBut v [Reg.TWN_STATUS, Reg.TWN_SYNC_WHY, Reg.TWN_INT_STAT] ∧
      { u with anv := v.anv, regs := v.regs } = v ∧ { u.anv with streams := v.anv.streams } = v.anv := by
  have anv : (v.setStream (byteAt desc 1) b).anv = { v.anv with streams := Sparse.put v.anv.streams (byteAt desc 1) { block := b } } :=
    anv_judgeSync
  refine ⟨v.setStream (byteAt desc 1) b, exec_streamSet h ho hn hs (fun _ _ => rfl) (by simp [hb]) (by simp [hf]),
    stream_put_same (s := v) (by rw [anv]), fun n hne => stream_put_other (s := v) (by rw [anv]) hne,
    fun a ha _ _ => reg_judgeSync_other ha, ?_, by rw [anv]⟩
  exact rest_judgeSync_of rfl

/-! ## STREAM_START -/

/-- Stream `n`, set as `x`, starts now; nothing has been lit yet if it is the first (R127). -/
def State.startStream (s : State) (n : Nat) (x : Stream) : State :=
  ((s.modAnv fun a => { a with
    litOnce := a.litOnce && s.anyStarted, streams := Sparse.put a.streams n { x with started := some s.wall } }).setFld
      F.ANV_INGEST_STATUS_started (s.fld F.ANV_INGEST_STATUS_started + 2 ^ n)).judgeSync

section
variable (h : s.taken 0x60 = some (slot, desc, v)) (ho : byteAt desc 0 = 3) (hn : byteAt desc 1 < 16)
include h ho hn

theorem exec_streamStart_refused (hr : v.stream (byteAt desc 1) = none ∨ v.isStarted (byteAt desc 1) = true) :
    exec .streamStart s = .next ((v.finish 0x60 slot refusedState).settle 0x60) := by
  refine streamCommand_ends h ho hn ?_
  split
  · rfl
  next hx => rw [if_pos (by simpa [hx] using hr)]

section
variable (hx : v.stream (byteAt desc 1) = some x) (hs : v.isStarted (byteAt desc 1) = false)
include hx hs

theorem exec_streamStart_unfit {c : Cpl} (hc : v.startRefusal x.block = some c) :
    exec .streamStart s = .next ((v.finish 0x60 slot c).settle 0x60) := by
  refine streamCommand_ends h ho hn ?_
  rw [hx]
  dsimp only
  rw [hs, if_neg Bool.false_ne_true, hc]

theorem exec_streamStart (hc : v.startRefusal x.block = none) :
    exec .streamStart s = .next (((v.startStream (byteAt desc 1) x).finish 0x60 slot okCpl).settle 0x60) := by
  refine streamCommand_ends h ho hn ?_
  rw [hx]
  dsimp only
  rw [hs, if_neg Bool.false_ne_true, hc]
  rfl

end

end

theorem isStarted_startStream (hs : s.isStarted n = false) (hm : m < 16) :
    (s.startStream n x).isStarted m = (s.isStarted m || decide (m = n)) := by
  rw [State.startStream, isStarted_judgeSync, isStarted_setFld hm, testBit_add_two_pow hs]
  rfl

theorem streams_startStream : (s.startStream n x).anv.streams = Sparse.put s.anv.streams n { x with started := some s.wall } :=
  congrArg Anv.streams anv_judgeSync

theorem regsBut_startStream :
    (s.startStream n x).regsBut s [Reg.ANV_INGEST_STATUS, Reg.TWN_STATUS, Reg.TWN_SYNC_WHY, Reg.TWN_INT_STAT] := fun a ha _ _ => by
  rw [List.mem_cons, not_or] at ha
  exact (reg_judgeSync_other ha.2).trans (reg_setFld_other ha.1)

theorem rest_setFld_anv {f : Field} {k : Nat} {rs : List (Nat × Word)} {a : Anv} :
    { s.setFld f k with regs := rs, anv := a } = { s with regs := rs, anv := a } := rfl

theorem rest_startStream : { s.startStream n x with regs := s.regs, anv := s.anv } = s :=
  rest_judgeSync_of (rest_setFld_anv.trans rfl)

/-! ## STREAM_STOP -/

/-- Started stream `n`, set as `x`, stops: the frames still filling in which it takes part are refused first (R127). -/
def State.stopStream (s : State) (g : Grid) (n : Nat) (x : Stream) : State :=
  (((s.stopFrames g x).setFld F.ANV_INGEST_STATUS_started ((s.stopFrames g x).fld F.ANV_INGEST_STATUS_started - 2 ^ n)).modAnv fun a => { a with
    streams := Sparse.put a.streams n { x with started := none }, staged := a.staged.filter fun y => y.1 % 16 != n }).judgeSync

section
variable (h : s.taken 0x60 = some (slot, desc, v)) (ho : byteAt desc 0 = 4) (hn : byteAt desc 1 < 16)
  (hx : v.stream (byteAt desc 1) = some x)
include h ho hn hx

theorem exec_streamStop_idle (hs : v.isStarted (byteAt desc 1) = false) :
    exec .streamStop s = .next ((v.finish 0x60 slot okCpl).settle 0x60) := by
  refine streamCommand_ends h ho hn ?_
  rw [hx]
  dsimp only
  split
  · rw [hs]; rfl
  · rfl

theorem exec_streamStop {g : Grid} (hg : v.grid = some g) (hs : v.isStarted (byteAt desc 1) = true) :
    exec .streamStop s = .next (((v.stopStream g (byteAt desc 1) x).finish 0x60 slot okCpl).settle 0x60) := by
  refine streamCommand_ends h ho hn ?_
  rw [hx, hg]
  dsimp only
  rw [hs]
  rfl

end

section
variable {g : Grid}

theorem isStarted_stopStream (hs : s.isStarted n = true) (hm : m < 16) :
    (s.stopStream g n x).isStarted m = (s.isStarted m && decide (m ≠ n)) := by
  have kept : (s.stopFrames g x).fld F.ANV_INGEST_STATUS_started = s.fld F.ANV_INGEST_STATUS_started := decides_stopFrames.started
  rw [State.stopStream, isStarted_judgeSync, isStarted_modAnv, isStarted_setFld hm, kept, testBit_sub_two_pow hs]
  rfl

theorem streams_stopStream : (s.stopStream g n x).anv.streams = Sparse.put s.anv.streams n { x with started := none } := by
  have kept : (s.stopFrames g x).anv.streams = s.anv.streams := decides_stopFrames.streams
  rw [State.stopStream, anv_judgeSync, ← kept]
  rfl

theorem decision_stopStream {k : Nat} : (s.stopStream g n x).decision k = (s.stopFrames g x).decision k := by
  simp only [State.decision, State.stopStream, anv_judgeSync]
  rfl

theorem blocksBut_stopStream : (s.stopStream g n x).blocksBut s [1, 6, 8, 12, 14] :=
  State.blocksBut.trans (decides_stopFrames.reg.setFld (by decide)) (blocksBut_judgeSync (by decide)) (List.Subset.refl _)
    (List.Subset.refl _)

theorem decision_stopFrames_filling {f : FrameRec} (hf : f ∈ s.anv.frames) (hd : s.decision f.k = none)
    (hp : x.takesPart g f.k = true) : (s.stopFrames g x).decision f.k = some 8 := by
  refine decides_stopFrames.decision_of_mem ?_ ?_
  · exact List.mem_map.2 ⟨f, List.mem_reverse.2 (List.mem_filter.2 ⟨hf, by simp [hd, hp]⟩), rfl⟩
  · intro d hd
    obtain ⟨f, -, rfl⟩ := List.mem_map.1 hd
    rfl

theorem decision_stopFrames_decided {k d : Nat} (hd : s.decision k = some d) : (s.stopFrames g x).decision k = some d := by
  rw [decides_stopFrames.decision_other, hd]
  intro e he
  obtain ⟨f, hf, rfl⟩ := List.mem_map.1 he
  rintro rfl
  have open_ := (List.mem_filter.1 (List.mem_reverse.1 hf)).2
  simp [hd] at open_

end

/-! ## The statement -/

theorem exec_slackReset {ini : Nat} {w : Word} (hr : s.reaches ini Reg.ANV_SLACK_RESET = true) (hw : fieldOf F.ANV_SLACK_RESET_reset w = 1) :
    exec (.slackReset ini w) s = .next ((s.answerWith .ok).setReg Reg.ANV_SLACK_MIN 0x7FFFFFFF) := by
  change done (s.setupAccess ini Reg.ANV_SLACK_RESET true fun s => s.slackReset w) = _
  rw [setupAccess_reaches hr, State.slackReset, if_pos hw, done]

theorem streamCommands_badNumber (h : s.taken 0x60 = some (slot, desc, v)) {op : Nat} {c : Instr}
    (hc : (op, c) ∈ [(2, Instr.streamSet), (3, .streamStart), (4, .streamStop)]) (ho : byteAt desc 0 = op) (hn : 16 ≤ byteAt desc 1) :
    exec c s = .next ((v.finish 0x60 slot (badField 0x81)).settle 0x60) := by
  simp only [List.mem_cons, Prod.mk.injEq, List.not_mem_nil, or_false] at hc
  obtain ⟨rfl, rfl⟩ | ⟨rfl, rfl⟩ | ⟨rfl, rfl⟩ := hc <;> exact streamCommand_badField h ho hn

end

/-- Settles O44: each command by what it finds in its descriptor and its block; what STREAM_STOP refuses are `Decides`. -/
theorem canvasAndStreamsAreSet : Obligations.CanvasAndStreamsAreSet := by
  refine ⟨fun s v slot desc h => ⟨exec_canvasSet_refused h, fun op c hc => streamCommands_badNumber h hc, exec_streamSet_refused h,
    fun ho hn => ⟨exec_streamStart_refused h ho hn, fun x hx hs => ⟨fun c => exec_streamStart_unfit h ho hn hx hs, fun hr => ?_⟩⟩,
    fun ho hn => ⟨fun x hx => exec_streamStop_idle h ho hn hx, fun x g hx hg hs => ?_⟩⟩,
    fun s v slot desc b h => ⟨fun g ho hs hg => ⟨fun o hc => ?_, fun o hc hb => ?_, canvasSet_starts_empty h ho hs hg⟩,
      fun ho hn hs => ⟨fun o hb => ?_, fun hb hf => ?_, streamSet_sets h ho hn hs⟩⟩,
    fun ini w s hr hw => ?_⟩
  · exact ⟨v.startStream (byteAt desc 1) x, exec_streamStart h ho hn hx hs hr, fun n => isStarted_startStream hs,
      stream_put_same streams_startStream, fun n => stream_put_other streams_startStream, regsBut_startStream, rest_startStream⟩
  · exact ⟨v.stopStream g (byteAt desc 1) x, exec_streamStop h ho hn hx hg hs, fun n => isStarted_stopStream hs,
      stream_put_same streams_stopStream, fun n => stream_put_other streams_stopStream,
      fun f hf hd hp => decision_stopStream.trans (decision_stopFrames_filling hf hd hp),
      fun k d hd => decision_stopStream.trans (decision_stopFrames_decided hd), blocksBut_stopStream⟩
  · exact exec_canvasSet h ho hs hg (by simp [hc]) (by simp [hc]) (by simp [hc])
  · exact exec_canvasSet h ho hs hg (by simp [hb]) (by simp [hc]) (by simp [hb])
  · exact exec_streamSet h ho hn hs (by simp [hb]) (by simp [hb]) (by simp [hb])
  · exact exec_streamSet h ho hn hs (by simp [hf]) (by simp [hb]) (by simp)
  · exact ⟨_, exec_slackReset hr hw, reg_setReg_same, fun a ha _ _ => reg_setReg_other (by simpa using ha), rfl⟩

end Sys2Proof.Machine
end

section
/-! The bits of the dead map (R180, R181): what a read, a change and a write of one of its words make of them, where the map can be read
and written; then DEAD_SET and DEAD_CLEAR word by word. -/

namespace Sys2Proof.Machine

/-! ## Bits of numbers and of bytes -/

theorem natLE_length {n v : Nat} : (natLE n v).length = n := by
  induction n generalizing v with
  | zero => rfl
  | succ n ih => rw [natLE, List.length_cons, ih]

theorem natLE_testBit {n v i j : Nat} (hi : i < n) (hj : j < 8) :
    ((natLE n v)[i]'(by rwa [natLE_length])).toNat.testBit j = v.testBit (8 * i + j) := by
  induction n generalizing v i with
  | zero => omega
  | succ n ih =>
    cases i with
    | zero => simp [natLE, hj, Nat.testBit_mod_two_pow (j := 8)]
    | succ i =>
      rw [show 8 * (i + 1) + j = 8 * i + j + 8 by omega, ← Nat.testBit_div_two_pow]
      exact ih (by omega)

theorem leNat_testBit {bs : List Byte} {i j : Nat} (hi : i < bs.length) (hj : j < 8) :
    (leNat bs).testBit (8 * i + j) = bs[i].toNat.testBit j := by
  induction bs generalizing i with
  | nil => simp at hi
  | cons b bs ih =>
    have split : leNat (b :: bs) = 2 ^ 8 * leNat bs + b.toNat := by rw [leNat, add_comm, show 256 = 2 ^ 8 from rfl]
    rw [split, Nat.testBit_two_pow_mul_add _ b.isLt]
    cases i with
    | zero => simp [hj]
    | succ i =>
      rw [if_neg (by omega), show 8 * (i + 1) + j - 8 = 8 * i + j by omega]
      exact ih (by simpa using hi)

theorem sub_and_halves {v m : Nat} : (v - (v &&& m)) % 2 = v % 2 - (v &&& m) % 2 ∧
    (v - (v &&& m)) / 2 = v / 2 - (v / 2 &&& m / 2) := by
  have half := Nat.and_div_two (a := v) (b := m)
  have odd := Nat.and_mod_two_eq_one (a := v) (b := m)
  have below : v &&& m ≤ v := Nat.and_le_left
  omega

theorem testBit_sub_and {v m j : Nat} : (v - (v &&& m)).testBit j = (v.testBit j && !m.testBit j) := by
  induction j generalizing v m with
  | zero =>
    have odd := Nat.and_mod_two_eq_one (a := v) (b := m)
    rw [Bool.eq_iff_iff]
    simp only [Nat.testBit_zero, sub_and_halves.1, Bool.and_eq_true, decide_eq_true_eq, Bool.not_eq_true', decide_eq_false_iff_not]
    omega
  | succ j ih =>
    simp only [Nat.testBit_succ, sub_and_halves.2]
    exact ih

/-- A number made of the powers of two that `p` picks. -/
theorem foldl_two_pow {p : Nat → Prop} [DecidablePred p] {n : Nat} :
    (List.range n).foldl (fun a i => if p i then a + 2 ^ i else a) 0 < 2 ^ n ∧
      ∀ j, ((List.range n).foldl (fun a i => if p i then a + 2 ^ i else a) 0).testBit j = decide (j < n ∧ p j) := by
  induction n with
  | zero => simp
  | succ n ih =>
    obtain ⟨lt, bit⟩ := ih
    rw [List.range_succ, List.foldl_append, List.foldl_cons, List.foldl_nil]
    generalize (List.range n).foldl (fun a i => if p i then a + 2 ^ i else a) 0 = v at *
    split
    next hp =>
      refine ⟨by rw [pow_succ]; omega, fun j => ?_⟩
      rw [testBit_add_two_pow (Nat.testBit_lt_two_pow lt), bit]
      by_cases hj : j = n
      · simp [hj, hp]
      · simp [hj, show (j < n + 1) ↔ j < n by omega]
    next hp =>
      refine ⟨by rw [pow_succ]; omega, fun j => ?_⟩
      rw [bit]
      by_cases hj : j = n
      · simp [hj, hp]
      · simp [show (j < n + 1) ↔ j < n by omega]

/-! ## The words of the dead map -/

section
variable {s t u v : State} {m : Mem} {w mask k slot : Nat} {on : Bool} {desc b : List Byte}

/-- Bit `k` of the dead map (R180). -/
def Mem.deadBit (m : Mem) (k : Nat) : Bool := (m.byte (deadAddr k)).toNat.testBit (k % 8)

theorem deadAddr_word {i : Nat} : deadAddr (64 * w + i) = 0x102E80000 + 8 * w + i / 8 := by
  unfold deadAddr
  omega

theorem testBit_deadWord {i : Nat} (hi : i < 64) :
    (leNat (m.bytes (0x102E80000 + 8 * w) 8)).testBit i = m.deadBit (64 * w + i) := by
  have len : (m.bytes (0x102E80000 + 8 * w) 8).length = 8 := by simp [Mem.bytes]
  have bit := leNat_testBit (bs := m.bytes (0x102E80000 + 8 * w) 8) (i := i / 8) (j := i % 8) (by omega) (by omega)
  rw [Nat.div_add_mod] at bit
  rw [bit, Mem.deadBit, deadAddr_word, show (64 * w + i) % 8 = i % 8 by omega]
  simp [Mem.bytes]

/-- A word of the dead map that is written holds the bits of what was written, and the others are as they were. -/
theorem deadBit_putWord {j : Nat} : (m.putBytes (0x102E80000 + 8 * w) (natLE 8 k)).deadBit j =
    if j / 64 = w then k.testBit (j % 64) else m.deadBit j := by
  unfold Mem.deadBit
  split
  next hj =>
    have hi : j % 64 / 8 < (natLE 8 k).length := by rw [natLE_length]; omega
    have place := deadAddr_word (w := w) (i := j % 64)
    rw [show 64 * w + j % 64 = j by omega] at place
    rw [place, Mem.byte_putBytes _ hi, natLE_testBit (by omega) (by omega)]
    congr 1
    omega
  next hj =>
    rw [Mem.byte_putBytes_other]
    rw [natLE_length]
    unfold deadAddr
    omega

/-- The dead map can be read and written: it has power, its codewords are good, and no flip test is armed. -/
structure DeadMapGood (s : State) : Prop where
  flips  : s.mem.flips = []
  poison : s.mem.poison = []
  arm    : s.flag F.MEM_FLIP_CTRL_arm = false
  on     : s.memOn 0x102E80000 0x180000 = true

section
variable {a : Nat} (lo : 0x102E80000 ≤ a) (hi : a + 8 ≤ 0x103000000)
include lo hi

theorem region_deadMap : region a = some .billet := by
  unfold region
  rw [if_neg (by omega), if_pos (by omega)]

/-- The scan ports' initiator may read and write the dead map (R340). -/
theorem judge_deadMap {write : Bool} : s.judge 12 a 8 write = none := by
  have holder : s.fwlHolder a = some ⟨67, 0x102E80000, 0x102FFFFFF, 0x5F1F, 0x1000⟩ := by
    have above : ¬ 0x181F00000 ≤ a ∧ ¬ 0x181E00000 ≤ a := by omega
    have inside : 0x102E80000 ≤ a ∧ a ≤ 0x102FFFFFF := by omega
    simp [State.fwlHolder, fixedRules, above, inside]
  have last : a + 7 ≤ 0x102FFFFFF := by omega
  unfold State.judge
  rw [region_deadMap lo hi, holder]
  cases write <;> simp [last] <;> decide

theorem memOn_deadMap (h : s.memOn 0x102E80000 0x180000 = true) : s.memOn a 8 = true := by
  have domain {c : Nat} (hlo : 0x102E80000 ≤ c) (hhi : c < 0x103000000) : memDomain c = 29 := by
    unfold memDomain
    rw [show region c = some .billet by unfold region; rw [if_neg (by omega), if_pos hhi]]
    dsimp only
    rw [if_neg (by omega)]
  have whole : s.powered 29 = true ∧ s.powered 13 = true := by
    rw [State.memOn, domain (by decide) (by decide), domain (by decide) (by decide)] at h
    simp_all
  rw [State.memOn, region_deadMap lo hi, domain lo (by omega), domain (by omega) (by omega), whole.1, whole.2]
  rfl

end

theorem Mem.errors_putBytes {a : Nat} {data : List Byte} :
    (m.putBytes a data).flips = m.flips ∧ (m.putBytes a data).poison = m.poison := by
  induction data generalizing m a with
  | nil => exact ⟨rfl, rfl⟩
  | cons x data ih => exact ih

section
variable {ini a : Nat} {data : List Byte} (h : DeadMapGood s)
include h

theorem DeadMapGood.putBytes : DeadMapGood (s.modMem fun m => m.putBytes a data) :=
  ⟨Mem.errors_putBytes.1.trans h.flips, Mem.errors_putBytes.2.trans h.poison, h.arm, h.on⟩

theorem storeWord_clean : s.storeWord a = s := by
  have same : { s.mem with flips := Sparse.set (fun _ => 0) (Sparse.del s.mem.flips (l2Key + a)) a 0, poison := Sparse.del s.mem.poison a } =
      s.mem := by
    rw [h.flips, h.poison, show Sparse.del ([] : List (Nat × Bool)) a = s.mem.poison from h.poison.symm,
      show Sparse.set (fun _ => 0) (Sparse.del [] (l2Key + a)) a 0 = s.mem.flips from h.flips.symm]
  unfold State.storeWord
  rw [h.arm]
  exact congrArg (fun m => { s with mem := m }) same

/-- A word that the firewall grants is stored, where there is no error and no flip test, and nothing else changes. -/
theorem writeMem_clean (hj : s.judge ini a 8 true = none) (ho : s.memOn a 8 = true) (ha : a % 8 = 0) (hl : data.length = 8) :
    s.writeMem ini a data = (.data [], s.modMem fun m => m.putBytes a data) := by
  have words : wordsOf a 8 = [a] := by
    rw [wordsOf, ha]
    simp [List.range_succ]
    omega
  have part : wordPart a 8 a = (0, 8) := by simp [wordPart]
  have whole : sliceB data 0 8 = data := by simp [sliceB, ← hl]
  have word : s.writeWord ini a data a = (true, s.modMem fun m => m.putBytes a data) := by
    simp only [State.writeWord, hl, part, if_true, whole, Nat.add_zero, storeWord_clean h.putBytes]
  simp only [State.writeMem, hl, hj, ho, Bool.not_true, Bool.false_eq_true, if_false, State.storeBytes, words, List.foldl_cons,
    List.foldl_nil, word, Bool.and_self, if_true]

end

/-! ## DEAD_SET and DEAD_CLEAR -/

/-- Only memory has changed from `s` to `t`, and of it the bits of the dead map that `p` names, which are `on` now. -/
structure DeadSet (on : Bool) (p : Nat → Bool) (s t : State) : Prop where
  rest : { t with mem := s.mem } = s
  good : DeadMapGood t
  tcm  : t.mem.tcm = s.mem.tcm
  bit  : ∀ k, t.mem.deadBit k = if p k then on else s.mem.deadBit k
  byte : ∀ a, a < 0x102E80000 ∨ 0x103000000 ≤ a → t.mem.byte a = s.mem.byte a

section
variable {p q r : Nat → Bool}

theorem DeadSet.none (h : DeadMapGood s) (hp : ∀ k, p k = false) : DeadSet on p s s :=
  ⟨rfl, h, rfl, fun k => by simp [hp k], fun _ _ => rfl⟩

theorem DeadSet.eq (h : DeadSet on p s t) : t = { s with mem := t.mem } := by
  have rest := h.rest
  cases s; cases t
  simp_all

theorem DeadSet.trans (h : DeadSet on p s t) (k : DeadSet on q t u) (hr : ∀ j, r j = (p j || q j)) : DeadSet on r s u := by
  refine ⟨?_, k.good, k.tcm.trans h.tcm, fun j => ?_, fun a ha => (k.byte a ha).trans (h.byte a ha)⟩
  · have first := h.rest
    have second := k.rest
    cases s; cases t; cases u
    simp_all
  · rw [k.bit, h.bit, hr]
    cases p j <;> cases q j <;> rfl

end

/-- The bits of word `w` that `mask` names. -/
def inWord (w mask k : Nat) : Bool := k / 64 == w && mask.testBit (k % 64)

section
variable (h : DeadMapGood s) (hw : w < 196608)
include h hw

theorem deadSet_putWord {v : Nat} (hv : ∀ i < 64, v.testBit i = if mask.testBit i then on else s.mem.deadBit (64 * w + i)) :
    DeadSet on (inWord w mask) s (s.modMem fun m => m.putBytes (0x102E80000 + 8 * w) (natLE 8 v)) := by
  refine ⟨rfl, h.putBytes, Mem.tcm_putBytes, fun k => ?_, fun a ha => Mem.byte_putBytes_other (by rw [natLE_length]; omega)⟩
  refine deadBit_putWord.trans ?_
  by_cases hk : k / 64 = w
  · rw [if_pos hk, hv _ (by omega), inWord, show 64 * w + k % 64 = k by omega]
    simp [hk]
  · simp [hk, inWord]

theorem writeMem_deadWord {v : Nat} : s.writeMem 12 (0x102E80000 + 8 * w) (natLE 8 v) =
    (.data [], s.modMem fun m => m.putBytes (0x102E80000 + 8 * w) (natLE 8 v)) :=
  writeMem_clean h (judge_deadMap (by omega) (by omega)) (memOn_deadMap (by omega) (by omega) h.on) (by omega) natLE_length

theorem readMem_deadWord : s.readMem 12 (0x102E80000 + 8 * w) 8 = (.data (s.mem.bytes (0x102E80000 + 8 * w) 8), s) :=
  readMem_clean (judge_deadMap (by omega) (by omega)) (memOn_deadMap (by omega) (by omega) h.on) h.flips h.poison (by omega) (by omega)

/-- One word of the command: untouched, written outright, or read, changed and written. -/
theorem deadWord_sets : ∃ t, State.deadWord 0 s on mask w = (0, t) ∧ DeadSet on (inWord w mask) s t := by
  unfold State.deadWord
  dsimp only
  split
  next hm => exact ⟨s, rfl, .none h fun k => by simp [inWord, hm]⟩
  · split
    next hm =>
      rw [writeMem_deadWord h hw]
      refine ⟨_, rfl, deadSet_putWord h hw fun i hi => ?_⟩
      have all : mask.testBit i = true := by rw [hm, Nat.testBit_two_pow_sub_one, decide_eq_true hi]
      cases on <;> simp [all]
    next =>
      rw [readMem_deadWord h hw]
      dsimp only
      rw [writeMem_deadWord h hw]
      refine ⟨_, rfl, deadSet_putWord h hw fun i hi => ?_⟩
      rw [← testBit_deadWord hi]
      cases on
      · rw [if_neg Bool.false_ne_true, testBit_sub_and]
        cases mask.testBit i <;> simp
      · rw [if_pos rfl, Nat.testBit_or]
        cases mask.testBit i <;> simp

end

variable {port first count : Nat}

/-- The command names bit `k` of the dead map: a colour of `mask` of a pixel of its range on port `port`. -/
def namesBit (port mask first count k : Nat) : Bool :=
  decide (65536 * port + first ≤ k / 3 ∧ k / 3 < 65536 * port + first + count) && mask.testBit (k % 3)

theorem testBit_deadMask {i : Nat} (hi : i < 64) : (deadMask port mask first count w).testBit i = namesBit port mask first count (64 * w + i) := by
  have bit := (foldl_two_pow (n := 64) (p := fun i => 65536 * port + first ≤ (64 * w + i) / 3 ∧
    (64 * w + i) / 3 < 65536 * port + first + count ∧ mask.testBit ((64 * w + i) % 3) = true)).2 i
  refine bit.trans ?_
  simp [namesBit, hi, Bool.and_assoc]

/-- The words from `lo` on are done one after the other. -/
theorem deadWords_set {lo n : Nat} (h : DeadMapGood s) (hn : lo + n ≤ 196608) :
    ∃ t, (List.range n).foldl (fun acc i => acc.2.deadWord acc.1 on (deadMask port mask first count (lo + i)) (lo + i)) (0, s) = (0, t) ∧
      DeadSet on (fun k => decide (lo ≤ k / 64 ∧ k / 64 < lo + n) && namesBit port mask first count k) s t := by
  induction n with
  | zero => exact ⟨s, rfl, .none h fun k => by simp⟩
  | succ n ih =>
    obtain ⟨t, ht, words⟩ := ih (by omega)
    obtain ⟨u, hu, word⟩ := deadWord_sets (on := on) (mask := deadMask port mask first count (lo + n)) words.good
      (show lo + n < 196608 by omega)
    refine ⟨u, by rw [List.range_succ, List.foldl_append, ht]; exact hu, words.trans word fun k => ?_⟩
    by_cases hk : k / 64 = lo + n
    · have place : 64 * (lo + n) + k % 64 = k := by omega
      rw [inWord, testBit_deadMask (by omega), place]
      simp [hk]
    · have split : (lo ≤ k / 64 ∧ k / 64 < lo + (n + 1)) ↔ lo ≤ k / 64 ∧ k / 64 < lo + n := by omega
      simp [inWord, hk, split]

theorem deadBits_sets (h : DeadMapGood s) (hp : port < 64) (hc : 1 ≤ count) (hf : first + count ≤ 65536) :
    ∃ t, s.deadBits on port mask first count = (0, t) ∧ DeadSet on (namesBit port mask first count) s t := by
  obtain ⟨t, ht, words⟩ := deadWords_set (on := on) (port := port) (mask := mask) (first := first) (count := count)
    (lo := 3 * (65536 * port + first) / 64)
    (n := (3 * (65536 * port + first + count) - 1) / 64 + 1 - 3 * (65536 * port + first) / 64) h (by omega)
  refine ⟨t, ht, ⟨words.rest, words.good, words.tcm, fun k => ?_, words.byte⟩⟩
  have within (hk : namesBit port mask first count k = true) : 3 * (65536 * port + first) / 64 ≤ k / 64 ∧ k / 64 <
      3 * (65536 * port + first) / 64 + ((3 * (65536 * port + first + count) - 1) / 64 + 1 - 3 * (65536 * port + first) / 64) := by
    simp only [namesBit, Bool.and_eq_true, decide_eq_true_eq] at hk
    omega
  rw [words.bit]
  by_cases hk : namesBit port mask first count k = true
  · simp [hk, within hk]
  · simp [hk]

theorem firstBad_none {l : List (Bool × Nat)} (h : firstBad l = none) : ∀ c ∈ l, c.1 = true := by
  intro c hc
  have all := List.find?_eq_none.1 (Option.map_eq_none_iff.1 h) c hc
  simpa using all

theorem mirror_passive {cls off : Nat} {data : List Byte} (h : s.isActive = false) : s.mirror cls off data = s := by
  simp [State.mirror, h]

/-- What DEAD_SET and DEAD_CLEAR tell the twin of their block (R272). -/
def deadNews (on : Bool) (b : List Byte) : List Byte := natLE 1 4 ++ natLE 1 (b2n on) ++ sliceB b 0 2 ++ sliceB b 4 8

/-- The bits that the block names take their value, and the twin is told (R181, R272). -/
theorem dead_done (h : DeadMapGood v) (hb : deadBad b = none) :
    ∃ u : State, (v.deadBits on (byteAt b 0) (bits (byteAt b 1) 0 3) (le b 4 4) (le b 8 4)).1 = 0 ∧
      u = (v.deadBits on (byteAt b 0) (bits (byteAt b 1) 0 3) (le b 4 4) (le b 8 4)).2.mirror 4 aboutClass (deadNews on b) ∧
      (∀ m, m < 12582912 → (u.mem.byte (deadAddr m)).toNat.testBit (m % 8) =
        if 65536 * byteAt b 0 + le b 4 4 ≤ m / 3 ∧ m / 3 < 65536 * byteAt b 0 + le b 4 4 + le b 8 4 ∧ (byteAt b 1).testBit (m % 3) then on
        else (v.mem.byte (deadAddr m)).toNat.testBit (m % 8)) ∧
      (∀ a, (a < 0x102E80000 ∨ 0x103000000 ≤ a) → u.mem.byte a = v.mem.byte a) ∧
      (v.isActive = false → u.regsBut v []) ∧ u.blocksBut v [1, 6, 8, 12, 14] ∧ u.anv = v.anv := by
  have good := firstBad_none hb
  simp only [List.mem_cons, List.not_mem_nil, or_false, forall_eq_or_imp, forall_eq, decide_eq_true_eq, Bool.and_eq_true] at good
  obtain ⟨port, first, count, last⟩ := good
  obtain ⟨t, ht, set⟩ := deadBits_sets (on := on) (mask := bits (byteAt b 1) 0 3) h port count last
  have told := Serves.refl.mirror (s := t) (bs := [1, 6, 8, 12, 14]) (W := fun _ => False) (cls := 4) (off := aboutClass)
    (data := deadNews on b) (by decide)
  have reg {a : Nat} : t.reg a = v.reg a := by rw [set.eq]; rfl
  rw [ht]
  refine ⟨_, rfl, rfl, fun m _ => ?_, fun a ha => (told.byte a id).trans (set.byte a ha), fun ha a _ _ _ => ?_, fun a ha => ?_, ?_⟩
  · rw [told.byte _ id]
    refine (set.bit m).trans ?_
    simp only [namesBit, testBit_bits, Nat.zero_add, Nat.mod_lt m (show 0 < 3 by decide), decide_true, Bool.true_and, Bool.and_eq_true,
      decide_eq_true_eq, and_assoc]
    rfl
  · rw [mirror_passive (by rw [set.eq]; exact ha), reg]
  · rw [told.reg a ha, reg]
  · rw [told.anv, set.eq]

section
variable {op : Nat} {c : Instr} (hc : (op, c, on) ∈ [(7, Instr.deadSet, true), (8, .deadClear, false)]) (ho : byteAt desc 0 = op)
include hc

theorem exec_dead : exec c s = done (s.deadCommand op on) := by
  simp only [List.mem_cons, Prod.mk.injEq, List.not_mem_nil, or_false] at hc
  obtain ⟨rfl, rfl, rfl⟩ | ⟨rfl, rfl, rfl⟩ := hc <;> rfl

variable (h : s.takenBlock 0x60 = some (slot, desc, b, v))
include ho h

theorem exec_dead_badBlock {o : Nat} (hb : deadBad b = some o) :
    exec c s = .next ((v.finish 0x60 slot (badField o)).settle 0x60) := by
  obtain ⟨u, ht, hr, -⟩ := takenBlock_opens h
  rw [exec_dead hc]
  refine takeCommand_ends ht ho ?_
  rw [hr, hb]

theorem exec_dead_standby (hb : deadBad b = none) (hs : v.isStandby = true) :
    exec c s = .next ((v.finish 0x60 slot refusedState).settle 0x60) := by
  obtain ⟨u, ht, hr, -⟩ := takenBlock_opens h
  rw [exec_dead hc]
  refine takeCommand_ends ht ho ?_
  rw [hr, hb]
  exact if_pos hs

theorem exec_dead_done (hb : deadBad b = none) (hs : v.isStandby = false)
    (hd : (v.deadBits on (byteAt b 0) (bits (byteAt b 1) 0 3) (le b 4 4) (le b 8 4)).1 = 0) :
    exec c s = .next ((((v.deadBits on (byteAt b 0) (bits (byteAt b 1) 0 3) (le b 4 4) (le b 8 4)).2.mirror 4 aboutClass
      (deadNews on b)).finish 0x60 slot okCpl).settle 0x60) := by
  obtain ⟨u, ht, hr, -⟩ := takenBlock_opens h
  rw [exec_dead hc]
  refine takeCommand_ends ht ho ?_
  rw [hr, hb]
  dsimp only
  rw [hs, if_neg Bool.false_ne_true, hd]
  rfl

end

end
end Sys2Proof.Machine
end

section
/-! Proof of the statement on the pipeline's tables (R175, R177, R180, R181, R183 to R186, R192, R212): TEMPER_COMMIT and its end,
BRIGHTNESS, GREY_SET and the end of a recode pass; DEAD_SET and DEAD_CLEAR stand above. -/

namespace Sys2Proof.Machine

section
variable {s t u v w : State} {x : TemperSet} {slot : Nat} {desc b g : List Byte} {c : Cpl}

/-! ## A set becomes active (R185) -/

/-- A frame that no set has begun to grade holds no commit back. -/
theorem draining_ungraded (hf : ∀ f ∈ s.anv.frames, f.temper = none) : s.draining = false := by
  unfold State.draining
  split
  · rw [List.any_eq_false]
    intro f hm
    simp [hf f hm]
  · rfl

/-- The set `x` is active. -/
def State.withSet (s : State) (x : TemperSet) : State :=
  (((s.modAnv fun a => { a with temper := some x }).raise F.ANV_PIPE_STATUS_set_active).bump 7 1).judgeSync

theorem anv_withSet : (s.withSet x).anv = { s.anv with temper := some x } := anv_judgeSync.trans State.bump_anv

theorem rest_withSet : { s.withSet x with regs := s.regs, counts := s.counts, anv := s.anv } = s := by
  have sync := rest_judgeSync (s := ((s.modAnv fun a => { a with temper := some x }).raise F.ANV_PIPE_STATUS_set_active).bump 7 1)
  have counted := rest_bump (s := (s.modAnv fun a => { a with temper := some x }).raise F.ANV_PIPE_STATUS_set_active)
    (src := 7) (i := 1) (inst := 0) (n := 1)
  have raised : { (s.modAnv fun a => { a with temper := some x }).raise F.ANV_PIPE_STATUS_set_active with regs := s.regs, anv := s.anv } = s :=
    rest_setFld_anv.trans rfl
  unfold State.withSet
  generalize (s.modAnv fun a => { a with temper := some x }).raise F.ANV_PIPE_STATUS_set_active = r at *
  generalize r.bump 7 1 = q at *
  generalize q.judgeSync = p at *
  cases s; cases r; cases q; cases p
  simp_all

theorem fld_withSet {f : Field} (h : f.addr = Reg.ANV_PIPE_STATUS) :
    (s.withSet x).fld f = (s.raise F.ANV_PIPE_STATUS_set_active).fld f := by
  rw [State.withSet, fld_judgeSync (by rw [h]; decide), fld_bump (by rw [h]; decide) (by rw [h]; decide) (by decide) (by decide)]
  rfl

theorem regsBut_withSet :
    (s.withSet x).regsBut s [Reg.ANV_PIPE_STATUS, Reg.TWN_STATUS, Reg.TWN_SYNC_WHY, Reg.TWN_INT_STAT] := fun a ha lo hi => by
  rw [List.mem_cons, not_or] at ha
  rw [State.withSet, reg_judgeSync_other ha.2, reg_bump (by decide) (by decide) lo hi]
  exact reg_setFld_other ha.1

/-! ### The commit completes -/

theorem anv_commitDone : s.commitDone.anv = { s.anv with commitSlot := none } := rfl

theorem rest_commitDone : { s.commitDone with regs := s.regs, anv := s.anv } = s := by
  unfold State.commitDone State.raise State.lower State.wrapFld
  rw [rest_setFld_anv, rest_setFld_anv, rest_setFld_anv]
  rfl

theorem commitBusy_commitDone : s.commitDone.flag F.ANV_PIPE_STATUS_commit_busy = false := by
  unfold State.commitDone State.wrapFld State.raise State.flag
  rw [fld_setFld_other (by decide) (by decide), fld_setFld_other (by decide) (by decide), fld_lower (by decide)]
  rfl

theorem commitDone_commitDone : s.commitDone.flag F.ANV_PIPE_INT_STAT_commit_done = true := flag_raise (by decide) rfl

/-- The other fields of ANV_PIPE_STATUS stay. -/
theorem fld_commitDone {f : Field} (h : f.addr ≠ Reg.ANV_PIPE_INT_STAT) (hg : Apart f F.ANV_PIPE_STATUS_set_gen)
    (hb : Apart f F.ANV_PIPE_STATUS_commit_busy) : s.commitDone.fld f = s.fld f := by
  unfold State.commitDone State.wrapFld State.raise State.lower
  rw [fld_setFld_other (by decide) (.inl h), fld_setFld_other (by decide) hg, fld_setFld_other (by decide) hb]
  rfl

theorem setGen_commitDone : s.commitDone.fld F.ANV_PIPE_STATUS_set_gen =
    (s.fld F.ANV_PIPE_STATUS_set_gen + 1) % 2 ^ F.ANV_PIPE_STATUS_set_gen.width := by
  unfold State.commitDone State.wrapFld State.raise State.lower
  rw [fld_setFld_other (by decide) (by decide), fld_setFld_same (by decide), fld_setFld_other (by decide) (by decide)]
  rfl

theorem regsBut_commitDone : s.commitDone.regsBut s [Reg.ANV_PIPE_STATUS, Reg.ANV_PIPE_INT_STAT] := fun a ha _ _ => by
  simp only [List.mem_cons, List.not_mem_nil, or_false, not_or] at ha
  unfold State.commitDone State.wrapFld State.raise State.lower
  rw [reg_setFld_other ha.2, reg_setFld_other ha.1, reg_setFld_other ha.1]
  rfl

/-! ## TEMPER_COMMIT -/

/-- A set with the ageing curves in force, while no frame is graded under an older one, is active at once. -/
theorem activateSet_atOnce (hf : ∀ f ∈ s.anv.frames, f.temper = none) :
    s.activateSet slot x false = (some okCpl, (s.withSet x).commitDone) := by
  have quiet : (s.withSet x).draining = false := draining_ungraded (by rw [anv_withSet]; exact hf)
  unfold State.activateSet
  dsimp only
  rw [if_neg Bool.false_ne_true]
  exact if_neg (by rw [← State.withSet, quiet]; decide)

/-- The set that a raw-mode descriptor and its global table make. -/
def State.rawSet (s : State) (d g : List Byte) : TemperSet :=
  { desc := d, global := g, places := [], gen := (match s.anv.temper with | some t => t.gen + 1 | none => 1) }

theorem checkSet_badTable {d : List Byte} {es : List (List Byte)} (hg : globalGood g = false) :
    w.checkSet slot d g es = (some (badField 0), w) := by
  simp [State.checkSet, hg]

theorem checkSet_atOnce {d : List Byte} (hr : w.rawMode = true) (hg : globalGood g = true)
    (hc : curvePoints (tabCurves g) = curvePoints w.bankCurves) (hf : ∀ f ∈ w.anv.frames, f.temper = none) :
    w.checkSet slot d g [] = (some okCpl, (w.withSet (w.rawSet d g)).commitDone) := by
  have same : (curvePoints (tabCurves g) != curvePoints w.bankCurves) = false := by simp [hc]
  simp only [State.checkSet, same, hg, hr, Bool.not_true, Bool.false_and, Bool.false_eq_true, if_false]
  exact activateSet_atOnce hf

section
variable {d : List Byte}

/-- A table that cannot be read ends the command with the status of the failure (R186, R302). -/
theorem readSet_fails {r : MemAnswer} {st : Nat} (hm : v.readMem 5 (descGlobal d) 0x20000 = (r, w))
    (hr : (r = .error ∧ st = Status.memoryError) ∨ (r = .denied ∧ st = Status.accessDenied)) :
    v.readSet slot d = (some { status := st }, w) := by
  obtain ⟨rfl, rfl⟩ | ⟨rfl, rfl⟩ := hr <;> simp [State.readSet, State.anvilRead, hm]

theorem readSet_raw (hv : v.rawMode = true) (hd : v.anvilData (descGlobal d) 0x20000 = some (g, w)) :
    w.rawMode = true ∧ v.readSet slot d = w.checkSet slot d g [] := by
  have read : v.anvilRead (descGlobal d) 0x20000 = (.ok g, w) := by
    unfold State.anvilData at hd
    split at hd <;> cases hd
    assumption
  have anv : w.anv = v.anv := by
    have served := Serves.refl.readMem (s := v) (bs := [1, 12, 14]) (W := fun _ => False) (ini := 5) (a := descGlobal d) (len := 0x20000)
      (List.Subset.refl _)
    unfold State.anvilRead at read
    split at read <;> cases read
    next hm => rw [hm] at served; exact served.anv
  have raw : w.rawMode = true := by rwa [State.rawMode, anv]
  refine ⟨raw, ?_⟩
  unfold State.readSet
  rw [read]
  exact if_pos raw

end

/-- TEMPER_COMMIT while no earlier one waits for old frames, by what it finds. -/
theorem exec_temperCommit (h : s.takenBlock 0x60 = some (slot, desc, b, v)) (ho : byteAt desc 0 = 5) (hs : s.anv.commitSlot = none)
    (hd : ∀ o, descBad v.rawMode b = some o → (c, t) = (badField o, v))
    (hp : descBad v.rawMode b = none → v.planesMove b = true → (c, t) = (refusedState, v))
    (hr : descBad v.rawMode b = none → v.planesMove b = false → v.readSet slot b = (some c, t)) :
    exec .temperCommit s = .next ((t.finish 0x60 slot c).settle 0x60) := by
  obtain ⟨u, ht, hk, -⟩ := takenBlock_opens h
  refine (if_neg (by simp [hs])).trans (takeCommand_ends ht ho ?_)
  rw [hk]
  split
  next o k => obtain ⟨rfl, rfl⟩ := Prod.mk.inj (hd o k); rfl
  next k =>
    split
    next k' => obtain ⟨rfl, rfl⟩ := Prod.mk.inj (hp k k'); rfl
    next k' => exact hr k (Bool.eq_false_iff.2 k')

/-- What a set that is active at once shows and leaves. -/
theorem withSet_committed : ((w.withSet x).commitDone).anv = { w.anv with temper := some x, commitSlot := none } ∧
    (w.withSet x).commitDone.flag F.ANV_PIPE_STATUS_set_active = true ∧
    (w.withSet x).commitDone.fld F.ANV_PIPE_STATUS_set_gen =
      (w.fld F.ANV_PIPE_STATUS_set_gen + 1) % 2 ^ F.ANV_PIPE_STATUS_set_gen.width ∧
    (w.withSet x).commitDone.regsBut w
      [Reg.ANV_PIPE_STATUS, Reg.ANV_PIPE_INT_STAT, Reg.TWN_STATUS, Reg.TWN_SYNC_WHY, Reg.TWN_INT_STAT] ∧
    { (w.withSet x).commitDone with regs := w.regs, counts := w.counts, anv := w.anv } = w := by
  refine ⟨by rw [anv_commitDone, anv_withSet], ?_, ?_, fun a ha lo hi => ?_, ?_⟩
  · rw [State.flag, fld_commitDone (by decide) (by decide) (by decide), fld_withSet rfl, fld_raise (by decide) rfl]
    rfl
  · rw [setGen_commitDone, fld_withSet rfl, State.raise, fld_setFld_other (by decide) (by decide)]
  · simp only [List.mem_cons, List.not_mem_nil, or_false, not_or] at ha
    exact (regsBut_commitDone a (by simp [ha]) lo hi).trans (regsBut_withSet a (by simp [ha]) lo hi)
  · have done_ := rest_commitDone (s := w.withSet x)
    have set := rest_withSet (s := w) (x := x)
    generalize (w.withSet x).commitDone = p at *
    generalize w.withSet x = q at *
    cases w; cases q; cases p
    simp_all

theorem exec_temperCommitDrained {n : Nat} (h : s.anv.commitSlot = some n) : exec .temperCommitDrained s =
    if s.draining then .next s else .next ((s.commitDone.finish 0x60 n okCpl).settle 0x60) := by
  change execTemperCommitDrained s = _
  unfold execTemperCommitDrained
  rw [h]
  rfl

/-! ## BRIGHTNESS -/

/-- BRIGHTNESS by what it finds. -/
theorem exec_brightness (h : s.takenBlock 0x60 = some (slot, desc, b, v)) (ho : byteAt desc 0 = 6)
    (hb : ∀ o, brightBad b = some o → (c, t) = (badField o, v))
    (hs : brightBad b = none → (v.isStandby && (v.regN Reg.TWN_CLASS_REG).testBit 1) = true → (c, t) = (refusedState, v))
    (hk : brightBad b = none → (v.isStandby && (v.regN Reg.TWN_CLASS_REG).testBit 1) = false → (c, t) = (okCpl,
      (v.setBright (le b 0 2) (le b 2 2) (v.resolveK0 (le b 8 8))).mirror 1 0
        (natLE 4 (le b 0 2) ++ natLE 4 (le b 2 2) ++ natLE 8 (v.resolveK0 (le b 8 8))))) :
    exec .brightness s = .next ((t.finish 0x60 slot c).settle 0x60) := by
  obtain ⟨u, ht, hr, -⟩ := takenBlock_opens h
  refine takeCommand_ends ht ho ?_
  rw [hr]
  split
  next o k => obtain ⟨rfl, rfl⟩ := Prod.mk.inj (hb o k); rfl
  next k =>
    split
    next k' => obtain ⟨rfl, rfl⟩ := Prod.mk.inj (hs k k'); rfl
    next k' => obtain ⟨rfl, rfl⟩ := Prod.mk.inj (hk k (Bool.eq_false_iff.2 k')); rfl

/-- What a brightness that is set, and told to the twin, changes (R177). -/
theorem mirror_setBright {b1 r k0 cls off : Nat} {data : List Byte} (hu : u = (v.setBright b1 r k0).mirror cls off data) :
    (∀ k, k < k0 → brightAt u.anv.brights k = brightAt v.anv.brights k) ∧
    (∀ k, k0 + r ≤ k → brightAt u.anv.brights k = b1) ∧ { u.anv with brights := v.anv.brights } = v.anv ∧
    (v.isActive = false → u.regs = v.regs) ∧ u.bytesKept v ∧ u.blocksBut v [1, 6, 8, 12, 14] := by
  have told := Serves.refl.mirror (s := v.setBright b1 r k0) (bs := [1, 6, 8, 12, 14]) (W := fun _ => False) (cls := cls) (off := off)
    (data := data) (by decide)
  rw [← hu] at told
  refine ⟨fun k hk => ?_, fun k hk => ?_, ?_, fun ha => ?_, told.bytesKept, told.reg⟩
  · rw [told.anv]
    exact if_pos hk
  · rw [told.anv]
    exact (if_neg (by dsimp only; omega)).trans (if_pos hk)
  · rw [told.anv]
    rfl
  · rw [hu, mirror_passive (s := v.setBright b1 r k0) ha]
    rfl

/-! ## GREY_SET -/

theorem exec_greySet_refused (h : s.taken 0x60 = some (slot, desc, v)) (ho : byteAt desc 0 = 0x0B) (hs : v.anyStarted = true) :
    exec .greySet s = .next ((v.finish 0x60 slot refusedState).settle 0x60) :=
  takeCommand_ends h ho (if_pos hs)

/-- GREY_SET on a quiet module, by what its checks find. -/
theorem exec_greySet (h : s.takenBlock 0x60 = some (slot, desc, b, v)) (ho : byteAt desc 0 = 0x0B) (hs : v.anyStarted = false)
    (hb : ∀ o, greyBad v.anv.canvas b = some o → (c, t) = (badField o, v))
    (hk : greyBad v.anv.canvas b = none → (c, t) = (okCpl, (v.modAnv fun a => { a with grey := some b }).regridded)) :
    exec .greySet s = .next ((t.finish 0x60 slot c).settle 0x60) := by
  obtain ⟨u, ht, hr, -, hf⟩ := takenBlock_opens h
  have quiet : u.anyStarted = false := by rwa [State.anyStarted, ← hf]
  refine takeCommand_ends ht ho ?_
  rw [quiet, if_neg Bool.false_ne_true, hr]
  split
  next o k => obtain ⟨rfl, rfl⟩ := Prod.mk.inj (hb o k); rfl
  next k => obtain ⟨rfl, rfl⟩ := Prod.mk.inj (hk k); rfl

/-- A loaded configuration shows in ANV_GRY_STATUS (R212). -/
theorem loaded_regridded (h : s.anv.grey = some b) : (s.regridded.reg Reg.ANV_GRY_STATUS).getLsbD 0 = true := by
  have ports : s.greyFigures.gridChanged.reg Reg.ANV_GRY_STATUS = s.greyFigures.reg Reg.ANV_GRY_STATUS :=
    congrArg (Sparse.get Reg.resetVal · Reg.ANV_GRY_STATUS) (congrArg State.regs rest_gridChanged :)
  have odd {x y z w : Nat} : (BitVec.ofNat 32 (2 ^ 24 * x + 2 ^ 19 * y + 4 * z + 2 * w + 1)).getLsbD 0 = true := by
    rw [BitVec.getLsbD_ofNat, Nat.testBit_zero]
    simp
    omega
  rw [State.regridded, reg_judgeSync_other (by decide), ports, State.greyFigures, h]
  dsimp only
  rw [reg_setReg_other (by decide), reg_setReg_other (by decide), reg_setReg_other (by decide), reg_setReg_other (by decide),
    reg_setReg_same, odd]

/-! ## The recode pass (R175) -/

section
variable {bs : List Nat} {W : Nat → Prop} (h : Serves bs W s t) (hb : [1, 12, 14] ⊆ bs)
include h hb

theorem Serves.readInt {ini n k : Nat} : Serves bs W s (t.readInt ini x n k).2.2 := by
  have read := h.readMem hb (ini := ini) (a := x.int + 4 * (3 * n + k)) (len := 4)
  unfold State.readInt
  dsimp only
  split
  · exact read
  · exact read.drawn

theorem Serves.readInts {ini n st : Nat} : Serves bs W s (State.readInts st t ini x n).2.2 :=
  List.foldlRecOn (motive := fun r : List Nat × Nat × State => Serves bs W s r.2.2) _ _ h fun _ hr _ _ => hr.readInt hb

theorem Serves.recodePixel {ini n st : Nat} (hw : ∀ a, x.age + 4 * n ≤ a → a < x.age + 4 * n + 4 → W a) :
    Serves bs W s (State.recodePixel st t ini x n).2 :=
  (h.readInts hb).writeMem hb (by rwa [natLE_length])

theorem Serves.recodeAll {ini : Nat → Nat} (hw : ∀ a, x.age ≤ a → a < x.age + 0x1000000 → W a) : Serves bs W s (t.recodeAll x ini).2 := by
  refine Serves.foldl_pair h fun r n hn hr => hr.recodePixel hb fun a lo hi => hw a (by omega) ?_
  have last : n < 4194304 := List.mem_range.1 hn
  omega

end

theorem recodePassDone_ends (ht : s.anv.temper = some x) (hr : s.flag F.ANV_PIPE_STATUS_recode_busy = true) :
    ∃ u, exec .recodePassDone s = .next u ∧ u.flag F.ANV_PIPE_STATUS_recode_busy = false ∧ u.flag F.ANV_PIPE_INT_STAT_recode_done = true ∧
      u.anv = s.anv ∧ u.wall = s.wall ∧ u.blocksBut s [1, 6, 12, 14] ∧
      (∀ a, (a < x.age ∨ x.age + 0x1000000 ≤ a) → u.mem.byte a = s.mem.byte a) := by
  have recoded : Serves [1, 6, 12, 14] (fun a => x.age ≤ a ∧ a < x.age + 0x1000000) s
      (((s.recodeAll x sliceOf).2.lower F.ANV_PIPE_STATUS_recode_busy).raise F.ANV_PIPE_INT_STAT_recode_done) :=
    ((Serves.refl.recodeAll (by decide) fun _ => And.intro).lower (by decide) (by decide)).raise (by decide) (by decide)
  refine ⟨_, ?_, ?_, flag_raise (by decide) rfl, recoded.anv, recoded.wall, recoded.reg, fun a ha => recoded.byte a (by omega)⟩
  · change execRecodePassDone s = _
    unfold execRecodePassDone
    rw [ht]
    exact if_pos hr
  · rw [State.flag, State.raise, fld_setFld_other (by decide) (by decide), fld_lower (by decide)]
    rfl

end

/-! ## The statement -/

/-- Settles O46: each command opens its block and answers as its checks find; the recode pass is followed over all its writes. -/
theorem pipelineTablesAreCommitted : Obligations.PipelineTablesAreCommitted := by
  refine ⟨fun s v slot desc b h => ⟨fun ho hs => ?temper, fun ho => ?bright, fun op c on hc ho => ?dead, fun ho hq => ?grey⟩, ?started,
    fun n s h => ?drained, fun t s ht hr => recodePassDone_ends ht hr⟩
  case temper =>
    refine ⟨fun o hd => ?_, fun hd hp => ?_, fun r st w hd hp hm hr => ?_, fun g w hd hp hv hg => ?_⟩
    · exact exec_temperCommit h ho hs (fun o' k => by rw [hd] at k; cases k; rfl) (fun k => by simp [hd] at k) (fun k => by simp [hd] at k)
    · exact exec_temperCommit h ho hs (fun o' k => by simp [hd] at k) (fun _ _ => rfl) (fun _ k => by simp [hp] at k)
    · exact exec_temperCommit h ho hs (fun o' k => by simp [hd] at k) (fun _ k => by simp [hp] at k) (fun _ _ => readSet_fails hm hr)
    obtain ⟨raw, read⟩ := readSet_raw (slot := slot) hv hg
    have checked {c : Cpl} {t : State} (hc : w.checkSet slot b g [] = (some c, t)) :
        exec .temperCommit s = .next ((t.finish 0x60 slot c).settle 0x60) :=
      exec_temperCommit h ho hs (fun o' k => by simp [hd] at k) (fun _ k => by simp [hp] at k) fun _ _ => read.trans hc
    refine ⟨fun bad => checked (checkSet_badTable bad), fun good same old => ?_⟩
    obtain ⟨anv, active, gen, regs, rest⟩ := withSet_committed (w := w) (x := w.rawSet b g)
    exact ⟨_, checked (checkSet_atOnce raw good same old), ⟨w.rawSet b g, by rw [anv], rfl, rfl, rfl⟩, active, commitDone_commitDone,
      commitBusy_commitDone, gen, regs, by rw [anv], rest⟩
  case bright =>
    refine ⟨fun o hb => ?_, fun hb hs hc => ?_, fun hb hs => ?_⟩
    · exact exec_brightness h ho (fun o' k => by rw [hb] at k; cases k; rfl) (fun k => by simp [hb] at k) (fun k => by simp [hb] at k)
    · exact exec_brightness h ho (fun o' k => by simp [hb] at k) (fun _ _ => rfl) (fun _ k => by simp [hs, hc] at k)
    · exact ⟨_, v.resolveK0 (le b 8 8), exec_brightness h ho (fun o' k => by simp [hb] at k) (fun _ k => by simp [hs] at k)
        (fun _ _ => rfl), rfl, rfl, mirror_setBright rfl⟩
  case dead =>
    refine ⟨fun o => exec_dead_badBlock hc ho h, exec_dead_standby hc ho h, fun hb hs flips poison arm power => ?_⟩
    obtain ⟨u, written, rfl, ends⟩ := dead_done (on := on) ⟨flips, poison, arm, power⟩ hb
    exact ⟨_, exec_dead_done hc ho h hb hs written, ends⟩
  case grey =>
    refine ⟨fun o hb => ?_, fun hb => ?_⟩
    · exact exec_greySet h ho hq (fun o' k => by rw [hb] at k; cases k; rfl) (fun k => by simp [hb] at k)
    · exact ⟨_, exec_greySet h ho hq (fun o' k => by simp [hb] at k) (fun _ => rfl), anv_regridded, loaded_regridded rfl,
        blocksBut_regridded, rest_regridded_of rfl⟩
  case started => exact fun s v slot desc h ho hs => exec_greySet_refused h ho hs
  case drained =>
    refine ⟨fun hd => (exec_temperCommitDrained h).trans (if_pos hd), fun hd => ?_⟩
    exact ⟨s.commitDone, (exec_temperCommitDrained h).trans (if_neg (by simp [hd])), anv_commitDone, commitBusy_commitDone,
      commitDone_commitDone, regsBut_commitDone, rest_commitDone⟩

end Sys2Proof.Machine
end

section
/-! Proof of the statement on doorbells (R296). First a register write that a counter of the Hearth counts (`counted`), then a doorbell
word that is discarded, then one that is applied. -/

namespace Sys2Proof.Machine

/-! ## A counter that saturates (R6, R579) -/

theorem count_bump_saturates {s : State} {src i inst n : Nat} (h3 : src ≠ 3) (h4 : src ≠ 4)
    (h : ¬ (0xE08200 ≤ (counterRow src i inst).addr ∧ (counterRow src i inst).addr < 0xE08400)) :
    (s.bump src i inst n).count (counterRow src i inst).addr =
      satU (counterRow src i inst).width (s.count (counterRow src i inst).addr + n) := by
  unfold State.bump
  dsimp only
  rw [if_neg (by simp [h3, h4]), count_pmc h]
  exact count_setCount_same

section
variable {s : State} {a i c width : Nat} {w : Word}

/-! ## A register write that is counted -/

/-- The register at `a` takes the word `w`, and counter `i` of the Hearth (R320) is counted. -/
def State.counted (s : State) (a : Nat) (w : Word) (i : Nat) : State := (s.setReg a w).bump 1 i

theorem reg_counted_same (lo : a ≠ Reg.PMC_OVF_LO) (hi : a ≠ Reg.PMC_OVF_HI) : (s.counted a w i).reg a = w :=
  (reg_bump (by decide) (by decide) lo hi).trans reg_setReg_same

theorem regsBut_counted : (s.counted a w i).regsBut s [a] := fun _ hb lo hi =>
  (reg_bump (by decide) (by decide) lo hi).trans (reg_setReg_other (List.ne_of_not_mem_cons hb))

theorem rest_counted : { s.counted a w i with regs := s.regs, counts := s.counts } = s :=
  congrArg (fun t : State => { t with regs := s.regs }) (rest_bump (s := s.setReg a w))

section
variable (hr : counterRow 1 i 0 = ⟨c, width⟩)
include hr

theorem count_counted (hc : c < 0xE08200) : (s.counted a w i).count c = satU width (s.count c + 1) := by
  have grown := count_bump_saturates (s := s.setReg a w) (src := 1) (i := i) (inst := 0) (n := 1) (by decide) (by decide)
  rw [hr] at grown
  exact grown fun ⟨low, _⟩ => hc.not_ge low

theorem countsBut_counted : (s.counted a w i).countsBut s [c] := fun b hb hm =>
  count_bump_other (by rw [hr]; exact List.ne_of_not_mem_cons hb) hm

end
end

section
variable {s : State} {ini i c n v : Nat} {w : Word} {f : Field}

/-! ## A doorbell is discarded -/

/-- The word is recorded, the counter counted and the flag set, and nothing else changes. -/
theorem discarded (ha : f.addr = Reg.HRT_INT_STAT) (hl : f.lo + f.width ≤ 32) (hw : f.width = 1)
    (hr : counterRow 1 i 0 = ⟨c, 32⟩) (hc : c < 0xE08200) {t : State} (ht : t = (s.counted Reg.HRT_DB_LAST_BAD w i).raise f) :
    t.reg Reg.HRT_DB_LAST_BAD = w ∧ t.flag f = true ∧ t.count c = satU 32 (s.count c + 1) ∧
      t.regsBut s [Reg.HRT_DB_LAST_BAD, Reg.HRT_INT_STAT] ∧ t.countsBut s [c] ∧
      { t with regs := s.regs, counts := s.counts } = s := by
  subst ht
  refine ⟨?_, flag_raise hl hw, count_counted hr hc, fun b hb lo hi => ?_, countsBut_counted hr, rest_counted⟩
  · exact (reg_setFld_other (by rw [ha]; decide)).trans (reg_counted_same (by decide) (by decide))
  · obtain ⟨last, stat⟩ : b ≠ Reg.HRT_DB_LAST_BAD ∧ b ≠ Reg.HRT_INT_STAT := by simpa using hb
    exact (reg_setFld_other (ha ▸ stat)).trans (regsBut_counted b (by simpa using last) lo hi)

theorem doorbellBad_unknown : s.doorbellBad w true = (s.counted Reg.HRT_DB_LAST_BAD w 2).raise F.HRT_INT_STAT_db_unknown := rfl

theorem doorbellBad_bad : s.doorbellBad w false = (s.counted Reg.HRT_DB_LAST_BAD w 1).raise F.HRT_INT_STAT_db_bad := rfl

/-! ## A doorbell is applied -/

/-- Rings 0x08, 0x50 and 0x58 note the initiator that rang. -/
def State.rungBy (s : State) (ini n : Nat) : State :=
  let s := if n = 0x08 then s.modKey fun k => { k with doorbellBy := ini } else s
  let s := if n = 0x50 then s.modBoot fun b => { b with updBy := ini } else s
  if n = 0x58 then s.modRec fun r => { r with doorbellBy := ini } else s

theorem rest_rungBy : { s.rungBy ini n with key := s.key, boot := s.boot, recd := s.recd } = s := by
  unfold State.rungBy
  split_ifs <;> rfl

theorem regs_rungBy : (s.rungBy ini n).regs = s.regs := (congrArg State.regs rest_rungBy :)

theorem counts_rungBy : (s.rungBy ini n).counts = s.counts := (congrArg State.counts rest_rungBy :)

/-- Ring `n` has its new producer index, and its doorbell is counted. -/
def State.rung (s : State) (ini n v : Nat) : State :=
  (s.counted (Reg.HRT_RING_PROD n) (BitVec.ofNat 32 v) 0).rungBy ini n

theorem reg_rung {a : Nat} : (s.rung ini n v).reg a = (s.counted (Reg.HRT_RING_PROD n) (BitVec.ofNat 32 v) 0).reg a :=
  State.reg_congr _ regs_rungBy a

theorem count_rung {a : Nat} : (s.rung ini n v).count a = (s.counted (Reg.HRT_RING_PROD n) (BitVec.ofNat 32 v) 0).count a :=
  State.count_congr _ counts_rungBy a

theorem rest_rung : { s.rung ini n v with regs := s.regs, counts := s.counts, key := s.key, boot := s.boot, recd := s.recd } = s :=
  calc
    _ = { s.counted (Reg.HRT_RING_PROD n) (BitVec.ofNat 32 v) 0 with
          regs := s.regs, counts := s.counts, key := s.key, boot := s.boot, recd := s.recd } :=
      congrArg (fun t : State => { t with regs := s.regs, counts := s.counts, key := s.key, boot := s.boot, recd := s.recd })
        rest_rungBy
    _ = s := congrArg (fun t : State => { t with key := s.key, boot := s.boot, recd := s.recd }) rest_counted

theorem mem_rung : (s.rung ini n v).mem = s.mem := (congrArg State.mem rest_rung :)
theorem hrt_rung : (s.rung ini n v).hrt = s.hrt := (congrArg State.hrt rest_rung :)
theorem out_rung : (s.rung ini n v).out = s.out := (congrArg State.out rest_rung :)

/-- The registers of the rings lie below those of the performance monitors. -/
theorem producer_ne_overflow (hn : n < 256) : Reg.HRT_RING_PROD n ≠ Reg.PMC_OVF_LO ∧ Reg.HRT_RING_PROD n ≠ Reg.PMC_OVF_HI := by
  simp only [Reg.HRT_RING_PROD, Reg.PMC_OVF_LO, Reg.PMC_OVF_HI]
  omega

theorem regN_rung (hn : n < 256) (hv : v < 2 ^ 32) : (s.rung ini n v).regN (Reg.HRT_RING_PROD n) = v := by
  obtain ⟨lo, hi⟩ := producer_ne_overflow hn
  rw [State.regN, reg_rung, reg_counted_same lo hi, BitVec.toNat_ofNat, Nat.mod_eq_of_lt hv]

/-! ## The command -/

section
variable (hn : fieldOf F.DBL_RING_ring w = n) (hv : fieldOf F.DBL_RING_producer w = v)
include hn

theorem exec_doorbell (hr : s.reaches ini Reg.DBL_RING = true) (hx : ¬ (0x20 ≤ n ∧ n < 0x38)) :
    exec (.doorbell ini w) s = .next ((s.answerWith .ok).doorbell ini w) := by
  change execDoorbell ini w s = _
  subst hn
  rw [execDoorbell, setupAccess_reaches hr, State.dblWrite, if_neg hx, done]

variable (hk : n = 0x08 → s.flag F.KEY_CFG_lock = true → ini = 4)
include hk

/-- The Keystore's lock bars no doorbell of initiator 4, and none of another ring (R533). -/
theorem doorbell_unbarred : ¬ (fieldOf F.DBL_RING_ring w = 0x08 ∧ s.flag F.KEY_CFG_lock ∧ ini ≠ 4) := by
  rw [hn]
  exact fun ⟨h8, locked, other⟩ => other (hk h8 locked)

theorem doorbell_unknown (he : (ringAssigned n && s.ringEnabled n) = false) : s.doorbell ini w = s.doorbellBad w true := by
  rw [State.doorbell, if_neg (doorbell_unbarred hn hk), hn, if_pos (by rw [← Bool.not_and, he]; rfl)]

variable (ha : ringAssigned n = true) (he : s.ringEnabled n = true)
include hv ha he

theorem doorbell_bad (hb : s.ringMod n ≤ v ∨ s.ringSize n < s.ringDiff n v (s.regN (Reg.HRT_RING_CONS n))) :
    s.doorbell ini w = s.doorbellBad w false := by
  rw [State.doorbell, if_neg (doorbell_unbarred hn hk), hn, hv, if_neg (by simp [ha, he]), if_pos hb]

theorem doorbell_applied (hm : v < s.ringMod n) (hd : s.ringDiff n v (s.regN (Reg.HRT_RING_CONS n)) ≤ s.ringSize n) :
    s.doorbell ini w = (s.rung ini n v).settle n := by
  rw [State.doorbell, if_neg (doorbell_unbarred hn hk), hn, hv, if_neg (by simp [ha, he]), if_neg (by omega)]
  rfl

end
end

/-- Settles O16: by the case of the doorbell word; what is left as it was is what `counted` leaves. -/
theorem doorbellIsChecked : Obligations.DoorbellIsChecked := by
  unfold Obligations.DoorbellIsChecked
  intro ini w s n v hr hn hv hx hk
  rw [exec_doorbell hn hr hx]
  refine ⟨fun ha he hm hd => ?applied, fun he => ?unknown, fun ha he hb => ?bad⟩
  case applied =>
    have ring : n < 256 := hn ▸ bits_lt _ _ _
    have index : v < 2 ^ 32 := hv ▸ (bits_lt _ _ _).trans (by decide)
    refine ⟨(s.answerWith .ok).rung ini n v, congrArg _ (doorbell_applied (s := s.answerWith .ok) hn hv hk ha he hm hd), regN_rung ring index,
      count_rung.trans (count_counted rfl (by decide)), fun a h lo hi => reg_rung.trans (regsBut_counted a h lo hi),
      fun c h hm => count_rung.trans (countsBut_counted rfl c h hm), ?_, hrt_rung, out_rung⟩
    exact ⟨fun a => congrArg (Mem.byte · a) mem_rung, congrArg Mem.tcm mem_rung⟩
  case unknown =>
    exact ⟨_, rfl, discarded rfl (by decide) rfl rfl (by decide) ((doorbell_unknown (s := s.answerWith .ok) hn hk he).trans doorbellBad_unknown)⟩
  case bad =>
    exact ⟨_, rfl, discarded rfl (by decide) rfl rfl (by decide) ((doorbell_bad (s := s.answerWith .ok) hn hv hk ha he hb).trans doorbellBad_bad)⟩

end Sys2Proof.Machine
end
